-- ==== Sys2Proof/Word.lean ====
section
/-! DEFINITION. The byte and word types of the PL9600 model (00_scope.md R7, R8). -/

namespace Sys2Proof

/-- One byte of memory. -/
abbrev Byte := BitVec 8

/-- A 16-bit register half or a u16 field. -/
abbrev Half := BitVec 16

/-- A 32-bit register or a u32 field. -/
abbrev Word := BitVec 32

/-- A 64-bit value: an address, TIME, a tick number, a fuse word. -/
abbrev DWord := BitVec 64

end Sys2Proof
end

