-- ==== Sys2Proof/Syntax.lean ====
section
/-! DEFINITION. The commands of the block: one constructor of `Instr` per row of
spec/opcode_table.json. Operands carry what comes from outside; what the part itself holds (a
macro-op record, a descriptor, a queue) is read from the state. -/

namespace Sys2Proof

/-- The typed body of a host command descriptor (12 R341); FLAGS and SEQUENCE stand beside it. -/
inductive Cmd where
  | loadSchedule (addr len : DWord)
  | start (t : DWord)
  | stop
  | stats (dst : DWord) (len : Word)
  | setParams (set len : Half) (inl : List Byte)
  | setSensor (set : List Byte)
  | openWindow (dir window peer kind facet region : Byte) (base size : DWord)
  | closeWindow (dir window : Byte)
  | globalOp (kind window : Byte) (opId : Word) (tick : DWord) (arg timeout : Word) (src : DWord)
      (len : Word)
  | snapshot (tick : DWord)
  | readCounters (dst : DWord) (len : Word)
  | readJournal (first : DWord) (count : Word) (dst : DWord)
  | attest (nonce : List Byte) (dst : DWord) (len : Word)
  | enroll (addr : DWord) (len : Word) (slot : Byte)
  | fuseProgram (region word source : Byte) (bits : DWord)
  | fuseSeal (region : Byte)
  | fuseLock (region kind : Byte)
  | updateFirmware (addr : DWord) (len : Word)
  | activateFirmware (slot : Byte)
  | setTemplate (tmpl : Byte) (addr : DWord) (len : Word)
  | dmaAbort (engine channel : Byte)
  | regionRestart (mask : Half)
  | calibrationLoad (addr : DWord) (len : Word)
  | setPolicy (addr : DWord) (len : Word)
  deriving DecidableEq, Repr

/-- A command descriptor of 12 R334: its typed body with FLAGS and SEQUENCE. -/
structure Desc where
  cmd : Cmd
  flags : Half
  seq : Word
  deriving DecidableEq, Repr

/-- The two paths that can write registers and the owner that is neither (12 R325). -/
inductive Owner where
  | none | pcie | localbus
  deriving DecidableEq, Repr

/-- Who makes an access to a scratchpad bank (05 R127, R135): the read of an accumulate-on-write two cycles
after its write, the hold that it keeps on its unit, an engine port, the accumulating write of port 1, a peer
Facet through the crossbar, DMA, the scrubber. -/
inductive ReqClass where
  | acc | hold | port (n : Fin 6) | accum | xbar (facet : Fin 16) | dma | scrub
  deriving DecidableEq, Repr

/-- One access in a bank cycle: its class, its unit as device address / 32, and whether it writes. -/
structure Req where
  cls : ReqClass
  unit : Nat
  write : Bool
  deriving DecidableEq, Repr

/-- Accesses that meet in one bank cycle: one of the command's own, and the others (log 9). -/
structure Meet where
  mine : Req
  others : List Req
  deriving DecidableEq, Repr

/-- One sensor row as its column converters give it (09 R225, R235): codes at the one gain, or at high and
low gain in HDR; whether a parity or converter error damaged it (09 R247). -/
structure RawRow where
  hi : List Nat
  lo : List Nat
  bad : Bool
  deriving DecidableEq, Repr

/-- What an Announce message says of a grandmaster, in the order of the default data set comparison, and
its time inaccuracy where the profile TLV is present (11 R301, R304). -/
structure Announce where
  prio1 : Nat
  cls : Nat
  accuracy : Nat
  variance : Nat
  prio2 : Nat
  identity : Nat
  steps : Nat
  inaccuracy : Option Nat
  deriving DecidableEq, Repr

/-- What a read of TICK or TIME asks for (12 R322, R323): the low register, the high one after it, or both by one 64-bit
read, which only PCIe has. -/
inductive PairRead where
  | low | high | wide
  deriving DecidableEq, Repr

/-- The Ethernet header of a received frame (11 R297, R299): destination, VLAN identifier of its tag, EtherType. -/
structure Eth where
  dst : List Byte
  vid : Option Nat
  etype : Nat
  deriving DecidableEq, Repr

/-- A PTP message received on a port, with the times of 11 R301 that it carries, in ns of TAI. The receive stamp is not
among them: the device takes it. `src` is the identity of the port that sent it. -/
inductive PtpMsg where
  | announce (src : Nat) (a : Announce)
  /-- Sync; a one-step Sync carries its origin time. -/
  | sync (src seq : Nat) (origin : Option Nat) (correction : Int)
  | followUp (src seq : Nat) (origin : Nat) (correction : Int)
  | pdelayReq (seq : Nat)
  /-- Pdelay_Resp: a one-step one carries the peer's turnaround, a two-step one its receive time. -/
  | pdelayResp (seq : Nat) (rx : Nat) (turn : Option Nat)
  /-- Pdelay_Resp_Follow_Up with the peer's transmit time. -/
  | pdelayFup (seq : Nat) (tx : Nat) (correction : Int)
  deriving DecidableEq, Repr

/-- The Beam header of 11 R311. -/
structure BeamHdr where
  version : Nat
  kind : Nat
  flags : Nat
  src : Nat
  dst : Nat
  window : Nat
  seq : Nat
  ack : Nat
  off : Nat
  len : Nat
  frag : Nat
  plen : Nat
  deriving DecidableEq, Repr

/-- What a CONTROL frame says (11 R312, R315, R316); its payload's layout is not given. -/
inductive BeamCtl where
  | windowOpen (w : Nat) (size : Nat)
  /-- A window closed: the sender's own receive window, or the target of its send window. -/
  | windowClose (w : Nat) (own : Bool)
  | arrive (opId : Nat)
  | release (opId : Nat)
  | announce (kind opId tick arg : Nat)
  /-- ARMED or LATE of the devices of a subtree: those that answered, those that armed. -/
  | answer (kind opId : Nat) (answered armed : Nat)
  deriving DecidableEq, Repr

/-- A path by which the host or board reaches the device (12 R319). -/
inductive Path where
  | pcie | localbus
  deriving DecidableEq, Repr

/-- The commands of the block: one constructor per row of spec/opcode_table.json, in its order. -/
inductive Instr where
  | tickEdge (pixel : Int) (rows : List RawRow)
  | mm (f : Fin 16) (ms : List Meet)
  | mmt (f : Fin 16) (ms : List Meet)
  | conv (f : Fin 16) (ms : List Meet)
  | dwconv (f : Fin 16) (ms : List Meet)
  | vecEw (f : Fin 16) (ms : List Meet)
  | vecRed (f : Fin 16) (ms : List Meet)
  | softmax (f : Fin 16) (ms : List Meet)
  | norm (f : Fin 16) (ms : List Meet)
  | act (f : Fin 16) (ms : List Meet)
  | gather (f : Fin 16) (ms : List Meet)
  | scatter (f : Fin 16) (ms : List Meet)
  | decide (f : Fin 16) (ms : List Meet)
  | topk (f : Fin 16) (ms : List Meet)
  | nms (f : Fin 16) (ms : List Meet)
  | crop (f : Fin 16) (ms : List Meet)
  | resample (f : Fin 16) (ms : List Meet)
  | copy2d (f : Fin 16) (ms : List Meet)
  | accWrite (f : Fin 16) (ms : List Meet)
  | push (f : Fin 16) (ms : List Meet)
  | pop (f : Fin 16) (ms : List Meet)
  | emit (f : Fin 16) (ms : List Meet)
  | checkFlag (f : Fin 16) (ms : List Meet)
  | waitTick (f : Fin 16)
  | waitTickExpiry (f : Fin 16)
  | endProg (f : Fin 16)
  | patrolRead (f : Fin 16) (others : List Req)
  | scrubWriteback (f : Fin 16) (others : List Req)
  | descriptorFetch (e : Fin 5) (c : Fin 8)
  | descriptorStart (e : Fin 5) (c : Fin 8)
  | burstIssue (e : Fin 5) (ms : List Meet)
  | bucketGrant (ms : List Meet)
  | transferComplete (e : Fin 5) (c : Fin 8)
  | hostChannelPoll (c : Fin 8)
  | descriptorAbort (e : Fin 5) (c : Fin 8)
  | expanderBlock (p : Fin 4) (ms : List Meet)
  | condenserBlock (p : Fin 4)
  | hbmTraining (ok : Bool)
  | hbmTempRead (t : Int)
  | ecsRead (counts : List Nat)
  | hbmRecalibration
  | hbmPowerDown (c : Fin 16)
  | hbmParityError (c : Fin 16) (failed : Nat)
  | lineGroupComplete (st : Fin 5) (rows : List RawRow)
  | frameEnd (rows : List RawRow)
  | burstTrigger (theta : Int) (rows : List RawRow)
  | burstFrameStart (rows : List RawRow) (lines : Nat)
  | burstEnd
  | sensorStandbyExit
  | setSensor (flags : Half) (seq : Word) (set : List Byte)
  | sampleTrigger
  | conversionDone (k : Fin 17) (code : BitVec 18)
  | holdoffExpiry (i : Fin 64)
  | urgentRequest
  | blockComplete (k : Fin 16) (bad : Bool)
  | historyWrite (k : Fin 16)
  | calibrationSlot
  | spareSelfCalibration
  | calibrationReturn (ok : Bool)
  | adcRefSettled
  | waveRefFault
  | openWirePhaseEnd
  | ptpMessage (port : Fin 2) (eth : Eth) (domain : Nat) (m : PtpMsg)
  | pdelayReqTimer
  | syncTimeout
  | holdoverExpiry
  | holdoverReport
  | linkDown (port : Fin 2)
  | linkUp (port : Fin 2)
  | discardedFrame (port : Fin 2) (eth : Eth) (len : Nat) (badFcs : Bool)
  | frameTransmit (port : Fin 2)
  | eventTimerEvent (k : Fin 8)
  | etCapture (k : Fin 8) (rising : Bool)
  | templateRepeat (t : Fin 32)
  | beamData (port : Fin 2) (eth : Eth) (hdr : List Byte) (payload : List Byte)
  | beamAck (port : Fin 2) (eth : Eth) (hdr : List Byte)
  | beamCredit (port : Fin 2) (eth : Eth) (hdr : List Byte)
  | beamControl (port : Fin 2) (eth : Eth) (hdr : List Byte) (m : BeamCtl)
  | beamHello (port : Fin 2) (eth : Eth) (hdr : List Byte)
  | helloTimer
  | retransmit (peer : Byte)
  | globalTimeout (kind : Fin 2)
  | loadSchedule (flags : Half) (seq : Word) (addr len : DWord)
  | loadScheduleChecked
  | start (flags : Half) (seq : Word) (t : DWord)
  | stop (flags : Half) (seq : Word)
  | stats (flags : Half) (seq : Word) (dst : DWord) (len : Word)
  | dmaChain (flags : Half) (seq : Word) (len : Half) (inl : List Byte)
  | journalMirror (flags : Half) (seq : Word) (len : Half) (inl : List Byte)
  | eventData (flags : Half) (seq : Word) (len : Half) (inl : List Byte)
  | analogRef (flags : Half) (seq : Word) (len : Half) (inl : List Byte)
  | wavePeriod (flags : Half) (seq : Word) (len : Half) (inl : List Byte)
  | waveCal (flags : Half) (seq : Word) (len : Half) (inl : List Byte)
  | openWire (flags : Half) (seq : Word) (len : Half) (inl : List Byte)
  | port (flags : Half) (seq : Word) (len : Half) (inl : List Byte)
  | ptp (flags : Half) (seq : Word) (len : Half) (inl : List Byte)
  | eventTimer (flags : Half) (seq : Word) (len : Half) (inl : List Byte)
  | beamSystem (flags : Half) (seq : Word) (len : Half) (inl : List Byte)
  | openWindow (flags : Half) (seq : Word) (dir window peer kind facet region : Byte) (base size : DWord)
  | closeWindow (flags : Half) (seq : Word) (dir window : Byte)
  | globalBarrier (flags : Half) (seq : Word) (window : Byte) (opId : Word) (tick : DWord) (arg timeout : Word) (src : DWord) (len : Word)
  | globalBroadcast (flags : Half) (seq : Word) (window : Byte) (opId : Word) (tick : DWord) (arg timeout : Word) (src : DWord) (len : Word)
  | globalSnapshot (flags : Half) (seq : Word) (window : Byte) (opId : Word) (tick : DWord) (arg timeout : Word) (src : DWord) (len : Word)
  | globalStart (flags : Half) (seq : Word) (window : Byte) (opId : Word) (tick : DWord) (arg timeout : Word) (src : DWord) (len : Word)
  | globalStop (flags : Half) (seq : Word) (window : Byte) (opId : Word) (tick : DWord) (arg timeout : Word) (src : DWord) (len : Word)
  | globalRestart (flags : Half) (seq : Word) (window : Byte) (opId : Word) (tick : DWord) (arg timeout : Word) (src : DWord) (len : Word)
  | snapshot (flags : Half) (seq : Word) (tick : DWord)
  | readCounters (flags : Half) (seq : Word) (dst : DWord) (len : Word)
  | readJournal (flags : Half) (seq : Word) (first : DWord) (count : Word) (dst : DWord)
  | attest (flags : Half) (seq : Word) (nonce : List Byte) (dst : DWord) (len : Word)
  | attestSigned
  | enroll (flags : Half) (seq : Word) (addr : DWord) (len : Word) (slot : Byte)
  | fuseProgram (flags : Half) (seq : Word) (region word source : Byte) (bits : DWord)
  | fuseSeal (flags : Half) (seq : Word) (region : Byte)
  | fuseLock (flags : Half) (seq : Word) (region kind : Byte)
  | updateFirmware (flags : Half) (seq : Word) (addr : DWord) (len : Word)
  | updateFirmwareWritten (ok : Bool)
  | activateFirmware (flags : Half) (seq : Word) (slot : Byte)
  | trialEnd
  | rollbackRetry
  | setTemplate (flags : Half) (seq : Word) (tmpl : Byte) (addr : DWord) (len : Word)
  | dmaAbort (flags : Half) (seq : Word) (engine channel : Byte)
  | regionRestart (flags : Half) (seq : Word) (mask : Half)
  | calibrationLoad (flags : Half) (seq : Word) (addr : DWord) (len : Word)
  | transition (flags : Half) (seq : Word) (addr : DWord) (len : Word)
  | fuseGrant (flags : Half) (seq : Word) (addr : DWord) (len : Word)
  | revokeSlot (flags : Half) (seq : Word) (addr : DWord) (len : Word)
  | cmdPutWrite (path : Path) (v : Word)
  | cmdSizeWrite (path : Path) (v : Word)
  | evtSizeWrite (path : Path) (v : Word)
  | evtGetWrite (path : Path) (v : Word)
  | ownerWrite (path : Path) (v : Word)
  | mboxDataAccess (path : Path) (write : Option Word)
  | irqStatusWrite (path : Path) (v : Word)
  | irqForceWrite (path : Path) (v : Word)
  | errSummaryPop (path : Path) (v : Word)
  | perfReqWrite (path : Path) (v : Word)
  | tickCtlWrite (path : Path) (v : Word)
  | snapCtlArm (path : Path) (v : Word)
  | snapCtlDisarm (path : Path) (v : Word)
  | wdogCtlWrite (path : Path) (v : Word)
  | wdogKick (path : Path) (v : Word)
  | hostLost
  | tickLoRead (path : Path) (part : PairRead)
  | timeLoRead (path : Path) (part : PairRead)
  | lowHalfWrite (reg : Fin 64) (v : Half)
  | lowHalfRead (reg : Fin 64) (hi : Bool)
  | registerWrite (path : Path) (reg : Fin 1024) (be : BitVec 4) (v : Word)
  | bar2Access (off : Word) (len : Nat) (write : Option (List Byte))
  | firmwarePush (path : Path) (v : Word)
  | functionLevelReset (perst : Bool)
  | journalMirrorCopy
  | porstAssert
  | porstRelease (bootSrc clkSrc : Fin 4)
  | refCountWindow (count : Nat)
  | pllJudged (d : Fin 9) (count : Nat)
  | pllCountCheck (counts : List Nat)
  | pgoodMainRise
  | pgoodMainTimeout
  | enMainRetry
  | pgoodMainLow
  | pgoodCoreRise
  | pgoodCoreTimeout
  | vsetSettled
  | thermalCrossing (t : Int)
  | supplyWarningCrossing (i : Fin 4) (mv : Nat)
  | supplyResetLevel (i : Fin 5) (mv : Nat)
  | sleepEntry
  | wake (level : Bool)
  | periscopeTransaction (addr : BitVec 7) (write : Option (List Byte)) (count : Nat)
  | sleepExit
  | firmwareBoot
  | fuseReread (reads : List (Fin 528 × DWord × DWord))
  | regionIsolation (r : Fin 7) (block : Byte) (cause : Half)
  | autoRestart (r : Fin 7)
  | restartStepsDone (r : Fin 7) (ok : Bool)
  | controlWatchdogExpiry
  | fatalError (status : Half) (region block : Byte) (addr : DWord)
  | vddAonPowerUp (pscAddr : Fin 4)
  | vddAonPowerLoss
  | supplyRecovery (i : Fin 4) (mv : Nat)
  | pgoodCoreLow
  | thermalRearm (t : Int)
  | pcieLinkTrained
  | vppFusePresence (mv : Nat) (outcomes : List (Nat × Nat))
  | containerChecked
  | fuseProgrammingDone (outcomes : List (Nat × Nat))
  | backgroundResultWritten (opcode : Half)
  deriving DecidableEq, Repr

end Sys2Proof
end

