-- ==== Sys2Proof/Machine/Num.lean ====
section
/-! DEFINITION. Numbers of the arithmetic array and the vector unit: the element formats of 03 R73,
special values of 03 R74, the rounding of 04 R103 and the conversions of 04 R104. Values are exact
(a sign, a natural significand and a power of two); rounding is a separate, explicit step. -/

namespace Sys2Proof.Machine

/-- An exact value: NaN, an infinity, or `(-1)^neg * m * 2^e` (a zero keeps its sign). -/
inductive FVal where
  | nan
  | inf (neg : Bool)
  | fin (neg : Bool) (m : Nat) (e : Int)
  deriving DecidableEq, Repr

/-- The element types of 03 R73. -/
inductive Elt where
  | int8 | int4 | e4m3 | e5m2 | bf16 | fp32 | int32 | bit | u8 | u16 | wave
  deriving DecidableEq, Repr

/-- 03 R73: the type code of a TYPE nibble; codes 11 to 15 are unassigned. -/
def Elt.ofCode : Nat → Option Elt
  | 0 => some .int8 | 1 => some .int4 | 2 => some .e4m3 | 3 => some .e5m2 | 4 => some .bf16
  | 5 => some .fp32 | 6 => some .int32 | 7 => some .bit | 8 => some .u8 | 9 => some .u16
  | 10 => some .wave | _ => none

/-- Size of an element in bits (03 R73). -/
def Elt.bits : Elt → Nat
  | .int8 => 8 | .int4 => 4 | .e4m3 => 8 | .e5m2 => 8 | .bf16 => 16 | .fp32 => 32 | .int32 => 32
  | .bit => 1 | .u8 => 8 | .u16 => 16 | .wave => 32

/-- `floor (m * 2^e / 2^q)`. -/
def shiftTo (m : Nat) (e q : Int) : Nat :=
  if q ≤ e then m <<< (e - q).toNat else m >>> (q - e).toNat

/-- `ceil (m * 2^e / 2^q)`. -/
def shiftUp (m : Nat) (e q : Int) : Nat :=
  if q ≤ e then m <<< (e - q).toNat
  else
    let k := (q - e).toNat
    (m + (2 ^ k - 1)) >>> k

/-- Two's-complement reading of the low `w` bits. -/
def signExt (w v : Nat) : Int :=
  let v := v % 2 ^ w
  if 2 * v < 2 ^ w then v else (v : Int) - 2 ^ w

/-- The low `w` bits of an integer. -/
def toBits (w : Nat) (v : Int) : Nat := (v % (2 ^ w : Int)).toNat

/-- `v` held to [lo, hi]. -/
def clampInt (lo hi v : Int) : Int := if v < lo then lo else if hi < v then hi else v

def FVal.ofInt (v : Int) : FVal := .fin (decide (v < 0)) v.natAbs 0

def FVal.isNaN : FVal → Bool
  | .nan => true
  | _ => false

def FVal.isFinite : FVal → Bool
  | .fin .. => true
  | _ => false

def FVal.neg : FVal → FVal
  | .nan => .nan
  | .inf s => .inf (!s)
  | .fin s m e => .fin (!s) m e

def FVal.abs : FVal → FVal
  | .nan => .nan
  | .inf _ => .inf false
  | .fin _ m e => .fin false m e

def FVal.isZero : FVal → Bool
  | .fin _ 0 _ => true
  | _ => false

/-- The exact sum; an exact cancellation gives +0, as rounding toward zero does. -/
def FVal.add : FVal → FVal → FVal
  | .nan, _ => .nan
  | _, .nan => .nan
  | .inf a, .inf b => if a = b then .inf a else .nan
  | .inf a, _ => .inf a
  | _, .inf b => .inf b
  | .fin s m e, .fin t n f =>
    let g := min e f
    let a : Int := (m <<< (e - g).toNat : Nat)
    let b : Int := (n <<< (f - g).toNat : Nat)
    let v := (if s then -a else a) + (if t then -b else b)
    if v = 0 then .fin (s && t && m == 0 && n == 0) 0 0
    else .fin (decide (v < 0)) v.natAbs g

def FVal.sub (a b : FVal) : FVal := a.add b.neg

/-- The exact product. -/
def FVal.mul : FVal → FVal → FVal
  | .nan, _ => .nan
  | _, .nan => .nan
  | .inf a, .inf b => .inf (xor a b)
  | .inf a, .fin t n _ => if n = 0 then .nan else .inf (xor a t)
  | .fin s m _, .inf b => if m = 0 then .nan else .inf (xor s b)
  | .fin s m e, .fin t n f => .fin (xor s t) (m * n) (e + f)

/-- `a < b`, exact; false when either is NaN. -/
def FVal.lt : FVal → FVal → Bool
  | .nan, _ => false
  | _, .nan => false
  | .inf a, .inf b => a && !b
  | .inf a, .fin .. => a
  | .fin .., .inf b => !b
  | .fin s m e, .fin t n f =>
    let g := min e f
    let a : Int := (m <<< (e - g).toNat : Nat)
    let b : Int := (n <<< (f - g).toNat : Nat)
    decide ((if s then -a else a) < (if t then -b else b))

/-- `a ≤ b`, exact; false when either is NaN. -/
def FVal.le (a b : FVal) : Bool := !a.isNaN && !b.isNaN && !(b.lt a)

/-- A floating format: `p` significand bits, exponents `emin` to `emax`, the largest significand at
`emax`, and whether subnormal results are written as zero (03 R74). -/
structure Fmt where
  p : Nat
  emin : Int
  emax : Int
  topM : Nat
  flush : Bool
  deriving DecidableEq, Repr

def fmtFp32 : Fmt := ⟨24, -126, 127, 2 ^ 24 - 1, true⟩
def fmtBf16 : Fmt := ⟨8, -126, 127, 255, true⟩
def fmtE4m3 : Fmt := ⟨4, -6, 8, 14, false⟩
def fmtE5m2 : Fmt := ⟨3, -14, 15, 7, false⟩

/-- The largest finite value of a format with the given sign. -/
def Fmt.maxFin (f : Fmt) (neg : Bool) : FVal := .fin neg f.topM (f.emax - (f.p - 1 : Nat))

/-- 04 R103, 03 R74: rounding toward zero; overflow gives the largest finite value, a subnormal
result is a zero of the same sign where the format flushes. Infinities and NaN pass. -/
def Fmt.rz (f : Fmt) : FVal → FVal
  | .nan => .nan
  | .inf s => .inf s
  | .fin s m e =>
    if m = 0 then .fin s 0 0
    else
      let top : Int := (Nat.log2 m : Int) + e
      if f.emax < top then f.maxFin s
      else if top < f.emin then
        if f.flush then .fin s 0 0
        else .fin s (shiftTo m e (f.emin - (f.p - 1 : Nat))) (f.emin - (f.p - 1 : Nat))
      else
        let q := top - (f.p - 1 : Nat)
        let r := shiftTo m e q
        if top = f.emax ∧ f.topM < r then f.maxFin s else .fin s r q

/-- 04 R112: rounding of a non-negative value toward plus infinity; a positive value below the
normal range becomes the least normal value, overflow becomes plus infinity. -/
def Fmt.ru (f : Fmt) : FVal → FVal
  | .nan => .nan
  | .inf s => .inf s
  | .fin s m e =>
    if m = 0 then .fin s 0 0
    else
      let top : Int := (Nat.log2 m : Int) + e
      if top < f.emin then .fin s 1 f.emin
      else
        let q := top - (f.p - 1 : Nat)
        let r := shiftUp m e q
        if f.maxFin false |>.lt (.fin false r q) then .inf s else .fin s r q

/-- Rounding toward zero to FP32. -/
abbrev rz32 : FVal → FVal := fmtFp32.rz

/-- The quotient of two values rounded toward zero to a format. -/
def FVal.divTo (fm : Fmt) : FVal → FVal → FVal
  | .nan, _ => .nan
  | _, .nan => .nan
  | .inf _, .inf _ => .nan
  | .inf a, .fin t _ _ => .inf (xor a t)
  | .fin s _ _, .inf b => .fin (xor s b) 0 0
  | .fin s m e, .fin t n f =>
    if n = 0 then (if m = 0 then .nan else .inf (xor s t))
    else
      let k := fm.p + 8 + Nat.log2 n
      fm.rz (.fin (xor s t) ((m <<< k) / n) (e - f - (k : Nat)))

/-- The quotient rounded toward zero to FP32. -/
def FVal.div32 : FVal → FVal → FVal := FVal.divTo fmtFp32

/-- Truncation of a finite value toward zero to an integer. -/
def FVal.trunc : FVal → Int
  | .fin s m e =>
    let r : Int := (shiftTo m e 0 : Nat)
    if s then -r else r
  | _ => 0

/-- 04 R104: conversion to an integer range: truncation toward zero, saturation, NaN gives 0. -/
def FVal.toRange (lo hi : Int) : FVal → Int
  | .nan => 0
  | .inf s => if s then lo else hi
  | v => clampInt lo hi v.trunc

/-- Decoding of a floating bit pattern with `eb` exponent bits and `mb` mantissa bits. -/
def decodeIeee (eb mb bits : Nat) (subnormals : Bool) : FVal :=
  let s := decide (bits / 2 ^ (eb + mb) % 2 = 1)
  let ex := bits / 2 ^ mb % 2 ^ eb
  let fr := bits % 2 ^ mb
  let bias : Int := 2 ^ (eb - 1) - 1
  if ex = 2 ^ eb - 1 then (if fr = 0 then .inf s else .nan)
  else if ex = 0 then (if subnormals then .fin s fr (1 - bias - mb) else .fin s 0 0)
  else .fin s (2 ^ mb + fr) ((ex : Int) - bias - mb)

/-- 03 R73, R74: the value of an element's bits. BF16 and FP32 subnormals read as zero; FP8
subnormals are honoured; E4M3 has no infinity. BIT, U8, U16 and WAVE words read as unsigned. -/
def Elt.decode (t : Elt) (bits : Nat) : FVal :=
  match t with
  | .int8 => .ofInt (signExt 8 bits)
  | .int4 => .ofInt (signExt 4 bits)
  | .e4m3 =>
    if bits % 128 = 127 then .nan
    else
      let s := decide (bits / 128 % 2 = 1)
      let ex := bits / 8 % 16
      let fr := bits % 8
      if ex = 0 then .fin s fr (-9) else .fin s (8 + fr) ((ex : Int) - 10)
  | .e5m2 => decodeIeee 5 2 (bits % 256) true
  | .bf16 => decodeIeee 8 7 (bits % 65536) false
  | .fp32 => decodeIeee 8 23 (bits % 2 ^ 32) false
  | .int32 => .ofInt (signExt 32 bits)
  | .bit => .ofInt (bits % 2 : Nat)
  | .u8 => .ofInt (bits % 256 : Nat)
  | .u16 => .ofInt (bits % 65536 : Nat)
  | .wave => .ofInt (bits % 2 ^ 32 : Nat)

/-- The bit pattern of a value already rounded to a format with `eb` and `mb` bits. -/
def encodeIeee (eb mb : Nat) (emin : Int) (nanBits : Nat) : FVal → Nat
  | .nan => nanBits
  | .inf s => (if s then 2 ^ (eb + mb) else 0) + (2 ^ eb - 1) * 2 ^ mb
  | .fin s m e =>
    let sg := if s then 2 ^ (eb + mb) else 0
    if m = 0 then sg
    else
      let top : Int := (Nat.log2 m : Int) + e
      if top < emin then sg + shiftTo m e (emin - mb)
      else sg + (top - emin + 1).toNat * 2 ^ mb + (shiftTo m e (top - mb)) % 2 ^ mb

/-- 04 R104 and R110: one rounding of an exact value to the element type, as its bits. The symmetric
integer ranges never produce -128 or -8. U8 and U16 saturate to their range. -/
def Elt.encode (t : Elt) (v : FVal) : Nat :=
  match t with
  | .int8 => toBits 8 (v.toRange (-127) 127)
  | .int4 => toBits 4 (v.toRange (-7) 7)
  | .e4m3 =>
    match v with
    | .inf s => encodeIeee 4 3 (-6) 0x7F (fmtE4m3.maxFin s)
    | v => encodeIeee 4 3 (-6) 0x7F (fmtE4m3.rz v)
  | .e5m2 => encodeIeee 5 2 (-14) 0x7E (fmtE5m2.rz v)
  | .bf16 => encodeIeee 8 7 (-126) 0x7FC0 (fmtBf16.rz v)
  | .fp32 => encodeIeee 8 23 (-126) 0x7FC00000 (fmtFp32.rz v)
  | .int32 => toBits 32 (v.toRange (-2147483648) 2147483647)
  | .bit => if v.isZero || v.isNaN then 0 else 1
  | .u8 => (v.toRange 0 255).toNat
  | .u16 => (v.toRange 0 65535).toNat
  | .wave => (v.toRange 0 4294967295).toNat

def Elt.isInt : Elt → Bool
  | .int8 | .int4 | .int32 | .bit | .u8 | .u16 | .wave => true
  | _ => false

/-- The FP32 value of a 32-bit word. -/
def fp32 (w : Word) : FVal := Elt.fp32.decode w.toNat

/-- The FP32 word of a value, rounded toward zero. -/
def toFp32 (v : FVal) : Word := BitVec.ofNat 32 (Elt.fp32.encode v)

def fpZero : FVal := .fin false 0 0
def fpOne : FVal := .fin false 1 0

/-- 04 R110: MAX returns the other operand when exactly one is NaN. -/
def FVal.max2 (a b : FVal) : FVal :=
  if a.isNaN then b else if b.isNaN then a else if a.lt b then b else a

/-- 04 R110: MIN returns the other operand when exactly one is NaN. -/
def FVal.min2 (a b : FVal) : FVal :=
  if a.isNaN then b else if b.isNaN then a else if b.lt a then b else a

end Sys2Proof.Machine
end

