-- ==== Sys2Proof/Config.lean ====
section
/-! DEFINITION. What the spec leaves open: constants without a body, so nothing can be proved about a
value of theirs (log 4, 5 and 6). A function of `Nat` alone is applied to the state's counter
`freeCtr`, which the step advances. -/

namespace Sys2Proof.Config

/-- A free 64-bit value for each draw (log 4). -/
opaque freeWord : Nat → DWord

/-- The bits a table-and-quadratic function gives for an FP32 input; only a result inside the bound
of 03 R91 is taken (log 5). The first argument is the function code of 03 R90. -/
opaque transc : Nat → Word → Word

/-- RSASSA-PSS verification with the parameters of 02 R54: modulus, exponent, message, signature
(log 6). -/
opaque rsaVerify : List Byte → Nat → List Byte → List Byte → Bool

/-- SLH-DSA-SHA2-192s verification in the pure form with an empty context: public key, message,
signature (log 6). -/
opaque slhVerify : List Byte → List Byte → List Byte → Bool

/-- Byte i of the identity RSA signature, by the private keys, over a digest (14 R413). -/
opaque identityRsaSig : List Byte → List Byte → Nat → Byte

/-- Byte i of the identity SLH-DSA signature, by the private keys, over a digest (14 R413). -/
opaque identitySlhSig : List Byte → List Byte → Nat → Byte

/-- Place and length of the RSA (0) and the SLH-DSA (1) certificate in the identity store (14 R412, R413; log 165). -/
opaque certPlace : Nat → Nat
opaque certLen : Nat → Nat

/-- Byte i of the store key that the NIST SP 800-108 counter-mode KDF derives, under the label "PL9600 IDSTORE", from the
device secret's words (14 R412; log 6). -/
opaque storeKeyByte : List Nat → Nat → Byte

/-- AES-256-GCM: byte i of the key stream of a key and a nonce, and of the tag of a ciphertext (14 R412; log 6). -/
opaque gcmStream : List Byte → List Byte → Nat → Byte
opaque gcmTag : List Byte → List Byte → List Byte → Nat → Byte

/-- Word i of the generated device secret as stored, scrambled (13 R388). -/
opaque secretWord : Nat → Nat → DWord

/-- Byte i of what the random source gives for the identity of draw n: the private keys and the nonce of the store
(14 R412). -/
opaque identityByte : Nat → Nat → Byte

/-- Byte i of the public identity keys that belong to private keys (14 R412). -/
opaque publicKeyByte : List Byte → Nat → Byte

/-- Bytes of the locally administered MAC base derived from the device secret (13 R377). -/
opaque derivedMac : Nat → Byte

/-- The number by which POWER records and the Periscope name a clock domain, which the spec does not give: 0 to 8
in the order of 15 R417, 9 for REF (log 4). -/
opaque domainCode : Nat → Byte

/-- Where CALIBRATION_LOAD puts an image item, by its ID, in the calibration tables of the line store, in units of 32
bytes (09 R244, R256; log 129). -/
opaque calPlace : Nat → Nat

/-- The frequency correction the servo chooses for an offset (11 R302), before the slewing limit. -/
opaque servoAdj : Int → Int → Int

end Sys2Proof.Config
end

