-- ==== Sys2Proof/Machine/Bytes.lean ====
section
/-! DEFINITION. Byte strings: the little-endian layout of 00 R7, the CRC-32C of 07 and 08, and the
SHA-384 of 02 R54, 12 R353 and 14, written from the published standards that the spec names (log 7). -/

namespace Sys2Proof.Machine

/-- The `n` bytes of a number, least significant first (00 R7). -/
def leBytes : Nat → Nat → List Byte
  | 0, _ => []
  | n + 1, v => BitVec.ofNat 8 (v % 256) :: leBytes n (v / 256)

/-- The number that bytes spell, least significant first (00 R7). -/
def leNat : List Byte → Nat
  | [] => 0
  | b :: bs => b.toNat + 256 * leNat bs

/-- The `n` bytes of a number, most significant first (network byte order). -/
def beBytes (n v : Nat) : List Byte := (leBytes n v).reverse

/-- The number that bytes spell, most significant first. -/
def beNat (bs : List Byte) : Nat := leNat bs.reverse

/-- `n` zero bytes. -/
def zeroBytes (n : Nat) : List Byte := List.replicate n 0

/-- Exactly `n` bytes: the list cut or filled with zeros. -/
def fitBytes (n : Nat) (bs : List Byte) : List Byte :=
  bs.take n ++ zeroBytes (n - bs.length)

/-- `n` bytes of a byte string from an offset. -/
def sliceBytes (bs : List Byte) (off n : Nat) : List Byte := fitBytes n ((bs.drop off).take n)

/-- The little-endian field of `n` bytes at an offset. -/
def fieldLe (bs : List Byte) (off n : Nat) : Nat := leNat ((bs.drop off).take n)

/-- The byte at an offset as a number, 0 past the end. -/
def byteAt (bs : List Byte) (off : Nat) : Nat := ((bs.drop off).headD 0).toNat

/-- Every byte of a range is zero. -/
def allZero (bs : List Byte) : Bool := bs.all (fun b => b == 0)

/-- `bs` with the bytes of `v` put at an offset. -/
def patchBytes (bs : List Byte) (off : Nat) (v : List Byte) : List Byte :=
  bs.take off ++ v ++ bs.drop (off + v.length)

/-- One step of the reflected CRC-32C (Castagnoli) over one bit. -/
def crcBit (c : Nat) : Nat := if c % 2 = 1 then Nat.xor (c / 2) 0x82F63B78 else c / 2

/-- The CRC register after one byte. -/
def crcByte (c : Nat) (b : Byte) : Nat :=
  crcBit (crcBit (crcBit (crcBit (crcBit (crcBit (crcBit (crcBit (Nat.xor c b.toNat))))))))

/-- The CRC register carried over bytes; it starts at all ones. -/
def crcRun (c : Nat) (bs : List Byte) : Nat := bs.foldl crcByte c

/-- CRC-32C of a byte string. -/
def crc32c (bs : List Byte) : Nat := Nat.xor (crcRun 0xFFFFFFFF bs) 0xFFFFFFFF

def shaK0 : List Nat :=
  [
   0x428a2f98d728ae22, 0x7137449123ef65cd,
   0xb5c0fbcfec4d3b2f, 0xe9b5dba58189dbbc,
   0x3956c25bf348b538, 0x59f111f1b605d019,
   0x923f82a4af194f9b, 0xab1c5ed5da6d8118,
   0xd807aa98a3030242, 0x12835b0145706fbe ]

def shaK1 : List Nat :=
  [
   0x243185be4ee4b28c, 0x550c7dc3d5ffb4e2,
   0x72be5d74f27b896f, 0x80deb1fe3b1696b1,
   0x9bdc06a725c71235, 0xc19bf174cf692694,
   0xe49b69c19ef14ad2, 0xefbe4786384f25e3,
   0x0fc19dc68b8cd5b5, 0x240ca1cc77ac9c65 ]

def shaK2 : List Nat :=
  [
   0x2de92c6f592b0275, 0x4a7484aa6ea6e483,
   0x5cb0a9dcbd41fbd4, 0x76f988da831153b5,
   0x983e5152ee66dfab, 0xa831c66d2db43210,
   0xb00327c898fb213f, 0xbf597fc7beef0ee4,
   0xc6e00bf33da88fc2, 0xd5a79147930aa725 ]

def shaK3 : List Nat :=
  [
   0x06ca6351e003826f, 0x142929670a0e6e70,
   0x27b70a8546d22ffc, 0x2e1b21385c26c926,
   0x4d2c6dfc5ac42aed, 0x53380d139d95b3df,
   0x650a73548baf63de, 0x766a0abb3c77b2a8,
   0x81c2c92e47edaee6, 0x92722c851482353b ]

def shaK4 : List Nat :=
  [
   0xa2bfe8a14cf10364, 0xa81a664bbc423001,
   0xc24b8b70d0f89791, 0xc76c51a30654be30,
   0xd192e819d6ef5218, 0xd69906245565a910,
   0xf40e35855771202a, 0x106aa07032bbd1b8,
   0x19a4c116b8d2d0c8, 0x1e376c085141ab53 ]

def shaK5 : List Nat :=
  [
   0x2748774cdf8eeb99, 0x34b0bcb5e19b48a8,
   0x391c0cb3c5c95a63, 0x4ed8aa4ae3418acb,
   0x5b9cca4f7763e373, 0x682e6ff3d6b2b8a3,
   0x748f82ee5defb2fc, 0x78a5636f43172f60,
   0x84c87814a1f0ab72, 0x8cc702081a6439ec ]

def shaK6 : List Nat :=
  [
   0x90befffa23631e28, 0xa4506cebde82bde9,
   0xbef9a3f7b2c67915, 0xc67178f2e372532b,
   0xca273eceea26619c, 0xd186b8c721c0c207,
   0xeada7dd6cde0eb1e, 0xf57d4f7fee6ed178,
   0x06f067aa72176fba, 0x0a637dc5a2c898a6 ]

def shaK7 : List Nat :=
  [
   0x113f9804bef90dae, 0x1b710b35131c471b,
   0x28db77f523047d84, 0x32caab7b40c72493,
   0x3c9ebe0a15c9bebc, 0x431d67c49c100d4c,
   0x4cc5d4becb3e42b6, 0x597f299cfc657e2a,
   0x5fcb6fab3ad6faec, 0x6c44198c4a475817 ]

/-- The 80 round constants of SHA-384. -/
def shaK : List Nat := shaK0 ++ shaK1 ++ shaK2 ++ shaK3 ++ shaK4 ++ shaK5 ++ shaK6 ++ shaK7

/-- Sum modulo 2^64. -/
def add64 (a b : Nat) : Nat := (a + b) % 18446744073709551616

/-- Rotation right of a 64-bit word. -/
def rotr64 (x n : Nat) : Nat := Nat.lor (x / 2 ^ n) ((x % 2 ^ n) * 2 ^ (64 - n))

/-- The eight working variables of the compression. -/
structure ShaState where
  a : Nat
  b : Nat
  c : Nat
  d : Nat
  e : Nat
  f : Nat
  g : Nat
  h : Nat
  deriving DecidableEq, Repr

/-- The next word of the message schedule; the list holds the words so far, newest first. -/
def shaNextW (w : List Nat) : Nat :=
  let x := w.getD 1 0
  let y := w.getD 14 0
  let s1 := Nat.xor (Nat.xor (rotr64 x 19) (rotr64 x 61)) (x / 64)
  let s0 := Nat.xor (Nat.xor (rotr64 y 1) (rotr64 y 8)) (y / 128)
  add64 (add64 s1 (w.getD 6 0)) (add64 s0 (w.getD 15 0))

/-- The message schedule extended by `n` words, newest first. -/
def shaExpand : Nat → List Nat → List Nat
  | 0, w => w
  | n + 1, w => shaExpand n (shaNextW w :: w)

/-- One round. -/
def shaRound (v : ShaState) (kw : Nat × Nat) : ShaState :=
  let s1 := Nat.xor (Nat.xor (rotr64 v.e 14) (rotr64 v.e 18)) (rotr64 v.e 41)
  let ch := Nat.xor (Nat.land v.e v.f) (Nat.land (18446744073709551615 - v.e) v.g)
  let t1 := add64 (add64 v.h s1) (add64 ch (add64 kw.1 kw.2))
  let s0 := Nat.xor (Nat.xor (rotr64 v.a 28) (rotr64 v.a 34)) (rotr64 v.a 39)
  let mj := Nat.xor (Nat.xor (Nat.land v.a v.b) (Nat.land v.a v.c)) (Nat.land v.b v.c)
  ⟨add64 t1 (add64 s0 mj), v.a, v.b, v.c, add64 v.d t1, v.e, v.f, v.g⟩

/-- The 16 words of a 128-byte block, newest first. -/
def shaWords : Nat → List Byte → List Nat → List Nat
  | 0, _, w => w
  | n + 1, bs, w => shaWords n (bs.drop 8) (beNat (bs.take 8) :: w)

/-- The compression of one block. -/
def shaBlock (v : ShaState) (bs : List Byte) : ShaState :=
  let w := (shaExpand 64 (shaWords 16 bs [])).reverse
  let r := (shaK.zip w).foldl shaRound v
  ⟨add64 v.a r.a, add64 v.b r.b, add64 v.c r.c, add64 v.d r.d,
   add64 v.e r.e, add64 v.f r.f, add64 v.g r.g, add64 v.h r.h⟩

/-- The compression of `n` blocks. -/
def shaBlocks : Nat → ShaState → List Byte → ShaState
  | 0, v, _ => v
  | n + 1, v, bs => shaBlocks n (shaBlock v (bs.take 128)) (bs.drop 128)

/-- The initial value of SHA-384. -/
def shaInit : ShaState :=
  ⟨0xcbbb9d5dc1059ed8, 0x629a292a367cd507, 0x9159015a3070dd17, 0x152fecd8f70e5939,
   0x67332667ffc00b31, 0x8eb44a8768581511, 0xdb0c2e0d64f98fa7, 0x47b5481dbefa4fa4⟩

/-- SHA-384 of a byte string: 48 bytes. -/
def sha384 (bs : List Byte) : List Byte :=
  let pad := (239 - bs.length % 128) % 128
  let msg := bs ++ (0x80 :: zeroBytes pad) ++ beBytes 16 (8 * bs.length)
  let v := shaBlocks (msg.length / 128) shaInit msg
  beBytes 8 v.a ++ beBytes 8 v.b ++ beBytes 8 v.c ++ beBytes 8 v.d ++ beBytes 8 v.e ++ beBytes 8 v.f

end Sys2Proof.Machine
end

