-- ==== Sys2Proof/Machine/SMap.lean ====
section
/-! DEFINITION. Sparse maps from numbers: a list of (key, value) pairs with strictly rising keys that
never holds the default value, so that equal maps are equal data. Memory, fuses, counters and the
accumulator files are such maps. -/

namespace Sys2Proof.Machine

/-- A sparse map; unlisted keys read as the default value given to `get`. -/
abbrev SMap (α : Type) := List (Nat × α)

namespace SMap
variable {α : Type} [DecidableEq α]

/-- The value at a key. -/
def get (d : α) : SMap α → Nat → α
  | [], _ => d
  | (k, v) :: m, a => if a = k then v else if a < k then d else get d m a

/-- The pairs with keys in [lo, lo + n). -/
def within (m : SMap α) (lo n : Nat) : SMap α := m.filter (fun p => lo ≤ p.1 && p.1 < lo + n)

/-- The values `vs` as pairs from key `a` upward, defaults left out. -/
def cells (d : α) : Nat → List α → SMap α
  | _, [] => []
  | a, v :: vs => if v = d then cells d (a + 1) vs else (a, v) :: cells d (a + 1) vs

/-- `vs` written at keys `a`, `a + 1`, …; keys below and above keep their values. -/
def setRange (d : α) (m : SMap α) (a : Nat) (vs : List α) : SMap α :=
  m.filter (fun p => p.1 < a) ++ cells d a vs ++ m.filter (fun p => a + vs.length ≤ p.1)

/-- One value written. -/
def set (d : α) (m : SMap α) (a : Nat) (v : α) : SMap α := setRange d m a [v]

/-- The values at `n` keys from `a` upward. -/
def getRange (d : α) (m : SMap α) (a n : Nat) : List α :=
  let w := within m a n
  (List.range n).map (fun i => get d w (a + i))

/-- The canonical form: keys strictly rising, no default value listed. -/
def wf (d : α) (m : SMap α) : Bool :=
  decide (m.Pairwise (fun p q => p.1 < q.1)) && m.all (fun p => p.2 != d)

end SMap

/-- A sparse map of numbers with default 0. -/
abbrev NMap := SMap Nat

namespace NMap

/-- The number at a key. -/
def get (m : NMap) (k : Nat) : Nat := SMap.get 0 m k

/-- A number written. -/
def set (m : NMap) (k v : Nat) : NMap := SMap.set 0 m k v

/-- A number increased. -/
def bump (m : NMap) (k n : Nat) : NMap := m.set k (m.get k + n)

end NMap

end Sys2Proof.Machine
end

