-- ==== Sys2Proof/Machine/State.lean ====
section
/-! DEFINITION. The state of the block as plain data: one structure per part of the device, each field
with the file and rule of spec/ that names it, and the state after reset (log 2, log 13). -/

namespace Sys2Proof.Machine

/-- Why the machine stops. -/
inductive Fault where
  /-- Raised by the supply commands for a value beyond the absolute maximum ratings of 17 R469, after
  which the spec says the device may be damaged and gives no behaviour. Safe: the model stops. -/
  | outsideRatings
  deriving DecidableEq, Repr

/-- Why a command has no meaning. -/
inductive Refusal where
  /-- Raised by an arm of `exec` for a command that is not modelled. Safe: the model stops. -/
  | notModelled (mnemonic : String)
  deriving DecidableEq, Repr

/-! ### What leaves the package, and records -/

/-- An event record of 12 R343; `payload` holds up to 32 bytes. -/
structure EventRec where
  type : Nat
  src : Nat
  seq : Nat
  time : Nat
  tick : Nat
  flags : Nat
  extra : Nat
  payload : List Byte
  deriving DecidableEq, Repr

/-- A frame to send, without tag and FCS, which the MAC adds (11 R296, R297). -/
inductive Frame where
  /-- A template's frame (11 R306, R308): template, whether its bytes carry their own tag, its bytes from the destination
  address on. -/
  | template (t : Nat) (tagged : Bool) (bytes : List Byte)
  /-- A Beam frame to a peer (11 R311). -/
  | beam (peer : Nat) (mac : List Byte) (hdr : BeamHdr) (payload : List Byte) (ctl : Option BeamCtl)
  /-- Pdelay_Req, or the answer to one with its receive stamp; one or two step (11 R301). The turnaround of a one-step
  answer is put in as it is sent. -/
  | pdelayReq (domain seq : Nat)
  | pdelayResp (domain seq rx : Nat) (oneStep : Bool) (turn : Nat)
  | pdelayFup (domain seq tx : Nat)
  deriving DecidableEq, Repr

/-- What has left the package since reset, newest first (log 14). -/
inductive Output where
  /-- The MSI-X message of a vector, with its entry's address and data (12 R320, R350). -/
  | msix (vector : Nat) (addr : DWord) (data : Word)
  /-- Data returned to a register, window or Periscope read. -/
  | readData (value : Nat)
  /-- Bytes returned to a Periscope block read (15 R439). -/
  | readBytes (bytes : List Byte)
  /-- A frame begun on an Ethernet port from a transmit queue: its bytes up to the FCS (11 R297, R298, R311), and what
  a Beam CONTROL frame says, whose layout is not given. -/
  | frame (port queue : Nat) (bytes : List Byte) (ctl : Option BeamCtl)
  /-- A PTP frame, with the VID of its tag (11 R297, R301). -/
  | ptpFrame (port queue vid : Nat) (f : Frame)
  /-- An edge driven on an event-timer pin at a TIME (11 R305). -/
  | etPin (pin : Nat) (level : Bool) (time : Nat)
  deriving DecidableEq, Repr

/-- An error record of 16 R450. -/
structure ErrRec where
  status : Nat
  region : Nat
  block : Nat
  count : Nat
  addr : Nat
  time : Nat
  tick : Nat
  level : Nat
  action : Nat
  index : Nat
  detail : List Byte
  deriving DecidableEq, Repr

/-- A FAULT record that collects the occurrences of one tick (12 R349, 16 R451; log 8). -/
structure FaultAcc where
  status : Nat
  src : Nat
  /-- What else tells records of one status and block apart (a path, a channel, a stream). -/
  key : Nat
  region : Nat
  block : Nat
  addr : Nat
  detail : List Byte
  count : Nat
  time : Nat
  tick : Nat
  deriving DecidableEq, Repr

/-- An accepted host command (12 R337): its descriptor, its 64 bytes, the path it came by, TIME and
tick of acceptance, and what it fixed at acceptance (a dump, figures, a report, with its poisoned 32-byte pieces; a
head; whether a LOAD_SCHEDULE was being checked). -/
structure Accepted where
  desc : Desc
  bytes : List Byte
  path : Nat
  time : Nat
  tick : Nat
  data : List Byte
  bads : List Nat
  num : Nat
  deriving DecidableEq, Repr

/-! ### Time and ticks -/

/-- An entry of the MSI-X table (12 R320): message address, message data, vector control, of which bit 0 masks the
vector (log 127). -/
structure MsixEntry where
  addr : DWord
  data : Word
  ctl : Word
  deriving DecidableEq, Repr

/-- 02 R32 to R35, 12 R323 R332. -/
structure TimeSt where
  /-- TIME in ns (00 R10). -/
  now : Nat
  /-- Number of the tick begun last (R33). -/
  tick : Nat
  /-- Whole seconds S and edge index k of that edge (R32, R33). -/
  sec : Nat
  k : Nat
  /-- TIME of that edge. -/
  edge : Nat
  /-- Ticks per second in force, and the rate waiting for the next second (R34). -/
  rate : Nat
  pendingRate : Option Nat
  /-- A step the servo needs while a schedule runs (R35). -/
  stepPending : Option Int
  /-- The part of a nanosecond that slewing is ahead of TIME, in units of 2^-16 ppm of 1 ns (11 R302, R304). -/
  slew : Int
  /-- Snapshots of TICK_HI and TIME_HI (12 R323). -/
  tickLatch : Option Nat
  timeLatch : Option Nat
  deriving DecidableEq, Repr

/-! ### The schedule image -/

/-- A macro-op record of 03 R77, split into its fields. -/
structure Rec where
  op : Nat
  flags : Nat
  type : Nat
  flag : Nat
  op0 : Nat
  op1 : Nat
  op2 : Nat
  op3 : Nat
  /-- The 12 parameter bytes as one number. -/
  params : Nat
  deriving DecidableEq, Repr

/-- A slot-program entry (02 R46). -/
structure SlotEntry where
  first : Nat
  count : Nat
  cycles : Nat
  deriving DecidableEq, Repr

/-- A circular region entry (02 R48). -/
structure RegionDecl where
  base : Nat
  size : Nat
  producer : Nat
  pindex : Nat
  egress : Nat
  deriving DecidableEq, Repr

/-- A FACET_RESOURCES element (02 R47). -/
structure FacetRes where
  facet : Nat
  strict : Bool
  firstRow : Nat
  rowCount : Nat
  regions : List RegionDecl
  deriving DecidableEq, Repr

/-- An HBM partition entry (02 R49). -/
structure Partition where
  base : Nat
  size : Nat
  kind : Nat
  prism : Nat
  egress : Nat
  inherit : Bool
  history : Bool
  id : Nat
  deriving DecidableEq, Repr

/-- CROP_LIMITS (02 R51). -/
structure CropLimits where
  maxW : Nat
  maxH : Nat
  maxCrops : Nat
  maxWindow : Nat
  deriving DecidableEq, Repr

/-- A DMA descriptor of 08 R205 R206. -/
structure DmaDesc where
  ctrl : Nat
  src : Nat
  dst : Nat
  len : Nat
  outLen : Nat
  next : Nat
  deriving DecidableEq, Repr

/-- A DMA template (02 R52): its relocated descriptor and its binding. -/
structure Tmpl where
  desc : DmaDesc
  engine : Nat
  channel : Nat
  next : Nat
  slot : Nat
  deriving DecidableEq, Repr

/-- A stream entry (09 R259). -/
structure StreamCfg where
  kind : Nat
  point : Nat
  lpg : Nat
  tone : Nat
  srcX : Nat
  srcY : Nat
  srcW : Nat
  srcH : Nat
  outW : Nat
  outH : Nat
  ringBytes : Nat
  dest : Nat
  facet : Nat
  region : Nat
  deriving DecidableEq, Repr

/-- The OBJECTIVE_CONFIG section (09 R258). -/
structure ObjCfg where
  mode : Nat
  flags : Nat
  frameTicks : Nat
  exposure : Nat
  again : Nat
  dgain : Nat
  black : Nat
  dynThresh : Nat
  wb : List Nat
  ccm : List Int
  burstFrames : Nat
  burstTap : Nat
  pinTrigger : Nat
  burstExposure : Nat
  burstAgain : Nat
  originX : Nat
  originY : Nat
  envelopeMask : Nat
  partition : Nat
  histX : Nat
  histY : Nat
  histW : Nat
  histH : Nat
  flickerCh : Nat
  flickerMin : Nat
  streams : List StreamCfg
  tone : List (List Nat)
  deriving DecidableEq, Repr

/-- A converter entry (10 R291). -/
structure ConvEnt where
  div : Nat
  seqLen : Nat
  sel : Nat
  readers : Nat
  delay : Nat
  seqTable : Nat
  facet : Nat
  region : Nat
  deriving DecidableEq, Repr

/-- An input entry (10 R291). -/
structure InputEnt where
  offset : Int
  gain : Nat
  mode : Nat
  stepW : Nat
  urgent : Nat
  level : Nat
  holdoff : Nat
  deriving DecidableEq, Repr

/-- A window entry (10 R291). -/
structure WindowEnt where
  mask : Nat
  convMask : Nat
  pre : Nat
  post : Nat
  deriving DecidableEq, Repr

/-- The CONVERTER_CONFIG section (10 R291). -/
structure ConvCfg where
  source : Nat
  etChannel : Nat
  outage : Bool
  keepFirst : Bool
  period : Nat
  spt : Nat
  histPart : Nat
  ringBlocks : Nat
  outageMask : Nat
  activeMask : Nat
  conv : List ConvEnt
  inputs : List InputEnt
  windows : List WindowEnt
  deriving DecidableEq, Repr

/-- The active or staged image, decoded (02 R43 to R54). -/
structure Image where
  addr : Nat
  len : Nat
  floor : Nat
  holdover : Bool
  tps : Nat
  h : Nat
  mask : Nat
  energy : List Nat
  holdEnergy : Nat
  id : Nat
  version : Nat
  /-- Header bytes 0x20 to 0x3F, as STATS returns them (16 R465). -/
  head : List Byte
  /-- SHA-384 of the signed bytes (02 R54). -/
  digest : List Byte
  res : List FacetRes
  slots : List SlotEntry
  hold : List SlotEntry
  ops : List Rec
  parts : List Partition
  traffic : List Nat
  crop : CropLimits
  /-- FOCUS_BOUNDS elements, 16 bytes each (R53). -/
  focus : List (List Byte)
  templates : List Tmpl
  objective : Option ObjCfg
  converter : Option ConvCfg
  deriving DecidableEq, Repr

/-- 12 R328 STATE.SCHEDULE together with 02 R67. -/
inductive SchedMode where
  | main | suspended | holdover
  deriving DecidableEq, Repr

/-- A START that waits for its tick (02 R60, R61). -/
structure StartPend where
  t : Nat
  staged : Bool
  /-- Preload templates not yet complete (02 R61 step 1). -/
  preloads : List Nat
  /-- Channels whose preload runs, with the template (02 R61). -/
  running : List (Nat × Nat)
  deferred : Bool
  /-- CMD_DONE has been placed. -/
  fixed : Bool
  acc : Option Accepted
  deriving DecidableEq, Repr

/-- Schedules (02 R55 to R69). -/
structure Sched where
  active : Option Image
  staged : Option Image
  running : Bool
  mode : SchedMode
  startTick : Nat
  start : Option StartPend
  /-- A STOP waiting: at the next hyperperiod boundary (else the next edge), and its discard flag. -/
  stop : Option (Bool × Bool)
  /-- The main program waits for the next multiple of H (R69). -/
  resume : Bool
  validTicks : Nat
  invalidTicks : Nat
  suspendedTicks : Nat
  deriving DecidableEq, Repr

/-- The Aperture (01 R27 to R31, R493). -/
structure Aperture where
  /-- Crop and window limits in force; none while no image is active. -/
  crop : Option CropLimits
  full : Bool
  /-- Crops passed per source frame start tick, newest first (R28). -/
  crops : List (Nat × Nat)
  /-- Every egress is blocked (16 R454, R459). -/
  sealed : Bool
  deriving DecidableEq, Repr

/-! ### Host control -/

/-- 12 R325 to R352. -/
structure HostCtl where
  owner : Owner
  claimRefused : Bool
  cmdBaseLo : Word
  cmdBaseHi : Half
  cmdSize : Nat
  cmdPut : Nat
  cmdGet : Nat
  evtBaseLo : Word
  evtBaseHi : Half
  evtSize : Nat
  evtPut : Nat
  evtGet : Nat
  mboxOff : Nat
  mboxSpace : Bool
  mboxInc : Bool
  /-- The 4 KiB command mailbox (R336), by byte offset. -/
  mailbox : SMap Byte
  irqStatus : BitVec 10
  irqEnable : BitVec 10
  perfLevel : Nat
  perfAuto : Bool
  sleepCtl : Word
  snapDone : Bool
  snapLate : Bool
  snapTick : Word
  wdogPeriod : Half
  hostLost : Bool
  /-- TIME at which the watchdog period began, and whether one is under way: it restarts at a kick and at a write of
  PERIOD (R351). -/
  wdogStart : Nat
  wdogRuns : Bool
  spareA : Word
  spareB : Word
  regionAuto : BitVec 7
  /-- Latched low half: register offset and value (R323). -/
  lowLatch : Option (Nat × Half)
  /-- Snapshots of high halves for the local bus, by register (R323). -/
  highSnap : Vector (Option Half) 64
  /-- The MSI-X table and the pending bits of its vectors (R320). -/
  msix : Vector MsixEntry 16
  msixPending : BitVec 16
  /-- Last accepted sequence plus 1; none until the first command after VDD_AON (R337). -/
  expSeq : Option Word
  /-- Background commands running (R339). -/
  bg : List Accepted
  /-- The foreground command that has not completed, and the accepted ones that wait for it (R339). -/
  fg : Option Accepted
  deferred : List Accepted
  /-- Next sequence number per record source (R343). -/
  seqs : NMap
  /-- The holding queue, oldest first (R345). -/
  held : List EventRec
  /-- Records discarded since the last LOST_BEFORE, and whether one is due (R345). -/
  lost : Nat
  lostBefore : Bool
  /-- The data ring: base, size (0 disabled), next free position, and the buffers in use, oldest first:
  event slot of the record, none while it is held, and rounded length (R346). -/
  dataBase : Nat
  dataSize : Nat
  dataPos : Nat
  dataUsed : List (Option Nat × Nat)
  /-- FAULT records of this tick (R349). -/
  faultAcc : List FaultAcc
  pcieUp : Bool
  perst : Bool
  deriving DecidableEq, Repr

/-- The journal (12 R353 to R358). -/
structure Journal where
  head : Nat
  /-- CHAIN of the last entry (R354). -/
  chain : List Byte
  /-- The last entries kept always-on, newest first, at most 32 (R356). -/
  aon : List (List Byte)
  /-- Oldest index held in the Control SRAM ring. -/
  ringFrom : Nat
  /-- Mirror size in units of 64 MiB, first index it holds, and next index to copy (R355). -/
  mirrorJ : Nat
  mirrorFrom : Nat
  mirrorNext : Nat
  sealed : Bool
  deriving DecidableEq, Repr

/-! ### Errors, counters, availability -/

/-- A counter shadow (16 R463): tick, TIME, count, origin, the counter values, the clock nodes that are on
and the isolated regions, the Beam peers, the history marks and the template status words. -/
structure Shadow where
  tick : Nat
  time : Nat
  count : Nat
  origin : Nat
  cnt : NMap
  gates : BitVec 36
  isolated : BitVec 7
  peers : List Nat
  marks : List Nat
  tmpl : List Nat
  deriving DecidableEq, Repr

/-- 16 R450 to R463. -/
structure Errors where
  queue : List ErrRec
  /-- Records created since device reset (INDEX). -/
  index : Nat
  /-- Status, region and block of the records created in this tick (R451). -/
  made : List (Nat × Nat × Nat)
  isolated : BitVec 7
  restarting : BitVec 7
  /-- Regions whose restart steps are done and that wait for their tick (R456). -/
  rejoin : BitVec 7
  /-- Restart requests held while shed (R457). -/
  heldRestart : BitVec 7
  /-- Regions the waiting REGION_RESTART named, and those restarted so far (R455). -/
  restartWait : BitVec 7
  restartDone : BitVec 7
  /-- TIMEs of automatic restarts, with the region (R455). -/
  autoTimes : List (Nat × Nat)
  /-- Isolated regions that only REGION_RESTART restarts (R455, R457). -/
  manual : BitVec 7
  /-- The last-state record in always-on SRAM, and ERR_SUMMARY.LAST_STATE (R460). -/
  lastState : List Byte
  lastHeld : Bool
  /-- The pending snapshot: tick and origin (R463). -/
  snap : Option (Nat × Nat)
  shadow : Option Shadow
  snapCount : Nat
  deriving DecidableEq, Repr

/-! ### Facets -/

/-- A reservation of a dynamic producer (05 R148): who holds it, how many units, whether its transfer
has ended and whether it was released while a later one was outstanding. -/
structure Resv where
  tag : Nat
  units : Nat
  done : Bool
  bad : Bool
  deriving DecidableEq, Repr

/-- A circular region slot (05 R141). `head` and `tail` are offsets from BASE; spans are distances
[lo, hi) from TAIL. -/
structure RegionSt where
  declared : Bool
  base : Nat
  size : Nat
  producer : Nat
  pindex : Nat
  egress : Nat
  head : Nat
  tail : Nat
  level : Nat
  reserved : Nat
  debt : Nat
  /-- LOCAL_HEAD less HEAD: units pushed and not published. -/
  localPush : Nat
  /-- The Facet producer overran the region in this tick, so its pushes are discarded (R146). -/
  overran : Bool
  spans : List (Nat × Nat)
  /-- Outstanding reservations, oldest first; a cancelled one has been dropped (R148, R149). -/
  resv : List Resv
  deriving DecidableEq, Repr

/-- What a Facet's sequencer does (03 R79, R96). -/
inductive FacetPhase where
  | idle | running | waiting | ended
  deriving DecidableEq, Repr

/-- An EMIT record held until END (03 R97, 02 R41). -/
structure EmitRec where
  type : Nat
  route : Nat
  target : Nat
  payload : List Byte
  /-- Unit addresses (address / 32) of the buffer, each with whether EMIT found it past the head or in an invalid
  span of its region (05 R143); its length in bytes, 0 for none. -/
  bufUnits : List (Nat × Bool)
  bufLen : Nat
  tick : Nat
  time : Nat
  deriving DecidableEq, Repr

/-- A Facet with its scratchpad controls (03, 05). Scratchpad bytes lie in the memory map. -/
structure Facet where
  /-- Accumulator file: key row * 64 + column (03 R84). -/
  acc : SMap Word
  /-- Bound store (04 R112). -/
  bound : SMap Half
  /-- Flags set in this tick with the cycle of each (03 R98). -/
  flags : List (Nat × Nat)
  prog : List Rec
  /-- OP_STREAMS index of the first remaining record, and the slot being run. -/
  recIdx : Nat
  slot : Nat
  phase : FacetPhase
  waitTarget : Nat
  /-- The program in progress is the main (not the holdover) program (02 R68). -/
  mainProg : Bool
  /-- FACET cycles since the edge reached the Facet (02 R39). -/
  cycle : Nat
  prevArray : Bool
  invalid : Bool
  emits : List EmitRec
  regions : Vector RegionSt 16
  patrolRow : Nat
  /-- Second of the last journalled TICK_OVERRUN (02 R65). -/
  overrunSec : Option Nat
  validTicks : Nat
  invalidTicks : Nat
  suspendedTicks : Nat
  overruns : Nat
  deriving DecidableEq, Repr

/-! ### HBM -/

/-- What an access that waits on the token bucket belongs to (06 R164, R165): the next burst or the descriptor fetch
or the completion of channel e * 8 + c, the block that an Expander or a Condenser writes, the next block of a
converter's history writer, a Beam payload or a burst frame that has arrived (the head of `Hbm.stalled`). -/
inductive BucketUser where
  | chan (n : Nat) | fetch (n : Nat) | back (n : Nat) | expander (p : Nat) | condenser (p : Nat)
  | history (k : Nat) | beam | burst
  deriving DecidableEq, Repr

/-- An access waiting on the token bucket (06 R164): whose it is, HBM bytes, priority. -/
structure BucketWait where
  user : BucketUser
  bytes : Nat
  prio : Nat
  deriving DecidableEq, Repr

/-- Data that has arrived for HBM and waits for its grant (06 R164): where it goes; after the last of a Beam message,
the receive window whose message it ends, its length and the bytes that came (11 R313). -/
structure Stalled where
  user : BucketUser
  addr : Nat
  bytes : List Byte
  /-- Poisoned 32-byte pieces. -/
  bads : List Nat
  ends : Option (Nat × Nat × Nat)
  deriving DecidableEq, Repr

/-- A history mark (06 R173): the HISTORY partition it serves (none while free), the address just past
the last completed write, STALE, and the TIME of that write. -/
structure HistMark where
  part : Option Partition
  addr : Nat
  stale : Bool
  time : Nat
  deriving DecidableEq, Repr

/-- The stack's interface (06 R170, R171); `draining` is the part of self-refresh entry in which begun writes into
HISTORY partitions complete. -/
inductive HbmPhase where
  | off | training (attempts : Nat) | ready | failed | draining | selfRefresh
  deriving DecidableEq, Repr

/-- 06 R155 to R174. -/
structure Hbm where
  bucket : Nat
  /-- Allowance in force, GB/s (R162). -/
  rate : Nat
  /-- TIME up to which the bucket has been credited (R164). -/
  credited : Nat
  ctlBucket : Nat
  waiting : List BucketWait
  stalled : List Stalled
  /-- Poisoned 32-byte granules (R168), as address / 32, at most 256. -/
  poison : List Nat
  /-- Stack temperature, 1/16 degC. -/
  temp : Int
  doubled : Bool
  /-- The cap of R169 is in force; it is wanted at the next edge; a crossing has been reported; TIME since
  which the temperature has been below 90 degC. -/
  capped : Bool
  capWanted : Bool
  hot : Bool
  below90 : Option Nat
  phase : HbmPhase
  powerDown : Vector Bool 16
  /-- Last-corrected register of each channel (R167). -/
  lastCorr : Vector Nat 16
  marks : Vector HistMark 8
  /-- Highest temperature since the last snapshot (R174). -/
  tempMax : Int
  deriving DecidableEq, Repr

/-! ### DMA -/

/-- Where a channel's descriptor stands (08 R205, R217). -/
inductive DescAt where
  | mem (addr : Nat)
  | tmpl (idx : Nat)
  deriving DecidableEq, Repr

/-- What a channel does (08 R210 to R221). -/
inductive ChPhase where
  | idle | halted | fetching | polling | waiting | running
  /-- An abort has been asked for; the flag says whether the channel halts (R214, R219). -/
  | aborting (halts : Bool) (started : Bool)
  deriving DecidableEq, Repr

/-- Units reserved in a circular region (08 R211): Facet and slot, the region's BASE and SIZE when it was made, and
the offset of the first reserved unit from BASE. A reset of the region leaves the transfer where it was (05 R149). -/
structure RingAt where
  facet : Nat
  region : Nat
  base : Nat
  size : Nat
  off : Nat
  deriving DecidableEq, Repr

/-- A DMA channel (08 R202 to R223). -/
structure Channel where
  phase : ChPhase
  at_ : DescAt
  desc : DmaDesc
  readN : Nat
  writtenN : Nat
  resv : Option RingAt
  /-- The template store's part for the channel: the armed chain, by index (R217). -/
  store : List (Nat × Tmpl)
  /-- Outcome fixed before the end of the source: the transfer stops and completes with it. -/
  stop : Option Nat
  poisonSeen : Bool
  poisonLost : Bool
  condPoisoned : Bool
  /-- CRC register of transform 3 (R216). -/
  crc : Nat
  /-- Source and output bytes settled by the Expander or Condenser (07 R184, R190). -/
  codedDone : Nat
  outPos : Nat
  /-- DONE latch (R212). -/
  latch : Bool
  seq : Nat
  /-- Start instant of WAIT_KIND 1, and a start event seen since the fetch (R212). -/
  startAt : Option Nat
  eventSeen : Bool
  /-- TIME of the fetch, from which WAIT_CYCLES counts. -/
  waitFrom : Nat
  /-- A last descriptor: fetch no NEXT (R218). -/
  noNext : Bool
  /-- The transfer that has begun writes into a HISTORY partition (06 R173). -/
  history : Bool
  /-- Device address of the line group being read (09 R245); the converter block being read and its poison
  (10 R281). -/
  group : Nat
  block : List Byte
  blockBad : Bool
  /-- TIME at which the last write of the transfer reached its destination (R205). -/
  lastAt : Option Nat
  /-- Expander output to a Beam window (07 R184): 32-byte halves of units not yet sent, by their offset in the message, and
  whether a frame of the message has been sent. -/
  halves : List (Nat × List Byte)
  framed : Bool
  deriving DecidableEq, Repr

/-- A DMA engine: its channels and the channel served last at each priority level (08 R213). -/
structure Engine where
  ch : Vector Channel 8
  rr : Vector Nat 4
  /-- Channels whose ready burst was found to wait for buffer space, with its bytes (R223 BUFFER_FULL). -/
  bufWait : List (Nat × Nat)
  deriving DecidableEq, Repr

/-- The completion fields of a template (08 R208, 16 R462). -/
structure TmplStatus where
  idx : Nat
  status : Nat
  residue : Nat
  time : Nat
  seq : Nat
  deriving DecidableEq, Repr

/-- The block that an Expander receives or a Condenser buffers: channel, bytes, poison (07 R186, R199); every byte of
it has arrived. -/
structure BlockSlot where
  chan : Nat
  bytes : List Byte
  poisoned : Bool
  whole : Bool
  /-- Poisoned 32-byte pieces of a Condenser input block (R198). -/
  badUnits : List Nat
  deriving DecidableEq, Repr

/-! ### Sensor and Objective -/

/-- A queued parameter set (09 R230, R232): its planned frame start tick and whether that is later than
the target asked for. -/
structure SensorSet where
  planned : Nat
  late : Bool
  /-- TARGET was 0: never TOO_LATE. -/
  anyFrame : Bool
  tag : Nat
  valid : Nat
  exposure : Nat
  again : Nat
  dgain : Nat
  wb : List Nat
  black : Nat
  deriving DecidableEq, Repr

/-- The settings in force (09 R229). -/
structure Settings where
  exposure : Nat
  again : Nat
  dgain : Nat
  wb : List Nat
  black : Nat
  deriving DecidableEq, Repr

/-- Column tables of one mode: temperatures and offsets per point (09 R237). -/
structure ColTable where
  temps : List Int
  points : List (List Int)
  deriving DecidableEq, Repr

/-- The image items of a calibration bundle (09 R256). -/
structure ImgCal where
  defects : List (Nat × Nat × Int)
  shading : List Nat
  cols : List ColTable
  ratio : Nat
  deriving DecidableEq, Repr

/-- The frame in readout (09 R226, R248): its start, settings, flags and the rows read so far, optical
black first. -/
structure FrameSt where
  tick : Nat
  time : Nat
  seq : Nat
  cfg : Settings
  tag : Nat
  tooLate : Bool
  settling : Bool
  clamped : Bool
  noCal : Bool
  calClamp : Bool
  tempHigh : Bool
  theta : Int
  rows : List RawRow
  deriving DecidableEq, Repr

/-- A stream (09 R243 to R247). -/
structure StreamSt where
  /-- Next free group position in the ring. -/
  pos : Nat
  /-- Positions of the groups that a DMA reader has not taken, oldest first. -/
  held : List Nat
  /-- Of the frame in readout: lines written, cause of a truncation, poison. -/
  lines : Nat
  trunc : Option Nat
  bad : Bool
  /-- Skipped slots since the stream's previous record. -/
  skipped : Nat
  deriving DecidableEq, Repr

/-- A burst trigger on its way or taken (09 R251): source 0 envelope, 1 Facet, 2 pin; its index, TIME,
origin and frame count. -/
structure BurstTrig where
  source : Nat
  index : Nat
  time : Nat
  x : Nat
  y : Nat
  frames : Nat
  deriving DecidableEq, Repr

/-- A burst that runs (09 R252): `theta` is the temperature at its entry (R237), `time0` TIME of frame 0, `row` the
rows that have entered the burst ring. -/
structure Burst where
  trig : BurstTrig
  theta : Int
  done : Nat
  dropped : Nat
  time0 : Nat
  row : Nat
  /-- TIME of the frame start and lines written, per frame read. -/
  index : List (Nat × Nat)
  deriving DecidableEq, Repr

/-- What the write windows have given the sensor (09 R229): the exposures of the next frame start tick and of the one
after, and the analog gain of the next. -/
structure SensorPipe where
  slot : Nat
  exp1 : Nat
  exp2 : Nat
  gain1 : Nat
  deriving DecidableEq, Repr

/-- What the sensor does (09 R251, R252, R254, R255). -/
inductive SensorMode where
  | off | standby | leaving (since : Nat) | normal
  | burst (b : Burst)
  /-- Back from a burst that ended at a TIME. -/
  | returning (since : Nat)
  deriving DecidableEq, Repr

/-- 09 R225 to R260. -/
structure Img where
  mode : SensorMode
  /-- Configuration of the running schedule. -/
  cfg : Option ObjCfg
  frame : Option FrameSt
  /-- FRAME_SEQ of the next frame read. -/
  nextSeq : Nat
  sets : List SensorSet
  now : Settings
  pipe : Option SensorPipe
  /-- An analog gain given in HDR mode, for the next other configuration (R228). -/
  keptAgain : Option Nat
  settling : Bool
  streams : Vector StreamSt 5
  theta : Int
  hot : Bool
  tempMax : Int
  cal : Option ImgCal
  calNext : Option ImgCal
  trigs : List BurstTrig
  /-- A burst read to its end whose data and index are still to be written (R252). -/
  burstOut : Option Burst
  /-- STOP has taken effect: standby after the frame in readout. -/
  stopping : Bool
  /-- Positive-going zero crossings of input FLICKER_CH, newest first; the hysteresis: below -1 % seen, and the
  crossing not yet confirmed above +1 %; the last sample (R250). -/
  crossings : List Nat
  crossArmed : Bool
  crossCand : Option Nat
  crossLast : Option (Nat × Int)
  deriving DecidableEq, Repr

/-! ### Waveform -/

/-- A sample of a converter (10 R266, R268): number, input, true and nominal hold in 1/256 ns, LATE, OPEN_WIRE, converted
by the spare slice; and its part in an overlap (R276): 0 none, 1 the stream takes this slice's result, 2 the other's. -/
structure Held where
  conv : Nat
  idx : Nat
  input : Nat
  hold : Nat
  nominal : Nat
  late : Bool
  openWire : Bool
  spare : Bool
  pair : Nat
  deriving DecidableEq, Repr

/-- An urgent request and its conversion (10 R272 to R274): input, source 0 envelope or 1 Facet (2 an open-wire test,
R287), the triggering input or Facet, TIME of the request; and of its hold: TIME, slice (16 the spare one), OPEN_WIRE, and
the samples that its converter had held. -/
structure Urgent where
  input : Nat
  source : Nat
  index : Nat
  req : Nat
  hold : Nat
  slice : Nat
  openWire : Bool
  heldN : Nat
  deriving DecidableEq, Repr

/-- What a slice's core converts (10 R268, R273): a held sample, an urgent input, or a sample abandoned for the urgent
conversion before it, which is held again when that ends. -/
inductive CoreJob where
  | stream (h : Held) | urgent (u : Urgent) | again (h : Held)
  deriving DecidableEq, Repr

/-- A slice (10 R262, R268): held values in conversion order, and the end of the last conversion in 1/256 ns. -/
structure Core where
  jobs : List CoreJob
  freeAt : Nat
  deriving DecidableEq, Repr

/-- What the header of an open block holds (10 R280): block number, first hold in 1/256 ns, its tick, the
period, and RATE_CHANGE. -/
structure WaveHdr where
  seq : Nat
  time0 : Nat
  tick : Nat
  period : Nat
  rate : Bool
  deriving DecidableEq, Repr

/-- A complete block in a queue (10 R281): who has still to take it, the history writer with the device address it
writes to (R283); `old` since another configuration began. -/
structure Block where
  seq : Nat
  bytes : List Byte
  bad : Bool
  dma : Bool
  hist : Option Nat
  old : Bool
  deriving DecidableEq, Repr

/-- A converter (10 R262 to R281). -/
structure Conv where
  /-- Triggered samples whose hold instant is still to come (R266). -/
  pend : List Held
  core : Core
  /-- Number of the next sample since the start. -/
  idx : Nat
  /-- Block number due next; SEQ is its low 32 bits. -/
  seq : Nat
  words : List (Nat × Nat)
  hdrs : List WaveHdr
  /-- Number and first hold, in 1/256 ns, of the last blocks begun, newest first. -/
  starts : List (Nat × Nat)
  /-- Late samples: number and offset in 1/256 ns. -/
  lates : List (Nat × Nat)
  /-- First block closed early (R279). -/
  closed : Option Nat
  queue : List Block
  gap : Bool
  drops : List Nat
  /-- Oldest block number not yet in the history ring. -/
  histNext : Nat
  failed : Bool
  deriving DecidableEq, Repr

/-- An input (10 R270, R284): correction in force, and pending ones with their first sample number; the trigger armed, or
the TIME at which its hold-off ends; the last samples by number, newest first, none for a MISSED one. -/
structure Input where
  offset : Int
  gain : Nat
  next : List (Int × Nat × Nat)
  armed : Bool
  holdoff : Option Nat
  last : List (Nat × Option Int)
  deriving DecidableEq, Repr

/-- An open waveform window (10 R286): TIME of its trigger and of its end, the input, FIRST_SEQ, PRE_SHORT. -/
structure WaveWin where
  time : Nat
  stop : Nat
  input : Nat
  first : Nat
  short : Bool
  deriving DecidableEq, Repr

/-- A window whose converters have been stopped before its last block was written (10 R279, R286): its number, partition and
converters, LAST_SEQ, and whether a block in its range was dropped. -/
structure OldWin where
  win : Nat
  part : Nat
  mask : Nat
  last : Nat
  gap : Bool
  x : WaveWin
  deriving DecidableEq, Repr

/-- A running open-wire test (10 R287): inputs, current, threshold, down phase, TIME the phase began, sums
and counts of the readings of this phase, and the up readings. -/
structure OpenWire where
  mask : Nat
  current : Nat
  th : Nat
  down : Bool
  since : Nat
  sums : List (Nat × Int × Nat)
  up : List (Nat × Int)
  deriving DecidableEq, Repr

/-- The outage ring (10 R288). -/
structure Outage where
  on : Bool
  blocks : Nat
  next : Nat
  /-- TIME of every block that the ring holds, oldest first. -/
  times : List Nat
  last : Nat
  deriving DecidableEq, Repr

/-- 10 R262 to R293. -/
structure Wav where
  refOn : Bool
  refSince : Nat
  refFault : Bool
  /-- The reference has settled and every slice has been calibrated since the reference was enabled (R278). -/
  refReady : Bool
  cfg : Option ConvCfg
  /-- Index of the next trigger since the start; start TIME and tick. -/
  trig : Nat
  startTime : Nat
  startTick : Nat
  /-- The rate segment in force: first trigger, its instant in 1/256 ns, period. -/
  seg : Nat × Nat × Nat
  nextPeriod : Option Nat
  /-- Event-timer instants not yet used as triggers, in ns. -/
  events : List Nat
  conv : Vector Conv 16
  /-- The spare slice, the converter it stands in for, its self-calibration; the converter whose first hold at or after
  a TIME overlaps, and whether that starts or ends the stand-in; the result of an overlapped sample's slice that was first
  (converter, sample, code); rotation halted. -/
  spare : Core
  standing : Option Nat
  selfCal : Bool
  handover : Option (Nat × Bool × Nat)
  pair : Option (Nat × Nat × Int)
  halted : Bool
  /-- ADC_TRIM of the calibration in force, and one that waits for a block boundary (14 R410). -/
  trim : List Byte
  trimNext : Option (List Byte)
  inputs : Vector Input 64
  windows : Vector (Option WaveWin) 8
  oldWindows : List OldWin
  reqs : List Urgent
  openWire : Option OpenWire
  outage : Outage
  deriving DecidableEq, Repr

/-! ### Network and time -/

/-- An Ethernet port (11 R295 to R300). -/
structure Port where
  mode : Nat
  vid : Nat
  beamQueue : Nat
  up : Bool
  txq : Vector (List Frame) 8
  deriving DecidableEq, Repr

/-- 11 R303. -/
inductive PtpState where
  | free | acquiring | locked | holdover
  deriving DecidableEq, Repr

/-- The clock (11 R301 to R304). -/
structure Ptp where
  state : PtpState
  domain : Nat
  oneStep : Bool
  /-- HOLDOVER_LIMIT in seconds. -/
  limit : Nat
  slave : Option Nat
  /-- The Announces known per port, by sender; the sender that is selected. -/
  masters : Vector (List (Nat × Announce)) 2
  master : Option Nat
  gm : Option Announce
  lastGm : Option Nat
  gmChanged : Bool
  /-- A two-step Sync waiting for its Follow_Up: port, sender, sequence, receive stamp, correction. -/
  syncWait : Option (Nat × Nat × Nat × Nat × Int)
  good : Nat
  bad : Nat
  offset : Int
  adj : Int
  delay : Vector Nat 2
  since : Nat
  reqSeq : Nat
  /-- Per port: sequence and transmit stamp of the last Pdelay_Req sent; a two-step Pdelay_Resp waiting for its
  Follow_Up, as sequence, receive stamp and the peer's receive time. -/
  reqAt : Vector (Option (Nat × Nat)) 2
  respWait : Vector (Option (Nat × Nat × Nat)) 2
  deriving DecidableEq, Repr

/-- An event-timer channel (11 R305). -/
structure EvTimer where
  mode : Nat
  pin : Nat
  width : Nat
  start : Nat
  period : Nat
  next : Nat
  last : Option Nat
  deriving DecidableEq, Repr

/-- A patch entry (11 R307). -/
structure Patch where
  offset : Nat
  len : Nat
  source : Nat
  order : Nat
  arg : Nat
  init : Nat
  deriving DecidableEq, Repr

/-- A firing of a template (11 R308): TIME and tick of its event, the record's payload. -/
structure Firing where
  time : Nat
  tick : Nat
  payload : List Byte
  deriving DecidableEq, Repr

/-- An installed event template (11 R306 to R308). -/
structure EvTmpl where
  ports : Nat
  queue : Nat
  repeats : Nat
  heartbeat : Bool
  tagged : Bool
  inputs : Nat
  sources : Nat
  patches : List Patch
  repeatUs : List Nat
  frame : List Byte
  /-- Counter of each SEQ or STATE patch, its initial value elsewhere. -/
  counters : List Nat
  lastLabel : Option (List Byte)
  /-- The firing being served (R308). -/
  firing : Option Firing
  /-- Transmissions of the firing made so far. -/
  sent : Nat
  /-- Frames of it that stand in port queues. -/
  inQueue : Nat
  waiting : List Firing
  /-- No frame of the last transmission has been sent (R307 SEQ). -/
  unsent : Bool
  deriving DecidableEq, Repr

/-- 11 R295 to R309. -/
structure Net where
  port : Vector Port 2
  ptp : Ptp
  et : Vector EvTimer 8
  tmpl : Vector (Option EvTmpl) 32
  deriving DecidableEq, Repr

/-! ### Beam -/

/-- A frame kept until it is acknowledged (11 R314). -/
structure BeamFrame where
  hdr : BeamHdr
  payload : List Byte
  ctl : Option BeamCtl
  /-- DMA channel (engine * 8 + channel) whose message it belongs to. -/
  chan : Option Nat
  deriving DecidableEq, Repr

/-- A peer (11 R310, R314). -/
structure Peer where
  index : Nat
  mac : List Byte
  primary : Nat
  alternate : Nat
  up : Bool
  port : Nat
  epoch : Nat
  txSeq : Nat
  rxSeq : Nat
  unacked : List BeamFrame
  waiting : List BeamFrame
  rtoUs : Nat
  expiries : Nat
  deriving DecidableEq, Repr

/-- Where a receive window writes (11 R312). -/
inductive RxDest where
  | region (facet region : Nat)
  | hbm (base size : Nat)
  deriving DecidableEq, Repr

/-- A message being received (11 R313): its length, window offset, its place in HBM, the units reserved for it in a
region, whether it was refused for credit, and bytes taken. -/
structure RxMsg where
  len : Nat
  off : Nat
  at_ : Nat
  ring : Option RingAt
  refused : Bool
  got : Nat
  deriving DecidableEq, Repr

structure RxWin where
  peer : Nat
  dest : RxDest
  granted : Nat
  used : Nat
  /-- Units returned since opening. -/
  returned : Nat
  msg : Option RxMsg
  deriving DecidableEq, Repr

structure TxWin where
  peer : Nat
  window : Nat
  usable : Bool
  size : Nat
  granted : Nat
  used : Nat
  deriving DecidableEq, Repr

/-- A pending global operation (11 R315, R316). -/
structure GlobalOp where
  kind : Nat
  opId : Nat
  tick : Nat
  arg : Nat
  root : Bool
  /-- This device has arrived or has armed. -/
  here : Bool
  /-- Children that have arrived. -/
  kids : List Nat
  answered : Nat
  armed : Nat
  reported : Bool
  deadline : Nat
  window : Nat
  len : Nat
  deriving DecidableEq, Repr

/-- 11 R310 to R316. -/
structure Beam where
  n : Nat
  index : Nat
  ethertype : Nat
  hopUs : Nat
  peers : List Peer
  rx : Vector (Option RxWin) 16
  tx : Vector (Option TxWin) 16
  /-- Receive windows that peers have announced: peer, window, size. -/
  remote : List (Nat × Nat × Nat)
  ops : List GlobalOp
  deriving DecidableEq, Repr

/-! ### Fuses -/

/-- What a pulse sequence programs for (13 R381 to R384, R402, R406 to R409, R412). -/
inductive FuseJob where
  | program (a : Accepted)
  | seal (a : Accepted) (region : Nat)
  | lock (a : Accepted)
  | enroll (a : Accepted) (slot : Nat)
  | transition (a : Accepted) (target : Nat)
  | revoke (a : Accepted) (slot : Nat)
  | rollback
  /-- The rest of the erase of DEVICE_SECRET at a start-up in RETIRED (14 R406). -/
  | erase
  /-- A re-read that fell due while another operation ran, with the words it reads otherwise (13 R386). -/
  | reread (reads : List (Fin 528 × DWord × DWord))
  deriving DecidableEq, Repr

/-- A programming operation: its job, the physical bits (word * 64 + bit) that its present step pulses, in order, the
bits of the steps to come (14 R406), whether VPP_FUSE is the source, bits pulsed so far, and whether the programming
conditions have failed since it began (13 R380). -/
structure FuseOp where
  job : FuseJob
  todo : List Nat
  steps : List (List Nat)
  external : Bool
  pulsed : Nat
  cut : Bool
  deriving DecidableEq, Repr

/-- The array and the fuse controller (13 R361 to R389). -/
structure FuseSt where
  /-- Firm-1 and marginal bits of each of the 528 words. -/
  firm : NMap
  marg : NMap
  /-- The shadow: word 32 r + i, a doubled region's logical words in its first 16. -/
  shadow : NMap
  valid : Bool
  /-- Region states (R370), slot states (R371), masks of MARGINAL regions and slots. -/
  st : List Nat
  slotSt : List Nat
  regMarg : Nat
  slotMarg : Nat
  /-- Redirection in force: main word and spare index, with the entry that gives it (R366). -/
  map : List (Nat × Nat × Nat)
  /-- POLICY as the last start-up read gave it: DEBUG_CLOSE and BOOT_QSPI_ONLY act from there (14 R404). -/
  startPolicy : Nat
  /-- Lifecycle code, locks and POLICY bits kept over S3 (R387). -/
  kept : Option (Nat × Nat × Nat)
  faultRegion : Nat
  critical : Bool
  ownerAbsent : Bool
  regionAbsent : Bool
  alarm : Bool
  /-- Re-read mismatches since device reset, and those in always-on memory. -/
  mismatch : Nat
  mismatchAon : Nat
  vpp : Bool
  op : Option FuseOp
  waiting : List FuseJob
  deriving DecidableEq, Repr

/-! ### Root of trust -/

/-- What the boot ROM does (14 R399). -/
inductive BootPhase where
  | none | waitPush | running
  deriving DecidableEq, Repr

/-- Manifest fields of the running firmware (14 R398). -/
structure Firmware where
  version : Nat
  rollback : Nat
  len : Nat
  digest : List Byte
  deriving DecidableEq, Repr

/-- 14 R391 to R414. -/
structure Trust where
  /-- Preferred slot (0 A, 1 B) and the slot that booted. -/
  preferred : Nat
  slot : Nat
  pending : Option Nat
  /-- The previous slot while a trial runs, and TIME of READY.TRUST of the trial. -/
  trial : Option Nat
  trialAt : Nat
  /-- The anti-rollback counter is still to be programmed (R402). -/
  rollbackDue : Bool
  boot : BootPhase
  fw : Firmware
  /-- The QSPI flash beside the device. -/
  flash : SMap Byte
  abandoned : Nat
  grant : Nat
  /-- Containers in check, oldest first (R394). -/
  checks : List Accepted
  /-- UPDATE_FIRMWARE in progress, and the one waiting to activate with its tick once fixed. -/
  update : Option Accepted
  activate : Option (Accepted × Nat × Option Nat)
  identityOk : Bool
  calDigest : Option (List Byte)
  bootSrc : Nat
  deriving DecidableEq, Repr

/-! ### Clocks, power, supply -/

/-- 17 R473, R474; 15 R432, R440. -/
inductive Phase where
  /-- VDD_AON off. -/
  | off
  /-- VDD_AON up, PORST_N low. -/
  | porst
  /-- Held in reset by a status. -/
  | held
  /-- From the fuse read to READY.SYS. -/
  | starting
  | running
  | asleep (s : Nat)
  | tripped
  deriving DecidableEq, Repr

/-- A clock domain's PLL (15 R419, R420). -/
inductive PllPhase where
  | off | judging (failed : Nat) | good | stopped
  deriving DecidableEq, Repr

/-- A level change in progress (15 R428): its target, and how far it is. -/
inductive LevelStep where
  /-- Faster: VID_CORE is new, PGOOD_CORE awaited; then settling; then the next edge. -/
  | up (target oldVid : Nat) | upSettle (target oldVid : Nat) | upReady (target oldVid : Nat)
  /-- Slower: the switch awaited; then PGOOD_CORE; then settling. -/
  | down (target : Nat) | downWait (oldVid : Nat) | downSettle (oldVid : Nat)
  deriving DecidableEq, Repr

/-- A supply input (15 R441 to R446): mV, warning levels crossed (bit k - 1 for W_k), the lowest value since
the last SHED record, TIMEs of the crossings, and TIME since which it has been above each W_k plus its
hysteresis. -/
structure SupplyIn where
  mv : Nat
  below : Nat
  low : Nat
  crossAt : List Nat
  aboveAt : List Nat
  deriving DecidableEq, Repr

/-- What S3 saves and restores (15 R436). -/
structure Saved where
  host : HostCtl
  rate : Nat
  time : Nat
  adj : Int
  entry : Nat
  /-- The level in force, the VID_CORE code, and the level for which the idle FACET PLL is set. -/
  level : Nat
  vid : Nat
  idle : Nat
  deriving DecidableEq, Repr

/-- How far the exit from a sleep state is (15 R437): it waits for PGOOD_MAIN, for PGOOD_CORE, or for the clocks. -/
inductive ExitStep where
  | main | core | clocks
  deriving DecidableEq, Repr

/-- 15 R416 to R447, 17 R473 to R477. -/
structure Power where
  phase : Phase
  /-- The Periscope serves (17 R473 step 2). -/
  pscUp : Bool
  enCore : Bool
  enMain : Bool
  vid : Nat
  pgoodCore : Bool
  pgoodMain : Bool
  /-- PGOOD_MAIN has risen since EN_MAIN rose. -/
  mainSeen : Bool
  clkSrc : Nat
  pscAddr : Nat
  refWindows : Nat
  refGood : Nat
  refStable : Bool
  refBad : Nat
  /-- AON SYS FACET HBM PIX ADC PCIE ETH TIME (R417); consecutive bad counts (R421). -/
  pll : Vector PllPhase 9
  pllBad : Vector Nat 9
  /-- Clock-gate nodes that are on (R424). -/
  gates : BitVec 36
  level : Nat
  change : Option LevelStep
  /-- Target taken up when PENDING clears. -/
  nextTarget : Option Nat
  /-- Level for which the idle FACET PLL is set, and whether it has been judged. -/
  idleLevel : Nat
  idleJudged : Bool
  sleepAt : Nat
  wakeLatched : Bool
  wakeSrc : Nat
  wakePin : Bool
  saved : Option Saved
  /-- An exit from sleep is in progress. -/
  exit : Option ExitStep
  /-- VIN_SENSE, VDD_CORE, VDD_SOC, VDD_IO, VDD_SRAM. -/
  supply : Vector SupplyIn 5
  shed : Nat
  target : Nat
  cause : Nat
  shedCount : Nat
  /-- SHED records waiting for the exit from sleep: TIME, tick, flags, payload (R444). -/
  shedHeld : List (Nat × Nat × Nat × List Byte)
  /-- Stage 3 has been undone and Facets 0 to 3 wait for PGOOD_CORE and FACET (R445). -/
  facetsWait : Bool
  logicT : Int
  logicMax : Int
  hotArmed : Bool
  psc : Nat
  startStatus : Nat
  failRegion : Nat
  failWord : Nat
  resetCause : Nat
  resetCount : Nat
  resetStatus : Nat
  deriving DecidableEq, Repr

/-- The whole state. -/
structure State where
  pending : List Instr
  freeCtr : Nat
  out : List Output
  upsets : List (Nat × Nat)
  mem : SMap Byte
  poison : SMap (BitVec 2)
  wbQueue : List Nat
  cnt : NMap
  tk : TimeSt
  facets : Vector Facet 16
  sched : Sched
  ap : Aperture
  hbm : Hbm
  dma : Vector Engine 5
  tmplStatus : List TmplStatus
  exp : Vector (List BlockSlot) 4
  cnd : Vector (Option BlockSlot) 4
  img : Img
  wav : Wav
  net : Net
  beam : Beam
  host : HostCtl
  jnl : Journal
  err : Errors
  pwr : Power
  fuse : FuseSt
  trust : Trust
  /-- Nanoseconds for which the device has been idle (15 R433). -/
  idleNs : Nat
  ready : BitVec 19
  deriving DecidableEq, Repr

/-! ### After reset -/

/-- A circular-region slot that no image declares (05 R141). -/
def RegionSt.vacant : RegionSt :=
  ⟨false, 0, 0, 0, 0, 0, 0, 0, 0, 0, 0, 0, false, [], []⟩

/-- A Facet with no program, its accumulator file and bound store at zero (03 R84, 04 R112). -/
def Facet.reset : Facet where
  acc := []
  bound := []
  flags := []
  prog := []
  recIdx := 0
  slot := 0
  phase := .idle
  waitTarget := 0
  mainProg := true
  cycle := 0
  prevArray := false
  invalid := false
  emits := []
  regions := Vector.replicate 16 RegionSt.vacant
  patrolRow := 0
  overrunSec := none
  validTicks := 0
  invalidTicks := 0
  suspendedTicks := 0
  overruns := 0

/-- Vectors are masked (log 127). -/
def MsixEntry.reset : MsixEntry := ⟨0, 0, 1⟩

/-- 02 R32 R34 R35, 12 R332. -/
def TimeSt.reset : TimeSt := ⟨0, 0, 0, 0, 0, 600, none, none, 0, none, none⟩

def Sched.reset : Sched := ⟨none, none, false, .main, 0, none, none, false, 0, 0, 0⟩

def Aperture.reset : Aperture := ⟨none, false, [], false⟩

/-- 06 R164, R170, R173: the bucket full, the interface untrained, no marks. -/
def Hbm.reset : Hbm where
  bucket := 33554432
  rate := 224
  credited := 0
  ctlBucket := 1048576
  waiting := []
  stalled := []
  poison := []
  temp := 0
  doubled := false
  capped := false
  capWanted := false
  hot := false
  below90 := none
  phase := .off
  powerDown := Vector.replicate 16 false
  lastCorr := Vector.replicate 16 0
  marks := Vector.replicate 8 ⟨none, 0, false, 0⟩
  tempMax := 0

def DmaDesc.zero : DmaDesc := ⟨0, 0, 0, 0, 0, 0⟩

/-- An idle channel (08 R208, R212). -/
def Channel.reset : Channel where
  phase := .idle
  at_ := .mem 0
  desc := DmaDesc.zero
  readN := 0
  writtenN := 0
  resv := none
  store := []
  stop := none
  poisonSeen := false
  poisonLost := false
  condPoisoned := false
  crc := 0
  codedDone := 0
  outPos := 0
  latch := false
  seq := 0
  startAt := none
  eventSeen := false
  waitFrom := 0
  noNext := false
  history := false
  group := 0
  block := []
  blockBad := false
  lastAt := none
  halves := []
  framed := false

def Engine.reset : Engine := ⟨Vector.replicate 8 Channel.reset, Vector.replicate 4 0, []⟩

def Settings.zero : Settings := ⟨0, 0, 0, [], 0⟩

def StreamSt.reset : StreamSt := ⟨0, [], 0, none, false, 0⟩

/-- The sensor unpowered, no calibration (09 R254, R257). -/
def Img.reset : Img where
  mode := .off
  cfg := none
  frame := none
  nextSeq := 0
  sets := []
  now := Settings.zero
  pipe := none
  keptAgain := none
  settling := false
  streams := Vector.replicate 5 StreamSt.reset
  theta := 0
  hot := false
  tempMax := 0
  cal := none
  calNext := none
  trigs := []
  burstOut := none
  stopping := false
  crossings := []
  crossArmed := false
  crossCand := none
  crossLast := none

def Core.reset : Core := ⟨[], 0⟩

def Conv.reset : Conv where
  pend := []
  core := Core.reset
  idx := 0
  seq := 0
  words := []
  hdrs := []
  starts := []
  lates := []
  closed := none
  queue := []
  gap := false
  drops := []
  histNext := 0
  failed := false

/-- An input with unit gain, its trigger armed (log 2). -/
def Input.reset : Input := ⟨0, 0x400000, [], true, none, []⟩

/-- The reference off, converters stopped (10 R278, R279). -/
def Wav.reset : Wav where
  refOn := false
  refSince := 0
  refFault := false
  refReady := false
  cfg := none
  trig := 0
  startTime := 0
  startTick := 0
  seg := (0, 0, 0)
  nextPeriod := none
  events := []
  conv := Vector.replicate 16 Conv.reset
  spare := Core.reset
  standing := none
  selfCal := false
  handover := none
  pair := none
  halted := false
  trim := []
  trimNext := none
  inputs := Vector.replicate 64 Input.reset
  windows := Vector.replicate 8 none
  oldWindows := []
  reqs := []
  openWire := none
  outage := ⟨false, 0, 0, [], 0⟩

/-- Ports off, untagged, Beam on queue 4 (11 R298; log 2). -/
def Port.reset : Port := ⟨0, 0xFFF, 4, false, Vector.replicate 8 []⟩

/-- The clock FREE, domain 254, one step, 10 s of holdover (11 R301, R303). -/
def Ptp.reset : Ptp where
  state := .free
  domain := 254
  oneStep := true
  limit := 10
  slave := none
  masters := Vector.replicate 2 []
  master := none
  gm := none
  lastGm := none
  gmChanged := false
  syncWait := none
  reqAt := Vector.replicate 2 none
  respWait := Vector.replicate 2 none
  good := 0
  bad := 0
  offset := 0
  adj := 0
  delay := Vector.replicate 2 0
  since := 0
  reqSeq := 0

def Net.reset : Net :=
  ⟨Vector.replicate 2 Port.reset, Ptp.reset, Vector.replicate 8 ⟨0, 0, 0, 0, 0, 0, none⟩,
   Vector.replicate 32 none⟩

/-- Beam not configured (11 R310). -/
def Beam.reset : Beam :=
  ⟨0, 0, 0x88B5, 15, [], Vector.replicate 16 none, Vector.replicate 16 none, [], []⟩

/-- 12 R325 to R346. -/
def HostCtl.reset : HostCtl where
  owner := .none
  claimRefused := false
  cmdBaseLo := 0
  cmdBaseHi := 0
  cmdSize := 0
  cmdPut := 0
  cmdGet := 0
  evtBaseLo := 0
  evtBaseHi := 0
  evtSize := 0
  evtPut := 0
  evtGet := 0
  mboxOff := 0
  mboxSpace := false
  mboxInc := false
  mailbox := []
  irqStatus := 0
  irqEnable := 0
  perfLevel := 3
  perfAuto := false
  sleepCtl := 0
  snapDone := false
  snapLate := false
  snapTick := 0
  wdogPeriod := 0
  hostLost := false
  wdogStart := 0
  wdogRuns := false
  spareA := 0
  spareB := 0
  regionAuto := 0
  lowLatch := none
  highSnap := Vector.replicate 64 none
  msix := Vector.replicate 16 MsixEntry.reset
  msixPending := 0
  expSeq := none
  bg := []
  fg := none
  deferred := []
  seqs := []
  held := []
  lost := 0
  lostBefore := false
  dataBase := 0
  dataSize := 0
  dataPos := 0
  dataUsed := []
  faultAcc := []
  pcieUp := false
  perst := false

/-- No entry; the previous CHAIN of the first one is zero (12 R354). -/
def Journal.reset : Journal := ⟨0, List.replicate 16 0, [], 0, 0, 0, 0, false⟩

def Errors.reset : Errors where
  queue := []
  index := 0
  made := []
  isolated := 0
  restarting := 0
  rejoin := 0
  heldRestart := 0
  restartWait := 0
  restartDone := 0
  autoTimes := []
  manual := 0
  lastState := []
  lastHeld := false
  snap := none
  shadow := none
  snapCount := 0

/-- The supply off: SUPPLY reads 0, no warning level is judged before bring-up (12 R331; log 2). -/
def SupplyIn.reset : SupplyIn := ⟨0, 0, 0, [0, 0, 0], [0, 0, 0]⟩

/-- 17 R473 to R475, 15 R424 R426; VID_CORE holds 14. -/
def Power.reset : Power where
  phase := .off
  pscUp := false
  enCore := false
  enMain := false
  vid := 14
  pgoodCore := false
  pgoodMain := false
  mainSeen := false
  clkSrc := 0
  pscAddr := 0
  refWindows := 0
  refGood := 0
  refStable := false
  refBad := 0
  pll := Vector.replicate 9 .off
  pllBad := Vector.replicate 9 0
  gates := 0
  level := 3
  change := none
  nextTarget := none
  idleLevel := 3
  idleJudged := false
  sleepAt := 0
  wakeLatched := false
  wakeSrc := 0
  wakePin := false
  saved := none
  exit := none
  supply := Vector.replicate 5 SupplyIn.reset
  shed := 0
  target := 0
  cause := 0
  shedCount := 0
  shedHeld := []
  facetsWait := false
  logicT := 0
  logicMax := 0
  hotArmed := true
  psc := 0
  startStatus := 0
  failRegion := 0xFF
  failWord := 0xFFFF
  resetCause := 0
  resetCount := 0
  resetStatus := 0

/-- A new device: every fuse bit reads 0 and nothing has been read (13 R361). -/
def FuseSt.reset : FuseSt where
  firm := []
  marg := []
  shadow := []
  valid := false
  st := List.replicate 16 0
  slotSt := [0, 0]
  regMarg := 0
  slotMarg := 0
  map := []
  startPolicy := 0
  kept := none
  faultRegion := 0xF
  critical := false
  ownerAbsent := false
  regionAbsent := false
  alarm := false
  mismatch := 0
  mismatchAon := 0
  vpp := false
  op := none
  waiting := []

/-- Slot A preferred, an erased flash (14 R396; log 2). -/
def Trust.reset : Trust where
  preferred := 0
  slot := 0
  pending := none
  trial := none
  trialAt := 0
  rollbackDue := false
  boot := .none
  fw := ⟨0, 0, 0, []⟩
  flash := []
  abandoned := 0
  grant := 0
  checks := []
  update := none
  activate := none
  identityOk := false
  calDigest := none
  bootSrc := 0

/-- The machine right after reset: a new device whose VDD_AON is just being applied, with every register at
its reset value, nothing in memory and no command waiting (log 2, log 13). -/
def State.reset : State where
  pending := []
  freeCtr := 0
  out := []
  upsets := []
  mem := []
  poison := []
  wbQueue := []
  cnt := []
  tk := TimeSt.reset
  facets := Vector.replicate 16 Facet.reset
  sched := Sched.reset
  ap := Aperture.reset
  hbm := Hbm.reset
  dma := Vector.replicate 5 Engine.reset
  tmplStatus := []
  exp := Vector.replicate 4 []
  cnd := Vector.replicate 4 none
  img := Img.reset
  wav := Wav.reset
  net := Net.reset
  beam := Beam.reset
  host := HostCtl.reset
  jnl := Journal.reset
  err := Errors.reset
  pwr := Power.reset
  fuse := FuseSt.reset
  trust := Trust.reset
  idleNs := 0
  ready := 0

end Sys2Proof.Machine
end

