-- ==== Sys2Proof/Machine/Ops.lean ====
section
/-! DEFINITION. The shared operations: memory and the address map (01), counters, event records,
interrupts, FAULT records, the journal, command completion (12), error records (16), and the token
bucket's clock (06). -/

namespace Sys2Proof.Machine

/-! ### Indices and updates -/

/-- A Facet number. -/
def fin16 (n : Nat) : Fin 16 := ⟨n % 16, Nat.mod_lt _ (by decide)⟩

/-- A channel, region-mark or queue number. -/
def fin8 (n : Nat) : Fin 8 := ⟨n % 8, Nat.mod_lt _ (by decide)⟩

/-- A DMA engine number. -/
def fin5 (n : Nat) : Fin 5 := ⟨n % 5, Nat.mod_lt _ (by decide)⟩

/-- A Prism number or priority level. -/
def fin4 (n : Nat) : Fin 4 := ⟨n % 4, Nat.mod_lt _ (by decide)⟩

/-- One Facet changed. -/
def State.updFacet (s : State) (f : Fin 16) (g : Facet → Facet) : State :=
  { s with facets := s.facets.set f (g s.facets[f]) }

/-- One circular region changed. -/
def State.updRegion (s : State) (f r : Fin 16) (g : RegionSt → RegionSt) : State :=
  s.updFacet f (fun x => { x with regions := x.regions.set r (g x.regions[r]) })

/-- One DMA channel changed. -/
def State.updChan (s : State) (e : Fin 5) (c : Fin 8) (g : Channel → Channel) : State :=
  let en := s.dma[e]
  { s with dma := s.dma.set e { en with ch := en.ch.set c (g en.ch[c]) } }

def State.updHost (s : State) (g : HostCtl → HostCtl) : State := { s with host := g s.host }

def State.updErr (s : State) (g : Errors → Errors) : State := { s with err := g s.err }

def State.updHbm (s : State) (g : Hbm → Hbm) : State := { s with hbm := g s.hbm }

def State.updSched (s : State) (g : Sched → Sched) : State := { s with sched := g s.sched }

/-- Something leaves the package. -/
def State.emit (s : State) (o : Output) : State := { s with out := o :: s.out }

/-! ### Free values (log 4) -/

/-- The next free 64-bit value. -/
def State.free (s : State) : DWord := Config.freeWord s.freeCtr

/-- The counter from which free values are drawn, advanced. -/
def State.drawn (s : State) (n : Nat) : State := { s with freeCtr := s.freeCtr + n }

/-- 32 free bytes: the data of a poisoned read (05 R128, R143). -/
def freeUnit (ctr unit : Nat) : List Byte :=
  let w (i : Nat) := leBytes 8 (Config.freeWord (ctr * 2 ^ 48 + unit * 4 + i)).toNat
  w 0 ++ w 1 ++ w 2 ++ w 3

/-! ### Counters (16 R461) -/

/-- Key of counter `i` of the group with event source `src` (16 R462). -/
def ctrKey (src i : Nat) : Nat := src * 1024 + i

def State.ctr (s : State) (src i : Nat) : Nat := s.cnt.get (ctrKey src i)

def State.count (s : State) (src i n : Nat) : State :=
  if n = 0 then s else { s with cnt := s.cnt.bump (ctrKey src i) n }

def State.setCtr (s : State) (src i v : Nat) : State :=
  { s with cnt := s.cnt.set (ctrKey src i) v }

/-- Host control counters (16 R462): NONOWNER_WRITES, REFUSED_COMMANDS, EVT_LOST, ERR_LOST. -/
def srcHost : Nat := 0x0501

/-! ### Ways out of the package (01 R29, R30) -/

/-- Ways out of the package, as the blocked-egress counters number them (01 R29; log 19). -/
inductive EgressPath where
  | pcie | bar | localBus | template | beam
  deriving DecidableEq, Repr

def EgressPath.num : EgressPath → Nat
  | .pcie => 0 | .bar => 1 | .localBus => 2 | .template => 3 | .beam => 4

def srcAperture : Nat := 0x0408

/-- An egress that needs no judgement leaves, and is counted (01 R30). -/
def State.egress (s : State) (p : EgressPath) : State := s.count srcAperture (8 + p.num) 1

/-! ### The address map (01 R18) -/

/-- What an address holds. -/
inductive Place where
  | hbm | scratch (f : Fin 16) (off : Nat) | lineStore | firmware | journal | outage | other
  | beam (peer : Nat) | host | unmapped
  deriving DecidableEq, Repr

def hbmSize : Nat := 0x600000000
def scratchBase : Nat := 0x1000000000
def lineBase : Nat := 0x1100000000
def ctlBase : Nat := 0x1200000000
def journalBase : Nat := 0x1200200000
def outageBase : Nat := 0x1200300000
def otherBase : Nat := 0x1200700000
def localRing : Nat := 0x1200710000
def fuseViewAddr : Nat := 0x1200720000
def lastStateAddr : Nat := 0x1200722000
def errQueueAddr : Nat := 0x1200730000

/-- The holding queue of event records (12 R345). -/
def heldAddr : Nat := 0x1200740000
def beamBase : Nat := 0x10000000000
def hostBase : Nat := 0x800000000000

/-- 01 R18, R19. -/
def placeOf (a : Nat) : Place :=
  if a < hbmSize then .hbm
  else if a < scratchBase then .unmapped
  else if a < lineBase then
    let x := a - scratchBase
    if x % 0x1000000 < 0x800000 ∧ x < 0x10000000 then .scratch (fin16 (x / 0x1000000)) (x % 0x1000000)
    else .unmapped
  else if a < lineBase + 0x600000 then .lineStore
  else if a < ctlBase then .unmapped
  else if a < journalBase then .firmware
  else if a < outageBase then .journal
  else if a < otherBase then .outage
  else if a < otherBase + 0x100000 then .other
  else if a < beamBase then .unmapped
  else if a < 0x20000000000 then .beam ((a / 2 ^ 32) % 256)
  else if a < hostBase then .unmapped
  else if a < 0x1000000000000 then .host
  else .unmapped

/-- Device address of unit `u` of Facet `f`'s scratchpad (03 R75). -/
def unitAddr (f : Fin 16) (u : Nat) : Nat := scratchBase + f.val * 0x1000000 + u * 32

/-- The read-only areas inside the range named other: the fuse view, the last-state record and the error queue (01
R20, 13 R379, 16 R450, R460). -/
def readOnlyOther (a : Nat) : Bool :=
  (fuseViewAddr ≤ a && a < fuseViewAddr + 0x2000) || (lastStateAddr ≤ a && a < lastStateAddr + 64) ||
  (errQueueAddr ≤ a && a < errQueueAddr + 0x4000)

/-- Addresses at which what stands at an address may change (01 R18). -/
def mapEdges : List Nat :=
  [hbmSize, lineBase, lineBase + 0x600000, ctlBase, journalBase, outageBase, otherBase, fuseViewAddr,
   fuseViewAddr + 0x2000, lastStateAddr, lastStateAddr + 64, errQueueAddr, errQueueAddr + 0x4000,
   otherBase + 0x100000, beamBase, 0x20000000000, hostBase, 0x1000000000000] ++
  (List.range 17).flatMap (fun f => [scratchBase + f * 0x1000000, scratchBase + f * 0x1000000 + 0x800000])

/-- Every address of a range has a property that changes at edges of the map alone. -/
def rangeAll (p : Nat → Bool) (a n : Nat) : Bool :=
  p a && (mapEdges.filter (fun x => a < x && x < a + n)).all p

/-- The device may read an address for a ring of the host (01 R19, R20; 12 R335). -/
def ringReads (a : Nat) : Bool :=
  match placeOf a with
  | .unmapped | .firmware | .beam _ => false
  | _ => true

/-- The device may write an address for a ring of the host (01 R19, R20; 12 R344). -/
def ringWrites (a : Nat) : Bool :=
  match placeOf a with
  | .unmapped | .firmware | .beam _ | .journal | .outage | .lineStore => false
  | .other => !readOnlyOther a
  | _ => true

/-! ### Memory -/

/-- Bytes as they stand in memory. -/
def State.readB (s : State) (a n : Nat) : List Byte := SMap.getRange 0 s.mem a n

/-- Bytes written. -/
def State.writeB (s : State) (a : Nat) (bs : List Byte) : State :=
  { s with mem := SMap.setRange 0 s.mem a bs }

/-- A little-endian number in memory. -/
def State.readLe (s : State) (a n : Nat) : Nat := leNat (s.readB a n)

/-- Bytes of a ring of the host written: an address it may not write is as unmapped, and nothing changes (01 R19,
R20). -/
def State.ringWrite (s : State) (a : Nat) (bs : List Byte) : State :=
  if rangeAll ringWrites a bs.length then s.writeB a bs else s

/-- Bytes of a ring of the host read; an address it may not read gives none, so the model reads zeros (01 R19). -/
def State.ringRead (s : State) (a n : Nat) : List Byte :=
  if rangeAll ringReads a n then s.readB a n else zeroBytes n

/-- The poison mark of a unit: both copies set (05 R122). -/
def badMark : BitVec 2 := 3

/-- The unit that holds an address is poisoned: either copy of its mark is set (05 R122, R136; 09 R247). -/
def State.poisoned (s : State) (a : Nat) : Bool := SMap.get 0 s.poison (a / 32) != 0

/-- A unit marked poisoned, in both copies (05 R129, R138). -/
def State.mark (s : State) (a : Nat) : State := { s with poison := SMap.set 0 s.poison (a / 32) badMark }

/-- Whole units written with one poison state, which clears or sets their marks and removes any stored
error (05 R139) and any write-back that waits for them (05 R137). -/
def State.writeUnits (s : State) (a : Nat) (bs : List Byte) (bad : Bool) : State :=
  let n := bs.length / 32
  { s with
    mem := SMap.setRange 0 s.mem a bs
    poison := SMap.setRange 0 s.poison (a / 32) (List.replicate n (if bad then badMark else 0))
    upsets := s.upsets.filter (fun p => !(a / 32 ≤ p.1 && p.1 < a / 32 + n))
    wbQueue := s.wbQueue.filter (fun u => !(a / 32 ≤ u && u < a / 32 + n)) }

/-- The severity of the error stored in a unit: 0 none, 1 corrected, 2 multi-bit corrected (HBM only),
3 uncorrectable (05 R136, 06 R167; log 12). -/
def State.severity (s : State) (a : Nat) : Nat :=
  match s.upsets.find? (fun p => p.1 == a / 32) with
  | some p => p.2
  | none => 0

def State.clearUpset (s : State) (a : Nat) : State :=
  { s with upsets := s.upsets.filter (fun p => p.1 != a / 32) }

/-! ### Interrupts (12 R350) -/

/-- The message of an MSI-X vector is sent, or waits in its pending bit while the vector is masked (12 R320, R350; log
127). -/
def State.sendMsix (s : State) (v : Fin 16) : State :=
  let e := s.host.msix[v]
  if e.ctl.getLsbD 0 then
    s.updHost (fun h => { h with msixPending := h.msixPending ||| BitVec.ofNat 16 (2 ^ v.val) })
  else s.emit (.msix v.val e.addr e.data)

/-- Sets an IRQ_STATUS bit; a 0-to-1 change of an enabled bit sends MSI-X when PCIe owns. -/
def State.irq (s : State) (b : Nat) : State :=
  let m : BitVec 10 := BitVec.ofNat 10 (2 ^ b)
  let was := s.host.irqStatus &&& m != 0
  let s' := s.updHost (fun h => { h with irqStatus := h.irqStatus ||| m })
  if !was && (s.host.irqEnable &&& m != 0) && s.host.owner == .pcie then s'.sendMsix (fin16 b) else s'

/-- LB_IRQ_N is low (asserted) while any enabled bit is set and the local bus owns (12 R350). -/
def State.lbIrqLow (s : State) : Bool :=
  s.host.owner == .localbus && (s.host.irqStatus &&& s.host.irqEnable) != 0

/-! ### Event records (12 R343 to R350) -/

/-- The 64 bytes of a record (R343). -/
def EventRec.bytes (r : EventRec) : List Byte :=
  leBytes 2 r.type ++ leBytes 2 r.src ++ leBytes 4 r.seq ++ leBytes 8 r.time ++ leBytes 8 r.tick ++
  leBytes 4 r.flags ++ leBytes 4 r.extra ++ fitBytes 32 r.payload

/-- Size of the event ring in use, 0 when no ring is (R344). -/
def State.evtRingSize (s : State) : Nat :=
  match s.host.owner with
  | .none => 0
  | .pcie => s.host.evtSize
  | .localbus => 256

/-- Device address of an event-ring slot (R344). -/
def State.evtSlot (s : State) (i : Nat) : Nat :=
  match s.host.owner with
  | .localbus => localRing + i * 64
  | _ => s.host.evtBaseLo.toNat + s.host.evtBaseHi.toNat * 2 ^ 32 + i * 64

/-- A record can be placed now: a ring is in use, not full, and the way out is open (R344, R345;
16 R454). -/
def State.evtRoom (s : State) : Bool :=
  let n := s.evtRingSize
  n != 0 && (s.host.evtPut + 1) % n != s.host.evtGet && !(s.host.owner == .pcie && s.ap.sealed)

/-- The IRQ_STATUS bit of a record type beside EVENT (R330). -/
def typeIrq (type : Nat) : Option Nat :=
  if type = 0x0001 then some 1
  else if type = 0x0030 then some 2
  else if type = 0x0070 then some 3
  else if type = 0x0031 ∨ type = 0x0032 then some 4
  else if type = 0x0040 then some 5
  else none

/-- The oldest buffer whose record stood in no slot yet belongs to the one at a slot (R346). -/
def bufferAt (slot : Nat) : List (Option Nat × Nat) → List (Option Nat × Nat)
  | [] => []
  | (some k, n) :: ds => (some k, n) :: bufferAt slot ds
  | (none, n) :: ds => (some slot, n) :: ds

/-- A record written at EVT_PUT with its interrupts, and the slot of its buffer noted (R346); one that goes to the host
is an egress (01 R30). -/
def State.writeEvent (s : State) (r : EventRec) : State :=
  let s := s.ringWrite (s.evtSlot s.host.evtPut) r.bytes
  let s := if s.host.owner = .pcie then s.egress .pcie else s
  let s := s.updHost (fun h => { h with
    evtPut := (h.evtPut + 1) % s.evtRingSize
    dataUsed := if r.flags.testBit 3 then bufferAt h.evtPut h.dataUsed else h.dataUsed })
  let s := s.irq 0
  match typeIrq r.type with
  | some b => s.irq b
  | none => s

/-- The next sequence number of a source, taken (R343). -/
def State.nextSeq (s : State) (src : Nat) : Nat × State :=
  let n := s.host.seqs.get src
  (n, s.updHost (fun h => { h with seqs := h.seqs.set src ((n + 1) % 2 ^ 32) }))

/-- A record into the holding queue, or discarded when it is full (R345). -/
def State.holdEvent (s : State) (r : EventRec) : State :=
  if s.host.held.length < 4096 then
    s.updHost (fun h => { h with held := h.held ++ [{ r with flags := r.flags ||| 4 }] })
  else
    ((s.updHost (fun h => { h with lost := h.lost + 1, lostBefore := true })).count srcHost 2 1).irq 6

/-- The payload of a FAULT record (R349). -/
def faultPayload (status region block count addr : Nat) (detail : List Byte) : List Byte :=
  leBytes 2 status ++ leBytes 1 region ++ leBytes 1 block ++ leBytes 4 count ++ leBytes 8 addr ++
  fitBytes 16 detail

/-- The FAULT record with status EVT_LOST that follows a record carrying LOST_BEFORE (R345). -/
def State.lostFault (s : State) (n : Nat) : EventRec × State :=
  let (q, s) := s.nextSeq srcHost
  (⟨0x0030, srcHost, q, s.tk.now, s.tk.tick, 0x0022 * 65536, 0, faultPayload 0x0022 0xFF 0 n 0 []⟩, s)

/-- A record placed in the ring, which has room (R344); after a loss it carries LOST_BEFORE and the
EVT_LOST record follows it (R345; log 17). -/
def State.putEvent (s : State) (r : EventRec) : State :=
  if s.host.lostBefore then
    let n := s.host.lost
    let s := s.updHost (fun h => { h with lostBefore := false, lost := 0 })
    let s := s.writeEvent { r with flags := r.flags ||| 2 }
    let (fr, s) := s.lostFault n
    if s.evtRoom then s.writeEvent fr
    else s.updHost (fun h => { h with held := { fr with flags := fr.flags ||| 4 } :: h.held })
  else s.writeEvent r

/-- A new record placed, held or discarded (R344, R345). -/
def State.placeRec (s : State) (r : EventRec) : State :=
  if s.host.held.isEmpty && s.evtRoom then s.putEvent r else s.holdEvent r

/-- A record of a source placed with given TIME and tick (R343). -/
def State.eventAt (s : State) (type src time tick flags extra : Nat) (payload : List Byte) : State :=
  let (q, s) := s.nextSeq src
  s.placeRec ⟨type, src, q, time, tick, flags, extra, payload⟩

/-- A record of a source placed now. -/
def State.event (s : State) (type src flags : Nat) (payload : List Byte) : State :=
  s.eventAt type src s.tk.now s.tk.tick flags 0 payload

/-- Held records placed, in order, while there is room (R345). -/
def State.flushHeldN : Nat → State → State
  | 0, s => s
  | n + 1, s =>
    match s.host.held with
    | [] => s
    | r :: rs =>
      if s.evtRoom then
        State.flushHeldN n ((s.updHost (fun h => { h with held := rs })).putEvent r)
      else s

def State.flushHeld (s : State) : State := State.flushHeldN (s.host.held.length + 1) s

/-- One FAULT record (R349). -/
def State.fault (s : State) (status src region block addr : Nat) (detail : List Byte) : State :=
  s.event 0x0030 src (status * 65536) (faultPayload status region block 1 addr detail)

/-- A FAULT record for each of `n` occurrences of a status that is not limited to one record per tick, whose COUNT
is 1 (R349; log 111). -/
def State.faults (s : State) (n status src region block : Nat) : State :=
  (List.range n).foldl (fun s _ => s.fault status src region block 0 []) s

/-- An occurrence of a status that is limited to one FAULT record per tick (R349); the record is placed
at the tick edge with the count (log 8). -/
def State.tickFaultK (s : State) (status src key region block addr n : Nat) (detail : List Byte) :
    State :=
  let hit (a : FaultAcc) : Bool :=
    a.status == status && a.src == src && a.key == key && a.block == block
  if s.host.faultAcc.any hit then
    s.updHost (fun h => { h with faultAcc := h.faultAcc.map (fun a =>
      if hit a then { a with count := a.count + n } else a) })
  else
    s.updHost (fun h => { h with faultAcc := h.faultAcc ++
      [⟨status, src, key, region, block, addr, detail, n, s.tk.now, s.tk.tick⟩] })

def State.tickFault (s : State) (status src region block addr : Nat) : State :=
  s.tickFaultK status src 0 region block addr 1 []

/-- The FAULT records of the tick placed at its end (R349; log 8). -/
def State.flushFaults (s : State) : State :=
  let accs := s.host.faultAcc
  accs.foldl (fun s a => s.eventAt 0x0030 a.src a.time a.tick (a.status * 65536) 0
      (faultPayload a.status a.region a.block a.count a.addr a.detail))
    (s.updHost (fun h => { h with faultAcc := [] }))

/-! ### Status codes (12 R360) -/

/-- The codes of the master table but for OK, which alone the device reports. -/
def statusCodes : List Nat :=
  [1, 2, 3, 4, 5, 6, 7, 0x10, 0x11, 0x12, 0x20, 0x21, 0x22,
   0x100, 0x101, 0x102, 0x103, 0x104, 0x105, 0x106, 0x140, 0x141, 0x142, 0x143, 0x144, 0x145] ++
  [0x200, 0x201, 0x202, 0x203, 0x204, 0x205, 0x206, 0x207, 0x208, 0x209, 0x20A, 0x20B, 0x20C,
   0x210, 0x211, 0x212, 0x213, 0x214, 0x215, 0x216, 0x217, 0x220, 0x230, 0x231, 0x240, 0x250, 0x251, 0x252, 0x253,
   0x254] ++
  [0x300, 0x301, 0x302, 0x303, 0x304, 0x310, 0x311, 0x312, 0x313, 0x314,
   0x400, 0x401, 0x402, 0x410, 0x411, 0x412, 0x413, 0x414, 0x415, 0x416] ++
  [0x500, 0x501, 0x510, 0x511, 0x520, 0x521, 0x522, 0x523, 0x524, 0x530, 0x531, 0x532, 0x533, 0x534, 0x540, 0x541] ++
  [0x600, 0x601, 0x602, 0x603, 0x604, 0x605, 0x606, 0x607, 0x608, 0x609,
   0x610, 0x611, 0x612, 0x613, 0x614, 0x615, 0x616, 0x617] ++
  [0x700, 0x701, 0x702, 0x703, 0x704, 0x705, 0x800, 0x801, 0x802, 0x803, 0x804, 0x840, 0x841, 0x842, 0x843, 0x844]

/-! ### Error records (16 R450, R451) -/

/-- The 64 bytes of an error record. -/
def ErrRec.bytes (r : ErrRec) : List Byte :=
  leBytes 2 r.status ++ leBytes 1 r.region ++ leBytes 1 r.block ++ leBytes 4 r.count ++
  leBytes 8 r.addr ++ leBytes 8 r.time ++ leBytes 8 r.tick ++ leBytes 1 r.level ++
  leBytes 1 r.action ++ leBytes 2 0 ++ leBytes 4 r.index ++ fitBytes 16 r.detail ++ zeroBytes 8

/-- `n` occurrences of an error reported by a block: at most one record per status and tick, later occurrences
add to its COUNT (R451); none from an isolated region (R454). -/
def State.errorRecN (s : State) (status region block addr level action n : Nat) (detail : List Byte) :
    State :=
  if region < 7 && s.err.isolated.getLsbD region && action < 2 then s
  else if s.err.made.contains (status, region, block) then
    s.updErr (fun e => { e with queue := e.queue.map (fun r =>
      if r.status == status && r.region == region && r.block == block && r.tick == s.tk.tick
      then { r with count := r.count + n } else r) })
  else
    let s := s.updErr (fun e => { e with
      index := e.index + 1, made := (status, region, block) :: e.made })
    if s.err.queue.length < 255 then
      s.updErr (fun e => { e with queue := e.queue ++ [⟨status, region, block, n, addr, s.tk.now,
        s.tk.tick, level, action, e.index % 2 ^ 32, detail⟩] })
    else s.count srcHost 3 1

/-- One occurrence of an error. -/
def State.errorRec (s : State) (status region block addr level action : Nat) (detail : List Byte) : State :=
  s.errorRecN status region block addr level action 1 detail

/-- The error queue as BAR2 and DMA read it: pending records oldest first, then zeros (R450; log 18). -/
def State.errQueueBytes (s : State) : List Byte :=
  fitBytes 0x4000 (s.err.queue.flatMap ErrRec.bytes)

/-! ### The journal (12 R353 to R358) -/

/-- One entry written: chained, stored in the Control SRAM ring and kept always-on. -/
def State.journal (s : State) (seq opcode result path : Nat) (digest : List Byte) : State :=
  let j := s.jnl
  let body := leBytes 8 j.head ++ leBytes 8 s.tk.now ++ leBytes 4 seq ++ leBytes 2 opcode ++
    leBytes 2 result ++ leBytes 1 path ++ zeroBytes 7 ++ fitBytes 16 digest
  let chain := (sha384 (fitBytes 16 j.chain ++ body)).take 16
  let e := body ++ chain
  let s := s.writeB (journalBase + j.head % 16384 * 64) e
  { s with jnl := { j with
      head := j.head + 1, chain := chain, aon := (e :: j.aon).take 32,
      ringFrom := max j.ringFrom (j.head + 1 - 16384) } }

/-- Oldest index the mirror holds; the head when it holds none (R355). -/
def Journal.mirrorTail (j : Journal) : Nat :=
  if j.mirrorJ = 0 then j.head
  else max j.mirrorFrom (j.mirrorNext - j.mirrorJ * 0x4000000 / 64)

/-- JNL_TAIL: the oldest index held in either ring (R355). -/
def Journal.tail (j : Journal) : Nat := min j.ringFrom j.mirrorTail

/-- A device entry (R357): SEQUENCE 0, PATH 2. -/
def State.journalDev (s : State) (opcode result : Nat) (digest : List Byte) : State :=
  s.journal 0 opcode result 2 digest

/-! ### Completing a command (12 R340, R353) -/

/-- OPCODE of a command (R341). -/
def cmdOpcode : Cmd → Nat
  | .loadSchedule .. => 0x01 | .start .. => 0x02 | .stop => 0x03 | .stats .. => 0x04
  | .setParams .. => 0x05 | .setSensor .. => 0x06 | .openWindow .. => 0x07
  | .closeWindow .. => 0x08 | .globalOp .. => 0x09 | .snapshot .. => 0x0A
  | .readCounters .. => 0x0B | .readJournal .. => 0x0C | .attest .. => 0x0D | .enroll .. => 0x0E
  | .fuseProgram .. => 0x0F | .fuseSeal .. => 0x10 | .fuseLock .. => 0x11
  | .updateFirmware .. => 0x12 | .activateFirmware .. => 0x13 | .setTemplate .. => 0x14
  | .dmaAbort .. => 0x15 | .regionRestart .. => 0x16 | .calibrationLoad .. => 0x17
  | .setPolicy .. => 0x18

/-- The CMD_DONE record (R340). -/
def State.cmdDone (s : State) (seq opcode status index : Nat) (result : List Byte) : State :=
  s.event 0x0001 srcHost (status * 65536)
    (leBytes 4 seq ++ leBytes 2 opcode ++ leBytes 2 status ++ leBytes 8 index ++ fitBytes 16 result)

/-- An accepted command completes: it is journalled with its status, the container or report digest
appended before hashing (R353), and CMD_DONE carries the entry's index (R340). -/
def State.complete (s : State) (a : Accepted) (status : Nat) (result extra : List Byte) : State :=
  let idx := s.jnl.head
  let s := s.journal a.desc.seq.toNat (cmdOpcode a.desc.cmd) status a.path
    ((sha384 (a.bytes ++ extra)).take 16)
  s.cmdDone a.desc.seq.toNat (cmdOpcode a.desc.cmd) status idx result

/-- The background command with an opcode that is running (R337 check 7, R339). -/
def State.bgOf (s : State) (opcode : Nat) : Option Accepted :=
  s.host.bg.find? (fun a => (cmdOpcode a.desc.cmd) == opcode)

/-- That command removed from the running ones. -/
def State.bgEnd (s : State) (a : Accepted) : State :=
  s.updHost (fun h => { h with bg := h.bg.filter (fun b => b.desc.seq != a.desc.seq) })

/-! ### Schedules in force -/

/-- STATE.SCHEDULE (12 R328). -/
def State.schedCode (s : State) : Nat :=
  match s.sched.active with
  | none => if s.sched.staged.isSome then 1 else 0
  | some _ =>
    if !s.sched.running then 3
    else match s.sched.mode with
      | .main => 2
      | .suspended => 4
      | .holdover => 5

/-- The image whose programs run. -/
def State.runningImage (s : State) : Option Image :=
  if s.sched.running then s.sched.active else none

/-- The FACET clock in MHz at a level (02 R39). -/
def facetMHz (level : Nat) : Nat :=
  match level with
  | 0 => 1000
  | 1 => 800
  | 2 => 600
  | _ => 400

/-- READY bit numbers (12 R328). -/
def State.isReady (s : State) (b : Nat) : Bool := s.ready.getLsbD b

def State.setReady (s : State) (b : Nat) (v : Bool) : State :=
  { s with ready := if v then s.ready ||| BitVec.ofNat 19 (2 ^ b)
                    else s.ready &&& ~~~ (BitVec.ofNat 19 (2 ^ b)) }

/-! ### Idleness (15 R433) -/

/-- Entries of the command ring in use, 0 when none is (12 R335, R336). -/
def State.cmdEntries (s : State) : Nat :=
  match s.host.owner with
  | .none => 0
  | .pcie => s.host.cmdSize
  | .localbus => 64

/-- A channel has a descriptor that has started or waits. -/
def ChPhase.busy : ChPhase → Bool
  | .idle => false
  | .halted => false
  | .polling => false
  | _ => true

/-- The sleep state the device is in, 0 for none. -/
def Power.sleep (p : Power) : Nat := match p.phase with | .asleep n => n | _ => 0

/-- The device is idle (15 R433; log 87). -/
def State.idle (s : State) : Bool :=
  (s.schedCode == 0 || s.schedCode == 1 || s.schedCode == 3) &&
  (s.cmdEntries == 0 || s.host.cmdGet == s.host.cmdPut) && s.host.fg.isNone && s.host.bg.isEmpty &&
  s.host.deferred.isEmpty && s.trust.checks.isEmpty && s.trust.update.isNone &&
  s.dma.toList.all (fun e => e.ch.toList.all (fun c => !c.phase.busy)) &&
  s.beam.rx.toList.all (·.isNone) && s.beam.tx.toList.all (·.isNone) && s.beam.ops.isEmpty && s.err.snap.isNone &&
  s.trust.activate.isNone && !s.pwr.wakePin && s.pwr.shed == 0

/-- IDLE_TIME returns to 0. -/
def State.idleReset (s : State) : State := { s with idleNs := 0 }

/-- IDLE_TIME returns to 0 while the device is not idle. -/
def State.noteIdle (s : State) : State := if s.idle then s else s.idleReset

/-! ### Time and the token bucket (06 R164, log 1) -/

/-- Event sources of the HBM controller and of DMA channels (12 R347), of what an engine reports and counts as a whole,
which stands with its channel 0 (DESIGN CHOICE, log 151), of a Prism's Expander and Condenser, and the counters of
waiting. -/
def srcHbm : Nat := 0x0506
def srcDma (e : Fin 5) (c : Fin 8) : Nat := 0x0600 + e.val * 8 + c.val
def srcEngine (e : Nat) : Nat := 0x0600 + e * 8
def srcExp (p : Fin 4) : Nat := 0x0640 + p.val
def hWait : Nat := 116
def eBucketWait : Nat := 60
def eBufferFull : Nat := 61
def xWait : Nat := 9

/-- The DMA engine whose access waits: an Expander and a Condenser write for their Prism's engine, converters, the
Objective and Beam for the Edge engine (06 R165; log 113). -/
def BucketUser.engine (u : BucketUser) : Nat :=
  match u with
  | .chan n | .fetch n | .back n => n / 8
  | .expander p | .condenser p => p
  | .history _ | .beam | .burst => 4

/-- The access belongs to the channels, the Expander or the Condenser of an engine. -/
def BucketUser.ofEngine (u : BucketUser) (e : Nat) : Bool :=
  match u with
  | .chan n | .fetch n | .back n => n / 8 == e
  | .expander p | .condenser p => p == e
  | .history _ | .beam | .burst => false

/-- SYS cycles in which an access waits on the bucket, counted for the controller and its engines (06 R174, 08
R223). -/
def State.countWait (s : State) (cyc : Nat) : State :=
  if s.hbm.waiting.isEmpty ∨ s.hbm.phase ≠ .ready then s
  else
    (List.range 5).foldl (fun s e =>
      if s.hbm.waiting.any (fun w => w.user.engine == e) then s.count (srcEngine e) eBucketWait cyc else s)
      (s.count srcHbm hWait cyc)

/-- Bytes of a channel's frames to a peer that wait behind 64 unacknowledged ones, in the buffer (11 R314). -/
def State.inFlight (s : State) (n : Nat) : Nat :=
  (s.beam.peers.flatMap (fun p => p.waiting.filter (fun f => f.chan == some n))).foldl
    (fun a f => a + f.payload.length) 0

/-- A burst of `n` bytes of a channel of an engine finds space: within the channel's own 64 KiB and in the buffer that the
engine's channels share (08 R202, R213). -/
def State.buffered (s : State) (e c n : Nat) : Bool :=
  s.inFlight (e * 8 + c) + n ≤ 65536 &&
  ((List.range 8).map (fun i => s.inFlight (e * 8 + i))).foldl (· + ·) 0 + n ≤ 262144

/-- SYS cycles in which a ready burst waits for buffer space (08 R223), and in which an Expander's open slot waits
for coded bytes (07 R200). -/
def State.countIdle (s : State) (cyc : Nat) : State :=
  let s := (List.range 5).foldl (fun s e =>
    if s.dma[fin5 e].bufWait.any (fun b => !s.buffered e b.1 b.2) then s.count (srcEngine e) eBufferFull cyc else s) s
  (List.range 4).foldl (fun s p =>
    if s.exp[fin4 p].any (fun b => !b.whole) then s.count (srcExp (fin4 p)) xWait cyc else s) s

/-- The bucket credited for the whole SYS cycles (2 ns) up to TIME: 8 bytes for every 4 GB/s. -/
def State.creditBucket (s : State) : State :=
  let cyc := (s.tk.now - s.hbm.credited) / 2
  ((s.countWait cyc).countIdle cyc).updHbm (fun h => { h with
    bucket := min 33554432 (h.bucket + cyc * (h.rate / 4 * 8))
    ctlBucket := min 1048576 (h.ctlBucket + cyc * 4)
    credited := h.credited + 2 * cyc })

/-- TIME moved forward: IDLE_TIME counts what passes while the device is idle (15 R433). A step back leaves the bucket's
clock at the new TIME. -/
def State.setTime (s : State) (t0 : Nat) : State :=
  let t := t0 % 2 ^ 64
  if s.tk.now ≤ t then
    ({ s with
      tk := { s.tk with now := t }, idleNs := if s.idle then s.idleNs + (t - s.tk.now) else 0 }).creditBucket
  else
    let s := { s with tk := { s.tk with now := t } }
    s.updHbm (fun h => { h with credited := t })

end Sys2Proof.Machine
end

