-- ==== Sys2Proof/Machine/Regions.lean ====
section
/-! DEFINITION. Circular regions (05 R141 to R149): pushes, pops, debt, spans, reservations. Positions
are offsets from BASE; spans are distances from TAIL. -/

namespace Sys2Proof.Machine

/-- Counter indices of a Facet's group (05 R153, 04 R120, 03 R101, 02 R64; log 20). -/
def cConflict : Nat := 0
def cOverlap : Nat := 1
def cYield : Nat := 2
def cEccCorr : Nat := 3
def cEccUnc : Nat := 4
def cPoisonRead : Nat := 5
def cWbDropped : Nat := 6
def cPatrol : Nat := 7
def cUnder (r : Nat) : Nat := 8 + r
def cOver (r : Nat) : Nat := 24 + r
def cSkipped (r : Nat) : Nat := 40 + r
def cHigh (r : Nat) : Nat := 56 + r
def cNear : Nat := 72
def cFar : Nat := 73
def cForced : Nat := 74
def cFlagUnset : Nat := 75
def cIndexRange : Nat := 76
def cNormMis : Nat := 77
def cOverrun : Nat := 78
def cStrict : Nat := 79

/-- Event source of a Facet (12 R347). -/
def srcFacet (f : Fin 16) : Nat := 0x0100 + f.val

/-- A declared region set empty: HEAD = TAIL = LOCAL_HEAD = BASE (05 R141). -/
def RegionSt.ofDecl (d : RegionDecl) : RegionSt :=
  ⟨true, d.base, d.size, d.producer, d.pindex, d.egress, 0, 0, 0, 0, 0, 0, false, [], []⟩

/-- Spans seen from a TAIL moved forward by `k`; passed ones are forgotten (05 R147). -/
def shiftSpans (k : Nat) (sp : List (Nat × Nat)) : List (Nat × Nat) :=
  (sp.filter (fun p => k < p.2)).map (fun p => (p.1 - k, p.2 - k))

/-- A span recorded; with four held already the most recent is extended (05 R147). -/
def addSpan (sp : List (Nat × Nat)) (lo hi : Nat) : List (Nat × Nat) :=
  if sp.length < 4 then sp ++ [(lo, hi)]
  else sp.take 3 ++ [((sp.getD 3 (lo, hi)).1, hi)]

/-- `k` units published at HEAD, as a span when invalid, then the DEBT rule (05 R145). -/
def RegionSt.publish (r : RegionSt) (k : Nat) (bad : Bool) : RegionSt :=
  let d := min k r.debt
  let spans := if bad && k != 0 then addSpan r.spans r.level (r.level + k) else r.spans
  { r with
    head := (r.head + k) % r.size
    tail := (r.tail + d) % r.size
    level := r.level + k - d
    debt := r.debt - d
    spans := shiftSpans d spans }

/-- Units that a publication of `k` units passes over (05 R145). -/
def RegionSt.absorbed (r : RegionSt) (k : Nat) : Nat := min k r.debt

/-- A POP of `u` units (05 R144). -/
def RegionSt.pop (r : RegionSt) (u : Nat) : RegionSt :=
  if u ≤ r.level then
    { r with tail := (r.tail + u) % r.size, level := r.level - u, spans := shiftSpans u r.spans }
  else
    { r with tail := r.head, level := 0, debt := r.debt + (u - r.level), spans := [] }

/-- The unit at distance `o` from TAIL is published and not invalid (05 R143, R147). -/
def RegionSt.inSpan (r : RegionSt) (o : Nat) : Bool := r.spans.any (fun p => p.1 ≤ o && o < p.2)

/-- A reservation of `k` units fits (05 R148). -/
def RegionSt.fits (r : RegionSt) (k : Nat) : Bool := r.level + r.reserved + k ≤ r.size

/-- Two reservations are outstanding, so a third waits (05 R148). -/
def RegionSt.full2 (r : RegionSt) : Bool := 2 ≤ r.resv.length

/-- A reservation made at HEAD + RESERVED (05 R148). -/
def RegionSt.reserve (r : RegionSt) (tag k : Nat) : RegionSt :=
  { r with reserved := r.reserved + k, resv := r.resv ++ [⟨tag, k, false, false⟩] }

/-- Ended reservations published from the oldest on, and the units they pass over. -/
def RegionSt.settle (r : RegionSt) : List Resv → Nat → RegionSt × Nat
  | [], n => ({ r with resv := [] }, n)
  | v :: vs, n =>
    if v.done then
      let r' := ({ r with reserved := r.reserved - v.units }).publish v.units v.bad
      r'.settle vs (n + r.absorbed v.units)
    else ({ r with resv := v :: vs }, n)

/-- The reservation of a transfer marked ended, then published in order (05 R148). -/
def RegionSt.commit (r : RegionSt) (tag : Nat) : RegionSt × Nat :=
  r.settle (r.resv.map (fun v => if v.tag == tag then { v with done := true } else v)) 0

/-- A reservation released without a commit: given back when no later one is outstanding, otherwise
published as an invalid span in commit order (05 R148). -/
def RegionSt.release (r : RegionSt) (tag : Nat) : RegionSt × Nat :=
  match r.resv.getLast? with
  | some v =>
    if v.tag == tag then
      ({ r with reserved := r.reserved - v.units, resv := r.resv.dropLast }).settle
        (r.resv.dropLast) 0
    else
      r.settle (r.resv.map (fun v => if v.tag == tag then { v with done := true, bad := true } else v)) 0
  | Option.none => (r, 0)

/-- The HIGH_WATER figure brought up to date (05 R153). -/
def State.highWater (s : State) (f r : Fin 16) : State :=
  let x := s.facets[f].regions[r]
  let v := x.level + x.reserved
  if s.ctr (srcFacet f) (cHigh r.val) < v then s.setCtr (srcFacet f) (cHigh r.val) v else s

/-- A region takes a new value and its skipped units are counted. -/
def State.regionTo (s : State) (f r : Fin 16) (x : RegionSt × Nat) : State :=
  ((s.updRegion f r (fun _ => x.1)).count (srcFacet f) (cSkipped r.val) x.2).highWater f r

/-- A dynamic producer's transfer commits its units (05 R145, R148); a reservation cancelled by a
region reset has its units counted as skipped (05 R149). -/
def State.regionCommit (s : State) (f r : Fin 16) (tag units : Nat) : State :=
  let x := s.facets[f].regions[r]
  if x.resv.any (fun v => v.tag == tag) then s.regionTo f r (x.commit tag)
  else s.count (srcFacet f) (cSkipped r.val) units

/-- A dynamic producer gives its reservation back. -/
def State.regionRelease (s : State) (f r : Fin 16) (tag : Nat) : State :=
  s.regionTo f r (s.facets[f].regions[r].release tag)

/-- A status of a Facet recorded: error record with its ACTION, and the FAULT of the tick (05 R154, 03 R101). -/
def State.facetReport (s : State) (f : Fin 16) (status addr action : Nat) : State :=
  (s.errorRec status (f.val / 4) (f.val % 4) addr 1 action []).tickFault status (srcFacet f) (f.val / 4)
    (f.val % 4) addr

/-- A status that costs the Facet its tick. -/
def State.facetError (s : State) (f : Fin 16) (status addr : Nat) : State := s.facetReport f status addr 1

/-- A reservation that does not fit: OVERRUN is counted in the owning Facet's counters; its producer reports it (05
R149). -/
def State.regionOverrun (s : State) (f r : Fin 16) : State := s.count (srcFacet f) (cOver r.val) 1

/-- FACET cycles for which DMA accesses to a scratchpad waited that no command shows: a free number (05 R131, R153; log
156). -/
def State.yields (s : State) (f : Fin 16) : State := (s.count (srcFacet f) cYield (s.free.toNat % 2 ^ 32)).drawn 1

/-- The same for an access at an address, where it lies in a scratchpad. -/
def State.yieldsAt (s : State) (a : Nat) : State :=
  match placeOf a with
  | .scratch f _ => s.yields f
  | _ => s

/-- Pushes of a Facet producer published with the validity of its tick, or discarded after an OVERRUN
(02 R40, 05 R146). -/
def State.publishPushes (s : State) (p : Fin 16) (g r : Fin 16) : State :=
  let x := s.facets[g].regions[r]
  if x.declared && x.producer == 0 && x.pindex == p.val then
    if x.overran then
      s.updRegion g r (fun y => { y with localPush := 0, overran := false })
    else if x.localPush = 0 then s
    else
      let y := ({ x with localPush := 0 }).publish x.localPush s.facets[p].invalid
      s.regionTo g r (y, x.absorbed x.localPush)
  else s

/-- Every push of a Facet of this tick published, over its Prism's regions (02 R40). -/
def State.publishAll (s : State) (p : Fin 16) : State :=
  (List.range 4).foldl (fun s g =>
    (List.range 16).foldl (fun s r => s.publishPushes p (fin16 (p.val / 4 * 4 + g)) (fin16 r)) s) s

/-- Every declared region of a Facet set empty (05 R141); HIGH_WATER starts again. -/
def State.emptyRegions (s : State) (f : Fin 16) : State :=
  let s := s.updFacet f (fun x => { x with regions := x.regions.map (fun r =>
    { r with head := 0, tail := 0, level := 0, reserved := 0, debt := 0, localPush := 0,
             overran := false, spans := [], resv := [] }) })
  (List.range 16).foldl (fun s r => s.setCtr (srcFacet f) (cHigh r) 0) s

end Sys2Proof.Machine
end

