-- ==== Sys2Proof/Machine/Operands.lean ====
section
/-! DEFINITION. Operands of macro-op records: references (03 R75), scratchpad units with their error
correction (05 R136 to R139), reads and writes through circular regions (05 R143, R146), bank meetings
(05 R128 to R135; log 9), and the bookkeeping of a record. -/

namespace Sys2Proof.Machine

/-! ### References -/

/-- An operand reference (03 R75). -/
structure Ref where
  unit : Nat
  peer : Nat
  remote : Bool
  region : Nat
  circ : Bool
  acc : Bool
  deriving DecidableEq, Repr

def bitOf (v i : Nat) : Bool := v / 2 ^ i % 2 == 1

/-- Bits [lo + n - 1 : lo] of a number. -/
def bitsOf (v lo n : Nat) : Nat := v / 2 ^ lo % 2 ^ n

def Ref.ofWord (v : Nat) : Ref :=
  ⟨bitsOf v 0 18, bitsOf v 18 2, bitOf v 20, bitsOf v 21 4, bitOf v 25, bitOf v 26⟩

/-- The Facet whose scratchpad a reference addresses. -/
def Ref.facet (r : Ref) (f : Fin 16) : Fin 16 :=
  if r.remote then fin16 (f.val / 4 * 4 + r.peer) else f

/-- Field of `n` bytes at an offset of PARAMS, which begin at record offset 0x14 (03 R77). -/
def Rec.p (r : Rec) (off n : Nat) : Nat := bitsOf r.params ((off - 0x14) * 8) (n * 8)

def Rec.flagBit (r : Rec) (i : Nat) : Bool := bitOf r.flags i
def Rec.ty0 (r : Rec) : Nat := r.type % 16
def Rec.ty1 (r : Rec) : Nat := r.type / 16 % 16

/-- The element type of a TYPE nibble; unassigned codes do not pass admission. -/
def elt (code : Nat) : Elt := (Elt.ofCode code).getD .int8

/-! ### Elements in bytes -/

/-- Element `i` of a packed byte string, as its bits (03 R73). -/
def eltBits (t : Elt) (bs : Array Byte) (i : Nat) : Nat :=
  match t.bits with
  | 1 => (bs.getD (i / 8) 0).toNat / 2 ^ (i % 8) % 2
  | 4 => (bs.getD (i / 2) 0).toNat / 16 ^ (i % 2) % 16
  | 8 => (bs.getD i 0).toNat
  | 16 => (bs.getD (2 * i) 0).toNat + 256 * (bs.getD (2 * i + 1) 0).toNat
  | _ => (bs.getD (4 * i) 0).toNat + 256 * (bs.getD (4 * i + 1) 0).toNat +
      65536 * (bs.getD (4 * i + 2) 0).toNat + 16777216 * (bs.getD (4 * i + 3) 0).toNat

/-- The first `n` elements of a byte string. -/
def unpackElts (t : Elt) (n : Nat) (bs : List Byte) : List Nat :=
  let a := bs.toArray
  (List.range n).map (eltBits t a)

/-- Bits joined into bytes, `k` per byte. -/
def packSub (k w : Nat) : List Nat → List Byte
  | [] => []
  | v :: vs => go (v :: vs) k 0 0
where
  /-- The byte being filled: values left to take, position and value so far. -/
  go : List Nat → Nat → Nat → Nat → List Byte
    | [], _, 0, _ => []
    | [], _, _, b => [BitVec.ofNat 8 b]
    | v :: vs, left, pos, b =>
      match left with
      | 0 => BitVec.ofNat 8 b :: go vs (k - 1) 1 (v % 2 ^ w)
      | l + 1 => go vs l (pos + 1) (b + v % 2 ^ w * 2 ^ (w * pos))

/-- Elements packed into bytes (03 R73). -/
def packElts (t : Elt) (vs : List Nat) : List Byte :=
  match t.bits with
  | 1 => packSub 8 1 vs
  | 4 => packSub 2 4 vs
  | 8 => vs.flatMap (leBytes 1)
  | 16 => vs.flatMap (leBytes 2)
  | _ => vs.flatMap (leBytes 4)

/-- Bytes filled with zeros to whole units (05 R492). -/
def padUnits (bs : List Byte) : List Byte := bs ++ zeroBytes ((32 - bs.length % 32) % 32)

/-- Units that a number of bytes takes. -/
def unitsOf (bytes : Nat) : Nat := (bytes + 31) / 32

def ceilDiv (a b : Nat) : Nat := (a + b - 1) / b

/-! ### Reading units with error correction -/

/-- The Facet in whose scratchpad a unit address lies. -/
def unitFacet (u : Nat) : Fin 16 := fin16 (u / 0x80000)

/-- A Facet's write-back queue, at most 16 entries (05 R137). -/
def State.wbOf (s : State) (g : Fin 16) : List Nat := s.wbQueue.filter (fun u => unitFacet u == g)

/-- One unit of a scratchpad read (05 R136 to R139): its bytes, whether they are poisoned, and the
effects on the owning Facet. -/
def State.readUnit (s : State) (g : Fin 16) (u : Nat) : List Byte × Bool × State :=
  let a := unitAddr g u
  if s.poisoned a then
    (freeUnit s.freeCtr (a / 32), true, s.count (srcFacet g) cPoisonRead 1)
  else
    match s.severity a with
    | 0 => (s.readB a 32, false, s)
    | 3 =>
      let s' := ((s.clearUpset a).count (srcFacet g) cEccUnc 1).facetError g 0x0254 a
      (freeUnit s.freeCtr (a / 32), true, s'.mark a)
    | _ =>
      let s' := s.count (srcFacet g) cEccCorr 1
      (s.readB a 32, false,
        if s.wbQueue.contains (a / 32) then s'
        else if (s.wbOf g).length < 16 then { s' with wbQueue := s.wbQueue ++ [a / 32] }
        else s'.count (srcFacet g) cWbDropped 1)

/-- Nothing in a run of units is poisoned or in error. -/
def State.cleanRun (s : State) (a n : Nat) : Bool :=
  (SMap.within s.poison (a / 32) n).isEmpty &&
  !(s.upsets.any (fun p => a / 32 ≤ p.1 && p.1 < a / 32 + n))

/-! ### A record in progress -/

/-- The working state of a record: the machine, whether poisoned data was met, and the regions in which
it met UNDERRUN. -/
structure Run where
  s : State
  bad : Bool
  under : List (Fin 16)

/-- Which Facet executes, and the unit addresses (address / 32) whose read or write it lost in a bank
cycle. -/
structure Ctx where
  f : Fin 16
  dropR : List Nat
  dropW : List Nat

/-- One unit of an operand that is not in the accumulator file. -/
def Run.readAt (w : Run) (x : Ctx) (g : Fin 16) (u : Nat) : List Byte × Run :=
  if x.dropR.contains (unitAddr g u / 32) then
    (freeUnit w.s.freeCtr (unitAddr g u / 32), { w with bad := true })
  else
    let (bs, p, s) := w.s.readUnit g u
    (bs, { w with s := s, bad := w.bad || p })

/-- Units read one after another. -/
def Run.readEach (w : Run) (x : Ctx) (g : Fin 16) (f : Nat → Nat) : Nat → Nat → List Byte × Run
  | 0, _ => ([], w)
  | n + 1, i =>
    let (b, w) := w.readAt x g (f i)
    let (bs, w) := w.readEach x g f n (i + 1)
    (b ++ bs, w)

/-- Unit `o` from TAIL of the Facet's own region read as a consumer (05 R143). The whole offset, UNIT and the unit's index
in the operand, is taken modulo SIZE before it is judged (03 R75; DEDUCED, log 154). -/
def Run.readCirc (w : Run) (x : Ctx) (r : Fin 16) (o : Nat) : List Byte × Run :=
  let g := w.s.facets[x.f].regions[r]
  let o := o % g.size
  let u := g.base + (g.tail + o) % g.size
  if g.level ≤ o then
    (freeUnit w.s.freeCtr (unitAddr x.f u / 32),
      { w with bad := true, under := if w.under.contains r then w.under else w.under ++ [r] })
  else
    let (bs, w) := w.readAt x x.f u
    if g.inSpan o then (freeUnit w.s.freeCtr (unitAddr x.f u / 32), { w with bad := true })
    else (bs, w)

def Run.readCircs (w : Run) (x : Ctx) (r : Fin 16) : Nat → Nat → List Byte × Run
  | 0, _ => ([], w)
  | n + 1, o =>
    let (b, w) := w.readCirc x r o
    let (bs, w) := w.readCircs x r n (o + 1)
    (b ++ bs, w)

/-- `n` units of an operand from unit offset `off` (03 R75). -/
def Run.read (w : Run) (x : Ctx) (ref : Ref) (off n : Nat) : List Byte × Run :=
  if ref.circ then w.readCircs x (fin16 ref.region) n (ref.unit + off)
  else
    let g := ref.facet x.f
    let a := unitAddr g (ref.unit + off)
    if x.dropR.isEmpty && w.s.cleanRun a n then (w.s.readB a (32 * n), w)
    else w.readEach x g (fun i => ref.unit + off + i) n 0

/-- Rows of `n` units at a stride, one after another, each as its own byte string. -/
def Run.readRows (w : Run) (x : Ctx) (ref : Ref) (stride n : Nat) : Nat → Nat → List (List Byte) × Run
  | 0, _ => ([], w)
  | m + 1, off =>
    let (b, w) := w.read x ref off n
    let (bs, w) := w.readRows x ref stride n m (off + stride)
    (b :: bs, w)

/-- The outputs of the record are poisoned (03 R14, 05 R139). -/
def Run.invalid (w : Run) (x : Ctx) : Bool := w.bad || w.s.facets[x.f].invalid

/-- One unit written to a scratchpad; a write lost in a bank cycle leaves the unit poisoned (05 R129). -/
def Run.writeAt (w : Run) (x : Ctx) (g : Fin 16) (u : Nat) (bs : List Byte) (bad : Bool) : Run :=
  let a := unitAddr g u
  if x.dropW.contains (a / 32) then
    { w with s := w.s.mark a }
  else { w with s := w.s.writeUnits a (fitBytes 32 bs) bad }

/-- Unit `o` from LOCAL_HEAD of a region of Facet `g` (05 R146). -/
def State.headUnit (s : State) (g r : Fin 16) (o : Nat) : Nat :=
  let rg := s.facets[g].regions[r]
  rg.base + (rg.head + rg.localPush + o % rg.size) % rg.size

/-- A Facet producer's write of unit `o` from LOCAL_HEAD passes the free space (05 R146), the whole offset modulo SIZE (log
154). -/
def State.headOver (s : State) (g r : Fin 16) (o : Nat) : Bool :=
  let rg := s.facets[g].regions[r]
  rg.size ≤ rg.level + rg.localPush + o % rg.size

/-- A Facet producer's write of unit `o` from LOCAL_HEAD; past the free space it is an OVERRUN (05 R146), counted with
the region in its owner's group (DESIGN CHOICE, log 153). -/
def Run.writeCirc (w : Run) (x : Ctx) (g r : Fin 16) (o : Nat) (bs : List Byte) (bad : Bool) : Run :=
  if w.s.headOver g r o then
    let s := (w.s.updRegion g r (fun y => { y with overran := true })).count (srcFacet g)
      (cOver r.val) 1
    let s := (s.facetError x.f 0x0252 0).updFacet x.f (fun y => { y with invalid := true })
    { w with s := s }
  else w.writeAt x g (w.s.headUnit g r o) bs bad

/-- Units of a byte string written one after another from unit offset `off`. -/
def Run.writeEach (w : Run) (x : Ctx) (ref : Ref) (bad : Bool) : Nat → Nat → List Byte → Run
  | 0, _, _ => w
  | n + 1, off, bs =>
    let g := ref.facet x.f
    let w := if ref.circ then w.writeCirc x g (fin16 ref.region) (ref.unit + off) (bs.take 32) bad
      else w.writeAt x g (ref.unit + off) (bs.take 32) bad
    w.writeEach x ref bad n (off + 1) (bs.drop 32)

/-- A byte string written from unit offset `off` as whole units (05 R492), poisoned when asked or when
the Facet's tick is invalid. -/
def Run.writeBad (w : Run) (x : Ctx) (ref : Ref) (off : Nat) (bs : List Byte) (bad : Bool) : Run :=
  let bs := padUnits bs
  let bad := bad || w.invalid x
  if !ref.circ && x.dropW.isEmpty then
    { w with s := w.s.writeUnits (unitAddr (ref.facet x.f) (ref.unit + off)) bs bad }
  else w.writeEach x ref bad (bs.length / 32) off bs

def Run.write (w : Run) (x : Ctx) (ref : Ref) (off : Nat) (bs : List Byte) : Run :=
  w.writeBad x ref off bs false

/-- Rows written at a stride. -/
def Run.writeRows (w : Run) (x : Ctx) (ref : Ref) (stride : Nat) : Nat → List (List Byte) → Run
  | _, [] => w
  | off, r :: rs => (w.write x ref off r).writeRows x ref stride (off + stride) rs

/-! ### The accumulator file (03 R84) -/

def accKey (row col : Nat) : Nat := row * 64 + col

def Facet.accAt (g : Facet) (row col : Nat) : Word := SMap.get 0 g.acc (accKey row col)

/-- The first `n` columns of a row. -/
def Facet.accRow (g : Facet) (row n : Nat) : List Nat :=
  (SMap.getRange 0 g.acc (accKey row 0) n).map BitVec.toNat

/-- Entries of a row written from column 0. -/
def Facet.setAccRow (g : Facet) (row : Nat) (vs : List Word) : Facet :=
  { g with acc := SMap.setRange 0 g.acc (accKey row 0) vs }

/-! ### Bank meetings (05 R128 to R135; log 9) -/

end Sys2Proof.Machine

namespace Sys2Proof

/-- A bank's priority for a request: its place in R128 (reads) or R129 (writes). -/
def Req.prio (q : Req) : Nat :=
  match q.cls with
  | .acc | .hold => 0
  | .port n => 1 + n.val
  | .accum => 2
  | .xbar _ => 7
  | .dma => 8
  | .scrub => 9

/-- Requests of classes 1 to 3 are timed by the schedule. -/
def Req.timed (q : Req) : Bool :=
  match q.cls with
  | .dma | .scrub => false
  | _ => true

/-- An access of an engine port or of the crossbar. -/
def Req.engine (q : Req) : Bool :=
  match q.cls with
  | .port _ | .accum | .xbar _ => true
  | _ => false

/-- The bank of a unit address (05 R123). -/
def bankOf (addr32 : Nat) : Nat :=
  let u := addr32 % 262144
  (u / 64 + u % 64) % 64

/-- The units a request occupies: a crossbar access takes an even unit and the next (05 R127). -/
def Req.units (q : Req) : List Nat :=
  match q.cls with
  | .xbar _ => [q.unit / 2 * 2, q.unit / 2 * 2 + 1]
  | _ => [q.unit]

/-- Two requests address the same scratchpad. -/
def Req.sameFacet (p q : Req) : Bool := p.unit / 0x80000 == q.unit / 0x80000

/-- Two requests want a bank of the same scratchpad. -/
def Req.sharesBank (q p : Req) : Bool :=
  q.sameFacet p && q.units.any (fun v => p.units.any (fun u => bankOf v == bankOf u))

/-- `q` takes the slot of unit `u`'s bank, in which `p` makes an access: the same slot and a higher priority. Of
two peers at one crossbar port the lower-numbered is served, whatever the banks (03 R99, 05 R127); a unit held by
an accumulate refuses every write but another accumulate (05 R135). -/
def Req.takes (q p : Req) (u : Nat) : Bool :=
  q.timed && q.sameFacet p &&
  (match q.cls, p.cls with
   | .hold, .accum => false
   | .hold, _ => p.write && q.unit == u
   | .xbar i, .xbar j => q.write == p.write && i.val < j.val
   | _, _ => q.write == p.write && q.prio < p.prio && q.units.any (fun v => bankOf v == bankOf u))

/-- `q` takes a slot from `p`. -/
def Req.beats (q p : Req) : Bool := p.units.any (fun u => q.takes p u)

/-- The units of an access whose bank cycle is lost: those alone in whose bank another is served (log 110). -/
def Meet.lostUnits (m : Meet) : List Nat :=
  if m.mine.timed then m.mine.units.filter (fun u => m.others.any (fun q => q.takes m.mine u)) else []

/-- The request loses a slot (CONFLICT). -/
def Meet.lost (m : Meet) : Bool := !m.lostUnits.isEmpty

/-- A DMA access of the other kind meets the same unit, and both are served (05 R132). -/
def Meet.overlaps (m : Meet) : Bool :=
  m.mine.timed && m.others.any (fun q => (match q.cls with | .dma => true | _ => false) &&
    q.write != m.mine.write && m.mine.units.any (fun u => u == q.unit && !m.lostUnits.contains u) &&
    !m.others.any (fun p => p.beats q))

end Sys2Proof

namespace Sys2Proof.Machine

/-- The Facet's strict-overlap bit in the active image (02 R47). -/
def State.strict (s : State) (f : Fin 16) : Bool :=
  match s.sched.active with
  | some im => im.res.any (fun r => r.facet == f.val && r.strict)
  | none => false

/-- One meeting of a record's access charged to its Facet (05 R130, R132). -/
def State.chargeMeet (s : State) (f : Fin 16) (m : Meet) : State :=
  let s := if m.lost then
      ((s.count (srcFacet f) cConflict 1).facetError f 0x0250 (m.mine.unit * 32)).updFacet f
        (fun x => { x with invalid := true })
    else s
  if m.overlaps then
    let s := s.count (srcFacet f) cOverlap 1
    if s.strict f then
      ((s.count (srcFacet f) cStrict 1).facetError f 0x0253 (m.mine.unit * 32)).updFacet f
        (fun x => { x with invalid := true })
    else s
  else s

/-- The context of a record with the accesses it loses. -/
def ctxOf (f : Fin 16) (ms : List Meet) : Ctx :=
  ⟨f, (ms.filter (fun m => !m.mine.write)).flatMap Meet.lostUnits,
    (ms.filter (fun m => m.mine.write)).flatMap Meet.lostUnits⟩

/-! ### Record bookkeeping -/

/-- UNDERRUN of each region met, once for the record (05 R143). -/
def Run.chargeUnder (w : Run) (x : Ctx) : Run :=
  { w with
    s := w.under.foldl (fun s r =>
      (s.count (srcFacet x.f) (cUnder r.val) 1).facetError x.f 0x0251 0) w.s
    under := [] }

/-- Reading is over: poison or an UNDERRUN makes the Facet's tick invalid (01 R14). -/
def Run.settleReads (w : Run) (x : Ctx) : Run :=
  let w := w.chargeUnder x
  if w.bad then { w with s := w.s.updFacet x.f (fun y => { y with invalid := true }) } else w

/-- The record's cycles pass: SETF sets its flag at the last cycle, and the next record begins
(03 R77, R79). -/
def State.endRecord (s : State) (f : Fin 16) (r : Rec) (cycles : Nat) (array : Bool) : State :=
  s.updFacet f (fun x => { x with
    cycle := x.cycle + cycles
    flags := if r.flagBit 3 then (r.flag % 16, x.cycle + cycles - 1) :: x.flags else x.flags
    prog := x.prog.tail
    recIdx := x.recIdx + 1
    prevArray := array })

/-- The record that Facet `f` is to execute, when it runs and the record has the given opcode. -/
def State.headRec (s : State) (f : Fin 16) (op : Nat) : Option Rec :=
  if s.facets[f].phase = .running then
    match s.facets[f].prog with
    | r :: _ => if r.op = op then some r else none
    | [] => none
  else none

/-- A macro-op record executed: meetings charged, the body's reads and writes made, the record's cycles
passed and the free values it may have used spent. Nothing happens when the Facet is not at such a
record. -/
def State.runRecord (s : State) (f : Fin 16) (op : Nat) (ms : List Meet) (array : Bool)
    (cycles : Rec → Bool → Nat) (body : Ctx → Rec → Run → Run) : State :=
  match s.headRec f op with
  | none => s
  | some r =>
    let n := cycles r s.facets[f].prevArray
    let s := ms.foldl (fun s m => s.chargeMeet f m) s
    let w := body (ctxOf f ms) r ⟨s, false, []⟩
    (w.s.endRecord f r n array).drawn 1

end Sys2Proof.Machine
end

