-- ==== Sys2Proof/Machine/Descriptor.lean ====
section
/-! DEFINITION. The fields of a DMA descriptor (08 R205, R206, R209, R211). -/

namespace Sys2Proof.Machine

namespace DmaDesc

def own (d : DmaDesc) : Bool := bitOf d.ctrl 31
def irq (d : DmaDesc) : Bool := bitOf d.ctrl 30
def chain (d : DmaDesc) : Bool := bitOf d.ctrl 29
def circ (d : DmaDesc) : Bool := bitOf d.ctrl 28
def transform (d : DmaDesc) : Nat := bitsOf d.ctrl 24 4
def srcKind (d : DmaDesc) : Nat := bitsOf d.ctrl 20 4
def coding (d : DmaDesc) : Nat := bitsOf d.ctrl 16 4
def waitKind (d : DmaDesc) : Nat := bitsOf d.ctrl 12 4
def waitSel (d : DmaDesc) : Nat := bitsOf d.ctrl 8 4
def prio (d : DmaDesc) : Nat := bitsOf d.ctrl 0 2

/-- Bytes that reach the destination (R210 check 3). -/
def outBytes (d : DmaDesc) : Nat :=
  if d.transform = 0 then d.len else if d.transform = 3 then 0 else d.outLen

/-- Facet and region slot of a region destination (R211), none when DST has no such form. -/
def region (d : DmaDesc) : Option (Fin 16 × Fin 16) :=
  let x := d.dst - scratchBase
  if scratchBase ≤ d.dst ∧ x < 0x10000000 ∧ x % 0x1000000 < 0x400 ∧ x % 64 = 0 then
    some (fin16 (x / 0x1000000), fin16 (x % 0x1000000 / 64))
  else none

/-- The descriptor that 64 bytes hold (R205). -/
def ofBytes (b : List Byte) : DmaDesc :=
  ⟨fieldLe b 0 4, fieldLe b 8 8, fieldLe b 0x10 8, fieldLe b 0x18 4, fieldLe b 0x1C 4, fieldLe b 0x20 8⟩

end DmaDesc

/-- A transfer that a channel holds: its descriptor has been fetched and not completed. -/
def Channel.holds (c : Channel) : Bool :=
  match c.phase with
  | .waiting | .running | .aborting .. => true
  | _ => false

/-- The transfer that a channel holds has begun and not completed. -/
def Channel.moving (c : Channel) : Bool :=
  match c.phase with
  | .running => true
  | .aborting _ started => started
  | _ => false

/-- The transfer that a channel holds has begun and ends before self-refresh is entered: HBM is ready for no other
while its stack is draining (06 R171, R173). -/
def Channel.drains (c : Channel) : Bool := c.phase == .running && c.history

end Sys2Proof.Machine
end

