-- ==== Sys2Proof/Machine/Egress.lean ====
section
/-! DEFINITION. The Aperture: egress classes of data, the limits of 01 R27 and R493, blocking and its
reports (01 R29), crops per source frame (01 R28). -/

namespace Sys2Proof.Machine

/-- What the Aperture takes data for: status (01 R27), data that came from outside, a class of 02 R50,
or none: data that lies in no partition and no region (log 19). -/
inductive DataClass where
  | status | outside | unclassed | internal | image | waveform | result
  deriving DecidableEq, Repr

def DataClass.ofCode : Nat → DataClass
  | 1 => .image | 2 => .waveform | 3 => .result | _ => .internal

/-- A byte of HBM lies in a partition's footprint (06 R157). -/
def Partition.holds (p : Partition) (a : Nat) : Bool :=
  p.base ≤ a && a < p.base + p.size && (p.kind == 0 || a / 16384 % 4 == p.prism)

/-- A range lies wholly in a partition's footprint; in a Prism-local one it lies within a 16 KiB piece
(06 R157, 02 R52). -/
def Partition.holdsRange (p : Partition) (a n : Nat) : Bool :=
  p.holds a && p.holds (a + n - 1) && (p.kind == 0 || a / 16384 == (a + n - 1) / 16384)

/-- First byte of the journal mirror (06 R160). -/
def State.mirrorBase (s : State) : Nat := hbmSize - s.jnl.mirrorJ * 0x4000000

/-- The slot of a journal entry in the mirror (12 R355). -/
def State.mirrorSlot (s : State) (i : Nat) : Nat := s.mirrorBase + i % (s.jnl.mirrorJ * 0x100000) * 64

/-- The class of a range of device memory (02 R50; log 19). Control SRAM beside the outage ring is status, whatever a DMA
put there (DESIGN CHOICE, log 164). -/
def State.dataClass (s : State) (a n : Nat) : DataClass :=
  match placeOf a with
  | .host => .outside
  | .journal | .outage | .other =>
    if a < outageBase + 0x400000 ∧ outageBase < a + n then .waveform else .status
  | .hbm =>
    if s.mirrorBase ≤ a then .status
    else match s.sched.active with
      | none => .unclassed
      | some im =>
        match im.parts.find? (fun p => p.holdsRange a n) with
        | some p => .ofCode p.egress
        | none => .unclassed
  | .scratch f off =>
    match s.facets[f].regions.toList.find? (fun r => r.declared && r.base * 32 ≤ off &&
        off + n ≤ (r.base + r.size) * 32) with
    | some r => .ofCode r.egress
    | none => .unclassed
  | _ => .unclassed

/-- L_W in bytes (01 R493). -/
def CropLimits.windowBytes (c : CropLimits) : Nat := c.maxWindow * 136000

/-- A range of class WAVEFORM is no longer than the window in force (01 R493). -/
def Aperture.windowPasses (a : Aperture) (n : Nat) : Bool :=
  match a.crop with
  | some l => n ≤ l.windowBytes
  | none => false

/-- A transfer of a class and length may leave (01 R27, R30, R493). Data of class IMAGE leaves as the buffers of
ROI_CROP records alone (02 R50), so no plain transfer of it passes (log 19); one of class RESULT passes whatever its
length (DEDUCED, log 164). -/
def State.classPasses (s : State) (c : DataClass) (n : Nat) : Bool :=
  !s.ap.sealed && (s.ap.full ||
    match c with
    | .status | .outside | .result => true
    | .unclassed | .internal | .image => false
    | .waveform => s.ap.windowPasses n)

/-- A buffer of an EMIT record, of a type, may leave from data of a class (01 R27, R493; 02 R50): INTERNAL never,
IMAGE as a crop, WAVEFORM within the window; the rest by the record's own limits. -/
def State.bufferPasses (s : State) (type : Nat) (c : DataClass) (n : Nat) : Bool :=
  !s.ap.sealed && (s.ap.full ||
    match c with
    | .status | .outside | .result | .unclassed => true
    | .internal => false
    | .image => type == 0x0012
    | .waveform => s.ap.windowPasses n)

/-- Counts one judgement: passed (01 R30) or blocked, with one FAULT per path and tick (01 R29). -/
def State.judged (s : State) (p : EgressPath) (ok : Bool) : State :=
  if ok then s.count srcAperture (8 + p.num) 1
  else (s.count srcAperture p.num 1).tickFaultK 0x0103 srcAperture p.num 6 7 0 1 []

/-- A transfer of `n` bytes from an address, of which `m` leave, judged as a whole. -/
def State.judgeTransfer (s : State) (p : EgressPath) (a n m : Nat) : Bool × State :=
  let ok := s.classPasses (s.dataClass a n) (max n m)
  (ok, s.judged p ok)

/-- Crops already passed of a source frame (01 R28). -/
def Aperture.cropsOf (a : Aperture) (frame : Nat) : Nat :=
  match a.crops.find? (fun p => p.1 == frame) with
  | some p => p.2
  | none => 0

/-- One more crop of a frame. -/
def Aperture.addCrop (a : Aperture) (frame : Nat) : Aperture :=
  { a with crops := (frame, a.cropsOf frame + 1) :: a.crops.filter (fun p => p.1 != frame) }

/-- An EMIT record of a type with its payload and buffer length may leave (01 R27, R28; 12 R348). -/
def State.recordPasses (s : State) (type : Nat) (payload : List Byte) (len : Nat) : Bool :=
  !s.ap.sealed && (s.ap.full ||
    (if type = 0x0014 then len / 4 ≤ 256
     else if type = 0x0012 then
       match s.ap.crop with
       | none => false
       | some l =>
         fieldLe payload 0x10 2 ≤ l.maxW && fieldLe payload 0x12 2 ≤ l.maxH &&
         s.ap.cropsOf (fieldLe payload 0 8) < l.maxCrops
     else true))

/-- A passed crop counts to the source frame its payload names (01 R28, 12 R348). -/
def State.countCrop (s : State) (payload : List Byte) : State :=
  { s with ap := s.ap.addCrop (fieldLe payload 0 8) }

end Sys2Proof.Machine
end

