-- ==== Sys2Proof/Machine/Fuse.lean ====
section
/-! DEFINITION. Reading and judging the fuse array (13 R361 to R379): bits, doubled regions, redirection,
seals, region states, the shadow and the fuse view. -/

namespace Sys2Proof.Machine

/-- A word as the three references give it: firm-1 bits and marginal bits (R363). -/
abbrev FuseRead := Nat × Nat

/-- Bitwise complement within 64 bits. -/
def not64 (v : Nat) : Nat := Nat.xor v (2 ^ 64 - 1)

/-- Two copies of a logical word combined (R364). -/
def fuseCombine (a b : FuseRead) : FuseRead :=
  let f := Nat.lor a.1 b.1
  (f, Nat.land (Nat.lor a.2 b.2) (not64 f))

def isDoubled (r : Nat) : Bool := r == 0 || r == 1 || r == 8

def isCriticalRegion (r : Nat) : Bool := r == 0 || r == 1 || r == 2 || r == 8 || r == 9

/-- The redirection entries that apply: main word, spare, entry number (R365, R366). -/
def buildMap (rep : Nat → Nat) : Nat → List (Nat × Nat × Nat)
  | 0 => []
  | e + 1 =>
    let m := buildMap rep e
    let v := rep e
    let w := v % 1024
    let sp := v / 1024 % 16
    if bitOf v 14 && w < 512 && !(32 ≤ w && w < 64) && !m.any (fun p => p.1 == w || p.2.1 == sp)
    then m ++ [(w, sp, e)] else m

/-- The physical word read for a main word. -/
def physWord (map : List (Nat × Nat × Nat)) (w : Nat) : Nat :=
  match map.find? (fun p => p.1 == w) with
  | some p => 512 + p.2.1
  | none => w

/-- A word of the array as it stands. -/
def FuseSt.word (f : FuseSt) (w : Nat) : FuseRead := (f.firm.get w, f.marg.get w)

/-- Word `i` of region `r` through a redirection map, given a reading of the array. -/
def regionWord (rd : Nat → FuseRead) (map : List (Nat × Nat × Nat)) (r i : Nat) : FuseRead :=
  rd (physWord map (32 * r + i))

/-- Logical word `j` of a doubled region. -/
def logicalWord (rd : Nat → FuseRead) (map : List (Nat × Nat × Nat)) (r j : Nat) : FuseRead :=
  fuseCombine (regionWord rd map r j) (regionWord rd map r (j + 16))

/-- The redirection map that a reading gives; REPAIR is never redirected (R366, R373). -/
def mapOf (rd : Nat → FuseRead) : List (Nat × Nat × Nat) :=
  buildMap (fun e => (logicalWord rd [] 1 e).1) 16

/-- The five codes of LIFECYCLE as 0 to 4 (R367). -/
def lifecycleCode (v : Nat) : Option Nat :=
  if v = 0 then some 0 else if v = 1 then some 1 else if v = 3 then some 2
  else if v = 7 then some 3 else if v = 15 then some 4 else none

/-- An encoding failure of a logical word of LIFE or POLICY (R367, R368). -/
def encodingBad (r j v : Nat) : Bool :=
  if r = 0 then
    (match j with
    | 0 => (lifecycleCode (v % 16)).isNone || v / 16 != 0
    | 1 => v / 2 ^ 32 != 0 || bitOf v 0 || bitOf v 16
    | _ => v != 0)
  else if r = 8 then (if j = 0 then v / 8 != 0 else v != 0)
  else false

/-- The seal word of data words and an index byte (R369, R371). -/
def sealWord (ws : List Nat) (idx : Nat) : Nat :=
  leNat ((0xA5 : Byte) :: (sha384 (ws.flatMap (leBytes 8) ++ leBytes 1 idx)).take 7)

/-- Consecutive ones counted from bit 0 of a 256-bit counter (R372). -/
def onesFrom (v : Nat) : Nat → Nat
  | 0 => 0
  | n + 1 => if bitOf v (255 - n) then 1 + onesFrom v n else 0

/-- The rollback version, none when the counter is not a run of ones below bit 255 (R372). -/
def rollbackOf (ws : List Nat) : Option Nat :=
  let v := leNat (ws.flatMap (leBytes 8))
  let n := onesFrom v 256
  if n < 256 && v == 2 ^ n - 1 then some n else none

/-- The first counter word of ANTI_ROLLBACK that is not what its run of ones gives; the last one for bit 255 (R372). -/
def rollbackBadWord (ws : List Nat) : Nat :=
  let n := onesFrom (leNat (ws.flatMap (leBytes 8))) 256
  if n = 256 then 3
  else ((List.range 4).find? (fun i => ws.getD i 0 != 2 ^ min 64 (n - 64 * i) - 1)).getD 0

/-- State of a sealed region or slot (R370): data words, the words that count as data for EMPTY and OPEN,
its seal word, the expected seal, MARGINAL, locked. -/
def sealedState (data : List Nat) (sealW expected : Nat) (marg locked bad : Bool) : Nat :=
  if marg || bad then 3
  else if sealW = 0 then
    if data.all (· == 0) then 0 else if locked then 4 else 1
  else if sealW = expected then 2 else 3

/-- What a judgement of one region gives: state, whether it holds a MARGINAL word, its shadow words. -/
structure RegionJudged where
  st : Nat
  marg : Bool
  words : List Nat
  /-- First failing main word offset. -/
  first : Nat

/-- Judges a region (R367 to R372); region 3 by its slots. -/
def judgeRegion (rd : Nat → FuseRead) (map : List (Nat × Nat × Nat)) (wlock : Nat) (r : Nat) :
    RegionJudged :=
  if isDoubled r then
    let m := if r = 1 then [] else map
    let lws := (List.range 16).map (logicalWord rd m r)
    let marg := lws.any (fun w => w.2 != 0)
    let badAt (j : Nat) : Bool := encodingBad r j (lws.getD j (0, 0)).1
    let bad := (List.range 16).any badAt
    let margAt (i : Nat) : Bool := Nat.land (regionWord rd m r i).2 (lws.getD (i % 16) (0, 0)).2 != 0
    ⟨if marg || bad then 3 else if lws.all (fun w => w.1 == 0) then 0 else 1, marg,
     lws.map (·.1) ++ List.replicate 16 0,
     (if marg then (List.range 32).find? margAt else (List.range 16).find? badAt).getD 0⟩
  else
    let ws := (List.range 32).map (regionWord rd map r)
    let vs := ws.map (·.1)
    let marg := ws.any (fun w => w.2 != 0)
    let locked := bitOf wlock r
    let counter := r == 9
    let body := if counter then List.replicate 4 0 ++ (vs.take 31).drop 4 else vs.take 31
    let bad := counter && (rollbackOf (vs.take 4)).isNone
    ⟨sealedState body (vs.getD 31 0) (sealWord body r) marg locked bad, marg, vs,
     if marg then (ws.findIdx? (fun w => w.2 != 0)).getD 0
     else if bad then rollbackBadWord (vs.take 4) else 31⟩

/-- Judges an OWNER_KEYS slot (R371). -/
def judgeSlot (rd : Nat → FuseRead) (map : List (Nat × Nat × Nat)) (wlock : Nat) (k : Nat) : Nat × Bool :=
  let ws := (List.range 16).map (fun i => regionWord rd map 3 (16 * k + i))
  let vs := ws.map (·.1)
  let marg := ws.any (fun w => w.2 != 0)
  (sealedState (vs.take 15) (vs.getD 15 0) (sealWord (vs.take 15) (16 * k + 3)) marg
    (bitOf wlock 3) false, marg)

/-- A region or slot state that counts as failed (R370, R374). -/
def failedState (st : Nat) : Bool := st == 3 || st == 4

/-- Region 3's state from its slots' (log 23). -/
def ownerState (a b : Nat) : Nat :=
  if failedState a || failedState b then 3 else if a = 1 ∨ b = 1 then 1
  else if a = 2 ∨ b = 2 then 2 else 0

/-- The shadow with a region's words. -/
def setShadow (m : NMap) (r : Nat) (ws : List Nat) : NMap := SMap.setRange 0 m (32 * r) ws

/-- One region judged into the controller's state. -/
def FuseSt.judge (f : FuseSt) (rd : Nat → FuseRead) (r : Nat) : FuseSt :=
  let wlock := (f.shadow.get 1) % 65536
  let j := judgeRegion rd f.map wlock r
  let f := { f with
    shadow := setShadow f.shadow r j.words
    st := f.st.set r j.st
    regMarg := if j.marg then Nat.lor f.regMarg (2 ^ r) else Nat.land f.regMarg (Nat.xor 0xFFFF (2 ^ r)) }
  if r = 3 then
    let a := judgeSlot rd f.map wlock 0
    let b := judgeSlot rd f.map wlock 1
    { f with
      slotSt := [a.1, b.1]
      slotMarg := (if a.2 then 1 else 0) + (if b.2 then 2 else 0)
      st := f.st.set 3 (ownerState a.1 b.1) }
  else f

/-- Every region judged, LIFE first so that the locks are known (R373). -/
def FuseSt.judgeAll (f : FuseSt) (rd : Nat → FuseRead) : FuseSt :=
  (List.range 16).foldl (fun f r => f.judge rd r) { f with map := mapOf rd }

/-! ### What the device takes from the shadow -/

def State.shadowWord (s : State) (w : Nat) : Nat := s.fuse.shadow.get w

/-- LIFECYCLE as STATE.LIFECYCLE (R367). -/
def State.lifecycle (s : State) : Nat := (lifecycleCode (s.shadowWord 0 % 16)).getD 0

def State.writeLocked (s : State) (r : Nat) : Bool := bitOf (s.shadowWord 1) r
def State.readLocked (s : State) (r : Nat) : Bool := bitOf (s.shadowWord 1) (16 + r)

/-- POLICY's logical word 0 (R368). -/
def State.policy (s : State) : Nat := s.shadowWord 256

def State.regionState (s : State) (r : Nat) : Nat := s.fuse.st.getD r 0
def State.slotState (s : State) (k : Nat) : Nat := s.fuse.slotSt.getD k 0

/-- The rollback version (R372). -/
def State.rollback (s : State) : Nat :=
  (rollbackOf ((List.range 4).map (fun i => s.shadowWord (288 + i)))).getD 0

/-- A word of a region that is used only while the region is not absent (R376, R377). -/
def State.usable (s : State) (r i : Nat) : Nat :=
  if failedState (s.regionState r) then 0 else s.shadowWord (32 * r + i)

/-- The device serial (14 R412; 13 R377). -/
def State.serial (s : State) : Nat := s.usable 5 0

/-- ARTEFACTS and the 96 anchor bytes of an owner slot that is SEALED (14 R392, R408). -/
def State.slotArtefacts (s : State) (k : Nat) : Nat := s.shadowWord (96 + 16 * k + 12) / 2 ^ 32 % 65536

def wordsBytes (s : State) (w n : Nat) : List Byte :=
  (List.range n).flatMap (fun i => leBytes 8 (s.shadowWord (w + i)))

/-- The anchor of a signer: 0 or 1 an owner slot, 0xFE the vendor; none matches while it is not SEALED
(14 R392). -/
def State.anchor (s : State) (signer : Nat) : Option (List Byte) :=
  if signer < 2 then
    if s.slotState signer = 2 then some (wordsBytes s (96 + 16 * signer) 12) else none
  else if signer = 0xFE then
    if s.regionState 2 = 2 then some (wordsBytes s 64 12) else none
  else none

/-- The MAC address of a port (11 R296, 13 R377). -/
def State.mac (s : State) (port : Nat) : List Byte :=
  let base : Nat :=
    if !failedState (s.regionState 5) then s.shadowWord 161 % 2 ^ 48
    else if failedState (s.regionState 4) || s.regionState 4 == 0 then 0x020000000000
    else leNat ((List.range 5).reverse.map Config.derivedMac) + 0x020000000000
  beBytes 6 ((base + port) % 2 ^ 48)

/-- Debug access is open (14 R403, R404). -/
def State.debugOpen (s : State) : Bool :=
  s.fuse.valid && !bitOf s.fuse.startPolicy 1 && s.lifecycle ≤ 2

/-- FULL_EGRESS is in effect (01 R30; 14 R403). -/
def State.fullEgress (s : State) : Bool := bitOf s.policy 0 && s.lifecycle ≤ 2 && 1 ≤ s.lifecycle

/-- One status byte of the fuse view (R379). -/
def viewByte (st : Nat) (wl rl marg spare : Bool) : Byte :=
  BitVec.ofNat 8 (st + (if wl then 8 else 0) + (if rl then 16 else 0) + (if marg then 32 else 0) +
    (if spare then 64 else 0))

/-- The fuse view (R379). -/
def State.fuseView (s : State) : List Byte :=
  let usesSpare (lo n : Nat) := s.fuse.map.any (fun p => lo ≤ p.1 && p.1 < lo + n)
  let regs := (List.range 16).map (fun r => viewByte (s.regionState r) (s.writeLocked r)
    (s.readLocked r) (bitOf s.fuse.regMarg r) (usesSpare (32 * r) 32))
  let slots := (List.range 2).map (fun k => viewByte (s.slotState k) (s.writeLocked 3)
    (s.readLocked 3) (bitOf s.fuse.slotMarg k) (usesSpare (96 + 16 * k) 16))
  let applied := s.fuse.map.foldl (fun a p => a + 2 ^ p.2.2) 0
  let spares := s.fuse.map.foldl (fun a p => a + 2 ^ p.2.1) 0
  let head := regs ++ slots ++ leBytes 1 s.lifecycle ++ leBytes 1 s.rollback ++ leBytes 2 applied ++
    leBytes 2 spares ++ leBytes 4 s.fuse.mismatch
  let words := (List.range 16).flatMap (fun r =>
    if r = 4 || s.readLocked r then zeroBytes 256 else wordsBytes s (32 * r) 32)
  if s.fuse.valid then fitBytes 0x1000 head ++ words else zeroBytes 0x2000

end Sys2Proof.Machine
end

