-- ==== Sys2Proof/Machine/Objective.lean ====
section
/-! DEFINITION. The Objective's arithmetic (09 R234 to R243): from the raw rows of a frame to the lines
of a stream. -/

namespace Sys2Proof.Machine

/-- Readout modes of 09 R225: 0 FULL, 1 BINNED, 2 HDR, 3 BURST. -/
def modeW (m : Nat) : Nat := if m = 1 then 4096 else if m = 3 then 1024 else 8192
def modeH (m : Nat) : Nat := if m = 1 then 3072 else if m = 3 then 1024 else 6144
def modeOb (m : Nat) : Nat := if m = 1 then 32 else if m = 3 then 16 else 64
/-- Line time in ns. -/
def modeLine (m : Nat) : Nat := if m = 0 then 5200 else if m = 1 then 2600 else if m = 2 then 10600 else 720
/-- Minimum frame period in ns. -/
def modePmin (m : Nat) : Nat := if m = 0 then 32381600 else if m = 1 then 8170400 else 65904800
/-- VMAX (R234). -/
def modeVmax (m : Nat) : Int := if m = 2 then 65535 else 4095

/-- Bayer channel: 0 R, 1 Gr, 2 Gb, 3 B. -/
def bayer (x y : Nat) : Nat := y % 2 * 2 + x % 2

/-- What the pixels of a frame are computed from. -/
structure PixEnv where
  mode : Nat
  /-- Width, and active rows read so far or, while the frame goes on, the rows of the mode. -/
  w : Nat
  h : Nat
  /-- Merged values (R235), optical-black rows first, optical-black columns last. -/
  v0 : Array (Array Nat)
  /-- OB[c] (R236). -/
  ob : List Int
  /-- COL[x] (R237). -/
  col : Array Int
  rowTrack : Bool
  dyn : Bool
  shading : Bool
  dynThresh : Int
  black : Int
  dgain : Int
  wb : List Nat
  ccm : List Int
  /-- Applying static entries (R238), by sensor coordinates. -/
  defects : List (Nat × Nat)
  /-- Every entry of the static map (R239). -/
  mapped : List (Nat × Nat)
  gains : Array Nat
  originX : Nat
  originY : Nat
  /-- Free values for what the spec leaves open at the frame's edge (log 4). -/
  free : Nat → Int

def meanTrunc (vs : List Int) : Int := Int.tdiv (vs.foldl (· + ·) 0) vs.length

/-- The merged value of one pixel (R235). -/
def mergePix (mode ratio hi lo : Nat) : Nat :=
  if mode = 2 then if hi < 3840 then hi else min 65535 (lo * ratio / 256) else hi

def mergeRow (mode ratio : Nat) (r : RawRow) : Array Nat :=
  if mode = 2 then (List.zipWith (mergePix mode ratio) r.hi r.lo).toArray else r.hi.toArray

/-- OB[c]: the truncated mean of the channel's pixels in the optical-black rows after the first 8, without
the optical-black columns (R236). -/
def obMean (mode : Nat) (v0 : Array (Array Nat)) (c : Nat) : Int :=
  meanTrunc ((List.range (modeOb mode - 8)).flatMap (fun i =>
    (List.range (modeW mode / 2)).flatMap (fun j =>
      if (8 + i) % 2 = c / 2 then [((v0.getD (8 + i) #[]).getD (2 * j + c % 2) 0 : Int)] else [])))

/-- The column offset c of R237 for a column, before the division by 16. -/
def colInterp (t : ColTable) (theta : Int) (x : Nat) : Int :=
  let at_ (k : Nat) : Int := (t.points.getD k []).getD x 0
  match (List.range (t.temps.length - 1)).find? (fun k =>
      16 * t.temps.getD k 0 ≤ theta && theta ≤ 16 * t.temps.getD (k + 1) 0) with
  | some k =>
    let a := t.temps.getD k 0
    let b := t.temps.getD (k + 1) 0
    at_ k + Int.tdiv ((at_ (k + 1) - at_ k) * (theta - 16 * a)) (16 * (b - a))
  | none => if theta < 16 * t.temps.getD 0 0 then at_ 0 else at_ (t.temps.length - 1)

/-- θ lies outside a table's range (R237). -/
def colClamped (t : ColTable) (theta : Int) : Bool :=
  !t.temps.isEmpty && (decide (theta < 16 * t.temps.getD 0 0) ||
    decide (16 * t.temps.getD (t.temps.length - 1) 0 < theta))

/-- The table of a mode; BURST uses FULL's (R237). -/
def ImgCal.table (c : ImgCal) (mode : Nat) : ColTable :=
  c.cols.getD (if mode = 3 then 0 else mode) ⟨[], []⟩

/-- The applying entries of the static map (R238). -/
def ImgCal.defectsAt (c : ImgCal) (theta : Int) : List (Nat × Nat) :=
  (c.defects.filter (fun d => d.2.2 == -128 || 16 * d.2.2 ≤ theta)).map (fun d => (d.1, d.2.1))

/-- The environment of a frame. -/
def mkEnv (mode flags dynThresh : Nat) (ccm : List Int) (cfg : Settings) (cal : Option ImgCal) (theta : Int)
    (rows : List RawRow) (h ox oy ctr : Nat) : PixEnv :=
  let ratio := match cal with | some c => c.ratio | none => 4096
  let v0 := (rows.map (mergeRow mode ratio)).toArray
  { mode := mode, w := modeW mode, h := h, v0 := v0
    ob := (List.range 4).map (obMean mode v0)
    col := match cal with
      | some c => ((List.range (modeW mode)).map (fun x =>
          Int.tdiv (colInterp (c.table mode) theta (x + ox)) 16)).toArray
      | none => #[]
    rowTrack := bitOf flags 0, dyn := bitOf flags 1, shading := bitOf flags 2
    dynThresh := dynThresh, black := cfg.black, dgain := cfg.dgain, wb := cfg.wb, ccm := ccm
    defects := match cal with | some c => c.defectsAt theta | none => []
    mapped := match cal with | some c => c.defects.map (fun d => (d.1, d.2.1)) | none => []
    gains := match cal with | some c => c.shading.toArray | none => #[]
    originX := ox, originY := oy
    free := fun k => ((Config.freeWord (ctr * 2 ^ 48 + k)).toNat % 65536 : Nat) }

namespace PixEnv

/-- ROW[y] (R236). -/
def row (e : PixEnv) (y : Nat) : Int :=
  if e.rowTrack then
    let r := e.v0.getD (modeOb e.mode + y) #[]
    let m := meanTrunc ((r.toList.drop e.w).map (fun v => Int.ofNat v))
    clampInt (-32) 32 (m - meanTrunc e.ob)
  else 0

/-- T1: black level (R236). -/
def t1 (e : PixEnv) (x y : Nat) : Int :=
  let v := (e.v0.getD (modeOb e.mode + y) #[]).getD x 0
  clampInt 0 (modeVmax e.mode)
    ((v : Int) - e.ob.getD (bayer x y) 0 - e.col.getD x 0 - e.row y + e.black)

/-- A pixel has an entry in a list of sensor positions; a binned one when any of its four sensor pixels has (R238). -/
def listed (e : PixEnv) (ps : List (Nat × Nat)) (x y : Nat) : Bool :=
  if e.mode = 1 then
    let bx := x / 2 * 4 + x % 2
    let by_ := y / 2 * 4 + y % 2
    ps.any (fun d => (d.1 == bx || d.1 == bx + 2) && (d.2 == by_ || d.2 == by_ + 2))
  else ps.contains (x + e.originX, y + e.originY)

/-- The pixel has an applying entry of the static map (R238). -/
def defective (e : PixEnv) (x y : Nat) : Bool := e.listed e.defects x y

def sound (e : PixEnv) (ps : List (Nat × Nat)) : List Int :=
  (ps.filter (fun p => p.1 < e.w && p.2 < e.h && !e.defective p.1 p.2)).map (fun p => e.t1 p.1 p.2)

/-- Static correction (R238). The first argument bounds the pixels of the same colour to the left. -/
def static (e : PixEnv) : Nat → Nat → Nat → Int
  | fuel, x, y =>
    if !e.defective x y then e.t1 x y
    else
      let hs := e.sound ((if 2 ≤ x then [(x - 2, y)] else []) ++ [(x + 2, y)])
      let vs := e.sound ((if 2 ≤ y then [(x, y - 2)] else []) ++ [(x, y + 2)])
      if !hs.isEmpty then meanTrunc hs
      else if !vs.isEmpty then meanTrunc vs
      else match fuel with
        | 0 => 0
        | k + 1 => if 2 ≤ x then e.static k (x - 2) y else 0

/-- A coordinate mirrored into [0, n) (R239). -/
def mirror (n : Nat) (i : Int) : Nat :=
  if i < 0 then (-i).toNat else if (n : Int) ≤ i then (2 * ((n : Int) - 1) - i).toNat else i.toNat

/-- T2, and whether the dynamic detector replaced the pixel (R239). -/
def t2 (e : PixEnv) (x y : Nat) : Int × Bool :=
  let v := e.static e.w x y
  if e.dyn && !e.listed e.mapped x y then
    let ns := ([(-2, -2), (0, -2), (2, -2), (-2, 0), (2, 0), (-2, 2), (0, 2), (2, 2)] :
        List (Int × Int)).map (fun d =>
      e.static e.w (mirror e.w (x + d.1)) (mirror e.h (y + d.2)))
    let hi := ns.foldl max (ns.headD 0)
    let lo := ns.foldl min (ns.headD 0)
    if hi + e.dynThresh < v then (hi, true)
    else if v < lo - e.dynThresh then (lo, true)
    else (v, false)
  else (v, false)

/-- The shading gain g (R240). -/
def gain (e : PixEnv) (x y : Nat) : Int :=
  if !e.shading || e.gains.isEmpty then 4096
  else
    let sx : Int := if e.mode = 1 then 2 * x + 1 else x + e.originX
    let sy : Int := if e.mode = 1 then 2 * y + 1 else y + e.originY
    let i := (clampInt 0 62 (Int.fdiv (sx - 64) 128)).toNat
    let j := (clampInt 0 46 (Int.fdiv (sy - 64) 128)).toNat
    let fx := clampInt 0 128 (sx - (128 * i + 64))
    let fy := clampInt 0 128 (sy - (128 * j + 64))
    let g (i j : Nat) : Int := (e.gains.getD ((bayer x y * 48 + j) * 64 + i) 4096 : Nat)
    (g i j * (128 - fx) * (128 - fy) + g (i + 1) j * fx * (128 - fy) +
      g i (j + 1) * (128 - fx) * fy + g (i + 1) (j + 1) * fx * fy) / 16384

/-- T3: lens shading and digital gain (R240). -/
def t3 (e : PixEnv) (x y : Nat) : Int :=
  min (modeVmax e.mode) ((e.t2 x y).1 * e.gain x y * e.dgain / 16777216)

/-- A tap point: 1 T1, 2 T2, 3 T3. -/
def tap (e : PixEnv) (point x y : Nat) : Int :=
  if point = 1 then e.t1 x y else if point = 2 then (e.t2 x y).1 else e.t3 x y

/-- White balance and the 16-bit working range (R241 step 1). -/
def work (e : PixEnv) (x y : Nat) : Int :=
  let v := min (modeVmax e.mode) (e.t3 x y * (e.wb.getD (bayer x y) 0 : Nat) / 4096)
  if e.mode = 2 then v else v * 16

/-- A free value for a position whose neighbours lie outside the frame (R241 gives no rule; log 4). -/
def edge (e : PixEnv) (c x y : Nat) : Int := e.free ((c * 8192 + y) * 8192 + x)

def inner (e : PixEnv) (x y : Nat) : Bool := 1 ≤ x && x + 1 < e.w && 1 ≤ y && y + 1 < e.h

/-- Green at a pixel (R241 step 2). -/
def green (e : PixEnv) (x y : Nat) : Int :=
  if (x + y) % 2 = 1 then e.work x y
  else if !e.inner x y then e.edge 0 x y
  else
    let l := e.work (x - 1) y
    let r := e.work (x + 1) y
    let u := e.work x (y - 1)
    let d := e.work x (y + 1)
    let dh := (l - r).natAbs
    let dv := (u - d).natAbs
    if dh < dv then Int.tdiv (l + r) 2 else if dv < dh then Int.tdiv (u + d) 2
    else Int.tdiv (l + r + u + d) 4

/-- Red (`c = 0`) or blue (`c = 3`) at a pixel (R241 step 2). -/
def colour (e : PixEnv) (c x y : Nat) : Int :=
  let dif (p : Nat × Nat) : Int := e.work p.1 p.2 - e.green p.1 p.2
  let b := bayer x y
  if b = c then e.work x y
  else
    let horiz := (b = 1 ∧ c = 0) ∨ (b = 2 ∧ c = 3)
    let vert := (b = 1 ∧ c = 3) ∨ (b = 2 ∧ c = 0)
    if horiz then
      if 1 ≤ x ∧ x + 1 < e.w then e.green x y + meanTrunc [dif (x - 1, y), dif (x + 1, y)]
      else e.edge (c + 1) x y
    else if vert then
      if 1 ≤ y ∧ y + 1 < e.h then e.green x y + meanTrunc [dif (x, y - 1), dif (x, y + 1)]
      else e.edge (c + 1) x y
    else if e.inner x y then
      e.green x y + meanTrunc [dif (x - 1, y - 1), dif (x + 1, y - 1), dif (x - 1, y + 1),
        dif (x + 1, y + 1)]
    else e.edge (c + 1) x y

/-- The matrix output (R241 step 3): plane 0 R, 1 G, 2 B. -/
def matrix (e : PixEnv) (p x y : Nat) : Int :=
  let k (i : Nat) : Int := e.ccm.getD (3 * p + i) 0
  clampInt 0 65535
    (Int.tdiv (k 0 * e.colour 0 x y + k 1 * e.green x y + k 2 * e.colour 3 x y) 4096)

/-- Y from red, green and blue (R241). -/
def luma (r g b : Int) : Int := (77 * r + 150 * g + 29 * b) / 256

/-- A plane before the scaler: 0 to 2 of the matrix output, 3 Y. -/
def plane (e : PixEnv) (p x y : Nat) : Int :=
  if p = 3 then luma (e.matrix 0 x y) (e.matrix 1 x y) (e.matrix 2 x y) else e.matrix p x y

end PixEnv

/-- One axis of the area box filter with edge weights in 1/256 (R242): output `j` of `out` from `src`
values. -/
def boxAxis (f : Nat → Int) (src out j : Nat) : Int :=
  let a := j * src * 256 / out
  let b := (j + 1) * src * 256 / out
  let ks := (List.range ((b + 255) / 256 - a / 256)).map (· + a / 256)
  Int.tdiv (ks.foldl (fun acc k =>
    acc + f k * ((min b (256 * k + 256) - max a (256 * k) : Nat) : Int)) 0) ((b - a : Nat) : Int)

/-- The scaler: horizontally, then vertically (R242). -/
def scaled (f : Nat → Nat → Int) (c : StreamCfg) (i j : Nat) : Int :=
  boxAxis (fun y => boxAxis (fun x => f (c.srcX + x) (c.srcY + y)) c.srcW c.outW i) c.srcH c.outH j

/-- A tone curve (R242). -/
def toneOf (curve : List Nat) (u : Int) : Int :=
  let n := u.toNat
  let c (k : Nat) : Int := if k = 256 then 65535 else (curve.getD k 0 : Nat)
  c (n / 256) + Int.tdiv ((c (n / 256 + 1) - c (n / 256)) * ((n % 256 : Nat) : Int)) 256

/-- The 8-bit result of a tone curve: the top byte. -/
def tone8 (curve : List Nat) (u : Int) : Int := toneOf curve u / 256

/-- Lines padded with zero to a multiple of 64 bytes (R243). -/
def padLine (bs : List Byte) : List Byte := bs ++ zeroBytes ((64 - bs.length % 64) % 64)

def line16 (vs : List Int) : List Byte := padLine (vs.flatMap (fun v => leBytes 2 v.toNat))
def line8 (vs : List Int) : List Byte := padLine (vs.flatMap (fun v => leBytes 1 v.toNat))

namespace StreamCfg

/-- Stream lines of a frame (R248). -/
def lines (c : StreamCfg) : Nat := if c.kind = 1 then c.srcH else c.outH

/-- Bytes of one padded line. -/
def lineBytes (c : StreamCfg) : Nat :=
  let b := if c.kind = 1 then 2 * c.srcW
    else if c.kind = 2 then if bitOf c.point 1 then 2 * c.outW else c.outW else c.outW
  (b + 63) / 64 * 64

/-- Planes of a planar format. -/
def planes (c : StreamCfg) : Nat :=
  if c.kind = 1 then 1 else if c.kind = 2 then if bitOf c.point 0 then 1 else 3 else 3

/-- Bytes of a full group (R244). -/
def groupBytes (c : StreamCfg) : Nat :=
  if c.kind = 4 then (c.lpg + c.lpg / 2) * c.lineBytes else c.lpg * c.lineBytes * c.planes

/-- Full groups that a ring holds. -/
def ringGroups (c : StreamCfg) : Nat := if c.groupBytes = 0 then 0 else c.ringBytes / c.groupBytes

/-- Lines complete when `n` active rows have been read and nothing below them is to come. -/
def linesFrom (c : StreamCfg) (n : Nat) : Nat :=
  if c.kind = 1 then min c.srcH (n - c.srcY)
  else ((List.range c.outH).filter (fun j => c.srcY + ceilDiv ((j + 1) * c.srcH) c.outH ≤ n)).length

/-- Rows below a source row that a stage may still read: two for the static map, two for the dynamic
detector, two for the demosaic (R238, R239, R241). -/
def margin (c : StreamCfg) : Nat :=
  if c.kind = 1 then if c.point = 1 then 0 else 4 else 6

end StreamCfg

/-- One line of a plane of a formatted output. -/
def planeLine (e : PixEnv) (c : StreamCfg) (tones : List (List Nat)) (p j : Nat) : List Byte :=
  let v (i : Nat) := scaled (e.plane p) c i j
  let curve := tones.getD c.tone []
  if c.kind = 2 ∧ bitOf c.point 1 then line16 ((List.range c.outW).map (fun i => v i / 16))
  else line8 ((List.range c.outW).map (fun i => tone8 curve (v i)))

/-- The toned RGB of a CODING pixel. -/
def codingRgb (e : PixEnv) (c : StreamCfg) (curve : List Nat) (i j : Nat) : Int × Int × Int :=
  let v (p : Nat) := tone8 curve (scaled (e.plane p) c i j)
  (v 0, v 1, v 2)

def codingU (t : Int × Int × Int) : Int := Int.tdiv (-43 * t.1 - 85 * t.2.1 + 128 * t.2.2) 256 + 128
def codingV (t : Int × Int × Int) : Int := Int.tdiv (128 * t.1 - 107 * t.2.1 - 21 * t.2.2) 256 + 128

def codingLine (e : PixEnv) (c : StreamCfg) (curve : List Nat) (j : Nat) : List Byte :=
  line8 ((List.range c.outW).map (fun i =>
    let t := codingRgb e c curve i j
    PixEnv.luma t.1 t.2.1 t.2.2))

/-- One interleaved U, V line: each sample the truncated mean over its 2 x 2 block (R243). -/
def chromaLine (e : PixEnv) (c : StreamCfg) (curve : List Nat) (j : Nat) : List Byte :=
  line8 ((List.range (c.outW / 2)).flatMap (fun i =>
    let ts := [codingRgb e c curve (2 * i) (2 * j), codingRgb e c curve (2 * i + 1) (2 * j),
      codingRgb e c curve (2 * i) (2 * j + 1), codingRgb e c curve (2 * i + 1) (2 * j + 1)]
    [meanTrunc (ts.map codingU), meanTrunc (ts.map codingV)]))

/-- The bytes of a group: stream lines [lo, hi) (R244). -/
def groupData (e : PixEnv) (c : StreamCfg) (tones : List (List Nat)) (lo hi : Nat) : List Byte :=
  let ls := (List.range (hi - lo)).map (· + lo)
  if c.kind = 1 then
    ls.flatMap (fun j => line16 ((List.range c.srcW).map (fun i => e.tap c.point (c.srcX + i) (c.srcY + j))))
  else if c.kind = 4 then
    let curve := tones.getD c.tone []
    ls.flatMap (codingLine e c curve) ++
      ((List.range (hi / 2 - lo / 2)).map (· + lo / 2)).flatMap (chromaLine e c curve)
  else if c.planes = 1 then ls.flatMap (planeLine e c tones 3)
  else ls.flatMap (planeLine e c tones 0) ++ ls.flatMap (planeLine e c tones 1) ++
    ls.flatMap (planeLine e c tones 2)

/-- Sensor rows that a group of stream lines takes. -/
def groupRows (c : StreamCfg) (lo hi : Nat) : Nat × Nat :=
  if c.kind = 1 then (c.srcY + lo, c.srcY + hi)
  else (c.srcY + lo * c.srcH / c.outH, c.srcY + ceilDiv (hi * c.srcH) c.outH)

/-! ### Statistics (R249, R250) -/

/-- Histogram over a window: 256 bins of 2 x 2 quads. Of a frame that was cut, the quads whose rows were read count
(log 119). -/
def histogram (e : PixEnv) (c : ObjCfg) : List Nat :=
  let bins := (List.range (c.histH / 2)).foldl (fun (a : Array Nat) j =>
    (List.range (c.histW / 2)).foldl (fun a i =>
      let x := c.histX + 2 * i
      let y := c.histY + 2 * j
      let q := e.t3 x y + e.t3 (x + 1) y + e.t3 x (y + 1) + e.t3 (x + 1) (y + 1)
      let b := (q / 4 / (if e.mode = 2 then 256 else 16)).toNat
      if y + 1 < e.h then a.modify b (· + 1) else a) a) (Array.replicate 256 0)
  bins.toList

/-- One cell of the white-balance grid: sums over its quads without a value at VMAX. -/
def gridCell (e : PixEnv) (gx gy : Nat) : List Byte :=
  let cw := e.w / 32
  let ch := modeH e.mode / 24
  let q := (List.range (ch / 2)).foldl (fun (a : Int × Int × Int × Nat) j =>
    (List.range (cw / 2)).foldl (fun a i =>
      let x := gx * cw + 2 * i
      let y := gy * ch + 2 * j
      let r := e.t3 x y
      let g1 := e.t3 (x + 1) y
      let g2 := e.t3 x (y + 1)
      let b := e.t3 (x + 1) (y + 1)
      if y + 1 < e.h ∧ r < modeVmax e.mode ∧ g1 < modeVmax e.mode ∧ g2 < modeVmax e.mode ∧
          b < modeVmax e.mode then
        (a.1 + r, a.2.1 + (g1 + g2) / 2, a.2.2.1 + b, a.2.2.2 + 1) else a) a) (0, 0, 0, 0)
  leBytes 4 q.1.toNat ++ leBytes 4 q.2.1.toNat ++ leBytes 4 q.2.2.1.toNat ++ leBytes 4 q.2.2.2

/-- The row values s[y] of the flicker detector before its trend is removed: the median over 16 column
bands of the row mean divided by the band's frame mean, in Q0.16 (R250 steps 1 to 3). -/
def flickerRows (e : PixEnv) : List Int :=
  let bw := e.w / 16
  let rowMean (b y : Nat) : Int := meanTrunc ((List.range bw).map (fun i => e.t3 (b * bw + i) y))
  let frameMean (b : Nat) : Int := meanTrunc ((List.range e.h).map (rowMean b))
  let fm := (List.range 16).map frameMean
  (List.range e.h).map (fun y =>
    let vs := (List.range 16).map (fun b =>
      let m := fm.getD b 0
      if m = 0 then 0 else rowMean b y * 65536 / m)
    let sorted := vs.mergeSort (· ≤ ·)
    Int.tdiv (sorted.getD 7 0 + sorted.getD 8 0) 2)

/-! The fit of R250, in integers: sines and cosines to 2^-60, every division truncating (R234; log 120). -/

/-- Terms of the series of cosine and sine at an angle below a quarter turn, in units of 2^-60: `t` is the term of
order `k` (its size), and the sums so far. -/
def trigTerms (x : Nat) : Nat → Nat → Nat → Int × Int → Int × Int
  | 0, _, _, a => a
  | n + 1, k, t, a =>
    let v : Int := if k % 4 < 2 then t else -(t : Int)
    trigTerms x n (k + 1) (t * x / 2 ^ 60 / (k + 1)) (if k % 2 = 0 then (a.1 + v, a.2) else (a.1, a.2 + v))

/-- Cosine and sine of r / 4n of a turn, in units of 2^-60. -/
def cosSin (r n : Nat) : Int × Int :=
  let w := trigTerms (1811004864519280710 * (r % n) / n) 26 0 (2 ^ 60) (0, 0)
  match r / n % 4 with
  | 0 => w
  | 1 => (-w.2, w.1)
  | 2 => (-w.1, -w.2)
  | _ => (w.2, -w.1)

/-- Row values without their least-squares linear trend, times the common denominator, which comes first (R250
step 3). -/
def detrend (ss : List Int) : Int × List Int :=
  let n : Int := ss.length
  let sum (f : Nat × Int → Int) : Int := ((List.range ss.length).zip ss).foldl (fun a p => a + f p) 0
  let x1 := sum (fun p => p.1)
  let x2 := sum (fun p => p.1 * p.1)
  let y1 := sum (fun p => p.2)
  let xy := sum (fun p => p.1 * p.2)
  let d := n * x2 - x1 * x1
  (d, ((List.range ss.length).zip ss).map (fun p =>
    p.2 * d - (x2 * y1 - x1 * xy) - p.1 * (n * xy - x1 * y1)))

/-- C and S for a candidate of q quarter hertz; `t` is the readout time of row 0 less t_zc and `line` the line time, in
ns (R250 step 5). -/
def flickerSums (es : List Int) (t : Int) (line q : Nat) : Int × Int :=
  ((List.range es.length).zip es).foldl (fun a p =>
    let w := cosSin (Int.emod (q * (t + p.1 * line)) 4000000000).toNat 1000000000
    (a.1 + p.2 * w.1, a.2 + p.2 * w.2)) (0, 0)

/-- φ of R250 in units of a turn / 65,536: the largest angle that does not lie past atan2(S, C). -/
def flickerPhase (c s : Int) : Nat :=
  let base : Nat := if 0 < c ∧ 0 ≤ s then 0 else if c ≤ 0 ∧ 0 < s then 16384 else if c < 0 ∧ s ≤ 0 then 32768 else 49152
  (List.range 14).foldl (fun k i =>
    let j := k + 2 ^ (13 - i)
    let w := cosSin j 16384
    if w.2 * c ≤ w.1 * s then j else k) base

/-- The fit: f* in quarter hertz, φ, A in Q0.16, and whether the second-largest peak more than 0.5 Hz away exceeds A / 2
(R250 step 5). Peaks are the candidates that no neighbour exceeds; the lowest of equal candidates is taken. -/
def flickerFit (ss : List Int) (t : Int) (line : Nat) : Nat × Nat × Nat × Bool :=
  let (d, es) := detrend ss
  let qs := (List.range 1841).map (· + 160)
  let cs := qs.map (flickerSums es t line)
  let ms := cs.map (fun p => (p.1 * p.1 + p.2 * p.2).toNat)
  let best := (List.range 1841).foldl (fun b i => if ms.getD b 0 < ms.getD i 0 then i else b) 0
  let m := ms.getD best 0
  let c := cs.getD best (0, 0)
  let peaks := (List.range 1841).filter (fun i =>
    decide (ms.getD (i - 1) 0 ≤ ms.getD i 0) && decide (ms.getD (i + 1) 0 ≤ ms.getD i 0) &&
      (decide (best + 2 < i) || decide (i + 2 < best)))
  (best + 160, flickerPhase c.1 c.2, Nat.sqrt (4 * m) / (ss.length * d.toNat * 2 ^ 60),
    peaks.any (fun i => m < 4 * ms.getD i 0))

end Sys2Proof.Machine
end

