-- ==== Sys2Proof/Machine/Moving.lean ====
section
/-! DEFINITION. Reads and writes of device addresses by engines: HBM with its error reporting and poison
table (06 R167, R168), scratchpads (05 R136 to R139), the line store's poison marks (09 R247), the
read-only views of Control SRAM, and the writes of dynamic producers (05 R148). -/

namespace Sys2Proof.Machine

/-- HBM channel of an address (06 R156). -/
def chanOf (a : Nat) : Nat := a / 4096 % 16

/-- Counter indices of the HBM controller's group (06 R174; log 20). -/
def hRead (c : Nat) : Nat := c
def hWrite (c : Nat) : Nat := 16 + c
def hControl : Nat := 32
def hCorr (c : Nat) : Nat := 33 + c
def hMulti (c : Nat) : Nat := 49 + c
def hUnc (c : Nat) : Nat := 65 + c
def hEcs (c : Nat) : Nat := 81 + c
def hPoisonReads : Nat := 98
def hPoisonLost : Nat := 99
def hParity (c : Nat) : Nat := 100 + c
/-- BUCKET_LOW, held as the deepest fall below the depth since the last snapshot. -/
def hLowDeficit : Nat := 117
def hSelfRefresh : Nat := 119

/-- One 32-byte granule of HBM read (06 R167, R168): bytes, poison, effects. -/
def State.readGranule (s : State) (a : Nat) : List Byte × Bool × State :=
  let c := chanOf a
  if s.hbm.poison.contains (a / 32) then
    (freeUnit s.freeCtr (a / 32), true, s.count srcHbm hPoisonReads 1)
  else
    match s.severity a with
    | 0 => (s.readB a 32, false, s)
    | 1 => (s.readB a 32, false, s.count srcHbm (hCorr c) 1)
    | 2 => (s.readB a 32, false, (s.count srcHbm (hMulti c) 1).updHbm (fun h =>
        { h with lastCorr := h.lastCorr.set (fin16 c) (a / 32 * 32) }))
    | _ =>
      let s := (s.count srcHbm (hUnc c) 1).errorRec 0x0840 6 (16 + c) a 1 0 []
      (freeUnit s.freeCtr (a / 32), true, s.tickFaultK 0x0840 srcHbm c 6 (16 + c) a 1 [])

def inHbm (a : Nat) : Bool := placeOf a == .hbm

/-- Channels of HBM that a range uses leave power-down on its request (06 R155). -/
def State.wakeRange (s : State) (a n : Nat) : State :=
  let first := a / 4096
  let pages := (a + n + 4095) / 4096 - first
  s.updHbm (fun h => { h with powerDown := Vector.ofFn (fun (c : Fin 16) =>
    h.powerDown[c] && pages ≤ (c.val + 16 - first % 16) % 16) })

/-- Ring of a stream in the line store: its base in a configuration (09 R244). -/
def ObjCfg.ringBase (c : ObjCfg) (i : Nat) : Nat :=
  lineBase + 0x200000 + ((c.streams.take i).map (·.ringBytes)).foldl (· + ·) 0

/-- The stream of a number. -/
def ObjCfg.stream (c : ObjCfg) (i : Fin 5) : StreamCfg :=
  c.streams.getD i.val ⟨0, 0, 0, 0, 0, 0, 0, 0, 0, 0, 0, 0, 0, 0⟩

def State.updImg (s : State) (g : Img → Img) : State := { s with img := g s.img }

def fin5s (n : Nat) : Fin 5 := ⟨n % 5, Nat.mod_lt _ (by decide)⟩

def State.updStream (s : State) (i : Fin 5) (g : StreamSt → StreamSt) : State :=
  s.updImg (fun m => { m with streams := m.streams.set i (g m.streams[i]) })

/-- Event source of a stream; the Objective's counters stand in group 0x0200 (12 R347; log 20). -/
def srcImg : Nat := 0x0200
def iPoisoned (s : Nat) : Nat := 12 + s

/-- A poisoned group of a stream: counted, and raised once per stream per frame (09 R247). -/
def State.poisonedGroup (s : State) (i : Fin 5) : State :=
  let was := s.img.streams[i].bad
  let s := (s.updStream i (fun x => { x with bad := true })).count srcImg (iPoisoned i.val) 1
  if was then s else s.fault 0x0314 (srcImg + i.val) 4 2 0 []

/-- The stream in whose ring an address lies, with the base and length of the group there (09 R244). -/
def State.ringGroup (s : State) (a : Nat) : Option (Fin 5 × Nat × Nat) :=
  match s.img.cfg with
  | none => none
  | some c =>
    ((List.range 5).find? (fun i => c.ringBase i ≤ a && a < c.ringBase (i + 1))).bind (fun i =>
      let g := (c.stream (fin5s i)).groupBytes
      if g = 0 then none else some (fin5s i, c.ringBase i + (a - c.ringBase i) / g * g, g))

/-- A parity error stored in the line store is met (09 R247): the whole group of a ring becomes poisoned and the
error is reported; elsewhere the one unit does. -/
def State.lineParity (s : State) (a : Nat) : State :=
  match s.ringGroup a with
  | some (i, g, n) => (s.writeUnits g (s.readB g n) true).poisonedGroup i
  | none => s.writeUnits (a / 32 * 32) (s.readB (a / 32 * 32) 32) true

/-- An uncorrectable error of Control SRAM outside the firmware range is a block error (16 R458), of a status of the master
table that is left open (12 R360; log 116). -/
def State.sramError (s : State) (a : Nat) : State :=
  s.errorRec (statusCodes.getD (s.free.toNat % statusCodes.length) 0x0803) 7 4 a 1 0 []

/-- 32 bytes of the holding queue, its records oldest first (12 R345; log 18). -/
def State.heldPiece (s : State) (off : Nat) : List Byte :=
  match s.host.held[off / 64]? with
  | some r => (r.bytes.drop (off % 64)).take 32
  | none => zeroBytes 32

/-- One granule of any place. -/
def State.readPiece (s : State) (a : Nat) : List Byte × Bool × State :=
  match placeOf a with
  | .hbm => s.readGranule a
  | .scratch f off => s.readUnit f (off / 32)
  | .lineStore =>
    if s.poisoned a then (freeUnit s.freeCtr (a / 32), true, s)
    else if s.severity a = 3 then (freeUnit s.freeCtr (a / 32), true, s.lineParity a)
    else (s.readB a 32, false, s)
  | .firmware | .journal | .outage | .other =>
    if s.severity a = 3 then (freeUnit s.freeCtr (a / 32), true, s.sramError a)
    else if fuseViewAddr ≤ a ∧ a < fuseViewAddr + 0x2000 then
      ((s.fuseView.drop (a - fuseViewAddr)).take 32, false, s)
    else if errQueueAddr ≤ a ∧ a < errQueueAddr + 0x4000 then
      ((s.errQueueBytes.drop (a - errQueueAddr)).take 32, false, s)
    else if heldAddr ≤ a ∧ a < heldAddr + 0x40000 then (s.heldPiece (a - heldAddr), false, s)
    else (s.readB a 32, false, s)
  | _ => (s.readB a 32, false, s)

/-- Nothing in a range needs a look at single granules. -/
def State.plainRange (s : State) (a n : Nat) : Bool :=
  s.cleanRun a (n / 32) && (match placeOf a with
    | .hbm => !s.hbm.poison.any (fun g => a / 32 ≤ g && g < (a + n) / 32)
    | .other => false
    | _ => true)

/-- Granules read in turn. -/
def State.readPieces (s : State) (a : Nat) : Nat → List Byte × List Nat × State
  | 0 => ([], [], s)
  | n + 1 =>
    let (bs, bad, s) := s.readPiece a
    let (rest, bads, s) := s.readPieces (a + 32) n
    (bs ++ rest, if bad then a / 32 :: bads else bads, s)

/-- `n` bytes (a multiple of 32) read from a device address: bytes, poisoned granules (address / 32), and
effects. One draw of free values covers the read. -/
def State.readDev (s : State) (a n : Nat) : List Byte × List Nat × State :=
  let s := if inHbm a then s.wakeRange a n else s
  if s.plainRange a n then (s.readB a n, [], s)
  else
    let (bs, bads, s) := s.readPieces a (n / 32)
    (bs, bads, s.drawn 1)

/-- A byte count charged to the channels of the pages it touches. -/
def State.countPages (s : State) (base : Nat → Nat) (a n : Nat) : State :=
  (List.range ((a + n + 4095) / 4096 - a / 4096)).foldl (fun s i =>
    let p := (a / 4096 + i) * 4096
    let lo := max a p
    let hi := min (a + n) (p + 4096)
    s.count srcHbm (base (chanOf p)) (hi - lo)) s

/-- One granule written into HBM (06 R168): poisoned data takes a place in the table, or is written as zero
when the table is full; a clean write removes the entry. The flag says that poison was lost. -/
def State.writeGranule (s : State) (a : Nat) (bs : List Byte) (bad : Bool) : State × Bool :=
  let s := s.clearUpset a
  let listed := s.hbm.poison.contains (a / 32)
  if bad then
    if listed then (s.writeB a bs, false)
    else if s.hbm.poison.length < 256 then
      ((s.writeB a bs).updHbm (fun h => { h with poison := h.poison ++ [a / 32] }), false)
    else ((s.writeB a (zeroBytes 32)).count srcHbm hPoisonLost 1, true)
  else
    ((s.writeB a bs).updHbm (fun h =>
      if listed then { h with poison := h.poison.filter (· != a / 32) } else h), false)

/-- Granules written in turn. -/
def State.writeGranules (s : State) (a : Nat) (bads : List Nat) : List (List Byte) → State × Bool
  | [] => (s, false)
  | g :: gs =>
    let (s, l) := s.writeGranule a g (bads.contains (a / 32))
    let (s, l') := s.writeGranules (a + 32) bads gs
    (s, l || l')

/-- Stored errors of the units of a range are gone once the units are written. -/
def State.clearRun (s : State) (a n : Nat) : State :=
  { s with upsets := s.upsets.filter (fun p => !(a / 32 ≤ p.1 && p.1 < (a + n) / 32)) }

/-- Bytes cut into granules of 32. -/
def pieces32 : Nat → List Byte → List (List Byte)
  | 0, _ => []
  | n + 1, bs => bs.take 32 :: pieces32 n (bs.drop 32)

/-- Pieces (32 bytes) `bads`, given by index, replaced by zeros: what reaches a place that keeps no poison
mark, in units of 64 bytes (08 R215). -/
def zeroBad (bads : List Nat) (bs : List Byte) : List Byte :=
  let gs := pieces32 (bs.length / 32) bs
  (List.range gs.length).flatMap (fun i =>
    if bads.any (fun b => b / 2 == i / 2) then zeroBytes 32 else gs.getD i [])

/-- Units of a scratchpad or of the line store written, each with its own poison (05 R139, 09 R247). -/
def State.writeMarked (s : State) (a : Nat) (bs : List Byte) (bads : List Nat) : State :=
  if bads.isEmpty then s.writeUnits a bs false
  else
    let gs := pieces32 (bs.length / 32) bs
    (List.range gs.length).foldl (fun s i =>
      s.writeUnits (a + 32 * i) (gs.getD i []) (bads.contains i)) s

/-- `bs` written to a device address; `bads` are the indices of its poisoned 32-byte pieces. The flag says
that poison was lost in HBM. Host memory, Control SRAM and Beam windows keep no poison, so poisoned pieces
reach them as zeros (08 R215). -/
def State.writeDev (s : State) (a : Nat) (bs : List Byte) (bads : List Nat) : State × Bool :=
  match placeOf a with
  | .hbm =>
    let s := s.wakeRange a bs.length
    if bads.isEmpty && s.hbm.poison.isEmpty && s.cleanRun a (bs.length / 32) then (s.writeB a bs, false)
    else s.writeGranules a (bads.map (· + a / 32)) (pieces32 (bs.length / 32) bs)
  | .scratch _ _ => (s.writeMarked a bs bads, false)
  | .lineStore => (s.writeMarked a bs bads, false)
  | .unmapped => (s, false)
  | .beam _ => (s, false)
  | .host => (s.writeB a (zeroBad bads bs), false)
  | _ => ((s.clearRun a bs.length).writeB a (zeroBad bads bs), false)

/-- A place keeps poison marks with its data (08 R215). -/
def keepsPoison (a : Nat) : Bool :=
  match placeOf a with
  | .hbm | .scratch _ _ | .lineStore => true
  | _ => false

/-- Bytes of any length written, joined with what stands beside them in their units (08 R208; 12 R359); `bads` are the
poisoned pieces of what is written. A partly written granule of HBM counts as cleanly written (06 R168). The flag says
that poison was lost. -/
def State.writeMergedBad (s : State) (a : Nat) (bs : List Byte) (bads : List Nat) : State × Bool :=
  let lo := a / 32 * 32
  let hi := (a + bs.length + 31) / 32 * 32
  s.writeDev lo (s.readB lo (a - lo) ++ bs ++ s.readB (a + bs.length) (hi - (a + bs.length))) bads

/-- The same for clean bytes. -/
def State.writeMerged (s : State) (a : Nat) (bs : List Byte) : State := (s.writeMergedBad a bs []).1

/-! ### What may be written in HBM (02 R56; 06 R160, R170) -/

/-- A range overlaps another. -/
def overlaps (a n b m : Nat) : Bool := a < b + m && b < a + n

/-- The range of a LOAD_SCHEDULE command. -/
def loadRange (c : Cmd) : Option (Nat × Nat) :=
  match c with
  | .loadSchedule addr len => some (addr.toNat, len.toNat)
  | _ => none

/-- A range is write-protected: it meets an image that is active, staged or being checked (02 R56). -/
def State.protectedRange (s : State) (a n : Nat) : Bool :=
  let im (i : Option Image) : Bool := match i with
    | some i => overlaps a n i.addr i.len
    | none => false
  im s.sched.active || im s.sched.staged || s.host.bg.any (fun b => match loadRange b.desc.cmd with
    | some (x, l) => overlaps a n x l
    | none => false)

/-- The stack answers accesses, now or once it has left self-refresh or training (06 R170). -/
def State.hbmMapped (s : State) : Bool := s.hbm.phase != .failed

/-- A range of HBM may be written: mapped, outside the journal mirror, not protected. -/
def State.hbmWritable (s : State) (a n : Nat) : Bool :=
  s.hbmMapped && a + n ≤ s.mirrorBase && !s.protectedRange a n

/-! ### The token bucket (06 R164; 08 R213) -/

/-- The bucket falls by the bytes granted (06 R164), and its lowest level is kept (06 R174). -/
def State.takeBucket (s : State) (n : Nat) : State :=
  let s := s.updHbm (fun h => { h with bucket := h.bucket - n })
  let d := 33554432 - s.hbm.bucket
  if s.ctr srcHbm hLowDeficit < d then s.setCtr srcHbm hLowDeficit d else s

/-- HBM cannot be reached at present (06 R170, R171). -/
def State.hbmWaits (s : State) : Bool := s.hbm.phase != .ready

/-- HBM grants accesses of a user: always while ready, and to transfers while begun HISTORY writes complete on the way
into self-refresh, when only those are left (06 R171). -/
def State.hbmOpen (s : State) (u : BucketUser) : Bool :=
  match s.hbm.phase, u with
  | .ready, _ => true
  | .draining, .chan _ | .draining, .expander _ | .draining, .condenser _ | .draining, .back _ => true
  | _, _ => false

/-- The waiting access that is granted next: the oldest of the highest priority. -/
def firstWait : List BucketWait → Option BucketWait
  | [] => none
  | w :: ws =>
    match firstWait ws with
    | some v => if w.prio < v.prio then some v else some w
    | none => some w

/-- An HBM access is held back by one that waits, at its own or a higher priority, in any engine (08 R213). -/
def State.heldBack (s : State) (prio : Nat) : Bool := s.hbm.waiting.any (fun w => prio ≤ w.prio)

/-- An access asks the bucket for its bytes. It is granted at once when nothing holds it back and the level covers
them; one that waits already is granted when its turn has come; otherwise it waits (06 R164). On the way into
self-refresh the accesses that are left are granted whatever the level, so that they complete (06 R173; log 114). -/
def State.bucketPass (s : State) (u : BucketUser) (n prio : Nat) : Bool × State :=
  if n = 0 then (true, s)
  else if !s.hbmOpen u then (false, s)
  else if s.hbm.phase = .draining then (true, s.takeBucket n)
  else
    match s.hbm.waiting.find? (fun w => w.user == u) with
    | some w =>
      if firstWait s.hbm.waiting = some w ∧ w.bytes ≤ s.hbm.bucket then
        (true, (s.updHbm (fun h => { h with waiting := h.waiting.erase w })).takeBucket w.bytes)
      else (false, s)
    | none =>
      if !s.heldBack prio && n ≤ s.hbm.bucket then (true, s.takeBucket n)
      else (false, s.updHbm (fun h => { h with waiting := h.waiting ++ [⟨u, n, prio⟩] }))

/-- Accesses of a user no longer wait. -/
def State.unwait (s : State) (u : BucketUser) : State :=
  s.updHbm (fun h => { h with waiting := h.waiting.filter (fun w => w.user != u) })

/-- The control bucket falls, and its bytes are counted (06 R166, R174). -/
def State.takeControl (s : State) (n : Nat) : State :=
  (s.updHbm (fun h => { h with ctlBucket := h.ctlBucket - n })).count srcHbm hControl n

/-- The HISTORY partition that a write falls in, as the index of its mark (06 R173). -/
def State.markOf (s : State) (a : Nat) : Option Nat :=
  (List.range 8).find? (fun i => match (s.hbm.marks[fin8 i]).part with
    | some p => p.holds a
    | none => false)

/-- One history mark changed. -/
def State.setMark (s : State) (i : Fin 8) (m : HistMark) : State :=
  s.updHbm (fun h => { h with marks := h.marks.set i m })

/-- A completed write into a HISTORY partition moves its mark and clears STALE (06 R173). What one completed write is the
spec leaves open: every burst, row and block counts as one (DESIGN CHOICE, log 159). -/
def State.markWrite (s : State) (a n : Nat) : State :=
  match placeOf a, s.markOf a with
  | .hbm, some i => s.setMark (fin8 i) ({ s.hbm.marks[fin8 i] with
      addr := a + n, stale := false, time := s.tk.now })
  | _, _ => s

/-- Data that has arrived for HBM lands there, unless it may not be written (01 R19; 02 R56; 06 R160, R165, R168, R173). -/
def State.land (s : State) (x : Stalled) : State :=
  let n := x.bytes.length
  if n = 0 ∨ s.hbmWritable x.addr n = false then s
  else
    let (s, lost) := s.writeDev x.addr x.bytes x.bads
    let s := (s.countPages hWrite x.addr n).markWrite x.addr n
    if lost then s.tickFault 0x0841 srcHbm 6 (16 + chanOf x.addr) x.addr else s

/-- The head of the data that waits for HBM asks the bucket; priority 3 (log 113). -/
def State.landHead (s : State) : Option Stalled × State :=
  match s.hbm.stalled with
  | [] => (none, s)
  | x :: xs =>
    let (ok, s) := s.bucketPass x.user x.bytes.length 3
    if ok then (some x, (s.updHbm (fun h => { h with stalled := xs })).land x) else (none, s)

/-- Data that has arrived for HBM takes its place behind what waits already. -/
def State.stall (s : State) (x : Stalled) : State :=
  s.updHbm (fun h => { h with stalled := h.stalled ++ [x] })

/-- Data that has arrived for HBM lands at once when nothing waits before it and the bucket grants it, or waits. -/
def State.arrive (s : State) (x : Stalled) : State :=
  if s.hbm.stalled.isEmpty then (s.stall x).landHead.2 else s.stall x

/-- Units written into a region from an offset on, wrapping modulo its SIZE (08 R211). -/
def State.writeRing (s : State) (g : RingAt) (off : Nat) (bs : List Byte) (bads : List Nat) : State :=
  let gs := pieces32 (bs.length / 32) bs
  (List.range gs.length).foldl (fun s i =>
    s.writeUnits (unitAddr (fin16 g.facet) (g.base + (g.off + off + i) % g.size)) (gs.getD i [])
      (bads.contains i)) s

/-- The place of the next reservation of a region (05 R148). -/
def State.ringAt (s : State) (f r : Fin 16) : RingAt :=
  let x := s.facets[f].regions[r]
  ⟨f.val, r.val, x.base, x.size, (x.head + x.reserved) % x.size⟩

/-- A dynamic producer writes a whole transfer into a region: it reserves, writes and commits (05 R145,
R148), or meets OVERRUN (R149). -/
def State.regionDeliver (s : State) (f r : Fin 16) (tag : Nat) (bs : List Byte) (bads : List Nat) :
    Bool × State :=
  let k := bs.length / 32
  let g := s.facets[f].regions[r]
  if g.declared && g.fits k then
    let at_ := s.ringAt f r
    let s := ((s.updRegion f r (fun x => x.reserve tag k)).highWater f r).yields f
    (true, (s.writeRing at_ 0 bs bads).regionCommit f r tag k)
  else (false, s.regionOverrun f r)

end Sys2Proof.Machine
end

