-- ==== Sys2Proof/Machine/Ticks.lean ====
section
/-! DEFINITION. Tick numbers and the instants of tick edges (02 R32, R33). -/

namespace Sys2Proof.Machine

/-- Edge k of a second at n ticks per second: round(k * 10^9 / n), halves up (02 R32). -/
def edgeOff (n k : Nat) : Nat := (2 * k * 1000000000 + n) / (2 * n)

/-- TIME of the edge of a tick at a rate (02 R32, R33). -/
def edgeAt (n t : Nat) : Nat := t / n * 1000000000 + edgeOff n (t % n)

def State.tickTime (s : State) (t : Nat) : Nat := edgeAt s.tk.rate t

/-- The tick in progress at a TIME at a rate. -/
def tickAt (n time : Nat) : Nat :=
  let r := time % 1000000000
  let k := r * n / 1000000000
  let k := if k + 1 < n ∧ edgeOff n (k + 1) ≤ r then k + 1
    else if edgeOff n k ≤ r then k else k - 1
  time / 1000000000 * n + k

def State.tickOf (s : State) (time : Nat) : Nat := tickAt s.tk.rate time

/-- The smallest multiple of `m` that is at least `a`. -/
def roundUp (a m : Nat) : Nat := (a + m - 1) / m * m

end Sys2Proof.Machine
end

