-- ==== Sys2Proof/Machine/Sensor.lean ====
section
/-! DEFINITION. Frames, settings, streams and bursts of the sensor (09 R225 to R260). -/

namespace Sys2Proof.Machine

def iFrames : Nat := 0
def iSkipped : Nat := 1
def iTrunc (s : Nat) : Nat := 2 + s
def iGroups (s : Nat) : Nat := 7 + s
def iSets : Nat := 17
def iLate : Nat := 18
def iStatic : Nat := 19
def iDyn : Nat := 20
def iBursts : Nat := 21
def iBurstFrames : Nat := 22
def iBurstDropped : Nat := 23
def iBurstIgnored : Nat := 24

/-- P of R226 in ns. -/
def State.framePeriod (s : State) (c : ObjCfg) : Nat := c.frameTicks * (1000000000 / s.tk.rate)

/-- E_max of R228. -/
def State.expMax (s : State) (c : ObjCfg) : Nat :=
  (s.framePeriod c - 100000) / modeLine c.mode

/-! ### Streams -/

/-- A descriptor reads a stream's ring as a queue: its LEN is a whole number of full groups (R245; log 121). -/
def readsStream (c : ObjCfg) (i : Nat) (d : DmaDesc) : Bool :=
  d.src == c.ringBase i && d.srcKind == 0 && d.waitKind == 5 && d.waitSel == i &&
    (c.stream (fin5s i)).groupBytes != 0 && d.len % (c.stream (fin5s i)).groupBytes == 0

/-- A DMA channel reads the stream: a descriptor that does is held by a channel, stands in a template of the
active image, or is the stream's only possible reader (R245; log 24). -/
def State.streamDma (s : State) (c : ObjCfg) (i : Fin 5) : Bool :=
  (c.stream i).dest == 0 ||
  s.dma.toList.any (fun e => e.ch.toList.any (fun ch => ch.holds && readsStream c i.val ch.desc)) ||
  (match s.sched.active with
    | some im => im.templates.any (fun t => readsStream c i.val t.desc)
    | none => false)

/-- The frame's environment with `h` active rows counted as the frame. -/
def State.frameEnv (s : State) (c : ObjCfg) (fr : FrameSt) (h : Nat) : PixEnv :=
  mkEnv c.mode c.flags c.dynThresh c.ccm fr.cfg s.img.cal fr.theta fr.rows h 0 0 s.freeCtr

/-- A stream truncated (R246, R252, R254): counted once per frame; a full path raises IMG_TRUNCATED. -/
def State.truncate (s : State) (i : Fin 5) (cause : Nat) : State :=
  match s.img.streams[i].trunc with
  | some _ => s
  | none =>
    let s := (s.updStream i (fun x => { x with trunc := some cause })).count srcImg (iTrunc i.val) 1
    if cause = 0 then s.fault 0x0310 (srcImg + i.val) 4 2 0 [] else s

/-- One line group, stream lines [lo, hi), made ready: written into the ring, taken by the Objective writer,
kept for a DMA reader, or the stream truncated (R244 to R247). -/
def State.deliverGroup (s : State) (c : ObjCfg) (e : PixEnv) (fr : FrameSt) (i : Fin 5) (lo hi : Nat) :
    State :=
  let sc := c.stream i
  let st := s.img.streams[i]
  let bs := groupData e sc c.tone lo hi
  let rows := groupRows sc lo hi
  let bad := ((fr.rows.drop (modeOb c.mode + rows.1)).take (rows.2 - rows.1)).any (·.bad)
  let bads := if bad then List.range (bs.length / 32) else []
  let dma := s.streamDma c i
  if dma && sc.ringGroups ≤ st.held.length then s.truncate i 0
  else
    let s := s.writeMarked (c.ringBase i.val + st.pos * sc.groupBytes) bs bads
    let (ok, s) := if sc.dest = 1 then
        s.regionDeliver (fin16 sc.facet) (fin16 sc.region) (2000 + i.val) bs bads
      else (true, s)
    if !ok then s.truncate i 0
    else
      let s := (s.updStream i (fun x => { x with
        pos := (x.pos + 1) % sc.ringGroups
        held := if dma then x.held ++ [x.pos] else x.held
        lines := hi })).count srcImg (iGroups i.val) 1
      if bad then s.poisonedGroup i else s

/-- The groups of a stream that `n` rows complete, from its next line on. -/
def State.deliverLines (s : State) (c : ObjCfg) (e : PixEnv) (fr : FrameSt) (i : Fin 5) (n : Nat) :
    Nat → State
  | 0 => s
  | k + 1 =>
    let lo := s.img.streams[i].lines
    let hi := min (lo + (c.stream i).lpg) n
    if hi ≤ lo || s.img.streams[i].trunc.isSome then s
    else (s.deliverGroup c e fr i lo hi).deliverLines c e fr i n k

/-- Every enabled stream's remaining lines delivered at the end of the readout, of which `n` active rows
have been read. -/
def State.finishStreams (s : State) (c : ObjCfg) (fr : FrameSt) (n : Nat) : State :=
  let e := s.frameEnv c fr n
  (List.range 5).foldl (fun s k =>
    let i := fin5s k
    let sc := c.stream i
    if sc.kind = 0 then s else s.deliverLines c e fr i (sc.linesFrom n) (sc.lines + 1)) s

/-! ### Frame records -/

/-- Bits [31:16] of the flags of FRAME_STATUS (R248). -/
def frameFlags (fr : FrameSt) (st : StreamSt) : Nat :=
  let b (v : Bool) (i : Nat) := if v then 2 ^ i else 0
  b st.trunc.isSome 16 + st.trunc.getD 0 * 2 ^ 17 + b fr.tooLate 19 + b fr.settling 20 +
    b fr.clamped 21 + b fr.noCal 22 + b fr.calClamp 23 + b fr.tempHigh 24 + b st.bad 25

/-- Dynamic replacements of a frame's first `n` active rows (R239). -/
def dynCount (e : PixEnv) (n : Nat) : Nat :=
  if e.dyn then (List.range n).foldl (fun a y =>
    a + ((List.range e.w).filter (fun x => (e.t2 x y).2)).length) 0 else 0

/-- The payload of FRAME_STATUS (R248). -/
def framePayload (c : ObjCfg) (sc : StreamCfg) (fr : FrameSt) (st : StreamSt) (ob : List Int)
    (dyn : Nat) : List Byte :=
  leBytes 4 fr.seq ++ leBytes 2 st.lines ++ leBytes 1 c.mode ++ leBytes 1 sc.kind ++
  leBytes 4 fr.cfg.exposure ++ leBytes 2 fr.cfg.again ++ leBytes 2 fr.tag ++
  ob.flatMap (fun v => leBytes 2 v.toNat) ++ leBytes 2 (toBits 16 fr.theta) ++
  leBytes 2 (min dyn 65535) ++ leBytes 4 st.skipped

/-- The flicker result of a frame (R250). What NONE concerns is f*, φ, A and the ratio; what NO_GRID concerns is f_grid,
φ, the ratio and t_zc (log 120). -/
def State.flickerBlock (s : State) (c : ObjCfg) (e : PixEnv) (fr : FrameSt) : List Byte :=
  let t0 := fr.time + modeOb c.mode * modeLine c.mode
  let zs := s.img.crossings.filter (fun z => z ≤ t0)
  let noGrid := c.flickerCh == 0xFF || (match zs with | z :: _ => z + 100000000 < t0 | [] => true)
  let tzc := zs.headD 0
  let fit := flickerFit (flickerRows e) ((t0 : Int) - tzc) (modeLine c.mode)
  let amp := fit.2.2.1
  let none_ := amp < c.flickerMin || fit.2.2.2
  let z8 := (zs.take 8)
  let fgrid :=
    if noGrid then 0
    else if z8.length = 8 ∧ z8.getD 7 0 < tzc then 1000000000000 * 7 / (tzc - z8.getD 7 0)
    else (Config.freeWord (s.freeCtr * 2 ^ 48 + 2 ^ 40)).toNat % 2 ^ 32
  let f := if none_ then 0 else fit.1 * 250
  fitBytes 64 (leBytes 4 f ++ leBytes 4 fgrid ++
    leBytes 2 (if none_ || noGrid then 0 else fit.2.1) ++
    leBytes 2 (if none_ then 0 else min amp 65535) ++
    leBytes 2 (if fgrid = 0 then 0 else f * 256 / fgrid) ++
    leBytes 2 ((if none_ then 1 else 0) + (if noGrid then 2 else 0)) ++
    leBytes 8 (if noGrid then 0 else tzc))

/-- The statistics block of a frame, written to the ring of four and reported (R249). -/
def State.statsBlock (s : State) (c : ObjCfg) (e : PixEnv) (fr : FrameSt) : State :=
  let a := otherBase + fr.seq % 4 * 16384
  let cells := (List.range 24).flatMap (fun gy => (List.range 32).flatMap (fun gx => gridCell e gx gy))
  let bs := fitBytes 64 (leBytes 4 fr.seq ++ zeroBytes 4 ++ leBytes 8 fr.tick) ++
    (histogram e c).flatMap (leBytes 4) ++ cells ++ s.flickerBlock c e fr ++
    fitBytes 64 (e.ob.flatMap (fun v => leBytes 2 v.toNat) ++ leBytes 2 (toBits 16 fr.theta)) ++
    zeroBytes 2880
  let s := (s.writeB a bs).drawn 1
  s.eventAt 0x0020 0x0205 fr.time fr.tick 0 16384 (leBytes 4 fr.seq ++ zeroBytes 4 ++ leBytes 8 a)

/-- The static defects of a frame's first `n` active rows (R238). -/
def staticCount (e : PixEnv) (n : Nat) : Nat :=
  (List.range n).foldl (fun a y => a + ((List.range e.w).filter (fun x => e.defective x y)).length) 0

/-- The replacements of a frame's first `n` rows counted (R260). -/
def State.countDefects (s : State) (e : PixEnv) (n : Nat) : State :=
  (s.count srcImg iStatic (staticCount e n)).count srcImg iDyn (dynCount e n)

/-- The readout has ended, after `n` active rows: the streams' last groups, the records, the frame's statistics (R248,
R249). -/
def State.endFrame (s : State) (c : ObjCfg) (fr : FrameSt) (n : Nat) (cause : Option Nat) : State :=
  let s := s.finishStreams c fr n
  let e := s.frameEnv c fr n
  let dyn := dynCount e n
  let s := s.countDefects e n
  let s := (List.range 5).foldl (fun s k =>
    let i := fin5s k
    let sc := c.stream i
    if sc.kind = 0 then s
    else
      let s := match cause with
        | some q => s.truncate i q
        | none => if s.img.streams[i].lines < sc.lines then s.truncate i 0 else s
      let st := s.img.streams[i]
      let s := s.eventAt 0x0020 (srcImg + k) fr.time fr.tick (frameFlags fr st) 0
        (framePayload c sc fr st e.ob dyn)
      s.updStream i (fun x => { x with skipped := 0 })) s
  let s := if bitOf c.flags 3 then s.statsBlock c e fr else s.drawn 1
  s.updImg (fun m => { m with frame := none })

/-- Active rows among those read of a frame. -/
def FrameSt.activeRows (fr : FrameSt) (c : ObjCfg) : Nat :=
  min (modeH c.mode) (fr.rows.length - modeOb c.mode)

/-- The frame in readout is cut at the end of its row in progress (R252, R254). -/
def State.cutFrame (s : State) (rows : List RawRow) (cause : Nat) : State :=
  match s.img.cfg, s.img.frame with
  | some c, some fr =>
    let fr := { fr with rows := fr.rows ++ rows }
    s.endFrame c fr (fr.activeRows c) (some cause)
  | _, _ => s

/-! ### Frame starts -/

/-- A set merged into the settings field by field (R233). -/
def Settings.merge (a : Settings) (p : SensorSet) : Settings :=
  ⟨if bitOf p.valid 0 then p.exposure else a.exposure, if bitOf p.valid 1 then p.again else a.again,
   if bitOf p.valid 2 then p.dgain else a.dgain, if bitOf p.valid 3 then p.wb else a.wb,
   if bitOf p.valid 4 then p.black else a.black⟩

/-- A frame start tick at which no frame is read (R227). -/
def State.skipSlot (s : State) : State :=
  (s.updImg (fun m => { m with streams := m.streams.map (fun x => { x with skipped := x.skipped + 1 }) })).count
    srcImg iSkipped 1

/-- The sets that reach the frame of a tick, in order of acceptance. -/
def State.setsFor (s : State) (t : Nat) : List SensorSet := s.img.sets.filter (fun p => p.planned ≤ t)

/-- The settings of the frame that starts at a tick (R232, R233). -/
def State.settingsFor (s : State) (t : Nat) : Settings := (s.setsFor t).foldl Settings.merge s.img.now

/-- The settings of a later frame start tick `t`, from those of the tick `t0` before it. -/
def laterSettings (a : Settings) (sets : List SensorSet) (t0 t : Nat) : Settings :=
  (sets.filter (fun p => t0 < p.planned && p.planned ≤ t)).foldl Settings.merge a

/-- The sensor's settings for a frame that starts at a tick: what earlier frames' write windows gave it, or, behind
skipped slots, what the device writes before the reset of row 0 (R229, R233). -/
def State.sensorSettings (s : State) (t : Nat) : Settings :=
  let a := s.settingsFor t
  match s.img.pipe with
  | some p => if p.slot = t then { a with exposure := p.exp1, again := p.gain1 } else a
  | none => a

/-- What the write window of the frame at a tick gives the sensor: the exposure of the second frame start tick after it
and the analog gain of the next (R229, R232). -/
def State.writeWindow (s : State) (c : ObjCfg) (t : Nat) : SensorPipe :=
  let n1 := laterSettings (s.settingsFor t) s.img.sets t (t + c.frameTicks)
  let n2 := laterSettings n1 s.img.sets (t + c.frameTicks) (t + 2 * c.frameTicks)
  let exp1 := match s.img.pipe with
    | some p => if p.slot = t then p.exp2 else n1.exposure
    | none => n1.exposure
  ⟨t + c.frameTicks, exp1, n2.exposure, n1.again⟩

/-- A set reaches the frame of a tick later than asked (R232, R233). -/
def SensorSet.tooLate (p : SensorSet) (t : Nat) : Bool := !p.anyFrame && (p.late || p.planned != t)

/-- A reading of the pixel-die temperature (R237, R253, R260). -/
def State.readTheta (s : State) (theta : Int) : State :=
  let cross := decide (1360 < theta) && !s.img.hot
  let s := s.updImg (fun m => { m with
    theta := theta, hot := decide (1360 < theta), tempMax := max m.tempMax theta })
  if cross then s.fault 0x0313 srcImg 4 0 0 [] else s

/-- Readout of a normal frame begins (R226, R228, R233, R237, R253, R256). -/
def State.startFrame (s : State) (c : ObjCfg) (t time : Nat) (theta : Int) : State :=
  let reach := s.setsFor t
  let late := reach.any (fun p => p.tooLate t)
  let cfg := s.sensorSettings t
  let pipe := s.writeWindow c t
  let emax := s.expMax c
  let cal := match s.img.calNext with | some k => some k | none => s.img.cal
  let fr : FrameSt :=
    { tick := t, time := time, seq := s.img.nextSeq
      cfg := { cfg with exposure := min cfg.exposure emax, again := if c.mode = 2 then 256 else cfg.again }
      tag := match reach.getLast? with | some p => p.tag | none => 0
      tooLate := late, settling := s.img.settling, clamped := emax < cfg.exposure
      noCal := cal.isNone
      calClamp := match cal with | some k => colClamped (k.table c.mode) theta | none => false
      tempHigh := 1360 < theta, theta := theta, rows := [] }
  let s := ((s.count srcImg iFrames 1).count srcImg iSets reach.length).count srcImg iLate
    (reach.filter (fun p => p.tooLate t)).length
  let s := s.updImg (fun m => { m with
    mode := .normal, pipe := some pipe, frame := some fr, nextSeq := (m.nextSeq + 1) % 2 ^ 32
    sets := m.sets.filter (fun p => t < p.planned), now := cfg, settling := false
    streams := m.streams.map (fun x => { x with lines := 0, trunc := none, bad := false })
    cal := cal, calNext := none })
  s.readTheta theta

/-- A normal frame can start at a tick in the sensor's mode (R252, R255). -/
def State.frameReady (s : State) (c : ObjCfg) (t time : Nat) : Bool :=
  match s.img.mode with
  | .normal => true
  | .leaving since => since + 5000000 ≤ time
  | .returning since =>
    since + 100000 + min (s.settingsFor t).exposure (s.expMax c) * modeLine c.mode ≤ time
  | _ => false

/-- At a tick edge: a frame starts, or its slot is skipped (R226, R227). -/
def State.frameEdge (s : State) (t time : Nat) (theta : Int) : State :=
  match s.img.cfg with
  | some c =>
    if t % c.frameTicks = 0 && !s.img.stopping then
      let s := match s.img.frame with
        | some fr => s.endFrame c fr (fr.activeRows c) none
        | none => s
      if s.frameReady c t time && !s.err.isolated.getLsbD 4 then s.startFrame c t time theta
      else s.skipSlot
    else s
  | none => s

/-! ### The schedule's hold on the sensor -/

def Settings.ofCfg (c : ObjCfg) : Settings := ⟨c.exposure, c.again, c.dgain, c.wb, c.black⟩

/-- A configuration takes effect at a start tick (R258; 02 R61): FRAME_SEQ and the settings start again, the
next frame is SETTLING (R255), and a missing calibration is reported (R257). Sets that are queued stay, and those whose
targets fall before the first frame are applied to it (R255; log 163). An analog gain given in HDR mode serves
the next other configuration (R228; log 122). -/
def State.objectiveStart (s : State) (c : Option ObjCfg) : State :=
  match c with
  | none => s.updImg (fun m => { m with cfg := none, stopping := false })
  | some c =>
    let a := Settings.ofCfg c
    let s := s.updImg (fun m => { m with
      cfg := some c, nextSeq := 0, settling := true, pipe := none
      now := if c.mode = 2 then a else { a with again := m.keptAgain.getD a.again }
      keptAgain := if c.mode = 2 then m.keptAgain else none
      streams := m.streams.map (fun _ => StreamSt.reset), stopping := false })
    if s.img.cal.isNone && s.img.calNext.isNone then s.fault 0x0312 srcImg 4 1 0 [] else s

/-- Entry to standby (R254): the frame in readout is cut with cause 2; a burst is given up (log 25). -/
def State.sensorStandby (s : State) (rows : List RawRow) : State :=
  match s.img.mode with
  | .off | .standby => s
  | _ => (s.cutFrame rows 2).updImg (fun m => { m with mode := .standby, stopping := false })

/-- The sensor has a reason to be out of standby (R254). -/
def State.sensorWanted (s : State) : Bool :=
  s.img.cfg.isSome && s.sched.running && s.pwr.shed < 2 && s.pwr.phase == .running &&
    !s.err.isolated.getLsbD 4 && s.isReady 9

/-! ### Parameter sets -/

/-- The earliest frame start tick for which a set accepted at a TIME is in time: `lead` frame slots before it, less
200 us (R232). -/
def State.earliestFrame (s : State) (c : ObjCfg) (at_ lead : Nat) : Nat → Nat → Nat
  | 0, t => t
  | n + 1, t =>
    if at_ + 200000 ≤ s.tickTime (t - lead * c.frameTicks) then t
    else s.earliestFrame c at_ lead n (t + c.frameTicks)

/-- SET_SENSOR on its 32 bytes, accepted at a TIME: status, planned tick, state (R230 to R232). -/
def State.setSensorSet (s : State) (at_ : Nat) (b : List Byte) : Nat × Nat × State :=
  match s.img.cfg with
  | none => (0x0300, 0, s)
  | some c =>
    if !s.sched.running then (0x0300, 0, s)
    else
      let target := fieldLe b 0 8
      let tag := fieldLe b 8 2
      let valid := fieldLe b 0x0A 2
      let exposure := fieldLe b 0x0C 4
      let again := fieldLe b 0x10 2
      let dgain := fieldLe b 0x12 2
      let wb := (List.range 4).map (fun i => fieldLe b (0x14 + 2 * i) 2)
      let black := fieldLe b 0x1C 2
      let bad := tag == 0 || valid == 0 || 32 ≤ valid || fieldLe b 0x1E 2 != 0 ||
        (bitOf valid 0 && !(2 ≤ exposure && exposure ≤ 65535)) ||
        (bitOf valid 1 && !(256 ≤ again && again ≤ 4096)) ||
        (bitOf valid 2 && dgain < 4096) ||
        (bitOf valid 3 && wb.any (fun v => v < 1024)) ||
        (bitOf valid 4 && (if c.mode = 2 then 16383 else 1023) < black)
      if bad then (0x0301, 0, s)
      else if target != 0 && target % c.frameTicks != 0 then (0x0302, 0, s)
      else if 16 ≤ s.img.sets.length then (0x0303, 0, s)
      else
        let lead := if bitOf valid 0 then 2 else 1
        let inTime := at_ + 200000 ≤ s.tickTime (target - lead * c.frameTicks)
        let first := roundUp (s.tickOf at_ + 1) c.frameTicks
        let planned := if target != 0 && inTime then target else s.earliestFrame c at_ lead 4 first
        let p : SensorSet :=
          ⟨planned, !inTime, target == 0, tag, valid, exposure, again, dgain, wb, black⟩
        (0, planned, s.updImg (fun m => { m with
          sets := m.sets ++ [p], keptAgain := if c.mode = 2 && bitOf valid 1 then some again else m.keptAgain }))

/-! ### Bursts -/

/-- A trigger on its way to the Objective (R251). -/
def State.burstTrigger (s : State) (t : BurstTrig) : State :=
  s.updImg (fun m => { m with trigs := m.trigs ++ [t] })

/-- Window origin: even, inside the active area (R251). -/
def burstOrigin (x y : Nat) : Nat × Nat := (min (x / 2 * 2) 7168, min (y / 2 * 2) 5120)

/-- The burst partition of a configuration. -/
def State.burstPart (s : State) (c : ObjCfg) : Option Partition :=
  match s.sched.active with
  | some im => im.parts.find? (fun p => p.id == c.partition)
  | none => none

/-! ### The commands -/

/-- LINE_GROUP_COMPLETE (R244 to R247): rows read since the last command, then the stream's next group when
every row that can contribute to it has been read. -/
def execLineGroupComplete (st : Fin 5) (rows : List RawRow) (s : State) :
    Host.Outcome State Fault Refusal :=
  match s.img.cfg, s.img.frame with
  | some c, some fr =>
    let fr := { fr with rows := fr.rows ++ rows }
    let s := s.updImg (fun m => { m with frame := some fr })
    let sc := c.stream st
    let x := s.img.streams[st]
    let hi := min (x.lines + sc.lpg) sc.lines
    let need := min (modeH c.mode) ((groupRows sc x.lines hi).2 + sc.margin)
    if sc.kind = 0 || x.trunc.isSome || hi ≤ x.lines || fr.activeRows c < need then .next s
    else .next ((s.deliverGroup c (s.frameEnv c fr (modeH c.mode)) fr st x.lines hi).drawn 1)
  | _, _ => .next s

/-- FRAME_END (R248, R249): the last rows, then the records; the sensor goes to standby when STOP has taken
effect (R254). -/
def execFrameEnd (rows : List RawRow) (s : State) : Host.Outcome State Fault Refusal :=
  match s.img.cfg, s.img.frame with
  | some c, some fr =>
    let fr := { fr with rows := fr.rows ++ rows }
    let s := s.endFrame c fr (fr.activeRows c) none
    .next (if s.img.stopping then s.updImg (fun m => { m with mode := .standby, stopping := false, cfg := none })
           else s)
  | _, _ => .next s

/-- TIME at which the row in progress of a frame ends, or the given TIME itself between frames (R252 step 1). -/
def FrameSt.rowEnd (fr : FrameSt) (c : ObjCfg) (t : Nat) : Nat :=
  let l := modeLine c.mode
  if t < fr.time + (modeOb c.mode + modeH c.mode) * l then fr.time + ceilDiv (t - fr.time) l * l else t

/-- TIME of burst frame 0: the stop, 200 us for programming, and the exposure (R252 steps 2 and 3). -/
def State.burstStart (s : State) (c : ObjCfg) : Nat :=
  let stop := match s.img.frame with
    | some fr => fr.rowEnd c s.tk.now
    | none => s.tk.now
  stop + 200000 + c.burstExposure * 720

/-- BURST_TRIGGER (R251, R252): the oldest trigger on its way starts a burst, cutting the frame in readout, or is
ignored. `theta` is the pixel-die temperature at burst entry (R237). -/
def execBurstTrigger (theta : Int) (rows : List RawRow) (s : State) : Host.Outcome State Fault Refusal :=
  match s.img.trigs with
  | [] => .next s
  | t :: ts =>
    let s := s.updImg (fun m => { m with trigs := ts })
    let ignored := (s.count srcImg iBurstIgnored 1).tickFault 0x0311 0x0206 4 4 0
    match s.img.cfg with
    | none => .next ignored
    | some c =>
      if bitOf c.flags 4 && s.img.mode == .normal && s.img.burstOut.isNone then
        let time0 := s.burstStart c
        let s := (s.cutFrame rows 1).readTheta theta
        let n := if t.frames = 0 then c.burstFrames else min t.frames c.burstFrames
        let o := burstOrigin t.x t.y
        .next ((s.updImg (fun m => { m with
          mode := .burst ⟨{ t with x := o.1, y := o.2, frames := n }, theta, 0, 0, time0, 0, []⟩ })).count
            srcImg iBursts 1)
      else .next ignored

/-- Storage byte `n` of a partition (06 R157). -/
def Partition.storage (p : Partition) (n : Nat) : Nat :=
  if p.kind = 0 then p.base + n else p.base + n / 16384 * 65536 + p.prism * 16384 + n % 16384

/-- The burst ring in the line store (R244), of 512 rows. -/
def burstRing : Nat := 0x001100100000

/-- Bytes of the burst ring whose write into HBM has not been granted. -/
def State.burstHeld (s : State) : Nat :=
  (s.hbm.stalled.filter (fun x => x.user == .burst)).foldl (fun n x => n + x.bytes.length) 0

/-- Rows of a burst frame, from row `y` on, pass through the burst ring to HBM until the ring has no room (R252 steps 4
and 5; log 123): how many did. -/
def State.burstRows (s : State) (p : Partition) (k ring y : Nat) : List (List Byte × Bool) → Nat × State
  | [] => (y, s)
  | (bs, bad) :: rs =>
    if 0x100000 < s.burstHeld + 2048 then (y, s)
    else
      let bads := if bad then List.range 64 else []
      let s := s.writeMarked (burstRing + (ring + y) % 512 * 2048) bs bads
      (s.arrive ⟨.burst, p.storage (k * 2097152 + y * 2048), bs, bads, none⟩).burstRows p k ring (y + 1) rs

/-- A new calibration bundle takes effect at a frame start (R256). -/
def State.takeCal (s : State) : State :=
  match s.img.calNext with
  | some k => s.updImg (fun m => { m with cal := some k, calNext := none })
  | none => s

/-- One burst frame of 1,024 rows of 2,048 bytes at its TIME: its rows go through the burst ring, and the frame enters
the index (R252, R260). -/
def State.burstFrame (s : State) (c : ObjCfg) (b : Burst) (p : Partition) (rows : List RawRow) (lines : Nat) :
    State :=
  let t := b.time0 + b.done * 1000000
  let s := (s.setTime (max s.tk.now t)).takeCal
  let e := mkEnv 3 c.flags c.dynThresh c.ccm { s.img.now with again := c.burstAgain } s.img.cal
    b.theta rows 1024 b.trig.x b.trig.y s.freeCtr
  let rs := (List.range (min lines 1024)).map (fun y =>
    ((List.range 1024).flatMap (fun x => leBytes 2 (e.tap c.burstTap x y).toNat),
      (rows.getD (16 + y) ⟨[], [], false⟩).bad))
  let (n, s) := (s.countDefects e 1024).burstRows p b.done b.row 0 rs
  let s := s.count srcImg iBurstFrames 1
  let dropped := decide (n < 1024)
  let s := if dropped then s.count srcImg iBurstDropped 1 else s
  (s.updImg (fun m => { m with mode := .burst { b with
    done := b.done + 1
    dropped := b.dropped + (if dropped then 1 else 0)
    row := b.row + n
    index := b.index ++ [(t, n)] } })).drawn 1

/-- BURST_FRAME_START (R252): a burst frame's readout begins, and its tap is written to the burst partition; `lines` are
the rows before the burst ring first had no room for another reason than the bucket. -/
def execBurstFrameStart (rows : List RawRow) (lines : Nat) (s : State) :
    Host.Outcome State Fault Refusal :=
  match s.img.cfg, s.img.mode with
  | some c, .burst b =>
    if b.trig.frames ≤ b.done then .next s
    else match s.burstPart c with
      | none => .next s
      | some p => .next (s.burstFrame c b p rows lines)
  | _, _ => .next s

/-- One entry of the burst index (R252 step 4). -/
def burstEntry (k : Nat) (p : Nat × Nat) : List Byte :=
  leBytes 8 p.1 ++ leBytes 2 k ++ leBytes 2 p.2 ++ zeroBytes 4

/-- BURST_DONE is placed once the index of a burst that is over has been written (R252 step 7). -/
def State.burstDone (s : State) : State :=
  match s.img.cfg, s.img.burstOut with
  | some c, some b =>
    if s.hbm.stalled.any (fun x => x.user == .burst) then s
    else (s.updImg (fun m => { m with burstOut := none })).event 0x0021 0x0206 0
      (leBytes 4 c.partition ++ leBytes 2 b.done ++ leBytes 2 b.dropped ++ leBytes 8 b.time0 ++
       leBytes 2 b.trig.x ++ leBytes 2 b.trig.y ++ leBytes 1 b.trig.source ++ leBytes 1 b.trig.index ++
       zeroBytes 2 ++ leBytes 8 b.trig.time)
  | _, _ => s

/-- The sensor returns to normal mode, and the index follows the burst's frames into HBM, joined with what stands beside
it in its last 64 bytes (R252 steps 4 and 6). -/
def State.closeBurst (s : State) (c : ObjCfg) (b : Burst) (p : Partition) : State :=
  let tEnd := b.time0 + (b.done - 1) * 1000000 + 748800
  let s := s.setTime (max s.tk.now tEnd)
  let idx := (List.range b.index.length).flatMap (fun k => burstEntry k (b.index.getD k (0, 0)))
  let a := p.storage (c.burstFrames * 2097152)
  let len := (idx.length + 63) / 64 * 64
  let bs := idx ++ (s.readB a len).drop idx.length
  let s := s.updImg (fun m => { m with mode := .returning tEnd, burstOut := some b })
  (s.arrive ⟨.burst, a, bs, [], none⟩).burstDone

/-- BURST_END (R252): after the last frame the index is written, BURST_DONE is placed, and the sensor returns
to normal mode. -/
def execBurstEnd (s : State) : Host.Outcome State Fault Refusal :=
  match s.img.cfg, s.img.mode with
  | some c, .burst b =>
    if b.done < b.trig.frames then .next s
    else match s.burstPart c with
      | none => .next s
      | some p => .next (s.closeBurst c b p)
  | _, _ => .next s

/-- SENSOR_STANDBY_EXIT (R255): the exit begins when nothing keeps the sensor in standby. -/
def execSensorStandbyExit (s : State) : Host.Outcome State Fault Refusal :=
  match s.img.mode with
  | .standby =>
    .next (if s.sensorWanted then
      s.updImg (fun m => { m with mode := .leaving s.tk.now, settling := true }) else s)
  | _ => .next s

end Sys2Proof.Machine
end

