-- ==== Sys2Proof/Machine/Templates.lean ====
section
/-! DEFINITION. Ports and event templates (11 R295 to R300, R306 to R309). -/

namespace Sys2Proof.Machine

def State.updNet (s : State) (g : Net → Net) : State := { s with net := g s.net }

def fin2 (n : Nat) : Fin 2 := ⟨n % 2, Nat.mod_lt _ (by decide)⟩
def fin32 (n : Nat) : Fin 32 := ⟨n % 32, Nat.mod_lt _ (by decide)⟩
def fin64 (n : Nat) : Fin 64 := ⟨n % 64, Nat.mod_lt _ (by decide)⟩

def State.updPort (s : State) (p : Fin 2) (g : Port → Port) : State :=
  s.updNet (fun n => { n with port := n.port.set p (g n.port[p]) })

/-- One installed template changed, installed or removed. -/
def State.setTmpl (s : State) (t : Fin 32) (v : Option EvTmpl) : State :=
  s.updNet (fun n => { n with tmpl := n.tmpl.set t v })

def State.updTmpl (s : State) (t : Fin 32) (g : EvTmpl → EvTmpl) : State :=
  s.setTmpl t ((s.net.tmpl[t]).map g)

/-- One transmit queue of a port replaced. -/
def Port.setQ (x : Port) (q : Fin 8) (fs : List Frame) : Port :=
  { x with txq := x.txq.set q fs }

/-- Event sources and counter indices (12 R347, 11 R317; log 20). -/
def srcPort (p : Fin 2) : Nat := 0x0400 + p.val
def nRx : Nat := 0
def nTx : Nat := 1
def nDiscard : Nat := 2
def nFcs : Nat := 3
def nDowns : Nat := 4
def nBytes (q : Nat) : Nat := 5 + q
def srcTmpl (t : Fin 32) : Nat := 0x0440 + t.val
def tFired : Nat := 0
def tSent : Nat := 1
def tDropped : Nat := 2
def tMissed : Nat := 3

/-- Edge is isolated, so nothing is sent (16 R454). -/
def State.edgeOut (s : State) : Bool := s.err.isolated.getLsbD 6

/-- A frame put into a transmit queue of a port that is up; the flag says that it was. -/
def State.enqueue (s : State) (p : Fin 2) (q : Nat) (f : Frame) : Bool × State :=
  if s.net.port[p].up && !s.edgeOut then
    (true, s.updPort p (fun x => x.setQ (fin8 q) (x.txq[fin8 q] ++ [f])))
  else (false, s)

/-! ### Patching (R307) -/

/-- Bytes of a value in a patch's ORDER. -/
def patchOrder (p : Patch) (v : Nat) : List Byte :=
  if p.order = 0 then leBytes p.len v else beBytes p.len v

/-- What a TIME patch writes: ns, or seconds and ns as two 32-bit fields. The spec gives no bytes for ARG 1
with another LEN than 8: free (log 4). -/
def patchTime (ctr : Nat) (p : Patch) (time : Nat) : List Byte :=
  if p.arg = 1 then
    if p.len = 8 then
      let s := time / 1000000000
      let n := time % 1000000000
      if p.order = 0 then leBytes 4 s ++ leBytes 4 n else beBytes 4 s ++ beBytes 4 n
    else (freeUnit ctr 0).take p.len
  else patchOrder p time

/-- Ones'-complement sum of 16-bit big-endian words. -/
def onesSum : List Byte → Nat → Nat
  | [], a => a
  | [x], a => onesFold (a + x.toNat * 256)
  | x :: y :: rest, a => onesSum rest (onesFold (a + x.toNat * 256 + y.toNat))
where
  onesFold (v : Nat) : Nat := v % 65536 + v / 65536

/-- The bytes of one patch for a transmission; `counter` is the patch's own counter. -/
def patchValue (ctr : Nat) (p : Patch) (f : Firing) (counter index : Nat) : List Byte :=
  if p.source = 0 ∨ p.source = 3 then patchOrder p counter
  else if p.source = 1 then patchTime ctr p f.time
  else if p.source = 2 then patchOrder p (fieldLe f.payload p.arg p.len)
  else if p.source = 4 then patchOrder p f.tick
  else patchOrder p index

/-- A template's frame patched for transmission `index`; checksums last (R307). -/
def EvTmpl.patched (t : EvTmpl) (ctr : Nat) (f : Firing) (index : Nat) : List Byte :=
  let ps := t.patches.zip t.counters
  let fr := (ps.filter (fun x => x.1.source != 6)).foldl (fun fr x =>
    patchBytes fr x.1.offset (patchValue ctr x.1 f x.2 index)) t.frame
  (ps.filter (fun x => x.1.source == 6)).foldl (fun fr x =>
    let sum := onesSum ((fr.take x.1.offset).drop (x.1.arg * 2)) 0
    patchBytes fr x.1.offset (beBytes 2 (65535 - sum))) fr

/-- The LABEL bytes of a firing: those of every LABEL patch (R307). -/
def EvTmpl.label (t : EvTmpl) (f : Firing) : List Byte :=
  (t.patches.filter (fun p => p.source == 2)).flatMap (fun p => (f.payload.drop p.arg).take p.len)

/-- The counters at a new firing: STATE increments, and SEQ goes back to INIT when it does (R307). -/
def EvTmpl.newFiring (t : EvTmpl) (f : Firing) : EvTmpl :=
  let lab := t.label f
  let differs := match t.lastLabel with | some l => l != lab | none => false
  let inc (p : Patch) : Bool := p.source == 3 && (p.arg == 1 || differs)
  let any := t.patches.any inc
  { t with
    counters := List.zipWith (fun p c =>
      if inc p then (c + 1) % 2 ^ (8 * p.len) else if any && p.source == 0 then p.init else c)
      t.patches t.counters
    lastLabel := some lab, firing := some f, sent := 0 }

/-- SEQ incremented (R307). -/
def EvTmpl.seqNext (t : EvTmpl) : EvTmpl :=
  { t with
    counters := List.zipWith (fun p c => if p.source = 0 then (c + 1) % 2 ^ (8 * p.len) else c)
      t.patches t.counters }

/-- A template after a frame of it has been sent: the transmission's first one on a port increments SEQ (R307). -/
def EvTmpl.frameSent (t : EvTmpl) : EvTmpl :=
  { (if t.unsent then t.seqNext else t) with inQueue := t.inQueue - 1, unsent := false }

/-- One transmission of the firing in progress, on each port in PORTS; a port that is down misses it; the
Aperture judges it as RESULT (R308, R309). -/
def State.transmit (s : State) (k : Fin 32) : State :=
  match s.net.tmpl[k] with
  | none => s
  | some t =>
    match t.firing with
    | none => s
    | some f =>
      let ok := s.classPasses .result t.frame.length
      let s := s.judged .template ok
      if !ok then s
      else
        let fr := Frame.template k.val t.tagged (t.patched s.freeCtr f t.sent)
        let s := s.drawn 1
        let s := (List.range 2).foldl (fun s p =>
          if bitOf t.ports p then
            let (sent, s) := s.enqueue (fin2 p) t.queue fr
            if sent then s.updTmpl k (fun x => { x with inQueue := x.inQueue + 1 })
            else s.count (srcTmpl k) tMissed 1
          else s) s
        s.updTmpl k (fun x => { x with sent := x.sent + 1, unsent := true })

/-- A firing served: repeats still pending are cancelled, transmission 0 goes out (R308). -/
def State.serveFiring (s : State) (k : Fin 32) (f : Firing) : State :=
  (s.updTmpl k (fun t => t.newFiring f)).transmit k

/-- A template fires: served at once, queued behind the frame in the queues, or dropped (R308). -/
def State.fireTemplate (s : State) (k : Fin 32) (f : Firing) : State :=
  match s.net.tmpl[k] with
  | none => s
  | some t =>
    let s := s.count (srcTmpl k) tFired 1
    if t.inQueue = 0 && t.waiting.isEmpty then s.serveFiring k f
    else if t.waiting.length < 4 then
      s.updTmpl k (fun x => { x with waiting := x.waiting ++ [f] })
    else (s.count (srcTmpl k) tDropped 1).tickFault 0x0511 (srcTmpl k) 6 4 0

/-- Every template that a condition names fires. -/
def State.fireWhere (s : State) (p : EvTmpl → Bool) (f : Firing) : State :=
  (List.range 32).foldl (fun s k =>
    match s.net.tmpl[fin32 k] with
    | some t => if p t then s.fireTemplate (fin32 k) f else s
    | none => s) s

/-- Waiting firings are served in turn while no frame of the template is left in a queue: where its ports are down, all of
them are, and are missed (R308). -/
def State.nextFirings (s : State) (k : Fin 32) : Nat → State
  | 0 => s
  | n + 1 =>
    match s.net.tmpl[k] with
    | some t =>
      match t.waiting with
      | f :: fs =>
        if t.inQueue = 0 then
          ((s.updTmpl k (fun x => { x with waiting := fs })).serveFiring k f).nextFirings k n
        else s
      | [] => s
    | none => s

def State.nextFiring (s : State) (k : Fin 32) : State := s.nextFirings k 5

/-! ### Frames on the line (R296, R297, R299, R311) -/

/-- The 32 bytes of a Beam header (R311). -/
def hdrBytes (h : BeamHdr) : List Byte :=
  leBytes 1 h.version ++ leBytes 1 h.kind ++ leBytes 2 h.flags ++ leBytes 1 h.src ++ leBytes 1 h.dst ++
  leBytes 1 h.window ++ zeroBytes 1 ++ leBytes 4 h.seq ++ leBytes 4 h.ack ++ leBytes 4 h.off ++ leBytes 4 h.len ++
  leBytes 4 h.frag ++ leBytes 2 h.plen ++ zeroBytes 2

/-- The fields of a Beam header's bytes (R311). -/
def beamHdrOf (b : List Byte) : BeamHdr where
  version := byteAt b 0
  kind := byteAt b 1
  flags := fieldLe b 2 2
  src := byteAt b 4
  dst := byteAt b 5
  window := byteAt b 6
  seq := fieldLe b 8 4
  ack := fieldLe b 0x0C 4
  off := fieldLe b 0x10 4
  len := fieldLe b 0x14 4
  frag := fieldLe b 0x18 4
  plen := fieldLe b 0x1C 2

/-- The tag of a frame sent from a queue of a port (R297), none for VID 0xFFF. TPID is IEEE 802.1Q's (log 126). -/
def wireTag (vid queue : Nat) : List Byte :=
  if vid = 0xFFF then [] else beBytes 2 0x8100 ++ beBytes 2 (queue * 8192 + vid)

/-- The bytes of a frame on the line from destination address up to the FCS, at least 60 (R296, R297, R311); none for a
PTP frame, whose layout is its standard's. -/
def State.wire (s : State) (port : Fin 2) (queue : Nat) (f : Frame) : Option (List Byte) :=
  let tag := wireTag s.net.port[port].vid queue
  match f with
  | .template _ tagged bs => some (if tagged then bs else bs.take 12 ++ tag ++ bs.drop 12)
  | .beam _ mac h pl _ =>
    let bs := mac ++ s.mac port.val ++ tag ++ beBytes 2 s.beam.ethertype ++ hdrBytes h ++ pl
    some (bs ++ zeroBytes (60 - bs.length))
  | _ => none

/-- What a Beam CONTROL frame says. -/
def Frame.ctl : Frame → Option BeamCtl
  | .beam _ _ _ _ c => c
  | _ => none

/-- A tag that a port accepts: none, VID 0 or the port's (R297). -/
def State.vidOk (s : State) (port : Fin 2) (e : Eth) : Bool :=
  e.vid.all (fun v => v == 0 || (v == s.net.port[port].vid && v != 0xFFF))

/-- A received PTP frame (R299 class 1). -/
def State.ptpClass (s : State) (port : Fin 2) (e : Eth) : Bool :=
  s.vidOk port e && e.etype == 0x88F7 &&
    ([beBytes 6 0x011B19000000, beBytes 6 0x0180C200000E, s.mac port.val].contains e.dst)

/-- A received Beam frame (R299 class 2). -/
def State.beamClass (s : State) (port : Fin 2) (e : Eth) : Bool :=
  s.vidOk port e && e.etype == s.beam.ethertype && e.dst == s.mac port.val

/-- A PAUSE frame (R295, R299 class 3), by the EtherType of MAC Control (log 126). -/
def isPause (e : Eth) : Bool := e.etype == 0x8808

/-- A port that receives: its link is up and Edge is not isolated. -/
def State.portHears (s : State) (p : Fin 2) : Bool := s.net.port[p].up && !s.edgeOut

/-- Bytes of a frame on the line from destination address to FCS (R296). A PTP frame is counted with 68 bytes, its tag
and the FCS (log 126). -/
def State.frameLen (s : State) (port : Fin 2) (queue : Nat) (f : Frame) : Nat :=
  match s.wire port queue f with
  | some bs => max 64 (bs.length + 4)
  | none => 72 + (wireTag s.net.port[port].vid queue).length

/-- Transmit queues from the highest down (R298). -/
def Port.head (p : Port) : Option (Fin 8 × Frame) :=
  (List.range 8).reverse.findSome? (fun q =>
    match p.txq[fin8 q] with
    | f :: _ => some (fin8 q, f)
    | [] => none)

/-! ### Installing (R306, R307) -/

def patchOf (b : List Byte) : Patch :=
  ⟨fieldLe b 0 2, byteAt b 2, byteAt b 3, byteAt b 4, byteAt b 5, fieldLe b 8 8⟩

/-- A patch entry in range (R307; log 28). -/
def patchOk (len : Nat) (b : List Byte) : Bool :=
  let p := patchOf b
  decide (1 ≤ p.len) && decide (p.len ≤ 8) && decide (p.source ≤ 6) && decide (p.order ≤ 1) &&
  decide (p.offset + p.len ≤ len) &&
  (p.source != 6 || (p.len == 2 && decide (p.arg * 2 ≤ p.offset))) &&
  (p.source != 2 || decide (p.arg + p.len ≤ 32)) &&
  ((p.source != 1 && p.source != 3) || decide (p.arg ≤ 1))

def patchesApart (a b : Patch) : Bool :=
  decide (a.offset + a.len ≤ b.offset) || decide (b.offset + b.len ≤ a.offset)

/-- No two patches overlap. -/
def allApart : List Patch → Bool
  | [] => true
  | p :: ps => ps.all (patchesApart p) && allApart ps

/-- A template body of R306 refused or taken. Bits [7:4] of SOURCES, of which it says nothing, are ignored (00 R9). -/
def templateOf (b : List Byte) : Option EvTmpl :=
  let len := fieldLe b 0 2
  let np := byteAt b 4
  let nr := byteAt b 5
  let flags := byteAt b 6
  let sources := fieldLe b 0x10 2
  let pe := (List.range 8).map (fun i => (b.drop (0x20 + 16 * i)).take 16)
  let rs := (List.range 8).map (fun i => fieldLe b (0xA0 + 4 * i) 4)
  let ps := (pe.take np).map patchOf
  let ok := decide (60 ≤ len) && decide (len ≤ 1514) && decide (1 ≤ byteAt b 2) && decide (byteAt b 2 ≤ 3) &&
    decide (byteAt b 3 ≤ 7) && decide (np ≤ 8) && decide (nr ≤ 8) && decide (flags < 4) &&
    byteAt b 7 == 0 && allZero ((b.drop 0x12).take 14) &&
    (pe.take np).all (patchOk len) && (pe.drop np).all allZero && allApart ps &&
    (rs.take nr).all (fun r => 100 ≤ r && r ≤ 60000000) && (rs.drop nr).all (· == 0) &&
    decide (0xC0 + len ≤ b.length)
  if ok then
    some ⟨byteAt b 2, byteAt b 3, nr, bitOf flags 0, bitOf flags 1, fieldLe b 8 8, sources, ps, rs.take nr,
      (b.drop 0xC0).take len, ps.map (·.init), none, none, 0, 0, [], false⟩
  else none

/-- SET_TEMPLATE's effect: pending repeats are cancelled and counters start at INIT (R306). -/
def State.installTemplate (s : State) (t : Fin 32) (b : List Byte) : Nat × State :=
  match templateOf b with
  | none => (0x0510, s)
  | some x =>
    let left := match s.net.tmpl[t] with | some o => o.inQueue | none => 0
    (0, s.setTmpl t (some { x with inQueue := left }))

/-- What a PTP frame carries as it leaves at a stamp: the turnaround of a one-step answer (R301). -/
def Frame.stamped (stamp : Nat) : Frame → Frame
  | .pdelayResp d q rx true _ => .pdelayResp d q rx true (stamp - rx)
  | f => f

/-- The transmit stamp of a PTP frame that has left: of a Pdelay_Req it is kept, of a two-step answer it follows in the
Follow_Up (R301). -/
def State.ptpSent (s : State) (port : Fin 2) (stamp : Nat) : Frame → State
  | .pdelayReq _ q => s.updNet (fun n => { n with ptp := { n.ptp with reqAt := n.ptp.reqAt.set port (some (q, stamp)) } })
  | .pdelayResp d q _ false _ => (s.enqueue port 6 (.pdelayFup d q stamp)).2
  | _ => s

/-- FRAME_TRANSMIT (R298): the oldest frame of the highest non-empty queue leaves. -/
def execFrameTransmit (port : Fin 2) (s : State) : Host.Outcome State Fault Refusal :=
  let p := s.net.port[port]
  match p.head with
  | none => .next s
  | some (q, f) =>
    if !p.up || s.edgeOut then .next s
    else
      let bytes := s.wire port q.val f
      let s := s.updPort port (fun x => x.setQ q (x.txq[q].drop 1))
      let s := (s.count (srcPort port) nTx 1).count (srcPort port) (nBytes q.val) (s.frameLen port q.val f)
      let s := match bytes with
        | some bs => s.emit (.frame port.val q.val bs f.ctl)
        | none => s.emit (.ptpFrame port.val q.val p.vid (f.stamped (s.tk.now / 4 * 4)))
      .next (match f with
        | .template t _ _ =>
          ((s.count (srcTmpl (fin32 t)) tSent 1).updTmpl (fin32 t) (·.frameSent)).nextFiring (fin32 t)
        | _ => s.ptpSent port (s.tk.now / 4 * 4) f)

/-- TEMPLATE_REPEAT (R308): the next transmission of the firing in progress, while repeats are left or the
last interval recurs. It follows the one before it, so not while that stands in a queue; a new firing, one that still waits
too, cancels what is left. -/
def execTemplateRepeat (t : Fin 32) (s : State) : Host.Outcome State Fault Refusal :=
  match s.net.tmpl[t] with
  | some x =>
    if x.firing.isSome && x.waiting.isEmpty && x.inQueue == 0 && 1 ≤ x.sent && (x.sent ≤ x.repeats || (x.heartbeat && 1 ≤ x.repeats))
    then .next (s.transmit t) else .next s
  | none => .next s

/-- DISCARDED_FRAME (R296, R299): a frame of no class that is taken in is counted, as is one of a wrong length or with a
bad FCS; a PAUSE frame is not counted. A frame that is PTP or Beam is not discarded here. -/
def execDiscardedFrame (port : Fin 2) (eth : Eth) (len : Nat) (badFcs : Bool) (s : State) :
    Host.Outcome State Fault Refusal :=
  if !s.portHears port then .next s
  else if badFcs then .next (s.count (srcPort port) nFcs 1)
  else if len < 64 ∨ 9216 < len then .next (s.count (srcPort port) nDiscard 1)
  else if isPause eth || s.ptpClass port eth || s.beamClass port eth then .next s
  else .next (s.count (srcPort port) nDiscard 1)

end Sys2Proof.Machine
end

