-- ==== Sys2Proof/Machine/Network.lean ====
section
/-! DEFINITION. PTP, TIME steps and the event timers (11 R301 to R305; 02 R34, R35). -/

namespace Sys2Proof.Machine

def State.updPtp (s : State) (g : Ptp → Ptp) : State := s.updNet (fun n => { n with ptp := g n.ptp })

/-- One event-timer channel changed. -/
def State.setEt (s : State) (k : Fin 8) (e : EvTimer) : State :=
  s.updNet (fun n => { n with et := n.et.set k e })

def srcTime : Nat := 0x0500
def tmSyncs : Nat := 0
def tmChanges : Nat := 1
def srcEt (k : Fin 8) : Nat := 0x0510 + k.val
def etCaptures : Nat := 0
def etIgnored : Nat := 1

/-- STATE of TIME_STATE (R303). -/
def PtpState.code : PtpState → Nat
  | .free => 0 | .acquiring => 1 | .locked => 2 | .holdover => 3

/-- READY.PTP_LOCK (R303). -/
def PtpState.lock : PtpState → Bool
  | .locked | .holdover => true
  | _ => false

/-- The payload of TIME_STATE (R304). -/
def State.timePayload (s : State) : List Byte :=
  let p := s.net.ptp
  let tlv := match p.gm with | some g => g.inaccuracy | none => none
  let b (v : Bool) (i : Nat) := if v then 2 ^ i else 0
  leBytes 1 p.state.code ++ leBytes 1 (p.slave.getD 0xFF) ++
  leBytes 2 (b s.tk.stepPending.isSome 0 + b p.gmChanged 1 + b tlv.isNone 2) ++
  leBytes 4 (toBits 32 (clampInt (-2147483648) 2147483647 p.offset)) ++
  leBytes 4 (match p.slave with | some i => p.delay[fin2 i] | none => 0) ++
  leBytes 4 (if p.state = .holdover then (s.tk.now - p.since) / 1000000 else 0) ++
  (match p.gm with | some g => beBytes 8 g.identity | none => zeroBytes 8) ++
  leBytes 4 (tlv.getD 0xFFFFFFFF) ++ leBytes 4 (toBits 32 p.adj)

/-- A TIME_STATE event (R304). -/
def State.timeState (s : State) (status : Nat) : State :=
  s.event 0x0040 srcTime (status * 65536) s.timePayload

/-- The clock changes state, with its event (R303, R304). -/
def State.toPtp (s : State) (st : PtpState) (status : Nat) : State :=
  if s.net.ptp.state = st then s
  else
    let s := s.updPtp (fun p => { p with state := st, good := 0, bad := 0, since := s.tk.now })
    let s := { s with ready := (s.setReady 14 st.lock).ready }
    (s.count srcTime tmChanges 1).timeState status

/-! ### Steps of TIME (02 R35, 11 R305) -/

/-- Instant of a channel's m-th event (R305). -/
def EvTimer.instant (e : EvTimer) (m : Nat) : Nat := e.start + m * e.period / 256

/-- Number of the first event at or after an instant. -/
def EvTimer.after (e : EvTimer) (t : Nat) : Nat :=
  if t ≤ e.start then 0
  else if e.mode = 1 ∧ 0 < e.period then ((t - e.start) * 256 + e.period - 1) / e.period
  else 1

/-- TIME stepped to `t` while no schedule runs: the tick in progress follows TIME (02 R33), events passed are
not moved, and events that the step skips are not made (R305). -/
def State.stepTime (s : State) (t0 : Nat) : State :=
  let t := t0 % 2 ^ 64
  let s := s.setTime t
  let n := s.tk.rate
  let k := tickAt n t
  let s := { s with tk := { s.tk with
    tick := k, sec := t / 1000000000, k := k % n, edge := edgeAt n k, stepPending := none } }
  s.updNet (fun m => { m with et := m.et.map (fun e => { e with next := max e.next (e.after t) }) })

/-- The servo's step applied once no schedule runs (02 R35). -/
def State.applyStep (s : State) : State :=
  match s.tk.stepPending with
  | some o =>
    if s.runningImage.isSome then s
    else (s.stepTime ((s.tk.now : Int) - o).toNat).timeState 0
  | none => s

/-- The servo takes an offset: a step when it exceeds 1 ms, at once or once no schedule runs, else slewing
(R302, 02 R35). -/
def State.servo (s : State) (o : Int) : State :=
  let s := s.updPtp (fun p => { p with
    offset := o, adj := clampInt (-13107200) 13107200 (Config.servoAdj o p.adj) })
  if 1000000 < o.natAbs then
    let was := s.tk.stepPending.isSome
    let s := { s with tk := { s.tk with stepPending := some o } }
    if s.runningImage.isSome then (if was then s else s.timeState 0)
    else s.applyStep
  else if s.tk.stepPending.isSome then
    ({ s with tk := { s.tk with stepPending := none } }).timeState 0
  else s

/-- GM_CHANGED cleared once the new master is held for 8 good intervals (log 26). -/
def State.settleGm (s : State) : State :=
  if s.net.ptp.gmChanged then (s.updPtp (fun p => { p with gmChanged := false })).timeState 0 else s

/-- One Sync interval's offset from master (R302, R303). -/
def State.ptpOffset (s : State) (o : Int) : State :=
  let p := s.net.ptp
  let good := if o.natAbs ≤ 100 then p.good + 1 else 0
  let bad := if 1000 < o.natAbs then p.bad + 1 else 0
  let s := (s.updPtp (fun q => { q with good := good, bad := bad })).servo o
  if p.state = .acquiring ∧ 8 ≤ good then (s.toPtp .locked 0).settleGm
  else if p.state = .locked ∧ 4 ≤ bad then s.toPtp .acquiring 0
  else if p.state = .locked ∧ 8 ≤ good then s.settleGm
  else s

/-! ### Best master (R301) -/

/-- The default data set comparison: lexicographic, then the fewer steps (log 26). -/
def annBetter (a b : Announce) : Bool :=
  let ks (x : Announce) : List Nat :=
    [x.prio1, x.cls, x.accuracy, x.variance, x.prio2, x.identity, x.steps]
  match ((ks a).zip (ks b)).find? (fun p => p.1 != p.2) with
  | some p => decide (p.1 < p.2)
  | none => false

/-- Of two candidates, each a port, a sender and its Announce, the better; the first on a tie (log 26). -/
def betterOf (a : Option (Nat × Nat × Announce)) (b : Nat × Nat × Announce) : Option (Nat × Nat × Announce) :=
  match a with
  | some x => if annBetter b.2.2 x.2.2 then some b else some x
  | none => some b

/-- The slave port and its master: the best of all masters heard on the two ports (R301). -/
def Ptp.best (p : Ptp) : Option (Nat × Nat × Announce) :=
  ((p.masters[0]).map (fun m => (0, m)) ++ (p.masters[1]).map (fun m => (1, m))).foldl betterOf none

/-- The Announce of a sender heard on a port. -/
def Ptp.hear (p : Ptp) (port : Fin 2) (src : Nat) (a : Announce) : Ptp :=
  { p with masters := p.masters.set port ((p.masters[port]).filter (fun m => m.1 != src) ++ [(src, a)]) }

/-- The selection made anew: a different grandmaster sets GM_CHANGED (R303). -/
def State.selectMaster (s : State) : State :=
  match s.net.ptp.best with
  | none => s.updPtp (fun p => { p with slave := none, master := none, gm := none, syncWait := none })
  | some (i, src, g) =>
    let p := s.net.ptp
    let changed := match p.lastGm with | some l => l != g.identity | none => false
    let s := s.updPtp (fun p => { p with
      slave := some i, master := some src, gm := some g, lastGm := some g.identity
      gmChanged := p.gmChanged || changed
      good := if changed then 0 else p.good
      syncWait := if p.slave = some i ∧ p.master = some src then p.syncWait else none })
    if p.state = .holdover then s.toPtp .acquiring 0
    else if changed && !p.gmChanged then s.timeState 0
    else s

/-- The selected master is lost: HOLDOVER from LOCKED, until another one that is known is selected (R303). -/
def State.masterLost (s : State) (port : Nat) : State :=
  let s := s.updPtp (fun p => { p with
    masters := p.masters.set (fin2 port) ((p.masters[fin2 port]).filter (fun m => some m.1 != p.master)) })
  let s := s.updPtp (fun p => { p with slave := none, master := none, gm := none, syncWait := none })
  let s := if s.net.ptp.state = .locked then s.toPtp .holdover 0x0540 else s
  if s.net.ptp.best.isSome then s.selectMaster else s

/-! ### Commands -/

/-- The stamp of an event message that is sent or received now, to 4 ns (R301, R302). -/
def State.stamp (s : State) : Nat := s.tk.now / 4 * 4

/-- The peer delay of a port from a Pdelay exchange that is complete: the device's stamps and the peer's turnaround. -/
def State.peerDelay (s : State) (port : Fin 2) (seq rx turn : Nat) : State :=
  match s.net.ptp.reqAt[port] with
  | some (q, tx) =>
    if q = seq then s.updPtp (fun p => { p with
      delay := p.delay.set port ((rx - tx - turn) / 2), reqAt := p.reqAt.set port none })
    else s
  | none => s

/-- A PTP message of the device's domain (R301 to R303). The clock is ACQUIRING from the first Sync of a selected
master. -/
def State.ptpTaken (s : State) (port : Fin 2) (m : PtpMsg) : State :=
  let mine (src : Nat) : Bool := s.net.ptp.slave == some port.val && s.net.ptp.master == some src
  let delay : Int := s.net.ptp.delay[port]
  match m with
  | .announce src a => (s.updPtp (fun p => p.hear port src a)).selectMaster
  | .sync src seq origin corr =>
    if !mine src then s
    else
      let rx := s.stamp
      let s := s.count srcTime tmSyncs 1
      let s := if s.net.ptp.state = .free then s.toPtp .acquiring 0 else s
      match origin with
      | some o => s.ptpOffset ((rx : Int) - o - corr - delay)
      | none => s.updPtp (fun p => { p with syncWait := some (port.val, src, seq, rx, corr) })
  | .followUp src seq origin corr =>
    match s.net.ptp.syncWait with
    | some (i, from_, q, rx, c) =>
      if mine src && i == port.val && from_ == src && q == seq then
        (s.updPtp (fun p => { p with syncWait := none })).ptpOffset
          ((rx : Int) - origin - c - corr - delay)
      else s
    | none => s
  | .pdelayReq seq =>
    let p := s.net.ptp
    (s.enqueue port 7 (.pdelayResp p.domain seq s.stamp p.oneStep 0)).2
  | .pdelayResp seq peerRx turn =>
    match turn with
    | some t => s.peerDelay port seq s.stamp t
    | none => s.updPtp (fun p => { p with respWait := p.respWait.set port (some (seq, s.stamp, peerRx)) })
  | .pdelayFup seq tx corr =>
    match s.net.ptp.respWait[port] with
    | some (q, rx, peerRx) =>
      if q = seq then
        (s.updPtp (fun p => { p with respWait := p.respWait.set port none })).peerDelay port seq rx
          ((tx : Int) - peerRx + corr).toNat
      else s
    | none => s

/-- PTP_MESSAGE (R297, R299, R301 to R303). -/
def execPtpMessage (port : Fin 2) (eth : Eth) (domain : Nat) (m : PtpMsg) (s : State) :
    Host.Outcome State Fault Refusal :=
  if !s.portHears port then .next s
  else if !s.ptpClass port eth then .next (s.count (srcPort port) nDiscard 1)
  else
    let s := s.count (srcPort port) nRx 1
    .next (if domain = s.net.ptp.domain then s.ptpTaken port m else s)

/-- PDELAY_REQ_TIMER (R301): Pdelay_Req on both ports. -/
def execPdelayReqTimer (s : State) : Host.Outcome State Fault Refusal :=
  let p := s.net.ptp
  let f := Frame.pdelayReq p.domain p.reqSeq
  let s := (s.enqueue 0 7 f).2
  let s := (s.enqueue 1 7 f).2
  .next (s.updPtp (fun q => { q with reqSeq := (q.reqSeq + 1) % 65536 }))

/-- SYNC_TIMEOUT (R303): in LOCKED, no Sync for 3 Announce intervals. -/
def execSyncTimeout (s : State) : Host.Outcome State Fault Refusal :=
  match s.net.ptp.state, s.net.ptp.slave with
  | .locked, some p => .next (s.masterLost p)
  | _, _ => .next s

/-- HOLDOVER_EXPIRY (R303). -/
def execHoldoverExpiry (s : State) : Host.Outcome State Fault Refusal :=
  if s.net.ptp.state = .holdover then .next (s.toPtp .free 0x0541) else .next s

/-- HOLDOVER_REPORT (R304). -/
def execHoldoverReport (s : State) : Host.Outcome State Fault Refusal :=
  if s.net.ptp.state = .holdover then .next (s.timeState 0x0540) else .next s

/-! ### Event timers (R305) -/

/-- What an event of channel k starts: DMA descriptors that wait on it (08 R212), a converter trigger
(10 R264), a burst (09 R251). -/
def State.etEvent (s : State) (k : Fin 8) (time : Nat) : State :=
  let wakes (c : Channel) : Channel :=
    if c.phase = .waiting ∧ c.desc.waitKind = 2 ∧ c.desc.waitSel = k.val then
      { c with eventSeen := true } else c
  let s : State := { s with dma := s.dma.map (fun (e : Engine) => { e with ch := e.ch.map wakes }) }
  let s : State := match s.wav.cfg with
    | some c =>
      if c.source = 2 ∧ c.etChannel = k.val then
        { s with wav := { s.wav with events := s.wav.events ++ [time] } } else s
    | none => s
  match s.img.cfg with
  | some c =>
    if c.pinTrigger = k.val then
      s.updImg (fun m => { m with trigs := m.trigs ++ [⟨2, k.val, time, c.originX, c.originY, 0⟩] })
    else s
  | none => s

/-- EVENT_TIMER_EVENT: a periodic or one-shot channel reaches its event instant, and drives its pin for WIDTH. In S3 the
TIME domain does not run and the pins are released (15 R432; 17 R482). -/
def execEventTimerEvent (k : Fin 8) (s : State) : Host.Outcome State Fault Refusal :=
  let e : EvTimer := s.net.et[k]
  if s.pwr.sleep ≠ 3 ∧ (e.mode = 1 ∨ (e.mode = 2 ∧ e.next = 0)) then
    let t : Nat := e.instant e.next
    let e2 : EvTimer := { e with next := e.next + 1 }
    let s := (s.setTime (max s.tk.now t)).setEt k e2
    let s := s.etEvent k t
    .next (if bitOf e.pin 0 then
      (s.emit (.etPin k.val (!bitOf e.pin 1) t)).emit (.etPin k.val (bitOf e.pin 1) (t + e.width)) else s)
  else .next s

/-- ET_CAPTURE: a selected edge is time-stamped to 4 ns; one closer than 400 ns to the last is ignored. A channel whose PIN
bit 0 is clear senses no pin; on an active-low one the edges are those of the inverted level (DESIGN CHOICE, log 26). -/
def execEtCapture (k : Fin 8) (pinRises : Bool) (s : State) : Host.Outcome State Fault Refusal :=
  let e : EvTimer := s.net.et[k]
  let edge := bitsOf e.pin 2 2
  let rising := pinRises != bitOf e.pin 1
  if s.pwr.sleep ≠ 3 ∧ e.mode = 3 ∧ bitOf e.pin 0 ∧ (edge = 2 ∨ (edge = 0 ∧ rising) ∨ (edge = 1 ∧ !rising)) then
    let t := s.tk.now / 4 * 4
    let near := match e.last with | some l => decide (t < l + 400) | none => false
    if near then .next (s.count (srcEt k) etIgnored 1)
    else
      let e2 : EvTimer := { e with last := some t }
      let s := (s.setEt k e2).count (srcEt k) etCaptures 1
      let pl := fitBytes 32 (leBytes 8 t ++ leBytes 1 (if rising then 1 else 0))
      let s := (s.event 0x0041 (srcEt k) 0 pl).etEvent k t
      .next (s.fireWhere (fun x => bitOf x.sources 3 && bitOf x.sources (8 + k.val))
        ⟨t, s.tk.tick, pl⟩)
  else .next s

/-! ### Parameter sets: status, 0 for accepted -/

/-- PORT (12 R342). -/
def State.setPortSet (s : State) (b : List Byte) : Nat × State :=
  let p := byteAt b 0
  let vid := fieldLe b 2 2
  if p ≤ 1 ∧ byteAt b 1 ≤ 2 ∧ (vid ≤ 4094 ∨ vid = 0xFFF) ∧ allZero ((b.drop 4).take 4) then
    (0, s.updPort (fin2 p) (fun x => { x with mode := byteAt b 1, vid := vid }))
  else (0x0500, s)

/-- PTP (12 R342). -/
def State.setPtpSet (s : State) (b : List Byte) : Nat × State :=
  let lim := fieldLe b 2 2
  if byteAt b 1 ≤ 1 ∧ 1 ≤ lim ∧ lim ≤ 3600 ∧ allZero ((b.drop 4).take 4) then
    (0, s.updPtp (fun p => { p with
      domain := byteAt b 0, oneStep := bitOf (byteAt b 1) 0, limit := lim }))
  else (0x0500, s)

/-- EVENT_TIMER (R305; log 26 for the rules that a mode does not use). -/
def State.setEtSet (s : State) (b : List Byte) : Nat × State :=
  let k := byteAt b 0
  let mode := byteAt b 1
  let pin := byteAt b 2
  let width := fieldLe b 4 4
  let start := fieldLe b 8 8
  let period := fieldLe b 0x10 8
  let timed := mode == 1 || mode == 2
  let busy := s.runningImage.isSome && (match s.wav.cfg with
    | some c => c.source == 2 && c.etChannel == k
    | none => false)
  let ok := decide (k ≤ 7) && decide (mode ≤ 3) && decide (pin < 16) && bitsOf pin 2 2 != 3 &&
    byteAt b 3 == 0 && (!timed || decide (s.tk.now + 100000 ≤ start)) &&
    (mode != 1 || decide (256 * 400 ≤ period)) &&
    (!(timed && bitOf pin 0) || (decide (4 ≤ width) && (mode != 1 || decide (width + 4 ≤ period / 256))))
  if ok && !busy then (0, s.setEt (fin8 k) ⟨mode, pin, width, start, period, 0, none⟩)
  else (0x0500, s)

end Sys2Proof.Machine
end

