-- ==== Sys2Proof/Machine/Beam.lean ====
section
/-! DEFINITION. Beam: peers, frames in sequence, windows and credits (11 R310 to R314), and what loss and
completion do to global operations (R315, R316). -/

namespace Sys2Proof.Machine

def State.updBeam (s : State) (g : Beam → Beam) : State := { s with beam := g s.beam }

def State.setRx (s : State) (w : Fin 16) (v : Option RxWin) : State :=
  s.updBeam (fun b => { b with rx := b.rx.set w v })

def State.setTx (s : State) (w : Fin 16) (v : Option TxWin) : State :=
  s.updBeam (fun b => { b with tx := b.tx.set w v })

def srcBeam : Nat := 0x0520
def srcGlobal : Nat := 0x0530

/-- Counter `i` of a peer: DATA_SENT, DATA_RECEIVED, RETRANSMITTED, NO_CREDIT, LOST, DISCARDED (R317; log 20). -/
def bCtr (peer i : Nat) : Nat := peer * 6 + i

def Beam.peer (b : Beam) (i : Nat) : Option Peer := b.peers.find? (fun p => p.index == i)

/-- One peer changed. -/
def State.updPeer (s : State) (i : Nat) (g : Peer → Peer) : State :=
  s.updBeam (fun b => { b with peers := b.peers.map (fun p => if p.index = i then g p else p) })

/-- `a` comes before `b` in a 32-bit sequence. -/
def seqBefore (a b : Nat) : Bool :=
  let d := (b + 4294967296 - a % 4294967296) % 4294967296
  d != 0 && d < 2147483648

/-- Pseudo-channel of broadcast messages, after the 40 DMA channels. -/
def bcastChan : Nat := 40

/-! ### Sending (R311, R314) -/

/-- The header of a frame to a peer; ACK is taken when the frame is queued. -/
def beamHdr (s : State) (p : Peer) (kind flags win seq off len frag plen : Nat) : BeamHdr :=
  ⟨1, kind, flags, s.beam.index, p.index, win, seq, p.rxSeq, off, len, frag, plen⟩

/-- A frame put into its queue of the peer's port (R298). -/
def State.beamQueue (s : State) (i : Nat) (f : BeamFrame) : State :=
  match s.beam.peer i with
  | none => s
  | some p =>
    let port := fin2 p.port
    let q := if f.hdr.kind = 0 then s.net.port[port].beamQueue else 6
    (s.enqueue port q (.beam i p.mac { f.hdr with ack := p.rxSeq } f.payload f.ctl)).2

/-- ACK, CREDIT and HELLO frames carry no sequence. Each counts as egress (01 R30), as a CONTROL frame does. -/
def State.beamPlain (s : State) (i kind flags win off : Nat) : State :=
  match s.beam.peer i with
  | some p => (s.egress .beam).beamQueue i ⟨beamHdr s p kind flags win 0 off 0 0 0, [], none, none⟩
  | none => s

/-- A DATA or CONTROL frame takes its SEQ and is sent (R314). -/
def State.beamSend (s : State) (i : Nat) (f : BeamFrame) : State :=
  match s.beam.peer i with
  | none => s
  | some p =>
    let f := { f with hdr := { f.hdr with seq := p.txSeq } }
    let s := if f.hdr.kind = 0 then s.count srcBeam (bCtr i 0) 1 else s
    (s.updPeer i (fun p => { p with
      txSeq := (p.txSeq + 1) % 4294967296, unacked := p.unacked ++ [f] })).beamQueue i f

/-- A peer takes another frame: it is UP, and fewer than 64 are unacknowledged (R314). -/
def Peer.takes (p : Peer) : Bool := p.up && decide (p.unacked.length < 64)

/-- A DATA or CONTROL frame is sent, or waits for its peer, or behind 64 unacknowledged ones (R314). -/
def State.beamSeq (s : State) (i kind flags win off len frag : Nat) (pl : List Byte)
    (ctl : Option BeamCtl) (chan : Option Nat) : State :=
  match s.beam.peer i with
  | none => s
  | some p =>
    let f : BeamFrame := ⟨beamHdr s p kind flags win 0 off len frag pl.length, pl, ctl, chan⟩
    if p.takes ∧ p.waiting = [] then s.beamSend i f
    else s.updPeer i (fun p => { p with waiting := p.waiting ++ [f] })

/-- A CONTROL frame. -/
def State.beamControl (s : State) (i : Nat) (m : BeamCtl) : State :=
  let w := match m with
    | .windowOpen w _ => w
    | .windowClose w _ => w
    | _ => 0
  (s.egress .beam).beamSeq i 3 0 w 0 0 0 [] (some m) none

/-- Waiting frames sent while fewer than 64 are unacknowledged. -/
def State.beamFill (s : State) (i : Nat) : Nat → State
  | 0 => s
  | n + 1 =>
    match s.beam.peer i with
    | none => s
    | some p =>
      match p.waiting with
      | [] => s
      | f :: fs =>
        if p.takes then
          ((s.updPeer i (fun p => { p with waiting := fs })).beamSend i f).beamFill i n
        else s

/-- Every unacknowledged frame resent with RETRANSMITTED (R314). -/
def State.beamResend (s : State) (i : Nat) : State :=
  match s.beam.peer i with
  | none => s
  | some p =>
    p.unacked.foldl (fun s f =>
      (s.count srcBeam (bCtr i 2) 1).beamQueue i
        { f with hdr := { f.hdr with flags := Nat.lor f.hdr.flags 8 } }) s

/-! ### Descriptors and windows (R312, R313) -/

/-- The open, usable send window whose target holds a remote range (R312). -/
def State.txFor (s : State) (a n : Nat) : Option (Fin 16) :=
  let x := a - beamBase
  let peer := x / 2 ^ 32 % 256
  let w := x / 2 ^ 28 % 16
  let off := x % 2 ^ 28
  ((List.range 16).map fin16).find? (fun i => match s.beam.tx[i] with
    | some t => t.usable && t.peer == peer && t.window == w && off + n ≤ t.size
    | none => false)

/-- A descriptor that sends to a peer's receive window (`none`: any of its windows). -/
def DmaDesc.sendsTo (d : DmaDesc) (peer : Nat) (w : Option Nat) : Bool :=
  placeOf d.dst == .beam peer && d.transform != 3 &&
    (match w with
      | some w => (d.dst - beamBase) / 2 ^ 28 % 16 == w
      | none => true)

/-- Messages of started descriptors end with a status (R312, R313, R314). -/
def State.beamStop (s : State) (p : Nat → DmaDesc → Bool) (status : Nat) : State :=
  (List.range 40).foldl (fun s n =>
    let e := fin5 (n / 8)
    let c := fin8 n
    let ch := (s.dma[e]).ch[c]
    if ch.phase = .running ∧ ch.stop = none ∧ p n ch.desc then
      s.updChan e c (fun x => { x with stop := some status })
    else s) s

/-- Units of 4 KiB that a message uses (R313). -/
def creditUnits (m : Nat) : Nat := (m + 4095) / 4096

/-- Cumulative units that a receive window grants (R313). -/
def State.grantOf (s : State) (w : RxWin) : Nat :=
  match w.dest with
  | .hbm _ size => size / 4096 + w.returned
  | .region f r =>
    let g := s.facets[fin16 f].regions[fin16 r]
    max w.granted (w.used + (g.size - g.level - g.reserved) / 128)

/-- CREDIT sent when the grant has changed, or at each HELLO. -/
def State.regrant (s : State) (w : Fin 16) (always : Bool) : State :=
  match s.beam.rx[w] with
  | none => s
  | some x =>
    let g := s.grantOf x
    if g = x.granted && !always then s
    else (s.setRx w (some { x with granted := g })).beamPlain x.peer 2 0 w.val (g % 4294967296)

/-- The grants of the windows that write a region, after a POP freed space (R313). -/
def State.regrantRegion (s : State) (f r : Fin 16) : State :=
  (List.range 16).foldl (fun s w => match s.beam.rx[fin16 w] with
    | some x => if x.dest = .region f.val r.val then s.regrant (fin16 w) false else s
    | none => s) s

/-- Tag of a window's reservation. -/
def beamTag (w : Fin 16) : Nat := 3000 + w.val

/-- A partly received message is dropped: its reservation is released (R149, R314), its units come back, and the changed
grant is told (R313). -/
def State.dropRx (s : State) (w : Fin 16) : State :=
  match s.beam.rx[w] with
  | some ⟨peer, dest, granted, used, returned, some m⟩ =>
    let s := s.setRx w (some ⟨peer, dest, granted, used,
      returned + (if m.refused then 0 else creditUnits m.len), none⟩)
    let s := match dest with
      | .region f r => if m.refused then s else s.regionRelease (fin16 f) (fin16 r) (beamTag w)
      | .hbm _ _ => s
    s.regrant w false
  | _ => s

/-! ### The tree and completing global operations (R315, R316) -/

def treeParent (i : Nat) : Nat := (i - 1) / 4

def treeKids (n i : Nat) : List Nat := ((List.range 4).map (fun k => 4 * i + 1 + k)).filter (· < n)

/-- Devices of a subtree as a mask. -/
def subtree (n : Nat) : Nat → Nat → Nat
  | 0, _ => 0
  | d + 1, i => (treeKids n i).foldl (fun m k => Nat.lor m (subtree n d k)) (2 ^ i)

def Beam.kids (b : Beam) : List Nat := treeKids b.n b.index

/-- Tree neighbours of this device. -/
def Beam.neighbours (b : Beam) : List Nat :=
  (if b.index = 0 then [] else [treeParent b.index]) ++ b.kids

/-- GLOBAL_DONE (R315). -/
def State.globalDone (s : State) (opId status map : Nat) : State :=
  s.placeRec ⟨0x0061, srcGlobal, opId, s.tk.now, s.tk.tick, status * 65536, 0, leBytes 32 map⟩

def State.dropOp (s : State) (op : GlobalOp) : State :=
  s.updBeam (fun b => { b with
    ops := b.ops.filter (fun o => !(o.kind == op.kind && o.opId == op.opId)) })

def State.putOp (s : State) (op : GlobalOp) : State :=
  s.updBeam (fun b => { b with
    ops := b.ops.filter (fun o => !(o.kind == op.kind && o.opId == op.opId)) ++ [op] })

def Beam.op (b : Beam) (kind opId : Nat) : Option GlobalOp :=
  b.ops.find? (fun o => o.kind == kind && o.opId == opId)

/-- The GLOBAL_OP command behind a BARRIER or BROADCAST. -/
def isGlobal (kind opId : Nat) (c : Cmd) : Bool :=
  match c with
  | .globalOp k _ o _ _ _ _ _ => k.toNat == kind && o.toNat == opId
  | _ => false

/-- A BARRIER or BROADCAST is complete: its command and GLOBAL_DONE (R315; 12 R339). -/
def State.finishOp (s : State) (op : GlobalOp) (status : Nat) : State :=
  let s := s.dropOp op
  let s := match s.host.bg.find? (fun a => isGlobal op.kind op.opId a.desc.cmd) with
    | some a => (s.bgEnd a).complete a status [] []
    | none => s
  s.globalDone op.opId status 0

/-- This device and all its children have arrived: up to the parent, or the root's release (R315). -/
def State.barrierCheck (s : State) (opId : Nat) : State :=
  match s.beam.op 0 opId with
  | none => s
  | some op =>
    if op.here && !op.reported && s.beam.kids.all (fun k => op.kids.contains k) then
      if s.beam.index = 0 then
        (s.beam.kids.foldl (fun s k => s.beamControl k (.release opId)) s).finishOp op 0
      else (s.putOp { op with reported := true }).beamControl (treeParent s.beam.index) (.arrive opId)
    else s

/-- A BROADCAST is complete when its message is whole here and every forwarded frame is acknowledged. -/
def State.broadcastCheck (s : State) : State :=
  match s.beam.ops.find? (fun o => o.kind == 1 && o.here) with
  | some op =>
    if s.beam.peers.any (fun p => (p.unacked ++ p.waiting).any (fun f => f.chan == some bcastChan))
    then s else s.finishOp op 0
  | none => s

/-- Every child of a time-named operation has answered: the root reports, others answer their parent (R316). -/
def State.answerCheck (s : State) (op : GlobalOp) : State :=
  let all := Nat.land op.answered (subtree s.beam.n 4 s.beam.index) == subtree s.beam.n 4 s.beam.index
  if op.reported || !all then s.putOp op
  else
    let s := if op.here then s.putOp { op with reported := true } else s.dropOp op
    if op.root then
      s.globalDone op.opId (if op.armed = 2 ^ s.beam.n - 1 then 0 else 0x0531) op.armed
    else s.beamControl (treeParent s.beam.index) (.answer op.kind op.opId op.answered op.armed)

/-- A tree neighbour is LOST: a BARRIER or BROADCAST completes with BEAM_PEER_LOST, and a time-named operation
is answered for the devices it stood for (R316). -/
def State.globalLost (s : State) (i : Nat) : State :=
  if s.beam.neighbours.contains i then
    s.beam.ops.foldl (fun s op =>
      if op.kind ≤ 1 then
        if op.deadline = 0 then s.dropOp op else s.finishOp op 0x0521
      else if s.beam.kids.contains i then
        s.answerCheck { op with answered := Nat.lor op.answered (subtree s.beam.n 4 i) }
      else s) s
  else s

/-! ### Peers up and lost -/

/-- BEAM_STATE (R310; log 27). -/
def State.beamState (s : State) (i : Nat) : State :=
  match s.beam.peer i with
  | some p => s.event 0x0060 (srcBeam + p.port) 0
      (leBytes 1 i ++ leBytes 1 (if p.up then 1 else 0) ++ leBytes 2 p.port ++ leBytes 4 p.epoch)
  | none => s

/-- A peer is LOST (R314). -/
def State.peerLost (s : State) (i : Nat) : State :=
  let s := s.updPeer i (fun p => { p with
    up := false, epoch := (p.epoch + 1) % 4294967296, unacked := [], waiting := []
    txSeq := 0, rxSeq := 0, rtoUs := 100, expiries := 0 })
  let s := (s.count srcBeam (bCtr i 4) 1).beamState i
  let s := s.beamStop (fun _ d => d.sendsTo i none) 0x0521
  let s := (List.range 16).foldl (fun s w => match s.beam.rx[fin16 w] with
    | some x => if x.peer = i then s.dropRx (fin16 w) else s
    | none => s) s
  s.globalLost i

/-- A peer comes UP at an epoch with both counters at 0 (R310, R314), on its primary port while that is up. -/
def State.peerUp (s : State) (i epoch : Nat) : State :=
  let up (q : Nat) : Bool := q < 2 && s.net.port[fin2 q].up
  (s.updPeer i (fun p => { p with
    up := true, epoch := epoch, txSeq := 0, rxSeq := 0, rtoUs := 100, expiries := 0
    port := if up p.primary || !up p.alternate then p.primary else p.alternate })).beamState i |>.beamFill i 64

/-! ### Receiving -/

/-- A received frame passes the checks of R311, reserved fields included, and comes from a peer. -/
def State.beamOk (s : State) (kind : Nat) (b : List Byte) : Bool :=
  let h := beamHdrOf b
  s.beam.n != 0 && h.version == 1 && h.kind == kind && h.flags < 16 && h.dst == s.beam.index &&
  h.window < 16 && h.plen ≤ 8192 && h.plen % 64 == 0 && byteAt b 7 == 0 && fieldLe b 0x1E 2 == 0 &&
  (s.beam.peer h.src).isSome

/-- A frame discarded and counted: to its peer, else to the port. -/
def State.beamDiscard (s : State) (port : Fin 2) (h : BeamHdr) : State :=
  if (s.beam.peer h.src).isSome then s.count srcBeam (bCtr h.src 5) 1
  else s.count (srcPort port) nDiscard 1

/-- Acknowledged frames have reached their destination: the TIME of the last write of their transfers (08 R205). -/
def State.reached (s : State) (done : List BeamFrame) : State :=
  done.foldl (fun s f => match f.chan with
    | some n => if n < 40 then s.updChan (fin5 (n / 8)) (fin8 n) (fun x => { x with lastAt := some s.tk.now }) else s
    | none => s) s

/-- An acknowledgement: frames before ACK are done, RTO goes back to 100 µs, waiting frames follow, and a
NO_CREDIT ends the messages it names (R313, R314). -/
def State.takeAck (s : State) (i ack : Nat) (refused : Option Nat) : State :=
  match s.beam.peer i with
  | none => s
  | some p =>
    let done := p.unacked.filter (fun f => seqBefore f.hdr.seq ack)
    if done.isEmpty then s
    else
      let s := s.updPeer i (fun p => { p with
        unacked := p.unacked.filter (fun f => !seqBefore f.hdr.seq ack), rtoUs := 100, expiries := 0 })
      let s := s.reached done
      let s := s.beamFill i 64
      let s := match refused with
        | some w =>
          let mine := done.filter (fun (f : BeamFrame) => f.hdr.kind == 0 && f.hdr.window == w)
          let cs := mine.filterMap BeamFrame.chan
          s.beamStop (fun n _ => cs.contains n) 0x0520
        | none => s
      s.broadcastCheck

/-- A frame in sequence is taken; an earlier one is acknowledged at once, any other is discarded (R314). -/
def State.inSequence (s : State) (h : BeamHdr) : Bool × State :=
  match s.beam.peer h.src with
  | none => (false, s)
  | some p =>
    if !p.up then (false, s.count srcBeam (bCtr h.src 5) 1)
    else
      let s := s.takeAck h.src h.ack none
      if h.seq = p.rxSeq then
        (true, s.updPeer h.src (fun p => { p with rxSeq := (p.rxSeq + 1) % 4294967296 }))
      else
        let s := s.count srcBeam (bCtr h.src 5) 1
        (false, if seqBefore h.seq p.rxSeq then s.beamPlain h.src 1 0 h.window 0 else s)

/-- A message that is not written: one FAULT per window and tick (R313). -/
def State.noCredit (s : State) (h : BeamHdr) : State :=
  s.tickFaultK 0x0520 (srcBeam + (match s.beam.peer h.src with
    | some p => p.port
    | none => 0)) h.window 6 5 0 1 (leBytes 1 h.window)

/-- The FIRST frame of a message: credit and, in a region, the reservation (R313). -/
def State.openMsg (s : State) (w : Fin 16) (h : BeamHdr) : State :=
  let s := s.dropRx w
  match s.beam.rx[w] with
  | none => s
  | some x =>
    let u := creditUnits h.len
    let refuse := s.setRx w (some { x with msg := some ⟨h.len, h.off, 0, none, true, 0⟩ })
    if x.granted < x.used + u then refuse.noCredit h
    else
      let taken := fun (a : Nat) (g : Option RingAt) =>
        some { x with used := x.used + u, msg := some ⟨h.len, h.off, a, g, false, 0⟩ }
      match x.dest with
      | .hbm base size =>
        if size < h.off + h.len then refuse.noCredit h else s.setRx w (taken (base + h.off) none)
      | .region f r =>
        let g := s.facets[fin16 f].regions[fin16 r]
        let k := h.len / 32
        if g.declared && g.fits k then
          (((s.setRx w (taken 0 (some (s.ringAt (fin16 f) (fin16 r))))).updRegion (fin16 f) (fin16 r)
            (fun y => y.reserve (beamTag w) k))).highWater (fin16 f) (fin16 r)
        else (refuse.regionOverrun (fin16 f) (fin16 r)).noCredit h

/-- A message into HBM has landed: its units come back, counted by the bytes that came (R313; log 117). -/
def State.returnUnits (s : State) (w : Fin 16) (len got : Nat) : State :=
  match s.beam.rx[w] with
  | some x =>
    (s.setRx w (some { x with
      used := x.used - creditUnits len + creditUnits got, returned := x.returned + creditUnits got })).regrant w false
  | none => s

/-- Data that waits for HBM lands while the bucket grants it, with the messages that it ends. -/
def State.landAll (s : State) : Nat → State
  | 0 => s
  | n + 1 =>
    let (x, s) := s.landHead
    match x with
    | none => s
    | some x =>
      (match x.ends with
        | some (w, len, got) => s.returnUnits (fin16 w) len got
        | none => s.burstDone).landAll n

/-- Data that has arrived for HBM lands as the bucket allows (06 R164, R165). -/
def State.landing (s : State) (x : Stalled) : State :=
  if s.hbm.stalled.isEmpty then (s.stall x).landAll 1 else s.stall x

/-- The stack is ready, and data that waits for it lands as the bucket allows (06 R164, R170, R171). -/
def State.hbmReady (s : State) : State :=
  let s := (s.updHbm (fun h => { h with phase := .ready })).setReady 4 true
  s.landAll s.hbm.stalled.length

/-- The message of a window ends: its units are committed and, in HBM once its data has landed, returned (R313). -/
def State.closeMsg (s : State) (w : Fin 16) : State :=
  match s.beam.rx[w] with
  | some ⟨peer, dest, granted, used, returned, some m⟩ =>
    let s := s.setRx w (some ⟨peer, dest, granted, used, returned, none⟩)
    if m.refused then s
    else
      match dest with
      | .region f r => (s.regionCommit (fin16 f) (fin16 r) (beamTag w) (m.len / 32)).regrant w false
      | .hbm _ _ => s.landing ⟨.beam, 0, [], [], some (w.val, m.len, m.got)⟩
  | _ => s

/-- The payload of a frame written, unless its message is refused; the flag says that it is (R313). -/
def State.writeMsg (s : State) (w : Fin 16) (h : BeamHdr) (pl : List Byte) : Bool × State :=
  match s.beam.rx[w] with
  | some ⟨peer, dest, granted, used, returned, some m⟩ =>
    if m.refused || m.len < h.frag + pl.length then (true, s)
    else
      let s := s.setRx w (some ⟨peer, dest, granted, used, returned,
        some { m with got := m.got + pl.length }⟩)
      (false, match m.ring with
        | some g => (s.yields (fin16 g.facet)).writeRing g (h.frag / 32) pl []
        | none => s.landing ⟨.beam, m.at_ + h.frag, pl, [], none⟩)
  | _ => (true, s)

/-- The send window to a child that a broadcast uses. -/
def State.txTo (s : State) (peer : Nat) : Option (Fin 16) :=
  ((List.range 16).map fin16).find? (fun i => match s.beam.tx[i] with
    | some t => t.usable && t.peer == peer
    | none => false)

/-- One DATA frame of a message through a send window, with the units of credit charged with it (R313). -/
def State.beamData (s : State) (w : Fin 16) (flags units off len frag : Nat) (pl : List Byte) (chan : Nat) :
    State :=
  match s.beam.tx[w] with
  | none => s
  | some t =>
    let s := if units = 0 then s else s.setTx w (some { t with used := t.used + units })
    s.beamSeq t.peer 0 flags t.window off len frag pl none (some chan)

/-- A BROADCAST frame from the parent forwarded to the children as it arrives (R315). -/
def State.forward (s : State) (h : BeamHdr) (pl : List Byte) : State :=
  match s.beam.ops.find? (fun o => o.kind == 1 && !o.root && o.window == h.window && !o.here) with
  | none => s
  | some op =>
    if h.src ≠ treeParent s.beam.index then s
    else
      let s := s.beam.kids.foldl (fun s k => match s.txTo k with
        | some w => (s.egress .beam).beamData w (h.flags % 4) (if bitOf h.flags 0 then creditUnits h.len else 0) h.off h.len h.frag
            pl bcastChan
        | none => s) s
      if bitOf h.flags 1 then (s.putOp { op with here := true }).broadcastCheck else s

/-- A received Beam frame: one that no class takes in, or that fails the checks of R311, is discarded and counted; any
other is taken (R297, R299, R311). -/
def State.beamFrame (s : State) (port : Fin 2) (eth : Eth) (kind : Nat) (hdr : List Byte)
    (take : BeamHdr → State → State) : State :=
  if !s.portHears port then s
  else if !s.beamClass port eth then s.count (srcPort port) nDiscard 1
  else
    let s := s.count (srcPort port) nRx 1
    if s.beamOk kind hdr then take (beamHdrOf hdr) s else s.beamDiscard port (beamHdrOf hdr)

/-- The payload of a DATA frame taken into the message of its window, which it begins or ends by its flags; the flag says
that it was refused. A frame of another peer than the window's has no credit and leaves the message as it stands (R312,
R313). -/
def State.takePayload (s : State) (w : Fin 16) (h : BeamHdr) (payload : List Byte) : Bool × State :=
  match s.beam.rx[w] with
  | none => (true, s)
  | some x =>
    if x.peer ≠ h.src then (true, if bitOf h.flags 0 then s.noCredit h else s)
    else
      let s := if bitOf h.flags 0 then s.openMsg w h else s
      let (refused, s) := s.writeMsg w h payload
      (refused, if bitOf h.flags 1 then s.closeMsg w else s)

/-- A DATA frame in sequence is written to its window and forwarded, or refused, and acknowledged (R313 to R315). -/
def State.takeData (s : State) (h : BeamHdr) (payload : List Byte) : State :=
  let (take, s) := s.inSequence h
  if !take then s
  else
    let w := fin16 h.window
    let s := s.count srcBeam (bCtr h.src 1) 1
    let (refused, s) := s.takePayload w h payload
    let s := if refused then s.count srcBeam (bCtr h.src 3) 1 else s.forward h payload
    s.beamPlain h.src 1 (if refused then 4 else 0) h.window 0

/-- BEAM_DATA (R313, R314). -/
def execBeamData (port : Fin 2) (eth : Eth) (hdr payload : List Byte) (s : State) :
    Host.Outcome State Fault Refusal :=
  .next (s.beamFrame port eth 0 hdr (fun h s =>
    if payload.length = h.plen then s.takeData h payload else s.beamDiscard port h))

/-- BEAM_ACK (R314). -/
def execBeamAck (port : Fin 2) (eth : Eth) (hdr : List Byte) (s : State) : Host.Outcome State Fault Refusal :=
  .next (s.beamFrame port eth 1 hdr (fun h s =>
    s.takeAck h.src h.ack (if bitOf h.flags 2 then some h.window else none)))

/-- A cumulative count from its low 32 bits: the next one at or after `old`; one that lies behind it changes nothing
(R311, R313). -/
def unwrap32 (old low : Nat) : Nat :=
  let d := (low + 4294967296 - old % 4294967296) % 4294967296
  if d < 2147483648 then old + d else old

/-- The cumulative units granted for a sending window (R313). -/
def State.takeCredit (s : State) (h : BeamHdr) : State :=
  (List.range 16).foldl (fun s i => match s.beam.tx[fin16 i] with
    | some t =>
      if t.peer = h.src ∧ t.window = h.window then s.setTx (fin16 i) (some { t with granted := unwrap32 t.granted h.off }) else s
    | none => s) (s.takeAck h.src h.ack none)

/-- BEAM_CREDIT (R313). -/
def execBeamCredit (port : Fin 2) (eth : Eth) (hdr : List Byte) (s : State) : Host.Outcome State Fault Refusal :=
  .next (s.beamFrame port eth 2 hdr (fun h s => s.takeCredit h))

/-- A HELLO with a current epoch brings the peer UP; one with a later epoch tells that the peer has begun a new one
(R310, R314). -/
def State.takeHello (s : State) (h : BeamHdr) : State :=
  match s.beam.peer h.src with
  | none => s
  | some p =>
    if p.up then
      if seqBefore p.epoch h.off then (s.peerLost h.src).peerUp h.src h.off
      else if h.off = p.epoch then s.takeAck h.src h.ack none
      else s
    else if seqBefore h.off p.epoch then s
    else s.peerUp h.src h.off

/-- BEAM_HELLO. -/
def execBeamHello (port : Fin 2) (eth : Eth) (hdr : List Byte) (s : State) : Host.Outcome State Fault Refusal :=
  .next (s.beamFrame port eth 4 hdr (fun h s => s.takeHello h))

/-- HELLO_TIMER (R310, R313): a HELLO to every peer, and CREDIT for every receive window. -/
def execHelloTimer (s : State) : Host.Outcome State Fault Refusal :=
  let s := s.beam.peers.foldl (fun s p => s.beamPlain p.index 4 0 0 p.epoch) s
  .next ((List.range 16).foldl (fun s w => s.regrant (fin16 w) true) s)

/-- RETRANSMIT (R314): RTO has passed; after 8 expiries the peer is LOST. -/
def execRetransmit (peer : Byte) (s : State) : Host.Outcome State Fault Refusal :=
  let i := peer.toNat
  match s.beam.peer i with
  | none => .next s
  | some p =>
    if !p.up || p.unacked.isEmpty then .next s
    else if 7 ≤ p.expiries then .next (s.peerLost i)
    else .next ((s.updPeer i (fun p => { p with
      expiries := p.expiries + 1, rtoUs := min 3200 (2 * p.rtoUs) })).beamResend i)

/-- GLOBAL_TIMEOUT (R316): a BARRIER (0) or BROADCAST (1) is not complete within TIMEOUT_MS. -/
def execGlobalTimeout (kind : Fin 2) (s : State) : Host.Outcome State Fault Refusal :=
  match s.beam.ops.find? (fun o => o.kind == kind.val && o.deadline != 0) with
  | some op => .next ((s.setTime (max s.tk.now op.deadline)).finishOp op 0x0532)
  | none => .next s

/-! ### Parameter set and windows -/

/-- One peer entry of BEAM_SYSTEM (12 R342); a known peer keeps its epoch, one that was UP begins a new one. -/
def peerOf (b : Beam) (e : List Byte) : Peer :=
  let old := b.peer (byteAt e 0)
  let epoch := match old with
    | some p => if p.up then (p.epoch + 1) % 4294967296 else p.epoch
    | none => 0
  ⟨byteAt e 0, (e.drop 4).take 6, byteAt e 1, byteAt e 2, false, byteAt e 1, epoch, 0, 0, [], [], 100, 0⟩

/-- BEAM_STATE for a peer that a new BEAM_SYSTEM takes out of UP (R310). -/
def State.systemLeft (s : State) (p : Peer) : State :=
  if p.up then s.event 0x0060 (srcBeam + p.port) 0
    (leBytes 1 p.index ++ leBytes 1 0 ++ leBytes 2 p.port ++ leBytes 4 ((p.epoch + 1) % 4294967296)) else s

/-- BEAM_SYSTEM (R310; 12 R342; log 27). Pending global operations go on to their ends (R316). -/
def State.setBeamSystem (s : State) (b : List Byte) : Nat × State :=
  let n := fieldLe b 0 2
  let idx := byteAt b 2
  let hop := byteAt b 3
  let et := fieldLe b 4 2
  let cnt := fieldLe b 8 2
  let es := (List.range cnt).map (fun i => (b.drop (16 + 16 * i)).take 16)
  let ids := es.map (fun e => byteAt e 0)
  let entry (e : List Byte) : Bool :=
    byteAt e 0 < n && byteAt e 0 != idx && byteAt e 1 ≤ 1 &&
    (byteAt e 2 == 0xFF || (byteAt e 2 ≤ 1 && byteAt e 2 != byteAt e 1)) && byteAt e 3 == 0 &&
    allZero ((e.drop 10).take 6)
  let tree := (if idx = 0 then [] else [treeParent idx]) ++ treeKids n idx
  let open_ := (List.range 16).any (fun w =>
    (s.beam.rx[fin16 w]).isSome || (s.beam.tx[fin16 w]).isSome)
  let ok := decide (2 ≤ n) && decide (n ≤ 256) && decide (idx < n) &&
    (hop == 0 || (decide (5 ≤ hop) && decide (hop ≤ 15))) && decide (byteAt b 6 ≤ 5) &&
    decide (byteAt b 7 ≤ 5) && allZero ((b.drop 10).take 6) && b.length == 16 + 16 * cnt &&
    es.all entry && decide ids.Nodup && tree.all (fun t => ids.contains t) && !open_
  if ok then
    let was := s.beam.peers
    let s := s.updBeam (fun x => { x with
      n := n, index := idx, ethertype := if et = 0 then 0x88B5 else et
      hopUs := if hop = 0 then 15 else hop, peers := es.map (peerOf x), remote := [] })
    let s := was.foldl State.systemLeft s
    let s := s.updPort 0 (fun p => { p with beamQueue := byteAt b 6 })
    (0, s.updPort 1 (fun p => { p with beamQueue := byteAt b 7 }))
  else (0x0500, s)

/-- An HBM range that a receive window may use: inside one partition of the active image or outside all of
them, and one that may be written (R312; 02 R56; 06 R160, R170). -/
def State.rxRangeOk (s : State) (base size : Nat) : Bool :=
  base % 4096 == 0 && size % 4096 == 0 && size != 0 && size ≤ 2 ^ 28 && s.hbmWritable base size &&
  (match s.sched.active with
    | none => true
    | some im => im.parts.any (fun p => p.holdsRange base size) ||
        im.parts.all (fun p => base + size ≤ p.base || p.base + p.size ≤ base))

/-- OPEN_WINDOW's refusals and effect (R312). -/
def State.openWindow (s : State) (dir w peer kind facet region base size : Nat) : Nat × State :=
  if 1 < dir ∨ 15 < w then (0x0010, s)
  else if s.beam.n = 0 then (0x0524, s)
  else if dir = 0 then
    if (s.beam.rx[fin16 w]).isSome then (0x0522, s)
    else
      let g := s.facets[fin16 facet].regions[fin16 region]
      let ok := (s.beam.peer peer).isSome &&
        (if kind = 0 then decide (facet < 16) && decide (region < 16) && g.declared &&
            g.producer == 5 && g.pindex == w
         else if kind = 1 then s.rxRangeOk base size else false)
      if ok then
        let d := if kind = 0 then RxDest.region facet region else .hbm base size
        let bytes := if kind = 0 then g.size * 32 else size
        let s := s.setRx (fin16 w) (some ⟨peer, d, 0, 0, 0, none⟩)
        (0, (s.beamControl peer (.windowOpen w bytes)).regrant (fin16 w) true)
      else (0x0523, s)
  else if (s.beam.tx[fin16 w]).isSome then (0x0522, s)
  else if (s.beam.peer peer).isSome ∧ kind ≤ 15 then
    match s.beam.remote.find? (fun r => r.1 == peer && r.2.1 == kind) with
    | some r => (0, s.setTx (fin16 w) (some ⟨peer, kind, true, r.2.2, 0, 0⟩))
    | none => (0, s.setTx (fin16 w) (some ⟨peer, kind, false, 0, 0, 0⟩))
  else (0x0523, s)

/-- Data of a window's message that waits for HBM still lands; it ends nothing any more. -/
def State.dropEnds (s : State) (w : Fin 16) : State :=
  s.updHbm (fun h => { h with stalled := h.stalled.map (fun x => match x.ends with
    | some (v, _, _) => if v = w.val then { x with ends := none } else x
    | none => x) })

/-- A receive window closed: its open message is dropped, the peer told, the window freed (R312). -/
def State.closeRx (s : State) (w : Fin 16) : State :=
  match s.beam.rx[w] with
  | some x => (((s.dropRx w).dropEnds w).beamControl x.peer (.windowClose w.val true)).setRx w none
  | none => s

/-- CLOSE_WINDOW (R312). -/
def State.closeWindow (s : State) (dir w : Nat) : Nat × State :=
  if 1 < dir ∨ 15 < w then (0x0010, s)
  else if dir = 0 then
    if (s.beam.rx[fin16 w]).isSome then (0, s.closeRx (fin16 w)) else (0x0523, s)
  else
    match s.beam.tx[fin16 w] with
    | some t =>
      let s := s.beamStop (fun _ d => d.sendsTo t.peer (some t.window)) 0x0521
      (0, (s.beamControl t.peer (.windowClose t.window false)).setTx (fin16 w) none)
    | none => (0x0523, s)

/-- A window closed by the device at a tick edge, with its FAULT (R312). -/
def State.autoClose (s : State) (w : Fin 16) : State :=
  match s.beam.rx[w] with
  | some x => (s.closeRx w).fault 0x0523 (srcBeam + (match s.beam.peer x.peer with
      | some p => p.port
      | none => 0)) 6 5 0 (leBytes 1 w.val)
  | none => s

/-- The windows whose destination goes away when an image is discarded; `kept` are the partitions that the next
image inherits (R312; 02 R58). -/
def State.autoCloseFor (s : State) (im : Image) (kept : List Partition) : State :=
  (List.range 16).foldl (fun s w => match s.beam.rx[fin16 w] with
    | some x =>
      let gone := match x.dest with
        | .region f r => im.res.any (fun fr => fr.facet == f &&
            (match fr.regions[r]? with
              | some d => d.producer == 5 && d.size != 0
              | none => false))
        | .hbm base size => im.parts.any (fun p => p.holdsRange base size &&
            !kept.any (fun q => q.base == p.base && q.size == p.size))
      if gone then s.autoClose (fin16 w) else s
    | none => s) s

/-! ### Links (R300, R314) -/

/-- The frames of a port's queues, highest queue first. -/
def Port.frames (p : Port) : List (Nat × Frame) :=
  (List.range 8).reverse.flatMap (fun q => (p.txq[fin8 q]).map (fun f => (q, f)))

/-- A port's queues cleared: template frames are missed; unsequenced Beam frames of a peer that has an
alternate port move there (R300). -/
def State.clearPort (s : State) (port : Fin 2) : State :=
  let fs := (s.net.port[port]).frames
  let s := s.updPort port (fun p => { p with txq := Vector.replicate 8 [] })
  let s := fs.foldl (fun s x => match x.2 with
    | .template t _ _ =>
      (s.count (srcTmpl (fin32 t)) tMissed 1).updTmpl (fin32 t) (fun y => { y with inQueue := y.inQueue - 1 })
    | .beam i mac h pl ctl =>
      match s.beam.peer i with
      | some p =>
        if p.alternate ≤ 1 ∧ p.alternate ≠ port.val ∧ h.kind ≠ 0 ∧ h.kind ≠ 3 then
          (s.enqueue (fin2 p.alternate) x.1 (.beam i mac h pl ctl)).2
        else s
      | none => s
    | _ => s) s
  (List.range 32).foldl (fun s t => s.nextFiring (fin32 t)) s

/-- Peers whose primary port went down move to their alternate port, resending every unacknowledged frame
(R314). -/
def State.movePeers (s : State) (port : Fin 2) : State :=
  s.beam.peers.foldl (fun s p =>
    if p.primary = port.val ∧ p.port = port.val ∧ p.alternate ≤ 1 then
      (s.updPeer p.index (fun q => { q with port := q.alternate })).beamResend p.index
    else s) s

/-- A port's link goes down without the report: its queues, its peers, and PTP (R300, R303). -/
def State.portDown (s : State) (port : Fin 2) : State :=
  let s := s.updPort port (fun p => { p with up := false })
  let s := (((s.setReady (12 + port.val) false).clearPort port)).movePeers port
  let slave := s.net.ptp.slave == some port.val
  let s := s.updPtp (fun p => { p with masters := p.masters.set port [] })
  if !slave then s
  else if s.net.ptp.best.isSome then s.selectMaster
  else s.masterLost port.val

/-- LINK_DOWN (R300). -/
def execLinkDown (port : Fin 2) (s : State) : Host.Outcome State Fault Refusal :=
  if s.net.port[port].up then
    .next (((s.portDown port).count (srcPort port) nDowns 1).fault 0x0501 (srcPort port) 6
      (2 + port.val) 0 [])
  else .next s

/-- LINK_UP (R300, 15 R447): the link of a port that is not off comes up, while the ETH domain runs. -/
def execLinkUp (port : Fin 2) (s : State) : Host.Outcome State Fault Refusal :=
  if s.net.port[port].mode = 0 ∨ s.pwr.shed = 3 ∨ s.edgeOut = true ∨ s.pwr.pll[7] ≠ .good then .next s
  else .next ((s.updPort port (fun p => { p with up := true })).setReady (12 + port.val) true)

end Sys2Proof.Machine
end

