-- ==== Sys2Proof/Machine/Condense.lean ====
section
/-! DEFINITION. The condensed-block format (07 R176 to R183): header, lanes, decoding (R188) and the
coding the Condenser makes (R196). -/

namespace Sys2Proof.Machine

/-- A block header (07 R178). -/
structure BlockHdr where
  format : Nat
  dtype : Nat
  trailerLen : Nat
  totalLen : Nat
  crc : Nat
  outLen : Nat
  normDst : Nat
  lanes : List Nat
  reservedZero : Bool
  deriving DecidableEq, Repr

def BlockHdr.parse (b : List Byte) : BlockHdr :=
  ⟨byteAt b 0, byteAt b 1, fieldLe b 2 2, fieldLe b 4 4, fieldLe b 8 4, fieldLe b 0xC 2,
    fieldLe b 0x10 4, (List.range 16).map (fun l => fieldLe b (0x20 + 2 * l) 2),
    fieldLe b 0xE 2 == 0 && allZero ((b.drop 0x14).take 12)⟩

def BlockHdr.laneSum (h : BlockHdr) : Nat := h.lanes.foldl (· + ·) 0

/-- Offset of the trailer (07 R177). -/
def BlockHdr.trailerAt (h : BlockHdr) : Nat := 64 + (h.laneSum + 31) / 32 * 32

/-- TOTAL_LEN by the formula of 07 R177. -/
def BlockHdr.formulaLen (h : BlockHdr) : Nat := (h.trailerAt + h.trailerLen + 63) / 64 * 64

/-- 07 R179: the assigned element codings. -/
def blockDtypes : List Nat := [0x01, 0x02, 0x03, 0x04, 0x10, 0x11]

/-- 07 R187 check 2, with the transfer's unread coded bytes. -/
def BlockHdr.wellFormed (h : BlockHdr) (unread : Nat) : Bool :=
  h.format == 1 && blockDtypes.contains h.dtype &&
  h.trailerLen ≤ 2048 && h.trailerLen % 32 == 0 &&
  (h.trailerLen == 0 || h.dtype == 1 || h.dtype == 2) &&
  32 ≤ h.outLen && h.outLen ≤ 8192 && h.outLen % 32 == 0 &&
  h.normDst % 32 == 0 && (h.trailerLen != 0 || h.normDst == 0) &&
  h.reservedZero && h.lanes.all (fun l => l ≤ 512) &&
  h.totalLen == h.formulaLen && h.totalLen ≤ unread

/-- 07 R187 check 3: the data at `pos` and the trailer lie inside the output of `x` bytes. -/
def BlockHdr.fitsOutput (h : BlockHdr) (pos x : Nat) : Bool :=
  pos + h.outLen ≤ x && (h.trailerLen == 0 || h.normDst + h.trailerLen ≤ x)

/-! ### Lanes -/

/-- The 16-bit codings (07 R182). -/
def wide16 (dtype : Nat) : Bool := dtype == 0x04 || dtype == 0x11

/-- Elements per lane and largest width (07 R179). -/
def laneElems (dtype : Nat) : Nat := if wide16 dtype then 256 else if dtype = 2 then 1024 else 512
def laneWmax (dtype : Nat) : Nat := if dtype = 2 then 4 else 8

/-- `k` bits of a stream held as one number, from bit `pos`. -/
def takeBits (v pos k : Nat) : Nat := v / 2 ^ pos % 2 ^ k

/-- The inverse zigzag code over `n`-bit elements (07 R181), as an unsigned pattern. -/
def unzig (n z : Nat) : Nat := if z % 2 = 0 then z / 2 else (2 ^ n - 1 - z / 2) % 2 ^ n

/-- The zigzag code of an `n`-bit pattern (07 R181). -/
def zig (n v : Nat) : Nat := if v < 2 ^ (n - 1) then 2 * v else 2 * (2 ^ n - 1 - v) + 1

/-- One chunk of 32 elements: the element patterns and the next position, or a mismatch (07 R188). -/
def decodeChunk (dtype v len pos : Nat) : Option (List Nat × Nat) :=
  let wide := wide16 dtype
  let hdr := if wide then 12 else 4
  if len * 8 < pos + hdr then none
  else
    let base := if wide then takeBits v pos 8 else 0
    let w := takeBits v (pos + hdr - 4) 4
    let p := pos + hdr
    if laneWmax dtype < w then none
    else if len * 8 < p + 32 * w then none
    else
      let n := if dtype = 2 then 4 else 8
      some ((List.range 32).map (fun i => (unzig n (takeBits v (p + i * w) w) + base) % 2 ^ n),
        p + 32 * w)

def decodeChunks (dtype v len : Nat) : Nat → Nat → List Nat → Option (List Nat × Nat)
  | 0, pos, acc => some (acc, pos)
  | k + 1, pos, acc =>
    match decodeChunk dtype v len pos with
    | none => none
    | some (es, p) => decodeChunks dtype v len k p (acc ++ es)

/-- Pairs of 4-bit elements joined into bytes. -/
def joinNibbles : List Nat → List Byte
  | a :: b :: l => BitVec.ofNat 8 (a + 16 * b) :: joinNibbles l
  | _ => []

/-- Exponent and sign-and-mantissa bytes joined into u16 elements (07 R182). -/
def joinWide : List Nat → List Byte → List Byte
  | e :: es, m :: ms =>
    let v := m.toNat % 128 + e * 128 + m.toNat / 128 * 32768
    leBytes 2 v ++ joinWide es ms
  | _, _ => []

/-- 07 R188: the 512 bytes of a lane, or a mismatch. -/
def decodeLane (dtype : Nat) (bs : List Byte) : Option (List Byte) :=
  let len := bs.length
  if len = 0 then some (zeroBytes 512)
  else if len = 512 then some bs
  else
    match decodeChunks dtype (leNat bs) len (laneElems dtype / 32) 0 [] with
    | none => none
    | some (es, pos) =>
      let pb := (pos + 7) / 8
      if wide16 dtype then
        if pb + 256 = len then some (joinWide es (bs.drop pb)) else none
      else if pb = len then
        some (if dtype = 2 then joinNibbles es else es.map (BitVec.ofNat 8))
      else none

/-- The lanes of a block cut by their lengths. -/
def cutLanes : List Nat → List Byte → List (List Byte)
  | [], _ => []
  | n :: ns, bs => bs.take n :: cutLanes ns (bs.drop n)

def decodeLanes (dtype : Nat) : List (List Byte) → Option (List Byte)
  | [] => some []
  | l :: ls =>
    match decodeLane dtype l, decodeLanes dtype ls with
    | some a, some b => some (a ++ b)
    | _, _ => none

/-- Verdict on a received block: the outcome status of 07 R187 or what it writes. -/
inductive BlockVerdict where
  | bad (status : Nat)
  | good (hdr : BlockHdr) (data trailer : List Byte)
  deriving DecidableEq, Repr

/-- 07 R187: the five checks in order. -/
def judgeBlock (b : List Byte) (poisoned : Bool) (unread pos x : Nat) : BlockVerdict :=
  let h := BlockHdr.parse b
  if poisoned then .bad 0x0142
  else if !h.wellFormed unread then .bad 0x0140
  else if !h.fitsOutput pos x then .bad 0x0140
  else
    match decodeLanes h.dtype (cutLanes h.lanes (b.drop 64)) with
    | none => .bad 0x0140
    | some d =>
      if crc32c d = h.crc then
        .good h (d.take h.outLen) ((b.drop h.trailerAt).take h.trailerLen)
      else .bad 0x0141

/-! ### Coding (07 R196) -/

/-- The least width that holds a number. -/
def widthOf (z : Nat) : Nat := if z = 0 then 0 else Nat.log2 z + 1

/-- Values of `w` bits joined above `acc` bits of `v`. -/
def putBits (w : Nat) : List Nat → Nat → Nat → Nat × Nat
  | [], v, pos => (v, pos)
  | z :: zs, v, pos => putBits w zs (v + z * 2 ^ pos) (pos + w)

/-- The chunks of an 8-bit lane or of an exponent plane as one number and its length in bits. -/
def codeChunks (wide : Bool) : List (List Nat) → Nat → Nat → Nat × Nat
  | [], v, pos => (v, pos)
  | c :: cs, v, pos =>
    let base := if wide then (c.foldl min 255 + c.foldl max 0) / 2 else 0
    let zs := c.map (fun e => zig 8 ((e + 256 - base) % 256))
    let w := widthOf (zs.foldl max 0)
    let v := if wide then v + base * 2 ^ pos else v
    let pos := if wide then pos + 8 else pos
    let (v, pos) := putBits w zs (v + w * 2 ^ pos) (pos + 4)
    codeChunks wide cs v pos

/-- The u16 elements of a lane. -/
def lane16 : List Byte → List Nat
  | a :: b :: l => (a.toNat + 256 * b.toNat) :: lane16 l
  | _ => []

def group32 : Nat → List Nat → List (List Nat)
  | 0, _ => []
  | k + 1, l => l.take 32 :: group32 k (l.drop 32)

/-- A lane coded with DTYPE 0x10 or 0x11: ZERO, CODED when shorter than 512 bytes, else RAW. -/
def codeLane (dtype : Nat) (bs : List Byte) : List Byte :=
  if allZero bs then []
  else
    let c :=
      if wide16 dtype then
        let es := lane16 bs
        let (v, pos) := codeChunks true (group32 8 (es.map (fun e => e / 128 % 256))) 0 0
        leBytes ((pos + 7) / 8) v ++
          es.map (fun e => BitVec.ofNat 8 (e / 32768 * 128 + e % 128))
      else
        let (v, pos) := codeChunks false (group32 16 (bs.map BitVec.toNat)) 0 0
        leBytes ((pos + 7) / 8) v
    if c.length < 512 then c else bs

def split512 : Nat → List Byte → List (List Byte)
  | 0, _ => []
  | k + 1, bs => bs.take 512 :: split512 k (bs.drop 512)

/-- The condensed block of 8,192 plain bytes; a poisoned block has every lane RAW (07 R196, R198). -/
def codeBlock (dtype : Nat) (raw : Bool) (bs : List Byte) : List Byte × List Nat :=
  let lanes := (split512 16 bs).map (fun l => if raw then l else codeLane dtype l)
  let lens := lanes.map List.length
  let pay := lanes.flatten
  let tot := (64 + (pay.length + 31) / 32 * 32 + 63) / 64 * 64
  let hdr := leBytes 1 1 ++ leBytes 1 dtype ++ leBytes 2 0 ++ leBytes 4 tot ++
    leBytes 4 (crc32c bs) ++ leBytes 2 8192 ++ leBytes 2 0 ++ leBytes 4 0 ++ zeroBytes 12 ++
    lens.flatMap (leBytes 2)
  (fitBytes tot (hdr ++ pay), lens)

end Sys2Proof.Machine
end

