-- ==== Sys2Proof/Machine/Hbm.lean ====
section
/-! DEFINITION. The scrubber of a scratchpad (05 R137, R140) and the upkeep of the HBM stack (06 R155, R167 to
R170). -/

namespace Sys2Proof.Machine

/-- A Facet's Prism is isolated (16 R454) or its FACET clock is gated (05 R140, R152; 15 R424): its scrubber does
not run. -/
def State.facetOut (s : State) (f : Fin 16) : Bool :=
  s.err.isolated.getLsbD (f.val / 4) || !s.pwr.gates.getLsbD (9 + f.val)

/-- One unit read by the patrol (R140): a poisoned one is skipped, a corrected error enters the write-back queue, an
uncorrectable one is marked, counted and raised, and costs no tick. -/
def State.patrolUnit (s : State) (f : Fin 16) (u : Nat) : State :=
  let a := unitAddr f u
  if s.poisoned a then s
  else if s.severity a = 3 then
    ((((s.clearUpset a).count (srcFacet f) cEccUnc 1).facetReport f 0x0254 a 0).mark a)
  else (s.readUnit f u).2.2

/-- PATROL_READ: the next scratchpad row, one unit in each bank, through idle read slots; a busy bank is read in
its next idle cycle, so the other accesses change nothing (R140). -/
def execPatrolRead (f : Fin 16) (_others : List Req) (s : State) : Host.Outcome State Fault Refusal :=
  if s.facetOut f then .next s
  else
    let row := s.facets[f].patrolRow
    let s := if s.cleanRun (unitAddr f (64 * row)) 64 then s
      else (List.range 64).foldl (fun s j => s.patrolUnit f (64 * row + j)) s
    let s := s.updFacet f (fun x => { x with patrolRow := (row + 1) % 4096 })
    .next (if row = 4095 then s.count (srcFacet f) cPatrol 1 else s)

/-- An entry leaves the write-back queue. -/
def State.wbDrop (s : State) (u : Nat) : State := { s with wbQueue := s.wbQueue.filter (· != u) }

/-- SCRUB_WRITEBACK: the oldest correction is written back through its bank's write slot, which every other
write takes before it; a write served first to the same unit cancels it (R129, R137). -/
def execScrubWriteback (f : Fin 16) (others : List Req) (s : State) : Host.Outcome State Fault Refusal :=
  if s.facetOut f then .next s
  else
    match s.wbOf f with
    | [] => .next s
    | u :: _ =>
      let me : Req := ⟨.scrub, u, true⟩
      if others.any (fun q => q.write && q.units.contains u) then .next (s.wbDrop u)
      else if others.any (fun q => q.write && q.sharesBank me) then .next s
      else .next ((s.wbDrop u).clearUpset (u * 32))

/-! ### The stack -/

/-- A FAULT of the stack as a whole (R169; 16 R452). -/
def State.stackFault (s : State) (status : Nat) : State := s.fault status srcHbm 6 32 0 []

/-- The stack is powered and not in self-refresh's absence: it can be read out. -/
def HbmPhase.powered : HbmPhase → Bool
  | .off => false
  | _ => true

/-- HBM_TEMP_READ (R169); `t` in 1/16 °C. -/
def execHbmTempRead (t : Int) (s : State) : Host.Outcome State Fault Refusal :=
  if !s.hbm.phase.powered then .next s
  else
    let crossed := decide (1520 ≤ t) && decide (s.hbm.temp < 1520)
    let since : Option Nat :=
      if t < 1440 then (match s.hbm.below90 with | some b => some b | none => some s.tk.now) else none
    let cool := match since with | some b => decide (b + 1000000000 ≤ s.tk.now) | none => false
    let s := s.updHbm (fun h => { h with
      temp := t
      tempMax := max h.tempMax t
      doubled := if 1360 ≤ t then true else if t < 1280 then false else h.doubled
      hot := if 1520 ≤ t then true else if cool then false else h.hot
      capWanted := if 1520 ≤ t then true else if cool then false else h.capWanted
      below90 := since })
    .next (if crossed then s.stackFault 0x0844 else s)

/-- ECS_READ: the stack's error count per channel at the last reading (R155, R174). -/
def execEcsRead (counts : List Nat) (s : State) : Host.Outcome State Fault Refusal :=
  if s.hbm.phase = .ready then
    .next ((List.range 16).foldl (fun s c => s.setCtr srcHbm (hEcs c) (counts.getD c 0)) s)
  else .next s

/-- HBM_RECALIBRATION: one channel at a time pauses for at most 1 µs, which delays bursts and changes no state
(R155). -/
def execHbmRecalibration (s : State) : Host.Outcome State Fault Refusal := .next s

/-- HBM_POWER_DOWN: a channel without a request for 1 µs enters power-down (R155). -/
def execHbmPowerDown (c : Fin 16) (s : State) : Host.Outcome State Fault Refusal :=
  if s.hbm.phase = .ready then
    .next (s.updHbm (fun h => { h with powerDown := h.powerDown.set c true }))
  else .next s

end Sys2Proof.Machine
end

