-- ==== Sys2Proof/Machine/Waveform.lean ====
section
/-! DEFINITION. Waveform acquisition: triggers, holds and conversions, correction, urgent conversions, the
spare slice, envelope triggers and windows (10 R262 to R278, R284 to R287). Instants of holds are in
1/256 ns of TIME. -/

namespace Sys2Proof.Machine

def State.updWav (s : State) (g : Wav → Wav) : State := { s with wav := g s.wav }

def State.setConv (s : State) (k : Fin 16) (c : Conv) : State :=
  s.updWav (fun w => { w with conv := w.conv.set k c })

def State.updConv (s : State) (k : Fin 16) (g : Conv → Conv) : State := s.setConv k (g s.wav.conv[k])

def State.setInput (s : State) (i : Fin 64) (x : Input) : State :=
  s.updWav (fun w => { w with inputs := w.inputs.set i x })

def State.setWindow (s : State) (w : Fin 8) (x : Option WaveWin) : State :=
  s.updWav (fun v => { v with windows := v.windows.set w x })

/-- Event sources and counters (12 R347, 10 R293; log 20). -/
def srcInput (i : Nat) : Nat := 0x0300 + i
def srcConv (k : Nat) : Nat := 0x0340 + k
def srcWave : Nat := 0x0351
def wBlocks : Nat := 0
def wDropped : Nat := 1
def wRegion : Nat := 2
def wMissed : Nat := 3
def wLate : Nat := 4
def wClipped : Nat := 5
def wServed : Nat := 6
def wRefused : Nat := 7
def wCal : Nat := 8
def wMismatch : Nat := 9
def wWindows (w : Nat) : Nat := w
def wIgnored (w : Nat) : Nat := 8 + w
def wOutage : Nat := 16
def wOutageLost : Nat := 17

/-- One ADC cycle and one conversion in 1/256 ns (R262). -/
def adcCycle : Nat := 4000
def convTime : Nat := 128000

/-- The first ADC clock edge at or after an instant (R268; log 29 for the phase). -/
def adcEdge (t : Nat) : Nat := (t + adcCycle - 1) / adcCycle * adcCycle

def ConvCfg.ent (c : ConvCfg) (k : Nat) : ConvEnt := c.conv.getD k ⟨1, 0, 0, 0, 0, 0, 0, 0⟩
def ConvCfg.inp (c : ConvCfg) (i : Nat) : InputEnt := c.inputs.getD i ⟨0, 0, 0, 0, 0xFF, 0, 0⟩
def ConvCfg.win (c : ConvCfg) (w : Nat) : WindowEnt := c.windows.getD w ⟨0, 0, 0, 0⟩

/-- The Analog region is isolated (16 R454). -/
def State.analogOut (s : State) : Bool := s.err.isolated.getLsbD 5

/-- No converter converts: before READY.ADC (R278), while the region is isolated (16 R454), in a sleep state (R289). After
a reference fault, which clears READY.ADC, samples go on with ERROR (log 166). -/
def State.convOff (s : State) : Bool := (!s.isReady 11 && !s.wav.refFault) || s.analogOut || s.pwr.sleep != 0

/-! ### The trigger stream (R264 to R267) -/

/-- Trigger period in 1/256 ns that is in force. -/
def State.trigPeriod (s : State) (c : ConvCfg) : Nat :=
  if c.source = 1 then 256 * 1000000000 / (s.tk.rate * c.spt)
  else if c.source = 2 then
    let e : EvTimer := s.net.et[fin8 c.etChannel]
    if e.mode = 1 then e.period else 0
  else s.wav.seg.2.2

/-- The instant of the next trigger, none while it cannot occur. -/
def State.nextTrigger (s : State) (c : ConvCfg) : Option Nat :=
  let m := s.wav.trig
  if c.source = 1 then
    let t := s.wav.startTick + m / c.spt
    if c.spt = 0 ∨ s.tk.tick < t then none
    else some (s.tickTime t * 256 + m % c.spt * 256 * 1000000000 / (s.tk.rate * c.spt))
  else if c.source = 2 then (s.wav.events.head?).map (· * 256)
  else
    let g := s.wav.seg
    some (g.2.1 + (m - g.1) * g.2.2)

/-- The largest DIV among active converters (R267). -/
def ConvCfg.divMax (c : ConvCfg) : Nat :=
  (List.range 16).foldl (fun d k => if bitOf c.activeMask k then max d (c.ent k).div else d) 1

/-- A new GRID period taken at a trigger whose index is a multiple of 256 x DIV_max; the flag says so (R267). -/
def State.takePeriod (s : State) (c : ConvCfg) (inst : Nat) : Bool × State :=
  let m := s.wav.trig
  if c.source = 2 then (false, s.updWav (fun w => { w with seg := (m, inst, s.trigPeriod c) }))
  else
    match s.wav.nextPeriod with
    | some p =>
      if c.source = 0 ∧ m % (256 * c.divMax) = 0 then
        (true, s.updWav (fun w => { w with seg := (m, inst, p), nextPeriod := none }))
      else (false, s)
    | none => (false, s)

/-! ### Hold capacitors and the cores (R268, R269, R273) -/

/-- A slice by number: 0 to 15, or 16 for the spare one. -/
def State.slice (s : State) (k : Nat) : Core := if k = 16 then s.wav.spare else (s.wav.conv[fin16 k]).core

def State.setSlice (s : State) (k : Nat) (c : Core) : State :=
  if k = 16 then s.updWav (fun w => { w with spare := c })
  else s.updConv (fin16 k) (fun v => { v with core := c })

/-- The slice that serves converter k's stream (R276). -/
def State.streamSlice (s : State) (k : Nat) : Nat := if s.wav.standing = some k then 16 else k

/-- Start and end of a conversion, the core being free at `t` (R268). -/
def CoreJob.span (t : Nat) : CoreJob → Nat × Nat
  | .stream h => (adcEdge (max h.hold t), adcEdge (max h.hold t) + convTime)
  | .urgent u => (adcEdge (max (u.hold * 256) t), adcEdge (max (u.hold * 256) t) + convTime)
  | .again _ => (t, t + convTime)

/-- The conversions of a core's held values, each with its start and end. -/
def spansFrom : Nat → List CoreJob → List (CoreJob × Nat × Nat)
  | _, [] => []
  | t, j :: js => (j, j.span t) :: spansFrom (j.span t).2 js

def Core.spans (c : Core) : List (CoreJob × Nat × Nat) := spansFrom c.freeAt c.jobs

/-- Capacitors in use at an instant: an urgent conversion and the sample abandoned for it share one (R273). -/
def heldCaps (t : Nat) : List (CoreJob × Nat × Nat) → Nat
  | (.urgent _, _) :: (.again h, p) :: js => heldCaps t ((.again h, p) :: js)
  | (_, p) :: js => (if t < p.2 then 1 else 0) + heldCaps t js
  | [] => 0

/-- A capacitor is free at an instant (R268). -/
def Core.free (c : Core) (t : Nat) : Bool := decide (heldCaps t c.spans < 2)

def Core.push (c : Core) (j : CoreJob) : Core := { c with jobs := c.jobs ++ [j] }

/-- An urgent input held at an instant: the conversion then running is abandoned; in an idle core a value that waits for
its clock edge goes first (R273). None when an urgent conversion is held or in progress. -/
def Core.urge (c : Core) (u : Urgent) (t : Nat) : Option Core :=
  let past := (c.spans.filter (fun x => x.2.2 ≤ t)).map (·.1)
  let cur := c.spans.filter (fun x => t < x.2.2)
  if cur.any (fun x => match x.1 with | .urgent _ => true | _ => false) then none
  else
    let rest := (cur.drop 1).map (·.1)
    some { c with jobs := past ++ (match cur with
      | (j, a, _) :: _ =>
        if a ≤ t then (match j with
          | .stream h => [.urgent u, .again h]
          | .again h => [.urgent u, .again h]
          | .urgent v => [.urgent v, .urgent u])
        else [j, .urgent u]
      | [] => [.urgent u]) ++ rest }

/-! ### Sample words (R270, R271) -/

/-- Flag bits of a sample word. -/
def swLate : Nat := 2 ^ 24
def swUnaligned : Nat := 2 ^ 25
def swMissed : Nat := 2 ^ 26
def swClip : Nat := 2 ^ 27
def swSpare : Nat := 2 ^ 28
def swOpenWire : Nat := 2 ^ 29
def swError : Nat := 2 ^ 30
def swUrgent : Nat := 2 ^ 31

/-- y of a raw code, and CLIP (R270). -/
def correct (offset : Int) (gain : Nat) (x : Int) : Int × Bool :=
  let y := Int.tdiv ((x + offset) * gain) 4194304
  let z := clampInt (-131071) 131071 y
  (z, z != y || x == -131072 || x == 131071)

/-- The word of a sample: corrected value, input and flags. -/
def sampleWord (y : Int) (input flags : Nat) : Nat := toBits 18 y + input * 2 ^ 18 + flags

/-- The word of a missed sample. -/
def missedWord (input : Nat) : Nat := sampleWord 0 input swMissed

/-- A word put in its sample's place. -/
def Conv.putWord (c : Conv) (idx w : Nat) : Conv := { c with words := c.words ++ [(idx, w)] }

/-- A sample of an input recorded by number, newest first; the last 80 places are kept (R284). -/
def Input.record (x : Input) (idx : Nat) (v : Option Int) : Input :=
  { x with last := (x.last.filter (fun p => idx < p.1) ++ [(idx, v)] ++
      x.last.filter (fun p => p.1 < idx)).take 80 }

/-- A MISSED word in a sample's place. -/
def State.missWord (s : State) (k : Fin 16) (idx input : Nat) : State :=
  let i := fin64 input
  (s.updConv k (fun c => c.putWord idx (missedWord input))).setInput i
    (((s.wav.inputs[i]).record idx none))

/-- A missed sample, counted and reported (R269). -/
def State.missSample (s : State) (k : Fin 16) (idx input : Nat) : State :=
  ((s.missWord k idx input).count (srcConv k.val) wMissed 1).tickFault 0x0411 (srcConv k.val) 5 k.val 0

/-- The input that sample `idx` of converter k takes (R263). -/
def ConvEnt.inputOf (e : ConvEnt) (k idx : Nat) : Nat :=
  4 * k + (if e.seqLen = 0 then e.sel % 4 else bitsOf e.seqTable (2 * (idx % e.seqLen)) 2)

/-! ### SAMPLE_TRIGGER -/

/-- Test current is applied to an input. -/
def State.testing (s : State) (input : Nat) : Bool :=
  match s.wav.openWire with
  | some o => bitOf o.mask input
  | none => false

/-- A handover is due at a hold of converter k (R276); it is taken. -/
def State.takeHandover (s : State) (k hold : Nat) : Bool × State :=
  match s.wav.handover with
  | some (j, starts, at_) =>
    if j = k ∧ at_ * 256 ≤ hold then
      (true, s.updWav (fun w => { w with handover := none, standing := if starts then some j else none }))
    else (false, s)
  | none => (false, s)

/-- A sample held by a slice. -/
def State.holdOn (s : State) (slice : Nat) (h : Held) : State :=
  s.setSlice slice ((s.slice slice).push (.stream { h with spare := slice == 16 }))

/-- The hold instant of a triggered sample (R266, R268, R269): the slice that serves the stream holds it, and at a
handover the other one too (R276). A slice without a free capacitor leaves an overlapped sample to the other. -/
def State.holdSample (s : State) (h : Held) : State :=
  let k := fin16 h.conv
  let s := s.updConv k (fun v => { v with pend := v.pend.drop 1 })
  if s.convOff then s.missWord k h.idx h.input
  else
    let main := s.streamSlice h.conv
    let (both, s) := s.takeHandover h.conv h.hold
    let other := if main = 16 then h.conv else 16
    let h := { h with openWire := s.testing h.input }
    let a := (s.slice main).free h.hold
    let b := both && (s.slice other).free h.hold
    if a && b then (s.holdOn main { h with pair := 1 }).holdOn other { h with pair := 2 }
    else if a then s.holdOn main h
    else if b then s.holdOn other h
    else s.missSample k h.idx h.input

/-- The triggered samples of converter k whose hold instant has come. -/
def State.holdDue (s : State) (k : Fin 16) (t : Nat) : Nat → State
  | 0 => s
  | n + 1 =>
    match (s.wav.conv[k]).pend with
    | h :: _ => if h.hold ≤ t then (s.holdSample h).holdDue k t n else s
    | [] => s

/-- Every hold up to an instant in 1/256 ns takes place, before what acts then sees the converters. -/
def State.holdAll (s : State) (t : Nat) : State :=
  (List.range 16).foldl (fun s k => s.holdDue (fin16 k) t (s.wav.conv[fin16 k]).pend.length) s

/-- Every hold up to TIME takes place. -/
def State.holdNow (s : State) : State := s.holdAll (s.tk.now * 256)

/-- Block starts that a converter keeps. -/
def ConvCfg.startsKept (c : ConvCfg) : Nat := max 64 c.ringBlocks

/-- ADC_TRIM takes effect at a block boundary of a converter (14 R410; log 141). The codes that the slices give are the
conversions' own (log 16). -/
def State.takeTrim (s : State) : State :=
  match s.wav.trimNext with
  | some t => s.updWav (fun w => { w with trim := t, trimNext := none })
  | none => s

/-- A trigger of converter k at an instant: its sample will be held DELAY later (R266); sample 0 of a block gives its
header (R280). -/
def State.trigSample (s : State) (c : ConvCfg) (k : Fin 16) (inst : Nat) (rate : Bool) : State :=
  let e := c.ent k.val
  let idx := (s.wav.conv[k]).idx
  let s := if idx % 256 = 0 then s.takeTrim else s
  let hold := inst + e.delay * adcCycle
  let hdr : WaveHdr := ⟨idx / 256, hold, s.tickOf (hold / 256), s.trigPeriod c * e.div, rate⟩
  let h : Held := ⟨k.val, idx, e.inputOf k.val idx, hold, hold, false, false, false, 0⟩
  s.updConv k (fun v => { v with
    idx := idx + 1, pend := v.pend ++ [h]
    hdrs := if idx % 256 = 0 then v.hdrs ++ [hdr] else v.hdrs
    starts := if idx % 256 = 0 then ((idx / 256, hold) :: v.starts).take c.startsKept else v.starts })

/-- The block of a converter whose samples' time holds an instant in 1/256 ns (R286). -/
def Conv.blockOf (v : Conv) (t : Nat) : Option Nat := (v.starts.find? (fun p => p.2 ≤ t)).map (·.1)

/-- LAST_SEQ of a window, once every converter in it has begun a block after its end (R286). Converters with other DELAYs
may differ by one block there; the later counts (log 124). -/
def State.waveLast (s : State) (ks : List Nat) (t : Nat) : Option Nat :=
  if ks.all (fun k => (s.wav.conv[fin16 k]).starts.any (fun p => t < p.2)) then
    some (ks.foldl (fun n k => max n (((s.wav.conv[fin16 k]).blockOf t).getD 0)) 0)
  else none

/-- The WAVE_WINDOW record of a window (R286). -/
def State.waveRecord (s : State) (w part mask : Nat) (x : WaveWin) (last : Nat) (gap : Bool) : State :=
  let len := (last - x.first + 1) * 1088 * ((List.range 16).filter (bitOf mask)).length
  s.eventAt 0x0013 (srcInput x.input) x.time (s.tickOf x.time) 0 len
    (leBytes 4 part ++ leBytes 2 mask ++ leBytes 1 w ++
      leBytes 1 ((if x.short then 1 else 0) + (if gap then 2 else 0)) ++ leBytes 4 x.first ++
      leBytes 4 last ++ leBytes 8 x.time)

/-- A block in a window's range was dropped. -/
def State.waveGap (s : State) (ks : List Nat) (first last : Nat) : Bool :=
  ks.any (fun k => (s.wav.conv[fin16 k]).drops.any (fun d => first ≤ d && d ≤ last))

/-- A window whose last block has been written for every converter is reported (R286). -/
def State.closeWave (s : State) (c : ConvCfg) (w : Fin 8) : State :=
  match s.wav.windows[w] with
  | none => s
  | some x =>
    let e := c.win w.val
    let ks := (List.range 16).filter (bitOf e.convMask)
    match s.waveLast ks (x.stop * 256) with
    | none => s
    | some last =>
      if ks.all (fun k => last < (s.wav.conv[fin16 k]).histNext) then
        (s.setWindow w none).waveRecord w.val c.histPart e.convMask x last (s.waveGap ks x.first last)
      else s

/-- The windows that are complete are reported. -/
def State.closeWaves (s : State) (c : ConvCfg) : State :=
  (List.range 8).foldl (fun s w => s.closeWave c (fin8 w)) s

/-- LAST_SEQ of a window whose converters stop: the block that holds its end, none where it ends behind their last block
(R279, R286). -/
def State.lastStopped (s : State) (c : ConvCfg) (ks : List Nat) (t : Nat) : Option Nat :=
  if ks.all (fun k => match (s.wav.conv[fin16 k]).starts.head? with
      | some p => decide (t < p.2 + 256 * (s.trigPeriod c * (c.ent k).div))
      | none => false) then
    some (ks.foldl (fun n k => max n (((s.wav.conv[fin16 k]).blockOf t).getD 0)) 0)
  else none

/-- A window at the stop of its converters: its last block may still have to be written (R279, R286). -/
def State.retireWave (s : State) (c : ConvCfg) (w : Fin 8) : State :=
  match s.wav.windows[w] with
  | none => s
  | some x =>
    let e := c.win w.val
    let ks := (List.range 16).filter (bitOf e.convMask)
    match s.lastStopped c ks (x.stop * 256) with
    | none => s
    | some last => s.updWav (fun v => { v with
        oldWindows := v.oldWindows ++ [⟨w.val, c.histPart, e.convMask, last, s.waveGap ks x.first last, x⟩] })

/-- No block of a window whose converters have stopped waits for the history writer any more. -/
def OldWin.written (o : OldWin) (w : Wav) : Bool :=
  (List.range 16).all (fun k => !bitOf o.mask k ||
    !(w.conv[fin16 k]).queue.any (fun b => b.old && b.hist.isSome && decide (b.seq ≤ o.last)))

/-- Such windows are reported once they are complete (R286). -/
def State.closeOld (s : State) : State :=
  let done := s.wav.oldWindows.filter (fun o => o.written s.wav)
  done.foldl (fun s o => s.waveRecord o.win o.part o.mask o.x o.last o.gap)
    (s.updWav (fun w => { w with oldWindows := w.oldWindows.filter (fun o => !o.written w) }))

/-- The trigger stream's next trigger (R264 to R269). -/
def State.sampleTrigger (s : State) : State :=
  match s.wav.cfg with
  | none => s
  | some c =>
    match s.nextTrigger c with
    | none => s
    | some inst =>
      let m := s.wav.trig
      let s := (s.setTime (max s.tk.now (inst / 256))).holdAll inst
      let (rate, s) := s.takePeriod c inst
      let s := (List.range 16).foldl (fun s k =>
        if bitOf c.activeMask k && m % (c.ent k).div == 0 then s.trigSample c (fin16 k) inst rate else s) s
      ((s.holdAll inst).updWav (fun w => { w with
        trig := m + 1, events := if c.source = 2 then w.events.drop 1 else w.events })).closeWaves c

/-! ### Envelope triggers and windows (R284 to R286) -/

/-- The condition of R284 for a sample, none while the test is suspended. -/
def envelopeMet (e : InputEnt) (last : List (Nat × Option Int)) (idx : Nat) (y : Int) : Option Bool :=
  if e.mode = 1 then some (decide (e.level ≤ y.natAbs))
  else if e.mode = 2 then
    let before := (last.filter (fun p => p.1 < idx)).take e.stepW
    match before.getLast? with
    | some (_, some z) =>
      if before.length = e.stepW ∧ before.all (fun p => p.2.isSome) then
        some (decide (e.level ≤ (y - z).natAbs))
      else none
    | _ => none
  else none

/-- Window w opens at a trigger (R286), or the trigger is ignored. -/
def State.openWave (s : State) (c : ConvCfg) (w : Fin 8) (input time : Nat) : State :=
  match s.wav.windows[w] with
  | some _ => s.count srcWave (wIgnored w.val) 1
  | none =>
    let e := c.win w.val
    let ks := (List.range 16).filter (bitOf e.convMask)
    let lo := (time - e.pre * 1000) * 256
    let fs := ks.map (fun k => (s.wav.conv[fin16 k]).blockOf lo)
    let cut := fs.any (·.isNone) || decide (time < e.pre * 1000)
    let raw := fs.foldl (fun n f => min n (f.getD 0)) ((fs.headD none).getD 0)
    let newest := ks.foldl (fun n k => max n ((s.wav.conv[fin16 k]).starts.headD (0, 0)).1) 0
    let oldest := newest + 1 - c.ringBlocks
    ((s.setWindow w (some ⟨time, time + e.post * 1000, input, max raw oldest, cut || decide (raw < oldest)⟩)).count
      srcWave (wWindows w.val) 1).closeWave c w

/-- An envelope trigger fires (R285): the record, the urgent request, the burst, templates and windows. -/
def State.fireEnvelope (s : State) (c : ConvCfg) (i : Fin 64) (e : InputEnt) (word hold : Nat) : State :=
  let t := hold / 256
  let tick := s.tickOf t
  let pl := fitBytes 32 (leBytes 4 word ++ leBytes 4 e.mode)
  let s := (s.count (srcInput i.val) 0 1).eventAt 0x0082 (srcInput i.val) t tick 0 0 pl
  let s : State := if e.urgent < 64 then
      s.updWav (fun w => { w with reqs := w.reqs ++ [⟨e.urgent, 0, i.val, s.tk.now, 0, 0, false, 0⟩] })
    else s
  let s : State := match s.img.cfg with
    | some o =>
      if bitOf o.envelopeMask i.val then
        s.updImg (fun m => { m with trigs := m.trigs ++ [⟨0, i.val, t, o.originX, o.originY, 0⟩] })
      else s
    | none => s
  let s := s.fireWhere (fun x => bitOf x.sources 0 && bitOf x.inputs i.val) ⟨t, tick, pl⟩
  (List.range 8).foldl (fun s w =>
    if bitOf (c.win w).mask i.val then s.openWave c (fin8 w) i.val t else s) s

/-- The envelope trigger of an input sees a corrected sample (R284). -/
def State.envelope (s : State) (c : ConvCfg) (i : Fin 64) (idx word hold : Nat) (y : Int) : State :=
  let e := c.inp i.val
  let x := s.wav.inputs[i]
  let met := envelopeMet e x.last idx y
  let x' := x.record idx (some y)
  match met with
  | some true =>
    if x.armed then
      let until_ := if e.holdoff = 0 then none else some (s.tk.now + e.holdoff * 1000)
      (s.setInput i { x' with armed := false, holdoff := until_ }).fireEnvelope c i e word hold
    else s.setInput i x'
  | some false =>
    s.setInput i (if !x.armed && x.holdoff.all (fun t => t ≤ s.tk.now) then
      { x' with armed := true, holdoff := none } else x')
  | none => s.setInput i x'

/-- The flicker detector's zero crossings (09 R250): a crossing counts once the input has gone from below -1 %
to above +1 % of full scale; its time is interpolated between the samples about zero. -/
def Img.crossing (m : Img) (t : Nat) (y : Int) : Img :=
  let cand : Option Nat := match m.crossLast with
    | some (t0, y0) =>
      if m.crossArmed ∧ y0 < 0 ∧ 0 ≤ y then some (t0 + (t - t0) * y0.natAbs / (y - y0).natAbs)
      else m.crossCand
    | none => m.crossCand
  let m := { m with crossLast := some (t, y) }
  if y ≤ -1311 then { m with crossArmed := true, crossCand := none }
  else if 1311 ≤ y then
    match cand with
    | some z =>
      if m.crossArmed then
        { m with crossings := (z :: m.crossings).take 64, crossArmed := false, crossCand := none }
      else { m with crossCand := none }
    | none => { m with crossArmed := false }
  else { m with crossCand := cand }

/-! ### CONVERSION_DONE -/

/-- OFFSET and GAIN of an input once its converter has held `n` samples (R270). -/
def Input.correction (x : Input) (n : Nat) : Int × Nat :=
  x.next.foldl (fun a p => if p.2.2 < n then (p.1, p.2.1) else a) (x.offset, x.gain)

/-- Pending corrections whose first sample lies a block back stand in force for good. -/
def Input.settled (x : Input) (n : Nat) : Input :=
  let c := x.correction (n - 256)
  { x with offset := c.1, gain := c.2, next := x.next.filter (fun p => n - 256 ≤ p.2.2) }

/-- ERROR in every sample of converter k (R277, R278). -/
def State.convError (s : State) (k : Fin 16) : Bool := s.wav.refFault || (s.wav.conv[k]).failed

/-- The reading of an open-wire test takes a stream sample of the last 50 µs of its phase (R287). -/
def State.openWireSample (s : State) (input hold : Nat) (y : Int) : State :=
  match s.wav.openWire with
  | some o =>
    if bitOf o.mask input ∧ (o.since + 150000) * 256 ≤ hold ∧ hold ≤ (o.since + 200000) * 256 then
      let old := (o.sums.find? (fun p => p.1 == input)).elim (0, 0) (fun p => p.2)
      s.updWav (fun w => { w with openWire := some { o with
        sums := (input, old.1 + y, old.2 + 1) :: o.sums.filter (fun p => p.1 != input) } })
    else s
  | none => s

/-- The reading of an open-wire test from an urgent conversion (R287). -/
def State.openWireCode (s : State) (input : Nat) (y : Int) : State :=
  match s.wav.openWire with
  | some o =>
    if bitOf o.mask input ∧ o.sums.all (fun p => p.1 != input) then
      s.updWav (fun w => { w with openWire := some { o with sums := (input, y, 1) :: o.sums } })
    else s
  | none => s

/-- An urgent result (R274): record, templates; that of an open-wire test is a reading (R287; log 125). -/
def State.urgentResult (s : State) (u : Urgent) (x : Int) (err : Bool) : State :=
  let k := fin16 (u.input / 4)
  let cr := (s.wav.inputs[fin64 u.input]).correction u.heldN
  let (y, clip) := correct cr.1 cr.2 x
  let s := s.count (srcConv k.val) wServed 1
  if u.source = 2 then s.openWireCode u.input y
  else
    let flags := swUrgent + swUnaligned + (if clip then swClip else 0) +
      (if u.slice = 16 then swSpare else 0) + (if u.openWire then swOpenWire else 0) +
      (if err then swError else 0)
    let pl := fitBytes 32 (leBytes 4 (sampleWord y u.input flags) ++ leBytes 1 u.source ++
      leBytes 1 u.index ++ leBytes 1 u.slice ++ leBytes 1 0 ++ leBytes 8 u.req)
    let tick := s.tickOf u.hold
    let s := s.eventAt 0x0080 (srcInput u.input) u.hold tick 0 0 pl
    s.fireWhere (fun t => bitOf t.sources 1 && bitOf t.inputs u.input) ⟨u.hold, tick, pl⟩

/-- A result of an overlapped sample: with the other slice's it is compared (R276). -/
def State.pairResult (s : State) (h : Held) (x : Int) : State :=
  if h.pair = 0 then s
  else match s.wav.pair with
    | some (k, i, y) =>
      if k = h.conv ∧ i = h.idx then
        let s := s.updWav (fun w => { w with pair := none })
        if 64 < (x - y).natAbs then
          (s.count (srcConv h.conv) wMismatch 1).fault 0x0413 (srcConv h.conv) 5 h.conv 0 []
        else s
      else s.updWav (fun w => { w with pair := some (h.conv, h.idx, x) })
    | none => s.updWav (fun w => { w with pair := some (h.conv, h.idx, x) })

/-- A stream sample converted: corrected, stored, watched (R270, R271, R284, R287). -/
def State.streamResult (s : State) (k : Fin 16) (h : Held) (x : Int) : State :=
  let i := fin64 h.input
  let s := s.setInput i ((s.wav.inputs[i]).settled (h.idx + 1))
  let cr := (s.wav.inputs[i]).correction (h.idx + 1)
  let (y, clip) := correct cr.1 cr.2 x
  let err := s.convError k
  let flags := (if h.late then swLate + swUnaligned else 0) + (if clip then swClip else 0) +
    (if h.spare then swSpare else 0) + (if h.openWire then swOpenWire else 0) +
    (if err then swError else 0)
  let word := sampleWord y h.input flags
  let s := s.updConv k (fun c =>
    let c := c.putWord h.idx word
    if h.late then { c with lates := c.lates ++ [(h.idx, h.hold - h.nominal)] } else c)
  let s := if h.late then s.count (srcConv k.val) wLate 1 else s
  let s := if clip then s.count (srcConv k.val) wClipped 1 else s
  let s := s.openWireSample h.input h.hold y
  if err then s
  else
    let s := match s.img.cfg with
      | some o => if o.flickerCh = h.input then s.updImg (fun m => m.crossing (h.hold / 256) y) else s
      | none => s
    match s.wav.cfg with
    | some c => s.envelope c i h.idx word h.hold y
    | none => s

/-- A slice's conversion ends: the sample abandoned for an urgent one is held again (R273). -/
def Core.finish (c : Core) (e : Nat) (testing : Nat → Bool) : Core :=
  { jobs := match c.jobs.drop 1 with
      | .again h :: js => .stream { h with hold := e, late := true, openWire := testing h.input } :: js
      | js => js
    freeAt := e }

/-- The instant of the next hold that slice k makes (16 the spare one). -/
def State.nextHold (s : State) (k : Nat) : Option Nat :=
  match (if k = 16 then s.wav.standing else some k) with
  | some j => ((s.wav.conv[fin16 j]).pend.head?).map (·.hold)
  | none => none

/-- CONVERSION_DONE (R268 to R274): slice `k` (16 the spare one) ends its next conversion with a code. -/
def execConversionDone (k : Fin 17) (code : BitVec 18) (s : State) : Host.Outcome State Fault Refusal :=
  let x := code.toInt
  let s := s.holdNow
  let s := if (s.slice k.val).jobs.isEmpty then (s.nextHold k.val).elim s s.holdAll else s
  match (s.slice k.val).spans with
  | [] => .next s
  | (_, _, e) :: _ =>
    let s := (s.holdAll e).setTime (max s.tk.now (e / 256))
    let c := s.slice k.val
    let s := s.setSlice k.val (c.finish e s.testing)
    .next (match c.jobs.head? with
      | some (.urgent u) =>
        s.urgentResult u x (if k.val = 16 then s.wav.refFault else s.convError (fin16 k.val))
      | some (.stream h) | some (.again h) =>
        let s := s.pairResult h x
        if h.pair = 2 then s else s.streamResult (fin16 h.conv) h x
      | none => s)

/-- HOLDOFF_EXPIRY (R284): HOLDOFF_US after an envelope trigger fired. -/
def execHoldoffExpiry (i : Fin 64) (s : State) : Host.Outcome State Fault Refusal :=
  let x := s.wav.inputs[i]
  match x.holdoff with
  | some t => .next ((s.setTime (max s.tk.now t)).setInput i { x with holdoff := none })
  | none => .next s

/-! ### Urgent requests (R272, R273) -/

/-- The spare slice is free (R273). -/
def Wav.spareFree (w : Wav) : Bool :=
  w.spare.jobs.isEmpty && w.standing.isNone && !w.selfCal && w.handover.isNone && !w.halted

/-- The request to serve next: the earliest, the lowest input of simultaneous ones. -/
def firstReq : List Urgent → Option Urgent
  | [] => none
  | u :: us =>
    match firstReq us with
    | some v => if v.req < u.req ∨ (v.req = u.req ∧ v.input < u.input) then some v else some u
    | none => some u

/-- A request refused (R273). -/
def State.refuseUrgent (s : State) (k : Fin 16) : State :=
  (s.count (srcConv k.val) wRefused 1).tickFault 0x0412 (srcConv k.val) 5 k.val 0

/-- The urgent input is held at TIME, on the spare slice when that is free, else on the slice that serves its converter
(R273); the flag is false when that refuses. -/
def State.serveUrgent (s : State) (u : Urgent) : Bool × State :=
  let k := u.input / 4
  let v := s.wav.conv[fin16 k]
  let slice := if s.wav.spareFree then 16 else s.streamSlice k
  let u := { u with
    hold := s.tk.now, slice := slice, openWire := s.testing u.input, heldN := v.idx - v.pend.length }
  match (s.slice slice).urge u (s.tk.now * 256) with
  | some c => (true, s.setSlice slice c)
  | none => (false, s)

/-- URGENT_REQUEST: the pending request is held on the spare slice or on its owning converter; while no converter
converts it is refused. -/
def execUrgentRequest (s : State) : Host.Outcome State Fault Refusal :=
  match firstReq s.wav.reqs with
  | none => .next s
  | some u =>
    let k := fin16 (u.input / 4)
    let s := (s.updWav (fun w => { w with reqs := w.reqs.erase u })).holdNow
    if s.convOff || s.wav.cfg.isNone then .next (s.refuseUrgent k)
    else
      let (ok, s) := s.serveUrgent u
      .next (if ok then s else s.refuseUrgent k)

/-! ### Background calibration (R275 to R277) -/

/-- Slot number nearest to TIME, and its converter. -/
def State.calSlot (s : State) : Nat := (s.tk.now + 160000000) / 320000000

/-- SPARE_SELF_CALIBRATION: the last 4 ms of a slot begin. -/
def execSpareSelfCalibration (s : State) : Host.Outcome State Fault Refusal :=
  if !s.convOff && !s.wav.halted then
    let s := s.setTime (max s.tk.now ((s.tk.now / 320000000 + 1) * 320000000 - 4000000))
    .next (s.holdNow.updWav (fun w => { w with selfCal := true }))
  else .next s

/-- CALIBRATION_SLOT: at the converter's first hold in its slot the spare slice takes over an active converter after an
overlapped sample. -/
def execCalibrationSlot (s : State) : Host.Outcome State Fault Refusal :=
  if s.convOff || s.wav.halted then .next s
  else
    let r := s.calSlot
    let s := s.holdAll (r * 320000000 * 256 - 1)
    let s := s.setTime (max s.tk.now (r * 320000000))
    let k := r % 16
    let active := match s.wav.cfg with
      | some c => bitOf c.activeMask k
      | none => false
    .next (s.updWav (fun w => { w with
      selfCal := false, handover := if active then some (k, true, r * 320000000) else none })).holdNow

/-- CALIBRATION_RETURN: 20 ms into a slot the converter's calibration has ended, well or not (R276, R277). -/
def execCalibrationReturn (ok : Bool) (s : State) : Host.Outcome State Fault Refusal :=
  if s.convOff then .next s
  else
    let r := s.tk.now / 320000000
    let back := r * 320000000 + 20000000
    let k := fin16 (r % 16)
    let s := (s.setTime (max s.tk.now back)).holdAll (back * 256 - 1)
    if ok then
      if s.wav.halted then .next s
      else
        let s := s.count (srcConv k.val) wCal 1
        .next (s.updWav (fun w => { w with handover := w.standing.map (fun j => (j, false, back)) })).holdNow
    else if s.wav.halted then .next (s.updConv k (fun c => { c with failed := true }))
    else
      .next ((s.updWav (fun w => { w with
        halted := true, handover := none
        standing := match w.standing with
          | some j => some j
          | none => some k.val })).fault 0x0414 (srcConv k.val) 5 k.val 0 [])

/-! ### The reference (R278) -/

/-- ADC_REF_SETTLED: the reference has settled, never sooner than 5 ms after the enable, and every slice has been calibrated,
with the clock of the converters (15 R419). The READY bits of a region that restarts are set as it rejoins (16 R456). -/
def execAdcRefSettled (s : State) : Host.Outcome State Fault Refusal :=
  if s.wav.refOn && s.pwr.pll[5] == .good && (!s.analogOut || s.err.restarting.getLsbD 5) then
    let s := (s.setTime (max s.tk.now (s.wav.refSince + 5000000))).holdNow
    let s := s.updWav (fun w => { w with refFault := false, refReady := true })
    .next (if s.analogOut then s else (s.setReady 10 true).setReady 11 true)
  else .next s

/-- WAVE_REF_FAULT: the reference leaves its window while converters run: both READY bits fall (15 R447), and every sample
that follows carries ERROR (R278; log 166). -/
def execWaveRefFault (s : State) : Host.Outcome State Fault Refusal :=
  if s.wav.refOn && s.wav.cfg.isSome then
    .next ((((s.holdNow.updWav (fun w => { w with refFault := true, refReady := false })).setReady 10 false).setReady 11
      false).fault 0x0415 0x0350 5 17 0 [])
  else .next s

/-! ### Open-wire diagnosis (R287) -/

/-- The reading of each tested input: the mean of its samples of the last 50 µs or its urgent conversion; a free value
where the converters make none (log 125). -/
def State.readings (s : State) (o : OpenWire) : List (Nat × Int) :=
  ((List.range 64).filter (bitOf o.mask)).map (fun i =>
    match o.sums.find? (fun p => p.1 == i) with
    | some p => (i, Int.tdiv p.2.1 p.2.2)
    | none => (i, ((s.free.toNat + i) % 262144 : Nat)))

/-- The inputs of a test that have no reading yet. -/
def OpenWire.unread (o : OpenWire) : List Nat :=
  (List.range 64).filter (fun i => bitOf o.mask i && o.sums.all (fun p => p.1 != i))

/-- A slice holds an urgent conversion for an open-wire test of an input. -/
def Core.tests (c : Core) (i : Nat) : Bool :=
  c.jobs.any (fun j => match j with | .urgent u => u.source == 2 && u.input == i | _ => false)

/-- A stream sample of a tested input that is held in the last 50 µs of the phase is still to be converted (R287). -/
def State.phaseHolds (s : State) (o : OpenWire) : Bool :=
  let due (j : CoreJob) : Bool := match j with
    | .stream h | .again h =>
      bitOf o.mask h.input && decide ((o.since + 150000) * 256 ≤ h.hold) && decide (h.hold ≤ (o.since + 200000) * 256)
    | .urgent _ => false
  s.wav.spare.jobs.any due || s.wav.conv.toList.any (fun v => v.core.jobs.any due)

/-- An urgent conversion for each input without a sample, in ascending order, as far as slices take one now (R287, R273;
log 125). -/
def State.askReadings (s : State) (o : OpenWire) : State :=
  o.unread.foldl (fun s i =>
    if s.wav.spare.tests i || s.wav.conv.toList.any (fun v => v.core.tests i) then s
    else (s.serveUrgent ⟨i, 2, 0, s.tk.now, 0, 0, false, 0⟩).2) s

/-- A phase of the test is over. -/
def State.phaseOver (s : State) (o : OpenWire) : State :=
  let rs := s.readings o
  let s := s.drawn 1
  if !o.down then
    s.updWav (fun w => { w with openWire := some { o with
      down := true, since := s.tk.now, sums := [], up := rs } })
  else
    let opens := (List.range 64).foldl (fun m i =>
      match o.up.find? (fun p => p.1 == i), rs.find? (fun p => p.1 == i) with
      | some u, some d => if (o.th : Int) < u.2 - d.2 then m + 2 ^ i else m
      | _, _ => m) 0
    let s := (s.updWav (fun w => { w with openWire := none })).event 0x0081 srcWave 0
      (leBytes 8 o.mask ++ leBytes 8 opens)
    if opens = 0 then s else s.fault 0x0416 srcWave 5 16 0 (leBytes 8 opens)

/-- OPEN_WIRE_PHASE_END: 200 µs of a phase have passed. It waits for the samples held in it; while inputs then lack a
reading their urgent conversions are asked for; else the phase is over. -/
def execOpenWirePhaseEnd (s : State) : Host.Outcome State Fault Refusal :=
  match s.wav.openWire with
  | none => .next s
  | some o =>
    let s := (s.setTime (max s.tk.now (o.since + 200000))).holdNow
    if s.phaseHolds o then .next s
    else if !o.unread.isEmpty && !s.convOff then .next (s.askReadings o)
    else .next (s.phaseOver o)

end Sys2Proof.Machine
end

