-- ==== Sys2Proof/Machine/WaveBlocks.lean ====
section
/-! DEFINITION. Converter blocks and their readers, the history ring, outage capture, and starting and stopping
the converters (10 R279 to R283, R286, R288, R292). -/

namespace Sys2Proof.Machine

/-- Late entries of a block: index, offset (R280). -/
def Conv.lateOf (c : Conv) (seq : Nat) : List (Nat × Nat) :=
  c.lates.filter (fun p => p.1 / 256 == seq)

/-- The 1,088 bytes of block `seq` (R280). -/
def blockBytes (k : Nat) (e : ConvEnt) (c : Conv) (seq : Nat) (gap : Bool) : List Byte :=
  let h := (c.hdrs.find? (fun h => h.seq == seq)).getD ⟨seq, 0, 0, 0, false⟩
  let ls := c.lateOf seq
  let flags := (if gap then 1 else 0) + (if h.rate then 2 else 0) + (if 4 < ls.length then 4 else 0) +
    (if c.closed.any (fun q => q ≤ seq) then 8 else 0)
  let late (i : Nat) : List Byte := match ls[i]? with
    | some p => leBytes 2 (p.1 % 256) ++ zeroBytes 2 ++ leBytes 4 p.2
    | none => zeroBytes 8
  let word (i : Nat) : Nat := ((c.words.find? (fun p => p.1 == 256 * seq + i)).getD (0, 0)).2
  leBytes 1 k ++ leBytes 1 1 ++ leBytes 2 flags ++ leBytes 4 seq ++ leBytes 8 (h.time0 / 256) ++
  leBytes 4 h.period ++ leBytes 1 (h.time0 % 256) ++ leBytes 1 (min 4 ls.length) ++ leBytes 2 e.delay ++
  leBytes 8 h.tick ++ (List.range 4).flatMap late ++ (List.range 256).flatMap (fun i => leBytes 4 (word i))

/-- Every word of block `seq` is in its place. -/
def Conv.full (c : Conv) (seq : Nat) : Bool :=
  (c.words.filter (fun p => p.1 / 256 == seq)).length == 256

/-- The converter after block `seq`: its words and header are done with. -/
def Conv.after (c : Conv) (seq : Nat) : Conv :=
  { c with
    seq := seq + 1
    words := c.words.filter (fun p => seq < p.1 / 256)
    hdrs := c.hdrs.filter (fun h => seq < h.seq)
    lates := c.lates.filter (fun p => seq < p.1 / 256) }

/-! ### The outage ring (R288) -/

def outageSlots : Nat := 3854
def outageSlot (i : Nat) : Nat := outageBase + 64 + i * 1088

/-- TIME of the oldest block that the ring holds. -/
def Outage.first (o : Outage) : Nat := o.times.headD 0

/-- The 64-byte header of the outage ring. -/
def Outage.header (o : Outage) : List Byte :=
  fitBytes 64 (leBytes 4 o.blocks ++ leBytes 4 o.next ++ leBytes 8 o.first ++ leBytes 8 o.last)

/-- The ring after one more block of a TIME. -/
def Outage.after (o : Outage) (time : Nat) : Outage :=
  { o with
    blocks := o.blocks + 1, next := (o.next + 1) % outageSlots, last := time
    times := (o.times ++ [time]).drop (o.times.length + 1 - outageSlots) }

/-- A block written into the outage ring, or counted as lost once a KEEP_FIRST ring is full. -/
def State.outageWrite (s : State) (keep : Bool) (time0 : Nat) (bs : List Byte) : State :=
  let o := s.wav.outage
  if keep && outageSlots ≤ o.blocks then s.count srcWave wOutageLost 1
  else
    let s := s.writeB (outageSlot o.next) bs
    let o := o.after time0
    ((s.updWav (fun w => { w with outage := o })).writeB outageBase o.header).count srcWave wOutage 1

/-- Stage 3 takes effect: the outage ring begins (R288). -/
def State.outageStart (s : State) : State :=
  let o : Outage := ⟨true, 0, 0, [], 0⟩
  (s.updWav (fun w => { w with outage := o })).writeB outageBase o.header

/-- Stage 3 is undone: the ordinary readers resume and OUTAGE_DONE is placed (R288). -/
def State.outageEnd (s : State) : State :=
  if s.wav.outage.on then
    (s.updWav (fun w => { w with outage := { w.outage with on := false } })).event 0x0083 srcWave 0
      (s.wav.outage.header.take 32)
  else s

/-! ### BLOCK_COMPLETE (R281, R282) -/

/-- A block dropped for all readers: its SEQ is spent, the next block carries GAP. -/
def State.dropBlock (s : State) (k : Fin 16) (seq : Nat) : State :=
  (s.updConv k (fun c => { c.after seq with gap := true, drops := seq :: c.drops.take 1023 })).count
    (srcConv k.val) wDropped 1

/-- The HISTORY partition of a configuration. -/
def State.histPart (s : State) (c : ConvCfg) : Option Partition :=
  s.sched.active.bind (fun im => im.parts.find? (fun p => p.id == c.histPart && p.history))

/-- The place of block `seq` of converter k in the history ring (R283; SEQ is a u32). -/
def State.histAt (s : State) (c : ConvCfg) (k seq : Nat) : Option Nat :=
  (s.histPart c).map (fun p => p.base + (k * c.ringBlocks + seq % 4294967296 % c.ringBlocks) * 1088)

/-- A complete block enters the queue for its readers. -/
def State.takeBlock (s : State) (c : ConvCfg) (k : Fin 16) (seq : Nat) (bs : List Byte) (bad : Bool) : State :=
  let e := c.ent k.val
  let bads := if bad then List.range 34 else []
  let dma := bitOf e.readers 1
  let hist := if bitOf e.readers 2 then s.histAt c k.val seq else none
  let b : Block := ⟨seq, bs, bad, dma, hist, false⟩
  let s := s.updConv k (fun c => { c.after seq with
    gap := false, queue := if dma || hist.isSome then c.queue ++ [b] else c.queue })
  let s := s.count (srcConv k.val) wBlocks 1
  if bitOf e.readers 0 then
    let (ok, s) := s.regionDeliver (fin16 e.facet) (fin16 e.region) (1000 + k.val) bs bads
    if ok then s else s.count (srcConv k.val) wRegion 1
  else s

/-- A begun write into a HISTORY partition reads the queue of converter k and completes in full while the stack is on its way
into self-refresh (06 R171, R173; log 157). -/
def State.drainsConv (s : State) (k : Fin 16) : Bool :=
  s.dma.toList.any (fun e => e.ch.toList.any (fun ch => ch.drains && ch.desc.srcKind == 1 && ch.desc.src == k.val))

/-- Block `conv.seq` of converter k is complete (R281, R288; 16 R454). -/
def State.finishBlock (s : State) (c : ConvCfg) (k : Fin 16) (bad : Bool) : State :=
  let e := c.ent k.val
  let v := s.wav.conv[k]
  let seq := v.seq
  let bs := blockBytes k.val e v seq v.gap
  if s.analogOut then s.dropBlock k seq
  else if s.wav.outage.on then
    let keep := c.outage && bitOf c.outageMask k.val
    let s := if keep then s.outageWrite c.keepFirst (fieldLe bs 8 8) (if bad then zeroBytes 1088 else bs) else s
    if s.drainsConv k then
      (s.updConv k (fun v => { v.after seq with
        gap := false, queue := v.queue ++ [⟨seq, bs, bad, true, none, false⟩] })).count (srcConv k.val) wBlocks 1
    else if keep then (s.updConv k (fun v => { v.after seq with gap := false })).count (srcConv k.val) wBlocks 1
    else s.dropBlock k seq
  else if 30 ≤ v.queue.length then
    (s.dropBlock k seq).tickFault 0x0410 (srcConv k.val) 5 k.val 0
  else s.takeBlock c k seq bs bad

/-- BLOCK_COMPLETE: `bad` is a parity error in the converter buffers. -/
def execBlockComplete (k : Fin 16) (bad : Bool) (s : State) : Host.Outcome State Fault Refusal :=
  match s.wav.cfg with
  | none => .next s
  | some c =>
    if bitOf c.activeMask k.val && (s.wav.conv[k]).full (s.wav.conv[k]).seq then
      .next (s.finishBlock c k bad)
    else .next s

/-! ### HISTORY_WRITE (R283, R286) -/

/-- A block's history reader has taken it. -/
def Conv.histTaken (c : Conv) (b : Block) : Conv :=
  { c with
    histNext := if b.old then c.histNext else b.seq + 1
    queue := (c.queue.map (fun q => if q = b then { q with hist := none } else q)).filter
      (fun q => q.dma || q.hist.isSome) }

/-- The oldest block not yet in the ring of converter k is written when the bucket grants its 1,088 bytes (R283; 06
R165). -/
def State.historyBlock (s : State) (k : Fin 16) : State :=
  match (s.wav.conv[k]).queue.find? (·.hist.isSome) with
  | none => s
  | some b =>
    if s.wav.outage.on || !s.isReady 4 || s.edgeOut then s
    else
      let (ok, s) := s.bucketPass (.history k.val) 1088 3
      if !ok then s
      else
        let s := (s.land ⟨.history k.val, b.hist.getD 0, b.bytes, if b.bad then List.range 34 else [], none⟩).updConv
          k (·.histTaken b)
        (s.wav.cfg.elim s s.closeWaves).closeOld

/-- HISTORY_WRITE. -/
def execHistoryWrite (k : Fin 16) (s : State) : Host.Outcome State Fault Refusal := .next (s.historyBlock k)

/-! ### Starting and stopping (R279) -/

/-- The converters begin at a start tick's edge. -/
def State.startConverters (s : State) (c : ConvCfg) (tick edge : Nat) : State :=
  let conv (v : Conv) : Conv := { Conv.reset with
    queue := v.queue.map (fun b => { b with old := true }), failed := v.failed, core := ⟨[], v.core.freeAt⟩ }
  s.updWav (fun w => { w with
    cfg := some c, trig := 0, startTime := edge, startTick := tick
    seg := (0, edge * 256, c.period), nextPeriod := none, events := []
    conv := w.conv.map conv
    inputs := Vector.ofFn (fun (i : Fin 64) =>
      ⟨(c.inp i.val).offset, (c.inp i.val).gain, [], true, none, []⟩)
    windows := Vector.replicate 8 none, reqs := [] })

/-- Places of a converter's open block that hold no word yet. -/
def Conv.missing (c : Conv) : List Nat :=
  let last := (c.idx + 255) / 256 * 256
  ((List.range (last - 256 * c.seq)).map (· + 256 * c.seq)).filter
    (fun i => !c.words.any (fun p => p.1 == i))

/-- Every complete block of a converter delivered. -/
def State.finishBlocks (s : State) (c : ConvCfg) (k : Fin 16) : Nat → State
  | 0 => s
  | n + 1 =>
    if (s.wav.conv[k]).full (s.wav.conv[k]).seq then (s.finishBlock c k false).finishBlocks c k n else s

/-- The open block of converter k is closed: its remaining words are written MISSED and it is delivered. -/
def State.closeConv (s : State) (c : ConvCfg) (k : Fin 16) : State :=
  let v := s.wav.conv[k]
  let miss := v.missing
  let e := c.ent k.val
  let s := s.setConv k { v with
    pend := [], core := ⟨[], v.core.freeAt⟩, closed := miss.head?.map (· / 256)
    words := v.words ++ miss.map (fun i => (i, missedWord (e.inputOf k.val i))) }
  s.finishBlocks c k ((v.idx + 255) / 256 - v.seq)

/-- STOP takes effect, or another configuration begins (R279). -/
def State.stopConverters (s0 : State) : State :=
  let s := s0.holdNow
  match s.wav.cfg with
  | none => s
  | some c =>
    let s := (List.range 16).foldl (fun s k =>
      if bitOf c.activeMask k then s.closeConv c (fin16 k) else s) s
    let s := (List.range 8).foldl (fun s w => s.retireWave c (fin8 w)) (s.closeWaves c)
    State.closeOld <| s.updWav (fun w => { w with
      conv := w.conv.map (fun v => { v with queue := v.queue.map (fun b => { b with old := true }) })
      cfg := none, windows := Vector.replicate 8 none, reqs := [], spare := ⟨[], w.spare.freeAt⟩, pair := none
      standing := if w.halted then w.standing else none, handover := none, events := [] })

/-! ### Parameter sets (R292): status, 0 for accepted -/

/-- A schedule with a CONVERTER_CONFIG section is running. -/
def State.convRunning (s : State) : Bool :=
  match s.runningImage with
  | some im => im.converter.isSome
  | none => false

/-- ANALOG_REF (R278). -/
def State.setAnalogRef (s : State) (b : List Byte) : Nat × State :=
  if 1 < byteAt b 0 ∨ allZero ((b.drop 1).take 7) = false then (0x0400, s)
  else if byteAt b 0 = 1 then
    if s.wav.refOn then (0, s)
    else (0, s.updWav (fun w => { w with refOn := true, refSince := s.tk.now, refFault := false, refReady := false }))
  else if s.convRunning then (0x0402, s)
  else (0, ((s.holdNow.updWav (fun w => { w with refOn := false, refFault := false, refReady := false })).setReady 10 false).setReady 11 false)

/-- WAVE_PERIOD (R267). -/
def State.setWavePeriod (s : State) (b : List Byte) : Nat × State :=
  let p := fieldLe b 0 4
  match s.wav.cfg with
  | none => (0x0401, s)
  | some c =>
    let fits := (List.range 16).all (fun k => p * (c.ent k).div < 2 ^ 32)
    if c.source = 0 ∧ 128000 ≤ p ∧ fits ∧ allZero ((b.drop 4).take 4) then
      (0, s.updWav (fun w => { w with nextPeriod := some p }))
    else (0x0400, s)

/-- The inputs of a mask in ascending order. -/
def maskInputs (m : Nat) : List Nat := (List.range 64).filter (bitOf m)

/-- Length of a WAVE_CAL set (12 R342). -/
def waveCalLen (b : List Byte) : Nat := 8 + 8 * (maskInputs (fieldLe b 0 8)).length

/-- An i32 field. -/
def fieldI32 (b : List Byte) (off : Nat) : Int := (BitVec.ofNat 32 (fieldLe b off 4)).toInt

/-- WAVE_CAL: a change takes effect at the next block boundary of the input's converter (R270). -/
def State.setWaveCal (s : State) (b : List Byte) : Nat × State :=
  let is := maskInputs (fieldLe b 0 8)
  let ent (j : Nat) : Int × Nat := (fieldI32 b (8 + 8 * j), fieldLe b (12 + 8 * j) 4)
  if s.wav.cfg.isNone then (0x0401, s)
  else if (List.range is.length).all (fun j =>
      -131072 ≤ (ent j).1 && (ent j).1 ≤ 131071 && (ent j).2 ≤ 0xFFFFFF) then
    (0, (is.zip (List.range is.length)).foldl (fun s p =>
      let i := fin64 p.1
      let v := s.wav.conv[fin16 (p.1 / 4)]
      let x := s.wav.inputs[i]
      s.setInput i { x with
        next := x.next ++ [((ent p.2).1, (ent p.2).2, (v.idx - v.pend.length + 255) / 256 * 256)] }) s.holdNow)
  else (0x0400, s)

/-- OPEN_WIRE (R287). -/
def State.setOpenWire (s : State) (b : List Byte) : Nat × State :=
  if 1 < byteAt b 8 ∨ allZero ((b.drop 9).take 3) = false then (0x0400, s)
  else if s.wav.openWire.isSome then (0x0402, s)
  else (0, s.holdNow.updWav (fun w => { w with
    openWire := some ⟨fieldLe b 0 8, byteAt b 8, fieldLe b 12 4, false, s.tk.now, [], []⟩ }))

end Sys2Proof.Machine
end

