-- ==== Sys2Proof/Machine/Dma.lean ====
section
/-! DEFINITION. DMA engines (08 R202 to R223) with the Expander and the Condenser (07 R186 to R199) and the
token bucket's grants (06 R164). -/

namespace Sys2Proof.Machine

/-! ### Counters and statuses -/

def dDone : Nat := 0
def dRead : Nat := 1
def dWritten : Nat := 2
def dBursts : Nat := 3
def dWait : Nat := 4
def dCollapsed : Nat := 5
def dSkipped : Nat := 6
def dPolls : Nat := 7
def dPoisoned : Nat := 8

/-- Non-success statuses in the order in which ERRORS is kept (R223; log 20). -/
def dmaStatuses : List Nat :=
  [0x0100, 0x0101, 0x0102, 0x0103, 0x0104, 0x0105, 0x0106, 0x0140, 0x0141, 0x0142, 0x0143, 0x0144, 0x0145,
   0x0252, 0x0841, 0x0520, 0x0521]

def dError (status : Nat) : Nat := 24 + dmaStatuses.idxOf status

/-- Counters of a Prism's Expander and Condenser (07 R200), after EXP_WAIT. -/
def xOk : Nat := 0
def xCoded : Nat := 1
def xDecoded : Nat := 2
def xMismatch : Nat := 3
def xCrc : Nat := 4
def xPoisoned : Nat := 5
def xZero : Nat := 6
def xLaneCoded : Nat := 7
def xRaw : Nat := 8
def kBlocks : Nat := 16
def kPlain : Nat := 17
def kCoded : Nat := 18
def kZero : Nat := 19
def kLaneCoded : Nat := 20
def kRaw : Nat := 21
def kPoisoned : Nat := 22
def kNoSpace : Nat := 23

/-- Region and block that report a DMA engine (16 R452). -/
def dmaRegion (e : Fin 5) : Nat := if e.val < 4 then e.val else 6
def dmaBlock (e : Fin 5) : Nat := if e.val < 4 then 4 else 6

/-- The engine's region is isolated. -/
def State.engineOut (s : State) (e : Fin 5) : Bool := s.err.isolated.getLsbD (dmaRegion e)

/-- Channel number (R202). -/
def chanNo (e : Fin 5) (c : Fin 8) : Nat := e.val * 8 + c.val

def State.chan (s : State) (e : Fin 5) (c : Fin 8) : Channel := (s.dma[e]).ch[c]

/-- A host channel (R204). -/
def isHostChan (e : Fin 5) (c : Fin 8) : Bool := e == 4 && 6 ≤ c.val

/-! ### Reach (R203; 06 R159) -/

/-- A range touches the footprint of a Prism-local partition (06 R157). -/
def Partition.touches (p : Partition) (a n : Nat) : Bool :=
  let lo := max a p.base
  let hi := min (a + n) (p.base + p.size)
  lo < hi && (List.range (min 4 ((hi - 1) / 16384 - lo / 16384 + 1))).any (fun i =>
    (lo / 16384 + i) % 4 == p.prism)

/-- The partitions of the active and the staged image. -/
def State.partitions (s : State) : List Partition :=
  (match s.sched.active with | some im => im.parts | none => []) ++
  (match s.sched.staged with | some im => im.parts | none => [])

/-- An HBM range lies outside the other Prisms' local partitions (06 R159). -/
def State.localReach (s : State) (e : Fin 5) (a n : Nat) : Bool :=
  e == 4 || s.partitions.all (fun p => p.kind == 0 || p.prism == e.val || !p.touches a n)

/-- An engine may read what stands at an address. -/
def engineReads (e : Fin 5) (a : Nat) : Bool :=
  match placeOf a with
  | .hbm | .lineStore => true
  | .scratch f _ => e == 4 || f.val / 4 == e.val
  | .journal | .outage | .other | .host => e == 4
  | .firmware | .beam _ | .unmapped => false

/-- An engine may write what stands at an address. -/
def engineWrites (e : Fin 5) (a : Nat) : Bool :=
  match placeOf a with
  | .hbm | .beam _ => true
  | .scratch f _ => e == 4 || f.val / 4 == e.val
  | .other => e == 4 && !readOnlyOther a
  | .host => e == 4
  | .lineStore | .firmware | .journal | .outage | .unmapped => false

/-- A source range is mapped and within the engine's reach. -/
def State.canRead (s : State) (e : Fin 5) (a n : Nat) : Bool :=
  rangeAll (engineReads e) a n && (!inHbm a || (s.hbmMapped && s.localReach e a n))

/-- A destination range is mapped, within the engine's reach and may be written. -/
def State.canWrite (s : State) (e : Fin 5) (a n : Nat) : Bool :=
  rangeAll (engineWrites e) a n &&
  (match placeOf a with
    | .hbm => s.hbmWritable a n && s.localReach e a n
    | .beam _ => (s.txFor a n).isSome
    | _ => true)

/-- A region that a descriptor's data comes from or goes to, other than its engine's, is isolated: new work for it is
refused (01 R17; log 115). -/
def State.targetOut (s : State) (d : DmaDesc) : Bool :=
  let out (a : Nat) : Bool := match placeOf a with
    | .scratch f _ => s.err.isolated.getLsbD (f.val / 4)
    | .lineStore => s.err.isolated.getLsbD 4
    | _ => false
  (if d.srcKind = 1 then s.err.isolated.getLsbD 5 else out d.src) || (d.transform != 3 && out d.dst)

/-! ### The checks of R210 -/

/-- Check 1 on the 64 bytes of a descriptor. A LEN that is no multiple of 64 is left to check 2. -/
def descOk (e : Fin 5) (c : Fin 8) (b : List Byte) : Bool :=
  let d := DmaDesc.ofBytes b
  let sel := match d.waitKind with
    | 0 => d.waitSel == 0
    | 1 => true
    | 2 => decide (d.waitSel < 8)
    | 3 => decide (d.waitSel < 8) && d.waitSel != c.val
    | 4 => true
    | 5 => decide (d.waitSel < 5)
    | 6 => true
    | _ => false
  bitsOf d.ctrl 2 6 == 0 && decide (d.transform ≤ 3) && decide (d.srcKind ≤ 1) &&
  (if d.transform = 2 then decide (d.coding ≤ 1) else d.coding == 0) && sel &&
  (d.transform == 0 || d.transform == 3 || decide (e.val < 4)) && d.len != 0 &&
  ((d.transform != 0 && d.transform != 3) || d.outLen == 0) &&
  (d.transform != 3 || d.dst == 0) &&
  !(d.circ && (d.transform == 2 || d.transform == 3)) &&
  allZero ((b.drop 4).take 4) && allZero ((b.drop 0x3C).take 4) &&
  (d.srcKind == 0 || (decide (d.src < 16) && (d.len % 64 != 0 || d.len % 1088 == 0)))

/-- Check 2. -/
def DmaDesc.aligned (d : DmaDesc) : Bool :=
  (d.srcKind == 1 || d.src % 64 == 0) && d.dst % 64 == 0 && d.len % 64 == 0 && d.outLen % 64 == 0 &&
  (!d.chain || d.next % 64 == 0)

/-- Check 3; a region selector is an address like any other, and check 5 judges what it selects. -/
def State.descReach (s : State) (e : Fin 5) (d : DmaDesc) : Bool :=
  (d.srcKind == 1 || s.canRead e d.src d.len) &&
  (if d.transform = 3 then true
   else if d.circ then
     match placeOf d.dst with
     | .scratch f _ => e == 4 || f.val / 4 == e.val
     | _ => false
   else s.canWrite e d.dst d.outBytes)

/-- Check 5. -/
def State.descRegion (s : State) (e : Fin 5) (c : Fin 8) (d : DmaDesc) : Bool :=
  if d.circ then
    match d.region with
    | some (f, r) =>
      let g := s.facets[f].regions[r]
      g.declared && (if d.transform = 1 then g.producer == 2 && g.pindex == e.val
        else g.producer == 1 && g.pindex == chanNo e c)
    | none => false
  else true

/-- Check 6 and its effect on the Aperture's counters. -/
def State.descEgress (s : State) (d : DmaDesc) : Bool × State :=
  let path : Option EgressPath :=
    if d.transform = 3 || d.circ then none
    else match placeOf d.dst with
      | .host => some .pcie
      | .beam _ => some .beam
      | _ => none
  match path with
  | none => (true, s)
  | some p =>
    if d.srcKind = 1 then
      let ok := s.classPasses .waveform (max d.len d.outBytes)
      (ok, s.judged p ok)
    else s.judgeTransfer p d.src d.len d.outBytes

/-- The first check that fails, 0 for none (R210; 07 R195). -/
def State.checkDesc (s : State) (e : Fin 5) (c : Fin 8) (b : List Byte) : Nat × State :=
  let d := DmaDesc.ofBytes b
  if !descOk e c b then (0x0104, s)
  else if !d.aligned then (0x0101, s)
  else if !s.descReach e d then (0x0102, s)
  else if d.srcKind = 0 && !d.circ && d.transform != 3 && overlaps d.src d.len d.dst d.outBytes then
    (0x0104, s)
  else if !s.descRegion e c d then (0x0104, s)
  else
    let (ok, s) := s.descEgress d
    if !ok then (0x0103, s)
    else if s.targetOut d then (0x0100, s)
    else if d.transform = 2 && d.len % 8192 != 0 then (0x0145, s)
    else (0, s)

/-! ### Completion (R208, R214) -/

/-- The templates of the active image, or of the staged one while it preloads. -/
def State.tmplSource (s : State) : List Tmpl :=
  let im := match s.sched.start with
    | some p => if p.staged ∧ s.runningImage.isNone then s.sched.staged else s.sched.active
    | none => s.sched.active
  match im with
  | some im => im.templates
  | none => []

def State.tmplDesc (s : State) (i : Nat) : Option Tmpl := s.tmplSource[i]?

/-- The chain of templates from an index on, each once, as it is loaded into the template store (R217; 02 R52). -/
def tmplChain (ts : List Tmpl) : Nat → Nat → List (Nat × Tmpl) → List (Nat × Tmpl)
  | 0, _, acc => acc
  | n + 1, i, acc =>
    if acc.any (fun p => p.1 == i) then acc
    else match ts[i]? with
      | some t =>
        let acc := acc ++ [(i, t)]
        if t.next = 0xFFFF ∨ !bitOf t.desc.ctrl 29 then acc else tmplChain ts n t.next acc
      | none => acc

/-- The template of an index in a channel's part of the store. -/
def Channel.stored (x : Channel) (i : Nat) : Option Tmpl := (x.store.find? (fun p => p.1 == i)).map (·.2)

/-- A template armed: its chain is loaded into the store and fetched from its first descriptor on (R217). -/
def State.armChan (s : State) (e : Fin 5) (c : Fin 8) (i : Nat) : State :=
  s.updChan e c (fun x => { Channel.reset with
    phase := .fetching, at_ := .tmpl i, store := tmplChain s.tmplSource (s.tmplSource.length + 1) i []
    latch := x.latch, seq := x.seq })

/-- Preload templates are armed in template order, each once the one before it is armed and its channel is free (02 R61;
R217; DEDUCED, log 158). -/
def State.armPreloads (s : State) : State :=
  match s.sched.start with
  | none => s
  | some p =>
    p.preloads.foldl (fun s i =>
      match s.tmplDesc i, s.sched.start with
      | some t, some q =>
        let e := fin5 t.engine
        let c := fin8 t.channel
        let free := match (s.chan e c).phase with
          | .idle | .halted => true
          | _ => false
        if q.preloads.head? == some i && free && !q.running.any (fun r => r.1 == chanNo e c) then
          (s.updSched (fun x => { x with start := some { q with
            preloads := q.preloads.tail, running := q.running ++ [(chanNo e c, i)] } })).armChan e c i
        else s
      | _, _ => s) s

/-- The channel's preload chain has ended, and the preloads that it held back are armed (02 R61). -/
def State.preloadEnd (s : State) (e : Fin 5) (c : Fin 8) : State :=
  match s.sched.start with
  | none => s
  | some p =>
    if p.running.any (fun r => r.1 == chanNo e c) then
      (s.updSched (fun x => { x with start := some { p with
        running := p.running.filter (fun r => r.1 != chanNo e c) } })).armPreloads
    else s

/-- Completion fields of a template (R208). -/
def State.tmplDone (s : State) (t : TmplStatus) : State :=
  { s with tmplStatus := s.tmplStatus.filter (fun x => x.idx != t.idx) ++ [t] }

/-- A descriptor may be fetched from an address by an engine (R203, R205). -/
def State.canFetch (s : State) (e : Fin 5) (a : Nat) : Bool :=
  a % 64 == 0 &&
  (match placeOf a with
  | .hbm => s.hbmMapped && s.localReach e a 64
  | .scratch f _ => decide (e.val < 4) && f.val / 4 == e.val
  | .host | .other => e == 4
  | _ => false)

/-- Bytes of the completion that cross to HBM: the write of STATUS, RESIDUE, TIME and SEQ, and the one of CTRL. -/
def backBytes : Nat := 28

/-- A completion is written back where the descriptor could be fetched and may be written; a sealed Aperture lets nothing
out (R203, R208; 02 R56; 06 R160). -/
def State.backOk (s : State) (e : Fin 5) (addr : Nat) : Bool :=
  s.canFetch e addr && !(placeOf addr == .host && s.ap.sealed) &&
    (if inHbm addr then s.hbmWritable addr 64 else !readOnlyOther addr)

/-- HBM bytes that a completion takes. -/
def State.backCost (s : State) (e : Fin 5) : DescAt → Nat
  | .mem a => if inHbm a && s.backOk e a then backBytes else 0
  | .tmpl _ => 0

/-- The completion written back to memory in its two writes (R208 steps 3 and 4). One into host memory counts as egress
(01 R30). -/
def State.writeBack (s : State) (e : Fin 5) (addr : Nat) (d : DmaDesc) (status residue time seq : Nat) : State :=
  if !s.backOk e addr then s
  else
    let s := if placeOf addr == .host then s.egress .pcie else s.yieldsAt addr
    let s := (s.writeMerged (addr + 0x28) (leBytes 4 status ++ leBytes 4 residue ++ leBytes 8 time ++
      leBytes 4 seq ++ zeroBytes 4)).writeMerged addr (leBytes 4 (d.ctrl % 2 ^ 31))
    if inHbm addr then s.countPages hWrite addr backBytes else s

/-- The status halts the channel (R214). -/
def haltingStatus (status : Nat) (abortHalts : Bool) : Bool :=
  status == 0x0101 || status == 0x0102 || status == 0x0104 || (status == 0x0100 && abortHalts)

/-- The DONE latch set, or two completions merged (R212). -/
def State.setLatch (s : State) (e : Fin 5) (c : Fin 8) : State :=
  if (s.chan e c).latch then s.count (srcDma e c) dCollapsed 1
  else s.updChan e c (fun x => { x with latch := true })

/-- The descriptor after a completed one: NEXT, another template, or none (R208 step 6). -/
def Channel.nextAt (ch : Channel) : Option DescAt :=
  if !ch.desc.chain || ch.noNext then none
  else match ch.at_ with
    | .mem _ => some (.mem ch.desc.next)
    | .tmpl i => match ch.stored i with
      | some t => if t.next = 0xFFFF then none else some (.tmpl t.next)
      | none => none

/-- A channel keeps HBM open on the way into self-refresh: a begun HISTORY write runs, or an aborted descriptor that lies in
HBM has not completed (06 R171, R173). -/
def Channel.keepsHbm (c : Channel) : Bool :=
  c.drains || (match c.phase, c.at_ with
    | .aborting .., .mem a => inHbm a
    | _, _ => false)

/-- Self-refresh is entered once the last begun HISTORY write and the last aborted descriptor in HBM have ended (06 R171,
R174). -/
def State.drained (s : State) : State :=
  let busy := s.dma.toList.any (fun en => en.ch.toList.any (fun ch => ch.keepsHbm))
  if s.hbm.phase = .draining ∧ busy = false then
    (s.updHbm (fun h => { h with phase := .selfRefresh })).count srcHbm hSelfRefresh 1
  else s

/-- A channel's burst no longer waits for buffer space (R223). -/
def State.unfull (s : State) (e : Fin 5) (c : Fin 8) : State :=
  { s with dma := s.dma.set e { s.dma[e] with bufWait := s.dma[e].bufWait.filter (fun b => b.1 != c.val) } }

/-- A descriptor completes (R208, R214). -/
def State.finishDesc (s : State) (e : Fin 5) (c : Fin 8) (status residue : Nat) (abortHalts : Bool) :
    State :=
  let ch := s.chan e c
  let seq := (ch.seq + 1) % 2 ^ 32
  let halts := haltingStatus status abortHalts
  let time := ch.lastAt.getD s.tk.now
  let s := (s.unfull e c).count (srcDma e c) dDone 1
  let s := if status = 0 then s else s.count (srcDma e c) (dError status) 1
  let s := match ch.at_ with
    | .mem a => s.writeBack e a ch.desc status residue time seq
    | .tmpl i => s.tmplDone ⟨i, status, residue, time, seq⟩
  let id := match ch.at_ with | .mem a => leBytes 8 a | .tmpl i => fitBytes 8 (leBytes 2 i)
  let s := if ch.desc.irq || halts then
      s.event 0x0070 (srcDma e c) 0 (id ++ leBytes 4 status ++ leBytes 4 residue ++ leBytes 4 seq)
    else s
  let s := if halts then s.fault status (srcDma e c) (dmaRegion e) (dmaBlock e) 0 [] else s
  let nxt := if halts then none else ch.nextAt
  let s := (s.updChan e c (fun x => { Channel.reset with
    phase := if halts then .halted else if nxt.isSome then .fetching else .idle
    at_ := nxt.getD x.at_, store := x.store, latch := x.latch, seq := seq })).setLatch e c
  (if nxt.isSome then s else s.preloadEnd e c).drained

/-- A descriptor that ends without having asked the bucket for its completion: the completion is charged and does not wait
(06 R165; log 113). -/
def State.endDesc (s : State) (e : Fin 5) (c : Fin 8) (status residue : Nat) (abortHalts : Bool) : State :=
  let n := s.backCost e (s.chan e c).at_
  (if n = 0 then s else s.takeBucket n).finishDesc e c status residue abortHalts

/-! ### DESCRIPTOR_FETCH (R205, R210, R221) -/

/-- A checked descriptor waits for its start event, or completes at once on a failed check. -/
def State.takeDesc (s : State) (e : Fin 5) (c : Fin 8) (b : List Byte) : State :=
  let d := DmaDesc.ofBytes b
  let (st, s) := s.checkDesc e c b
  let s := s.updChan e c (fun x => { x with desc := d, phase := .waiting, waitFrom := s.tk.now })
  if st = 0 then s else s.endDesc e c st d.len false

/-- The bytes of a template's descriptor in the store, with OWN at 1 (R217). -/
def DmaDesc.storeBytes (d : DmaDesc) : List Byte :=
  leBytes 4 (d.ctrl % 2 ^ 31 + 2 ^ 31) ++ zeroBytes 4 ++ leBytes 8 d.src ++ leBytes 8 d.dst ++ leBytes 4 d.len ++
    leBytes 4 d.outLen ++ leBytes 8 d.next ++ zeroBytes 24

/-- A descriptor read from memory: a host channel that does not own it polls (R221). -/
def State.readDesc (s : State) (e : Fin 5) (c : Fin 8) (a : Nat) : State :=
  let (b, _, s) := (s.yieldsAt a).readDev a 64
  let s := if inHbm a then s.countPages hRead a 64 else s
  if bitOf (fieldLe b 0 4) 31 then s.takeDesc e c b
  else if isHostChan e c then s.updChan e c (fun x => { x with phase := .polling })
  else (s.updChan e c (fun x => { x with desc := DmaDesc.ofBytes b })).endDesc e c 0x0104
    (fieldLe b 0x18 4) false

/-- The descriptor of a channel fetched; out of HBM when the bucket grants its 64 bytes (06 R165; log 113). -/
def State.fetchDesc (s : State) (e : Fin 5) (c : Fin 8) : State :=
  match (s.chan e c).at_ with
  | .tmpl i =>
    match (s.chan e c).stored i with
    | some t => s.takeDesc e c t.desc.storeBytes
    | none => (s.updChan e c (fun x => { x with phase := .idle })).preloadEnd e c
  | .mem a =>
    if s.canFetch e a = false then
      (s.updChan e c (fun x => { x with desc := DmaDesc.zero })).endDesc e c 0x0102 0 false
    else
      let (ok, s) := s.bucketPass (.fetch (chanNo e c)) (if inHbm a then 64 else 0) 3
      if ok then s.readDesc e c a else s

/-- The fetch of a channel that is fetching. -/
def State.fetchStep (s : State) (e : Fin 5) (c : Fin 8) : State :=
  if (s.chan e c).phase = .fetching ∧ s.engineOut e = false then s.fetchDesc e c else s

/-- HOST_CHANNEL_POLL (R221): the re-read of CTRL is counted; once OWN is 1 the descriptor is fetched. -/
def execHostChannelPoll (c : Fin 8) (s : State) : Host.Outcome State Fault Refusal :=
  if isHostChan 4 c && (s.chan 4 c).phase == .polling && !s.engineOut 4 then
    .next ((s.count (srcDma 4 c) dPolls 1).fetchDesc 4 c)
  else .next s

/-! ### DESCRIPTOR_START (R209, R211, R212) -/

/-- The start condition of a waiting descriptor; a TIME it names has been reached or is reached now. -/
def State.startMet (s : State) (e : Fin 5) (ch : Channel) : Bool :=
  let d := ch.desc
  match d.waitKind with
  | 0 => true
  | 1 => ch.startAt.isSome
  | 2 => ch.eventSeen
  | 3 => ((s.dma[e]).ch[fin8 d.waitSel]).latch
  | 4 => (s.wav.conv[fin16 d.waitSel]).queue.any (·.dma) && !s.wav.outage.on
  | 5 => !(s.img.streams[fin5s d.waitSel]).held.isEmpty
  | 6 => match s.beam.tx[fin16 d.waitSel] with
    | some t => t.used + creditUnits (if d.transform = 2 then d.outLen else d.len) ≤ t.granted
    | none => false
  | _ => false

/-- A descriptor that reads a stream's ring as a queue (09 R245). -/
def State.queueStream (s : State) (d : DmaDesc) : Option (Fin 5) :=
  match s.img.cfg with
  | none => none
  | some c => if readsStream c d.waitSel d then some (fin5s d.waitSel) else none

/-- Another channel reads the same queue and has not completed (R209, 09 R245). -/
def State.queueTaken (s : State) (n : Nat) (d : DmaDesc) : Bool :=
  (List.range 40).any (fun m =>
    let x := s.chan (fin5 (m / 8)) (fin8 m)
    m != n && x.moving &&
      ((d.srcKind == 1 && x.desc.srcKind == 1 && x.desc.src == d.src) ||
       ((s.queueStream d).isSome && s.queueStream x.desc == s.queueStream d)))

/-- A started descriptor reserves its region space, or meets OVERRUN (R211, 05 R148, R149). -/
def State.reserveFor (s : State) (e : Fin 5) (c : Fin 8) : State :=
  let d := (s.chan e c).desc
  if !d.circ then s
  else match d.region with
    | none => s
    | some (f, r) =>
      let k := d.outBytes / 32
      if (s.facets[f].regions[r]).fits k then
        ((s.updRegion f r (fun x => x.reserve (chanNo e c) k)).highWater f r).updChan e c
          (fun x => { x with resv := some (s.ringAt f r) })
      else (s.regionOverrun f r).updChan e c (fun x => { x with stop := some 0x0252 })

/-- A third reservation of a region waits (05 R148). -/
def State.regionFull (s : State) (d : DmaDesc) : Bool :=
  d.circ && (match d.region with
    | some (f, r) => (s.facets[f].regions[r]).full2
    | none => false)

/-- A descriptor's source or destination lies in HBM. -/
def DmaDesc.usesHbm (d : DmaDesc) : Bool :=
  (d.srcKind != 1 && inHbm d.src) || (d.transform != 3 && !d.circ && inHbm d.dst)

/-- A descriptor writes into a HISTORY partition of the active or the staged image (06 R173). -/
def State.writesHistory (s : State) (d : DmaDesc) : Bool :=
  d.transform != 3 && !d.circ && s.partitions.any (fun p => p.history && p.holds d.dst)

/-- DESCRIPTOR_START: the start event of a waiting descriptor occurs. None that uses HBM begins while the stack is
on its way into self-refresh (06 R171). -/
def execDescriptorStart (e : Fin 5) (c : Fin 8) (s : State) : Host.Outcome State Fault Refusal :=
  let ch := s.chan e c
  if ch.phase = .waiting ∧ s.startMet e ch ∧ s.queueTaken (chanNo e c) ch.desc = false ∧
      s.regionFull ch.desc = false ∧ s.engineOut e = false ∧
      ¬ (s.hbm.phase = .draining ∧ ch.desc.usesHbm = true) then
    let s := match ch.startAt with
      | some t => s.setTime (max s.tk.now t)
      | none => s
    let s := if ch.desc.waitKind = 3 then
        s.updChan e (fin8 ch.desc.waitSel) (fun x => { x with latch := false })
      else s
    let s := s.count (srcDma e c) dWait ((s.tk.now - ch.waitFrom) / 2)
    .next ((s.updChan e c (fun x => { x with
      phase := .running, crc := 0xFFFFFFFF, history := s.writesHistory ch.desc })).reserveFor e c)
  else .next s

/-! ### BURST_ISSUE and BUCKET_GRANT (R213, R215, R216; 06 R164) -/

/-- What the next burst of a channel reads: source address, bytes, and its HBM bytes; none when it is not
ready. -/
structure Burst1 where
  src : Nat
  n : Nat
  hbm : Nat
  deriving DecidableEq, Repr

/-- Bytes up to the next 4 KiB boundary of an address. -/
def toPage (a : Nat) : Nat := 4096 - a % 4096

/-- The destination address of a channel's next byte, and bytes to its region's end. -/
def Channel.dstNext (ch : Channel) : Nat × Nat :=
  match ch.resv with
  | some g =>
    let p := if g.size = 0 then 0 else (g.off + ch.writtenN / 32) % g.size
    (unitAddr (fin16 g.facet) (g.base + p), (g.size - p) * 32)
  | none => (ch.desc.dst + ch.writtenN, 2 ^ 48)

/-- Coded bytes that an Expander still lacks for the block it receives (07 R177): its header first. A header whose
TOTAL_LEN does not fit its own fields tells no end, so the block is judged on it (log 118). -/
def expandNeed (slot : List Byte) (unread : Nat) : Nat :=
  if slot.isEmpty then 64
  else
    let h := BlockHdr.parse slot
    if h.totalLen = h.formulaLen ∧ h.totalLen ≤ unread ∧ h.totalLen ≤ 10304 then h.totalLen - slot.length else 0

/-- Bytes that an Expander holds of a channel's blocks. -/
def slotBytes (n : Nat) (q : List BlockSlot) : Nat :=
  ((q.filter (fun b => b.chan == n)).map (fun b => b.bytes.length)).foldl (· + ·) 0

/-- Room in an Expander for the next burst of a channel with so many coded bytes not yet written from it: the rest of
the block that it receives, or a new one in the second slot. Another channel's block comes only after the one
before it has been judged and waits for its write alone (07 R186, R194). -/
def expandRoom (q : List BlockSlot) (judged : Bool) (n unread : Nat) : Nat :=
  match q with
  | [] => 64
  | [b] =>
    if !b.whole then (if b.chan = n then expandNeed b.bytes unread else 0)
    else if b.chan = n ∨ judged then 64 else 0
  | b :: b' :: _ =>
    if b'.chan = n ∧ b'.whole = false then
      expandNeed b'.bytes (unread - (if b.chan = n then b.bytes.length else 0))
    else 0

/-- HBM grants the bursts of a channel: while it is ready, and to begun HISTORY writes while it drains (06 R171). -/
def State.hbmFor (s : State) (ch : Channel) : Bool :=
  s.hbm.phase == .ready || (s.hbm.phase == .draining && ch.history)

/-- A channel's next burst (R213; 07 R186, R194, R199). -/
def State.burstOf (s : State) (e : Fin 5) (c : Fin 8) : Option Burst1 :=
  let ch := s.chan e c
  let d := ch.desc
  let me := chanNo e c
  if ch.phase ≠ .running ∨ ch.stop.isSome = true ∨ d.len ≤ ch.readN ∨
      s.hbm.waiting.any (fun w => w.user == .chan me || w.user == .back me) = true then none
  else
    let left := d.len - ch.readN
    let p := fin4 e.val
    let room :=
      if d.transform = 1 then
        expandRoom s.exp[p] (s.hbm.waiting.any (fun w => w.user == .expander p.val)) me (d.len - ch.codedDone)
      else if d.transform = 2 then
        match s.cnd[p] with
        | some b => if b.chan = me then 8192 - b.bytes.length else 0
        | none => 8192
      else left
    let dst := ch.dstNext
    let dn := if d.transform = 0 then min (toPage dst.1) dst.2 else 4096
    let src : Option (Nat × Nat) :=
      if d.srcKind = 1 then
        if !ch.block.isEmpty then some (0, ch.block.length)
        else if (s.wav.conv[fin16 d.src]).queue.any (·.dma) && (ch.history || !s.wav.outage.on) then some (0, 1088)
        else none
      else match s.queueStream d with
        | some i =>
          let g := match s.img.cfg with | some o => (o.stream i).groupBytes | none => 64
          let o := if g = 0 then 0 else ch.readN % g
          if o ≠ 0 then some (ch.group + o, min (g - o) (toPage (ch.group + o)))
          else match (s.img.streams[i]).held with
            | q :: _ => some (d.src + q * g, min g (toPage (d.src + q * g)))
            | [] => none
        | none => some (d.src + ch.readN, toPage (d.src + ch.readN))
    match src with
    | none => none
    | some (a, m) =>
      let n := min (min left room) (min m (min dn 4096))
      let h := (if d.srcKind = 0 ∧ inHbm a then n else 0) +
        (if d.transform = 0 ∧ d.circ = false ∧ inHbm dst.1 then n else 0)
      if n = 0 ∨ (0 < h ∧ s.hbmFor ch = false) then none else some ⟨a, n, h⟩

/-- A DMA access of a burst that meets schedule-timed ones: it waits a cycle and is counted, or the overlap of
R132 is charged to the Facet that issued the other access (05 R131, R132). -/
def State.dmaMeet (s : State) (m : Meet) : State :=
  let f := fin16 (m.mine.unit / 0x80000)
  if m.others.any (fun q => q.beats m.mine) then s.count (srcFacet f) cYield 1
  else
    m.others.foldl (fun s q =>
      if q.engine && q.units.contains m.mine.unit && q.write != m.mine.write then
        let g := match q.cls with | .xbar g => g | _ => f
        let s := s.count (srcFacet g) cOverlap 1
        if s.strict g then
          ((s.count (srcFacet g) cStrict 1).facetError g 0x0253 (m.mine.unit * 32)).updFacet g
            (fun x => { x with invalid := true })
        else s
      else s) s

/-- The source bytes of a burst with the indices of poisoned pieces. -/
def State.readBurst (s : State) (e : Fin 5) (c : Fin 8) (b : Burst1) : List Byte × List Nat × State :=
  let ch := s.chan e c
  let d := ch.desc
  if d.srcKind = 1 then
    let k := fin16 d.src
    let (blk, bad, s) := if ch.block.isEmpty then
        match (s.wav.conv[k]).queue.find? (·.dma) with
        | some q =>
          (q.bytes, q.bad, s.updConv k (fun v => { v with
            queue := (v.queue.map (fun x => if x = q then { x with dma := false } else x)).filter
              (fun x => x.dma || x.hist.isSome) }))
        | none => ([], false, s)
      else (ch.block, ch.blockBad, s)
    let s := s.updChan e c (fun x => { x with block := blk.drop b.n, blockBad := bad })
    (fitBytes b.n blk, if bad then List.range (b.n / 32) else [], s)
  else
    let s := match s.queueStream d with
      | some i =>
        let g := match s.img.cfg with | some o => (o.stream i).groupBytes | none => 64
        if g ≠ 0 ∧ ch.readN % g = 0 then
          (s.updStream i (fun x => { x with held := x.held.drop 1 })).updChan e c
            (fun x => { x with group := b.src })
        else s
      | none => s
    let (bs, bads, s) := s.readDev b.src b.n
    let s := if inHbm b.src then s.countPages hRead b.src b.n else s
    (bs, bads.map (· - b.src / 32), s)

/-- The last write of a channel's transfer has reached its destination now (R205). -/
def State.lastWrite (s : State) (e : Fin 5) (c : Fin 8) : State :=
  s.updChan e c (fun x => { x with lastAt := some s.tk.now })

/-- Bytes written at the destination of a channel (R211, R215; 06 R168, R173). HBM that has come under protection since the
descriptor was checked is not written, and the transfer stops (02 R56; log 152). -/
def State.writeOut (s : State) (e : Fin 5) (c : Fin 8) (off : Nat) (bs : List Byte) (bads : List Nat) :
    State :=
  let ch := s.chan e c
  let a := ch.desc.dst + off
  if ch.resv.isNone && inHbm a && !s.hbmWritable a bs.length then
    s.updChan e c (fun x => { x with stop := some 0x0102 })
  else
    let s := (s.count (srcDma e c) dWritten bs.length).lastWrite e c
    match ch.resv with
    | some g => s.writeRing g (off / 32) bs bads
    | none =>
      let (s, lost) := s.writeDev a bs bads
      let s := if inHbm a then (s.countPages hWrite a bs.length).markWrite a bs.length else s
      if lost then
        (s.updChan e c (fun x => { x with poisonLost := true })).tickFault 0x0841 srcHbm 6 (16 + chanOf a) a
      else s

/-- A piece of a message through the send window of its destination (11 R313). Credit is charged on the message's
length at its first frame, on condensed bytes as they are sent (07 R199; log 117). -/
def State.sendOut (s : State) (e : Fin 5) (c : Fin 8) (first : Bool) (frag : Nat) (bs : List Byte) (bads : List Nat)
    (last : Bool) : State :=
  let d := (s.chan e c).desc
  match s.txFor d.dst d.outBytes with
  | none => s.updChan e c (fun x => { x with stop := some 0x0520 })
  | some w =>
    let flags := (if first then 1 else 0) + (if last then 2 else 0)
    let units := if d.transform = 2 then creditUnits (frag + bs.length) - creditUnits frag
      else if first then creditUnits d.outBytes else 0
    (s.count (srcDma e c) dWritten bs.length).beamData w flags units ((d.dst - beamBase) % 2 ^ 28)
      d.outBytes frag (zeroBad bads bs) (chanNo e c)

/-- A channel after `n` more output bytes, unless its transfer has stopped. -/
def Channel.wrote (ch : Channel) (n : Nat) : Channel :=
  if ch.stop.isSome then ch else { ch with writtenN := ch.writtenN + n }

def isBeam (a : Nat) : Bool := match placeOf a with | .beam _ => true | _ => false

/-- Coded bytes reach an Expander: its open slot or a new one (07 R186, R200). -/
def State.feedExp (s : State) (e : Fin 5) (c : Fin 8) (bs : List Byte) (bad : Bool) : State :=
  let p := fin4 e.val
  let q := s.exp[p]
  let done := q.filter (·.whole)
  let old := match q.find? (fun b => !b.whole) with | some b => b | none => ⟨chanNo e c, [], false, false, []⟩
  let all := old.bytes ++ bs
  let unread := (s.chan e c).desc.len - (s.chan e c).codedDone - slotBytes (chanNo e c) done
  ({ s with exp := s.exp.set p (done ++ [{ old with
      bytes := all, poisoned := old.poisoned || bad, whole := expandNeed all unread == 0 }]) }).count
    (srcExp p) xCoded bs.length

/-- Plain bytes reach a Condenser's buffer (07 R199, R200). -/
def State.feedCnd (s : State) (e : Fin 5) (c : Fin 8) (bs : List Byte) (bads : List Nat) : State :=
  let p := fin4 e.val
  let old := match s.cnd[p] with | some q => q | none => ⟨chanNo e c, [], false, false, []⟩
  let all := old.bytes ++ bs
  ({ s with cnd := s.cnd.set p (some { old with
      bytes := all, poisoned := old.poisoned || !bads.isEmpty, whole := all.length == 8192
      badUnits := old.badUnits ++ bads.map (· + old.bytes.length / 32) }) }).count (srcExp p) kPlain bs.length

/-- A granted burst moves: read, and written, coded or taken into the CRC in one step (log 11). -/
def State.doBurst (s : State) (e : Fin 5) (c : Fin 8) (b : Burst1) : State :=
  let ch := s.chan e c
  let d := ch.desc
  let s := (s.count (srcDma e c) dBursts 1).count (srcDma e c) dRead b.n
  let (bs, bads, s) := s.readBurst e c b
  let s := if bads.isEmpty then s
    else
      (((s.count (srcDma e c) dPoisoned bads.length).tickFaultK 0x0105 (srcEngine e.val) 0 (dmaRegion e)
        (dmaBlock e) 0 bads.length []).updChan e c (fun x => { x with poisonSeen := true }))
  let s := s.updChan e c (fun x => { x with readN := x.readN + b.n })
  if d.transform = 1 then s.feedExp e c bs (!bads.isEmpty)
  else if d.transform = 2 then s.feedCnd e c bs bads
  else if d.transform = 3 then
    if bads.isEmpty then s.updChan e c (fun x => { x with crc := crcRun x.crc bs })
    else s.updChan e c (fun x => { x with stop := some 0x0105 })
  else
    let s := if isBeam d.dst then
        s.sendOut e c (ch.writtenN == 0) ch.writtenN bs bads (decide (d.len ≤ ch.writtenN + b.n))
      else s.writeOut e c ch.writtenN bs bads
    s.updChan e c (·.wrote b.n)

/-- Channels of an engine with a burst to issue in the order in which they are served: priority level, then round
robin (R213). -/
def State.serveOrder (s : State) (e : Fin 5) : List (Fin 8) :=
  [3, 2, 1, 0].flatMap (fun l =>
    ((List.range 8).map (fun i => fin8 ((s.dma[e]).rr[fin4 l] + 1 + i))).filter (fun c =>
      (s.chan e c).desc.prio == l && (s.burstOf e c).isSome))

/-- A channel's burst finds space in the buffer. -/
def State.hasSpace (s : State) (e : Fin 5) (c : Fin 8) : Bool :=
  match s.burstOf e c with
  | some b => s.buffered e.val c.val b.n
  | none => true

/-- The round-robin turn of a channel is noted. -/
def State.served (s : State) (e : Fin 5) (c : Fin 8) : State :=
  let en := s.dma[e]
  let l := fin4 (s.chan e c).desc.prio
  { s with dma := s.dma.set e { en with rr := en.rr.set l c.val } }

/-- Accesses that a command's writes or reads of scratchpads meet (05 R131, R132; log 9). -/
def State.dmaMeets (s : State) (ms : List Meet) : State := ms.foldl (fun s m => s.dmaMeet m) s

/-- A channel's burst moves when the bucket grants it. -/
def State.issue (s : State) (e : Fin 5) (c : Fin 8) (b : Burst1) (ms : List Meet) : State :=
  let (ok, s) := s.bucketPass (.chan (chanNo e c)) b.hbm (s.chan e c).desc.prio
  if ok then (s.dmaMeets ms).doBurst e c b else s

/-- The channels whose ready burst waits for buffer space (R223). -/
def State.fullOf (s : State) (e : Fin 5) (cs : List (Fin 8)) : List (Nat × Nat) :=
  cs.filterMap (fun c => (s.burstOf e c).bind (fun b =>
    if s.buffered e.val c.val b.n then none else some (c.val, b.n)))

/-- They are noted. -/
def State.markFull (s : State) (e : Fin 5) (cs : List (Fin 8)) : State :=
  { s with dma := s.dma.set e { s.dma[e] with bufWait := s.fullOf e cs } }

/-- BURST_ISSUE: the read side chooses a channel and issues its burst, or leaves it waiting on the bucket. -/
def execBurstIssue (e : Fin 5) (ms : List Meet) (s : State) : Host.Outcome State Fault Refusal :=
  if s.engineOut e then .next s
  else
    let cs := s.serveOrder e
    let s := s.markFull e cs
    match cs.find? (fun c => s.hasSpace e c) with
    | none => .next s
    | some c =>
      match s.burstOf e c with
      | none => .next s
      | some b => .next ((s.served e c).issue e c b ms)

/-! ### EXPANDER_BLOCK and CONDENSER_BLOCK -/

/-- Lanes counted by mode from the three counters at `z` on. -/
def State.countLanes (s : State) (src z : Nat) (lens : List Nat) : State :=
  ((s.count src z (lens.filter (· == 0)).length).count src (z + 1)
    (lens.filter (fun n => n != 0 && n != 512)).length).count src (z + 2) (lens.filter (· == 512)).length

def State.setExp (s : State) (p : Fin 4) (v : List BlockSlot) : State := { s with exp := s.exp.set p v }
def State.setCnd (s : State) (p : Fin 4) (v : Option BlockSlot) : State := { s with cnd := s.cnd.set p v }

/-- The HBM bytes of a write at a destination. -/
def DmaDesc.hbmBytes (d : DmaDesc) (n : Nat) : Nat := if d.circ = false ∧ inHbm d.dst then n else 0

/-- Lanes of a block that decode, by their lengths (07 R188, R200). -/
def decodedLanes (h : BlockHdr) (b : List Byte) : List Nat :=
  (cutLanes h.lanes (b.drop 64)).filterMap (fun l => (decodeLane h.dtype l).map (fun _ => l.length))

/-- Blocks of a channel leave an Expander. -/
def dropSlots (n : Nat) (q : List BlockSlot) : List BlockSlot := q.filter (fun b => b.chan != n)

/-- A block fails: it and what was read behind it are discarded, and its transfer stops (07 R190). -/
def State.blockFails (s : State) (p : Fin 4) (c : Fin 8) (b : BlockSlot) (st : Nat) (lanes : List Nat) : State :=
  let i := if st = 0x0142 then xPoisoned else if st = 0x0141 then xCrc else xMismatch
  let s := ((s.setExp p (dropSlots b.chan s.exp[p])).count (srcExp p) i 1).countLanes (srcExp p) xZero lanes
  (s.tickFaultK st (srcExp p) 0 p.val 5 0 1 []).updChan (fin5 p.val) c (fun x => { x with stop := some st })

/-- A 32-byte half of a message's units, by its offset, written among those that wait, in order. -/
def putHalf (h : Nat × List Byte) : List (Nat × List Byte) → List (Nat × List Byte)
  | [] => [h]
  | x :: xs => if h.1 < x.1 then h :: x :: xs else if h.1 = x.1 then h :: xs else x :: putHalf h xs

/-- The 32-byte halves of a piece of a message at an offset (multiples of 32). -/
def halvesOf (off : Nat) (bs : List Byte) : List (Nat × List Byte) :=
  (List.range (bs.length / 32)).map (fun i => (off + 32 * i, (bs.drop (32 * i)).take 32))

/-- A 64-byte unit of which one half is known, beside zeros. -/
def loneUnit (h : Nat × List Byte) : Nat × List Byte :=
  if h.1 % 64 = 0 then (h.1, h.2 ++ zeroBytes 32) else (h.1 - 32, zeroBytes 32 ++ h.2)

/-- Ordered halves put together into whole units, and those whose other half is missing; with `flush` these go too. -/
def pairHalves (flush : Bool) : List (Nat × List Byte) → List (Nat × List Byte) × List (Nat × List Byte)
  | [] => ([], [])
  | [h] => if flush then ([loneUnit h], []) else ([], [h])
  | h :: g :: t =>
    if h.1 % 64 = 0 ∧ g.1 = h.1 + 32 then
      let r := pairHalves flush t
      ((h.1, h.2 ++ g.2) :: r.1, r.2)
    else
      let r := pairHalves flush (g :: t)
      if flush then (loneUnit h :: r.1, r.2) else (r.1, h :: r.2)

/-- Adjacent units joined into frames of at most 8,192 bytes. -/
def joinUnits : List (Nat × List Byte) → List (Nat × List Byte)
  | [] => []
  | u :: us =>
    match joinUnits us with
    | [] => [u]
    | v :: vs => if u.1 + u.2.length = v.1 ∧ u.2.length + v.2.length ≤ 8192 then (u.1, u.2 ++ v.2) :: vs else u :: v :: vs

/-- A piece of Expander output for a Beam window: the frames that can be sent, each a whole number of 64-byte units (11
R311), and the halves that wait for their unit's other half; at the message's end they go out beside zeros (log 160). -/
def beamPieces (hs : List (Nat × List Byte)) (off : Nat) (bs : List Byte) (flush : Bool) :
    List (Nat × List Byte) × List (Nat × List Byte) :=
  let r := pairHalves flush ((halvesOf off bs).foldl (fun hs h => putHalf h hs) hs)
  (joinUnits r.1, r.2)

/-- Frames of a message sent in turn; the message's last one is marked. -/
def State.sendFrames (s : State) (e : Fin 5) (c : Fin 8) (last : Bool) : List (Nat × List Byte) → State
  | [] => s
  | f :: fs =>
    let s := s.sendOut e c (!(s.chan e c).framed) f.1 f.2 [] (last && fs.isEmpty)
    (s.updChan e c (fun x => { x with framed := true })).sendFrames e c last fs

/-- A piece of Expander output sent to a Beam window. -/
def State.sendPiece (s : State) (e : Fin 5) (c : Fin 8) (off : Nat) (bs : List Byte) (last : Bool) : State :=
  let r := beamPieces (s.chan e c).halves off bs last
  (s.updChan e c (fun x => { x with halves := r.2 })).sendFrames e c last r.1

/-- What a good block writes: its data, then its trailer (07 R184). -/
def State.expandOut (s : State) (e : Fin 5) (c : Fin 8) (h : BlockHdr) (data trailer : List Byte) (last : Bool) :
    State :=
  let ch := s.chan e c
  if isBeam ch.desc.dst then
    let s := s.sendPiece e c ch.outPos data (last && trailer.isEmpty)
    if trailer.isEmpty then s else s.sendPiece e c h.normDst trailer last
  else
    let s := s.writeOut e c ch.outPos data []
    if trailer.isEmpty then s else s.writeOut e c h.normDst trailer []

/-- A channel after a block of `n` coded bytes with `data` output bytes and `all` written, unless its transfer has
stopped. -/
def Channel.blockDone (ch : Channel) (n data all : Nat) : Channel :=
  if ch.stop.isSome then ch
  else { ch with codedDone := ch.codedDone + n, outPos := ch.outPos + data, writtenN := ch.writtenN + all }

/-- A good block is written when the bucket grants its bytes (07 R186, R187). -/
def State.blockPasses (s : State) (p : Fin 4) (c : Fin 8) (b : BlockSlot) (h : BlockHdr)
    (data trailer : List Byte) (ms : List Meet) : State :=
  let e := fin5 p.val
  let ch := s.chan e c
  let n := data.length + trailer.length
  let (ok, s) := s.bucketPass (.expander p.val) (ch.desc.hbmBytes n) ch.desc.prio
  if !ok then s
  else
    let s := (s.setExp p (s.exp[p].drop 1)).dmaMeets ms
    let s := s.expandOut e c h data trailer (decide (ch.desc.len ≤ ch.codedDone + b.bytes.length))
    let s := ((s.count (srcExp p) xOk 1).count (srcExp p) xDecoded n).countLanes (srcExp p) xZero h.lanes
    s.updChan e c (·.blockDone b.bytes.length data.length n)

/-- The oldest whole block of an Expander judged, before any byte of it is written (07 R187, R190, R193). -/
def State.expandBlock (s : State) (p : Fin 4) (ms : List Meet) : State :=
  let e := fin5 p.val
  match s.exp[p] with
  | [] => s
  | b :: _ =>
    let c := fin8 b.chan
    let ch := s.chan e c
    if !b.whole || ch.phase != .running || ch.stop.isSome || s.engineOut e then s
    else
      let unread := ch.desc.len - ch.codedDone
      let h := BlockHdr.parse b.bytes
      match judgeBlock b.bytes b.poisoned unread ch.outPos ch.desc.outLen with
      | .bad st =>
        let decoded := !b.poisoned && h.wellFormed unread && h.fitsOutput ch.outPos ch.desc.outLen
        s.blockFails p c b st (if decoded then decodedLanes h b.bytes else [])
      | .good h data trailer => s.blockPasses p c b h data trailer ms

/-- EXPANDER_BLOCK: the oldest whole block is judged, and written or discarded. -/
def execExpanderBlock (p : Fin 4) (ms : List Meet) (s : State) : Host.Outcome State Fault Refusal :=
  .next (s.expandBlock p ms)

/-- A condensed block sent to a peer, cut into frames of at most 8,192 bytes. -/
def State.sendBlock (s : State) (e : Fin 5) (c : Fin 8) (frag : Nat) (bs : List Byte) (bads : List Nat) (last : Bool) :
    State :=
  if bs.length ≤ 8192 then s.sendOut e c (frag == 0) frag bs bads last
  else (s.sendOut e c (frag == 0) frag (bs.take 8192) (bads.filter (· < 256)) false).sendOut e c false (frag + 8192)
    (bs.drop 8192) ((bads.filter (256 ≤ ·)).map (· - 256)) last

/-- The block that a Condenser has buffered is coded and written, when the bucket grants its bytes, or finds no space
(07 R196 to R199). -/
def State.condenseBlock (s : State) (p : Fin 4) : State :=
  let e := fin5 p.val
  match s.cnd[p] with
  | none => s
  | some b =>
    let c := fin8 b.chan
    let ch := s.chan e c
    let d := ch.desc
    if !b.whole || ch.phase != .running || ch.stop.isSome || s.engineOut e then s
    else
      let (blk, lens) := codeBlock (if d.coding = 1 then 0x11 else 0x10) b.poisoned b.bytes
      if d.outLen < ch.writtenN + blk.length then
        ((s.setCnd p none).count (srcExp p) kNoSpace 1).updChan e c (fun x => { x with stop := some 0x0144 })
      else
        let (ok, s) := s.bucketPass (.condenser p.val) (d.hbmBytes blk.length) d.prio
        if !ok then s
        else
          let s := s.setCnd p none
          let bads := b.badUnits.map (· + 2)
          let s := if isBeam d.dst then
              s.sendBlock e c ch.writtenN blk bads (decide (d.len ≤ ch.codedDone + 8192))
            else (s.yieldsAt d.dst).writeOut e c ch.writtenN blk bads
          let s := ((s.count (srcExp p) kBlocks 1).count (srcExp p) kCoded blk.length).countLanes (srcExp p) kZero lens
          let s := if b.poisoned then s.count (srcExp p) kPoisoned 1 else s
          s.updChan e c (fun x => { x.blockDone 8192 0 blk.length with condPoisoned := x.condPoisoned || b.poisoned })

/-- CONDENSER_BLOCK. -/
def execCondenserBlock (p : Fin 4) (s : State) : Host.Outcome State Fault Refusal :=
  .next (s.condenseBlock p)

/-! ### TRANSFER_COMPLETE (R208) -/

/-- Frames of a channel's message are still unacknowledged. -/
def State.beamOpen (s : State) (n : Nat) : Bool :=
  s.beam.peers.any (fun p => (p.unacked ++ p.waiting).any (fun f => f.chan == some n))

/-- Every byte of a running transfer has moved. -/
def State.moved (s : State) (e : Fin 5) (c : Fin 8) : Bool :=
  let ch := s.chan e c
  let d := ch.desc
  (if d.transform = 0 then ch.writtenN == d.len
   else if d.transform = 3 then ch.readN == d.len
   else ch.codedDone == d.len)

/-- The outcome of a transfer that moved every byte (R215; 06 R168, 07 R198). The spec gives no precedence to
HBM_POISON_LOST and CONDENSE_POISONED where both hold (DESIGN CHOICE, log 162). -/
def Channel.outcome (ch : Channel) : Nat :=
  if ch.poisonLost then 0x0841
  else if ch.condPoisoned then 0x0143
  else if ch.poisonSeen && ch.desc.transform == 0 then 0x0105
  else 0

/-- RESIDUE (R205, R216, R219; 07 R190, R193, R197). -/
def Channel.residue (ch : Channel) (status : Nat) : Nat :=
  let d := ch.desc
  if d.transform = 0 then d.len - ch.writtenN
  else if d.transform = 3 then
    if status = 0 then Nat.xor ch.crc 0xFFFFFFFF else d.len - ch.readN
  else if d.transform = 2 ∧ ch.codedDone = d.len ∧ status ≠ 0x0100 then d.outLen - ch.writtenN
  else d.len - ch.codedDone

/-- A channel's blocks leave its Prism's Expander and Condenser, with the writes that wait for them (07 R193). -/
def State.dropBlocks (s : State) (p : Fin 4) (n : Nat) : State :=
  let s := if (s.exp[p]).head?.any (fun b => b.chan == n) = true then s.unwait (.expander p.val) else s
  let s := s.setExp p (dropSlots n s.exp[p])
  if (s.cnd[p]).any (fun b => b.chan == n) = true then (s.unwait (.condenser p.val)).setCnd p none else s

/-- What a channel holds outside itself is given up: waiting accesses, block slots. -/
def State.letGo (s : State) (e : Fin 5) (c : Fin 8) : State :=
  let n := chanNo e c
  let s := (((s.unwait (.chan n)).unwait (.fetch n)).unwait (.back n)).unfull e c
  if e.val < 4 then s.dropBlocks (fin4 e.val) n else s

/-- The reservation of a channel is committed or released (05 R148; 07 R191). -/
def State.endResv (s : State) (e : Fin 5) (c : Fin 8) (ok : Bool) : State :=
  let ch := s.chan e c
  match ch.resv with
  | some g =>
    if ok then s.regionCommit (fin16 g.facet) (fin16 g.region) (chanNo e c) (ch.desc.outBytes / 32)
    else s.regionRelease (fin16 g.facet) (fin16 g.region) (chanNo e c)
  | none => s

/-- FAULT events of the Condenser's statuses (07 R198, R201). -/
def State.condFault (s : State) (e : Fin 5) (status : Nat) : State :=
  if status = 0x0143 ∨ status = 0x0144 then s.fault status (srcExp (fin4 e.val)) e.val 6 0 [] else s

/-- The completion of a descriptor that lies in HBM asks the bucket for its bytes (06 R165; log 113). -/
def State.backPass (s : State) (e : Fin 5) (c : Fin 8) : Bool × State :=
  let ch := s.chan e c
  s.bucketPass (.back (chanNo e c)) (s.backCost e ch.at_) ch.desc.prio

/-- A transfer whose bytes have all moved, or whose outcome was fixed earlier, completes once every write of it has reached
its destination (R208 step 1). -/
def State.transferEnds (s : State) (e : Fin 5) (c : Fin 8) : State :=
  let ch := s.chan e c
  if ch.phase ≠ .running ∨ s.beamOpen (chanNo e c) = true ∨ (ch.stop.isNone = true ∧ s.moved e c = false) then s
  else
    let (pass, s) := s.backPass e c
    if !pass then s
    else
      let st := match ch.stop with | some st => st | none => ch.outcome
      (((s.letGo e c).endResv e c ch.stop.isNone).condFault e st).finishDesc e c st
        (if st = 0x0252 then ch.desc.len else ch.residue st) false

/-! ### BUCKET_GRANT (06 R164) -/

/-- The waiting access of a user goes on, now that the bucket holds its bytes. Data that waits for HBM keeps its place
behind what went on. -/
def State.bucketGranted (s : State) (u : BucketUser) (ms : List Meet) : State :=
  match u with
  | .chan n =>
    let e := fin5 (n / 8)
    let c := fin8 n
    match (s.unwait (.chan n)).burstOf e c with
    | some b => (s.issue e c b ms).unwait u
    | none => s.unwait u
  | .fetch n => (if s.engineOut (fin5 (n / 8)) then s else s.fetchDesc (fin5 (n / 8)) (fin8 n)).unwait u
  | .back n => (s.transferEnds (fin5 (n / 8)) (fin8 n)).unwait u
  | .expander p => (s.expandBlock (fin4 p) ms).unwait u
  | .condenser p => (s.condenseBlock (fin4 p)).unwait u
  | .history k => (s.historyBlock (fin16 k)).unwait u
  | .beam | .burst => if s.hbm.stalled.isEmpty then s.unwait u else s.landAll s.hbm.stalled.length

/-- The waiting access whose turn it is goes on once the bucket holds its bytes (06 R164). -/
def State.bucketStep (s : State) (ms : List Meet) : State :=
  match firstWait s.hbm.waiting with
  | none => s
  | some w => if s.hbmWaits || s.hbm.bucket < w.bytes then s else s.bucketGranted w.user ms

/-! ### Aborts (R219, R220) -/

/-- The completion of an aborted descriptor need not wait: no frame of its message is unacknowledged, and HBM, where the
descriptor lies there, can be written (R208 step 1, R219; 06 R171). -/
def State.mayEnd (s : State) (e : Fin 5) (c : Fin 8) : Bool :=
  !s.beamOpen (chanNo e c) && (s.backCost e (s.chan e c).at_ == 0 || s.hbmOpen (.back (chanNo e c)))

/-- A descriptor that has not begun ends with ABORTED (R219). -/
def State.abortWaiting (s : State) (e : Fin 5) (c : Fin 8) (halts : Bool) : State :=
  s.endDesc e c 0x0100 (s.chan e c).desc.len halts

/-- A running descriptor ended with ABORTED: no further burst, the reservation released (R219). -/
def State.abortRunning (s : State) (e : Fin 5) (c : Fin 8) (halts : Bool) : State :=
  let res := (s.chan e c).residue 0x0100
  ((s.letGo e c).endResv e c false).endDesc e c 0x0100 res halts

/-- What is left of an aborted descriptor ends. -/
def State.abortEnds (s : State) (e : Fin 5) (c : Fin 8) (halts started : Bool) : State :=
  if started then s.abortRunning e c halts else s.abortWaiting e c halts

/-- The bursts of an aborted descriptor have drained. -/
def State.abortDrained (s : State) (e : Fin 5) (c : Fin 8) : State :=
  match (s.chan e c).phase with
  | .aborting halts started => if s.mayEnd e c then s.abortEnds e c halts started else s
  | _ => s

/-- The abort of a descriptor is asked for. -/
def State.toAbort (s : State) (e : Fin 5) (c : Fin 8) (halts started : Bool) : State :=
  (s.letGo e c).updChan e c (fun x => { x with phase := .aborting halts started })

/-- A descriptor to be aborted by isolation or self-refresh: a waiting one completes at once, a running one when
its bursts have drained (R219). -/
def State.askAbort (s : State) (e : Fin 5) (c : Fin 8) (halts : Bool) : State :=
  match (s.chan e c).phase with
  | .waiting => (s.toAbort e c halts false).abortDrained e c
  | .running => s.toAbort e c halts true
  | _ => s

/-- DMA_ABORT of a channel: STATUS of the aborted descriptor, or 0 (R220). Its granted bursts have been written, and what is
left of it ends at once, or when its frames are acknowledged (R208, R219; log 161). -/
def State.abortChannel (s : State) (e : Fin 5) (c : Fin 8) : Nat × State :=
  match (s.chan e c).phase with
  | .idle => (0, s)
  | .halted => (0, s)
  | .waiting => (0x0100, (s.toAbort e c true false).abortDrained e c)
  | .running => (0x0100, (s.toAbort e c true true).abortDrained e c)
  | .aborting _ started => (0x0100, (s.toAbort e c true started).abortDrained e c)
  | .fetching => (0, ((s.letGo e c).updChan e c (fun x => { x with phase := .halted })).preloadEnd e c)
  | .polling => (0, (s.letGo e c).updChan e c (fun x => { x with phase := .halted }))

/-- DMA_CHAIN (R221): status, 0 when the host channel is started. While Edge is isolated new work is refused (01 R17); the
status is the one that reports the isolation (16 R453; log 115). -/
def State.setDmaChain (s : State) (b : List Byte) : Nat × State :=
  let c := byteAt b 0
  if (c ≠ 6 ∧ c ≠ 7) ∨ allZero ((b.drop 1).take 7) = false then (0x0010, s)
  else if s.engineOut 4 then (0x0800, s)
  else
    let ch := s.chan 4 (fin8 c)
    if ch.phase = .idle ∨ ch.phase = .halted then
      (0, s.updChan 4 (fin8 c) (fun x => { Channel.reset with
        phase := .fetching, at_ := .mem (fieldLe b 8 8), latch := x.latch, seq := x.seq }))
    else (0x0106, s)

end Sys2Proof.Machine
end

