-- ==== Sys2Proof/Machine/Gates.lean ====
section
/-! DEFINITION. POWER records (15 R431), the clock domains and the tree of clock gates (15 R424, R425). -/

namespace Sys2Proof.Machine

def State.updPwr (s : State) (g : Power → Power) : State := { s with pwr := g s.pwr }
def State.updFuse (s : State) (g : FuseSt → FuseSt) : State := { s with fuse := g s.fuse }
def State.updTrust (s : State) (g : Trust → Trust) : State := { s with trust := g s.trust }

/-- Event source of POWER and SHED records, and of the fuse controller (12 R347). -/
def srcPower : Nat := 0x0502
def srcFuse : Nat := 0x0503

/-- Clock domains in the order of 15 R417. -/
def dSys : Nat := 1
def dFacet : Nat := 2
def dHbm : Nat := 3
def dPix : Nat := 4
def dAdc : Nat := 5
def dPcie : Nat := 6
def dEth : Nat := 7
def dTime : Nat := 8

/-- A PLL, by its number. -/
def State.pllOf (s : State) (d : Nat) : PllPhase := match s.pwr.pll[d]? with | some p => p | none => .off

/-! ### POWER records (15 R431) -/

/-- A POWER record. -/
def State.powerRec (s : State) (status kind b1 b2 b3 b4 req time : Nat) : State :=
  s.event 0x0032 srcPower (status * 65536)
    (leBytes 1 kind ++ leBytes 1 b1 ++ leBytes 1 b2 ++ leBytes 1 b3 ++ leBytes 1 b4 ++ leBytes 1 0 ++
      leBytes 2 req ++ leBytes 8 time ++ leBytes 2 (toBits 16 s.pwr.logicT))

/-! ### Clock gates (15 R424, R425) -/

/-- Parent of a node; REF has none. -/
def gateParent (n : Nat) : Option Nat :=
  if n = 0 then none
  else if n = 1 ∨ n = 4 ∨ n = 25 ∨ n = 26 ∨ n = 29 ∨ n = 31 ∨ n = 32 ∨ n = 35 then some 0
  else if n ≤ 3 then some 1
  else if n ≤ 8 then some 4
  else if n ≤ 24 then some (5 + (n - 9) / 4)
  else if n ≤ 28 then some 26
  else if n = 30 then some 29
  else some 32

/-- The device wants a node to run (R424); a node wants its parent's function too. While no image is active there is no
FACET_MASK, and every Facet's node is off (DESIGN CHOICE, log 155). The nodes of an isolated region run again from the start of
its restart (16 R454, R456). -/
def State.wantNode (s : State) (n : Nat) : Bool :=
  let p := s.pwr
  let sl := p.sleep
  let up (d : Nat) : Bool := s.pllOf d == .good
  let iso (r : Nat) : Bool := s.err.isolated.getLsbD r && (!s.err.restarting.getLsbD r || s.err.heldRestart.getLsbD r)
  let facetPll := up dFacet && decide (sl ≤ 1) && decide (p.shed < 3)
  let prism (q : Nat) : Bool := facetPll && !iso q && !(decide (2 ≤ p.shed) && decide (1 ≤ q))
  let inMask (f : Nat) : Bool := match s.sched.active with | some im => bitOf im.mask f | none => false
  let pix := up dPix && decide (sl = 0) && decide (p.shed < 2) && !iso 4
  let seen := pix && (match s.img.mode with | .off | .standby => false | _ => true)
  let adc := up dAdc && decide (sl ≤ 1) && !iso 5
  let eth := up dEth && decide (sl ≤ 2) && decide (p.shed < 3) && !iso 6
  if n = 0 then p.phase != .off
  else if n ≤ 3 then up dSys && decide (sl ≤ 2)
  else if n = 4 then facetPll
  else if n ≤ 8 then prism (n - 5)
  else if n ≤ 24 then prism ((n - 9) / 4) && inMask (n - 9) && decide (sl = 0)
  else if n = 25 then up dHbm && decide (sl = 0) && decide (p.shed < 3)
  else if n = 26 then pix
  else if n ≤ 28 then seen
  else if n = 29 then adc
  else if n = 30 then adc && s.wav.cfg.isSome
  else if n = 31 then up dPcie && decide (sl ≤ 2) && !iso 6
  else if n = 32 then eth
  else if n ≤ 34 then eth && (s.net.port[fin2 (n - 33)]).mode != 0
  else up dTime && decide (sl ≤ 2)

/-- The lowest-numbered child of a node that is on. -/
def State.childOn (s : State) (n : Nat) : Option Nat :=
  (List.range 36).find? (fun m => gateParent m == some n && s.pwr.gates.getLsbD m)

def State.setGate (s : State) (n : Nat) (v : Bool) : State :=
  s.updPwr (fun p => { p with gates := if v then p.gates ||| BitVec.ofNat 36 (2 ^ n)
                                       else p.gates &&& ~~~(BitVec.ofNat 36 (2 ^ n)) })

/-- A request to gate off a node, by a requester: refused with a POWER record while a child is on (R425). -/
def State.gateOff (s : State) (n req : Nat) : State :=
  match s.childOn n with
  | some m => s.powerRec 0x0701 4 0 0 n m req 0
  | none => s.setGate n false

/-- A request to gate on a node turns its parents on first (R425). -/
def State.gateOn (s : State) (n : Nat) : Nat → State
  | 0 => s.setGate n true
  | k + 1 =>
    match gateParent n with
    | some m => if s.pwr.gates.getLsbD m then s.setGate n true else (s.gateOn m k).setGate n true
    | none => s.setGate n true

/-- The tree follows what the device wants: leaves off first, parents on first (R424, R425). -/
def State.syncGates (s : State) (req : Nat) : State :=
  let s := (List.range 36).reverse.foldl (fun s n =>
    if s.pwr.gates.getLsbD n && !s.wantNode n then s.gateOff n req else s) s
  (List.range 36).foldl (fun s n =>
    if !s.pwr.gates.getLsbD n && s.wantNode n then s.gateOn n 3 else s) s

end Sys2Proof.Machine
end

