-- ==== Sys2Proof/Machine/Cycles.lean ====
section
/-! DEFINITION. Fields and FACET cycles of macro-op records (03 R81 to R96), and the worst case of a
slot program (03 R100). -/

namespace Sys2Proof.Machine

/-! ### Array records (03 R81 to R86) -/

def opMM : Nat := 0x01
def opMMT : Nat := 0x02
def opCONV : Nat := 0x03
def opDWCONV : Nat := 0x04
def opVecEw : Nat := 0x10
def opVecRed : Nat := 0x11
def opSoftmax : Nat := 0x12
def opNorm : Nat := 0x13
def opAct : Nat := 0x14
def opGather : Nat := 0x18
def opScatter : Nat := 0x19
def opDecide : Nat := 0x20
def opTopk : Nat := 0x21
def opNms : Nat := 0x22
def opCrop : Nat := 0x28
def opResample : Nat := 0x29
def opCopy2d : Nat := 0x2A
def opPush : Nat := 0x30
def opPop : Nat := 0x31
def opAccWrite : Nat := 0x32
def opEmit : Nat := 0x38
def opCheckFlag : Nat := 0x39
def opWaitTick : Nat := 0x3A
def opEnd : Nat := 0x3F

/-- 03 R78: the assigned opcodes. -/
def assignedOps : List Nat :=
  [0x01, 0x02, 0x03, 0x04, 0x10, 0x11, 0x12, 0x13, 0x14, 0x18, 0x19, 0x20, 0x21, 0x22, 0x28, 0x29,
   0x2A, 0x30, 0x31, 0x32, 0x38, 0x39, 0x3A, 0x3F]

def isArrayOp (op : Nat) : Bool := 1 ≤ op && op ≤ 4

def Rec.m (r : Rec) : Nat := r.p 0x14 2
def Rec.ktField (r : Rec) : Nat := r.p 0x16 2
def Rec.ncols (r : Rec) : Nat := r.p 0x18 1
def Rec.outType (r : Rec) : Nat := r.p 0x19 1 % 16
def Rec.groupCode (r : Rec) : Nat := r.p 0x19 1 / 16 % 4
def Rec.kind (r : Rec) : Nat := r.p 0x19 1 / 64
def Rec.aStride (r : Rec) : Nat := r.p 0x1A 2
def Rec.param (r : Rec) : Nat := r.p 0x1C 4
def Rec.kh (r : Rec) : Nat := r.p 0x1A 1 % 16 + 1
def Rec.kw (r : Rec) : Nat := r.p 0x1A 1 / 16 + 1
def Rec.cstride (r : Rec) : Nat := r.p 0x1B 1 % 4 + 1
def Rec.dilation (r : Rec) : Nat := r.p 0x1B 1 / 4 % 4 + 1
def Rec.cit (r : Rec) : Nat := r.p 0x1B 1 / 16 + 1

def Rec.focus (r : Rec) : Bool := r.flagBit 0
def Rec.accIn (r : Rec) : Bool := r.flagBit 1
def Rec.accKeep (r : Rec) : Bool := r.flagBit 2

/-- Group size in elements (03 R81). -/
def Rec.group (r : Rec) : Nat :=
  match r.groupCode with
  | 0 => 32
  | 1 => 64
  | _ => 128

/-- K-tiles of an array record (03 R85, R86). -/
def Rec.kt (r : Rec) : Nat :=
  if r.op = opCONV then r.kh * r.kw * r.cit
  else if r.op = opDWCONV then r.kh * r.kw
  else r.ktField

/-- Units that 64 elements of a type take: 2e (03 R83). -/
def tileUnits (t : Elt) : Nat := t.bits / 4

/-- Bytes of one weight tile (03 R72). -/
def tileBytes (t : Elt) : Nat :=
  match t with
  | .int4 | .bf16 => 2048
  | _ => 4096

/-- Bytes of one output row (03 R83). -/
def Rec.yRow (r : Rec) : Nat :=
  if r.outType = 7 then 8 else ceilDiv (r.ncols * (elt r.outType).bits) 256 * 32

/-- A source operand of the record is REMOTE. -/
def Rec.remoteSrc (r : Rec) : Bool :=
  (Ref.ofWord r.op0).remote || (Ref.ofWord r.op1).remote ||
  ((isArrayOp r.op) && (Ref.ofWord r.op3).remote)

/-- 03 R85: the streaming cycles of one pass, held to 64 B a cycle for a REMOTE activation. -/
def Rec.streamS (r : Rec) : Nat :=
  let t := elt r.ty0
  if r.op = opMMT && r.flagBit 4 then r.m * tileUnits t
  else
    let rows := if t = .int4 && r.op != opDWCONV then ceilDiv r.m 2 else r.m
    if (Ref.ofWord r.op0).remote then max rows (ceilDiv (r.m * tileUnits t * 32) 64) else rows

/-- 03 R85: the weight-load allowance of one pass; with GROUP 128 a pass of a REMOTE W loads half of each scale row
(DESIGN CHOICE, log 138). -/
def Rec.wp (r : Rec) : Nat :=
  let t := elt r.ty1
  let base :=
    if r.op = opDWCONV then 8
    else if r.op = opMMT && r.flagBit 5 then tileBytes t / 32 + 8
    else match t with
      | .int4 => 24
      | .bf16 => 32
      | _ => 40
  if (Ref.ofWord r.op1).remote then
    let scales := if t = .bf16 then 0 else r.ncols * 2 * 64 / r.group
    let bytes :=
      if r.op = opDWCONV then tileUnits t * 32
      else tileBytes t + scales + (if r.focus then scales else 0)
    max base (ceilDiv bytes 64)
  else base

/-- 03 R85. -/
def arrayCycles (r : Rec) (prevArray : Bool) : Nat :=
  let d := if prevArray then 74 else 0
  let lw := r.wp - d
  let s := r.streamS
  let w := if r.accKeep then 0 else ceilDiv (r.m * r.yRow) 64
  let x := if r.op = opMMT && r.flagBit 4 && r.flagBit 5 then s + r.wp else max s r.wp
  lw + s + (r.kt - 1) * x + 74 + w +
  (if r.op = opMMT then 32 else 0) +
  (if r.op = opCONV || r.op = opDWCONV then 6 else 0) +
  (if r.remoteSrc then 9 else 0)

/-! ### Vector and selection records (03 R89 to R92) -/

def Rec.func (r : Rec) : Nat := r.p 0x14 1
def Rec.rows (r : Rec) : Nat := r.p 0x16 2
def Rec.cols (r : Rec) : Nat := r.p 0x18 2
def Rec.vstride (r : Rec) : Nat := r.p 0x1A 2
def Rec.scalar (r : Rec) : Word := BitVec.ofNat 32 (r.p 0x1C 4)

/-- The vector record reads a second source vector (03 R90): VEC_EW but SCALE and CONVERT. -/
def Rec.hasSrc2 (r : Rec) : Bool :=
  r.op == opVecEw && r.func != 5 && r.func != 7

/-- Units and REMOTE bytes a source adds to each vector. -/
def srcCost (v : Nat) (t : Elt) : Nat × Nat :=
  let ref := Ref.ofWord v
  if ref.acc then (0, 0)
  else if ref.remote then (0, tileUnits t * 32)
  else (tileUnits t, 0)

/-- 03 R90: the vector cost V; a selection record has no u_w, which is taken as 0 (DESIGN CHOICE, log 134). -/
def Rec.vecV (r : Rec) : Nat :=
  let t := elt r.ty0
  let td := elt r.ty1
  let (u0, b0) := srcCost r.op0 t
  let (u1, b1) := if r.hasSrc2 then srcCost r.op1 t
    else if r.op = opNorm then
      (if (Ref.ofWord r.op1).remote then (0, 512) else (16, 0))
    else (0, 0)
  let wr :=
    if (Ref.ofWord r.op2).acc || r.op = opDecide || r.op = opTopk then 0
    else if r.op = opVecRed then
      (if r.flagBit 4 then ceilDiv (td.bits / 8) r.rows else 1)
    else ceilDiv (tileUnits td) 2
  max (max 1 (ceilDiv (u0 + u1) 6)) (max wr (ceilDiv (b0 + b1) 64))

/-- The number of vectors. -/
def Rec.vecR (r : Rec) : Nat := r.rows * ceilDiv r.cols 64

def Rec.remoteAdd (r : Rec) : Nat :=
  if (Ref.ofWord r.op0).remote || (Ref.ofWord r.op1).remote then 9 else 0

def vecCycles (r : Rec) : Nat :=
  let rv := r.vecR * r.vecV
  let base :=
    if r.op = opVecEw then rv + 12
    else if r.op = opAct then (if r.func ≤ 2 then rv + 12 else if r.func ≤ 6 then rv + 20 else rv + 28)
    else if r.op = opVecRed then rv + 18
    else if r.op = opSoftmax then 3 * rv + 40
    else 2 * rv + 36
  base + r.remoteAdd

/-- 03 R92. -/
def selectCycles (r : Rec) : Nat :=
  (if r.op = opDecide then r.vecR * r.vecV + 16
   else if r.op = opTopk then r.rows * (ceilDiv r.cols 64 * r.vecV + r.p 0x1C 1 + 24)
   else r.p 0x14 2 * ceilDiv (r.p 0x14 2) 64 + 32) + r.remoteAdd

/-! ### Movement and control records (03 R94, R96) -/

/-- 03 R94. -/
def moveCycles (r : Rec) : Nat :=
  let a := r.p 0x14 2
  let b := r.p 0x16 2
  if r.op = opGather then a * b + 14
  else if r.op = opScatter then a * b * (if r.flagBit 4 then 2 else 1) + 14
  else if r.op = opCrop then b * ceilDiv (ceilDiv (a * (elt r.ty0).bits) 256) 2 + 16
  else if r.op = opResample then
    r.p 0x1A 2 * ceilDiv (r.p 0x18 2) 64 * (if r.p 0x1E 2 = 0 then 1 else 2) + 20
  else if r.op = opCopy2d then
    (if r.flagBit 4 then a * b + 40 else a * ceilDiv b 2 + 8)
  else a * b + 8

/-- 03 R96: cycles of a control record but WAIT_TICK. -/
def controlCycles (r : Rec) : Nat :=
  if r.op = opPush || r.op = opPop then 4
  else if r.op = opEmit then 8
  else if r.op = opCheckFlag then 2
  else 1

/-- The cycles of any record but WAIT_TICK (03 R79). -/
def recCycles (r : Rec) (prevArray : Bool) : Nat :=
  if isArrayOp r.op then arrayCycles r prevArray
  else if 0x10 ≤ r.op && r.op ≤ 0x14 then vecCycles r
  else if 0x20 ≤ r.op && r.op ≤ 0x22 then selectCycles r
  else if r.op = opGather || r.op = opScatter || (0x28 ≤ r.op && r.op ≤ 0x2A) || r.op = opAccWrite
  then moveCycles r
  else controlCycles r

/-- 03 R100: the worst case of a slot program. -/
def worstCycles : List Rec → Nat → Bool → Nat
  | [], t, _ => t
  | r :: rs, t, prev =>
    let t' := if r.op = opWaitTick then max (t + 1) (r.p 0x18 4) else t + recCycles r prev
    worstCycles rs t' (isArrayOp r.op)

end Sys2Proof.Machine
end

