-- ==== Sys2Proof/Machine/RecordCheck.lean ====
section
/-! DEFINITION. What admission asks of a macro-op record: its fields (check 5 of 02 R57; 03 R76 to R97, 04
R118) and the scratchpad units its operands take (check 8; 03 R80, R83). -/

namespace Sys2Proof.Machine

/-- What a record is judged against. -/
structure JudgeEnv where
  mask : Nat
  res : List FacetRes
  focus : List (List Byte)
  deriving DecidableEq, Repr

def JudgeEnv.facet (e : JudgeEnv) (f : Nat) : Option FacetRes := e.res.find? (fun x => x.facet == f)

/-- A declared region of a Facet. -/
def JudgeEnv.region (e : JudgeEnv) (f r : Nat) : Option RegionDecl :=
  (e.facet f).bind (fun x => x.regions[r]?)

/-- The region's producer is the Facet `f` (R48). -/
def RegionDecl.fedBy (d : RegionDecl) (f : Nat) : Bool := d.producer == 0 && d.pindex == f

/-- A peer of Facet `f` in the mask, other than itself (R76). -/
def JudgeEnv.peerOk (e : JudgeEnv) (f peer : Nat) : Bool :=
  f / 4 * 4 + peer != f && bitOf e.mask (f / 4 * 4 + peer)

/-- What an operand may be. -/
structure Role where
  src : Bool
  acc : Bool
  remote : Bool
  deriving DecidableEq, Repr

def roleSrc : Role := ⟨true, false, true⟩
def roleSrcAcc : Role := ⟨true, true, true⟩
def roleDst : Role := ⟨false, false, true⟩
def roleDstAcc : Role := ⟨false, true, true⟩
/-- A source, or a destination, that is local or ACC (R94). -/
def roleLocalAcc : Role := ⟨true, true, false⟩
def roleLocalDst : Role := ⟨false, false, false⟩

/-- A reference in a permitted combination (R75, R76). -/
def refOk (e : JudgeEnv) (f : Nat) (role : Role) (v : Nat) : Bool :=
  let r := Ref.ofWord v
  let peer := f / 4 * 4 + r.peer
  decide (v / 2 ^ 27 = 0) && (r.remote || r.peer == 0) && (r.circ || r.region == 0) &&
  (if r.acc then role.acc && !r.remote && !r.circ && decide (r.unit < 256)
   else if r.remote then
     role.remote && e.peerOk f r.peer && (if r.circ then
       !role.src && (match e.region peer r.region with | some d => d.fedBy f | none => false)
      else role.src)
   else if r.circ then
     (match e.region f r.region with | some d => role.src || d.fedBy f | none => false)
   else true)

/-- Operands that a record uses, each with its role (R81 to R97). -/
def Rec.roles (r : Rec) : List (Option Role) :=
  if isArrayOp r.op then
    [some roleSrc, some roleSrc, if r.accKeep then none else some roleDst,
     if r.op3 = 0 || r.ty0 = 4 then none else some roleSrc]
  else if r.op = opVecEw then
    [some roleSrcAcc, if r.hasSrc2 then some roleSrcAcc else none, some roleDstAcc, none]
  else if r.op = opNorm then [some roleSrcAcc, some roleSrc, some roleDstAcc, none]
  else if r.op = opVecRed || r.op = opSoftmax || r.op = opAct then
    [some roleSrcAcc, none, some roleDstAcc, none]
  else if r.op = opDecide then
    [some roleSrcAcc, none, some roleDst, if r.func = 2 || r.op3 = 0 then none else some roleDst]
  else if r.op = opTopk then [some roleSrcAcc, none, some roleDst, none]
  else if r.op = opNms then [some roleSrc, none, some roleDst, some roleDst]
  else if r.op = opGather || r.op = opScatter then [some roleSrc, some roleSrc, some roleDst, none]
  else if r.op = opCrop then [some roleSrc, some roleSrc, some roleDst, some roleDst]
  else if r.op = opResample || r.op = opCopy2d then [some roleSrc, none, some roleDst, none]
  else if r.op = opAccWrite then [some roleLocalAcc, none, some roleLocalDst, none]
  else if r.op = opEmit then [some roleSrc, if r.op1 = 0 then none else some roleSrc, none, none]
  else [none, none, none, none]

def Rec.operands (r : Rec) : List Nat := [r.op0, r.op1, r.op2, r.op3]

/-- Every operand is in a permitted combination, and an unused one is zero (R76). -/
def Rec.refsOk (e : JudgeEnv) (f : Nat) (r : Rec) : Bool :=
  (r.operands.zip r.roles).all (fun p => match p.2 with
    | some role => refOk e f role p.1
    | none => p.1 == 0)

/-! ### Ranges -/

def between (lo v hi : Nat) : Bool := lo ≤ v && v ≤ hi

/-- Finite FP32 bits. -/
def f32Finite (w : Nat) : Bool := w / 2 ^ 23 % 256 != 255

/-- An FP32 field that is zero: a subnormal reads as zero (R74). -/
def f32Zero (w : Nat) : Bool := w / 2 ^ 23 % 256 == 0

/-- Finite and positive: a subnormal reads as zero (R74). -/
def f32Pos (w : Nat) : Bool := f32Finite w && w / 2 ^ 31 == 0 && w / 2 ^ 23 != 0

/-- Permitted type pairs (R72). -/
def pairOk (a w : Nat) : Bool :=
  (decide (a ≤ 1) && decide (w ≤ 1)) || (between 2 a 3 && between 2 w 3) || (a == 4 && w == 4)

/-- OUTCTL and PARAM (R82). -/
def Rec.outOk (r : Rec) : Bool :=
  (if r.kind ≤ 1 then [0, 1, 4, 5].contains r.outType else r.outType == 7) &&
  (if r.outType ≤ 1 then f32Pos r.param else r.kind == 3 || f32Zero r.param) &&
  (!r.accKeep || (r.outType == 5 && r.kind == 0))

/-- FOCUS (R87, R118, R53): the entries of FOCUS_BOUNDS for the record. -/
def Rec.focusOk (e : JudgeEnv) (f slot idx : Nat) (r : Rec) : Bool :=
  let mine := e.focus.filter (fun b => byteAt b 0 == f && fieldLe b 2 2 == slot && fieldLe b 4 4 == idx)
  (r.op == opMM || r.op == opCONV) && r.ty0 == 0 && decide (r.ty1 ≤ 1) && decide (1 ≤ r.kind) &&
  r.m % 2 == 0 && between 152 r.m 256 && decide (r.groupCode ≤ 1) && !r.accIn && !r.accKeep && r.op3 != 0 &&
  (r.kind != 3 || f32Finite r.param) &&
  mine.length == 1 && mine.all (fun b =>
    let w := fieldLe b 8 4
    f32Finite w && (w / 2 ^ 31 == 0 || f32Zero w) && byteAt b 1 == 0 && fieldLe b 12 4 == 0)

def Rec.arrayOk (e : JudgeEnv) (f slot idx : Nat) (first : Bool) (r : Rec) : Bool :=
  pairOk r.ty0 r.ty1 && between 1 r.m 256 && between 1 r.ncols (if r.ty0 = 4 then 16 else 64) &&
  r.groupCode != 3 && ((r.ty0 != 4 && r.op != opDWCONV) || r.groupCode == 0) &&
  (r.groupCode != 2 || (decide (r.m ≤ 128) && r.kt % 2 == 0)) && r.outOk && !(r.accIn && first) &&
  (if r.op = opMM || r.op = opMMT then between 1 r.ktField 1024 else true) &&
  (if r.op = opMMT then r.flagBit 4 || r.flagBit 5 else true) &&
  (if r.op = opDWCONV then r.cit == 1 else true) &&
  (if r.focus then r.focusOk e f slot idx else true)

/-- Vector element types (R89). -/
def vecType (t : Nat) : Bool := t == 0 || t == 1 || t == 4 || t == 5 || t == 6

/-- An operand of `rows` rows and `cols` columns in the accumulator file (R89). -/
def accFits (v rows cols : Nat) : Bool :=
  let r := Ref.ofWord v
  !r.acc || (decide (r.unit % 256 + rows ≤ 256) && decide (cols ≤ 64))

def Rec.vecOk (r : Rec) : Bool :=
  let usesScalar := (r.op == opVecEw && (r.func == 5 || r.func == 6)) ||
    (r.op == opAct && (r.func == 1 || r.func == 2)) || r.op == opSoftmax || r.op == opNorm
  let a0 := (Ref.ofWord r.op0).acc
  let a1 := r.hasSrc2 && (Ref.ofWord r.op1).acc
  decide (r.func ≤ (if r.op = opVecEw then 7 else if r.op = opAct then 9 else if r.op = opVecRed then 3
    else if r.op = opNorm then 1 else 0)) &&
  r.p 0x15 1 == 0 && between 1 r.rows 4096 && between 1 r.cols 65535 && vecType r.ty0 && vecType r.ty1 &&
  (r.op != opVecRed || r.ty1 == 5 || r.ty1 == 6) && (usesScalar || f32Zero (r.p 0x1C 4)) &&
  !(a0 && a1) && accFits r.op0 r.rows r.cols && (!r.hasSrc2 || accFits r.op1 r.rows r.cols) &&
  accFits r.op2 r.rows r.cols

def Rec.selectOk (r : Rec) : Bool :=
  if r.op = opDecide then
    decide (r.func ≤ 2) && r.p 0x15 1 == 0 && between 1 r.rows 4096 && between 1 r.cols 65535 &&
    (r.func == 0 || f32Zero (r.p 0x1C 4)) && decide (r.ty0 ≤ 10) && accFits r.op0 r.rows r.cols
  else if r.op = opTopk then
    r.p 0x14 2 == 0 && between 1 r.rows 4096 && between 1 (r.p 0x1C 1) 64 &&
    decide (r.p 0x1C 1 ≤ r.cols) && r.p 0x1D 3 == 0 && decide (r.ty0 ≤ 10) && accFits r.op0 r.rows r.cols
  else
    between 1 (r.p 0x14 2) 1024 && between 1 (r.p 0x16 2) (r.p 0x14 2) && r.p 0x18 4 == 0

/-- Image element types of CROP and RESAMPLE (R94). -/
def imgType (t : Nat) : Bool := t == 8 || t == 9 || t == 0 || t == 4

def Rec.moveOk (r : Rec) : Bool :=
  let a := r.p 0x14 2
  let b := r.p 0x16 2
  if r.op = opGather || r.op = opScatter then
    between 1 a 4096 && between 1 b 64 && r.p 0x1C 4 == 0 &&
    (!(r.op == opScatter && r.flagBit 4) || r.ty1 == 5 || r.ty1 == 4 || r.ty1 == 6)
  else if r.op = opCrop then
    between 1 a 4096 && between 1 b 4096 && imgType r.ty0 && r.p 0x1E 2 == 0
  else if r.op = opResample then
    between 1 a 8192 && between 1 b 8192 && between 1 (r.p 0x18 2) 8192 && between 1 (r.p 0x1A 2) 8192 &&
    decide (r.p 0x1E 2 ≤ 2) && imgType r.ty0 && r.ty1 == 0
  else if r.op = opCopy2d then
    between 1 a 4096 && decide (1 ≤ b) && (!r.flagBit 4 || a % 32 == 0) && r.p 0x1C 4 == 0
  else
    let acc := (Ref.ofWord r.op0).acc
    let kind := r.p 0x1A 2
    between 1 a (if acc then 256 - (Ref.ofWord r.op0).unit % 256 else 4096) &&
    decide (1 ≤ b) && decide (kind ≤ 2) && (!acc || decide (b ≤ if kind = 2 then 4 else 8)) && r.p 0x1C 4 == 0

/-- Record types that EMIT may use (12 R347). -/
def emitTypes : List Nat := [0x0010, 0x0011, 0x0012, 0x0014, 0x0022, 0x0084]

def Rec.controlOk (e : JudgeEnv) (f : Nat) (r : Rec) : Bool :=
  if r.op = opPush then
    let pb := r.p 0x15 1
    let g := if bitOf pb 7 then f / 4 * 4 + pb % 4 else f
    decide (r.p 0x14 1 < 16) && pb / 4 % 32 == 0 && (bitOf pb 7 || pb == 0) &&
    (!bitOf pb 7 || e.peerOk f (pb % 4)) &&
    (match e.region g (r.p 0x14 1) with | some d => d.fedBy f | none => false) &&
    r.p 0x16 2 == 0 && r.p 0x1C 4 == 0
  else if r.op = opPop then
    (e.region f (r.p 0x14 1)).isSome && r.p 0x15 3 == 0 && r.p 0x1C 4 == 0
  else if r.op = opEmit then
    let route := r.p 0x16 1
    let target := r.p 0x17 1
    emitTypes.contains (r.p 0x14 2) && decide (route < 8) && (!bitOf route 1 || decide (target < 32)) &&
    (!bitOf route 2 || decide (target < 16)) && r.p 0x18 4 % 64 == 0 && r.p 0x1C 4 == 0
  else if r.op = opCheckFlag then
    decide (r.p 0x14 1 < 4) && decide (r.p 0x15 1 < 16) && r.p 0x16 10 == 0
  else if r.op = opWaitTick then r.p 0x14 4 == 0 && r.p 0x1C 4 == 0
  else r.params == 0

/-- FLAGS bits [7:4] that an opcode defines (R77 to R96). -/
def extraFlags (op : Nat) : Nat :=
  if op = opMMT then 0x30
  else if op = opVecRed || op = opScatter || op = opCrop || op = opCopy2d || op = opEmit then 0x10
  else 0

/-- A record's fields are valid for Facet `f` in slot `slot`, at record index `idx`; `first` says that no array
record stands before it in the slot program (R80). -/
def Rec.fieldsOk (e : JudgeEnv) (f slot idx : Nat) (first : Bool) (r : Rec) : Bool :=
  decide (r.flag < 16) && Nat.land (r.flags / 16 * 16) (0xF0 - extraFlags r.op) == 0 &&
  (isArrayOp r.op || bitsOf r.flags 0 3 == 0) && r.refsOk e f &&
  (if isArrayOp r.op then r.arrayOk e f slot idx first
   else if between 0x10 r.op 0x14 then r.vecOk
   else if between 0x20 r.op 0x22 then r.selectOk
   else if between 0x30 r.op 0x31 || between 0x38 r.op 0x3F then r.controlOk e f
   else r.moveOk)

/-! ### Units that operands take (R80, R83) -/

/-- Rows of `u` units at a stride. -/
def spanOf (rows stride u : Nat) : Nat := if rows = 0 then 0 else (rows - 1) * stride + u

def Rec.arrayExtents (r : Rec) : List (Nat × Nat) :=
  let t := elt r.ty0
  let tu := tileUnits t
  let cv := r.op == opCONV || r.op == opDWCONV
  let row := r.kt * tu
  let a :=
    if cv then
      (r.kh - 1) * r.dilation * r.ktField + (r.kw - 1) * r.dilation * r.cit * tu +
        (r.m - 1) * r.cstride * r.cit * tu + r.cit * tu
    else if r.op = opMMT && r.flagBit 4 then
      let u := ceilDiv (r.m * t.bits) 256
      spanOf (64 * r.kt) (if r.aStride = 0 then u else r.aStride) u
    else spanOf r.m (if r.aStride = 0 then row else r.aStride) row
  let g := if r.op = opDWCONV then 1 else r.kt * 64 / r.group
  let tw := elt r.ty1
  let tiles := if r.op = opDWCONV then r.kt * tileUnits tw else r.kt * tileBytes tw / 32
  let su := if t = .bf16 then 0 else unitsOf (g * r.ncols * 2)
  [(r.op0, a), (r.op1, tiles + su + (if r.focus then su else 0)),
   (r.op2, if r.accKeep then 0 else unitsOf (r.m * r.yRow)),
   (r.op3, if r.op3 = 0 then 0 else unitsOf (r.m * g * 2))]

def Rec.vecExtents (r : Rec) : List (Nat × Nat) :=
  let ext (t : Elt) :=
    let u := ceilDiv (r.cols * t.bits) 256
    spanOf r.rows (if r.vstride = 0 then u else r.vstride) u
  let src := ext (elt r.ty0)
  [(r.op0, src),
   (r.op1, if r.hasSrc2 then src else if r.op = opNorm then unitsOf (8 * r.cols) else 0),
   (r.op2, if r.op = opVecRed then
      (if r.flagBit 4 then unitsOf (4 * r.cols)
       else if r.vstride = 0 then unitsOf (4 * r.rows) else spanOf r.rows r.vstride 1)
     else ext (elt r.ty1))]

def Rec.selectExtents (r : Rec) : List (Nat × Nat) :=
  let u := ceilDiv (r.cols * (elt r.ty0).bits) 256
  let src := spanOf r.rows (if r.vstride = 0 then u else r.vstride) u
  if r.op = opDecide then
    [(r.op0, src), (r.op2, unitsOf (8 * r.rows)),
     (r.op3, if r.op3 = 0 then 0 else unitsOf (r.rows * ceilDiv r.cols 64 * 8))]
  else if r.op = opTopk then [(r.op0, src), (r.op2, unitsOf (r.rows * r.p 0x1C 1 * 8))]
  else
    let n := r.p 0x14 2
    [(r.op0, unitsOf (16 * n)), (r.op2, unitsOf (ceilDiv n 8)), (r.op3, 1)]

def Rec.moveExtents (r : Rec) : List (Nat × Nat) :=
  let a := r.p 0x14 2
  let b := r.p 0x16 2
  let bits := (elt r.ty0).bits
  if r.op = opGather then [(r.op0, r.p 0x18 4 * b), (r.op1, unitsOf (4 * a)), (r.op2, a * b)]
  else if r.op = opScatter then [(r.op0, a * b), (r.op1, unitsOf (4 * a)), (r.op2, r.p 0x18 4 * b)]
  else if r.op = opCrop then
    [(r.op0, spanOf (r.p 0x1C 2) (r.p 0x18 2) (ceilDiv (r.p 0x1A 2 * bits) 256)), (r.op1, 1),
     (r.op2, b * ceilDiv (a * bits) 256), (r.op3, 1)]
  else if r.op = opResample then
    [(r.op0, spanOf b (r.p 0x1C 2) (ceilDiv (a * bits) 256)),
     (r.op2, r.p 0x1A 2 * ceilDiv (r.p 0x18 2 * bits) 256)]
  else if r.op = opCopy2d then
    let ss := if r.p 0x18 2 = 0 then b else r.p 0x18 2
    if r.flagBit 4 then
      [(r.op0, spanOf a ss b),
       (r.op2, spanOf (32 * b) (if r.p 0x1A 2 = 0 then a / 32 else r.p 0x1A 2) (a / 32))]
    else [(r.op0, spanOf a ss b), (r.op2, spanOf a (if r.p 0x1A 2 = 0 then b else r.p 0x1A 2) b)]
  else [(r.op0, a * b), (r.op2, spanOf a (if r.p 0x18 2 = 0 then b else r.p 0x18 2) b)]

/-- The operands of a record with the units each takes from its start. -/
def Rec.extents (r : Rec) : List (Nat × Nat) :=
  if isArrayOp r.op then r.arrayExtents
  else if between 0x10 r.op 0x14 then r.vecExtents
  else if between 0x20 r.op 0x22 then r.selectExtents
  else if r.op = opEmit then [(r.op0, 1), (r.op1, if r.op1 = 0 then 0 else unitsOf (r.p 0x18 4))]
  else if between 0x30 r.op 0x31 || between 0x38 r.op 0x3F then []
  else r.moveExtents

/-- An operand of `n` units lies in the declared rows, or in its circular region (R80). -/
def extentOk (e : JudgeEnv) (f : Nat) (v n : Nat) : Bool :=
  let r := Ref.ofWord v
  let g := if r.remote then f / 4 * 4 + r.peer else f
  if r.acc || n = 0 then true
  else if r.circ then
    match e.region g r.region with
    | some d => decide (n ≤ d.size)
    | none => false
  else match e.facet g with
    | some x => decide (x.firstRow * 64 ≤ r.unit) && decide (r.unit + n ≤ (x.firstRow + x.rowCount) * 64)
    | none => false

def Rec.extentsOk (e : JudgeEnv) (f : Nat) (r : Rec) : Bool := r.extents.all (fun p => extentOk e f p.1 p.2)

end Sys2Proof.Machine
end

