-- ==== Sys2Proof/Machine/ImageConfig.lean ====
section
/-! DEFINITION. The OBJECTIVE_CONFIG and CONVERTER_CONFIG sections of a schedule image: their fields and
their form (09 R258, R259; 10 R291). -/

namespace Sys2Proof.Machine

/-! ### OBJECTIVE_CONFIG -/

def streamOf (b : List Byte) : StreamCfg :=
  ⟨byteAt b 0, byteAt b 1, byteAt b 2, byteAt b 3, fieldLe b 4 2, fieldLe b 6 2, fieldLe b 8 2, fieldLe b 10 2,
   fieldLe b 12 2, fieldLe b 14 2, fieldLe b 0x10 4, byteAt b 0x14, byteAt b 0x15, byteAt b 0x16⟩

def halves (b : List Byte) (off n : Nat) : List Nat := (List.range n).map (fun i => fieldLe b (off + 2 * i) 2)

def streamBytes (b : List Byte) (i : Nat) : List Byte := (b.drop (0x80 + 64 * i)).take 64

def objCfgOf (b : List Byte) : ObjCfg where
  mode := byteAt b 0
  flags := byteAt b 1
  frameTicks := fieldLe b 2 2
  exposure := fieldLe b 4 4
  again := fieldLe b 8 2
  dgain := fieldLe b 10 2
  black := fieldLe b 12 2
  dynThresh := fieldLe b 14 2
  wb := halves b 0x10 4
  ccm := (halves b 0x18 9).map (signExt 16)
  burstFrames := fieldLe b 0x40 2
  burstTap := byteAt b 0x42
  pinTrigger := if bitOf (byteAt b 1) 4 then byteAt b 0x43 else 0xFF
  burstExposure := fieldLe b 0x44 4
  burstAgain := fieldLe b 0x48 2
  originX := fieldLe b 0x4A 2
  originY := fieldLe b 0x4C 2
  envelopeMask := fieldLe b 0x50 8
  partition := fieldLe b 0x58 4
  histX := fieldLe b 0x60 2
  histY := fieldLe b 0x62 2
  histW := fieldLe b 0x64 2
  histH := fieldLe b 0x66 2
  flickerCh := byteAt b 0x68
  flickerMin := fieldLe b 0x6A 2
  streams := (List.range 5).map (fun i => streamOf (streamBytes b i))
  tone := [halves b 0x200 256, halves b 0x400 256, halves b 0x600 256]

/-- A gain from 1 to 8 in one axis (R242). -/
def scaleOk (src out : Nat) : Bool := decide (1 ≤ out) && decide (out ≤ src) && decide (src ≤ 8 * out)

/-- A stream entry is well-formed (R243, R244, R259). -/
def StreamCfg.ok (c : StreamCfg) (e : JudgeEnv) (mode s : Nat) : Bool :=
  let even4 := c.srcX % 2 == 0 && c.srcY % 2 == 0 && c.srcW % 2 == 0 && c.srcH % 2 == 0
  let toned := c.kind == 3 || c.kind == 4 || (c.kind == 2 && !bitOf c.point 1)
  if c.kind = 0 then c.ringBytes == 0
  else
    decide (c.kind ≤ 4) &&
    (if c.kind = 1 then between 1 c.point 3 else if c.kind = 2 then decide (c.point < 4) else c.point == 0) &&
    [8, 16, 32, 64].contains c.lpg && (if toned then decide (c.tone ≤ 2) else c.tone == 0xFF) &&
    decide (c.srcX + c.srcW ≤ modeW mode) && decide (c.srcY + c.srcH ≤ modeH mode) &&
    decide (1 ≤ c.srcW) && decide (1 ≤ c.srcH) &&
    (if c.kind = 1 then c.outW == c.srcW && c.outH == c.srcH && even4
     else scaleOk c.srcW c.outW && scaleOk c.srcH c.outH) &&
    (c.kind != 2 || decide (c.outW ≤ 4096)) &&
    (c.kind != 3 || (decide (c.outW ≤ 1920) && decide (c.outH ≤ 1440))) &&
    (c.kind != 4 || (decide (c.outW ≤ 4096) && decide (c.outH ≤ 3072) && c.outW % 2 == 0 && c.outH % 2 == 0)) &&
    c.ringBytes % 65536 == 0 && decide (2 * c.groupBytes ≤ c.ringBytes) && decide (c.dest ≤ 1) &&
    (c.dest == 0 || (bitOf e.mask c.facet && decide (c.facet < 16) && (match e.region c.facet c.region with
      | some d => d.producer == 3 && d.pindex == s && d.size % (c.groupBytes / 32) == 0
      | none => false)))

/-- Every region whose producer is the Objective is fed by a stream (R259). -/
def regionsFed (e : JudgeEnv) (producer : Nat) (feeds : Nat → Nat → Nat → Bool) : Bool :=
  e.res.all (fun x => ((x.regions.zip (List.range x.regions.length))).all (fun p =>
    p.1.producer != producer || feeds x.facet p.2 p.1.pindex))

def nonDecreasing : List Nat → Bool
  | a :: b :: r => decide (a ≤ b) && nonDecreasing (b :: r)
  | _ => true

/-- The capacity of a partition: its footprint (06 R157). -/
def Partition.footprint (p : Partition) : Nat := if p.kind = 0 then p.size else p.size / 4

/-- OBJECTIVE_CONFIG is well-formed (R258, R259) at `n` ticks per second and hyperperiod `h`. -/
def objOk (b : List Byte) (e : JudgeEnv) (parts : List Partition) (n h : Nat) : Bool :=
  let c := objCfgOf b
  let burst := bitOf c.flags 4
  let ss := c.streams.zip (List.range 5)
  decide (c.mode ≤ 2) && decide (c.flags < 32) && decide (1 ≤ c.frameTicks) &&
  decide (modePmin c.mode ≤ c.frameTicks * (1000000000 / n)) && h % c.frameTicks == 0 &&
  between 2 c.exposure 65535 && between 256 c.again 4096 && decide (4096 ≤ c.dgain) &&
  decide (c.black ≤ if c.mode = 2 then 16383 else 1023) && decide ((c.dynThresh : Int) ≤ modeVmax c.mode) &&
  c.wb.all (fun v => 1024 ≤ v) && allZero ((b.drop 0x2A).take 22) &&
  (if burst then
     between 1 c.burstFrames 500 && between 1 c.burstTap 3 && (decide (c.pinTrigger ≤ 7) || c.pinTrigger == 0xFF) &&
     between 2 c.burstExposure 1250 && between 256 c.burstAgain 4096 && decide (c.originX ≤ 7168) &&
     decide (c.originY ≤ 5120) && allZero ((b.drop 0x4E).take 2) && allZero ((b.drop 0x5C).take 4) &&
     parts.any (fun p => p.id == c.partition && p.history &&
       decide (c.burstFrames * 2097152 + 8192 ≤ p.footprint))
   else allZero ((b.drop 0x40).take 32)) &&
  [c.histX, c.histY, c.histW, c.histH].all (fun v => v % 2 == 0) && c.histW != 0 && c.histH != 0 &&
  decide (c.histX + c.histW ≤ modeW c.mode) && decide (c.histY + c.histH ≤ modeH c.mode) &&
  (decide (c.flickerCh ≤ 63) || c.flickerCh == 0xFF) && byteAt b 0x69 == 0 &&
  allZero ((b.drop 0x6C).take 20) && allZero ((b.drop 0x1C0).take 64) &&
  (List.range 5).all (fun i => allZero ((streamBytes b i).drop 0x17)) &&
  ss.all (fun p => p.1.ok e c.mode p.2) && c.tone.all nonDecreasing &&
  decide ((c.streams.filter (fun s => s.kind == 1)).length ≤ 2) &&
  decide ((c.streams.filter (fun s => 2 ≤ s.kind)).length ≤ 3) &&
  decide ((c.streams.map (·.ringBytes)).foldl (· + ·) 0 ≤ 0x400000) &&
  regionsFed e 3 (fun f r k => ss.any (fun p =>
    p.2 == k && p.1.kind != 0 && p.1.dest == 1 && p.1.facet == f && p.1.region == r))

/-! ### CONVERTER_CONFIG -/

def convEntBytes (b : List Byte) (i : Nat) : List Byte := (b.drop (0x40 + 32 * i)).take 32
def inputEntBytes (b : List Byte) (i : Nat) : List Byte := (b.drop (0x240 + 32 * i)).take 32
def windowEntBytes (b : List Byte) (i : Nat) : List Byte := (b.drop (0xA40 + 32 * i)).take 32

def convEntOf (b : List Byte) : ConvEnt :=
  ⟨byteAt b 0, byteAt b 1, byteAt b 2, byteAt b 3, fieldLe b 4 2, fieldLe b 6 2, byteAt b 8, byteAt b 9⟩

def inputEntOf (b : List Byte) : InputEnt :=
  ⟨signExt 32 (fieldLe b 0 4), fieldLe b 4 4, byteAt b 8, byteAt b 9, byteAt b 10, fieldLe b 12 4, fieldLe b 16 4⟩

def windowEntOf (b : List Byte) : WindowEnt := ⟨fieldLe b 0 8, fieldLe b 8 2, fieldLe b 12 4, fieldLe b 16 4⟩

def convCfgOf (b : List Byte) : ConvCfg where
  source := byteAt b 0
  etChannel := byteAt b 1
  outage := bitOf (fieldLe b 2 2) 0
  keepFirst := bitOf (fieldLe b 2 2) 1
  period := fieldLe b 4 4
  spt := fieldLe b 8 4
  histPart := fieldLe b 12 4
  ringBlocks := fieldLe b 16 4
  outageMask := fieldLe b 0x14 2
  activeMask := fieldLe b 0x16 2
  conv := (List.range 16).map (fun i => convEntOf (convEntBytes b i))
  inputs := (List.range 64).map (fun i => inputEntOf (inputEntBytes b i))
  windows := (List.range 8).map (fun i => windowEntOf (windowEntBytes b i))

/-- The entry of a converter (R291; log 31). -/
def ConvEnt.ok (c : ConvEnt) (e : JudgeEnv) (k : Nat) (active : Bool) : Bool :=
  [1, 2, 4, 8, 16, 32, 64, 128].contains c.div && decide (c.seqLen ≤ 8) && decide (c.sel ≤ 3) &&
  decide (c.readers ≤ 7) && (!active || c.readers != 0) &&
  (!bitOf c.readers 0 || (decide (c.facet < 16) && bitOf e.mask c.facet && (match e.region c.facet c.region with
    | some d => d.producer == 4 && d.pindex == k && d.size % 34 == 0
    | none => false)))

def InputEnt.ok (i : InputEnt) : Bool :=
  decide (-131072 ≤ i.offset) && decide (i.offset ≤ 131071) && decide (i.gain ≤ 0xFFFFFF) &&
  decide (i.mode ≤ 2) && (if i.mode = 2 then between 1 i.stepW 64 else i.stepW == 0) &&
  (decide (i.urgent ≤ 63) || i.urgent == 0xFF) && (i.mode == 0 || between 1 i.level 262142) &&
  decide (i.holdoff ≤ 1000000)

/-- Length of a block of a converter in ns at `n` ticks per second, times 256; the shortest for events (R264,
R266; log 31). -/
def blockTime (c : ConvCfg) (n div : Nat) : Nat :=
  if c.source = 0 then 256 * div * c.period
  else if c.source = 1 then 256 * 256 * div * 1000000000 / (n * c.spt)
  else 256 * 256 * 500

/-- A window entry in use (R286, R291). -/
def WindowEnt.ok (w : WindowEnt) (c : ConvCfg) (n maxWindow : Nat) : Bool :=
  let cs := (List.range 16).filter (fun k => bitOf w.convMask k)
  let ent (k : Nat) : ConvEnt := c.conv.getD k ⟨0, 0, 0, 0, 0, 0, 0, 0⟩
  let div := (ent (cs.headD 0)).div
  (List.range 64).all (fun i => !bitOf w.mask i || (match c.inputs[i]? with
    | some x => x.mode != 0
    | none => false)) &&
  !cs.isEmpty && cs.all (fun k => bitOf c.activeMask k && (ent k).div == div && bitOf (ent k).readers 2) &&
  decide (w.pre + w.post ≤ maxWindow * 1000) &&
  decide ((w.pre + w.post) * 256000 ≤ c.ringBlocks * blockTime c n div)

/-- CONVERTER_CONFIG is well-formed (R291). -/
def convOk (b : List Byte) (e : JudgeEnv) (parts : List Partition) (n maxWindow : Nat) : Bool :=
  let c := convCfgOf b
  let active := (List.range 16).filter (fun k => bitOf c.activeMask k)
  let ent (k : Nat) : ConvEnt := c.conv.getD k ⟨0, 0, 0, 0, 0, 0, 0, 0⟩
  decide (c.source ≤ 2) && (if c.source = 2 then decide (c.etChannel ≤ 7) else c.etChannel == 0) &&
  decide (fieldLe b 2 2 < 4) && c.activeMask != 0 && allZero ((b.drop 0x18).take 40) &&
  (if c.source = 0 then
     decide (128000 ≤ c.period) && (List.range 16).all (fun k => c.period * (ent k).div < 2 ^ 32)
   else c.period == 0) &&
  (if c.source = 1 then
     between 256 c.spt (1000000000 / (500 * n)) && active.all (fun k => c.spt % (256 * (ent k).div) == 0)
   else c.spt == 0) &&
  (if c.histPart = 0xFFFFFFFF then c.ringBlocks == 0
   else decide (2 ≤ c.ringBlocks) && parts.any (fun p =>
     p.id == c.histPart && p.kind == 0 && p.history && decide (16 * c.ringBlocks * 1088 ≤ p.size))) &&
  (List.range 16).all (fun k => (ent k).ok e k (bitOf c.activeMask k)) &&
  (List.range 16).all (fun i => allZero ((convEntBytes b i).drop 10)) &&
  (List.range 64).all (fun i =>
    (inputEntOf (inputEntBytes b i)).ok && byteAt (inputEntBytes b i) 11 == 0 &&
    allZero ((inputEntBytes b i).drop 0x14)) &&
  (List.range 8).all (fun i =>
    let w := windowEntBytes b i
    allZero w || ((windowEntOf w).ok c n maxWindow && fieldLe w 10 2 == 0 && allZero (w.drop 0x14))) &&
  regionsFed e 4 (fun f r k => decide (k < 16) && bitOf c.activeMask k && bitOf (ent k).readers 0 &&
    (ent k).facet == f && (ent k).region == r)

end Sys2Proof.Machine
end

