-- ==== Sys2Proof/Machine/Sign.lean ====
section
/-! DEFINITION. The signature block (02 R54), key digests (14 R392) and both signatures (14 R391; log 6). -/

namespace Sys2Proof.Machine

/-- Bytes of a signature block. -/
def sigLen : Nat := 0x42C0

namespace Sig

def keySlot (b : List Byte) : Nat := byteAt b 4
def signedLen (b : List Byte) : Nat := fieldLe b 8 8
def rsaN (b : List Byte) : List Byte := sliceBytes b 0x10 384
def rsaE (b : List Byte) : List Byte := sliceBytes b 0x190 4
def slhPk (b : List Byte) : List Byte := sliceBytes b 0x1A0 48
def rsaSig (b : List Byte) : List Byte := sliceBytes b 0x1D0 384
def slhSig (b : List Byte) : List Byte := sliceBytes b 0x350 16224

/-- Layout and reserved fields of a block over `len` signed bytes. -/
def layout (b : List Byte) (len : Nat) : Bool :=
  fieldLe b 0 4 == 0x42474953 && allZero ((b.drop 5).take 3) && signedLen b == len &&
  fieldLe b 0x190 4 == 65537 && allZero ((b.drop 0x194).take 12) && allZero ((b.drop 0x42B0).take 16)

/-- The 96 anchor bytes that a key pair gives (14 R392). -/
def anchorOf (rsa slh : List Byte) : List Byte := sha384 rsa ++ sha384 slh

/-- The anchor of the block's own keys. -/
def anchor (b : List Byte) : List Byte := anchorOf (rsaN b ++ rsaE b) (slhPk b)

/-- Both signatures over the digest of the signed bytes verify. -/
def verifies (b : List Byte) (digest : List Byte) : Bool :=
  Config.rsaVerify (rsaN b) (leNat (rsaE b)) digest (rsaSig b) &&
  Config.slhVerify (slhPk b) digest (slhSig b)

end Sig

/-- The block's keys match an anchor of the device (14 R392). -/
def State.keysMatch (s : State) (signer : Nat) (b : List Byte) : Bool :=
  s.anchor signer == some (Sig.anchor b)

end Sys2Proof.Machine
end

