-- ==== Sys2Proof/Machine/Admission.lean ====
section
/-! DEFINITION. Schedule images: their parts and the checks that let one in (02 R42 to R59; 06 R158 to R163). -/

namespace Sys2Proof.Machine

/-! ### Parts of an image -/

/-- A section-table entry (R45). -/
structure Section where
  type : Nat
  count : Nat
  off : Nat
  len : Nat
  deriving DecidableEq, Repr

/-- The bytes of an image with its sections and the figures that its checks share. -/
structure Img0 where
  addr : Nat
  bytes : List Byte
  secs : List Section
  n : Nat
  h : Nat
  mask : Nat
  floor : Nat
  holdover : Bool
  deriving DecidableEq, Repr

/-- Element sizes of the section types, 0 for none (R45). -/
def elementSize (t : Nat) : Nat :=
  if t = 1 then 320 else if t = 2 ∨ t = 10 ∨ t = 11 ∨ t = 12 then 16
  else if t = 3 ∨ t = 4 then 32 else if t = 5 then 8 else if t = 7 then 128 else 0

def sectionOf (b : List Byte) : Section := ⟨fieldLe b 0 2, fieldLe b 4 4, fieldLe b 8 8, fieldLe b 16 8⟩

def entryBytes (b : List Byte) (i : Nat) : List Byte := (b.drop (256 + 32 * i)).take 32

def img0Of (addr : Nat) (b : List Byte) : Img0 :=
  ⟨addr, b, (List.range (fieldLe b 0x18 2)).map (fun i => sectionOf (entryBytes b i)), fieldLe b 0x22 2,
   fieldLe b 0x24 2, fieldLe b 0x26 2, byteAt b 0x20, bitOf (byteAt b 0x21) 0⟩

namespace Img0

def sec (m : Img0) (t : Nat) : Option Section := m.secs.find? (fun x => x.type == t)

/-- Number of elements of a section, 0 when it is absent. -/
def count (m : Img0) (t : Nat) : Nat := match m.sec t with | some x => x.count | none => 0

/-- The bytes of a section. -/
def body (m : Img0) (t : Nat) : List Byte :=
  match m.sec t with
  | some x => (m.bytes.drop x.off).take x.len
  | none => []

/-- Elements of a section. -/
def elements (m : Img0) (t : Nat) : List (List Byte) :=
  let b := m.body t
  (List.range (m.count t)).map (fun i => (b.drop (elementSize t * i)).take (elementSize t))

end Img0

def regionDeclOf (b : List Byte) : RegionDecl :=
  ⟨fieldLe b 0 4, fieldLe b 4 4, byteAt b 8, byteAt b 9, byteAt b 10⟩

def regionBytes (b : List Byte) (r : Nat) : List Byte := (b.drop (0x40 + 16 * r)).take 16

def facetResOf (b : List Byte) : FacetRes :=
  ⟨byteAt b 0, bitOf (byteAt b 1) 0, fieldLe b 4 2, fieldLe b 6 2,
   (List.range (byteAt b 2)).map (fun r => regionDeclOf (regionBytes b r))⟩

def slotEntryOf (b : List Byte) : SlotEntry := ⟨fieldLe b 0 4, fieldLe b 4 4, fieldLe b 8 4⟩

/-- A macro-op record (03 R77). -/
def recOf (b : List Byte) : Rec :=
  ⟨byteAt b 0, byteAt b 1, byteAt b 2, byteAt b 3, fieldLe b 4 4, fieldLe b 8 4, fieldLe b 12 4, fieldLe b 16 4,
   fieldLe b 0x14 12⟩

def partitionOf (b : List Byte) : Partition :=
  ⟨fieldLe b 0 8, fieldLe b 8 8, byteAt b 0x10, byteAt b 0x11, byteAt b 0x12, bitOf (byteAt b 0x13) 0,
   bitOf (byteAt b 0x13) 1, fieldLe b 0x14 4⟩

def cropLimitsOf (b : List Byte) : CropLimits := ⟨fieldLe b 0 2, fieldLe b 2 2, byteAt b 4, fieldLe b 6 2⟩

namespace Img0

def env (m : Img0) : JudgeEnv := ⟨m.mask, (m.elements 1).map facetResOf, m.elements 12⟩
def parts (m : Img0) : List Partition := (m.elements 4).map partitionOf
def ops (m : Img0) : List Rec := (m.elements 3).map recOf
def traffic (m : Img0) : List Nat := (m.elements 5).map leNat
def crop (m : Img0) : CropLimits := cropLimitsOf (m.body 10)

/-- Number of Facets in the mask. -/
def facets (m : Img0) : List Nat := (List.range 16).filter (fun f => bitOf m.mask f)

/-! ### Check 1 (R42, R43, R45, R50) -/

def headerOk (m : Img0) : Bool :=
  let b := m.bytes
  let len := b.length
  decide (256 + sigLen ≤ len) && len % 64 == 0 && fieldLe b 0 4 == 0x43534C50 && fieldLe b 4 2 == 0x0100 &&
  fieldLe b 6 2 == 256 && fieldLe b 8 8 == len && fieldLe b 0x10 8 == len - sigLen &&
  between 1 (fieldLe b 0x18 2) 16 && fieldLe b 0x1A 2 == 0 && fieldLe b 0x1C 4 == 256 &&
  decide (byteAt b 0x21 < 2) && m.mask != 0 && fieldLe b 0x3C 4 == 0 && allZero ((b.drop 0x48).take 184)

/-- Counts that the table fixes (R45). -/
def countOk (m : Img0) (x : Section) : Bool :=
  if x.type = 1 then x.count == m.facets.length
  else if x.type = 2 then x.count == m.h * 16
  else if x.type = 4 then between 1 x.count 64
  else if x.type = 5 then x.count == m.h
  else if x.type = 8 then x.count == 1 && x.len == 2048
  else if x.type = 9 then x.count == 1 && x.len == 2880
  else if x.type = 10 then x.count == 1
  else if x.type = 11 then x.count == m.h * 4 && m.holdover
  else true

def tableEnd (m : Img0) : Nat := 256 + 32 * m.secs.length

def sectionOk (m : Img0) (i : Nat) (x : Section) : Bool :=
  let e := entryBytes m.bytes i
  between 1 x.type 12 && fieldLe e 2 2 == 0 && allZero (e.drop 24) && x.off % 64 == 0 &&
  decide (m.tableEnd ≤ x.off) && decide (x.off + x.len ≤ m.bytes.length - sigLen) &&
  (elementSize x.type == 0 || x.len == x.count * elementSize x.type) && m.countOk x

def apart : List Section → Bool
  | [] => true
  | x :: xs => xs.all (fun y => x.type != y.type &&
      (decide (x.off + x.len ≤ y.off) || decide (y.off + y.len ≤ x.off))) && apart xs

/-- A byte position is covered by a field, entry, section or the signature block (R42). -/
def covered (m : Img0) (i : Nat) : Bool :=
  decide (i < m.tableEnd) || decide (m.bytes.length - sigLen ≤ i) ||
  m.secs.any (fun x => decide (x.off ≤ i) && decide (i < x.off + x.len))

def tableOk (m : Img0) : Bool :=
  (m.secs.zip (List.range m.secs.length)).all (fun p => m.sectionOk p.2 p.1) && apart m.secs &&
  [1, 2, 3, 4, 5, 10].all (fun t => (m.sec t).isSome) && ((m.sec 11).isSome || !m.holdover) &&
  (m.bytes.zip (List.range m.bytes.length)).all (fun p => p.1 == 0 || m.covered p.2)

/-- The egress classes and the two configurations (R50; 09 R258, R259; 10 R291). -/
def configOk (m : Img0) : Bool :=
  let e := m.env
  m.parts.all (fun p => p.egress ≤ 3) && e.res.all (fun x => x.regions.all (fun d => d.egress ≤ 3)) &&
  (if (m.sec 8).isSome then objOk (m.body 8) e m.parts m.n m.h else regionsFed e 3 (fun _ _ _ => false)) &&
  (if (m.sec 9).isSome then convOk (m.body 9) e m.parts m.n m.crop.maxWindow
   else regionsFed e 4 (fun _ _ _ => false))

end Img0

/-- The range of an image being loaded (R56, R57): inside HBM, aligned, clear of the images held and of the active
image's partitions. -/
def State.imageRangeOk (s : State) (a n : Nat) : Bool :=
  let clear (i : Option Image) : Bool := match i with
    | some i => !overlaps a n i.addr i.len
    | none => true
  a % 4096 == 0 && decide (a + n ≤ hbmSize) && clear s.sched.active && clear s.sched.staged &&
  (match s.sched.active with
    | some i => i.parts.all (fun p => if p.kind = 0 then !overlaps a n p.base p.size else !p.touches a n)
    | none => true)

/-! ### Check 2 (R54) -/

/-- The signature block, its slot and both signatures. -/
def State.imageSigned (s : State) (m : Img0) : Bool :=
  let k := m.bytes.length - sigLen
  let b := m.bytes.drop k
  Sig.layout b k && decide (Sig.keySlot b ≤ 1) && s.keysMatch (Sig.keySlot b) b &&
  bitOf (s.slotArtefacts (Sig.keySlot b)) 0 && Sig.verifies b (sha384 (m.bytes.take k))

namespace Img0

/-! ### Checks 3 to 7 -/

/-- Check 3. -/
def timingOk (m : Img0) : Bool := between 1 m.n 10000 && between 1 m.h 4096 && decide (m.floor ≤ 3)

/-- Check 4. -/
def opcodesOk (m : Img0) : Bool := m.ops.all (fun r => assignedOps.contains r.op)

/-- The slot programs: Facet, slot, whether it is a holdover program, its entry (R38, R45). -/
def programs (m : Img0) : List (Nat × Nat × Bool × List Byte) :=
  ((m.elements 2).zip (List.range (m.h * 16))).map (fun p => (p.2 % 16, p.2 / 16, false, p.1)) ++
  ((m.elements 11).zip (List.range (m.h * 4))).map (fun p => (p.2 % 4, p.2 / 4, true, p.1))

/-- The records of an entry. -/
def recsOf (ops : List Rec) (e : SlotEntry) : List Rec := (ops.drop e.first).take e.count

/-- Records judged in turn: their index, and whether an array record stood before. -/
def judgeRecs (e : JudgeEnv) (f slot : Nat) : Nat → Bool → List Rec → Bool
  | _, _, [] => true
  | i, first, r :: rs =>
    r.fieldsOk e f slot i first && judgeRecs e f slot (i + 1) (first && !isArrayOp r.op) rs

/-- Check 5. The elements of FOCUS_BOUNDS are those of the focus-enabled records reached, no more (R45; log 30). -/
def recordsOk (m : Img0) : Bool :=
  let e := m.env
  let ops := m.ops
  let uses := m.programs.flatMap (fun p =>
    let se := slotEntryOf p.2.2.2
    (recsOf ops se).zip (List.range se.count) |>.filterMap (fun q =>
      if q.1.focus then some (p.1, p.2.1, se.first + q.2) else none))
  m.programs.all (fun p =>
    let b := p.2.2.2
    let se := slotEntryOf b
    fieldLe b 12 4 == 0 && (bitOf m.mask p.1 || allZero b) &&
    (se.count == 0 ||
      (decide (se.first + se.count ≤ ops.length) &&
       ((recsOf ops se).getLast?.map (·.op)) == some opEnd &&
       judgeRecs e p.1 p.2.1 se.first true (recsOf ops se)))) &&
  e.focus.all (fun b => uses.contains (byteAt b 0, fieldLe b 2 2, fieldLe b 4 4) &&
    byteAt b 1 == 0 && fieldLe b 12 4 == 0)

/-- Check 6 (03 R100). -/
def cyclesDeclared (m : Img0) : Bool :=
  m.programs.all (fun p =>
    let se := slotEntryOf p.2.2.2
    decide (worstCycles (recsOf m.ops se) 0 false ≤ se.cycles))

/-- B_L of R39. -/
def budget (n level : Nat) : Nat := facetMHz level * 1000000 / n

/-- Check 7. -/
def cyclesFit (m : Img0) : Bool :=
  m.programs.all (fun p =>
    decide ((slotEntryOf p.2.2.2).cycles ≤ budget m.n (if p.2.2.1 then 3 else m.floor) * 98 / 100))

/-! ### Check 8 (R47, R48; 03 R80) -/

def regionsApart : List RegionDecl → Bool
  | [] => true
  | d :: ds => ds.all (fun x => decide (d.base + d.size ≤ x.base) || decide (x.base + x.size ≤ d.base)) &&
      regionsApart ds

/-- PRODUCER and PRODUCER_INDEX (R48). -/
def producerOk (m : Img0) (f : Nat) (d : RegionDecl) : Bool :=
  if d.producer = 0 then decide (d.pindex < 16) && bitOf m.mask d.pindex && d.pindex / 4 == f / 4
  else if d.producer = 1 then decide (d.pindex < 40)
  else if d.producer = 2 then decide (d.pindex < 4)
  else if d.producer = 3 then decide (d.pindex < 5)
  else if d.producer = 4 then decide (d.pindex < 16)
  else d.producer == 5 && decide (d.pindex < 16)

def resourceOk (m : Img0) (b : List Byte) : Bool :=
  let x := facetResOf b
  decide (x.facet < 16) && bitOf m.mask x.facet && decide (byteAt b 1 < 2) && decide (byteAt b 2 ≤ 16) &&
  byteAt b 3 == 0 && decide (x.firstRow ≤ 4095) && between 1 x.rowCount 4096 &&
  decide (x.firstRow + x.rowCount ≤ 4096) && allZero ((b.drop 8).take 56) &&
  allZero (b.drop (0x40 + 16 * byteAt b 2)) && regionsApart x.regions &&
  (List.range (byteAt b 2)).all (fun r =>
    let rb := regionBytes b r
    byteAt rb 11 == 0 && fieldLe rb 12 4 == 0) &&
  x.regions.all (fun d => decide (1 ≤ d.size) && decide (x.firstRow * 64 ≤ d.base) &&
    decide (d.base + d.size ≤ (x.firstRow + x.rowCount) * 64) && m.producerOk x.facet d)

def resourcesOk (m : Img0) : Bool :=
  let e := m.env
  (m.elements 1).all m.resourceOk && m.facets.all (fun f => (e.facet f).isSome) &&
  m.programs.all (fun p => (recsOf m.ops (slotEntryOf p.2.2.2)).all (fun r => r.extentsOk e p.1))

end Img0

/-! ### Check 9 (R49, R58; 06 R157 to R160, R173) -/

/-- Two partitions share a byte of their footprints. -/
def Partition.meets (p q : Partition) : Bool :=
  overlaps p.base p.size q.base q.size && (p.kind == 0 || q.kind == 0 || p.prism == q.prism)

/-- A staged partition inherits one of the active image (R58). -/
def Partition.inherits (p q : Partition) : Bool :=
  p.inherit && q.inherit && p.base == q.base && p.size == q.size && p.kind == q.kind && p.prism == q.prism &&
  p.egress == q.egress && p.id == q.id

def partsApart : List Partition → Bool
  | [] => true
  | p :: ps => ps.all (fun q => !p.meets q) && partsApart ps

def State.partitionsOk (s : State) (m : Img0) : Bool :=
  let ps := m.parts
  let act := match s.sched.active with | some i => i.parts | none => []
  let total := (ps.map (·.footprint)).foldl (· + ·) 0 +
    ((act.filter (fun q => !ps.any (fun p => p.inherits q))).map (·.footprint)).foldl (· + ·) 0
  (m.elements 4).all (fun b => decide (byteAt b 0x13 < 4) && allZero ((b.drop 0x18).take 8)) &&
  ps.all (fun p => p.base % 65536 == 0 && p.size % 65536 == 0 && p.size != 0 &&
    decide (p.base + p.size ≤ s.mirrorBase) && decide (p.kind ≤ 1) && decide (p.prism ≤ 3) &&
    (p.kind != 0 || p.prism == 0) && act.all (fun q => !p.meets q || p.inherits q)) &&
  partsApart ps && decide ((ps.filter (·.history)).length ≤ 8) && decide (total ≤ s.mirrorBase)

/-! ### Check 10 (R44, R59; 06 R161, R163) -/

/-- The sustained allowance in GB/s for an energy per tick in nJ (06 R161). -/
def allowance (energy n : Nat) : Nat := 4 * ((720000000000 - 101 * (energy * n)) / 12800000000)

/-- Every run of consecutive slots is within the bucket: the first argument counts the slots still to take. -/
def runsFit (a n : Nat) : Nat → Nat → Nat → List Nat → Bool
  | 0, _, _, _ => true
  | _, _, _, [] => true
  | k + 1, len, sum, t :: ts =>
    decide (sum + t ≤ 33554432 + a * (len + 1) / n) && runsFit a n k (len + 1) (sum + t) ts

/-- R59 and R163 for one declared energy per tick; `cap` bounds the allowance. -/
def energyFits (energy n cap : Nat) (traffic : List Nat) : Bool :=
  let h := traffic.length
  let a := min cap (allowance energy n)
  decide (energy * n ≤ 7200000000) && (allowance energy n != 0 || traffic.all (· == 0)) &&
  (List.range h).all (fun st => runsFit (a * 1000000000) n h 0 0 (traffic.drop st ++ traffic.take st))

namespace Img0

def energy (m : Img0) (l : Nat) : Nat := fieldLe m.bytes (0x28 + 4 * l) 4
def holdEnergy (m : Img0) : Nat := fieldLe m.bytes 0x38 4

def energyOk (m : Img0) : Bool :=
  (List.range 4).all (fun l =>
    if l ≤ m.floor then m.energy l != 0 && energyFits (m.energy l) m.n 1000 m.traffic else m.energy l == 0) &&
  (if m.holdover then energyFits m.holdEnergy m.n 16 m.traffic else m.holdEnergy == 0)

/-! ### Checks 11 and 12 (R51, R52) -/

def cropOk (m : Img0) : Bool :=
  let b := m.body 10
  let c := m.crop
  between 1 c.maxW 2048 && between 1 c.maxH 2048 && between 1 c.maxCrops 8 && between 1 c.maxWindow 2000 &&
  byteAt b 5 == 0 && allZero (b.drop 8)

/-- The base that a template's address is relative to (R52). -/
def templateBase (m : Img0) (kind idx : Nat) : Nat :=
  if kind = 1 then m.addr
  else if kind = 2 then (match m.parts[idx]? with | some p => p.base | none => 0)
  else if kind = 3 then scratchBase + idx * 0x1000000
  else 0

/-- A relocated range stays in what its base names. -/
def templateRange (m : Img0) (kind idx a n : Nat) : Bool :=
  if kind = 0 then true
  else if kind = 1 then decide (m.addr ≤ a) && decide (a + n ≤ m.addr + m.bytes.length)
  else if kind = 2 then (match m.parts[idx]? with
    | some p => p.holdsRange a n
    | none => false)
  else if kind = 3 then (match m.env.facet idx with
    | some x => decide (scratchBase + idx * 0x1000000 + x.firstRow * 2048 ≤ a) &&
        decide (a + n ≤ scratchBase + idx * 0x1000000 + (x.firstRow + x.rowCount) * 2048)
    | none => false)
  else false

/-- The relocated template of an element. -/
def template (m : Img0) (b : List Byte) : Tmpl :=
  let d := DmaDesc.ofBytes b
  let src := d.src + (if d.srcKind = 0 then m.templateBase (byteAt b 0x42) (byteAt b 0x43) else 0)
  let dst := d.dst + m.templateBase (byteAt b 0x44) (byteAt b 0x45)
  ⟨{ d with ctrl := d.ctrl % 2 ^ 31, src := src, dst := dst, next := 0 }, byteAt b 0x40, byteAt b 0x41,
   fieldLe b 0x46 2, fieldLe b 0x48 2⟩

/-- A channel that uses the Condenser produces no circular region (07 R197). -/
def condensesRegion (m : Img0) (t : Tmpl) : Bool :=
  t.desc.transform == 2 && (t.desc.circ || m.env.res.any (fun x =>
    x.regions.any (fun d => d.producer == 1 && d.pindex == t.engine * 8 + t.channel)))

/-- A template and its binding (R52). A SLOT that is neither 0xFFFF nor a slot of the hyperperiod is refused as a number out
of range (DEDUCED, log 169). -/
def templateOk (m : Img0) (b : List Byte) : Bool :=
  let t := m.template b
  let sk := byteAt b 0x42
  let dk := byteAt b 0x44
  let idxOk (kind idx : Nat) : Bool :=
    decide (kind ≤ 3) && (kind != 2 || decide (idx < m.parts.length)) && (kind != 3 || (m.env.facet idx).isSome)
  !bitOf (fieldLe b 0 4) 31 && bitsOf (fieldLe b 0 4) 2 6 == 0 && fieldLe b 4 4 == 0 && fieldLe b 0x3C 4 == 0 &&
  allZero (b.drop 0x4A) && decide (t.engine ≤ 4) && decide (t.channel ≤ 7) &&
  !(t.engine == 4 && decide (6 ≤ t.channel)) && !m.condensesRegion t && idxOk sk (byteAt b 0x43) && idxOk dk (byteAt b 0x45) &&
  (t.next == 0xFFFF || decide (t.next < m.count 7)) && (t.slot == 0xFFFF || decide (t.slot < m.h)) &&
  (t.desc.srcKind != 0 || m.templateRange sk (byteAt b 0x43) t.desc.src t.desc.len) &&
  (t.desc.transform == 3 || t.desc.circ || m.templateRange dk (byteAt b 0x45) t.desc.dst t.desc.outBytes)

/-- The image as the device holds it. -/
def image (m : Img0) : Image where
  addr := m.addr
  len := m.bytes.length
  floor := m.floor
  holdover := m.holdover
  tps := m.n
  h := m.h
  mask := m.mask
  energy := (List.range 4).map m.energy
  holdEnergy := m.holdEnergy
  id := fieldLe m.bytes 0x40 4
  version := fieldLe m.bytes 0x44 4
  head := (m.bytes.drop 0x20).take 32
  digest := sha384 (m.bytes.take (m.bytes.length - sigLen))
  res := m.env.res
  slots := (m.elements 2).map slotEntryOf
  hold := (m.elements 11).map slotEntryOf
  ops := m.ops
  parts := m.parts
  traffic := m.traffic
  crop := m.crop
  focus := m.elements 12
  templates := (m.elements 7).map m.template
  objective := (m.sec 8).map (fun _ => objCfgOf (m.body 8))
  converter := (m.sec 9).map (fun _ => convCfgOf (m.body 9))

end Img0

/-- The checks of R57 in order: the status of the first that fails, 0 when all pass. -/
def State.admitImage (s : State) (m : Img0) : Nat :=
  if !s.imageRangeOk m.addr m.bytes.length || !m.headerOk || !m.tableOk || !m.configOk then 0x0200
  else if !s.imageSigned m then 0x0201
  else if !m.timingOk then 0x0202
  else if !m.opcodesOk then 0x0203
  else if !m.recordsOk then 0x0204
  else if !m.cyclesDeclared then 0x0205
  else if !m.cyclesFit then 0x0206
  else if !m.resourcesOk then 0x0207
  else if !s.partitionsOk m then 0x0208
  else if !m.energyOk then 0x0209
  else if !m.cropOk then 0x020A
  else if !(m.elements 7).all m.templateOk then 0x020B
  else 0

end Sys2Proof.Machine
end

