-- ==== Sys2Proof/Machine/Schedules.lean ====
section
/-! DEFINITION. Loading, starting and stopping schedules (02 R55 to R63, R217). -/

namespace Sys2Proof.Machine

/-- The foreground command that has completed leaves its place (12 R339). -/
def State.fgEnd (s : State) (a : Accepted) : State :=
  match s.host.fg with
  | some b => if b.desc.seq = a.desc.seq then s.updHost (fun h => { h with fg := none }) else s
  | none => s

/-- A command that completes later than its acceptance, in the foreground or the background. -/
def State.completeLater (s : State) (a : Accepted) (status : Nat) (result extra : List Byte) : State :=
  ((s.bgEnd a).fgEnd a).complete a status result extra

/-! ### LOAD_SCHEDULE -/

/-- A START of the staged image is pending, or another LOAD_SCHEDULE is being checked (R55). -/
def State.loadBusy (s : State) : Bool :=
  (s.bgOf 0x01).isSome || (match s.sched.start with | some p => p.staged | none => false)

/-- The bytes of a range read by whole pieces. -/
def State.readWhole (s : State) (a n : Nat) : List Byte × State :=
  let lo := a / 32 * 32
  let (bs, _, s) := s.readDev lo ((a + n + 31) / 32 * 32 - lo)
  ((bs.drop (a - lo)).take n, s)

/-- The bytes of a range that the control processor reads, under the control bucket (06 R166). -/
def State.readControl (s : State) (a n : Nat) : List Byte × State :=
  let r := s.readWhole a n
  (r.1, if inHbm a then r.2.takeControl n else r.2)

/-- A range lies whole in HBM or in host memory, where containers and images may lie (log 43). -/
def State.containerRange (a n : Nat) : Bool :=
  decide (a + n ≤ hbmSize) || (decide (hostBase ≤ a) && decide (a + n ≤ 0x1000000000000))

/-- What a refused image or container adds to its command's digest: its SHA-384, where it can be read (12 R353; log
60). -/
def State.containerDigest (s : State) (addr len : Nat) : List Byte × State :=
  if State.containerRange addr len then
    let r := s.readControl addr len
    (sha384 r.1, r.2)
  else ([], s)

/-- A command that names an image or a container completes with a status before its check, its digest journalled (12
R353). -/
def State.refuseContainer (s : State) (a : Accepted) (addr len status : Nat) : State :=
  let d := s.containerDigest addr len
  d.2.completeLater a status [] d.1

/-- The check of the image named by an accepted LOAD_SCHEDULE ends (R57). -/
def State.loadChecked (s : State) (a : Accepted) (addr len : Nat) : State :=
  if !s.imageRangeOk addr len then s.refuseContainer a addr len 0x0200
  else
    let (bs, s) := s.readControl addr len
    let m := img0Of addr bs
    let st := s.admitImage m
    let dig := sha384 bs
    if st = 0 then
      let im := m.image
      let s := s.updSched (fun x => { x with staged := some im })
      s.completeLater a 0 (leBytes 4 im.id ++ leBytes 4 im.version ++ dig.take 8) dig
    else s.completeLater a st [] dig

/-- LOAD_SCHEDULE_CHECKED (R57): the background check finishes. -/
def execLoadScheduleChecked (s : State) : Host.Outcome State Fault Refusal :=
  match s.bgOf 0x01 with
  | some a =>
    match a.desc.cmd with
    | .loadSchedule addr len => .next (s.loadChecked a addr.toNat len.toNat).noteIdle
    | _ => .next s
  | none => .next s

/-! ### START -/

/-- The image that START starts: the staged one, else the stopped active one (R60). -/
def State.startImage (s : State) : Option (Bool × Image) :=
  match s.sched.staged with
  | some im => some (true, im)
  | none => if s.sched.running then none else s.sched.active.map (fun im => (false, im))

/-- Preload templates, in template order (R61). -/
def Image.preloads (im : Image) : List Nat :=
  (List.range im.templates.length).filter (fun i => match im.templates[i]? with
    | some t => t.slot == 0xFFFF
    | none => false)

/-- The start tick is a multiple of this: H, and the running image's H (R60; log 32). -/
def State.startStep (s : State) (im : Image) : Nat :=
  match s.runningImage with
  | some r => Nat.lcm im.h r.h
  | none => im.h

/-- The first tick that T = 0 names, for a START accepted at tick `acc` (R60; log 32). -/
def State.firstStart (s : State) (im : Image) (acc : Nat) : Nat := roundUp (acc + 2) (s.startStep im)

/-- The status that refuses a START accepted at tick `acc`, 0 for none (R60). `busy`: a LOAD_SCHEDULE was being checked at
its acceptance, which R339 answers with SCHED_BUSY whatever else holds; the others stand in the order of the rule
(log 32). -/
def State.refuseStart (s : State) (busy : Bool) (acc t : Nat) : Nat :=
  if busy then 0x020C
  else match s.startImage with
    | none => 0x0210
    | some (_, im) =>
      if t != 0 && t % s.startStep im != 0 then 0x0212
      else if t != 0 && t < acc + 2 then 0x0211
      else if im.tps != s.tk.rate then 0x0213
      else if 1 ≤ s.pwr.shed && im.floor < 3 then 0x0214
      else if s.runningImage.isSome && !im.preloads.isEmpty then 0x0215
      else 0

/-- The start tick is fixed once every preload is complete: CMD_DONE is placed (R61). -/
def State.fixStart (s : State) : State :=
  match s.sched.start with
  | some p =>
    if p.fixed || !p.preloads.isEmpty || !p.running.isEmpty then s
    else
      let s := s.updSched (fun x => { x with start := some { p with fixed := true } })
      match p.acc with
      | some a => s.completeLater a (if p.deferred then 0x0217 else 0) (leBytes 8 p.t) []
      | none => s
  | none => s

/-- The image that a pending START starts. -/
def State.pendingImage (s : State) (p : StartPend) : Option Image := if p.staged then s.sched.staged else s.sched.active

/-- Preloads unfinished one tick before T move the start to the next multiple at which they may have (R61). -/
def State.deferStart (s : State) : State :=
  match s.sched.start with
  | some p =>
    match s.pendingImage p with
    | some im =>
      if !p.fixed && p.t ≤ s.tk.tick + 1 then
        s.updSched (fun x => { x with start := some { p with
          t := roundUp (s.tk.tick + 2) (s.startStep im), deferred := true } })
      else s
    | none => s
  | none => s

/-! ### STOP -/

/-- The tick at which a STOP takes effect (R62). -/
def State.stopTick (s : State) (boundary : Bool) : Nat :=
  match s.sched.active with
  | some im => if boundary && s.sched.running then roundUp (s.tk.tick + 1) im.h else s.tk.tick + 1
  | none => s.tk.tick + 1

/-- A pending START is cancelled; one whose tick was not fixed completes (R62; log 33). -/
def State.cancelStart (s : State) : State :=
  match s.sched.start with
  | some p =>
    let s := s.updSched (fun x => { x with start := none })
    match p.acc with
    | some a => if p.fixed then s else s.completeLater a 0x0011 [] []
    | none => s
  | none => s

/-- A START that is not refused, accepted at tick `acc` (R61): a START that is pending is replaced (DESIGN CHOICE, log
131), preloads run, and the start is pending. One that runs so late that its tick has come is deferred as for
preloads (DESIGN CHOICE, log 148). -/
def State.beginStart (s : State) (acc t : Nat) (by_ : Option Accepted) : State :=
  match s.startImage with
  | some (staged, im) =>
    let tick := if t = 0 then s.firstStart im acc else t
    (((s.cancelStart.updSched (fun x => { x with
      start := some ⟨tick, staged, im.preloads, [], false, false, by_⟩ })).armPreloads).deferStart).fixStart
  | none => s

/-- A STOP asked for, by a command or a global operation. -/
def State.beginStop (s : State) (boundary discard : Bool) : State :=
  let s := s.cancelStart
  if s.sched.active.isSome then s.updSched (fun x => { x with stop := some (boundary, discard) }) else s

end Sys2Proof.Machine
end

