-- ==== Sys2Proof/Machine/Availability.lean ====
section
/-! DEFINITION. Isolation and restart of regions (01 R17; 16 R453 to R457). -/

namespace Sys2Proof.Machine

/-- Memory of a range initialised: zero, valid, not poisoned (05 R150). -/
def State.clearRange (s : State) (a n : Nat) : State :=
  { s with
    mem := s.mem.filter (fun p => !(a ≤ p.1 && p.1 < a + n))
    poison := s.poison.filter (fun p => !(a / 32 ≤ p.1 && p.1 < (a + n) / 32))
    upsets := s.upsets.filter (fun p => !(a / 32 ≤ p.1 && p.1 < (a + n) / 32))
    wbQueue := s.wbQueue.filter (fun u => !(a / 32 ≤ u && u < (a + n) / 32)) }

/-- The region that holds an address, none where it belongs to no region that can be isolated (01 R16). -/
def placeRegion (a : Nat) : Option Nat :=
  match placeOf a with
  | .scratch f _ => some (f.val / 4)
  | .lineStore => some 4
  | .host => some 6
  | .beam _ => some 6
  | _ => none

/-- A descriptor has its source or its destination in a region (08 R219). -/
def DmaDesc.inRegion (d : DmaDesc) (r : Nat) : Bool :=
  (if d.srcKind = 1 then r == 5 else placeRegion d.src == some r) ||
  (if d.transform = 3 then false
   else if d.circ then match d.region with | some (f, _) => f.val / 4 == r | none => false
   else placeRegion d.dst == some r)

/-- The event source of a block of a region (12 R347; log 35). -/
def blockSource (r b : Nat) : Nat :=
  if r < 4 then
    if b < 4 then 0x0100 + 4 * r + b else if b = 4 then srcEngine r
    else if b < 7 then 0x0640 + r else 0x0100 + 4 * r
  else if r = 4 then srcImg
  else if r = 5 then (if b < 16 then srcConv b else srcWave)
  else if r = 6 then
    if b = 0 then 0x0409 else if b = 1 then 0x040A else if b < 4 then 0x0400 + (b - 2)
    else if b = 4 then 0x0440 else if b = 5 then srcBeam else if b = 6 then srcEngine 4
    else if b = 7 then srcAperture else srcHbm
  else if b = 3 then 0x0503 else if b = 1 then 0x0504 else srcHost

/-- What a region event reports: the record with its ACTION and the FAULT record (R453, R456, R457). -/
def State.regionReport (s : State) (r block status action cause : Nat) : State :=
  let s := s.errorRec status r block 0 2 action (leBytes 2 cause)
  s.fault status (blockSource r block) r block 0 (leBytes 2 cause)

/-! ### Isolation (01 R17; R453, R454) -/

/-- The READY bits of a region (R454; log 35). -/
def readyBits (r : Nat) : List Nat :=
  if r < 4 then [5 + r] else if r = 4 then [9] else if r = 5 then [10, 11] else [12, 13, 15, 16]

/-- Every descriptor of a region's engine, and every one that reads or writes the region, is aborted (08 R219). -/
def State.abortRegion (s : State) (r : Nat) : State :=
  (List.range 40).foldl (fun s n =>
    let e := fin5 (n / 8)
    let c := fin8 n
    let own := dmaRegion e == r
    if own || (s.chan e c).desc.inRegion r then s.askAbort e c own else s) s

/-- A Facet stops: the rest of its program, its unpublished pushes and its held records are gone, and its tick
is invalid. -/
def State.stopFacet (s : State) (f : Fin 16) : State :=
  s.updFacet f (fun x => { x with prog := [], emits := [], phase := .ended, invalid := true, flags := [] })

/-- What isolation does to the blocks of a region (R454). -/
def State.haltBlocks (s : State) (r : Nat) : State :=
  if r < 4 then (List.range 4).foldl (fun s i => s.stopFacet (fin16 (4 * r + i))) s
  else if r = 4 then s.sensorStandby []
  else if r = 5 then s.holdNow.updWav (fun w => { w with
    conv := w.conv.map (fun c => { c with pend := [], core := ⟨[], c.core.freeAt⟩ })
    spare := ⟨[], w.spare.freeAt⟩, pair := none, reqs := [], handover := none })
  else
    let s : State := { s with ap := { s.ap with sealed := true } }
    let s := (List.range 2).foldl (fun s p => if s.net.port[fin2 p].up then s.portDown (fin2 p) else s) s
    s.updHost (fun h => { h with pcieUp := false })

/-- A region is isolated for a cause, 0 for REGION_RESTART (R453). -/
def State.isolate (s : State) (r : Fin 7) (block cause : Nat) : State :=
  if s.err.isolated.getLsbD r.val then s
  else
    let s := s.abortRegion r.val
    let s := s.updErr (fun e => { e with isolated := e.isolated ||| BitVec.ofNat 7 (2 ^ r.val) })
    let s := (readyBits r.val).foldl (fun s b => s.setReady b false) (s.haltBlocks r.val)
    (s.syncGates srcPower).regionReport r.val block 0x0800 2 cause

/-- Automatic restarts of a region within the last 3,600 s (R455). -/
def State.autoCount (s : State) (r : Nat) : Nat :=
  (s.err.autoTimes.filter (fun p => p.2 == r && s.tk.now < p.1 + 3600000000000)).length

/-- REGION_ISOLATION (R453, R455): an error isolates its region; after three automatic restarts within the hour
it stays so until REGION_RESTART. Nothing reports an unassigned cause (12 R360), so with one there is no such event. -/
def execRegionIsolation (r : Fin 7) (block : Byte) (cause : Half) (s : State) :
    Host.Outcome State Fault Refusal :=
  if s.err.isolated.getLsbD r.val || !statusCodes.contains cause.toNat then .next s
  else
    let s := s.isolate r block.toNat cause.toNat
    .next (if 3 ≤ s.autoCount r.val then
      s.updErr (fun e => { e with manual := e.manual ||| BitVec.ofNat 7 (2 ^ r.val) }) else s)

/-! ### Restart (R455 to R457) -/

/-- A region is shed at a stage, so its restart is held (R457). -/
def shedRegion (stage r : Nat) : Bool :=
  3 ≤ stage || (decide (2 ≤ stage) && decide (1 ≤ r) && decide (r ≤ 4))

def regionBit (r : Nat) : BitVec 7 := BitVec.ofNat 7 (2 ^ r)

/-- The PLLs that serve one region alone. -/
def regionPlls (r : Nat) : List (Fin 9) := if r = 4 then [4] else if r = 5 then [5] else if r = 6 then [6, 7] else []

/-- The clocks of a restarting region are ungated and judged (R456 step 1); the FACET domain, which every Prism uses, has
been judged already. -/
def State.startClocks (s : State) (r : Nat) : State :=
  (s.updPwr (fun p => { p with
    pll := (regionPlls r).foldl (fun v (d : Fin 9) => if v[d] = .good then v.set d (.judging 0) else v) p.pll })).syncGates srcPower

/-- A restart begins, joins the one in progress, or is held while the region is shed (R455, R457). -/
def State.beginRestart (s : State) (r : Fin 7) : State :=
  if s.err.restarting.getLsbD r.val then s
  else
    let held := shedRegion s.pwr.shed r.val
    let s := (s.isolate r 0 0).updErr (fun e => { e with
      restarting := e.restarting ||| regionBit r.val
      manual := e.manual &&& ~~~(regionBit r.val)
      heldRestart := if held then e.heldRestart ||| regionBit r.val else e.heldRestart })
    if held then s else s.startClocks r.val

/-- Restarts held by shedding that may run at a stage begin. -/
def State.releaseRestarts (s : State) : State :=
  (List.range 7).foldl (fun s r =>
    if s.err.heldRestart.getLsbD r && !shedRegion s.pwr.shed r then
      (s.updErr (fun e => { e with heldRestart := e.heldRestart &&& ~~~(regionBit r) })).startClocks r
    else s) s

/-- The regions of a mask restarted (R455). -/
def State.restartMask (s : State) (mask : Nat) : State :=
  (List.range 7).foldl (fun s r => if bitOf mask r then s.beginRestart ⟨r % 7, Nat.mod_lt _ (by decide)⟩ else s) s

/-- A restart that a REGION_RESTART waits for has ended; the command completes with the last one (R455). -/
def State.restartEnded (s : State) (r : Nat) (ok : Bool) : State :=
  if !s.err.restartWait.getLsbD r then s
  else
    let s := s.updErr (fun e => { e with
      restartWait := e.restartWait &&& ~~~(regionBit r)
      restartDone := if ok then e.restartDone ||| regionBit r else e.restartDone })
    if s.err.restartWait ≠ 0 then s
    else match s.host.fg with
      | some a =>
        match a.desc.cmd with
        | .regionRestart mask =>
          s.completeLater a (if s.err.restartDone.toNat = mask.toNat then 0 else 0x0802)
            (leBytes 2 s.err.restartDone.toNat) []
        | _ => s
      | none => s

/-- A restart fails: the region stays isolated (R457). -/
def State.restartFails (s : State) (r : Fin 7) : State :=
  let s := s.updErr (fun e => { e with
    restarting := e.restarting &&& ~~~(regionBit r.val), manual := e.manual ||| regionBit r.val })
  ((s.syncGates srcPower).regionReport r.val 0 0x0802 4 0).restartEnded r.val false

/-- The circular regions that an image declares for a Facet (02 R48). -/
def Image.facetRegions (im : Image) (f : Nat) : Vector RegionSt 16 :=
  let ds := match im.res.find? (fun r => r.facet == f) with | some r => r.regions | none => []
  Vector.ofFn (fun (i : Fin 16) => match ds[i.val]? with
    | some d => if d.size = 0 then RegionSt.vacant else RegionSt.ofDecl d
    | none => RegionSt.vacant)

/-- Facets of a set take the regions of an image, set empty. -/
def State.loadRegions (s : State) (im : Image) (p : Nat → Bool) : State :=
  (List.range 16).foldl (fun s f =>
    if p f then
      (s.updFacet (fin16 f) (fun x => { x with regions := im.facetRegions f })).emptyRegions (fin16 f)
    else s) s

/-- A Facet's blocks reset; the figures of STATS are counters and stay (R461). -/
def Facet.cleared (x : Facet) : Facet :=
  { Facet.reset with
    validTicks := x.validTicks, invalidTicks := x.invalidTicks, suspendedTicks := x.suspendedTicks
    overruns := x.overruns, overrunSec := x.overrunSec, phase := .ended, invalid := x.invalid }

/-- A DMA engine reset: descriptors still draining end first. -/
def State.resetEngine (s : State) (e : Fin 5) : State :=
  let s := (List.range 8).foldl (fun s c => match (s.chan e (fin8 c)).phase with
    | .aborting h b => s.abortEnds e (fin8 c) h b
    | _ => s) s
  let s := s.updHbm (fun h => { h with waiting := h.waiting.filter (fun w => !w.user.ofEngine e.val) })
  { s with dma := s.dma.set e Engine.reset }

/-- Steps 1 to 3 of a restart: blocks reset, memories initialised, configuration loaded again from the active
image (R456; log 35). -/
def State.restartSteps (s : State) (r : Nat) : State :=
  if r < 4 then
    let s := s.resetEngine (fin5 r)
    let s := (s.setExp (fin4 r) []).setCnd (fin4 r) none
    let s := (List.range 4).foldl (fun s i =>
      let f := fin16 (4 * r + i)
      (s.updFacet f Facet.cleared).clearRange (unitAddr f 0) 0x800000) s
    match s.sched.active with
    | some im => s.loadRegions im (fun f => f / 4 == r)
    | none => s
  else if r = 4 then
    let s := s.clearRange lineBase 0x600000
    let c := s.sched.active.bind (·.objective)
    s.updImg (fun m => { m with
      cfg := if s.sched.running then c else none
      sets := [], now := (match c with | some o => Settings.ofCfg o | none => m.now), settling := true
      streams := m.streams.map (fun x => { StreamSt.reset with skipped := x.skipped }), trigs := []
      mode := if c.isSome && s.sched.running then .leaving s.tk.now else .standby, stopping := false })
  else if r = 5 then
    s.updWav (fun w => { w with
      refOn := true, refSince := s.tk.now, refFault := false, refReady := false
      conv := w.conv.map (fun c => { c with queue := [] })
      inputs := match w.cfg with
        | some c => Vector.ofFn (fun (i : Fin 64) =>
            ⟨(c.inp i.val).offset, (c.inp i.val).gain, [], true, none, []⟩)
        | none => w.inputs
      windows := Vector.replicate 8 none, oldWindows := [], openWire := none })
  else s.resetEngine 4

/-- Block numbers of a converter that fell due while its region was isolated, the open block among them, are
spent (R454). -/
def State.spendBlocks (s : State) (k : Fin 16) : Nat → State
  | 0 => s
  | n + 1 =>
    let c := s.wav.conv[k]
    if c.seq * 256 < c.idx then (s.dropBlock k c.seq).spendBlocks k n else s

/-- Step 4: the region rejoins with its READY bits (R456, R447). -/
def State.rejoinBlocks (s : State) (r : Nat) : State :=
  if r < 4 then
    let s := match s.sched.active with | some im => s.loadRegions im (fun f => f / 4 == r) | none => s
    s.setReady (5 + r) true
  else if r = 4 then s.setReady 9 true
  else if r = 5 then
    let s := (List.range 16).foldl (fun s k =>
      let c := s.wav.conv[fin16 k]
      s.spendBlocks (fin16 k) (c.idx / 256 + 1 - c.seq)) s
    if s.wav.refReady then (s.setReady 10 true).setReady 11 true else s
  else
    let s := s.beam.peers.foldl (fun s p => if p.up then s.peerLost p.index else s) s
    let s := s.updBeam (fun b => { b with
      rx := Vector.replicate 16 none, tx := Vector.replicate 16 none, remote := [] })
    { s with ap := { s.ap with sealed := false } }.setReady 16 true

/-- Steps 4 and 5: the region is in service again (R456). -/
def State.rejoin (s : State) (r : Fin 7) : State :=
  let s := s.rejoinBlocks r.val
  let s := s.updErr (fun e => { e with
    isolated := e.isolated &&& ~~~(regionBit r.val), restarting := e.restarting &&& ~~~(regionBit r.val)
    rejoin := e.rejoin &&& ~~~(regionBit r.val) })
  (s.regionReport r.val 0 0x0801 3 0).restartEnded r.val true

/-- A region whose steps are done may rejoin at the edge of a tick (R456, R457; log 35); Analog, while its converters run,
at a block boundary. -/
def State.rejoinNow (s : State) (r tick time : Nat) : Bool :=
  match s.runningImage with
  | none => true
  | some im =>
    if r < 4 then tick % im.h == 0
    else if r = 4 then match s.img.cfg with
      | some c => tick % c.frameTicks == 0 && s.frameReady c tick time
      | none => true
    else r != 5 || s.wav.cfg.isNone

/-- Analog rejoins when a block of a converter has just ended (R456): the trigger before has left its sample count at a
multiple of 256. -/
def State.rejoinBlock (s : State) (was : Nat) : State :=
  match s.wav.cfg with
  | some c =>
    if s.err.rejoin.getLsbD 5 && s.wav.trig != was && (List.range 16).any (fun k =>
        bitOf c.activeMask k && was % (c.ent k).div == 0 && (s.wav.conv[fin16 k]).idx % 256 == 0) then s.rejoin 5
    else s
  | none => s

/-- Regions that rejoin at the edge of a tick. -/
def State.rejoinAt (s : State) (tick time : Nat) : State :=
  (List.range 7).foldl (fun s r =>
    if s.err.rejoin.getLsbD r && s.rejoinNow r tick time then s.rejoin ⟨r % 7, Nat.mod_lt _ (by decide)⟩
    else s) s

end Sys2Proof.Machine
end

