-- ==== Sys2Proof/Machine/Counters.lean ====
section
/-! DEFINITION. Counter groups and their dump, snapshots, schedule figures (16 R461 to R465), reading the
journal (12 R359), and results written to a DST (12 R341). -/

namespace Sys2Proof.Machine

/-! ### Counter groups (R462; log 20) -/

/-- A group: source, the clock node of its block where one can stop, the region of its block, and the counter
keys in order. -/
structure CtrGroup where
  src : Nat
  node : Option Nat
  region : Option Nat
  keys : List Nat

/-- Counters `lo` to `lo + n - 1` of a group. -/
def ctrRange (src lo n : Nat) : List Nat := (List.range n).map (fun i => ctrKey src (lo + i))

/-- Counters of a DMA channel (08 R223): POLLS only on host channels; with channel 0 the engine's own (log 151). -/
def dmaKeys (e : Fin 5) (c : Fin 8) : List Nat :=
  let s := srcDma e c
  ctrRange s 0 5 ++ (if c.val = 0 then [ctrKey s eBucketWait, ctrKey s eBufferFull] else []) ++ ctrRange s 5 2 ++
  (if isHostChan e c then [ctrKey s dPolls] else []) ++ [ctrKey s dPoisoned] ++
  ctrRange s 24 dmaStatuses.length

/-- The counter groups, ascending by source; the history marks and the template status words follow 0x0530. -/
def ctrGroupsLow (peers : List Nat) : List CtrGroup :=
  (List.range 16).map (fun f => ⟨0x0100 + f, some (9 + f), some (f / 4), ctrRange (0x0100 + f) 0 80⟩) ++
  [⟨srcImg, some 28, some 4, ctrRange srcImg 0 26⟩] ++
  (List.range 64).map (fun i => ⟨srcInput i, some 30, some 5, [ctrKey (srcInput i) 0]⟩) ++
  (List.range 16).map (fun k => ⟨srcConv k, some 30, some 5, ctrRange (srcConv k) 0 10⟩) ++
  [⟨srcWave, some 30, some 5, ctrRange srcWave 0 18⟩] ++
  (List.range 2).map (fun p => ⟨0x0400 + p, some (33 + p), some 6, ctrRange (0x0400 + p) 0 13⟩) ++
  [⟨srcAperture, none, some 6, ctrRange srcAperture 0 5 ++ ctrRange srcAperture 8 5⟩] ++
  (List.range 32).map (fun t => ⟨0x0440 + t, some 32, some 6, ctrRange (0x0440 + t) 0 4⟩) ++
  [⟨srcTime, none, none, ctrRange srcTime 0 2⟩, ⟨srcHost, none, none, ctrRange srcHost 0 4⟩,
   ⟨0x0503, none, none, ctrRange 0x0503 0 5⟩, ⟨srcHbm, some 25, none, ctrRange srcHbm 0 120⟩] ++
  (List.range 8).map (fun k => ⟨0x0510 + k, none, none, ctrRange (0x0510 + k) 0 2⟩) ++
  [⟨srcBeam, some 32, some 6,
    (List.range 6).flatMap (fun i => peers.map (fun p => ctrKey srcBeam (bCtr p i)))⟩]

/-- The groups of the engines, after the two record groups. -/
def ctrGroupsHigh : List CtrGroup :=
  (List.range 40).map (fun n =>
    let e := fin5 (n / 8)
    ⟨0x0600 + n, none, some (dmaRegion e), dmaKeys e (fin8 n)⟩) ++
  (List.range 4).map (fun p => ⟨0x0640 + p, none, some p,
    ctrRange (0x0640 + p) 0 10 ++ ctrRange (0x0640 + p) 16 8⟩)

/-- A group as the dump shows it: source, flags, values. -/
def Shadow.group (sh : Shadow) (g : CtrGroup) : Nat × Nat × List Nat :=
  let stopped := match g.node with | some n => !sh.gates.getLsbD n | none => false
  let isolated := match g.region with | some r => sh.isolated.getLsbD r | none => false
  (g.src, (if stopped then 1 else 0) + (if isolated then 2 else 0),
    g.keys.map (fun k => sh.cnt.get k))

/-- Every group of a shadow. -/
def Shadow.groups (sh : Shadow) : List (Nat × Nat × List Nat) :=
  (ctrGroupsLow sh.peers).map sh.group ++ [(0x05F0, 0, sh.marks), (0x05F1, 0, sh.tmpl)] ++
  ctrGroupsHigh.map sh.group

/-- Directory entries, with the offset of each group's first value. -/
def dirBytes : Nat → List (Nat × Nat × List Nat) → List Byte
  | _, [] => []
  | off, (src, flags, vs) :: gs =>
    leBytes 2 src ++ leBytes 2 flags ++ leBytes 4 vs.length ++ leBytes 4 off ++ zeroBytes 4 ++
    dirBytes (off + 8 * vs.length) gs

/-- The counter dump of a shadow (R462). -/
def Shadow.dump (sh : Shadow) : List Byte :=
  let gs := sh.groups
  let vals := gs.flatMap (fun g => g.2.2)
  let first := 0x40 + 16 * gs.length
  leBytes 4 0x54434C50 ++ leBytes 2 0x0100 ++ leBytes 2 gs.length ++
  leBytes 4 (first + 8 * vals.length) ++ zeroBytes 4 ++ leBytes 8 sh.tick ++ leBytes 8 sh.time ++
  leBytes 4 sh.count ++ leBytes 1 sh.origin ++ zeroBytes 27 ++ dirBytes first gs ++
  vals.flatMap (leBytes 8)

/-! ### Snapshots (R461, R463, R464) -/

/-- The history marks as words (R462). -/
def State.markWords (s : State) : List Nat :=
  s.hbm.marks.toList.flatMap (fun m => [m.addr / 2 * 2 + (if m.stale then 1 else 0), m.time])

/-- The template status table of the active image as words (R462). -/
def State.tmplWords (s : State) : List Nat :=
  match s.sched.active with
  | none => []
  | some im => (List.range im.templates.length).flatMap (fun i =>
    match s.tmplStatus.find? (fun t => t.idx == i) with
    | some t => [t.status + t.residue * 2 ^ 32, t.time, t.seq]
    | none => [0, 0, 0])

/-- The counters as a snapshot copies them, those held elsewhere in the state among them. -/
def State.liveCounters (s : State) : NMap :=
  (((s.cnt.set (ctrKey srcHbm 97) s.hbm.poison.length).set (ctrKey srcHbm hLowDeficit)
    (33554432 - s.ctr srcHbm hLowDeficit)).set (ctrKey srcHbm 118) (toBits 64 (s.hbm.tempMax / 16))).set
    (ctrKey srcImg 25) (toBits 64 s.img.tempMax)

/-- Values "since the last snapshot" begin again (R461). -/
def State.restartExtremes (s : State) : State :=
  let s := s.setCtr srcHbm hLowDeficit (33554432 - s.hbm.bucket)
  let s := s.updHbm (fun h => { h with tempMax := h.temp })
  s.updImg (fun m => { m with tempMax := m.theta })

/-- A snapshot taken at the edge of its tick; origin 0 SNAP_CTL, 1 SNAPSHOT, 2 GLOBAL_OP. -/
def State.takeSnapshot (s : State) (origin : Nat) : State :=
  let n := s.err.snapCount + 1
  let sh : Shadow := ⟨s.tk.tick, s.tk.edge, n, origin, s.liveCounters, s.pwr.gates, s.err.isolated,
    s.beam.peers.map (·.index), s.markWords, s.tmplWords⟩
  let s := s.restartExtremes
  let s := s.updErr (fun e => { e with snap := none, shadow := some sh, snapCount := n })
  let s := s.updHost (fun h => { h with snapDone := true })
  s.event 0x0050 0x0505 0 (leBytes 8 sh.tick ++ leBytes 4 n ++ leBytes 1 origin)

/-- A snapshot is pending, whatever named it (R463). -/
def State.snapPending (s : State) : Bool :=
  s.err.snap.isSome || s.beam.ops.any (fun o => o.kind == 2 && (o.root || o.here))

/-- A snapshot armed for a tick: refused as less than two ticks after acceptance at tick `acc`, as passed already (log
148), or while another is pending (R463). -/
def State.armSnapshot (s : State) (acc tick origin : Nat) : Bool × State :=
  if tick < acc + 2 || tick ≤ s.tk.tick || s.snapPending then (false, s)
  else (true, s.updErr (fun e => { e with snap := some (tick, origin) }))

/-! ### Schedule figures (R465) -/

/-- What STATS writes about the active image. -/
def State.figures (s : State) (im : Image) : List Byte :=
  let facet (f : Fin 16) : List Byte :=
    if bitOf im.mask f.val then
      let x := s.facets[f]
      leBytes 8 x.validTicks ++ leBytes 8 x.invalidTicks ++ leBytes 8 x.suspendedTicks ++ leBytes 8 x.overruns
    else zeroBytes 32
  leBytes 4 0x54534C50 ++ leBytes 2 0x0100 ++ leBytes 2 im.focus.length ++
  leBytes 4 (0x280 + 16 * im.focus.length) ++ zeroBytes 4 ++ leBytes 8 s.tk.tick ++
  leBytes 8 s.sched.startTick ++ fitBytes 32 im.head ++ leBytes 4 im.id ++ leBytes 4 im.version ++
  leBytes 8 s.sched.validTicks ++ leBytes 8 s.sched.invalidTicks ++ leBytes 8 s.sched.suspendedTicks ++
  zeroBytes 32 ++ (List.range 16).flatMap (fun f => facet (fin16 f)) ++ im.focus.flatMap (fitBytes 16)

/-! ### Reading the journal (12 R359) -/

/-- One entry with its poisoned pieces, from the ring in Control SRAM (16 R458), else from the mirror under the control
bucket. -/
def State.journalEntry (s : State) (i : Nat) : List Byte × List Nat × State :=
  let a := if s.jnl.ringFrom ≤ i then journalBase + i % 16384 * 64 else s.mirrorSlot i
  let (b, bads, s) := s.readDev a 64
  (b, bads.map (· - a / 32), if inHbm a then s.takeControl 64 else s)

/-- Entries from an index on, with the poisoned pieces among them; `k` pieces come before. -/
def State.journalEntries (s : State) (i k : Nat) : Nat → List Byte × List Nat × State
  | 0 => ([], [], s)
  | n + 1 =>
    let (b, bads, s) := s.journalEntry i
    let (bs, rest, s) := s.journalEntries (i + 1) (k + 2) n
    (b ++ bs, bads.map (· + k) ++ rest, s)

/-! ### Results written to a DST (12 R341) -/

/-- The pieces at a destination that bytes from poisoned pieces reach. -/
def reachedBy (a : Nat) (bads : List Nat) : List Nat :=
  (bads.flatMap (fun b => [(a % 32 + 32 * b) / 32, (a % 32 + 32 * b + 31) / 32])).eraseDups

/-- Bytes written at any address by the control processor, what lies beside them kept, poisoned pieces as 08 R215 delivers
them; HBM is written under the control bucket (06 R166). -/
def State.writeControl (s : State) (a : Nat) (bs : List Byte) (bads : List Nat) : State :=
  if bads.isEmpty then
    let s := s.writeMerged a bs
    if inHbm a then (s.takeControl bs.length).markWrite a bs.length else s
  else if keepsPoison a then
    let w := s.writeMergedBad a bs (reachedBy a bads)
    let s := if inHbm a then (w.1.takeControl bs.length).markWrite a bs.length else w.1
    if w.2 then s.tickFault 0x0841 srcHbm 6 (16 + chanOf a) a else s
  else s.writeMerged a (zeroBad bads bs)

/-- A range that the control processor may write for a command: where the Edge engine may, but for Beam
windows (12 R341; log 34). -/
def State.dstOk (s : State) (a n : Nat) : Bool :=
  (match placeOf a with | .beam _ => false | _ => true) && s.canWrite 4 a n

/-- A result written to DST through the Aperture as status: 0, or the status of a blocked one (log 34). HBM that has come
under protection since the command was accepted takes no write (02 R56; 06 R160; log 152). -/
def State.writeResult (s : State) (a : Nat) (bs : List Byte) (bads : List Nat) : Nat × State :=
  if bs.isEmpty then (0, s)
  else if !s.dstOk a bs.length then (0x0010, s)
  else if placeOf a = .host then
    let ok := s.classPasses .status bs.length
    let s := s.judged .pcie ok
    if ok then (0, s.writeControl a bs bads) else (0x0103, s)
  else (0, s.writeControl a bs bads)

/-- BACKGROUND_RESULT_WRITTEN (12 R339): STATS, READ_COUNTERS or READ_JOURNAL writes its result and completes. -/
def execBackgroundResultWritten (opcode : Half) (s : State) : Host.Outcome State Fault Refusal :=
  match s.bgOf opcode.toNat with
  | none => .next s
  | some a =>
    let done (dst : Nat) (result : List Byte) : Host.Outcome State Fault Refusal :=
      let (st, s) := s.writeResult dst a.data a.bads
      .next (s.completeLater a st (if st = 0 then result else []) []).noteIdle
    match a.desc.cmd with
    | .stats dst _ => done dst.toNat (leBytes 4 a.data.length)
    | .readCounters dst _ => done dst.toNat (leBytes 4 a.data.length ++ zeroBytes 4 ++ leBytes 8 a.num)
    | .readJournal _ n dst => done dst.toNat (leBytes 4 n.toNat ++ zeroBytes 4 ++ leBytes 8 a.num)
    | _ => .next s

end Sys2Proof.Machine
end

