-- ==== Sys2Proof/Machine/Flags.lean ====
section
/-! DEFINITION. The Facet flag register (03 R98): flags are set with SETF at a record's last cycle,
seen 14 cycles later by any Facet of the Prism, and cleared at each tick edge. -/

namespace Sys2Proof.Machine

/-- Latency from SETF to CHECK_FLAG in FACET cycles (03 R98). -/
def flagLatency : Nat := 14

/-- Flag `n` of a Facet is visible at a cycle after the edge (03 R98). -/
def Facet.flagVisible (g : Facet) (n cycle : Nat) : Bool :=
  g.flags.any (fun p => p.1 == n && p.2 + flagLatency ≤ cycle)

end Sys2Proof.Machine
end

