-- ==== Sys2Proof/Machine/FacetControl.lean ====
section
/-! DEFINITION. The control macro-ops PUSH, POP, EMIT, CHECK_FLAG and WAIT_TICK (03 R96 to R98; 05 R144,
R146). END stands in FacetEnd.lean. -/

namespace Sys2Proof.Machine

def ctlCyc (r : Rec) (_ : Bool) : Nat := controlCycles r

/-- A Facet's tick made invalid (01 R14). -/
def State.invalidate (s : State) (f : Fin 16) : State :=
  s.updFacet f (fun x => { x with invalid := true })

/-- An OVERRUN of a Facet producer (05 R146), counted with the region in its owner's group (DESIGN CHOICE, log 153). -/
def State.producerOverrun (s : State) (f g r : Fin 16) : State :=
  (((s.updRegion g r (fun y => { y with overran := true })).count (srcFacet g) (cOver r.val)
    1).facetError f 0x0252 0).invalidate f

/-- PUSH: LOCAL_HEAD of the named region advances (05 R146). -/
def pushBody (x : Ctx) (r : Rec) (w : Run) : Run :=
  let pb := r.p 0x15 1
  let g := if bitOf pb 7 then fin16 (x.f.val / 4 * 4 + pb % 4) else x.f
  let k := fin16 (r.p 0x14 1)
  let u := r.p 0x18 4
  let rg := w.s.facets[g].regions[k]
  if rg.size < rg.level + rg.localPush + u then { w with s := w.s.producerOverrun x.f g k }
  else { w with s := w.s.updRegion g k (fun y => { y with localPush := y.localPush + u }) }

/-- POP: TAIL advances, or moves to HEAD with a DEBT (05 R144); the space freed is granted to a Beam producer
(11 R313). -/
def popBody (x : Ctx) (r : Rec) (w : Run) : Run :=
  let k := fin16 (r.p 0x14 1)
  let u := r.p 0x18 4
  let rg := w.s.facets[x.f].regions[k]
  let s := (w.s.updRegion x.f k (fun y => y.pop u)).regrantRegion x.f k
  if rg.level < u then
    { w with s := ((s.count (srcFacet x.f) (cUnder k.val) 1).facetError x.f 0x0251 0).invalidate x.f }
  else { w with s := s }

/-- The unit addresses (address / 32) of a buffer of `n` units from unit `i` of its operand on. Through a circular
region the Facet reads as its consumer: past the head it meets UNDERRUN, in a span poison (05 R143). -/
def Run.bufferUnits (w : Run) (x : Ctx) (ref : Ref) : Nat → Nat → List (Nat × Bool) × Run
  | 0, _ => ([], w)
  | n + 1, i =>
    if ref.circ then
      let k := fin16 ref.region
      let g := w.s.facets[x.f].regions[k]
      let o := (ref.unit + i) % g.size
      let past : Bool := g.level ≤ o
      let bad := past || g.inSpan o
      let w := { w with
        bad := w.bad || bad
        under := if past && !w.under.contains k then w.under ++ [k] else w.under }
      let (us, w) := w.bufferUnits x ref n (i + 1)
      ((unitAddr x.f (g.base + (g.tail + o) % g.size) / 32, bad) :: us, w)
    else
      let (us, w) := w.bufferUnits x ref n (i + 1)
      ((unitAddr (ref.facet x.f) (ref.unit + i) / 32, false) :: us, w)

/-- EMIT: one event record placed, to be released at END (03 R97; log 112 for a buffer in a circular region). -/
def emitBody (x : Ctx) (r : Rec) (w : Run) : Run :=
  let (pl, w) := w.read x (.ofWord r.op0) 0 1
  let cap := r.p 0x18 4
  let len := if r.op1 = 0 then 0
    else if r.flagBit 4 then min (fieldLe pl 0x1C 4) cap else cap
  let (us, w) := w.bufferUnits x (.ofWord r.op1) (unitsOf len) 0
  let w := w.settleReads x
  let e : EmitRec := ⟨r.p 0x14 2, r.p 0x16 1, r.p 0x17 1, pl, us, len, w.s.tk.tick, w.s.tk.edge⟩
  { w with s := w.s.updFacet x.f (fun g => { g with emits := g.emits ++ [e] }) }

/-- CHECK_FLAG: a clear flag is counted and makes the tick invalid; nothing waits (03 R98). Of its
two cycles the flag is sampled in the first (DESIGN CHOICE, log 136). -/
def checkFlagBody (x : Ctx) (r : Rec) (w : Run) : Run :=
  let g := fin16 (x.f.val / 4 * 4 + r.p 0x14 1 % 4)
  if (w.s.facets[g]).flagVisible (r.p 0x15 1) w.s.facets[x.f].cycle then w
  else
    let s := (w.s.count (srcFacet x.f) cFlagUnset 1).errorRec 0x0230 (x.f.val / 4) (x.f.val % 4) 0 1 1 []
    { w with s := (s.fault 0x0230 (srcFacet x.f) (x.f.val / 4) (x.f.val % 4) 0 []).invalidate x.f }

/-- PUSH (03 R96, 05 R146). -/
def execPush (f : Fin 16) (ms : List Meet) (s : State) : Host.Outcome State Fault Refusal :=
  .next (s.runRecord f opPush ms false ctlCyc pushBody)

/-- POP (03 R96, 05 R144). -/
def execPop (f : Fin 16) (ms : List Meet) (s : State) : Host.Outcome State Fault Refusal :=
  .next (s.runRecord f opPop ms false ctlCyc popBody)

/-- EMIT (03 R96, R97). -/
def execEmit (f : Fin 16) (ms : List Meet) (s : State) : Host.Outcome State Fault Refusal :=
  .next (s.runRecord f opEmit ms false ctlCyc emitBody)

/-- CHECK_FLAG (03 R96, R98). -/
def execCheckFlag (f : Fin 16) (ms : List Meet) (s : State) : Host.Outcome State Fault Refusal :=
  .next (s.runRecord f opCheckFlag ms false ctlCyc checkFlagBody)

/-- WAIT_TICK (03 R96): the Facet begins to wait. -/
def execWaitTick (f : Fin 16) (s : State) : Host.Outcome State Fault Refusal :=
  match s.headRec f opWaitTick with
  | none => .next s
  | some r => .next (s.updFacet f (fun x => { x with phase := .waiting, waitTarget := r.p 0x18 4 }))

/-- The end of a wait (03 R96): the later of its start + 1 and TARGET. -/
def execWaitTickExpiry (f : Fin 16) (s : State) : Host.Outcome State Fault Refusal :=
  match s.facets[f].phase, s.facets[f].prog with
  | .waiting, r :: _ =>
    let c := s.facets[f].cycle
    let t := max (c + 1) s.facets[f].waitTarget
    .next ((s.updFacet f (fun x => { x with phase := .running })).endRecord f r (t - c) false)
  | _, _ => .next s

end Sys2Proof.Machine
end

