-- ==== Sys2Proof/Machine/FacetEnd.lean ====
section
/-! DEFINITION. END (03 R96): pushes published (02 R40) and EMIT records released (02 R41; 03 R97; 12 R346, R348). -/

namespace Sys2Proof.Machine

/-! ### Buffers (12 R346) -/

/-- The bytes of a buffer as its units stand when it is transferred (03 R97), with the indices of those that are
poisoned or that EMIT found so. -/
def State.readUnits (s : State) : List (Nat × Bool) → Nat → List Byte × List Nat × State
  | [], _ => ([], [], s)
  | (u, bad) :: us, i =>
    let (b, bads, s) := s.readDev (u * 32) 32
    let (bs, rest, s) := s.readUnits us (i + 1)
    (b ++ bs, if bad || !bads.isEmpty then i :: rest else rest, s)

/-- A buffer as it leaves: poisoned 64-byte units are zero, and its record is then INVALID (01 R14, 08 R215). -/
def State.readBuffer (s : State) (e : EmitRec) : List Byte × Bool × State :=
  let (bs, bads, s) := s.readUnits e.bufUnits 0
  (fitBytes e.bufLen (zeroBad bads bs), !bads.isEmpty, s)

/-- Bytes that a buffer takes in the data ring: its rounded length, with the end of the ring skipped when it does not
fit there. -/
def HostCtl.dataNeed (h : HostCtl) (len : Nat) : Nat :=
  let n := (len + 63) / 64 * 64
  if h.dataPos + n ≤ h.dataSize then n else h.dataSize - h.dataPos + n

/-- A buffer finds room in the data ring. -/
def HostCtl.dataFits (h : HostCtl) (len : Nat) : Bool :=
  decide ((len + 63) / 64 * 64 ≤ h.dataSize) &&
  decide ((h.dataUsed.map (·.2)).foldl (· + ·) 0 + h.dataNeed len ≤ h.dataSize)

/-- The path of a released record to the host. -/
def State.hostPath (s : State) : EgressPath := if s.host.owner = .localbus then .localBus else .pcie

/-- The Aperture judges a buffer by its record's type and by the class of the regions its units stand in (01 R27,
R28; 02 R50; log 19); a crop that passes counts to its frame. -/
def State.judgeBuffer (s : State) (p : EgressPath) (e : EmitRec) : Bool × State :=
  let ok := s.recordPasses e.type e.payload e.bufLen &&
    e.bufUnits.all (fun u => s.bufferPasses e.type (s.dataClass (u.1 * 32) 32) e.bufLen)
  let s := s.judged p ok
  (ok, if ok && e.type == 0x0012 then s.countCrop e.payload else s)

/-- A buffer written into the data ring, its space held until EVT_GET passes the record (R346). The flag says that
part of it was poisoned. -/
def State.putBuffer (s : State) (e : EmitRec) : Bool × State :=
  let (bs, bad, s) := s.readBuffer e
  let h := s.host
  let n := (e.bufLen + 63) / 64 * 64
  let at_ := if h.dataPos + n ≤ h.dataSize then h.dataPos else 0
  let need := h.dataNeed e.bufLen
  (bad, (s.ringWrite (h.dataBase + at_) bs).updHost (fun h => { h with
    dataPos := (at_ + n) % h.dataSize, dataUsed := h.dataUsed ++ [(none, need)] }))

/-- A buffer can be delivered (R346): PCIe owns, EVENT_DATA is enabled, the way out is open, the buffer fits, and its
record finds a slot or a place in the holding queue (R345). -/
def State.bufferWay (s : State) (e : EmitRec) : Bool :=
  s.host.owner == .pcie && s.host.dataSize != 0 && !s.ap.sealed && s.host.dataFits e.bufLen &&
  (decide (s.host.held.length < 4096) || (s.host.held.isEmpty && s.evtRoom))

/-! ### Release (02 R41) -/

/-- The record of an EMIT, with its flags and extra length. -/
def EmitRec.record (e : EmitRec) (f : Fin 16) (seq flags extra : Nat) : EventRec :=
  ⟨e.type, srcFacet f, seq, e.time, e.tick, flags, extra, e.payload⟩

/-- The record goes to the host's ring. A TEXT record of too many tokens is blocked whole (12 R348). -/
def State.emitHost (s : State) (f : Fin 16) (seq inv : Nat) (e : EmitRec) : State :=
  if e.type != 0x0012 && !s.recordPasses e.type e.payload e.bufLen then s.judged s.hostPath false
  else if e.bufLen = 0 then
    (if e.type = 0x0012 then (s.judgeBuffer s.hostPath e).2 else s).placeRec (e.record f seq inv 0)
  else if s.bufferWay e then
    let (pass, s) := s.judgeBuffer s.hostPath e
    if pass then
      let (bad, s) := s.putBuffer e
      s.placeRec (e.record f seq ((if bad then 1 else inv) + 8) e.bufLen)
    else s.placeRec (e.record f seq (inv + 16) 0)
  else s.placeRec (e.record f seq (inv + 16) 0)

/-- DATA frames of one message: at most 8,192 bytes each, FIRST on the first and LAST on the last (11 R311). -/
def State.emitFrames (s : State) (w : Fin 16) (off len : Nat) : Nat → Nat → List Byte → State
  | 0, _, _ => s
  | n + 1, frag, bs =>
    let pl := bs.take 8192
    let flags := (if frag = 0 then 1 else 0) + (if bs.length ≤ 8192 then 2 else 0)
    (s.beamData w flags (if frag = 0 then creditUnits len else 0) off len frag pl 41).emitFrames w off len n (frag + pl.length) (bs.drop 8192)

/-- The record and its buffer go through send window TARGET as one message; where in the receiver's window is not
stated (01 R27, R28; 11 R311). -/
def State.emitBeam (s : State) (f : Fin 16) (seq : Nat) (e : EmitRec) : State :=
  let w := fin16 e.target
  match s.beam.tx[w] with
  | none => s
  | some t =>
    if !t.usable then s
    else
      let (ok, s) := s.judgeBuffer .beam e
      if !ok then s
      else
        let (buf, bad, s) := s.readBuffer e
        let n := (e.bufLen + 63) / 64 * 64
        let bs := (e.record f seq (if bad then 1 else 0) e.bufLen).bytes ++ fitBytes n buf
        let off := s.free.toNat % 2 ^ 32
        (s.drawn 1).emitFrames w off bs.length (bs.length / 8192 + 1) 0 bs

/-- What a record of a valid tick starts in the device: a burst (09 R251), an urgent conversion (10 R272). -/
def State.emitActs (s : State) (f : Fin 16) (e : EmitRec) : State :=
  if e.type = 0x0022 then
    s.updImg (fun m => { m with trigs := m.trigs ++
      [⟨1, f.val, s.tk.now, fieldLe e.payload 0 2, fieldLe e.payload 2 2, fieldLe e.payload 4 2⟩] })
  else if e.type = 0x0084 ∧ byteAt e.payload 0 < 64 then
    s.updWav (fun w => { w with reqs := w.reqs ++ [⟨byteAt e.payload 0, 1, f.val, s.tk.now, 0, 0, false, 0⟩] })
  else s

/-- The template named by TARGET fires when it takes EMIT records (11 R306 SOURCES bit 2). -/
def State.emitTemplate (s : State) (e : EmitRec) : State :=
  match s.net.tmpl[fin32 e.target] with
  | some t => if bitOf t.sources 2 then s.fireTemplate (fin32 e.target) ⟨e.time, e.tick, e.payload⟩ else s
  | none => s

/-- One held record released. One of an invalid tick goes to the host only. -/
def State.releaseEmit (s : State) (f : Fin 16) (inv : Bool) (e : EmitRec) : State :=
  let (q, s) := s.nextSeq (srcFacet f)
  if inv then s.emitHost f q 1 e
  else
    let s := if bitOf e.route 0 then s.emitHost f q 0 e else s
    let s := s.emitActs f e
    let s := if bitOf e.route 1 then s.emitTemplate e else s
    if bitOf e.route 2 then s.emitBeam f q e else s

/-- The held records of a Facet released in the order they were emitted. -/
def State.releaseEmits (s : State) (f : Fin 16) : State :=
  let es := s.facets[f].emits
  let inv := s.facets[f].invalid
  es.foldl (fun s e => s.releaseEmit f inv e) (s.updFacet f (fun x => { x with emits := [] }))

/-- END (03 R96). -/
def execEnd (f : Fin 16) (s : State) : Host.Outcome State Fault Refusal :=
  match s.headRec f opEnd with
  | none => .next s
  | some r =>
    let s := ((s.endRecord f r 1 false).publishAll f).releaseEmits f
    .next (s.updFacet f (fun x => { x with phase := .ended }))

end Sys2Proof.Machine
end

