-- ==== Sys2Proof/Machine/Global.lean ====
section
/-! DEFINITION. Global operations (11 R315, R316): what GLOBAL_OP accepts, the CONTROL frames of the tree, and
the execution of a time-named operation at its edge. -/

namespace Sys2Proof.Machine

/-- The timing depth ⌈log₄ N⌉ of the tree. -/
def treeDepth (n : Nat) : Nat :=
  if n ≤ 1 then 0 else if n ≤ 4 then 1 else if n ≤ 16 then 2 else if n ≤ 64 then 3 else 4

/-- The READY bits that START needs (12 R338). -/
def State.startReady (s : State) : Bool :=
  match s.startImage with
  | none => s.isReady 4
  | some (_, im) =>
    let shed (r : Nat) : Bool := decide (1 ≤ s.pwr.shed) && decide (s.pwr.shed ≤ 2) && shedRegion s.pwr.shed r
    s.isReady 4 &&
    (List.range 4).all (fun p =>
      (List.range 4).all (fun i => !bitOf im.mask (4 * p + i)) || s.isReady (5 + p) || shed p) &&
    (im.objective.isNone || s.isReady 9 || shed 4) && (im.converter.isNone || s.isReady 11)

/-- The region mask of RESTART. -/
def maskOk (m : Nat) : Bool := m != 0 && decide (m < 128)

/-- The clock is LOCKED or HOLDOVER. -/
def State.synced (s : State) : Bool := s.net.ptp.state.lock

/-- A time-named operation would not be refused on this device (R316). -/
def State.localOk (s : State) (kind tick arg : Nat) : Bool :=
  s.synced && decide (s.lifecycle != 4) && decide (s.pwr.shed < 3) && s.isReady 2 &&
  (if kind = 2 then s.err.snap.isNone
   else if kind = 3 then s.startReady && s.refuseStart (s.bgOf 0x01).isSome s.tk.tick tick == 0
   else if kind = 4 then decide (arg < 4) && (s.sched.active.isSome || s.sched.start.isSome)
   else maskOk arg)

/-- A device arms when the edge is far enough ahead (R316). -/
def State.mayArm (s : State) (kind tick arg : Nat) : Bool :=
  decide (s.tk.now + 100000 ≤ s.tickTime tick) && decide (s.tk.tick < tick) &&
  (kind != 3 || decide (s.tk.tick + 2 ≤ tick)) && s.localOk kind tick arg

/-- The announcement of a time-named operation at this device: on to the children, devices behind a lost child
answered for, and this device armed or late. A START begins its preloads when it arms (02 R61). -/
def State.announceHere (s : State) (kind opId tick arg : Nat) (root : Bool) : State :=
  let arms := s.mayArm kind tick arg
  let up (k : Nat) : Bool := match s.beam.peer k with | some p => p.up | none => false
  let s := s.beam.kids.foldl (fun s k =>
    if up k then s.beamControl k (.announce kind opId tick arg) else s) s
  let lost := (s.beam.kids.filter (fun k => !up k)).foldl (fun m k => Nat.lor m (subtree s.beam.n 4 k)) 0
  let me := 2 ^ s.beam.index
  let s := if arms && kind == 3 then s.beginStart s.tk.tick tick none else s
  let op : GlobalOp := ⟨kind, opId, tick, arg, root, arms, [], Nat.lor lost me, if arms then me else 0, false, 0, 0, 0⟩
  (s.putOp op).answerCheck op

/-- A BROADCAST's message read from memory, poisoned units as zeros (08 R215); from HBM it is charged to the bucket as the
Beam engine's other traffic is (06 R165). -/
def State.readMessage (s : State) (a n : Nat) : List Byte × State :=
  let (bs, bads, s) := s.readDev a n
  (zeroBad (bads.map (· - a / 32)) bs, if inHbm a then (s.takeBucket n).countPages hRead a n else s)

/-- The parts of a message of at most 8,192 bytes sent down to every child (R311, R315). -/
def State.broadcastFrames (s : State) (len off : Nat) : Nat → List Byte → State
  | 0, _ => s
  | n + 1, bs =>
    let pl := bs.take 8192
    let last := off + pl.length == len
    let flags := (if off = 0 then 1 else 0) + (if last then 2 else 0)
    let s := s.beam.kids.foldl (fun s k => match s.txTo k with
      | some w => s.beamData w flags (if off = 0 then creditUnits len else 0) 0 len off pl bcastChan
      | none => s) s
    if last then s else s.broadcastFrames len (off + pl.length) n (bs.drop 8192)

/-- Every child has a usable send window that takes a message (R312, R313): 0, or the status. -/
def State.kidsCredit (s : State) (len : Nat) : Nat :=
  s.beam.kids.foldl (fun st k =>
    if st != 0 then st
    else match s.txTo k with
      | none => 0x0523
      | some w => match s.beam.tx[w] with
        | some t => if t.size < len then 0x0523 else if t.granted < t.used + creditUnits len then 0x0520 else 0
        | none => 0x0523) 0

/-- A GLOBAL_OP command is refused with a status, 0 for none (R315, R316; log 27 for the order). -/
def State.refuseGlobal (s : State) (kind opId tick arg window src len : Nat) : Nat :=
  let root := s.beam.index == 0
  if 5 < kind then 0x0010
  else if s.beam.n = 0 then 0x0524
  else if 2 ≤ kind && !root then 0x0530
  else if !s.synced then 0x0533
  else if s.beam.ops.any (fun o => o.kind == kind && (decide (2 ≤ kind) || o.deadline != 0)) ||
      (kind == 2 && s.err.snap.isSome) then 0x0534
  else if 2 ≤ kind then
    if (kind == 4 && decide (4 ≤ arg)) || (kind == 5 && !maskOk arg) then 0x0010
    else if s.tickTime tick < s.tk.now + treeDepth s.beam.n * s.beam.hopUs * 1000 + 110000 then 0x0531
    else 0
  else if kind = 1 then
    if root then
      if len = 0 || len % 64 != 0 || src % 32 != 0 || !s.canRead 4 src len then 0x0010 else s.kidsCredit len
    else if 15 < window then 0x0010
    else match s.beam.rx[fin16 window] with
      | some w => if w.peer = treeParent s.beam.index then 0 else 0x0523
      | none => 0x0523
  else if s.beam.ops.any (fun o => o.kind == 0 && o.opId != opId && o.here) then 0x0534
  else 0

/-- An accepted GLOBAL_OP (R315, R316): a BARRIER or BROADCAST runs in the background, a time-named kind
completes at once and its GLOBAL_DONE follows. -/
def State.beginGlobal (s : State) (a : Accepted) : State :=
  match a.desc.cmd with
  | .globalOp kind window opId tick arg timeout src len =>
    let kind := kind.toNat
    let st := s.refuseGlobal kind opId.toNat tick.toNat arg.toNat window.toNat src.toNat len.toNat
    if st ≠ 0 then s.completeLater a st [] []
    else
      let deadline := s.tk.now + timeout.toNat * 1000000 + 1
      let root := s.beam.index == 0
      if kind = 0 then
        let kids := match s.beam.op 0 opId.toNat with | some o => o.kids | none => []
        let op : GlobalOp := ⟨0, opId.toNat, 0, 0, root, true, kids, 0, 0, false, deadline, 0, 0⟩
        (s.putOp op).barrierCheck opId.toNat
      else if kind = 1 then
        let op : GlobalOp := ⟨1, opId.toNat, 0, 0, root, root, [], 0, 0, false, deadline, window.toNat, len.toNat⟩
        if root then
          let (ok, s) := s.judgeTransfer .beam src.toNat len.toNat len.toNat
          if !ok then s.completeLater a 0x0103 [] []
          else
            let (bs, s) := s.readMessage src.toNat len.toNat
            ((s.putOp op).broadcastFrames len.toNat 0 (len.toNat / 8192 + 1) bs).broadcastCheck
        else s.putOp op
      else
        let s := s.completeLater a 0 [] []
        s.announceHere kind opId.toNat tick.toNat arg.toNat true
  | _ => s

/-! ### CONTROL frames (R312, R315, R316) -/

/-- What a CONTROL frame from a peer does. -/
def State.takeControlFrame (s : State) (from_ : Nat) (m : BeamCtl) : State :=
  match m with
  | .windowOpen w size =>
    let s := s.updBeam (fun b => { b with
      remote := b.remote.filter (fun r => !(r.1 == from_ && r.2.1 == w)) ++ [(from_, w, size)] })
    (List.range 16).foldl (fun s i => match s.beam.tx[fin16 i] with
      | some t =>
        if t.peer = from_ ∧ t.window = w then
          s.setTx (fin16 i) (some { t with usable := true, size := size, used := 0, granted := 0 })
        else s
      | none => s) s
  | .windowClose w true =>
    let s := s.updBeam (fun b => { b with remote := b.remote.filter (fun r => !(r.1 == from_ && r.2.1 == w)) })
    let s := (List.range 16).foldl (fun s i => match s.beam.tx[fin16 i] with
      | some t =>
        if t.peer = from_ ∧ t.window = w then s.setTx (fin16 i) (some { t with usable := false }) else s
      | none => s) s
    s.beamStop (fun _ d => d.sendsTo from_ (some w)) 0x0520
  | .windowClose w false =>
    match s.beam.rx[fin16 w] with
    | some x => if x.peer = from_ then s.dropRx (fin16 w) else s
    | none => s
  | .arrive opId =>
    if s.beam.kids.contains from_ then
      let op : GlobalOp := match s.beam.op 0 opId with
        | some o => { o with kids := from_ :: o.kids }
        | none => ⟨0, opId, 0, 0, s.beam.index == 0, false, [from_], 0, 0, false, 0, 0, 0⟩
      (s.putOp op).barrierCheck opId
    else s
  | .release opId =>
    match s.beam.op 0 opId with
    | some op =>
      if from_ = treeParent s.beam.index && s.beam.index != 0 then
        (s.beam.kids.foldl (fun s k => s.beamControl k (.release opId)) s).finishOp op 0
      else s
    | none => s
  | .announce kind opId tick arg =>
    if s.beam.index != 0 && from_ == treeParent s.beam.index && decide (2 ≤ kind) && decide (kind ≤ 5) then
      s.announceHere kind opId tick arg false
    else s
  | .answer kind opId answered armed =>
    match s.beam.ops.find? (fun o => o.opId == opId && o.kind == kind && decide (2 ≤ o.kind)) with
    | some op =>
      if s.beam.kids.contains from_ then
        s.answerCheck { op with answered := Nat.lor op.answered answered, armed := Nat.lor op.armed armed }
      else s
    | none => s

/-- BEAM_CONTROL (R311, R312, R314 to R316). -/
def execBeamControl (port : Fin 2) (eth : Eth) (hdr : List Byte) (m : BeamCtl) (s : State) :
    Host.Outcome State Fault Refusal :=
  .next (s.beamFrame port eth 3 hdr (fun h s =>
    let (take, s) := s.inSequence h
    if take then (s.takeControlFrame h.src m).beamPlain h.src 1 0 h.window 0 else s))

/-! ### Execution at the edge (R316; 12 R357) -/

/-- The local outcome of a time-named operation that executes at the edge in hand. -/
def State.runGlobal (s : State) (op : GlobalOp) : Nat × State :=
  if op.kind = 2 then (0, s.takeSnapshot 2)
  else if op.kind = 3 then
    match s.sched.start with
    | some p => (if p.acc.isNone && p.t == op.tick then 0 else 0x0217, s)
    | none => (0x0011, s)
  else if op.kind = 4 then
    if s.sched.active.isSome || s.sched.start.isSome then (0, s.beginStop (bitOf op.arg 0) (bitOf op.arg 1))
    else (0x0011, s)
  else (0, s.restartMask op.arg)

/-- An armed operation executes: its journal entry with PATH 3 and its own GLOBAL_DONE (R316). -/
def State.executeGlobal (s : State) (op : GlobalOp) : State :=
  let s := if op.reported then s.dropOp op else s.putOp { op with here := false }
  let (st, s) := s.runGlobal op
  let s := s.journal 0 0xFF07 st 3 (leBytes 1 op.kind ++ zeroBytes 3 ++ leBytes 4 op.opId ++ leBytes 8 op.tick)
  s.globalDone op.opId st (if op.root then op.armed else 0)

/-- The time-named operations of a tick. -/
def State.globalAt (s : State) (tick : Nat) : State :=
  s.beam.ops.foldl (fun s op =>
    if 2 ≤ op.kind && op.here && op.tick ≤ tick then s.executeGlobal op else s) s

end Sys2Proof.Machine
end

