-- ==== Sys2Proof/Machine/HostDesc.lean ====
section
/-! DEFINITION. Command descriptors as bytes (12 R334, R341, R342): their layout both ways, the reserved bits,
and the opcodes that the lifecycle states permit (14 R405). -/

namespace Sys2Proof.Machine

/-- The 56 ARGS bytes of a command (R341). -/
def argBytes : Cmd → List Byte
  | .loadSchedule a n => leBytes 8 a.toNat ++ leBytes 8 n.toNat
  | .start t => leBytes 8 t.toNat
  | .stop => []
  | .stats d n => leBytes 8 d.toNat ++ leBytes 4 n.toNat
  | .setParams s n inl => leBytes 2 s.toNat ++ leBytes 2 n.toNat ++ zeroBytes 4 ++ fitBytes 48 inl
  | .setSensor set => fitBytes 32 set
  | .openWindow d w p k f r base size => [d, w, p, k, f, r, 0, 0] ++ leBytes 8 base.toNat ++ leBytes 8 size.toNat
  | .closeWindow d w => [d, w]
  | .globalOp k w o t arg tmo src n => [k, w, 0, 0] ++ leBytes 4 o.toNat ++ leBytes 8 t.toNat ++
      leBytes 4 arg.toNat ++ leBytes 4 tmo.toNat ++ leBytes 8 src.toNat ++ leBytes 4 n.toNat
  | .snapshot t => leBytes 8 t.toNat
  | .readCounters d n => leBytes 8 d.toNat ++ leBytes 4 n.toNat
  | .readJournal f n d => leBytes 8 f.toNat ++ leBytes 4 n.toNat ++ zeroBytes 4 ++ leBytes 8 d.toNat
  | .attest nonce d n => fitBytes 32 nonce ++ leBytes 8 d.toNat ++ leBytes 4 n.toNat
  | .enroll a n s => leBytes 8 a.toNat ++ leBytes 4 n.toNat ++ [s]
  | .fuseProgram r w s bits => [r, w, s, 0, 0, 0, 0, 0] ++ leBytes 8 bits.toNat
  | .fuseSeal r => [r]
  | .fuseLock r k => [r, k]
  | .updateFirmware a n => leBytes 8 a.toNat ++ leBytes 4 n.toNat
  | .activateFirmware s => [s]
  | .setTemplate t a n => [t, 0, 0, 0, 0, 0, 0, 0] ++ leBytes 8 a.toNat ++ leBytes 4 n.toNat
  | .dmaAbort e c => [e, c]
  | .regionRestart m => leBytes 2 m.toNat
  | .calibrationLoad a n => leBytes 8 a.toNat ++ leBytes 4 n.toNat
  | .setPolicy a n => leBytes 8 a.toNat ++ leBytes 4 n.toNat

/-- The 64 bytes of a descriptor (R334). -/
def descBytes (d : Desc) : List Byte :=
  leBytes 2 (cmdOpcode d.cmd) ++ leBytes 2 d.flags.toNat ++ leBytes 4 d.seq.toNat ++ fitBytes 56 (argBytes d.cmd)

/-- Fields of a descriptor by their offsets. -/
def fieldB (b : List Byte) (o : Nat) : Byte := BitVec.ofNat 8 (byteAt b o)
def fieldH (b : List Byte) (o : Nat) : Half := BitVec.ofNat 16 (fieldLe b o 2)
def fieldW (b : List Byte) (o : Nat) : Word := BitVec.ofNat 32 (fieldLe b o 4)
def fieldD (b : List Byte) (o : Nat) : DWord := BitVec.ofNat 64 (fieldLe b o 8)

/-- The command that 64 bytes give, none for an unassigned opcode (R337 check 1). -/
def cmdOf (b : List Byte) : Option Cmd :=
  match fieldLe b 0 2 with
  | 0x01 => some (.loadSchedule (fieldD b 8) (fieldD b 0x10))
  | 0x02 => some (.start (fieldD b 8))
  | 0x03 => some .stop
  | 0x04 => some (.stats (fieldD b 8) (fieldW b 0x10))
  | 0x05 => some (.setParams (fieldH b 8) (fieldH b 0xA) ((b.drop 0x10).take 48))
  | 0x06 => some (.setSensor ((b.drop 8).take 32))
  | 0x07 => some (.openWindow (fieldB b 8) (fieldB b 9) (fieldB b 0xA) (fieldB b 0xB) (fieldB b 0xC)
      (fieldB b 0xD) (fieldD b 0x10) (fieldD b 0x18))
  | 0x08 => some (.closeWindow (fieldB b 8) (fieldB b 9))
  | 0x09 => some (.globalOp (fieldB b 8) (fieldB b 9) (fieldW b 0xC) (fieldD b 0x10) (fieldW b 0x18)
      (fieldW b 0x1C) (fieldD b 0x20) (fieldW b 0x28))
  | 0x0A => some (.snapshot (fieldD b 8))
  | 0x0B => some (.readCounters (fieldD b 8) (fieldW b 0x10))
  | 0x0C => some (.readJournal (fieldD b 8) (fieldW b 0x10) (fieldD b 0x18))
  | 0x0D => some (.attest ((b.drop 8).take 32) (fieldD b 0x28) (fieldW b 0x30))
  | 0x0E => some (.enroll (fieldD b 8) (fieldW b 0x10) (fieldB b 0x14))
  | 0x0F => some (.fuseProgram (fieldB b 8) (fieldB b 9) (fieldB b 0xA) (fieldD b 0x10))
  | 0x10 => some (.fuseSeal (fieldB b 8))
  | 0x11 => some (.fuseLock (fieldB b 8) (fieldB b 9))
  | 0x12 => some (.updateFirmware (fieldD b 8) (fieldW b 0x10))
  | 0x13 => some (.activateFirmware (fieldB b 8))
  | 0x14 => some (.setTemplate (fieldB b 8) (fieldD b 0x10) (fieldW b 0x18))
  | 0x15 => some (.dmaAbort (fieldB b 8) (fieldB b 9))
  | 0x16 => some (.regionRestart (fieldH b 8))
  | 0x17 => some (.calibrationLoad (fieldD b 8) (fieldW b 0x10))
  | 0x18 => some (.setPolicy (fieldD b 8) (fieldW b 0x10))
  | _ => none

/-- The descriptor that 64 bytes give. -/
def descOf (b : List Byte) : Option Desc := (cmdOf b).map (fun c => ⟨c, fieldH b 2, fieldW b 4⟩)

/-- FLAGS bits that a command defines (R341). -/
def flagMask : Cmd → Nat
  | .stop => 3
  | .setParams .. => 1
  | .attest .. => 1
  | .fuseLock .. => 1
  | _ => 0

/-- Length of a parameter set, 48 where it varies or is unknown (R342). -/
def inlineUsed (set : Nat) : Nat :=
  if set = 0x01 ∨ set = 0x03 ∨ set = 0x13 then 16
  else if set = 0x02 ∨ set = 0x10 ∨ set = 0x11 ∨ set = 0x20 ∨ set = 0x21 then 8
  else if set = 0x22 then 24 else 48

/-- Unused ARGS bytes of SET_PARAMS are zero: those past the set, or past ADDR when it is INDIRECT. -/
def inlineZero (flags : Nat) : Cmd → Bool
  | .setParams set len inl =>
    allZero ((fitBytes 48 inl).drop (if bitOf flags 0 then 8 else max (inlineUsed set.toNat) len.toNat))
  | _ => true

/-- FLAGS and ARGS reserved bits are zero (R337 check 3). -/
def descFormatOk (d : Desc) (b : List Byte) : Bool :=
  Nat.land d.flags.toNat (Nat.xor 0xFFFF (flagMask d.cmd)) == 0 && descBytes d == b && inlineZero d.flags.toNat d.cmd

/-- Check 4 of R337: an opcode is permitted in a lifecycle state (14 R405). -/
def lifecycleAllows (life op : Nat) : Bool :=
  if op = 0x0E then life == 2 || life == 3
  else if op = 0x0F ∨ op = 0x10 ∨ op = 0x11 ∨ op = 0x18 ∨ op = 0x14 ∨ op = 0x17 ∨ op = 0x12 ∨ op = 0x13 ∨
      op = 0x01 ∨ op = 0x02 ∨ op = 0x06 ∨ op = 0x07 ∨ op = 0x09 ∨ op = 0x0D then life != 4
  else true

/-- Background opcodes (R339); GLOBAL_OP only with BARRIER and BROADCAST. -/
def isBackground : Cmd → Bool
  | .globalOp k .. => decide (k.toNat < 2)
  | c => [0x01, 0x04, 0x0B, 0x0C, 0x0D, 0x0E, 0x0F, 0x12, 0x17].contains (cmdOpcode c)

end Sys2Proof.Machine
end

