-- ==== Sys2Proof/Machine/Reset.lean ====
section
/-! DEFINITION. The fuse start-up read (13 R373 to R378), the internal reset (16 R458 to R460; 17 R473 to R476), fatal errors, and the start of bring-up. -/

namespace Sys2Proof.Machine

/-! ### The fuse start-up read (13 R373 to R378) -/

/-- Critical regions, ascending (R374). -/
def criticalRegions : List Nat := [0, 1, 2, 8, 9]

/-- Lifecycle code, locks and POLICY that S3 keeps (R387). -/
def State.keptBits (s : State) : Nat × Nat × Nat :=
  (s.shadowWord 0 % 16, s.shadowWord 1, s.policy)

/-- REPAIR holds a marginal logical word. -/
def FuseSt.repairMarginal (f : FuseSt) : Bool :=
  (List.range 16).any (fun e => (logicalWord f.word [] 1 e).2 != 0)

/-- What the start-up read finds failing: status, region, main word; none when the device may start (R373,
R374). -/
def FuseSt.startFailure (f : FuseSt) : Option (Nat × Nat × Nat) :=
  let wlock := f.shadow.get 1 % 65536
  let first (r : Nat) : Nat := 32 * r + (judgeRegion f.word f.map wlock r).first
  if f.repairMarginal then some (0x0606, 1, first 1)
  else
    match criticalRegions.find? (fun r => failedState (f.st.getD r 0)) with
    | some r => some (if bitOf f.regMarg r then 0x0606 else 0x0605, r, first r)
    | none => none

/-- FUSE_STAT's and the Periscope's flags after a read (R376 to R378). -/
def FuseSt.flagged (f : FuseSt) : FuseSt :=
  let bad (r : Nat) : Bool := failedState (f.st.getD r 0)
  let retired := f.shadow.get 0 % 16 == 15
  { f with
    faultRegion := ((List.range 16).find? bad).getD 15
    ownerAbsent := bad 3 || [10, 11, 12, 13, 14, 15].any bad
    regionAbsent := bad 5 || bad 6 || bad 7 || (bad 4 && !retired) }

/-- Region and main word of the first of LIFECYCLE, locks and POLICY that differs from what S3 kept (R374, R387). -/
def keptDiffers (kept now : Nat × Nat × Nat) : Option (Nat × Nat) :=
  if kept.1 ≠ now.1 then some (0, 0)
  else if kept.2.1 ≠ now.2.1 then some (0, 1)
  else if kept.2.2 ≠ now.2.2 then some (8, 256)
  else none

/-- The array is read and judged; a failure holds the device in reset (R373, R374, R387). -/
def State.fuseStart (s : State) (fromS3 : Bool) : State :=
  let f := ({ s.fuse with shadow := [] }).judgeAll s.fuse.word
  let f := f.flagged
  let s := (s.updFuse (fun _ => { f with valid := false, critical := false })).count srcFuse 4 s.fuse.marg.length
  let held (st r w : Nat) : State := s.updPwr (fun p => { p with
    phase := .held, startStatus := st, failRegion := r, failWord := w, enMain := false, enCore := false })
  match f.startFailure with
  | some (st, r, w) =>
    (held st r w).updFuse (fun f => { f with critical := true })
  | none =>
    match (if fromS3 then s.fuse.kept.bind (keptDiffers · s.keptBits) else none) with
    | some (r, w) => held 0x0607 r w
    | none =>
      (s.updFuse (fun f => { f with valid := true, kept := some s.keptBits, startPolicy := s.policy })).setReady 1 true

/-- One FAULT record per absent owner region or slot and per absent region of the device's own, once READY.SYS is
set (R376, R377). -/
def State.absentFaults (s : State) : State :=
  let bad (r : Nat) : Bool := failedState (s.regionState r)
  let rec1 (s : State) (status r slot : Nat) : State :=
    s.fault status srcFuse 7 3 0 (leBytes 1 r ++ (if status = 0x0608 then leBytes 1 slot else []))
  let s := (List.range 2).foldl (fun s k => if failedState (s.slotState k) then rec1 s 0x0608 3 k else s) s
  let s := [10, 11, 12, 13, 14, 15].foldl (fun s r => if bad r then rec1 s 0x0608 r 0xFF else s) s
  [4, 5, 6, 7].foldl (fun s r =>
    if bad r && !(r == 4 && s.lifecycle == 4) then rec1 s 0x0609 r 0xFF else s) s

/-! ### Bits of the array, and operations cut short (13 R380) -/

/-- A pulsed bit takes the outcome of its verify: 0 firm, 1 marginal, 2 still 0 (R380). -/
def FuseSt.putBit (f : FuseSt) (p verdict : Nat) : FuseSt :=
  let w := p / 64
  let m := 2 ^ (p % 64)
  if verdict = 0 then
    { f with firm := f.firm.set w (Nat.lor (f.firm.get w) m)
             marg := f.marg.set w (Nat.land (f.marg.get w) (not64 m)) }
  else if verdict = 1 then { f with marg := f.marg.set w (Nat.lor (f.marg.get w) m) }
  else f

/-- Bits pulsed up to a reset or a loss of supply: their number and their outcomes are left open, and a bit may be left
marginal (R380; DESIGN CHOICE, log 170). -/
def FuseSt.cutAt (f : FuseSt) (todo : List Nat) (n ctr : Nat) : FuseSt :=
  (List.range (n % (todo.length + 1))).foldl (fun f i =>
    f.putBit (todo.getD i 0) (byteAt (freeUnit ctr (i / 32)) (i % 32) % 3)) f

/-- A reset or a loss of supply ends the operation in progress where it stands. -/
def State.cutFuses (s : State) : State :=
  match s.fuse.op with
  | some op => (s.updFuse (fun f => { f.cutAt op.todo s.free.toNat s.freeCtr with op := none })).drawn 1
  | none => s

/-! ### Reset (16 R459, R460; 15 R443; 17 R474) -/

/-- The last-state record (16 R460). -/
def State.lastStateRec (s : State) (cause status region block addr : Nat) : List Byte :=
  let im := s.sched.active
  leBytes 1 cause ++ leBytes 1 s.lifecycle ++ leBytes 2 status ++ leBytes 1 region ++ leBytes 1 block ++
  leBytes 1 s.pwr.shed ++ leBytes 1 s.schedCode ++ leBytes 8 addr ++ leBytes 8 s.tk.now ++ leBytes 8 s.tk.tick ++
  leBytes 8 s.jnl.head ++ leBytes 4 (match im with | some i => i.id | none => 0) ++
  leBytes 4 (match im with | some i => i.version | none => 0) ++ leBytes 2 (toBits 16 s.pwr.logicT) ++
  leBytes 2 (toBits 16 s.hbm.temp) ++ leBytes 2 (s.pwr.supply[0]).mv ++ leBytes 2 s.trust.abandoned ++ zeroBytes 8

/-- Memory outside the device, which a reset leaves alone: the host's. -/
def hostMem (m : SMap Byte) : SMap Byte := m.filter (fun p => hostBase ≤ p.1)

/-- Always-on memory, pins and what lies outside the device, kept over an internal reset (16 R459; 12 R356;
06 R173; 14 R396, R402; log 36); everything else is as `State.reset` gives it. -/
def State.keptOverReset (s : State) : State :=
  let z := State.reset
  { z with
    pending := s.pending, freeCtr := s.freeCtr, out := s.out, mem := hostMem s.mem
    hbm := { z.hbm with marks := s.hbm.marks.map (fun m => { m with stale := m.stale || m.part.isSome }) }
    host := { z.host with expSeq := s.host.expSeq, perst := s.host.perst }
    jnl := { z.jnl with
      head := s.jnl.head, chain := s.jnl.chain, aon := s.jnl.aon, ringFrom := s.jnl.head }
    err := { z.err with lastState := s.err.lastState }
    fuse := { z.fuse with
      firm := s.fuse.firm, marg := s.fuse.marg, mismatchAon := s.fuse.mismatchAon, kept := s.fuse.kept
      vpp := s.fuse.vpp }
    trust := { z.trust with
      preferred := s.trust.preferred, trial := s.trust.trial, flash := s.trust.flash
      bootSrc := s.trust.bootSrc }
    pwr := { z.pwr with
      pscUp := s.pwr.pscUp, pscAddr := s.pwr.pscAddr, clkSrc := s.pwr.clkSrc, psc := s.pwr.psc
      supply := s.pwr.supply, wakePin := s.pwr.wakePin, wakeSrc := s.pwr.wakeSrc, logicT := s.pwr.logicT
      logicMax := s.pwr.logicT, resetCause := s.pwr.resetCause
      resetCount := s.pwr.resetCount, resetStatus := s.pwr.resetStatus, hotArmed := s.pwr.hotArmed } }

/-- A trial firmware that meets a reset with cause 2 or 3 has failed (14 R402). -/
def Trust.afterReset (t : Trust) (cause : Nat) : Trust :=
  match t.trial with
  | some prev => if cause = 2 ∨ cause = 3 then { t with preferred := prev, trial := none } else t
  | none => t

/-- The internal reset: the last-state record, RESET_CAUSE, and everything volatile lost. The rails that the
device switches are off (17 R474, R475; log 36). -/
def State.internalReset (s : State) (cause status region block addr : Nat) : State :=
  let s := s.updErr (fun e => { e with lastState := s.lastStateRec cause status region block addr })
  let s := s.updPwr (fun p => { p with
    resetCause := cause, resetCount := min 255 (p.resetCount + 1), resetStatus := status })
  let s := (s.updTrust (fun t => t.afterReset cause)).cutFuses
  let t := s.keptOverReset
  { t with pwr := { t.pwr with phase := .held, startStatus := status } }

/-- Step 3 of bring-up (17 R473): the always-on domain, the fuse read, and REF under judgement; EN_MAIN rises once
the fuse read passes. -/
def State.startUp (s : State) : State :=
  let s := (s.updPwr (fun p => { p with
    phase := .starting, startStatus := 0, failRegion := 0xFF, failWord := 0xFFFF
    refWindows := 0, refGood := 0, refStable := false, refBad := 0 })).setReady 0 true
  let s := s.fuseStart false
  if s.fuse.valid then
    let s := s.updPwr (fun p => { p with enMain := true })
    s
  else s

/-- A chip-level fatal error: every egress is blocked, and the device resets (16 R459); after a thermal trip it
stays in reset until the die has cooled (15 R430). -/
def State.fatal (s : State) (status region block addr : Nat) : State :=
  let s : State := { s with ap := { s.ap with sealed := true } }
  let s := s.internalReset 3 status region block addr
  if status = 0x0704 then s.updPwr (fun p => { p with phase := .tripped }) else s.startUp

/-- The supply reset level (15 R443). -/
def State.supplyReset (s : State) : State := s.internalReset 2 0 0xFF 0 0

/-- RESET_OUT_N is low from every internal reset until READY.SYS is set, through a held reset and in S3 (13 R374; 17
R476). -/
def State.resetOutLow (s : State) : Bool := !s.isReady 3

/-- The device is out of reset, so a fatal error can arise. -/
def State.alive (s : State) : Bool :=
  match s.pwr.phase with
  | .starting | .running | .asleep _ => true
  | _ => false

/-- HBM_PARITY_ERROR (06 R168): `failed` attempts of a transfer on a channel failed; the third is fatal. -/
def execHbmParityError (c : Fin 16) (failed : Nat) (s : State) : Host.Outcome State Fault Refusal :=
  if !s.hbm.phase.powered then .next s
  else
    let s := s.count srcHbm (hParity c.val) (min failed 2)
    .next (if 3 ≤ failed then s.fatal 0x0843 6 (16 + c.val) 0 else s)

/-- The statuses that fatal errors report (16 R458). -/
def fatalCodes : List Nat := [0x0843, 0x0705, 0x0704, 0x0803]

/-- FATAL_ERROR (16 R458, R459): a cause that no other command shows, with a status of R458; no error reports another. -/
def execFatalError (status : Half) (region block : Byte) (addr : DWord) (s : State) :
    Host.Outcome State Fault Refusal :=
  .next (if s.alive && fatalCodes.contains status.toNat then s.fatal status.toNat region.toNat block.toNat addr.toNat else s)

/-- CONTROL_WATCHDOG_EXPIRY (16 R458): the control processor was silent for 100 ms. -/
def execControlWatchdogExpiry (s : State) : Host.Outcome State Fault Refusal :=
  .next (if s.alive then s.fatal 0x0803 7 0 0 else s)

end Sys2Proof.Machine
end

