-- ==== Sys2Proof/Machine/FuseOps.lean ====
section
/-! DEFINITION. Programming the fuses (13 R380 to R385), the hourly re-read (R386), and the operations that
program fuses for other chapters (14 R402, R406, R408, R409). -/

namespace Sys2Proof.Machine

def fPulses : Nat := 0
def fVerify : Nat := 1
def fRereads : Nat := 2
def fMismatches : Nat := 3

/-! ### Bits -/

/-- The physical bit of a main word's bit through the redirection in force. -/
def FuseSt.bitAt (f : FuseSt) (w b : Nat) : Nat := physWord f.map w * 64 + b

/-- A physical bit is firm 1. -/
def FuseSt.isFirm (f : FuseSt) (p : Nat) : Bool := bitOf (f.firm.get (p / 64)) (p % 64)

/-- The 1 bits of a 64-bit value, ascending. -/
def onesOf (v : Nat) : List Nat := (List.range 64).filter (bitOf v)

/-- Bits of one main word. -/
def FuseSt.wordBits (f : FuseSt) (w v : Nat) : List Nat := (onesOf v).map (f.bitAt w)

/-- Bits of a logical word of a doubled region, each in both copies; in REPAIR, VALID comes last (R381). -/
def FuseSt.logicalBits (f : FuseSt) (r j v : Nat) : List Nat :=
  let both (b : Nat) : List Nat := [f.bitAt (32 * r + j) b, f.bitAt (32 * r + j + 16) b]
  let bs := onesOf v
  if r = 1 then (bs.filter (· != 14)).flatMap both ++ (bs.filter (· == 14)).flatMap both
  else bs.flatMap both

/-- Those not firm yet. -/
def FuseSt.needed (f : FuseSt) (ps : List Nat) : List Nat := ps.filter (fun p => !f.isFirm p)

/-- The outcomes of the bits pulsed: pulses (1 to 3) and verdict (R380). -/
def State.putOutcomes (s : State) : List (Nat × Nat × Nat) → State
  | [] => s
  | (p, n, v) :: rest =>
    let s := s.updFuse (fun f => f.putBit p v)
    let s := s.count srcFuse fPulses (if n = 0 then 1 else min n 3)
    let s := if v = 0 then s else s.count srcFuse fVerify 1
    s.putOutcomes rest

/-! ### Regions judged again (R384, R366) -/

/-- A critical region found failing during a session (R384). -/
def State.criticalCheck (s : State) (r : Nat) : State :=
  if isCriticalRegion r && failedState (s.regionState r) && s.fuse.valid then
    (s.updFuse (fun f => { f with critical := true })).fault
      (if bitOf s.fuse.regMarg r then 0x0606 else 0x0605) srcFuse 7 3 0 (leBytes 1 r)
  else s

/-- A region judged again with the regions whose redirections a write of REPAIR adds, drops or moves; the lock shadow
follows LIFE (R366, R383, R384). FAULT_REGION stays as the start-up read gave it (R378; log 144). -/
def State.rejudge (s : State) (r : Nat) : State :=
  let s := s.updFuse (fun f => f.judge f.word r)
  let old := s.fuse.map
  let new := mapOf s.fuse.word
  let rs := if r = 1 then
      (((new.filter (!old.contains ·)) ++ old.filter (!new.contains ·)).map (fun p => p.1 / 32)).eraseDups
    else []
  let s := if r = 1 then s.updFuse (fun f => { f with map := new }) else s
  let s := rs.foldl (fun s q => s.updFuse (fun f => f.judge f.word q)) s
  let s := s.updFuse (fun f => { f.flagged with kept := some s.keptBits, faultRegion := f.faultRegion })
  (r :: rs.filter (· != r)).foldl State.criticalCheck s

/-! ### Conditions (R380) -/

/-- Programming conditions for a source. -/
def State.fuseReady (s : State) (external : Bool) : Bool :=
  (!external || s.fuse.vpp) && s.pwr.shed == 0 && decide (0 ≤ s.pwr.logicT) && decide (s.pwr.logicT ≤ 1360)

/-- The programming conditions may have failed: an operation in progress stops after the bit in progress (R380). -/
def State.fuseCheck (s : State) : State :=
  match s.fuse.op with
  | some op => if s.fuseReady op.external then s else s.updFuse (fun f => { f with op := some { op with cut := true } })
  | none => s

/-! ### Jobs -/

/-- The Accepted command of a job. -/
def FuseJob.acc : FuseJob → Option Accepted
  | .program a => some a
  | .seal a _ => some a
  | .lock a => some a
  | .enroll a _ => some a
  | .transition a _ => some a
  | .revoke a _ => some a
  | .rollback => none
  | .erase => none
  | .reread _ => none

/-- A command of a job completes; the container's digest stands in `data` (12 R353). -/
def State.jobDone (s : State) (j : FuseJob) (status : Nat) (result : List Byte) : State :=
  match j.acc with
  | some a => s.completeLater a status result a.data
  | none => s

/-- FUSE_PROGRAM's first check (R381). -/
def programArgsOk (r w bits : Nat) : Bool :=
  bits != 0 &&
  (if r = 1 then decide (w < 16) && decide (bits < 2 ^ 15)
   else if r = 8 then decide (w = 0) && decide (bits < 8)
   else if r = 9 then decide (4 ≤ w) && decide (w ≤ 30)
   else (r == 2 || (decide (5 ≤ r) && decide (r ≤ 7)) || (decide (10 ≤ r) && decide (r ≤ 15))) && decide (w ≤ 30))

/-- Regions that FUSE_SEAL may name (R382). -/
def sealable (r : Nat) : Bool :=
  r == 2 || r == 5 || r == 6 || r == 7 || r == 9 || (decide (10 ≤ r) && decide (r ≤ 15))

/-- FUSE_LOCK's first check (R383). -/
def lockable (r kind : Nat) : Bool :=
  if kind = 0 then decide (1 ≤ r) && decide (r ≤ 15)
  else kind == 1 && ((decide (4 ≤ r) && decide (r ≤ 7)) || (decide (10 ≤ r) && decide (r ≤ 15)))

/-- A write lock without FORCE is allowed in the region's state (R383). -/
def State.lockState (s : State) (r : Nat) : Bool :=
  if isDoubled r then true
  else if r = 3 then s.slotState 0 != 1 && s.slotState 1 != 1
  else s.regionState r == 2 || s.regionState r == 0

/-- The seal word of a region from a fresh reading (R369, R372, R382). -/
def State.freshSeal (s : State) (r : Nat) : Nat :=
  let vs := (List.range 31).map (fun i => (regionWord s.fuse.word s.fuse.map r i).1)
  sealWord (if r = 9 then List.replicate 4 0 ++ vs.drop 4 else vs) r

/-- A fresh reading of words 0 to 30 of a region holds a marginal word (R382). -/
def State.freshMarginal (s : State) (r : Nat) : Bool :=
  (List.range 31).any (fun i => (regionWord s.fuse.word s.fuse.map r i).2 != 0)

/-- The main words of DEVICE_SECRET, every bit (R388). -/
def FuseSt.eraseBits (f : FuseSt) : List Nat := (List.range 32).flatMap (fun i => f.wordBits (128 + i) (2 ^ 64 - 1))

/-- The bits of each fuse step of a transition to a state, in order (14 R406). -/
def FuseSt.transitionSteps (f : FuseSt) (now target : Nat) : List (List Nat) :=
  let life (b : Nat) : List Nat := f.logicalBits 0 0 (2 ^ b)
  if target = 3 then [f.logicalBits 0 1 (2 ^ 8), life 2]
  else if target = 4 then ((List.range 4).filter (fun b => now ≤ b)).map life ++ [f.eraseBits]
  else [life (target - 1)]

/-- The words of an owner slot for an enrolment (14 R408): the anchor digests, OWNER_ID and ARTEFACTS. -/
def slotWords (digests : List Byte) (ownerId artefacts : Nat) : List Nat :=
  (List.range 12).map (fun i => fieldLe digests (8 * i) 8) ++ [ownerId + artefacts * 2 ^ 32, 0, 0]

/-- What a job finds at its start: a status that completes it at once, or the bits of its steps and its source. -/
inductive JobStart where
  | refuse (status : Nat) (result : List Byte)
  | go (steps : List (List Nat)) (external : Bool)
  deriving DecidableEq, Repr

/-- Bits to program in steps, when the conditions hold (R380). -/
def State.jobSteps (s : State) (steps : List (List Nat)) (external : Bool) : JobStart :=
  if s.fuseReady external then .go steps external else .refuse 0x0604 []

/-- Bits to program in one step. -/
def State.jobBits (s : State) (bits : List Nat) (external : Bool) : JobStart := s.jobSteps [bits] external

/-- The checks of a job in their order (R381 to R383). `words` of an enrolment stand in the command's number
field as the container gave them, in `num` and `data` of the slot's Accepted. -/
def State.startOf (s : State) (j : FuseJob) : JobStart :=
  let ext := s.fuse.vpp
  match j with
  | .program a =>
    match a.desc.cmd with
    | .fuseProgram r w src bits =>
      let r := r.toNat
      if !programArgsOk r w.toNat bits.toNat then .refuse 0x0600 []
      else if s.writeLocked r || s.regionState r == 2 then .refuse 0x0601 []
      else s.jobBits (if isDoubled r then s.fuse.logicalBits r w.toNat bits.toNat
          else s.fuse.wordBits (32 * r + w.toNat) bits.toNat) (src.toNat == 0)
    | _ => .refuse 0x0010 []
  | .seal _ r =>
    if !sealable r then .refuse 0x0600 []
    else if s.writeLocked r then .refuse 0x0601 []
    else if 1 < s.regionState r then .refuse 0x0605 []
    else if s.freshMarginal r then .refuse 0x0606 []
    else s.jobBits (s.fuse.wordBits (32 * r + 31) (s.freshSeal r)) ext
  | .lock a =>
    match a.desc.cmd with
    | .fuseLock r kind =>
      let r := r.toNat
      let b := if kind.toNat = 0 then r else 16 + r
      if !lockable r kind.toNat then .refuse 0x0600 []
      else if kind.toNat = 0 && !bitOf a.desc.flags.toNat 0 && !s.lockState r then .refuse 0x0602 []
      else if bitOf (s.shadowWord 1) b then s.jobBits [] ext
      else s.jobBits (s.fuse.logicalBits 0 1 (2 ^ b)) ext
    | _ => .refuse 0x0010 []
  | .enroll a k =>
    let ws := (List.range 15).map (fun i => a.num / 2 ^ (64 * i) % 2 ^ 64)
    let base := 96 + 16 * k
    s.jobBits ((List.range 15).flatMap (fun i => s.fuse.wordBits (base + i) (ws.getD i 0)) ++
      s.fuse.wordBits (base + 15) (sealWord ws (16 * k + 3))) ext
  | .transition _ target => s.jobSteps (s.fuse.transitionSteps s.lifecycle target) ext
  | .revoke _ k => s.jobBits (s.fuse.wordBits (96 + 16 * k + 15) (2 ^ 64 - 1)) ext
  | .rollback =>
    s.jobBits ((List.range s.trust.fw.rollback).map (fun i => s.fuse.bitAt (288 + i / 64) (i % 64))) ext
  | .erase => s.jobBits s.fuse.eraseBits ext
  | .reread _ => .refuse 0 []

/-- Regions that a job changes; a write lock also changes the judgement of the region it locks (R370, R375, R384). -/
def FuseJob.regions : FuseJob → List Nat
  | .program a => match a.desc.cmd with | .fuseProgram r _ _ _ => [r.toNat] | _ => []
  | .seal _ r => [r]
  | .lock a => match a.desc.cmd with
    | .fuseLock r kind => if kind.toNat = 0 then [0, r.toNat] else [0]
    | _ => [0]
  | .enroll _ _ => [3]
  | .transition _ t => if t = 4 then [0, 4] else [0]
  | .revoke _ _ => [3]
  | .rollback => [9]
  | .erase => [4]
  | .reread _ => []

/-- The device enters RETIRED (14 R406): the running schedule stops at the next edge with discard, and both
images go. -/
def State.retire (s : State) : State :=
  let s := s.beginStop false true
  s.updSched (fun x => { x with staged := none })

/-- What a finished programming gives: status and RESULT (R381 to R383; log 37). -/
def State.jobResult (s : State) (j : FuseJob) (bits : List Nat) (pulsed : Nat) : Nat × List Byte :=
  let unfirm := bits.find? (fun p => !s.fuse.isFirm p)
  match j with
  | .program _ =>
    let bad := (bits.filter (fun p => !s.fuse.isFirm p)).map (· % 64) ++
      bits.flatMap (fun p => onesOf (s.fuse.marg.get (p / 64)))
    match bad.min? with
    | some b => (0x0603, leBytes 4 pulsed ++ leBytes 1 b)
    | none => (0, leBytes 4 pulsed)
  | .seal _ r =>
    if s.regionState r = 2 then (0, leBytes 8 (s.shadowWord (32 * r + 31)))
    else if unfirm.isSome then (0x0603, []) else (0x0605, [])
  | .enroll _ k => (if s.slotState k = 2 then 0 else 0x0603, [])
  | _ => (if unfirm.isSome then 0x0603 else 0, [])

/-- Every bit a job meant to set, for its final read. -/
def State.jobAllBits (s : State) (op : FuseOp) : List Nat :=
  match op.job with
  | .program a =>
    match a.desc.cmd with
    | .fuseProgram r w _ bits =>
      if isDoubled r.toNat then s.fuse.logicalBits r.toNat w.toNat bits.toNat
      else s.fuse.wordBits (32 * r.toNat + w.toNat) bits.toNat
    | _ => op.todo
  | _ => op.todo

/-- What an operation has programmed takes effect: its regions are judged again, and a device whose lifecycle bit has
verified enters RETIRED (R384; 14 R406). -/
def State.jobTakesEffect (s : State) (j : FuseJob) : State :=
  let t := j.regions.foldl State.rejudge s
  if s.lifecycle ≠ 4 ∧ t.lifecycle = 4 then t.retire else t

/-- A job whose bits are programmed, or cut short (`cut`), ends: what it changes takes effect, and its command
completes. -/
def State.endJob (s : State) (op : FuseOp) (all : List Nat) (pulsed : Nat) (cut : Bool) : State :=
  let s := (s.jobTakesEffect op.job).updFuse (fun f => { f with op := none })
  let (st, res) := s.jobResult op.job all pulsed
  s.jobDone op.job (if cut then 0x0604 else st) (if cut then leBytes 4 pulsed else res)

/-- The bits of an operation's step have their outcomes: with a bit not firm, or after the last step, the job ends; else
what it has programmed takes effect, and the next step begins (14 R406). -/
def State.stepDone (s : State) (op : FuseOp) : List (List Nat) → State
  | [] => s.endJob op (s.jobAllBits op) op.pulsed false
  | b :: bs =>
    if op.todo.any (fun p => !s.fuse.isFirm p) then s.endJob op (s.jobAllBits op) op.pulsed false
    else
      let s := s.jobTakesEffect op.job
      let op := { op with todo := s.fuse.needed b, steps := bs }
      if op.todo.isEmpty then s.stepDone op bs else s.updFuse (fun f => { f with op := some op })

/-! ### The re-read (R386) -/

/-- A reading of the array in which some words read otherwise. -/
def State.readingOf (s : State) (reads : List (Fin 528 × DWord × DWord)) (w : Nat) : FuseRead :=
  match reads.find? (fun p => p.1.val == w) with
  | some p => (p.2.1.toNat, p.2.2.toNat)
  | none => s.fuse.word w

/-- Main words whose logical value differs from the shadow, or that hold a newly marginal bit. -/
def State.rereadBad (s : State) (reads : List (Fin 528 × DWord × DWord)) : List Nat :=
  let rd := s.readingOf reads
  (List.range 16).flatMap (fun r =>
    let m := if r = 1 then [] else s.fuse.map
    let n := if isDoubled r then 16 else 32
    ((List.range n).filter (fun i =>
      let v := if isDoubled r then logicalWord rd m r i else regionWord rd m r i
      let b := if isDoubled r then logicalWord s.fuse.word m r i else regionWord s.fuse.word m r i
      v.1 != s.shadowWord (32 * r + i) || Nat.land v.2 (not64 b.2) != 0)).map (· + 32 * r))

/-- The hourly re-read. -/
def State.reread (s : State) (reads : List (Fin 528 × DWord × DWord)) : State :=
  let s := s.count srcFuse fRereads 1
  let bad := s.rereadBad reads
  match bad with
  | [] => s
  | w :: _ =>
    let n := bad.length
    let s := s.count srcFuse fMismatches n
    let s := s.updFuse (fun f => { f with
      alarm := true, mismatch := f.mismatch + n, mismatchAon := f.mismatchAon + n })
    let s := bad.foldl (fun s w => s.errorRec 0x0607 7 3 w 1 0 (leBytes 2 bad.head!)) s
    s.eventAt 0x0030 srcFuse s.tk.now s.tk.tick (0x0607 * 65536) 0
      (faultPayload 0x0607 7 3 n w (leBytes 2 w))

/-! ### The queue of operations (R384) -/

/-- The queue with a new job: a re-read follows the operation that runs at once (R386), every other job waits last. -/
def FuseJob.queued (j : FuseJob) (js : List FuseJob) : List FuseJob :=
  match j with
  | .reread _ => j :: js
  | _ => js ++ [j]

/-- A job begins, waits behind the one that runs, or completes at once. -/
def State.startJob (s : State) (j : FuseJob) : State :=
  if s.fuse.op.isSome then s.updFuse (fun f => { f with waiting := j.queued f.waiting })
  else
    match j with
    | .reread reads => s.reread reads
    | _ =>
      match s.startOf j with
      | .refuse st res => s.jobDone j st res
      | .go steps ext =>
        let op : FuseOp := ⟨j, s.fuse.needed (steps.headD []), steps.tail, ext, 0, false⟩
        if op.todo.isEmpty then s.stepDone op op.steps else s.updFuse (fun f => { f with op := some op })

/-- Waiting jobs begin while nothing runs. -/
def State.nextJobs (s : State) : Nat → State
  | 0 => s
  | n + 1 =>
    if s.fuse.op.isSome then s
    else match s.fuse.waiting with
      | [] => s
      | j :: js => ((s.updFuse (fun f => { f with waiting := js })).startJob j).nextJobs n

/-- Outcomes filled up with firm bits after one pulse. -/
def fillOutcomes (bits : List Nat) (outs : List (Nat × Nat)) : List (Nat × Nat × Nat) :=
  (List.range bits.length).map (fun i => let o := outs.getD i (1, 0); (bits.getD i 0, o.1, o.2))

/-- The pulses of the operation in progress end: all of them, or, when the conditions have failed, those listed
(R380). -/
def State.pulsesDone (s : State) (outs : List (Nat × Nat)) : State :=
  match s.fuse.op with
  | none => s
  | some op =>
    let os := fillOutcomes op.todo outs
    let os := if op.cut then os.take outs.length else os
    let s := s.putOutcomes os
    let op := { op with pulsed := op.pulsed + os.length }
    (if op.cut then s.endJob op (s.jobAllBits op) op.pulsed true else s.stepDone op op.steps).nextJobs
      (s.fuse.waiting.length + 1)

end Sys2Proof.Machine
end

