-- ==== Sys2Proof/Machine/Trust.lean ====
section
/-! DEFINITION. The root of trust (14): signed containers and what each changes, boot, firmware update and
activation, identity, and attestation. -/

namespace Sys2Proof.Machine

/-! ### Containers (R393 to R395) -/

/-- KIND, BODY_LEN and SIGNER of a container. -/
def contKind (b : List Byte) : Nat := fieldLe b 4 2
def contBodyLen (b : List Byte) : Nat := fieldLe b 0x10 4
def contSigner (b : List Byte) : Nat := byteAt b 0x14
def contBody (b : List Byte) : List Byte := (b.drop 0x40).take (contBodyLen b)

/-- Bytes before the signature block. -/
def contSigned (b : List Byte) : Nat := 0x40 + roundUp (contBodyLen b) 64

def contSigBlock (b : List Byte) : List Byte := b.drop (contSigned b)

/-- KIND that a command names; 0 for a command without a container. -/
def kindOf : Cmd → Nat
  | .enroll .. => 1
  | .setTemplate .. => 2
  | .calibrationLoad .. => 3
  | .setPolicy .. => 4
  | _ => 0

/-- ADDR and LEN of the container that a command names. -/
def containerAt : Cmd → Nat × Nat
  | .enroll a n _ => (a.toNat, n.toNat)
  | .setTemplate _ a n => (a.toNat, n.toNat)
  | .calibrationLoad a n => (a.toNat, n.toNat)
  | .setPolicy a n => (a.toNat, n.toNat)
  | .updateFirmware a n => (a.toNat, n.toNat)
  | .loadSchedule a n => (a.toNat, n.toNat)
  | _ => (0, 0)

/-- The layout of R393 for a command's KIND; `b` holds LEN bytes. -/
def contLayout (kind : Nat) (b : List Byte) : Bool :=
  let signer := contSigner b
  let signed := contSigned b
  let total := if signer = 0xFF then signed else signed + sigLen
  fieldLe b 0 4 == 0x414F4C50 && contKind b == kind && fieldLe b 6 2 == 0x0100 &&
  fieldLe b 8 8 == b.length && b.length == total && allZero ((b.drop 0x15).take 3) &&
  allZero ((b.drop 0x2C).take 20) && allZero ((b.drop (0x40 + contBodyLen b)).take (signed - 0x40 - contBodyLen b)) &&
  (decide (signer < 2) || signer == 0xFE || (signer == 0xFF && kind == 3)) &&
  (kind != 4 || fieldLe b 0x20 8 != 0) &&
  (signer == 0xFF || (Sig.layout (contSigBlock b) signed && Sig.keySlot (contSigBlock b) == signer))

/-! ### Bodies -/

/-- The layout of an enrolment body for the command's slot (R408). -/
def enrollLayout (slot : Nat) (b : List Byte) : Bool :=
  b.length == 0x1D0 && byteAt b 0 == slot && decide (slot < 2) && allZero ((b.drop 1).take 3) &&
  decide (1 ≤ fieldLe b 8 2) && decide (fieldLe b 8 2 < 16) && allZero ((b.drop 0xA).take 6) &&
  fieldLe b 0x190 4 == 65537 && allZero ((b.drop 0x194).take 12)

/-- The anchor of an enrolment body's keys (R392). -/
def enrollAnchor (b : List Byte) : List Byte :=
  Sig.anchorOf ((b.drop 0x10).take 388) ((b.drop 0x1A0).take 48)

/-- Directory entries of a calibration body: ID, OFFSET, LENGTH (R410). -/
def calDir (b : List Byte) : List (Nat × Nat × Nat) :=
  (List.range (min 7 (fieldLe b 0 4))).map (fun i =>
    let e := 16 + 16 * i
    (fieldLe b e 2, fieldLe b (e + 4) 4, fieldLe b (e + 8) 4))

def calIds : List Nat := [1, 2, 3, 4, 5, 6, 0x10]

/-- The directory of a calibration body (R410). -/
def calLayout (b : List Byte) : Bool :=
  let n := fieldLe b 0 4
  let d := calDir b
  decide (16 ≤ b.length) && decide (n ≤ 7) && allZero ((b.drop 4).take 12) &&
  decide ((d.map (·.1)).Nodup) &&
  d.all (fun e => calIds.contains e.1 && e.2.1 % 64 == 0 && decide (16 + 16 * n ≤ e.2.1) &&
    decide (e.2.1 + e.2.2 ≤ b.length))

/-- An item of a calibration body. -/
def calItem (b : List Byte) (id : Nat) : Option (List Byte) :=
  ((calDir b).find? (fun e => e.1 == id)).map (fun e => (b.drop e.2.1).take e.2.2)

/-- Defect entries of an item: X, Y, T_ON (09 R238). -/
def defectsOf (b : List Byte) : List (Nat × Nat × Int) :=
  (List.range ((b.length - 4) / 8)).map (fun i =>
    let e := b.drop (4 + 8 * i)
    (fieldLe e 0 2, fieldLe e 2 2, (BitVec.ofNat 8 (byteAt e 4)).toInt))

def defectKeysRise : List (Nat × Nat × Int) → Bool
  | [] => true
  | [_] => true
  | a :: c :: rest => decide (a.2.1 * 65536 + a.1 < c.2.1 * 65536 + c.1) && defectKeysRise (c :: rest)

def defectsOk (b : List Byte) : Bool :=
  let n := fieldLe b 0 4
  decide (n ≤ 65536) && b.length == 4 + 8 * n && defectKeysRise (defectsOf b) &&
  (List.range n).all (fun i => allZero ((b.drop (4 + 8 * i + 5)).take 3))

/-- Columns of the modes FULL, BINNED, HDR (09 R225, R256). -/
def colsOf (mode : Nat) : Nat := if mode = 1 then 4096 else 8192

def colTableOf (mode : Nat) (b : List Byte) : ColTable :=
  let n := byteAt b 0
  let temps := (List.range n).map (fun i => (BitVec.ofNat 8 (byteAt b (8 + i))).toInt)
  let w := colsOf mode
  ⟨temps, (List.range n).map (fun k => (List.range w).map (fun x =>
    (BitVec.ofNat 16 (fieldLe b (16 + 2 * (k * w + x)) 2)).toInt))⟩

def risesInt : List Int → Bool
  | [] => true
  | [_] => true
  | a :: c :: rest => decide (a < c) && risesInt (c :: rest)

def colTableOk (mode : Nat) (b : List Byte) : Bool :=
  let n := byteAt b 0
  decide (1 ≤ n) && decide (n ≤ 8) && allZero ((b.drop 1).take 7) &&
  b.length == 16 + 2 * n * colsOf mode &&
  risesInt ((List.range n).map (fun i => (BitVec.ofNat 8 (byteAt b (8 + i))).toInt))

/-- The image items of a body follow the table of 09 R256. -/
def calItemsOk (b : List Byte) : Bool :=
  let ok (id : Nat) (p : List Byte → Bool) : Bool :=
    match calItem b id with | some it => p it | none => true
  ok 1 defectsOk && ok 2 (fun it => it.length == 24576) && ok 3 (colTableOk 0) && ok 4 (colTableOk 1) &&
  ok 5 (colTableOk 2) &&
  ok 6 (fun it => it.length == 2 && decide (2048 ≤ leNat it) && decide (leNat it ≤ 4096))

/-- The image items of a body; what it does not hold is as without calibration (09 R257; log 38). -/
def imgCalOf (b : List Byte) : ImgCal where
  defects := match calItem b 1 with | some it => defectsOf it | none => []
  shading := match calItem b 2 with
    | some it => (List.range 12288).map (fun i => fieldLe it (2 * i) 2)
    | none => []
  cols := (List.range 3).map (fun m => match calItem b (3 + m) with
    | some it => colTableOf m it
    | none => ⟨[], []⟩)
  ratio := match calItem b 6 with | some it => leNat it | none => 4096

/-- OP and ARG of a policy body (R406). -/
def polOp (b : List Byte) : Nat := fieldLe b 0 2
def polArg (b : List Byte) : Nat := fieldLe b 2 2

/-- Regions that may be granted: 1, 8 and 10 to 15 (R407). -/
def grantable : Nat := 0xFD02

def polLayout (b : List Byte) : Bool :=
  decide (16 ≤ b.length) && allZero ((b.drop 4).take 12) &&
  (if polOp b = 1 then decide (1 ≤ polArg b) && decide (polArg b ≤ 4)
   else if polOp b = 2 then Nat.land (polArg b) (Nat.xor 0xFFFF grantable) == 0
   else polOp b == 3 && decide (polArg b < 2))

/-- The body layout of a KIND (R394 check 1); a template body is judged by its own status (R411, 11 R306). -/
def bodyLayout (c : Cmd) (b : List Byte) : Bool :=
  match c with
  | .enroll _ _ slot => enrollLayout slot.toNat b
  | .setTemplate .. => true
  | .calibrationLoad .. => calLayout b
  | _ => polLayout b

/-! ### The checks of R394 -/

/-- SIGNER is permitted for KIND in the lifecycle state (R395). -/
def signerAllowed (life kind signer : Nat) : Bool :=
  if life = 1 then kind != 1 && (signer == 0xFE || (signer == 0xFF && kind == 3))
  else (life == 2 || life == 3) && (decide (signer < 2) || (signer == 0xFF && kind == 3))

/-- The signer's keys and artefacts (R394 check 3; R408 for an enrolment, R409 for a revocation). -/
def State.signerMatches (s : State) (c : Cmd) (b : List Byte) : Bool :=
  let signer := contSigner b
  let body := contBody b
  let blk := contSigBlock b
  let owner (bit : Nat) : Bool := s.keysMatch signer blk && bitOf (s.slotArtefacts signer) bit
  match c with
  | .enroll _ _ slot =>
    if s.slotState 0 != 2 && s.slotState 1 != 2 then
      signer == slot.toNat && Sig.anchor blk == enrollAnchor body
    else signer == 1 - slot.toNat && owner 3
  | .setPolicy .. =>
    (if signer < 2 then owner 3 else s.keysMatch signer blk) &&
    (polOp body != 3 || (decide (signer < 2) && signer == 1 - polArg body))
  | _ =>
    if signer = 0xFF then true
    else if signer < 2 then owner (if kindOf c = 2 then 2 else 1)
    else s.keysMatch signer blk

/-- DEVICE_SERIAL, JNL_BIND, and the digest of an unsigned calibration body (R394 check 5, R410). `head` is
JNL_HEAD at acceptance. -/
def State.bindingOk (s : State) (head : Nat) (b : List Byte) : Bool :=
  let serial := fieldLe b 0x18 8
  let bind := fieldLe b 0x20 8
  (serial == 0 || serial == s.serial) && (bind == 0 || bind == head) &&
  (contSigner b != 0xFF ||
    (s.regionState 6 == 2 && wordsBytes s 192 6 == sha384 (contBody b)))

/-- The status of R394's checks, 0 when all pass. -/
def State.checkContainer (s : State) (c : Cmd) (head : Nat) (b : List Byte) : Nat :=
  if !(contLayout (kindOf c) b && bodyLayout c (contBody b)) then 0x0611
  else if !signerAllowed s.lifecycle (kindOf c) (contSigner b) then 0x0615
  else if !s.signerMatches c b then 0x0613
  else if contSigner b != 0xFF && !Sig.verifies (contSigBlock b) (sha384 (b.take (contSigned b))) then 0x0610
  else if !s.bindingOk head b then 0x0616
  else 0

/-! ### What an accepted container changes -/

/-- The precondition of a transition (R406), with the edge itself. -/
def State.transitionOk (s : State) (target : Nat) : Bool :=
  let l := s.lifecycle
  if l = 1 ∧ target = 2 then
    s.regionState 4 == 2 && s.readLocked 4 && s.regionState 5 == 2 && s.regionState 6 == 2
  else if l = 2 ∧ target = 3 then s.slotState 0 == 2 || s.slotState 1 == 2
  else target == 4 && decide (1 ≤ l) && decide (l ≤ 3)

/-- A slot reads as absent from the acceptance of its revocation on (R409). -/
def State.slotRevoked (s : State) (k : Nat) : State :=
  s.updFuse (fun f => { f with slotSt := f.slotSt.set k 3 })

/-- The words of an enrolment as one number (R408). -/
def packWords (ws : List Nat) : Nat := ws.foldr (fun w acc => w + acc * 2 ^ 64) 0

/-- An item of a calibration body written into the calibration tables, 1 MiB at the start of the line store, at a place
that is not stated (09 R244, R256; log 129). -/
def State.writeTable (s : State) (body : List Byte) (id : Nat) : State :=
  match calItem body id with
  | some it => s.writeMerged (lineBase + Config.calPlace id * 32 % (0x100001 - it.length)) it
  | none => s

/-- A calibration body takes effect (R410, 09 R256): its image items stand in the calibration tables, and frames use them
from the next frame start; ADC_TRIM waits for the next block boundary of a converter; READY.CAL. -/
def State.loadCalibration (s : State) (body : List Byte) : State :=
  let s := [1, 2, 3, 4, 5, 6].foldl (fun s id => s.writeTable body id) s
  let s := s.updImg (fun m => { m with calNext := some (imgCalOf body) })
  let s := match calItem body 0x10 with
    | some it => s.updWav (fun w => { w with trimNext := some it })
    | none => s
  (s.updTrust (fun t => { t with calDigest := some (sha384 body) })).setReady 18 true

/-- An accepted container takes effect; its command completes now or with its fuse programming. -/
def State.applyContainer (s : State) (a : Accepted) (b : List Byte) : State :=
  let body := contBody b
  let done (s : State) (st : Nat) : State := s.completeLater a st [] a.data
  match a.desc.cmd with
  | .enroll _ _ slot =>
    if s.slotState slot.toNat != 0 || s.writeLocked 3 then done s 0x0614
    else
      let ws := slotWords (enrollAnchor body) (fieldLe body 4 4) (fieldLe body 8 2)
      s.startJob (.enroll { a with num := packWords ws } slot.toNat)
  | .setTemplate t _ _ =>
    let (st, s) := s.installTemplate (fin32 t.toNat) body
    done s st
  | .calibrationLoad .. =>
    if calItemsOk body then done (s.loadCalibration body) 0 else done s 0x0304
  | .setPolicy .. =>
    if polOp body = 1 then
      if s.transitionOk (polArg body) then s.startJob (.transition a (polArg body)) else done s 0x0615
    else if polOp body = 2 then
      done (s.updTrust (fun t => { t with grant := polArg body })) 0
    else if (s.startOf (.revoke a (polArg body))) == .refuse 0x0604 [] then done s 0x0604
    else (s.startJob (.revoke a (polArg body))).slotRevoked (polArg body)
  | _ => done s 0x0010

/-- The check of a container ends (R394): `num` holds JNL_HEAD at acceptance. -/
def State.containerChecked (s : State) (a : Accepted) : State :=
  let (addr, n) := containerAt a.desc.cmd
  let (b, s) := s.readControl addr n
  let dig := sha384 b
  let a := { a with data := dig }
  let st := s.checkContainer a.desc.cmd a.num b
  if st = 0 then s.applyContainer a b else s.completeLater a st [] dig

/-- A container command is accepted: its check begins (R394). A range or a number that R341 does not give
completes it with CMD_BAD_ARGS, the digest of a readable container journalled (12 R353). -/
def State.beginContainer (s : State) (a : Accepted) : State :=
  let (addr, n) := containerAt a.desc.cmd
  let ok := State.containerRange addr n && (match a.desc.cmd with
    | .enroll _ _ k => decide (k.toNat < 2)
    | .setTemplate t _ _ => decide (t.toNat < 32)
    | _ => true)
  if ok then s.updTrust (fun t => { t with checks := t.checks ++ [{ a with num := s.jnl.head }] })
  else s.refuseContainer a addr n 0x0010

/-! ### Firmware slots (R397 to R399) -/

/-- Bytes of the flash; an erased byte reads FFH (log 2). -/
def State.flashBytes (s : State) (a n : Nat) : List Byte := SMap.getRange 0xFF s.trust.flash a n

def State.writeFlash (s : State) (a : Nat) (bs : List Byte) : State :=
  s.updTrust (fun t => { t with flash := SMap.setRange 0xFF t.flash a bs })

def slotBase (k : Nat) : Nat := k * 0x400000

/-- A slot erased: it holds no valid image until it is written (R401). -/
def State.eraseSlot (s : State) (k : Nat) : State :=
  s.updTrust (fun t => { t with flash := t.flash.filter (fun p => p.1 / 0x400000 != k) })

/-- IMAGE_LEN of a manifest. -/
def fwLen (b : List Byte) : Nat := fieldLe b 8 4

/-- The manifest layout of R398 with the layout of its signature block. -/
def manifestOk (b : List Byte) : Bool :=
  let n := fwLen b
  fieldLe b 0 4 == 0x57464C50 && fieldLe b 4 2 == 0x0100 && fieldLe b 6 2 == 256 &&
  decide (64 ≤ n) && decide (n ≤ 0x1FBC00) && n % 64 == 0 && byteAt b 0xD == 0xB1 && fieldLe b 0xE 2 == 0 &&
  decide (fieldLe b 0x14 4 < n) && allZero ((b.drop 0x48).take 0xB8) &&
  Sig.layout ((b.drop 0x100).take sigLen) 256 && Sig.keySlot (b.drop 0x100) == 0xFE

/-- The checks of R399 on a slot image, 0 when all pass; `b` holds the manifest, the block and the image. -/
def State.checkFirmware (s : State) (b : List Byte) : Nat :=
  let blk := (b.drop 0x100).take sigLen
  if !manifestOk b then 0x0611
  else if !s.keysMatch 0xFE blk then 0x0613
  else if !Sig.verifies blk (sha384 (b.take 256)) then 0x0610
  else if sha384 ((b.drop 0x4400).take (fwLen b)) != (b.drop 0x18).take 48 then 0x0616
  else if byteAt b 0xC < s.rollback then 0x0612
  else 0

/-- A slot's manifest, block and image as the boot ROM reads them. -/
def State.slotImage (s : State) (k : Nat) : List Byte :=
  let hd := s.flashBytes (slotBase k) 0x4400
  hd ++ s.flashBytes (slotBase k + 0x4400) (if fwLen hd ≤ 0x1FBC00 then fwLen hd else 0)

/-! ### Identity (R412) -/

/-- The digests of the public identity keys that belong to private keys: RSA_N with RSA_E, and SLH_PK (R392). -/
def identityAnchor (priv : List Byte) : List Byte :=
  Sig.anchorOf ((List.range 388).map (Config.publicKeyByte priv))
    ((List.range 48).map (fun i => Config.publicKeyByte priv (388 + i)))

/-- The identity store in the flash (R397), and the bytes of what it holds under the store key: a nonce of 12 bytes, 480
bytes of private keys, the tag of 16 bytes (DESIGN CHOICE, log 165). -/
def storeBase : Nat := 0x800000
def storeLen : Nat := 508

/-- Private keys under AES-256-GCM. -/
def storeSeal (key nonce priv : List Byte) : List Byte :=
  let ct := priv.mapIdx (fun i b => b ^^^ Config.gcmStream key nonce i)
  nonce ++ ct ++ (List.range 16).map (Config.gcmTag key nonce ct)

/-- The private keys in a store, none where it is absent or does not authenticate. -/
def storeOpen (key store : List Byte) : Option (List Byte) :=
  let nonce := store.take 12
  let ct := (store.drop 12).take 480
  if store.any (· != 0xFF) && store.drop 492 == (List.range 16).map (Config.gcmTag key nonce ct) then
    some (ct.mapIdx (fun i b => b ^^^ Config.gcmStream key nonce i))
  else none

/-- The store key of a device secret. -/
def storeKey (secret : List Nat) : List Byte := (List.range 32).map (Config.storeKeyByte secret)

/-- The store key, none while DEVICE_SECRET is not sealed. -/
def State.storeKeyNow (s : State) : Option (List Byte) :=
  if s.regionState 4 == 2 then some (storeKey ((List.range 31).map (fun i => s.shadowWord (128 + i)))) else none

/-- The private identity keys, none where the store does not decrypt (R412). -/
def State.identityPriv (s : State) : Option (List Byte) :=
  s.storeKeyNow.bind (storeOpen · (s.flashBytes storeBase storeLen))

/-- Bits of words from a main word on. -/
def FuseSt.wordsBits (f : FuseSt) (w : Nat) : List Nat → List Nat
  | [] => []
  | v :: vs => f.wordBits w v ++ f.wordsBits (w + 1) vs

/-- Bits programmed firm, one pulse each where one is needed (R380, R389). -/
def State.burn (s : State) (ps : List Nat) : State :=
  s.putOutcomes ((s.fuse.needed ps).map (fun p => (p, 1, 0)))

/-- The first boot in MANUFACTURED with DEVICE_SECRET EMPTY: the secret is generated, programmed, sealed and
read-locked; the identity keys are generated, the private ones written to the store and the digests of the public ones
programmed (log 39). -/
def State.generateIdentity (s : State) : State :=
  if s.lifecycle = 1 && s.regionState 4 == 0 && !s.writeLocked 4 && s.fuseReady s.fuse.vpp then
    let d := s.freeCtr
    let ws := (List.range 31).map (fun i => (Config.secretWord d i).toNat)
    let priv := (List.range 480).map (Config.identityByte d)
    let nonce := (List.range 12).map (fun i => Config.identityByte d (480 + i))
    let s := s.drawn 1
    let s := s.burn (s.fuse.wordsBits 128 (ws ++ [sealWord ws 4]))
    let s := s.burn (s.fuse.logicalBits 0 1 (2 ^ 20))
    let s := s.writeFlash storeBase (storeSeal (storeKey ws) nonce priv)
    let dig := identityAnchor priv
    let s := if !s.writeLocked 5 && s.regionState 5 != 2 then
        s.burn (s.fuse.wordsBits 162 ((List.range 12).map (fun i => fieldLe dig (8 * i) 8)))
      else s
    [0, 4, 5].foldl State.rejudge s
  else s

/-- The store decrypts and its keys' digests equal IDENTITY (R412). -/
def State.identityMatches (s : State) : Bool :=
  !failedState (s.regionState 5) &&
  (match s.identityPriv with
    | some priv => wordsBytes s 162 12 == identityAnchor priv
    | none => false)

/-! ### The start of the firmware (R399; 12 R356, R357; 16 R460) -/

/-- Entries written back into the ring. -/
def State.writeRestored (s : State) (i : Nat) : List (List Byte) → State
  | [] => s
  | e :: es => (s.writeB (journalBase + i % 16384 * 64) (fitBytes 64 e)).writeRestored (i + 1) es

/-- The journal after a device reset: the entries kept always-on go back to the ring, then a RESET entry; a new
chain begins with CHAIN_START. -/
def State.restoreJournal (s : State) : State :=
  let j := s.jnl
  let n := j.aon.length
  let s := s.writeRestored (j.head - n) j.aon.reverse
  let s : State := { s with jnl := { s.jnl with ringFrom := j.head - n } }
  if j.head = 0 then s.journalDev 0xFF00 0 []
  else
    s.journalDev 0xFF01 s.pwr.resetStatus
      (leBytes 4 (s.pwr.resetCause + s.pwr.resetCount * 256 + s.pwr.resetStatus * 65536) ++
        ((s.err.lastState.drop 0x18).take 8) ++ zeroBytes 4)

/-- The last-state record copied to Control SRAM (16 R460), with the status of an abandoned slot. -/
def State.publishLastState (s : State) : State :=
  let rec_ := if s.err.lastState.isEmpty then []
    else patchBytes s.err.lastState 0x36 (leBytes 2 s.trust.abandoned)
  let s := s.updErr (fun e => { e with lastState := rec_, lastHeld := !rec_.isEmpty })
  if rec_.isEmpty then s else s.writeB lastStateAddr rec_

/-- The erase of DEVICE_SECRET that RETIRED has left undone begins (R406). -/
def State.eraseLeft (s : State) : State :=
  if s.lifecycle = 4 && !(s.fuse.needed s.fuse.eraseBits).isEmpty then s.startJob .erase else s

/-- Firmware whose checks have passed starts: identity, journal, READY.TRUST and READY.JOURNAL. -/
def State.startFirmware (s : State) (slot : Nat) (b : List Byte) : State :=
  let s := s.updTrust (fun t => { t with
    slot := slot, boot := .running
    fw := ⟨fieldLe b 0x10 4, byteAt b 0xC, fwLen b, (b.drop 0x18).take 48⟩
    trialAt := s.tk.now, rollbackDue := false })
  let s := s.writeB ctlBase b
  let s := s.generateIdentity
  let s := s.updTrust (fun t => { t with identityOk := s.identityMatches })
  let s := s.publishLastState
  let s := if s.isReady 17 then s else s.restoreJournal
  ((s.setReady 2 true).setReady 17 true).eraseLeft

/-- A start-up failure's status is reported by the Periscope and by RESET_CAUSE.STATUS (R415). -/
def State.bootFailed (s : State) (status : Nat) : State :=
  s.updPwr (fun p => { p with startStatus := status, resetStatus := status })

/-- The straps as POLICY leaves them (R396). -/
def State.bootStrap (s : State) : Nat :=
  if bitOf s.fuse.startPolicy 2 || s.trust.bootSrc = 3 then 0 else s.trust.bootSrc

/-- The boot ROM tries the slots, or waits for a push (R396, R399). A fallback leaves the preference as it is, so every
later boot tries the preferred slot first (R400), but for one out of its trial (R402). -/
def State.bootRom (s : State) : State :=
  let strap := s.bootStrap
  if strap = 1 then s.updTrust (fun t => { t with boot := .waitPush })
  else
    let k := s.trust.preferred
    let b := s.slotImage k
    let st := s.checkFirmware b
    if st = 0 then s.startFirmware k b
    else
      let s := s.updTrust (fun t => { t with
        abandoned := st
        preferred := match t.trial with | some prev => prev | none => t.preferred, trial := none })
      let b := s.slotImage (1 - k)
      let st := s.checkFirmware b
      if st = 0 then s.startFirmware (1 - k) b
      else
        (s.bootFailed st).updTrust (fun t => { t with boot := if strap = 2 then .waitPush else .none })

/-- A slot image pushed by the host into the firmware range is checked (R399). -/
def State.bootPush (s : State) : State :=
  match s.trust.boot with
  | .waitPush =>
    let hd := s.readB ctlBase 0x4400
    let b := hd ++ s.readB (ctlBase + 0x4400) (if fwLen hd ≤ 0x1FBC00 then fwLen hd else 0)
    let st := s.checkFirmware b
    if st = 0 then s.startFirmware s.trust.preferred b else s.bootFailed st
  | _ => s

/-! ### Update, activation and anti-rollback (R401, R402) -/

/-- UPDATE_FIRMWARE is accepted: the image is checked; on success the slot that is not running is erased and
written. `data` keeps the image. -/
def State.beginUpdate (s : State) (a : Accepted) : State :=
  let (addr, n) := containerAt a.desc.cmd
  if !State.containerRange addr n then s.completeLater a 0x0010 [] []
  else
    let (b, s) := s.readControl addr n
    let st := if n = 0x4400 + fwLen b then s.checkFirmware b else 0x0611
    if st = 0 then
      (s.eraseSlot (1 - s.trust.slot)).updTrust (fun t => { t with update := some { a with data := b }, pending := none })
    else s.completeLater a st [] (sha384 b)

/-- Bytes of which nothing is known, a slot that did not read back as written. -/
def freeBytes (ctr n : Nat) : List Byte := (List.range ((n + 31) / 32)).flatMap (freeUnit ctr)

/-- The write of the slot ends: `ok` when the read-back agrees (R401). -/
def State.updateWritten (s : State) (a : Accepted) (ok : Bool) : State :=
  let k := 1 - s.trust.slot
  let s := s.updTrust (fun t => { t with update := none, pending := if ok then some k else t.pending })
  let s := s.writeFlash (slotBase k)
    (if ok then a.data else (freeBytes s.freeCtr a.data.length).take a.data.length)
  let s := if ok then s else s.drawn 1
  s.completeLater a (if ok then 0 else 0x0616) (if ok then leBytes 1 k else []) (sha384 a.data)

/-- UPDATE_FIRMWARE_WRITTEN (R401). -/
def execUpdateFirmwareWritten (ok : Bool) (s : State) : Host.Outcome State Fault Refusal :=
  match s.trust.update with
  | some a => .next (s.updateWritten a ok).noteIdle
  | none => .next s

/-- The first tick at which an activation may happen (R402). -/
def State.activationTick (s : State) : Nat :=
  match s.runningImage with
  | some im => roundUp (s.tk.tick + 2) im.h
  | none => s.tk.tick + 2

/-- The activation tick is fixed once shedding is at stage 0; CMD_DONE carries it (R402). -/
def State.fixActivation (s : State) : State :=
  match s.trust.activate with
  | some (a, k, none) =>
    if s.pwr.shed = 0 then
      let t := s.activationTick
      (s.updTrust (fun x => { x with activate := some (a, k, some t) })).completeLater a 0 (leBytes 8 t) []
    else s
  | _ => s

/-- ACTIVATE_FIRMWARE is accepted (R402). -/
def State.beginActivate (s : State) (a : Accepted) (k : Nat) : State :=
  if 1 < k then s.completeLater a 0x0010 [] []
  else if s.trust.pending != some k then s.completeLater a 0x0617 [] []
  else (s.updTrust (fun t => { t with activate := some (a, k, none) })).fixActivation

/-- The activation tick has come (R402). -/
def State.activationDue (s : State) (tick : Nat) : Bool :=
  match s.trust.activate with
  | some (_, _, some t) => decide (t ≤ tick)
  | _ => false

/-- At the activation edge the slot becomes preferred with a trial, and the device resets (R402). -/
def State.activateNow (s : State) : State :=
  match s.trust.activate with
  | some (_, k, _) =>
    let s := s.updTrust (fun t => { t with trial := some t.preferred, preferred := k })
    (s.internalReset 4 0 0xFF 0 0).startUp
  | none => s

/-- The anti-rollback counter is programmed up to the manifest's ROLLBACK, or stays due (R402). -/
def State.programRollback (s : State) : State :=
  if s.rollback < s.trust.fw.rollback then
    (s.updTrust (fun t => { t with rollbackDue := true })).startJob .rollback
  else s.updTrust (fun t => { t with rollbackDue := false })

/-- The instant at which the trial ends, 600 s after READY.TRUST (R402). -/
def State.trialEndAt (s : State) : Nat := s.trust.trialAt + 600000000000

/-- TRIAL_END (R402): 600 s after READY.TRUST, TIME at its instant or past it (log 1). -/
def execTrialEnd (s : State) : Host.Outcome State Fault Refusal :=
  match s.trust.trial, s.isReady 2 with
  | some _, true =>
    let s := s.setTime (max s.tk.now s.trialEndAt)
    .next (s.updTrust (fun t => { t with trial := none })).programRollback
  | _, _ => .next s

/-- ROLLBACK_RETRY (R402): every 60 s while the conditions were unmet. -/
def execRollbackRetry (s : State) : Host.Outcome State Fault Refusal :=
  .next (if s.trust.rollbackDue && s.fuse.op.isNone then s.programRollback else s)

/-! ### Attestation (R413, R414) -/

/-- An identity certificate in DER, as the factory has written it into the store (R412). -/
def State.certificate (s : State) (k : Nat) : List Byte :=
  let n := Config.certLen k % 0x8000
  s.flashBytes (storeBase + Config.certPlace k % (0x10001 - n)) n

/-- The certificates of the report: RSA first, each as its length and its DER, with zeros up to 64 bytes (log 165); none
without CERTS. -/
def State.certBytes (s : State) (certs : Bool) : List Byte :=
  let b := [0, 1].flatMap (fun k => leBytes 4 (s.certificate k).length ++ s.certificate k)
  if certs then fitBytes (roundUp b.length 64) b else []

/-- Bytes 0x000 to 0x1FF of the report. -/
def State.reportHead (s : State) (a : Accepted) (nonce : List Byte) : List Byte :=
  let flags := a.desc.flags.toNat
  let certs := (s.certBytes (bitOf flags 0)).length
  let dig (im : Option Image) : List Byte := match im with | some i => fitBytes 48 i.digest | none => zeroBytes 48
  let anchorBytes (k : Nat) : List Byte := match s.anchor k with | some b => b | none => zeroBytes 96
  leBytes 4 0x52414C50 ++ leBytes 2 0x0100 ++ leBytes 2 flags ++ leBytes 4 (0x4300 + certs) ++ leBytes 4 certs ++
  leBytes 8 s.serial ++ leBytes 8 a.time ++ leBytes 8 a.tick ++ leBytes 1 s.lifecycle ++ leBytes 1 0xB1 ++
  leBytes 1 s.trust.slot ++ leBytes 1 s.rollback ++ leBytes 4 s.trust.fw.version ++ fitBytes 32 nonce ++
  fitBytes 48 s.trust.fw.digest ++ dig s.sched.active ++ dig s.sched.staged ++
  (match s.trust.calDigest with | some d => fitBytes 48 d | none => zeroBytes 48) ++
  leBytes 8 s.jnl.head ++ fitBytes 16 s.jnl.chain ++ leBytes 1 s.policy ++ leBytes 1 (s.slotState 0) ++
  leBytes 1 (s.slotState 1) ++ leBytes 1 s.schedCode ++ zeroBytes 4 ++ anchorBytes 0 ++ anchorBytes 1 ++
  zeroBytes 16

/-- The whole report, signed by the private identity keys. -/
def signReport (priv head certs : List Byte) : List Byte :=
  let d := sha384 head
  head ++ (List.range 384).map (Config.identityRsaSig priv d) ++ (List.range 16224).map (Config.identitySlhSig priv d) ++
  zeroBytes 32 ++ certs

/-- An ATTEST cannot be signed: the identity check of the boot has failed, or IDENTITY or DEVICE_SECRET is absent now
(R412; 13 R377, R388). -/
def State.identityLost (s : State) : Bool :=
  !s.trust.identityOk || failedState (s.regionState 5) || failedState (s.regionState 4)

/-- The report of an ATTEST whose head has been made. -/
def State.attestReport (s : State) (a : Accepted) : List Byte :=
  signReport (s.identityPriv.getD []) a.data (s.certBytes (bitOf a.desc.flags.toNat 0))

/-- ATTEST is accepted: `data` keeps the report's head. -/
def State.beginAttest (s : State) (a : Accepted) (nonce : List Byte) (dst len : Nat) : State :=
  let certs := (s.certBytes (bitOf a.desc.flags.toNat 0)).length
  if len < 0x4300 + certs || !s.dstOk dst (0x4300 + certs) then s.completeLater a 0x0010 [] []
  else if s.identityLost then s.completeLater a 0x0616 [] []
  else s.updHost (fun h => { h with bg := h.bg.map (fun b =>
    if b.desc.seq = a.desc.seq then { b with data := s.reportHead a nonce } else b) })

/-- ATTEST_SIGNED (R413, R414): the report is signed and written, and the command completes. -/
def execAttestSigned (s : State) : Host.Outcome State Fault Refusal :=
  match s.bgOf 0x0D with
  | none => .next s
  | some a =>
    match a.desc.cmd with
    | .attest _ dst _ =>
      let r := s.attestReport a
      let (st, s) := s.writeResult dst.toNat r []
      .next (s.completeLater a st (if st = 0 then leBytes 4 r.length else []) (if st = 0 then sha384 r else [])).noteIdle
    | _ => .next s

end Sys2Proof.Machine
end

