-- ==== Sys2Proof/Machine/HostCmd.lean ====
section
/-! DEFINITION. Taking a descriptor (12 R335 to R340): its checks, what each command does, and the host's
commands as rows. -/

namespace Sys2Proof.Machine

/-! ### Parameter sets (R342) -/

/-- JOURNAL_MIRROR (06 R160): a change of the mirror's size starts it empty. -/
def State.setMirror (s : State) (b : List Byte) : Nat × State :=
  let j := byteAt b 0
  let base := hbmSize - j * 0x4000000
  let meets (im : Option Image) : Bool := match im with
    | some i => i.parts.any (fun p => decide (base < p.base + p.size))
    | none => false
  if 16 < j || !allZero (b.drop 1) then (0x0010, s)
  else if j = s.jnl.mirrorJ then (0, s)
  else if meets s.sched.active || meets s.sched.staged then (0x0010, s)
  else (0, { s with jnl := { s.jnl with mirrorJ := j, mirrorFrom := s.jnl.head, mirrorNext := s.jnl.head } })

/-- EVENT_DATA (R346): the data ring, empty. -/
def State.setEventData (s : State) (b : List Byte) : Nat × State :=
  let base := fieldLe b 0 8
  let size := fieldLe b 8 4
  if !allZero (b.drop 12) || size % 4096 != 0 || base % 4096 != 0 ||
      (size != 0 && !(decide (hostBase ≤ base) && decide (base + size ≤ 0x1000000000000))) then (0x0010, s)
  else (0, s.updHost (fun h => { h with dataBase := base, dataSize := size, dataPos := 0, dataUsed := [] }))

/-- Length of a set as its bytes give it, none for an unknown SET. -/
def setLength (set : Nat) (b : List Byte) : Option Nat :=
  if set = 0x12 then some (waveCalLen b)
  else if set = 0x23 then some (16 + 16 * fieldLe b 8 2)
  else if [0x01, 0x02, 0x03, 0x10, 0x11, 0x13, 0x20, 0x21, 0x22].contains set then some (inlineUsed set)
  else none

/-- A set of the right length takes effect, or is refused with its status. -/
def State.applySet (s : State) (set : Nat) (b : List Byte) : Nat × State :=
  if set = 0x01 then s.setDmaChain b
  else if set = 0x02 then s.setMirror b
  else if set = 0x03 then s.setEventData b
  else if set = 0x10 then s.setAnalogRef b
  else if set = 0x11 then s.setWavePeriod b
  else if set = 0x12 then s.setWaveCal b
  else if set = 0x13 then s.setOpenWire b
  else if set = 0x20 then s.setPortSet b
  else if set = 0x21 then s.setPtpSet b
  else if set = 0x22 then s.setEtSet b
  else s.setBeamSystem b

/-- The bytes of a set, inline or at ADDR; none where they cannot be had (log 149). -/
def State.setBytes (s : State) (flags len : Nat) (inl : List Byte) : Option (List Byte) × State :=
  if bitOf flags 0 then
    let a := fieldLe inl 0 8
    if rangeAll ringReads a len then
      let (b, s) := s.readControl a len
      (some b, s)
    else (none, s)
  else if len ≤ 48 then (some ((fitBytes 48 inl).take len), s)
  else (none, s)

/-- SET_PARAMS: status and state (R342). -/
def State.setParams (s : State) (flags set len : Nat) (inl : List Byte) : Nat × State :=
  match s.setBytes flags len inl with
  | (some b, s) => if setLength set b = some len then s.applySet set b else (0x0010, s)
  | (none, s) => (0x0010, s)

/-! ### READY bits (R338) -/

/-- The first 16 bytes of a set as they stand, inline or at ADDR: the READY bits that JOURNAL_MIRROR and DMA_CHAIN need
depend on them (log 149). -/
def State.setHead (s : State) (flags : Nat) (inl : List Byte) : List Byte :=
  if bitOf flags 0 then
    (if rangeAll ringReads (fieldLe inl 0 8) 16 then s.readB (fieldLe inl 0 8) 16 else zeroBytes 16)
  else inl

/-- Addresses that a command names. -/
def State.namedAddrs (s : State) (d : Desc) : List Nat :=
  match d.cmd with
  | .loadSchedule a _ => [a.toNat]
  | .stats a _ => [a.toNat]
  | .setParams set _ inl =>
    (if bitOf d.flags.toNat 0 then [fieldLe inl 0 8] else []) ++
    (if set.toNat = 1 then [fieldLe (s.setHead d.flags.toNat inl) 8 8] else [])
  | .globalOp k _ _ _ _ _ src _ => if k.toNat = 1 then [src.toNat] else []
  | .readCounters a _ => [a.toNat]
  | .readJournal _ _ a => [a.toNat]
  | .attest _ a _ => [a.toNat]
  | .enroll a _ _ => [a.toNat]
  | .updateFirmware a _ => [a.toNat]
  | .setTemplate _ a _ => [a.toNat]
  | .calibrationLoad a _ => [a.toNat]
  | .setPolicy a _ => [a.toNat]
  | _ => []

/-- Check 6 of R337. -/
def State.readyFor (s : State) (d : Desc) : Bool :=
  (s.namedAddrs d).all (fun a => match placeOf a with
    | .hbm => s.isReady 4
    | .host => s.isReady 15
    | _ => true) &&
  (match d.cmd with
    | .loadSchedule .. => s.isReady 4
    | .start _ => s.startReady
    | .setSensor _ => s.isReady 9
    | .calibrationLoad .. => s.isReady 9
    | .setParams set _ inl =>
      if set.toNat = 0x11 ∨ set.toNat = 0x12 ∨ set.toNat = 0x13 then s.isReady 11
      else if set.toNat = 0x02 then byteAt (s.setHead d.flags.toNat inl) 0 == 0 || s.isReady 4
      else if set.toNat = 0x03 then s.isReady 15
      else true
    | .globalOp .. => s.isReady 12 || s.isReady 13
    | _ => true)

/-- Check 7 of R337: a command of the same background opcode runs. GLOBAL_OP is a background command in its BARRIER and
BROADCAST kinds alone (R339), so the other kinds are not busy with those (DEDUCED, log 142). -/
def State.busyFor (s : State) (d : Desc) : Bool :=
  match d.cmd with
  | .loadSchedule .. => false
  | c => isBackground c && (s.bgOf (cmdOpcode c)).isSome

/-- The framing checks of R337 in their order: 0, or the status that refuses the descriptor. -/
def State.refuseDesc (s : State) (d : Desc) (b : List Byte) : Nat :=
  if (match s.host.expSeq with | some e => e != d.seq | none => false) then 2
  else if !descFormatOk d b then 3
  else if !lifecycleAllows s.lifecycle (cmdOpcode d.cmd) then 4
  else if 3 ≤ s.pwr.shed then 5
  else if !s.readyFor d then 6
  else if s.busyFor d then 7
  else 0

/-! ### Running commands (R339, R341) -/

/-- A command completes at once. -/
def State.finish (s : State) (a : Accepted) (st : Nat) (result : List Byte) : State :=
  s.completeLater a st (if st = 0 then result else []) []

/-- FUSE_PROGRAM, FUSE_SEAL and FUSE_LOCK need a grant outside MANUFACTURED (14 R405, R407). -/
def State.granted (s : State) (region : Nat) : Bool := s.lifecycle ≤ 1 || bitOf s.trust.grant region

/-- A fuse command begins, or lies outside the grant. -/
def State.beginFuse (s : State) (a : Accepted) (region : Nat) (j : FuseJob) : State :=
  if s.granted region then s.startJob j else s.completeLater a 0x0615 [] []

/-- STOP (02 R62): the tick at which it takes effect is RESULT. -/
def State.beginStopCmd (s : State) (a : Accepted) : State :=
  let boundary := bitOf a.desc.flags.toNat 0
  if s.sched.active.isNone && s.sched.start.isNone then s.completeLater a 0x0011 [] []
  else
    let t := s.stopTick boundary
    (s.completeLater a 0 (leBytes 8 t) []).beginStop boundary (bitOf a.desc.flags.toNat 1)

/-- DMA_ABORT (08 R220). -/
def State.beginAbort (s : State) (a : Accepted) (e c : Nat) : State :=
  if 4 < e ∨ 7 < c then s.completeLater a 0x0011 [] []
  else
    let (st, s) := s.abortChannel (fin5 e) (fin8 c)
    s.finish a 0 (leBytes 4 st)

/-- REGION_RESTART (16 R455): it completes with the last restart. -/
def State.beginRegionRestart (s : State) (a : Accepted) (mask : Nat) : State :=
  if !maskOk mask then s.completeLater a 0x0010 [] []
  else
    (s.updErr (fun e => { e with restartWait := BitVec.ofNat 7 mask, restartDone := 0 })).restartMask mask

/-- START (02 R60, R61), by what held at its acceptance: `num` is 1 where a LOAD_SCHEDULE was being checked (R339). -/
def State.beginStartCmd (s : State) (a : Accepted) (t : Nat) : State :=
  let st := s.refuseStart (a.num == 1) a.tick t
  if st ≠ 0 then s.completeLater a st [] [] else s.beginStart a.tick t (some a)

/-- The isolated region that a waiting command is work for, which is refused (01 R17; log 115). -/
def State.workOut (s : State) : Cmd → Bool
  | .setSensor _ => s.err.isolated.getLsbD 4
  | .setParams set _ _ => (set.toNat == 0x11 || set.toNat == 0x12 || set.toNat == 0x13) && s.analogOut
  | _ => false

/-- A foreground command runs. -/
def State.runFg (s : State) (a : Accepted) : State :=
  if s.workOut a.desc.cmd then s.completeLater a 0x0800 [] [] else
  match a.desc.cmd with
  | .start t => s.beginStartCmd a t.toNat
  | .stop => s.beginStopCmd a
  | .setParams set len inl =>
    let (st, s) := s.setParams a.desc.flags.toNat set.toNat len.toNat inl
    s.finish a st []
  | .setSensor set =>
    let (st, t, s) := s.setSensorSet s.tk.now (fitBytes 32 set)
    s.finish a st (leBytes 8 t)
  | .openWindow d w p k f r base size =>
    let (st, s) := s.openWindow d.toNat w.toNat p.toNat k.toNat f.toNat r.toNat base.toNat size.toNat
    s.finish a st []
  | .closeWindow d w =>
    let (st, s) := s.closeWindow d.toNat w.toNat
    s.finish a st []
  | .snapshot t =>
    let (ok, s) := s.armSnapshot a.tick t.toNat 1
    s.finish a (if ok then 0 else 0x0804) (leBytes 8 t.toNat)
  | .fuseSeal r => s.beginFuse a r.toNat (.seal a r.toNat)
  | .fuseLock r _ => s.beginFuse a r.toNat (.lock a)
  | .activateFirmware k => s.beginActivate a k.toNat
  | .dmaAbort e c => s.beginAbort a e.toNat c.toNat
  | .regionRestart m => s.beginRegionRestart a m.toNat
  | .setTemplate .. => s.beginContainer a
  | .setPolicy .. => s.beginContainer a
  | .globalOp .. => s.beginGlobal a
  | _ => s.completeLater a 0x0010 [] []

/-- A background read of the device fixes what it will write, or completes at once. -/
def State.holdResult (s : State) (a : Accepted) (bs : List Byte) (bads : List Nat) (num dst len : Nat) : State :=
  if len < bs.length || (!bs.isEmpty && !s.dstOk dst bs.length) then s.completeLater a 0x0010 [] []
  else s.updHost (fun h => { h with bg := h.bg.map (fun b =>
    if b.desc.seq = a.desc.seq then { b with data := bs, bads := bads, num := num } else b) })

/-- READ_JOURNAL (R359). -/
def State.beginReadJournal (s : State) (a : Accepted) (first n dst : Nat) : State :=
  if n = 0 || 65536 < n then s.completeLater a 0x0010 [] []
  else if first < s.jnl.tail || s.jnl.head < first + n then s.completeLater a 0x0012 [] []
  else
    let (bs, bads, s) := s.journalEntries first 0 n
    s.holdResult a bs bads s.jnl.head dst bs.length

/-- A background command begins. -/
def State.runBg (s : State) (a : Accepted) : State :=
  match a.desc.cmd with
  | .stats dst len =>
    match s.sched.active with
    | some im => s.holdResult a (s.figures im) [] 0 dst.toNat len.toNat
    | none => s.completeLater a 0x0011 [] []
  | .readCounters dst len =>
    match s.err.shadow with
    | some sh => s.holdResult a sh.dump [] sh.tick dst.toNat len.toNat
    | none => s.completeLater a 0x0011 [] []
  | .readJournal first n dst => s.beginReadJournal a first.toNat n.toNat dst.toNat
  | .attest nonce dst len => s.beginAttest a nonce dst.toNat len.toNat
  | .enroll .. => s.beginContainer a
  | .calibrationLoad .. => s.beginContainer a
  | .updateFirmware .. => s.beginUpdate a
  | .fuseProgram r _ src _ =>
    if 1 < src.toNat then s.completeLater a 0x0010 [] [] else s.beginFuse a r.toNat (.program a)
  | .globalOp .. => s.beginGlobal a
  | _ => s

/-- What a command fixes at its acceptance: a START, whether a LOAD_SCHEDULE is being checked (R339). -/
def State.acceptNum (s : State) (c : Cmd) : Nat :=
  match c with
  | .start _ => if (s.bgOf 0x01).isSome then 1 else 0
  | _ => 0

/-- A LOAD_SCHEDULE that finds another being checked, or a START of the staged image pending (02 R55). -/
def State.refuseLoad (s : State) (a : Accepted) : State :=
  let at_ := containerAt a.desc.cmd
  s.refuseContainer a at_.1 at_.2 0x020C

/-- An accepted command begins: in the background, in the foreground, or behind the foreground (R339). -/
def State.beginCmd (s : State) (a : Accepted) : State :=
  if isBackground a.desc.cmd then
    let busy := s.loadBusy && cmdOpcode a.desc.cmd == 1
    let s := s.updHost (fun h => { h with bg := h.bg ++ [a] })
    if busy then s.refuseLoad a else s.runBg a
  else if s.host.fg.isNone && s.host.deferred.isEmpty then (s.updHost (fun h => { h with fg := some a })).runFg a
  else s.updHost (fun h => { h with deferred := h.deferred ++ [a] })

/-- Foreground commands that waited run, in order, while none runs. -/
def State.runDeferredN (s : State) : Nat → State
  | 0 => s
  | n + 1 =>
    match s.host.fg, s.host.deferred with
    | none, a :: rest =>
      ((s.updHost (fun h => { h with fg := some a, deferred := rest })).runFg a).runDeferredN n
    | _, _ => s

def State.runDeferred (s : State) : State := s.runDeferredN (s.host.deferred.length + 1)

/-- What may have become possible after preloads, restarts and fuse operations: preload templates armed, the start
tick fixed, waiting foreground commands run (02 R61; R339). -/
def State.settle (s : State) : State := (s.armPreloads.fixStart).runDeferred

/-! ### Taking descriptors (R335 to R338) -/

/-- A refused descriptor (R337, R340). -/
def State.refuse (s : State) (seq opcode status : Nat) (result : List Byte) : State :=
  (s.count srcHost 1 1).cmdDone seq opcode status (2 ^ 64 - 1) result

/-- The path that owns the device, as the journal numbers it (R353). -/
def ownerPath (o : Owner) : Nat := match o with | .localbus => 1 | _ => 0

/-- A descriptor taken: refused, or accepted and begun. -/
def State.takeCmd (s : State) (d : Desc) (b : List Byte) : State :=
  let st := s.refuseDesc d b
  if st ≠ 0 then
    s.refuse d.seq.toNat (cmdOpcode d.cmd) st
      (match st, s.host.expSeq with | 2, some e => leBytes 4 e.toNat | _, _ => [])
  else
    let a : Accepted := ⟨d, b, ownerPath s.host.owner, s.tk.now, s.tk.tick, [], [], s.acceptNum d.cmd⟩
    (s.updHost (fun h => { h with expSeq := some (d.seq + 1) })).beginCmd a

/-- The 64 bytes of a slot taken. -/
def State.takeBytes (s : State) (b : List Byte) : State :=
  match descOf b with
  | some d => s.takeCmd d b
  | none => s.refuse (fieldLe b 4 4) (fieldLe b 0 2) 1 []

/-- Bytes of a slot of the ring in use. -/
def State.cmdSlot (s : State) (i : Nat) : List Byte :=
  match s.host.owner with
  | .localbus => SMap.getRange 0 s.host.mailbox (i * 64) 64
  | _ => s.ringRead (s.host.cmdBaseLo.toNat + s.host.cmdBaseHi.toNat * 2 ^ 32 + i * 64) 64

/-- A descriptor written into a slot. -/
def State.writeSlot (s : State) (i : Nat) (b : List Byte) : State :=
  match s.host.owner with
  | .localbus => s.updHost (fun h => { h with mailbox := SMap.setRange 0 h.mailbox (i * 64) b })
  | _ => s.ringWrite (s.host.cmdBaseLo.toNat + s.host.cmdBaseHi.toNat * 2 ^ 32 + i * 64) b

/-- CMD_GET advances (R335); a command to take ends the device's idleness (15 R433). -/
def State.advanceGet (s : State) : State :=
  (s.idleReset.updHost (fun h => { h with cmdGet := (h.cmdGet + 1) % s.cmdEntries })).irq 7

/-- Descriptors may be taken (R338); none is in a sleep state (15 R435, R437). -/
def State.serving (s : State) : Bool := s.isReady 2 && s.isReady 17 && s.pwr.phase == .running

/-- Descriptors between CMD_GET and CMD_PUT taken in slot order. -/
def State.serveRing (s : State) : Nat → State
  | 0 => s
  | n + 1 =>
    if s.cmdEntries = 0 || !s.serving || s.host.cmdGet == s.host.cmdPut then s
    else
      let b := s.cmdSlot s.host.cmdGet
      (s.advanceGet.takeBytes b).serveRing n

def State.serveAll (s : State) : State := s.serveRing 4096

/-- The owner's path serves (15 R447). -/
def State.pathReady (s : State) (o : Owner) : Bool :=
  match o with
  | .none => false
  | .pcie => s.isReady 15
  | .localbus => s.isReady 16

/-- A descriptor can be submitted: a ring in use with room, and its path. -/
def State.canSubmit (s : State) : Bool :=
  s.pathReady s.host.owner && s.cmdEntries != 0 &&
  decide ((s.host.cmdPut + 1) % s.cmdEntries ≠ s.host.cmdGet)

/-- The owner writes a descriptor into slot CMD_PUT and advances CMD_PUT (R335); earlier descriptors are taken
first, then this one. -/
def State.submit (s : State) (d : Desc) : State :=
  if !s.canSubmit then s
  else
    let b := descBytes d
    let i := s.host.cmdPut
    let s := s.writeSlot i b
    if !s.serving then s.updHost (fun h => { h with cmdPut := (h.cmdPut + 1) % s.cmdEntries })
    else
      let s := s.serveRing 4096
      let s := s.updHost (fun h => { h with cmdPut := (h.cmdPut + 1) % s.cmdEntries })
      s.advanceGet.takeCmd d b

/-! ### The host's commands -/

/-- LOAD_SCHEDULE (02 R55). -/
def execLoadSchedule (flags : Half) (seq : Word) (addr len : DWord) (s : State) :
    Host.Outcome State Fault Refusal := .next (s.submit ⟨.loadSchedule addr len, flags, seq⟩)

/-- START (02 R60, R61). -/
def execStart (flags : Half) (seq : Word) (t : DWord) (s : State) : Host.Outcome State Fault Refusal :=
  .next (s.submit ⟨.start t, flags, seq⟩)

/-- STOP (02 R62). -/
def execStop (flags : Half) (seq : Word) (s : State) : Host.Outcome State Fault Refusal :=
  .next (s.submit ⟨.stop, flags, seq⟩)

/-- STATS (16 R465). -/
def execStats (flags : Half) (seq : Word) (dst : DWord) (len : Word) (s : State) :
    Host.Outcome State Fault Refusal := .next (s.submit ⟨.stats dst len, flags, seq⟩)

/-- SET_PARAMS with DMA_CHAIN (08 R221). -/
def execDmaChain (flags : Half) (seq : Word) (len : Half) (inl : List Byte) (s : State) :
    Host.Outcome State Fault Refusal := .next (s.submit ⟨.setParams 0x1 len (fitBytes 48 inl), flags, seq⟩)

/-- SET_PARAMS with JOURNAL_MIRROR (06 R160). -/
def execJournalMirror (flags : Half) (seq : Word) (len : Half) (inl : List Byte) (s : State) :
    Host.Outcome State Fault Refusal := .next (s.submit ⟨.setParams 0x2 len (fitBytes 48 inl), flags, seq⟩)

/-- SET_PARAMS with EVENT_DATA (12 R346). -/
def execEventData (flags : Half) (seq : Word) (len : Half) (inl : List Byte) (s : State) :
    Host.Outcome State Fault Refusal := .next (s.submit ⟨.setParams 0x3 len (fitBytes 48 inl), flags, seq⟩)

/-- SET_PARAMS with ANALOG_REF (10 R278, R292). -/
def execAnalogRef (flags : Half) (seq : Word) (len : Half) (inl : List Byte) (s : State) :
    Host.Outcome State Fault Refusal := .next (s.submit ⟨.setParams 0x10 len (fitBytes 48 inl), flags, seq⟩)

/-- SET_PARAMS with WAVE_PERIOD (10 R267). -/
def execWavePeriod (flags : Half) (seq : Word) (len : Half) (inl : List Byte) (s : State) :
    Host.Outcome State Fault Refusal := .next (s.submit ⟨.setParams 0x11 len (fitBytes 48 inl), flags, seq⟩)

/-- SET_PARAMS with WAVE_CAL (10 R270, R292). -/
def execWaveCal (flags : Half) (seq : Word) (len : Half) (inl : List Byte) (s : State) :
    Host.Outcome State Fault Refusal := .next (s.submit ⟨.setParams 0x12 len (fitBytes 48 inl), flags, seq⟩)

/-- SET_PARAMS with OPEN_WIRE (10 R287). -/
def execOpenWire (flags : Half) (seq : Word) (len : Half) (inl : List Byte) (s : State) :
    Host.Outcome State Fault Refusal := .next (s.submit ⟨.setParams 0x13 len (fitBytes 48 inl), flags, seq⟩)

/-- SET_PARAMS with PORT (11 R295, R297). -/
def execPort (flags : Half) (seq : Word) (len : Half) (inl : List Byte) (s : State) :
    Host.Outcome State Fault Refusal := .next (s.submit ⟨.setParams 0x20 len (fitBytes 48 inl), flags, seq⟩)

/-- SET_PARAMS with PTP (11 R301, R303). -/
def execPtp (flags : Half) (seq : Word) (len : Half) (inl : List Byte) (s : State) :
    Host.Outcome State Fault Refusal := .next (s.submit ⟨.setParams 0x21 len (fitBytes 48 inl), flags, seq⟩)

/-- SET_PARAMS with EVENT_TIMER (11 R305). -/
def execEventTimer (flags : Half) (seq : Word) (len : Half) (inl : List Byte) (s : State) :
    Host.Outcome State Fault Refusal := .next (s.submit ⟨.setParams 0x22 len (fitBytes 48 inl), flags, seq⟩)

/-- SET_PARAMS with BEAM_SYSTEM (11 R310). -/
def execBeamSystem (flags : Half) (seq : Word) (len : Half) (inl : List Byte) (s : State) :
    Host.Outcome State Fault Refusal := .next (s.submit ⟨.setParams 0x23 len (fitBytes 48 inl), flags, seq⟩)

/-- OPEN_WINDOW (11 R312). -/
def execOpenWindow (flags : Half) (seq : Word) (dir window peer kind facet region : Byte) (base size : DWord)
    (s : State) : Host.Outcome State Fault Refusal :=
  .next (s.submit ⟨.openWindow dir window peer kind facet region base size, flags, seq⟩)

/-- CLOSE_WINDOW (11 R312). -/
def execCloseWindow (flags : Half) (seq : Word) (dir window : Byte) (s : State) :
    Host.Outcome State Fault Refusal := .next (s.submit ⟨.closeWindow dir window, flags, seq⟩)

/-- GLOBAL_OP with KIND 0 BARRIER (11 R315, R316). -/
def execGlobalBarrier (flags : Half) (seq : Word) (window : Byte) (opId : Word) (tick : DWord) (arg timeout : Word)
    (src : DWord) (len : Word) (s : State) : Host.Outcome State Fault Refusal :=
  .next (s.submit ⟨.globalOp 0 window opId tick arg timeout src len, flags, seq⟩)

/-- GLOBAL_OP with KIND 1 BROADCAST (11 R315, R316). -/
def execGlobalBroadcast (flags : Half) (seq : Word) (window : Byte) (opId : Word) (tick : DWord) (arg timeout : Word)
    (src : DWord) (len : Word) (s : State) : Host.Outcome State Fault Refusal :=
  .next (s.submit ⟨.globalOp 1 window opId tick arg timeout src len, flags, seq⟩)

/-- GLOBAL_OP with KIND 2 SNAPSHOT (11 R315, R316). -/
def execGlobalSnapshot (flags : Half) (seq : Word) (window : Byte) (opId : Word) (tick : DWord) (arg timeout : Word)
    (src : DWord) (len : Word) (s : State) : Host.Outcome State Fault Refusal :=
  .next (s.submit ⟨.globalOp 2 window opId tick arg timeout src len, flags, seq⟩)

/-- GLOBAL_OP with KIND 3 START (11 R315, R316). -/
def execGlobalStart (flags : Half) (seq : Word) (window : Byte) (opId : Word) (tick : DWord) (arg timeout : Word)
    (src : DWord) (len : Word) (s : State) : Host.Outcome State Fault Refusal :=
  .next (s.submit ⟨.globalOp 3 window opId tick arg timeout src len, flags, seq⟩)

/-- GLOBAL_OP with KIND 4 STOP (11 R315, R316). -/
def execGlobalStop (flags : Half) (seq : Word) (window : Byte) (opId : Word) (tick : DWord) (arg timeout : Word)
    (src : DWord) (len : Word) (s : State) : Host.Outcome State Fault Refusal :=
  .next (s.submit ⟨.globalOp 4 window opId tick arg timeout src len, flags, seq⟩)

/-- GLOBAL_OP with KIND 5 RESTART (11 R315, R316). -/
def execGlobalRestart (flags : Half) (seq : Word) (window : Byte) (opId : Word) (tick : DWord) (arg timeout : Word)
    (src : DWord) (len : Word) (s : State) : Host.Outcome State Fault Refusal :=
  .next (s.submit ⟨.globalOp 5 window opId tick arg timeout src len, flags, seq⟩)

/-- SNAPSHOT (16 R463). -/
def execSnapshot (flags : Half) (seq : Word) (tick : DWord) (s : State) :
    Host.Outcome State Fault Refusal := .next (s.submit ⟨.snapshot tick, flags, seq⟩)

/-- READ_COUNTERS (16 R462, R463). -/
def execReadCounters (flags : Half) (seq : Word) (dst : DWord) (len : Word) (s : State) :
    Host.Outcome State Fault Refusal := .next (s.submit ⟨.readCounters dst len, flags, seq⟩)

/-- READ_JOURNAL (12 R359). -/
def execReadJournal (flags : Half) (seq : Word) (first : DWord) (count : Word) (dst : DWord) (s : State) :
    Host.Outcome State Fault Refusal := .next (s.submit ⟨.readJournal first count dst, flags, seq⟩)

/-- ATTEST (14 R413, R414). -/
def execAttest (flags : Half) (seq : Word) (nonce : List Byte) (dst : DWord) (len : Word) (s : State) :
    Host.Outcome State Fault Refusal := .next (s.submit ⟨.attest (fitBytes 32 nonce) dst len, flags, seq⟩)

/-- ENROLL (14 R408). -/
def execEnroll (flags : Half) (seq : Word) (addr : DWord) (len : Word) (slot : Byte) (s : State) :
    Host.Outcome State Fault Refusal := .next (s.submit ⟨.enroll addr len slot, flags, seq⟩)

/-- FUSE_PROGRAM (13 R381). -/
def execFuseProgram (flags : Half) (seq : Word) (region word source : Byte) (bits : DWord) (s : State) :
    Host.Outcome State Fault Refusal := .next (s.submit ⟨.fuseProgram region word source bits, flags, seq⟩)

/-- FUSE_SEAL (13 R382). -/
def execFuseSeal (flags : Half) (seq : Word) (region : Byte) (s : State) :
    Host.Outcome State Fault Refusal := .next (s.submit ⟨.fuseSeal region, flags, seq⟩)

/-- FUSE_LOCK (13 R383). -/
def execFuseLock (flags : Half) (seq : Word) (region kind : Byte) (s : State) :
    Host.Outcome State Fault Refusal := .next (s.submit ⟨.fuseLock region kind, flags, seq⟩)

/-- UPDATE_FIRMWARE (14 R401). -/
def execUpdateFirmware (flags : Half) (seq : Word) (addr : DWord) (len : Word) (s : State) :
    Host.Outcome State Fault Refusal := .next (s.submit ⟨.updateFirmware addr len, flags, seq⟩)

/-- ACTIVATE_FIRMWARE (14 R402). -/
def execActivateFirmware (flags : Half) (seq : Word) (slot : Byte) (s : State) :
    Host.Outcome State Fault Refusal := .next (s.submit ⟨.activateFirmware slot, flags, seq⟩)

/-- SET_TEMPLATE (11 R306; 14 R411). -/
def execSetTemplate (flags : Half) (seq : Word) (tmpl : Byte) (addr : DWord) (len : Word) (s : State) :
    Host.Outcome State Fault Refusal := .next (s.submit ⟨.setTemplate tmpl addr len, flags, seq⟩)

/-- DMA_ABORT (08 R220). -/
def execDmaAbort (flags : Half) (seq : Word) (engine channel : Byte) (s : State) :
    Host.Outcome State Fault Refusal := .next (s.submit ⟨.dmaAbort engine channel, flags, seq⟩)

/-- REGION_RESTART (16 R455). -/
def execRegionRestart (flags : Half) (seq : Word) (mask : Half) (s : State) :
    Host.Outcome State Fault Refusal := .next (s.submit ⟨.regionRestart mask, flags, seq⟩)

/-- CALIBRATION_LOAD (14 R410). -/
def execCalibrationLoad (flags : Half) (seq : Word) (addr : DWord) (len : Word) (s : State) :
    Host.Outcome State Fault Refusal := .next (s.submit ⟨.calibrationLoad addr len, flags, seq⟩)

/-- SET_POLICY with a TRANSITION container (14 R406). -/
def execTransition (flags : Half) (seq : Word) (addr : DWord) (len : Word) (s : State) :
    Host.Outcome State Fault Refusal := .next (s.submit ⟨.setPolicy addr len, flags, seq⟩)

/-- SET_POLICY with a FUSE_GRANT container (14 R407). -/
def execFuseGrant (flags : Half) (seq : Word) (addr : DWord) (len : Word) (s : State) :
    Host.Outcome State Fault Refusal := .next (s.submit ⟨.setPolicy addr len, flags, seq⟩)

/-- SET_POLICY with a REVOKE_SLOT container (14 R409). -/
def execRevokeSlot (flags : Half) (seq : Word) (addr : DWord) (len : Word) (s : State) :
    Host.Outcome State Fault Refusal := .next (s.submit ⟨.setPolicy addr len, flags, seq⟩)

/-- SET_SENSOR (09 R230 to R232). -/
def execSetSensor (flags : Half) (seq : Word) (set : List Byte) (s : State) :
    Host.Outcome State Fault Refusal := .next (s.submit ⟨.setSensor (fitBytes 32 set), flags, seq⟩)

end Sys2Proof.Machine
end

