-- ==== Sys2Proof/Machine/Levels.lean ====
section
/-! DEFINITION. Performance levels (15 R426 to R430): the target, the change in steps, and the temperature. -/

namespace Sys2Proof.Machine

/-- VID_CORE of a level (R426). -/
def levelVid (l : Nat) : Nat := if l = 0 then 56 else if l = 1 then 40 else if l = 2 then 26 else 14

/-- The level that a VID_CORE code belongs to. -/
def vidLevel (v : Nat) : Nat := if v = 56 then 0 else if v = 40 then 1 else if v = 26 then 2 else 3

/-- The target level (R427). -/
def State.targetLevel (s : State) : Nat :=
  if 1 ≤ s.pwr.shed then 3
  else if s.host.perfAuto then (match s.runningImage with | some im => im.floor | none => 3)
  else s.host.perfLevel

/-- The idle PLL set to the frequency of a level; one that has it already stays judged (R420). -/
def Power.setIdle (p : Power) (l : Nat) : Power :=
  if p.idleLevel = l then p else { p with idleLevel := l, idleJudged := false }

/-- VID_CORE moved; PGOOD_CORE is awaited again (R428). -/
def Power.setVid (p : Power) (v : Nat) : Power :=
  if p.vid = v then p else { p with vid := v, pgoodCore := false }

/-- A change to a level begins at the level in force (R428); back at that level, VID_CORE returns. Where VID_CORE has
the new code already and PGOOD_CORE is high, the settling of 50 µs begins at once. -/
def Power.beginLevel (p : Power) (t : Nat) : Power :=
  if t < p.level then
    let q := (p.setIdle t).setVid (levelVid t)
    let v := levelVid p.level
    { q with change := some (if q.pgoodCore then .upSettle t v else .up t v) }
  else if p.level < t then { p.setIdle t with change := some (.down t) }
  else if p.vid = levelVid p.level then { p.setIdle 3 with change := none }
  else { (p.setIdle 3).setVid (levelVid p.level) with change := some (.downWait (levelVid p.level)) }

/-- A new target (R428): before the switch it replaces the old one, after it waits. -/
def Power.newTarget (p : Power) (t : Nat) : Power :=
  match p.change with
  | none => if t = p.level then p else p.beginLevel t
  | some (.up x _) => if t = x then p else p.beginLevel t
  | some (.upSettle x _) => if t = x then p else p.beginLevel t
  | some (.upReady x _) => if t = x then p else p.beginLevel t
  | some (.down x) => if t = x then p else p.beginLevel t
  | some (.downWait _) => { p with nextTarget := some t }
  | some (.downSettle _) => { p with nextTarget := some t }

/-- The target is decided anew (R427); one below a running schedule's floor is refused (02 R63). While EN_CORE is
low VID_CORE holds 14 (17 R475), and the target is taken up when the Facets have power again. -/
def State.retarget (s : State) : State :=
  let t := s.targetLevel
  let floor := match s.runningImage with | some im => im.floor | none => 3
  if s.pwr.shed = 0 ∧ floor < t then s.powerRec 0x0216 1 t s.pwr.level 0 0 0 0
  else if s.pwr.enCore then s.updPwr (fun p => p.newTarget t)
  else s

/-- A change is complete: its POWER record, and the target that waited (R428). -/
def State.levelDone (s : State) (prev : Nat) : State :=
  let nxt := s.pwr.nextTarget
  let s := s.updPwr (fun p => { p with change := none, nextTarget := none })
  let s := if prev = s.pwr.level then s else s.powerRec 0 0 s.pwr.level prev 0 0 0 0
  match nxt with
  | some t => s.updPwr (fun p => p.newTarget t)
  | none => s

/-- The FACET domain moves to the idle PLL at a tick edge (R420, R422, R428): eight cycles of each clock are lost. -/
def State.switchLevel (s : State) (t : Nat) : State :=
  let prev := s.pwr.level
  let s := s.updPwr (fun p => { p with level := t, idleLevel := prev, idleJudged := true })
  s.updPwr (fun p => p.setIdle 3)

/-- LEVEL_SWITCH at a tick edge: a change that is ready switches. -/
def State.levelEdge (s : State) : State :=
  let prev := s.pwr.level
  match s.pwr.change with
  | some (.upReady t _) =>
    if s.pwr.idleJudged && s.pwr.idleLevel == t then (s.switchLevel t).levelDone prev else s
  | some (.down t) =>
    if s.pwr.idleJudged && s.pwr.idleLevel == t then
      (s.switchLevel t).updPwr (fun p =>
        { p.setVid (levelVid t) with change := some (.downWait (levelVid prev)) })
    else s
  | _ => s

/-- PGOOD_CORE rises during a change (R428). -/
def State.levelPgood (s : State) : State :=
  match s.pwr.change with
  | some (.up t v) => s.updPwr (fun p => { p with change := some (.upSettle t v) })
  | some (.downWait v) => s.updPwr (fun p => { p with change := some (.downSettle v) })
  | _ => s

/-- VSET_SETTLED (R428): 50 µs after PGOOD_CORE. -/
def execVsetSettled (s : State) : Host.Outcome State Fault Refusal :=
  .next (match s.pwr.change with
    | some (.upSettle t v) => s.updPwr (fun p => { p with change := some (.upReady t v) })
    | some (.downSettle v) => s.levelDone (vidLevel v)
    | _ => s)

/-- PGOOD_CORE has not returned within 1 ms of a VID_CORE change: the previous code returns, the level stays, and PENDING
clears (R429). A change to a slower level whose switch still waits holds the code that an abandoned change has raised.
Outside a change the supply has failed (R443; log 84). -/
def State.levelFails (s : State) : State :=
  let fail (s : State) (t v : Nat) : State :=
    let s := s.updPwr (fun p => { p.setIdle 3 with vid := v, change := none })
    let s := s.powerRec 0x0700 2 t s.pwr.level 0 0 0 0
    match s.pwr.nextTarget with
    | some n => s.updPwr (fun p => { p with nextTarget := none }.newTarget n)
    | none => s
  match s.pwr.change with
  | some (.up t v) => fail s t v
  | some (.downWait v) => fail s s.pwr.level v
  | some (.down t) => if s.pwr.vid = levelVid s.pwr.level then s.supplyReset else fail s t (levelVid s.pwr.level)
  | _ => s.supplyReset

/-! ### Temperature (R430) -/

/-- A new reading of the logic-die temperature, in 1/16 °C. -/
def State.setLogic (s : State) (t : Int) : State :=
  (s.updPwr (fun p => { p with logicT := t, logicMax := max p.logicMax t })).fuseCheck

/-- THERMAL_CROSSING (R430): at 100 °C a report, at 115 °C the trip. -/
def execThermalCrossing (t : Int) (s : State) : Host.Outcome State Fault Refusal :=
  let s := s.setLogic t
  if 1840 ≤ t && s.alive then .next (s.fatal 0x0704 7 9 0)
  else if 1600 ≤ t && s.pwr.hotArmed then
    let s := s.updPwr (fun p => { p with hotArmed := false })
    .next (if s.isReady 3 then s.powerRec 0x0704 3 0 0 0 0 0 0 else s)
  else .next s

/-- THERMAL_REARM (R430): below 95 °C the crossing is armed again, and a device held by the trip starts. -/
def execThermalRearm (t : Int) (s : State) : Host.Outcome State Fault Refusal :=
  let s := s.setLogic t
  if 1520 ≤ t then .next s
  else
    let s := s.updPwr (fun p => { p with hotArmed := true })
    .next (if s.pwr.phase = .tripped then s.startUp else s)

end Sys2Proof.Machine
end

