-- ==== Sys2Proof/Machine/Shed.lean ====
section
/-! DEFINITION. The supply monitor and shedding (15 R441 to R446; 02 R67 to R69): crossings, the stages entered
and undone at tick edges, and what each does. -/

namespace Sys2Proof.Machine

/-! ### Levels of the monitor (R441) -/

/-- The setpoint against which VDD_CORE is judged, in mV: the lower of old and new while a change is pending. -/
def Power.coreSetpoint (p : Power) : Nat :=
  let v := match p.change with
    | some (.up _ o) => min p.vid o
    | some (.upSettle _ o) => min p.vid o
    | some (.upReady _ o) => min p.vid o
    | some (.downWait o) => min p.vid o
    | some (.downSettle o) => min p.vid o
    | some (.down t) => min p.vid (levelVid t)
    | none => p.vid
  500 + 5 * v

/-- An input lies below warning level k (1 to 3) raised by its hysteresis (`up`) or not. Inputs: 0 VIN_SENSE,
1 VDD_CORE, 2 VDD_SOC, 3 VDD_IO. -/
def Power.underW (p : Power) (i k mv : Nat) (up : Bool) : Bool :=
  let h (n : Nat) : Nat := if up then n else 0
  if i = 1 then
    let sp := p.coreSetpoint
    decide (100 * mv < sp * (if k = 1 then 95 else if k = 2 then 93 else 91) + h sp)
  else
    let w := match i, k with
      | 0, 1 => 900 | 0, 2 => 850 | 0, _ => 800
      | 2, 1 => 712 | 2, 2 => 697 | 2, _ => 682
      | _, 1 => 1710 | _, 2 => 1674 | _, _ => 1638
    decide (mv < w + h (if i = 0 then 20 else if i = 2 then 8 else 18))

/-- An input lies below its reset level; input 4 is VDD_SRAM. -/
def Power.underReset (p : Power) (i mv : Nat) : Bool :=
  if i = 1 then decide (100 * mv < p.coreSetpoint * 88)
  else decide (mv < (if i = 0 then 700 else if i = 2 then 660 else if i = 3 then 1584 else 660))

/-- The highest value of an input within the absolute maximum ratings (17 R469), in mV. -/
def maxMv (i : Nat) : Nat := if i = 1 then 900 else if i = 2 ∨ i = 4 then 880 else 2100

/-- An input counts as above W_k plus its hysteresis: by its value, while its monitor is off, or before any value
of it has been seen (log 40). -/
def Power.clear (p : Power) (i k mv : Nat) : Bool := mv == 0 || (i == 1 && !p.enCore) || !p.underW i k mv true

/-- A new value of an input (R442): levels newly crossed, the lowest value, and since when it is clear of each. -/
def Power.measure (p : Power) (i : Fin 5) (mv now : Nat) : Power :=
  let x := p.supply[i]
  let ks : List Nat := [1, 2, 3]
  let monitored := i.val < 4 && !(i.val == 1 && !p.enCore)
  let crossed (k : Nat) : Bool := bitOf x.below (k - 1)
  let below := ks.foldl (fun m k =>
    if monitored && p.underW i.val k mv false then Nat.lor m (2 ^ (k - 1))
    else if p.clear i.val k mv then Nat.land m (Nat.xor 7 (2 ^ (k - 1))) else m) x.below
  let crossAt := ks.map (fun k => if bitOf below (k - 1) && !crossed k then now else x.crossAt.getD (k - 1) 0)
  let aboveAt := ks.map (fun k =>
    if p.clear i.val k mv && !p.clear i.val k x.mv then now else x.aboveAt.getD (k - 1) 0)
  let low := if x.low = 0 then mv else min x.low mv
  let y : SupplyIn := ⟨mv, below, low, crossAt, aboveAt⟩
  { p with supply := p.supply.set i y }

/-- Levels that some monitored input has crossed (SUPPLY.BELOW). -/
def Power.belowMask (p : Power) : Nat :=
  (List.range 4).foldl (fun m i => match p.supply[i]? with
    | some x => if i = 1 ∧ p.enCore = false then m else Nat.lor m x.below
    | none => m) 0

/-- The deepest level crossed, which is the target stage (R442). -/
def Power.deepest (p : Power) : Nat :=
  let m := p.belowMask
  if bitOf m 2 then 3 else if bitOf m 1 then 2 else if bitOf m 0 then 1 else 0

/-- The target stage follows the levels crossed; the cause is the lowest-numbered input that has crossed it. -/
def Power.aim (p : Power) : Power :=
  let t := p.deepest
  let cause := (List.range 4).find? (fun i => match p.supply[i]? with
    | some x => bitOf x.below (t - 1) && !(i == 1 && !p.enCore)
    | none => false)
  { p with target := t, cause := if p.target < t then cause.getD 0xFF else p.cause }

/-- EN_CORE goes low, with VID_CORE at 14 and the level at PL3 (17 R475). The monitor of VDD_CORE is off from then on, so its
crossings are undone and the target follows the other inputs (R441, R445; log 167). -/
def Power.coreOff (p : Power) (now : Nat) : Power :=
  let x := p.supply[1]
  let aboveAt := [1, 2, 3].map (fun k => if p.clear 1 k x.mv then x.aboveAt.getD (k - 1) 0 else now)
  { p with
    enCore := false, pgoodCore := false, vid := 14, level := 3, change := none, nextTarget := none
    idleLevel := 3, idleJudged := false, supply := p.supply.set 1 { x with below := 0, aboveAt := aboveAt } }.aim

/-- A value of an input is taken. -/
def State.measured (s : State) (i : Fin 5) (mv : Nat) : State :=
  s.updPwr (fun p => (p.measure i mv s.tk.now).aim)

/-- The five inputs from the four that have warning levels. -/
def fin5of4 (i : Fin 4) : Fin 5 := ⟨i.val, Nat.lt_succ_of_lt i.isLt⟩

/-! ### The journal around stage 3 (12 R356 to R358) -/

/-- Device entries wait for the journal to be restored after a reset, which its first entry brings about. -/
def State.openJournal (s : State) : State :=
  if s.isReady 17 then s else (s.restoreJournal).setReady 17 true

/-- The mirror's next entry. -/
def State.mirrorTo (s : State) (i : Nat) : State := { s with jnl := { s.jnl with mirrorNext := i } }

/-- Entries not yet in the mirror copied to HBM, under the control bucket (12 R355; 06 R166). -/
def State.mirrorEntries (s : State) : Nat → State
  | 0 => s
  | n + 1 =>
    if s.jnl.mirrorJ = 0 || s.jnl.head ≤ s.jnl.mirrorNext then s
    else
      let i := s.jnl.mirrorNext
      let bs := s.readB (journalBase + i % 16384 * 64) 64
      ((((s.writeDev (s.mirrorSlot i) bs []).1).takeControl 64).mirrorTo (i + 1)).mirrorEntries n

/-- Every entry still in the ring and not mirrored is copied. -/
def State.mirrorAll (s : State) : State :=
  let s := s.mirrorTo (max s.jnl.mirrorNext s.jnl.ringFrom)
  if s.isReady 4 then s.mirrorEntries (s.jnl.head - s.jnl.mirrorNext + 1) else s

/-- JOURNAL_MIRROR_COPY (12 R355). -/
def execJournalMirrorCopy (s : State) : Host.Outcome State Fault Refusal := .next s.mirrorAll

/-- JOURNAL_SEALED and the seal (12 R358). -/
def State.sealJournal (s : State) : State :=
  let s := (s.openJournal.journalDev 0xFF03 0 (leBytes 8 s.tk.tick)).mirrorAll
  { s with jnl := { s.jnl with sealed := true } }

def State.unsealJournal (s : State) : State :=
  let s := s.openJournal.journalDev 0xFF04 0 (leBytes 8 s.tk.tick)
  { s with jnl := { s.jnl with sealed := false } }

/-! ### The stages (R443, R445) -/

/-- A SHED record (R446); in a sleep state it waits for the exit (R444). -/
def State.shedRec (s : State) (status new prev input low time edge : Nat) : State :=
  let pl := leBytes 1 new ++ leBytes 1 prev ++ leBytes 1 input ++ leBytes 1 0 ++ leBytes 2 low ++ leBytes 2 0 ++
    leBytes 8 time
  let s := s.updPwr (fun p => { p with supply := p.supply.map (fun x => { x with low := x.mv }) })
  if s.pwr.sleep = 0 then s.eventAt 0x0031 srcPower edge s.tk.tick (status * 65536) 0 pl
  else s.updPwr (fun p => { p with shedHeld := p.shedHeld ++ [(edge, s.tk.tick, status * 65536, pl)] })

/-- READY bits cleared. -/
def State.notReady (s : State) (bs : List Nat) : State := bs.foldl (fun s b => s.setReady b false) s

/-- A descriptor that self-refresh at stage 3 aborts: one with its source or destination in HBM or in a scratchpad, or
with a converter block queue as source, but for a begun write into a HISTORY partition, which completes in full (06
R171, R173). -/
def State.stage3Aborts (s : State) (e : Fin 5) (c : Fin 8) : Bool :=
  let ch := s.chan e c
  let d := ch.desc
  let pad (a : Nat) : Bool := match placeOf a with | .scratch _ _ => true | _ => false
  !ch.drains && (d.usesHbm || d.srcKind == 1 || pad d.src || (d.transform != 3 && (d.circ || pad d.dst)))

/-- Write-back queues, patrol positions and the state of circular regions lost, which are set empty (05 R152). -/
def State.loseRegions (s : State) : State :=
  (List.range 16).foldl (fun s f => s.emptyRegions (fin16 f))
    { s with wbQueue := [], facets := s.facets.map (fun x => { x with patrolRow := 0 }) }

/-- The stack goes into self-refresh, once the begun HISTORY writes have completed; those no longer wait on the
bucket (06 R171, R173, R174). -/
def State.selfRefresh (s : State) : State :=
  if s.hbm.phase = .ready then
    (s.updHbm (fun h => { h with
      phase := .draining
      waiting := h.waiting.filter (fun w => match w.user with
        | .chan _ | .expander _ | .condenser _ | .back _ => false
        | _ => true) })).drained
  else s

/-- The stack leaves self-refresh, whose entry completes first, and is ready again (06 R171). -/
def State.leaveRefresh (s : State) : State :=
  let s := if s.hbm.phase = .draining then s.count srcHbm hSelfRefresh 1 else s
  if s.hbm.phase = .selfRefresh ∨ s.hbm.phase = .draining then
    s.hbmReady
  else s

/-- What a stage does at its edge. -/
def State.stageActions (s : State) (k : Nat) (rows : List RawRow) : State :=
  if k = 1 then s.updPwr (fun p => p.newTarget 3)
  else if k = 2 then (s.sensorStandby rows).notReady [6, 7, 8, 9]
  else
    let s := s.sealJournal
    let s := (List.range 40).foldl (fun s n =>
      let e := fin5 (n / 8)
      let c := fin8 n
      if s.stage3Aborts e c then s.askAbort e c false else s) s
    let s := s.selfRefresh.notReady [4, 5, 12, 13]
    let s := s.updPwr (fun p => { p.coreOff s.tk.now with pll := p.pll.set 2 .off })
    let s := (List.range 2).foldl (fun s p => if s.net.port[fin2 p].up then s.portDown (fin2 p) else s) s
    s.loseRegions.outageStart

/-- The input that causes the entry of a stage, its lowest value and the TIME of its crossing (R446): the
lowest-numbered one that has crossed the stage's level. -/
def Power.causeOf (p : Power) (k : Nat) : Nat × Nat × Nat :=
  let input := (List.range 4).find? (fun i => match p.supply[i]? with
    | some x => bitOf x.below (k - 1)
    | none => false)
  let i := input.getD p.cause
  let x := (p.supply[i]?).getD SupplyIn.reset
  (i, x.low, x.crossAt.getD (k - 1) 0)

/-- A stage takes effect (R442, R443): its actions, the record, SHED.STAGE and SHED.COUNT. -/
def State.enterStage (s : State) (k edge : Nat) (rows : List RawRow) : State :=
  let c := s.pwr.causeOf k
  let s := (s.updPwr (fun p => { p with shed := k, shedCount := p.shedCount + 1 })).fuseCheck
  (s.shedRec 0x0702 k (k - 1) c.1 c.2.1 c.2.2 edge).stageActions k rows

/-- TIME since which every input has been clear of a level. -/
def Power.clearSince (p : Power) (k : Nat) : Nat :=
  p.supply.toList.foldl (fun m x => max m (x.aboveAt.getD (k - 1) 0)) 0

/-- Stage k may be undone at an edge (R445). -/
def Power.mayUndo (p : Power) (k edge : Nat) : Bool :=
  (List.range 4).all (fun i => match p.supply[i]? with
    | some x => p.clear i k x.mv && decide (x.aboveAt.getD (k - 1) 0 + 10000000 ≤ edge)
    | none => true)

/-- READY bits of Prisms set where they are not isolated. -/
def State.prismsReady (s : State) (ps : List Nat) : State :=
  ps.foldl (fun s p => if s.err.isolated.getLsbD p then s else s.setReady (5 + p) true) s

/-- The PIX PLL serves, as READY.OBJECTIVE asks (15 R447). -/
def State.objectiveBack (s : State) : State :=
  if s.err.isolated.getLsbD 4 || s.pllOf dPix != .good then s else s.setReady 9 true

/-- The FACET clock serves, as READY.PRISM0 to READY.PRISM3 ask (15 R447). -/
def State.facetClock (s : State) : Bool := s.pwr.enCore && s.pllOf dFacet == .good

/-- What the undoing of a stage does (R445). In a sleep state the functions that are off stay off (R444): S1 keeps HBM in
self-refresh, and S2 and S3 also keep EN_CORE low. -/
def State.undoActions (s : State) (k : Nat) : State :=
  if 2 ≤ s.pwr.sleep ∨ (s.pwr.sleep = 1 ∧ k ≠ 3) then (if k = 3 then s.unsealJournal.outageEnd else s)
  else if k = 3 then
    let s := (if s.pwr.sleep = 0 then s.leaveRefresh else s).updPwr (fun p => { p with
      enCore := true, facetsWait := true, pll := p.pll.set 2 (.judging 0), idleJudged := false })
    s.unsealJournal.outageEnd
  else if k = 2 then
    let s := s.objectiveBack
    if s.pwr.facetsWait || !s.facetClock then s else s.prismsReady [1, 2, 3]
  else s.retarget

/-- A stage is undone (R445): one per edge. -/
def State.undoStage (s : State) (k edge : Nat) : State :=
  let since := s.pwr.clearSince k
  let s := s.updPwr (fun p => { p with shed := k - 1 })
  ((s.shedRec 0x0703 (k - 1) k 0xFF 0 since edge).undoActions k).releaseRestarts

/-- Stages entered one after the other up to the target. -/
def State.enterStages (s : State) (edge : Nat) (rows : List RawRow) : Nat → State
  | 0 => s
  | n + 1 => if s.pwr.shed < s.pwr.target then (s.enterStage (s.pwr.shed + 1) edge rows).enterStages edge [] n else s

/-- The shedding of a tick edge (R442, R445). -/
def State.shedEdge (s : State) (edge : Nat) (rows : List RawRow) : State :=
  if s.pwr.shed < s.pwr.target then s.enterStages edge rows 3
  else if 0 < s.pwr.shed && s.pwr.target < s.pwr.shed && s.pwr.mayUndo s.pwr.shed edge then
    s.undoStage s.pwr.shed edge
  else s

/-! ### New values (R441, R442, R444) -/

/-- In S3 no tick runs: the stages change at once, with their records, and do nothing else (R444); one is undone once the
10 ms of R445 have passed. -/
def State.shedAsleep (s : State) : Nat → State
  | 0 => s
  | n + 1 =>
    let k := s.pwr.shed
    if k < s.pwr.target then
      let c := s.pwr.causeOf (k + 1)
      let s := (s.updPwr (fun p => { p with shed := k + 1, shedCount := p.shedCount + 1 })).fuseCheck
      (s.shedRec 0x0702 (k + 1) k c.1 c.2.1 c.2.2 s.tk.now).shedAsleep n
    else if s.pwr.target < k && s.pwr.mayUndo k s.tk.now then
      let s := s.updPwr (fun p => { p with shed := k - 1 })
      (s.shedRec 0x0703 (k - 1) k 0xFF 0 (s.pwr.clearSince k) s.tk.now).releaseRestarts.shedAsleep n
    else s

/-- TIME in S3 goes on by AON cycles, whose number the spec leaves open (R437; log 90). -/
def State.aonPass (s : State) : State :=
  ({ s with tk := { s.tk with now := s.tk.now + s.free.toNat * 30517578 / 1000 } } : State).drawn 1

/-- A value of an input is taken, with what it changes at once in S3. -/
def State.supplyValue (s : State) (i : Fin 5) (mv : Nat) : State :=
  if s.pwr.sleep = 3 then ((s.aonPass.shedAsleep 3).measured i mv).shedAsleep 3 else s.measured i mv

/-- SUPPLY_WARNING_CROSSING (R442): an input has stayed at a value for 4 µs. -/
def execSupplyWarningCrossing (i : Fin 4) (mv : Nat) (s : State) : Host.Outcome State Fault Refusal :=
  if maxMv i.val < mv then .fault .outsideRatings else .next (s.supplyValue (fin5of4 i) mv)

/-- SUPPLY_RECOVERY (R445): an input has risen to a value. -/
def execSupplyRecovery (i : Fin 4) (mv : Nat) (s : State) : Host.Outcome State Fault Refusal :=
  if maxMv i.val < mv then .fault .outsideRatings else .next (s.supplyValue (fin5of4 i) mv)

/-- SUPPLY_RESET_LEVEL (R442, R443; 17 R474): an input has stayed below its reset level for 2 µs. -/
def execSupplyResetLevel (i : Fin 5) (mv : Nat) (s : State) : Host.Outcome State Fault Refusal :=
  if maxMv i.val < mv then .fault .outsideRatings
  else
    let s := s.supplyValue i mv
    .next (if s.alive && s.pwr.underReset i.val mv && !(i.val == 1 && !s.pwr.enCore) then s.supplyReset else s)

end Sys2Proof.Machine
end

