-- ==== Sys2Proof/Machine/Registers.lean ====
section
/-! DEFINITION. The registers (12 R319 to R333, R351, R352) as both paths read and write them, ownership, the
mailbox, BAR2 and what each written field does. -/

namespace Sys2Proof.Machine

/-! ### Register values (R327 to R333) -/

def ownerCode : Owner → Nat
  | .none => 0 | .pcie => 1 | .localbus => 2

/-- A change of level is under way or waits (R331). -/
def State.levelPending (s : State) : Bool := s.pwr.change.isSome

/-- IDLE_TIME: whole milliseconds of idleness, saturating (15 R433). -/
def State.idleMs (s : State) : Nat := min 0xFFFFFFFF (s.idleNs / 1000000)

/-- Regions with a pending error record (16 R451). -/
def State.errRegions (s : State) : Nat := s.err.queue.foldl (fun m r => Nat.lor m (2 ^ r.region)) 0

/-- A snapshot armed through SNAP_CTL waits. -/
def State.snapArmed (s : State) : Bool := match s.err.snap with | some (_, 0) => true | _ => false

def bit (b : Bool) (i : Nat) : Nat := if b then 2 ^ i else 0

/-- The word at MBOX_ADDR (R329). -/
def State.mboxWord (s : State) : Nat :=
  if s.host.mboxSpace then s.readLe (localRing + s.host.mboxOff % 16384 / 4 * 4) 4
  else leNat (SMap.getRange 0 s.host.mailbox (s.host.mboxOff % 4096 / 4 * 4) 4)

/-- TEMP_A and other i16 halves. -/
def half16 (v : Int) : Nat := toBits 16 v

/-- The word at BAR0 offset 4 i past the registers: the MSI-X table, its pending bits, or zero (R320). -/
def HostCtl.msixWord (h : HostCtl) (i : Nat) : Nat :=
  if 0x200 ≤ i ∧ i < 0x240 then
    let e := h.msix[fin16 ((i - 0x200) / 4)]
    match i % 4 with
    | 0 => e.addr.toNat % 2 ^ 32
    | 1 => e.addr.toNat / 2 ^ 32
    | 2 => e.data.toNat
    | _ => e.ctl.toNat
  else if i = 0x300 then h.msixPending.toNat
  else 0

/-- The value of the register at byte offset 4 i, or of BAR0's other words (R320, R327). -/
def State.regValue (s : State) (i : Nat) : Nat :=
  let h := s.host
  let p := s.pwr
  let e := s.err.queue.head?
  match i with
  | 0x00 => 0x18B19600
  | 0x01 => s.ready.toNat
  | 0x02 => s.lifecycle + s.schedCode * 16 + p.shed * 128 + bit h.hostLost 10 + s.trust.slot * 2048 + bit s.jnl.sealed 12
  | 0x03 => p.resetCause + p.resetCount * 256 + p.resetStatus * 65536
  | 0x04 => ownerCode h.owner + bit h.claimRefused 2
  | 0x05 => h.cmdBaseLo.toNat
  | 0x06 => h.cmdBaseHi.toNat
  | 0x07 => h.cmdSize
  | 0x08 => h.cmdPut
  | 0x09 => h.cmdGet
  | 0x0A => h.evtBaseLo.toNat
  | 0x0B => h.evtBaseHi.toNat
  | 0x0C => h.evtSize
  | 0x0D => h.evtPut
  | 0x0E => h.evtGet
  | 0x0F => h.mboxOff + bit h.mboxSpace 14 + bit h.mboxInc 15
  | 0x10 => s.mboxWord
  | 0x11 => h.irqStatus.toNat
  | 0x12 => h.irqEnable.toNat
  | 0x14 => s.errRegions + bit s.err.lastHeld 8 + min 255 s.err.queue.length * 65536
  | 0x15 => match e with | some r => r.status + r.block * 65536 + r.region * 2 ^ 24 | none => 0
  | 0x16 => match e with | some r => r.addr % 2 ^ 32 | none => 0
  | 0x17 => match e with | some r => r.addr / 2 ^ 32 % 65536 | none => 0
  | 0x18 => h.perfLevel + bit h.perfAuto 8
  | 0x19 => p.level + bit s.levelPending 8 + facetMHz p.level * 65536
  | 0x1A => h.sleepCtl.toNat
  | 0x1B => s.idleMs
  | 0x1C => (p.supply[0]).mv % 4096 + (p.supply[1]).mv % 1024 * 4096 + p.belowMask * 2 ^ 22
  | 0x1D => p.shed + p.shedCount % 2 ^ 24 * 256
  | 0x1E => half16 p.logicT + half16 s.img.theta * 65536
  | 0x1F => half16 s.hbm.temp + half16 p.logicMax * 65536
  | 0x20 => s.tk.rate + bit s.tk.pendingRate.isSome 14
  | 0x21 => s.tk.tick % 2 ^ 32
  | 0x22 => s.tk.tick / 2 ^ 32 % 2 ^ 32
  | 0x23 => s.tk.now % 2 ^ 32
  | 0x24 => s.tk.now / 2 ^ 32 % 2 ^ 32
  | 0x25 => bit s.snapArmed 0 + bit h.snapDone 1 + bit h.snapLate 2
  | 0x26 => h.snapTick.toNat
  | 0x27 => s.jnl.head % 2 ^ 32
  | 0x28 => s.jnl.tail % 2 ^ 32
  | 0x29 => s.fuse.faultRegion + bit s.fuse.critical 4 + bit s.fuse.ownerAbsent 5 + bit s.fuse.alarm 6 +
      bit s.fuse.op.isSome 7 + bit s.fuse.vpp 8
  | 0x2A => s.lifecycle + bit (s.slotState 0 == 2) 4 + bit (s.slotState 1 == 2) 5 + bit s.debugOpen 6 +
      bit s.fullEgress 7 + s.rollback * 256
  | 0x2B => h.wdogPeriod.toNat + bit h.hostLost 16
  | 0x2D => s.err.isolated.toNat + h.regionAuto.toNat * 256 + s.err.restarting.toNat * 65536
  | 0x2E => h.spareA.toNat
  | 0x2F => h.spareB.toNat
  | i => h.msixWord i

/-! ### Paths and ownership (R319, R325, R326) -/

def pathOwner : Path → Owner
  | .pcie => .pcie | .localbus => .localbus

/-- A path reaches the registers (15 R438, R447). -/
def State.pathOpen (s : State) (p : Path) : Bool := s.pathReady (pathOwner p) && decide (s.pwr.sleep ≤ 2)

/-- A change of OWNER (R326). -/
def State.changeOwner (s : State) (new : Owner) : State :=
  let old := s.host.owner
  let s := s.updHost (fun h => { h with
    owner := new, cmdSize := 0, cmdPut := 0, cmdGet := 0, evtSize := 0, evtPut := 0, evtGet := 0
    wdogPeriod := 0, wdogRuns := false, hostLost := false, dataUsed := h.dataUsed.filter (·.1.isNone) })
  let s := s.openJournal.journalDev 0xFF06 0 (leBytes 1 (ownerCode old) ++ leBytes 1 (ownerCode new))
  (s.irq 9).flushHeld

/-- A claim is granted (R325); the owner's own value again leaves OWNER as it is (log 41). -/
def State.claimGranted (s : State) (p : Path) (v : Nat) : Bool :=
  let own := pathOwner p
  if v = 0 then s.host.owner == own || s.host.owner == .none
  else if v = ownerCode own then
    s.host.owner == .none || s.host.owner == own || s.host.hostLost ||
      (p == .localbus && (!s.host.pcieUp || s.host.perst))
  else false

/-- A write to OWNER. -/
def State.writeOwner (s : State) (p : Path) (v : Nat) : State :=
  if s.claimGranted p (v % 4) then
    let new := if v % 4 = 0 then .none else pathOwner p
    let s := s.updHost (fun h => { h with claimRefused := false })
    if s.host.owner = new then s else s.changeOwner new
  else s.updHost (fun h => { h with claimRefused := true })

/-! ### What written fields do -/

/-- A power of two in a range. -/
def pow2In (lo hi v : Nat) : Bool := (List.range 16).any (fun k => 2 ^ k == v) && decide (lo ≤ v) && decide (v ≤ hi)

/-- CMD_SIZE (R329): 0 disables the ring; a size enables a disabled one at slot 0. -/
def State.writeCmdSize (s : State) (v : Nat) : State :=
  let n := v % 65536
  if n = 0 then s.updHost (fun h => { h with cmdSize := 0, cmdGet := 0, cmdPut := 0 })
  else if s.host.cmdSize = 0 && pow2In 16 4096 n then
    s.updHost (fun h => { h with cmdSize := n, cmdGet := 0, cmdPut := 0 })
  else s

/-- EVT_SIZE (R329, R345): held records are placed as soon as the ring is enabled. -/
def State.writeEvtSize (s : State) (v : Nat) : State :=
  let n := v % 65536
  if n = 0 then s.updHost (fun h => { h with evtSize := 0, evtGet := 0, evtPut := 0, dataUsed := h.dataUsed.filter (·.1.isNone) })
  else if s.host.evtSize = 0 && pow2In 64 32768 n then
    (s.updHost (fun h => { h with evtSize := n, evtGet := 0, evtPut := 0 })).flushHeld
  else s

/-- CMD_PUT (R329, R335): descriptors up to it are taken. -/
def State.writeCmdPut (s : State) (v : Nat) : State :=
  if v % 65536 < s.cmdEntries then (s.updHost (fun h => { h with cmdPut := v % 65536 })).serveAll else s

/-- EVT_GET (R329, R345, R346): the buffers of the records passed are freed, and held records placed. -/
def State.writeEvtGet (s : State) (v : Nat) : State :=
  let n := s.evtRingSize
  let g := v % 65536
  if g < n then
    let old := s.host.evtGet
    let gone (slot : Nat) : Bool := decide ((slot + n - old) % n < (g + n - old) % n)
    (s.updHost (fun h => { h with evtGet := g, dataUsed := h.dataUsed.filter (fun d => !d.1.any gone) })).flushHeld
  else s

/-- MBOX_DATA is passed: OFFSET advances with AUTOINC (R329). -/
def State.mboxNext (s : State) : State :=
  if s.host.mboxInc then
    s.updHost (fun h => { h with mboxOff := (h.mboxOff + 4) % (if h.mboxSpace then 16384 else 4096) })
  else s

/-- A word written at MBOX_ADDR; none where SPACE is 1. -/
def State.writeMbox (s : State) (v : Nat) : State :=
  let s := if s.host.mboxSpace then s
    else s.updHost (fun h => { h with
      mailbox := SMap.setRange 0 h.mailbox (h.mboxOff % 4096 / 4 * 4) (leBytes 4 v) })
  s.mboxNext

/-- IRQ_FORCE (R330, R350). -/
def State.writeForce (s : State) (v : Nat) : State :=
  (List.range 10).foldl (fun s i => if bitOf v i then s.irq i else s) s

/-- ERR_SUMMARY.POP (R330; 16 R451). -/
def State.popErr (s : State) (v : Nat) : State :=
  if bitOf v 31 then s.updErr (fun e => { e with queue := e.queue.drop 1 }) else s

/-- PERF_REQ (R331; 15 R427). LEVEL reads as last written, a refused value too (DESIGN CHOICE, log 132). -/
def State.writePerf (s : State) (v : Nat) : State :=
  (s.updHost (fun h => { h with perfLevel := v % 4, perfAuto := bitOf v 8 })).retarget

/-- TICK_CTL.RATE (02 R34). A write of the rate in force while a schedule runs is refused as any other (DESIGN
CHOICE, log 130). -/
def State.writeTickCtl (s : State) (v : Nat) : State :=
  let n := v % 2 ^ 14
  if n = 0 ∨ 10000 < n then s
  else if s.sched.running || s.sched.start.isSome then s.timeState 0x0213
  else { s with tk := { s.tk with pendingRate := if n = s.tk.rate then none else some n } }

/-- The tick that an arming write names (R332): the least at least two ahead with these low bits. -/
def snapTickFor (tick low : Nat) : Nat :=
  let t := tick + 2
  let c := t / 2 ^ 32 * 2 ^ 32 + low
  if t ≤ c then c else c + 2 ^ 32

/-- SNAP_CTL (R332; 16 R463). -/
def State.writeSnapCtl (s : State) (v : Nat) : State :=
  if bitOf v 0 then
    let (ok, s) := s.armSnapshot s.tk.tick (snapTickFor s.tk.tick s.host.snapTick.toNat) 0
    (s.updHost (fun h => { h with snapLate := !ok, snapDone := if ok then false else h.snapDone })).noteIdle
  else if s.snapArmed then s.updErr (fun e => { e with snap := none })
  else s

/-- WDOG_CTL.PERIOD (R351). -/
def State.writeWdog (s : State) (v : Nat) : State :=
  s.updHost (fun h => { h with wdogPeriod := BitVec.ofNat 16 v, wdogStart := s.tk.now, wdogRuns := true })

/-- WDOG_KICK (R351, R352). -/
def State.kick (s : State) : State :=
  let lost := s.host.hostLost
  let s := s.updHost (fun h => { h with wdogStart := s.tk.now, wdogRuns := true, hostLost := false })
  if lost then s.fault 0x0021 srcHost 0xFF 0 0 [] else s

/-- SPARE_A; during a wait for a push the value that ends it starts the checks (14 R399). -/
def State.writeSpareA (s : State) (v : Word) : State :=
  let s := s.updHost (fun h => { h with spareA := v })
  if v = 0x50555348#32 then s.bootPush.serveAll else s

/-- A written value taken by its register (R329 to R333); read-only and reserved registers ignore it. A ring base that is not
4 KiB aligned is ignored, and MBOX_ADDR.OFFSET names whole words (DESIGN CHOICE, log 150). -/
def State.putReg (s : State) (i : Nat) (v : Word) : State :=
  let n := v.toNat
  match i with
  | 0x05 => if s.host.cmdSize = 0 && n % 4096 == 0 then s.updHost (fun h => { h with cmdBaseLo := v }) else s
  | 0x06 => if s.host.cmdSize = 0 then s.updHost (fun h => { h with cmdBaseHi := BitVec.ofNat 16 n }) else s
  | 0x07 => s.writeCmdSize n
  | 0x08 => s.writeCmdPut n
  | 0x0A => if s.host.evtSize = 0 && n % 4096 == 0 then s.updHost (fun h => { h with evtBaseLo := v }) else s
  | 0x0B => if s.host.evtSize = 0 then s.updHost (fun h => { h with evtBaseHi := BitVec.ofNat 16 n }) else s
  | 0x0C => s.writeEvtSize n
  | 0x0E => s.writeEvtGet n
  | 0x0F => s.updHost (fun h => { h with
      mboxOff := n % 2 ^ 14 / 4 * 4, mboxSpace := bitOf n 14, mboxInc := bitOf n 15 })
  | 0x10 => s.writeMbox n
  | 0x11 => s.updHost (fun h => { h with irqStatus := h.irqStatus &&& ~~~(BitVec.ofNat 10 n) })
  | 0x12 => s.updHost (fun h => { h with irqEnable := BitVec.ofNat 10 n })
  | 0x13 => s.writeForce n
  | 0x14 => s.popErr n
  | 0x18 => s.writePerf n
  | 0x1A => s.updHost (fun h => { h with sleepCtl := BitVec.ofNat 32 (n % 2 ^ 24) })
  | 0x20 => s.writeTickCtl n
  | 0x25 => s.writeSnapCtl n
  | 0x26 => s.updHost (fun h => { h with snapTick := v })
  | 0x2B => s.writeWdog n
  | 0x2C => s.kick
  | 0x2D => s.updHost (fun h => { h with regionAuto := BitVec.ofNat 7 (n / 256) })
  | 0x2E => s.writeSpareA v
  | 0x2F => s.updHost (fun h => { h with spareB := v })
  | _ => s

/-- What a path writes (R323): on the local bus the latched low half, or the register's current one. -/
def State.written (s : State) (p : Path) (i : Nat) (v : Word) : Word × State :=
  match p with
  | .pcie => (v, s)
  | .localbus =>
    let lo := match s.host.lowLatch with
      | some (r, x) => if r = i then x.toNat else s.regValue i % 65536
      | none => s.regValue i % 65536
    (BitVec.ofNat 32 (v.toNat / 65536 * 65536 + lo), s.updHost (fun h => { h with lowLatch := none }))

/-- A word of an MSI-X entry written; a message that waits goes out once its vector is not masked (R320; log 127). -/
def State.writeMsix (s : State) (k : Fin 16) (j : Nat) (v : Word) : State :=
  let s := s.updHost (fun h =>
    let e := h.msix[k]
    { h with msix := h.msix.set k (match j with
      | 0 => { e with addr := BitVec.ofNat 64 (e.addr.toNat / 2 ^ 32 * 2 ^ 32 + v.toNat / 4 * 4) }
      | 1 => { e with addr := BitVec.ofNat 64 (v.toNat * 2 ^ 32 + e.addr.toNat % 2 ^ 32) }
      | 2 => { e with data := v }
      | _ => { e with ctl := v &&& 1 }) })
  if s.host.msixPending.getLsbD k.val && !(s.host.msix[k]).ctl.getLsbD 0 then
    (s.updHost (fun h => { h with msixPending := h.msixPending &&& ~~~(BitVec.ofNat 16 (2 ^ k.val)) })).sendMsix k
  else s

/-- A register write by a path (R319): only the owner's is taken, OWNER apart. Past the registers, PCIe reaches the
MSI-X table, and no other offset takes a write (R320). -/
def State.writeReg (s : State) (p : Path) (i : Nat) (v : Word) : State :=
  if !s.pathOpen p then s
  else
    let (v, s) := s.written p i v
    if 0x30 ≤ i then
      (if 0x200 ≤ i ∧ i < 0x240 ∧ p = .pcie then s.writeMsix (fin16 ((i - 0x200) / 4)) (i % 4) v else s)
    else if i = 4 then s.writeOwner p v.toNat
    else if s.host.owner ≠ pathOwner p then s.count srcHost 0 1
    else s.putReg i v

/-! ### Reads -/

/-- TICK_HI and TIME_HI return the snapshot that the read of the low register took, once (R323). -/
def State.highValue (s : State) (i : Nat) : Nat :=
  if i = 0x22 then s.tk.tickLatch.getD (s.regValue i)
  else if i = 0x24 then s.tk.timeLatch.getD (s.regValue i)
  else s.regValue i

/-- The latches after a read of a register. -/
def State.latchReads (s : State) (i : Nat) : State :=
  if i = 0x21 then { s with tk := { s.tk with tickLatch := some (s.regValue 0x22) } }
  else if i = 0x23 then { s with tk := { s.tk with timeLatch := some (s.regValue 0x24) } }
  else if i = 0x22 then { s with tk := { s.tk with tickLatch := none } }
  else if i = 0x24 then { s with tk := { s.tk with timeLatch := none } }
  else s

/-- A read of a whole register through PCIe (R322), which leaves the package and is counted (01 R30). -/
def State.readReg (s : State) (i : Nat) : State :=
  ((s.latchReads i).egress .bar).emit (.readData (s.highValue i))

/-- A local-bus read of a half (R323), counted as it leaves (01 R30). The snapshot of a high half serves its next read. -/
def State.readHalf (s : State) (i : Fin 64) (hi : Bool) : State :=
  let v := s.highValue i.val
  if hi then
    let v := match s.host.highSnap[i] with
      | some x => x.toNat
      | none => v / 65536
    let s := s.updHost (fun h => { h with highSnap := h.highSnap.set i none })
    ((if i.val = 0x10 then s.mboxNext else s).egress .localBus).emit (.readData v)
  else
    let s := s.latchReads i.val
    ((s.updHost (fun h => { h with highSnap := h.highSnap.set i (some (BitVec.ofNat 16 (v / 65536))) })).egress
      .localBus).emit (.readData (v % 65536))

/-- A read of TICK or TIME by a path, from its low register on (R322, R323): a 64-bit read is two reads, the low register
first. -/
def State.readPair (s : State) (p : Path) (lo : Fin 63) (part : PairRead) : State :=
  if !s.pathOpen p then s
  else
    match p, part with
    | .pcie, .low => s.readReg lo.val
    | .pcie, .high => s.readReg (lo.val + 1)
    | .pcie, .wide => (s.readReg lo.val).readReg (lo.val + 1)
    | .localbus, .high => s.readHalf lo.succ false
    | .localbus, _ => s.readHalf lo.castSucc false

/-! ### Rows -/

/-- CMD_PUT_WRITE (R335). -/
def execCmdPutWrite (path : Path) (v : Word) (s : State) : Host.Outcome State Fault Refusal :=
  .next (s.writeReg path 0x08 v)

/-- CMD_SIZE_WRITE (R329). -/
def execCmdSizeWrite (path : Path) (v : Word) (s : State) : Host.Outcome State Fault Refusal :=
  .next (s.writeReg path 0x07 v)

/-- EVT_SIZE_WRITE (R329). -/
def execEvtSizeWrite (path : Path) (v : Word) (s : State) : Host.Outcome State Fault Refusal :=
  .next (s.writeReg path 0x0C v)

/-- EVT_GET_WRITE (R345). -/
def execEvtGetWrite (path : Path) (v : Word) (s : State) : Host.Outcome State Fault Refusal :=
  .next (s.writeReg path 0x0E v)

/-- OWNER_WRITE (R325). -/
def execOwnerWrite (path : Path) (v : Word) (s : State) : Host.Outcome State Fault Refusal :=
  .next (s.writeReg path 0x04 v)

/-- MBOX_DATA_ACCESS (R329): a write, or a read of the whole word. -/
def execMboxDataAccess (path : Path) (write : Option Word) (s : State) : Host.Outcome State Fault Refusal :=
  match write with
  | some v => .next (s.writeReg path 0x10 v)
  | none => .next (if s.pathOpen path then
      (s.mboxNext.egress (if path = .pcie then .bar else .localBus)).emit (.readData s.mboxWord) else s)

/-- IRQ_STATUS_WRITE (R330). -/
def execIrqStatusWrite (path : Path) (v : Word) (s : State) : Host.Outcome State Fault Refusal :=
  .next (s.writeReg path 0x11 v)

/-- IRQ_FORCE_WRITE (R330). -/
def execIrqForceWrite (path : Path) (v : Word) (s : State) : Host.Outcome State Fault Refusal :=
  .next (s.writeReg path 0x13 v)

/-- ERR_SUMMARY_POP (R330). -/
def execErrSummaryPop (path : Path) (v : Word) (s : State) : Host.Outcome State Fault Refusal :=
  .next (s.writeReg path 0x14 v)

/-- PERF_REQ_WRITE (R331; 15 R427, R428). -/
def execPerfReqWrite (path : Path) (v : Word) (s : State) : Host.Outcome State Fault Refusal :=
  .next (s.writeReg path 0x18 v)

/-- TICK_CTL_WRITE (R332; 02 R34). -/
def execTickCtlWrite (path : Path) (v : Word) (s : State) : Host.Outcome State Fault Refusal :=
  .next (s.writeReg path 0x20 v)

/-- SNAP_CTL_ARM (R332). -/
def execSnapCtlArm (path : Path) (v : Word) (s : State) : Host.Outcome State Fault Refusal :=
  .next (s.writeReg path 0x25 v)

/-- SNAP_CTL_DISARM (R332). -/
def execSnapCtlDisarm (path : Path) (v : Word) (s : State) : Host.Outcome State Fault Refusal :=
  .next (s.writeReg path 0x25 v)

/-- WDOG_CTL_WRITE (R351). -/
def execWdogCtlWrite (path : Path) (v : Word) (s : State) : Host.Outcome State Fault Refusal :=
  .next (s.writeReg path 0x2B v)

/-- WDOG_KICK (R351, R352). -/
def execWdogKick (path : Path) (v : Word) (s : State) : Host.Outcome State Fault Refusal :=
  .next (s.writeReg path 0x2C v)

/-- HOST_LOST (R351): the period has expired; the next one begins at a kick or a write of PERIOD. -/
def execHostLost (s : State) : Host.Outcome State Fault Refusal :=
  if s.host.wdogPeriod = 0 || !s.host.wdogRuns then .next s
  else
    let t := s.host.wdogStart + s.host.wdogPeriod.toNat * 1000000
    let s := s.setTime (max s.tk.now t)
    let s := (s.updHost (fun h => { h with hostLost := true, wdogRuns := false })).irq 8
    let s := s.openJournal.journalDev 0xFF05 0x0020 (leBytes 4 s.host.wdogPeriod.toNat)
    .next (s.fault 0x0020 srcHost 0xFF 0 0 [])

/-- TICK_LO_READ (R323). -/
def execTickLoRead (path : Path) (part : PairRead) (s : State) : Host.Outcome State Fault Refusal :=
  .next (s.readPair path 0x21 part)

/-- TIME_LO_READ (R323). -/
def execTimeLoRead (path : Path) (part : PairRead) (s : State) : Host.Outcome State Fault Refusal :=
  .next (s.readPair path 0x23 part)

/-- LOW_HALF_WRITE (R323): latched until the high half is written. One of a path that does not own the register is not
latched and is counted (R319); a latched half of another register is discarded by it all the same. -/
def execLowHalfWrite (reg : Fin 64) (v : Half) (s : State) : Host.Outcome State Fault Refusal :=
  if !s.pathOpen .localbus then .next s
  else if s.host.owner ≠ .localbus ∧ reg.val ≠ 4 then
    .next ((s.count srcHost 0 1).updHost (fun h => { h with
      lowLatch := h.lowLatch.filter (fun l => l.1 == reg.val) }))
  else .next (s.updHost (fun h => { h with lowLatch := some (reg.val, v) }))

/-- LOW_HALF_READ (R323). -/
def execLowHalfRead (reg : Fin 64) (hi : Bool) (s : State) : Host.Outcome State Fault Refusal :=
  .next (if s.pathOpen .localbus then s.readHalf reg hi else s)

/-- REGISTER_WRITE (R319, R320, R327), of any word of BAR0. One through PCIe whose byte enables are not all set is ignored
(R322). -/
def execRegisterWrite (path : Path) (reg : Fin 1024) (be : BitVec 4) (v : Word) (s : State) :
    Host.Outcome State Fault Refusal :=
  .next (if path = .pcie ∧ be ≠ 15 then s else s.writeReg path reg.val v)

/-- FIRMWARE_PUSH (14 R399): the write to SPARE_A that ends a push. -/
def execFirmwarePush (path : Path) (v : Word) (s : State) : Host.Outcome State Fault Refusal :=
  .next (s.writeReg path 0x2E v)

/-! ### The PCIe function and BAR2 (R320; 01 R19, R20, R29) -/

/-- What the configuration space identifies the function by (R320); no row of the command table reads it. -/
structure PcieFunction where
  vendor : Half
  device : Half
  revision : Byte
  subsystemVendor : Half
  subsystem : Half
  classCode : BitVec 24
  bar0Bytes : Nat
  bar2Bytes : Nat
  vectors : Nat
  deriving DecidableEq, Repr

def pcieFunction : PcieFunction := ⟨0x1FB3, 0x9600, 0xB1, 0x1FB3, 0x0001, 0x120000, 0x1000, 0x4000000, 16⟩

/-- The device waits for a push, so the firmware range takes BAR2 writes (14 R399). -/
def State.awaitsPush (s : State) : Bool := match s.trust.boot with | .waitPush => true | _ => false

/-- BAR2 reads an address (01 R20). -/
def bar2Reads (a : Nat) : Bool :=
  match placeOf a with
  | .journal | .outage | .other => true
  | _ => false

/-- BAR2 writes an address: the range named other outside its read-only areas, and the firmware range during a wait for
a push (01 R20; 14 R399). -/
def State.bar2Writes (s : State) (a : Nat) : Bool :=
  match placeOf a with
  | .other => !readOnlyOther a
  | .firmware => s.awaitsPush
  | _ => false

/-- A BAR2 read: what is unmapped reads no data (01 R19), what the Aperture blocks reads as zero (01 R29). Its units are
read as any other access reads them, stored errors included (01 R13). -/
def State.bar2Read (s : State) (a n : Nat) : State :=
  if !rangeAll bar2Reads a n || n = 0 then s.emit (.readBytes [])
  else
    let (ok, s) := s.judgeTransfer .bar a n n
    if ok then
      let lo := a / 32 * 32
      let (bs, _, s) := s.readDev lo ((a + n + 31) / 32 * 32 - lo)
      s.emit (.readBytes ((bs.drop (a - lo)).take n))
    else s.emit (.readBytes (zeroBytes n))

/-- A BAR2 write (01 R19, R20). -/
def State.bar2Write (s : State) (a : Nat) (bs : List Byte) : State :=
  if rangeAll s.bar2Writes a bs.length then s.writeMerged a bs else s

/-- BAR2_ACCESS (R320; 01 R20). As with registers, writes are the owner's, and another path's is counted: R319 says so of
registers alone (DESIGN CHOICE, log 128). -/
def execBar2Access (off : Word) (len : Nat) (write : Option (List Byte)) (s : State) :
    Host.Outcome State Fault Refusal :=
  let a := ctlBase + off.toNat
  if !s.pathOpen .pcie then .next s
  else match write with
    | none => .next (s.bar2Read a len)
    | some bs =>
      if s.host.owner ≠ .pcie ∧ s.awaitsPush = false then .next (s.count srcHost 0 1)
      else .next (if bs.isEmpty then s else s.bar2Write a bs)

/-! ### PCIe resets and the link (R321; 15 R447) -/

/-- A descriptor of the Edge engine whose source or destination is host memory. -/
def DmaDesc.touchesHost (d : DmaDesc) : Bool :=
  (d.srcKind != 1 && placeOf d.src == .host) || (d.transform != 3 && !d.circ && placeOf d.dst == .host)

/-- FUNCTION_LEVEL_RESET (R321), or an assertion of PERST#. -/
def execFunctionLevelReset (perst : Bool) (s : State) : Host.Outcome State Fault Refusal :=
  let s := (List.range 8).foldl (fun s c =>
    let ch := s.chan 4 (fin8 c)
    if ch.desc.touchesHost then s.askAbort 4 (fin8 c) false else s) s
  let s := s.updHost (fun h => { h with msix := Vector.replicate 16 MsixEntry.reset, msixPending := 0 })
  let s := if perst then (s.updHost (fun h => { h with perst := true, pcieUp := false })).setReady 15 false else s
  .next (if s.host.owner = .pcie then s.changeOwner .none else s)

/-- PCIE_LINK_TRAINED (15 R447). -/
def execPcieLinkTrained (s : State) : Host.Outcome State Fault Refusal :=
  if s.isReady 3 && s.pllOf dPcie == .good && !s.err.isolated.getLsbD 6 && s.pwr.sleep ≤ 1 then
    .next ((s.updHost (fun h => { h with pcieUp := true, perst := false })).setReady 15 true).serveAll
  else .next s

end Sys2Proof.Machine
end

