-- ==== Sys2Proof/Machine/Power.lean ====
section
/-! DEFINITION. Bring-up and power-down (17 R473 to R477), the judging of clocks (15 R418 to R421), the core supply
(15 R428, R429), sleep (15 R432 to R438) and the Periscope (15 R439, R440). -/

namespace Sys2Proof.Machine

/-! ### Reset pins and rails (17 R473, R474) -/

/-- VDD_AON_POWER_UP (17 R473 step 2): PSC_ADDR is sampled, and the Periscope serves. -/
def execVddAonPowerUp (pscAddr : Fin 4) (s : State) : Host.Outcome State Fault Refusal :=
  .next (if s.pwr.phase = .off then
    s.updPwr (fun p => { p with phase := .porst, pscUp := true, pscAddr := pscAddr.val })
  else s)

/-- VDD_AON_POWER_LOSS (17 R474): every state is lost; the fuse array, the flash, the host's memory and the pins
are not the device's to lose. -/
def execVddAonPowerLoss (s : State) : Host.Outcome State Fault Refusal :=
  let z := State.reset
  let s := s.cutFuses
  .next { z with
    pending := s.pending, freeCtr := s.freeCtr, out := s.out, mem := hostMem s.mem
    host := { z.host with perst := s.host.perst }
    fuse := { z.fuse with firm := s.fuse.firm, marg := s.fuse.marg, vpp := s.fuse.vpp }
    trust := { z.trust with flash := s.trust.flash }
    pwr := { z.pwr with wakePin := s.pwr.wakePin, supply := s.pwr.supply, logicT := s.pwr.logicT } }

/-- PORST_RELEASE (17 R473 step 3): the straps are sampled, the fuses are read, and REF comes under judgement. -/
def execPorstRelease (bootSrc clkSrc : Fin 4) (s : State) : Host.Outcome State Fault Refusal :=
  .next (if s.pwr.phase = .porst then
    ((s.updTrust (fun t => { t with bootSrc := bootSrc.val })).updPwr
      (fun p => { p with clkSrc := clkSrc.val })).startUp
  else s)

/-- PORST_ASSERT (17 R474): internal reset, and everything restarts at the next rise. -/
def execPorstAssert (s : State) : Host.Outcome State Fault Refusal :=
  .next (match s.pwr.phase with
    | .off => s
    | .porst => s
    | _ => (s.internalReset 1 0 0xFF 0 0).updPwr (fun p => { p with phase := .porst }))

/-- PGOOD_MAIN_TIMEOUT (17 R474): PGOOD_MAIN has not risen within 20 ms of EN_MAIN. -/
def execPgoodMainTimeout (s : State) : Host.Outcome State Fault Refusal :=
  .next (if s.pwr.enMain && !s.pwr.mainSeen then s.internalReset 2 0 0xFF 0 0 else s)

/-- PGOOD_MAIN_LOW (17 R474): for 2 µs while EN_MAIN is high, after its first rise. -/
def execPgoodMainLow (s : State) : Host.Outcome State Fault Refusal :=
  .next (if s.pwr.enMain && s.pwr.mainSeen then s.supplyReset
    else s.updPwr (fun p => { p with pgoodMain := false }))

/-- EN_MAIN_RETRY (17 R474): 100 ms after a reset at a supply, bring-up begins again. -/
def execEnMainRetry (s : State) : Host.Outcome State Fault Refusal :=
  .next (if s.pwr.phase = .held ∧ s.pwr.startStatus = 0 then s.startUp else s)

/-- Step 6 of bring-up: with REF stable and PGOOD_MAIN high, VDD_CORE and every PLL are enabled (17 R473; 15 R419,
R420). -/
def State.tryCore (s : State) : State :=
  if s.pwr.phase = .starting && s.pwr.refStable && s.pwr.mainSeen && !s.pwr.enCore then
    s.updPwr (fun p => { p with
      vid := 14, enCore := true, pll := Vector.replicate 9 (.judging 0), idleLevel := 3, idleJudged := false })
  else s

/-! ### Judging REF (15 R418) -/

/-- The device is held in reset by a status that concerns a clock domain. -/
def State.holdClock (s : State) (d : Nat) : State :=
  s.updPwr (fun p => { p with
    phase := .held, startStatus := 0x0705, resetStatus := 0x0705, failRegion := (Config.domainCode d).toNat
    enCore := false, enMain := false, pgoodCore := false, pll := Vector.replicate 9 .off, exit := none })

/-- A count lies in the window of R418; without ANALOG_TRIM the first judgement takes the wider one of 13 R377. -/
def State.refGoodCount (s : State) (count : Nat) : Bool :=
  if failedState (s.regionState 7) && !s.pwr.refStable then decide (640625 ≤ count) && decide (count ≤ 921875)
  else decide (753907 ≤ count) && decide (count ≤ 808593)

/-- REF_COUNT_WINDOW: a window of 1,024 AON cycles ends with a count of REF. -/
def execRefCountWindow (count : Nat) (s : State) : Host.Outcome State Fault Refusal :=
  if !s.isReady 1 || !s.alive then .next s
  else
    let ok := s.refGoodCount count
    if s.pwr.refStable then
      if ok then .next (s.updPwr (fun p => { p with refBad := 0 }))
      else if s.pwr.refBad = 0 then .next (s.updPwr (fun p => { p with refBad := 1 }))
      else .next (s.fatal 0x0705 7 8 0)
    else
      let s := s.updPwr (fun p => { p with
        refWindows := p.refWindows + 1, refGood := if ok then p.refGood + 1 else 0 })
      if 4 ≤ s.pwr.refGood then .next (s.updPwr (fun p => { p with refStable := true, refBad := 0 })).tryCore
      else if 64 ≤ s.pwr.refWindows then .next (s.holdClock 9)
      else .next s

/-! ### Judging PLLs (15 R419, R420, R447) -/

/-- The accepted counts of R419; FACET and HBM are judged without a count (R420). -/
def pllAccepts (d count : Nat) : Bool :=
  let w (lo hi : Nat) : Bool := decide (lo ≤ count) && decide (count ≤ hi)
  if d = dSys then w 20470 20490
  else if d = dPix then w 24564 24588
  else if d = dAdc then w 2621 2622
  else if d = dPcie ∨ d = dTime then w 10235 10245
  else if d = dEth then w 6397 6403
  else true

/-- The scratchpads of a Prism are initialised (05 R150). -/
def State.initPrism (s : State) (p : Nat) : State :=
  (List.range 4).foldl (fun s i => s.clearRange (unitAddr (fin16 (4 * p + i)) 0) 0x800000) s

/-- VDD_CORE and the FACET clock serve. -/
def State.coreReady (s : State) : Bool := s.facetClock && s.pwr.pgoodCore

/-- VDD_CORE and FACET are ready: after bring-up the Prisms are initialised and become ready (05 R150); after the
undoing of shedding stage 3 the retained ones do (15 R445). -/
def State.facetsUp (s : State) : State :=
  if s.coreReady && s.pwr.sleep == 0 then
    if s.pwr.facetsWait then
      (s.updPwr (fun p => { p with facetsWait := false })).prismsReady
        (if s.pwr.shed < 2 then [0, 1, 2, 3] else [0])
    else
      (List.range 4).foldl (fun s p =>
        if s.isReady (5 + p) || s.err.isolated.getLsbD p || shedRegion s.pwr.shed p then s
        else (s.initPrism p).setReady (5 + p) true) s
  else s

/-- The device is in a sleep state, or on its way out of one. -/
def State.sleeps (s : State) : Bool := s.pwr.sleep != 0

/-- A domain's PLL has been accepted: its functions become ready (R447); during an exit from sleep those come back as the
exit ends, but for READY.SYS and READY.LOCALBUS. -/
def State.domainUp (s : State) (d : Nat) : State :=
  if d = dSys then
    let s := ((s.setReady 3 true).setReady 16 true).updPwr (fun p => { p with
      phase := if p.phase = .starting then .running else p.phase })
    if s.sleeps then s else s.absentFaults
  else if s.sleeps then s
  else if d = dFacet then s.facetsUp
  else if d = dHbm then
    s.updHbm (fun h => { h with phase := if h.phase = .off then .training 0 else h.phase })
  else if d = dPix then
    let s := s.updImg (fun m => { m with mode := if m.mode = .off then .standby else m.mode })
    if 2 ≤ s.pwr.shed then s else s.objectiveBack
  else s

/-- A PLL's phase. -/
def State.setPll (s : State) (d : Fin 9) (x : PllPhase) : State :=
  s.updPwr (fun p => { p with pll := p.pll.set d x })

/-- The 64th window of a domain has failed (R419). -/
def State.pllFails (s : State) (d : Fin 9) : State :=
  if d.val = dSys then s.holdClock dSys
  else
    let s := (s.setPll d .stopped).updPwr (fun p => { p with
      startStatus := 0x0705, resetStatus := 0x0705, failRegion := (Config.domainCode d.val).toNat })
    s.powerRec 0x0705 6 0 0 (Config.domainCode d.val).toNat 0 0 0

/-- A count of a running PLL lies within ±500 ppm (R421). -/
def State.pllInRange (s : State) (d count : Nat) : Bool :=
  let near (want : Nat) : Bool := decide (2000 * (max count want - min count want) ≤ want)
  if d = dFacet then near (1024 * facetMHz s.pwr.level / 25)
  else if d = dHbm then near 32768
  else pllAccepts d count

/-- A running PLL's count of the millisecond: consecutive windows out of range. -/
def State.pllCounted (s : State) (d : Fin 9) (count : Nat) : State :=
  s.updPwr (fun p => { p with
    pllBad := p.pllBad.set d (if s.pllInRange d.val count then 0 else p.pllBad[d] + 1) })

/-- The first domain with two bad windows in a row. -/
def State.badPll (s : State) : Option Nat :=
  (List.range 9).find? (fun d => match s.pwr.pllBad[d]? with | some n => decide (2 ≤ n) | none => false)

/-- PLL_COUNT_CHECK: the counts of the domains in the order of R417; AON is none of them. Two bad windows of one
domain in a row are fatal, and the detail of the error record names the domain. -/
def execPllCountCheck (counts : List Nat) (s : State) : Host.Outcome State Fault Refusal :=
  if !s.isReady 3 then .next s
  else
    let s := ([1, 2, 3, 4, 5, 6, 7, 8] : List (Fin 9)).foldl (fun s d =>
      match s.pllOf d.val, counts[d.val]? with
      | .good, some c => s.pllCounted d c
      | _, _ => s) s
    .next (match s.badPll with
      | some d => (s.errorRec 0x0705 7 8 0 3 0 (leBytes 1 (Config.domainCode d).toNat)).fatal 0x0705 7 8 0
      | none => s)

/-! ### Idleness (15 R434) -/

/-- The deepest enabled state whose threshold IDLE_TIME has reached, 0 for none (R434). -/
def State.sleepTarget (s : State) : Nat :=
  let ms := s.idleMs
  let v := s.host.sleepCtl.toNat
  let due (x unit : Nat) : Bool := x != 0 && decide (x * unit ≤ ms)
  if due (bitsOf v 16 8) 10000 then 3 else if due (bitsOf v 8 8) 100 then 2 else if due (bitsOf v 0 8) 1 then 1 else 0

/-! ### Entry (15 R432, R435, R436) -/

/-- What S2 and S3 save; on the way from S2 to S3 the core supply's items stay as S2 has saved them. -/
def State.saveRegs (s : State) : State :=
  let v : Saved := ⟨s.host, s.tk.rate, s.tk.now, s.net.ptp.adj, s.tk.now, s.pwr.level, s.pwr.vid, s.pwr.idleLevel⟩
  s.updPwr (fun p => { p with saved := some (match p.saved with
    | some w => { v with level := w.level, vid := w.vid, idle := w.idle }
    | none => v) })

/-- The steps of S1. -/
def State.enterS1 (s : State) : State := (s.holdNow.sensorStandby []).selfRefresh.notReady [4, 5, 6, 7, 8, 9]

/-- PLLs of a list switched off; one that has failed stays stopped (R419). -/
def State.pllsOff (s : State) (ds : List (Fin 9)) : State :=
  ds.foldl (fun s (d : Fin 9) => if s.pwr.pll[d] = .stopped then s else s.setPll d .off) s

/-- The steps of S2. -/
def State.enterS2 (s : State) : State :=
  let s := s.saveRegs.enterS1.loseRegions
  let s := s.pllsOff [2, 3, 4, 5]
  let s := (s.updWav (fun w => { w with
    refOn := false, refFault := false, refReady := false, trim := [], trimNext := none })).notReady [10, 11]
  let s := s.updImg (fun m => { m with mode := .off, burstOut := none })
  s.updPwr (fun p => { p.coreOff s.tk.now with facetsWait := false })

/-- Memory that S3 keeps: Control SRAM, and what lies outside the device. -/
def keptMem (m : SMap Byte) : SMap Byte :=
  m.filter (fun p => (ctlBase ≤ p.1 && p.1 < otherBase + 0x100000) || hostBase ≤ p.1)

/-- Host-control state that S3 keeps outside the saved registers: what lies in always-on or Control SRAM. -/
def HostCtl.throughS3 (h : HostCtl) : HostCtl :=
  { HostCtl.reset with
    mailbox := h.mailbox, expSeq := h.expSeq, seqs := h.seqs, held := h.held, lost := h.lost
    lostBefore := h.lostBefore, dataBase := h.dataBase, dataSize := h.dataSize, dataPos := h.dataPos
    dataUsed := h.dataUsed, perst := h.perst }

/-- The steps of S3: both images go, the registers are saved, and everything but always-on and Control SRAM is
lost. -/
def State.enterS3 (s : State) : State :=
  let s := (s.cancelStart.saveRegs).pllsOff [1, 2, 3, 4, 5, 6, 7, 8]
  let z := State.reset
  let s := (List.range 2).foldl (fun s p => s.portDown (fin2 p)) s
  let s := s.notReady [2, 3, 4, 5, 6, 7, 8, 9, 10, 11, 12, 13, 14, 15, 16, 17, 18]
  { s with
    mem := keptMem s.mem, poison := [], upsets := [], wbQueue := [], cnt := [], facets := z.facets, sched := z.sched
    ap := { z.ap with full := s.ap.full, sealed := s.ap.sealed }
    hbm := { z.hbm with
      phase := if s.hbm.phase = .failed then .failed else .off
      credited := s.hbm.credited, rate := s.hbm.rate
      marks := s.hbm.marks.map (fun m => { m with stale := m.stale || m.part.isSome }) }
    dma := z.dma, tmplStatus := [], exp := z.exp, cnd := z.cnd, img := { z.img with theta := s.img.theta }
    wav := { z.wav with
      halted := s.wav.halted, standing := if s.wav.halted then s.wav.standing else none
      conv := z.wav.conv.zipWith (fun a b => { a with failed := b.failed }) s.wav.conv }
    net := { s.net with ptp := { s.net.ptp with
      state := .free, slave := none, masters := z.net.ptp.masters, master := none, gm := none, syncWait := none, good := 0, bad := 0
      reqAt := z.net.ptp.reqAt, respWait := z.net.ptp.respWait } }
    beam := { s.beam with peers := s.beam.peers.map (fun p => { p with
      up := false, epoch := if p.up then (p.epoch + 1) % 4294967296 else p.epoch
      unacked := [], waiting := [], txSeq := 0, rxSeq := 0, rtoUs := 100, expiries := 0 }), remote := [] }
    host := s.host.throughS3
    jnl := { s.jnl with mirrorFrom := s.jnl.head, mirrorNext := s.jnl.head }
    err := { s.err with snap := none, shadow := none, snapCount := 0, made := [] }
    trust := { s.trust with calDigest := none }
    tk := { s.tk with tickLatch := none, timeLatch := none, stepPending := none, pendingRate := none }
    pwr := { s.pwr.coreOff s.tk.now with
      enMain := false, pgoodMain := false, mainSeen := false, facetsWait := false } }

/-- A node that a sleep state does not want is still on: its gating has been refused. -/
def State.gateHeld (s : State) : Bool := (List.range 36).any (fun n => s.pwr.gates.getLsbD n && !s.wantNode n)

/-- The gating that a sleep state asks for, requested before its entry commits (R435). -/
def State.gatesFor (s : State) (n : Nat) : State := (s.updPwr (fun p => { p with phase := .asleep n })).syncGates srcPower

/-- Entry to a sleep state from its commit on. -/
def State.commitSleep (s : State) (n : Nat) : State :=
  let t := if n = 1 then s.enterS1 else if n = 2 then s.enterS2 else s.enterS3
  (t.updPwr (fun p => { p with phase := .asleep n, sleepAt := s.tk.now })).syncGates srcPower

/-- SLEEP_ENTRY (R433 to R435): the test of idleness and the gating, either of which may abandon the entry, and entry to the
state that is due, deeper than the one the device is in. -/
def execSleepEntry (s : State) : Host.Outcome State Fault Refusal :=
  let awake := match s.pwr.phase with
    | .running => s.isReady 3
    | .asleep _ => s.pwr.exit.isNone
    | _ => false
  if !awake then .next s
  else
    let s := s.noteIdle
    let n := s.sleepTarget
    if !s.idle || n ≤ s.pwr.sleep then .next s
    else
      let g := s.gatesFor n
      let back := g.updPwr (fun p => { p with phase := s.pwr.phase })
      .next (if g.gateHeld then (back.syncGates srcPower).idleReset else back.commitSleep n)

/-! ### Wake and exit (15 R436 to R438) -/

/-- A wake: latched in a sleep state, and IDLE_TIME returns to 0. -/
def State.wakeBy (s : State) (src : Nat) : State :=
  let s := s.idleReset
  if s.pwr.sleep = 0 then s else s.updPwr (fun p => { p with wakeLatched := true, wakeSrc := src })

/-- WAKE (R438): the pin moves; its rising edge wakes. -/
def execWake (level : Bool) (s : State) : Host.Outcome State Fault Refusal :=
  let rises := level && !s.pwr.wakePin
  let s := s.updPwr (fun p => { p with wakePin := level })
  .next (if rises && s.pwr.pscUp then s.wakeBy 2 else s.noteIdle)

/-- Saved registers restored after S3 (R436). -/
def HostCtl.restore (h v : HostCtl) : HostCtl :=
  { h with
    owner := v.owner, cmdBaseLo := v.cmdBaseLo, cmdBaseHi := v.cmdBaseHi, cmdSize := v.cmdSize, cmdPut := v.cmdPut
    cmdGet := v.cmdGet, evtBaseLo := v.evtBaseLo, evtBaseHi := v.evtBaseHi, evtSize := v.evtSize
    evtPut := v.evtPut, evtGet := v.evtGet, mboxOff := v.mboxOff, mboxSpace := v.mboxSpace, mboxInc := v.mboxInc
    irqStatus := v.irqStatus, irqEnable := v.irqEnable, perfLevel := v.perfLevel, perfAuto := v.perfAuto
    sleepCtl := v.sleepCtl, wdogPeriod := v.wdogPeriod, wdogStart := v.wdogStart
    wdogRuns := v.wdogRuns, hostLost := v.hostLost, regionAuto := v.regionAuto
    spareA := v.spareA, spareB := v.spareB }

/-- PLLs of a list that are off enabled, to be judged (R419, R420). -/
def State.pllsOn (s : State) (ds : List (Fin 9)) : State :=
  ds.foldl (fun s (d : Fin 9) => if s.pwr.pll[d] = .off then s.setPll d (.judging 0) else s) s

/-- The regulator step of S2: EN_CORE high with the saved VID_CORE, level and FACET PLL settings, as far as shedding leaves
them (R436, R444). -/
def State.coreBack (s : State) : State :=
  let (l, v, i) := match s.pwr.saved with
    | some v => if 1 ≤ s.pwr.shed then (3, 14, 3) else (v.level, v.vid, v.idle)
    | none => (3, 14, 3)
  if 3 ≤ s.pwr.shed then s
  else s.updPwr (fun p => { p with
    enCore := true, pgoodCore := false, vid := v, level := l, idleLevel := i, idleJudged := false })

/-- Functions that every state gates come back where their clocks serve and no shedding stage or isolation keeps them off
(R447, R444); Facets whose supply an undoing in S1 has raised come back once it and their clock serve (R445). -/
def State.functionsBack (s : State) : State :=
  let s := if s.pwr.shed < 3 then s.leaveRefresh else s
  let s := if 2 ≤ s.pwr.shed then s else s.objectiveBack
  if !s.facetClock || (s.pwr.facetsWait && !s.coreReady) then s
  else
    let s := s.updPwr (fun p => { p with facetsWait := false })
    if s.pwr.shed < 2 then s.prismsReady [0, 1, 2, 3] else if s.pwr.shed = 2 then s.prismsReady [0] else s

/-- The active image's Facet configuration restored after S2 (R436). -/
def State.regionsBack (s : State) : State :=
  match s.sched.active with
  | some im => s.loadRegions im (fun _ => true)
  | none => s

/-- A VID_CORE code restored in the middle of a change goes to that of the level in force. -/
def Power.vidSettled (p : Power) : Power :=
  if p.enCore && p.vid != levelVid p.level then p.beginLevel p.level else p

/-- The last steps of an exit: the POWER record, the SHED records that waited, and commands taken again (R437,
R444). -/
def State.awake (s : State) (n src at_ : Nat) : State :=
  let held := s.pwr.shedHeld
  let s := s.updPwr (fun p => { p with
    phase := .running, wakeLatched := false, shedHeld := [], exit := none, saved := none }.vidSettled)
  let s := s.idleReset.powerRec 0 5 n src 0 0 0 at_
  let s := held.foldl (fun s r => s.eventAt 0x0031 srcPower r.1 r.2.1 r.2.2.1 0 r.2.2.2) s
  (s.retarget.syncGates srcPower).serveAll

/-- TIME after S3: its saved value and the AON cycles that have passed, whose number the spec leaves open. -/
def State.timeBack (s : State) (v : Saved) : State :=
  let s := s.aonPass
  let t := s.tk.now
  let s : State := { s with tk := { s.tk with rate := v.rate } }
  let s := s.updHbm (fun h => { h with credited := t })
  let s := s.stepTime t
  s.updPtp (fun p => { p with adj := v.adj })

/-- The firmware retained in Control SRAM has its digest (R437). -/
def State.retainedOk (s : State) : Bool :=
  s.trust.boot == .running && sha384 (s.readB (ctlBase + 0x4400) s.trust.fw.len) == s.trust.fw.digest

/-- The memory and logic steps of the exit from S2. -/
def State.finishS2 (s : State) : State :=
  (s.regionsBack.updImg (fun m => { m with mode := .standby })).functionsBack

/-- The memory and logic steps of the exit from S3: the scratchpads, TIME, the registers, and the firmware, whose digest is
compared. -/
def State.finishS3 (s : State) : State :=
  let v := match s.pwr.saved with
    | some v => v
    | none => ⟨s.host, s.tk.rate, s.tk.now, s.net.ptp.adj, s.tk.now, 3, 14, 3⟩
  let s := (List.range 4).foldl State.initPrism s
  let s := ((s.timeBack v).updHost (fun h => h.restore v.host)).flushHeld
  let s := s.updHbm (fun h => { h with phase := if h.phase = .off then .training 0 else h.phase })
  let s := s.updImg (fun m => { m with mode := .standby })
  let s := s.absentFaults.functionsBack
  let s := if s.retainedOk then (s.setReady 2 true).setReady 17 true
    else s.updTrust (fun t => { t with boot := .none })
  if 3 ≤ s.pwr.shed && !s.jnl.sealed then s.sealJournal else s

/-- The oscillator step is over once no PLL is under judgement; the memory and logic steps end the exit (R437). -/
def State.exitDone (s : State) : State :=
  let busy := s.pwr.pll.toList.any (fun x => match x with | .judging _ => true | _ => false)
  if s.pwr.exit = some .clocks ∧ busy = false then
    let n := s.pwr.sleep
    (if n = 3 then s.finishS3 else s.finishS2).awake n s.pwr.wakeSrc s.pwr.sleepAt
  else s

/-- The oscillator step of an exit: the PLLs, and in S3 the fuse start-up read, whose failure, or whose difference from what
was kept, holds the device in reset (13 R374, R387). -/
def State.exitClocks (s : State) : State :=
  let facet : List (Fin 9) := if s.pwr.enCore then [2] else []
  if s.pwr.sleep = 3 then
    let s := (s.aonPass.shedAsleep 3).fuseStart true
    if s.fuse.valid then
      ((s.updPwr (fun p => { p with exit := some .clocks })).pllsOn ([1, 3, 4, 5, 6, 7, 8] ++ facet)).exitDone
    else (s.setReady 1 false).updPwr (fun p => { p with wakeLatched := false, exit := none })
  else ((s.updPwr (fun p => { p with exit := some .clocks })).pllsOn ([3, 4, 5] ++ facet)).exitDone

/-- The core part of the regulator step: PGOOD_CORE is awaited, where shedding lets EN_CORE rise. -/
def State.exitSupply (s : State) : State :=
  let s := s.coreBack
  if s.pwr.enCore then s.updPwr (fun p => { p with exit := some .core }) else s.exitClocks

/-- PGOOD_CORE ends the regulator step. -/
def State.exitCore (s : State) : State := if s.pwr.exit = some .core then s.exitClocks else s

/-- PGOOD_MAIN ends the first part of the regulator step of S3. -/
def State.exitMain (s : State) : State := if s.pwr.exit = some .main then s.exitSupply else s

/-- SLEEP_EXIT (R437): after a wake, the regulator step begins; each step waits for its ready signal, and the last one ends
the exit. S1 has nothing to wait for. -/
def execSleepExit (s : State) : Host.Outcome State Fault Refusal :=
  if !s.pwr.wakeLatched || s.pwr.exit.isSome then .next s
  else
    match s.pwr.sleep with
    | 1 => .next (s.functionsBack.awake 1 s.pwr.wakeSrc s.pwr.sleepAt)
    | 2 => .next s.exitSupply
    | 3 => .next (s.updPwr (fun p => { p with enMain := true, pgoodMain := false, mainSeen := false, exit := some .main }))
    | _ => .next s

/-! ### Signals of supplies and clocks (15 R419, R420, R428, R429; 17 R473) -/

/-- PGOOD_MAIN_RISE (17 R473 step 5). -/
def execPgoodMainRise (s : State) : Host.Outcome State Fault Refusal :=
  let s := s.updPwr (fun p => { p with pgoodMain := true })
  .next (if s.pwr.enMain then (s.updPwr (fun p => { p with mainSeen := true })).tryCore.exitMain else s)

/-- PLL_JUDGED: a judging window or the fixed delay of a PLL ends. For FACET in operation it is the idle PLL that
is judged (R420). -/
def execPllJudged (d : Fin 9) (count : Nat) (s : State) : Host.Outcome State Fault Refusal :=
  match s.pllOf d.val with
  | .judging n =>
    if pllAccepts d.val count then
      .next ((((if d.val = dFacet then (s.setPll d .good).updPwr (fun p => { p with idleJudged := true })
        else s.setPll d .good).domainUp d.val).syncGates srcPower).exitDone)
    else if n + 1 < 64 then .next (s.setPll d (.judging (n + 1)))
    else .next (s.pllFails d).exitDone
  | .good => .next (if d.val = dFacet then s.updPwr (fun p => { p with idleJudged := true }) else s)
  | _ => .next s

/-- PGOOD_CORE_RISE: settling of a level change begins, or the Facets are ready. -/
def execPgoodCoreRise (s : State) : Host.Outcome State Fault Refusal :=
  .next (if s.pwr.enCore then
    (((s.updPwr (fun p => { p with pgoodCore := true })).levelPgood.facetsUp).syncGates srcPower).exitCore
  else s)

/-- PGOOD_CORE_TIMEOUT (R429): 1 ms after a VID_CORE change, or after EN_CORE (17 R473). -/
def execPgoodCoreTimeout (s : State) : Host.Outcome State Fault Refusal :=
  .next (if s.pwr.enCore && !s.pwr.pgoodCore then s.levelFails else s)

/-- PGOOD_CORE_LOW (R429): outside a VID_CORE change while EN_CORE is high. -/
def execPgoodCoreLow (s : State) : Host.Outcome State Fault Refusal :=
  .next (if s.pwr.enCore && s.pwr.pgoodCore then s.supplyReset else s)

/-! ### The Periscope (15 R439, R440) -/

/-- STATE of the status block. -/
def State.pscState (s : State) : Nat :=
  match s.pwr.phase with
  | .starting => 1
  | .running => if s.trust.boot = .waitPush then 2 else if s.isReady 2 then 3 else 1
  | .asleep n => 3 + n
  | .tripped => 7
  | _ => 0

/-- The fuses have been read since the device came out of reset. -/
def State.fusesRead (s : State) : Bool := s.fuse.valid || s.fuse.critical || s.pwr.startStatus == 0x0607

/-- The status block. -/
def State.pscBlock (s : State) : List Byte :=
  let b := leBytes 1 1 ++ leBytes 1 s.pscState ++ leBytes 1 (if s.fusesRead then s.lifecycle else 0xFF) ++
    leBytes 1 (s.pwr.shed + bit s.host.hostLost 2 + bit (s.trust.slot == 1) 3) ++ leBytes 2 s.pwr.startStatus ++
    leBytes 1 s.pwr.resetCause ++ leBytes 1 s.pwr.resetCount ++ leBytes 1 s.pwr.failRegion ++
    leBytes 1 (bit s.fuse.critical 0 + bit s.fuse.ownerAbsent 1 + bit s.fuse.regionAbsent 2) ++
    leBytes 2 s.pwr.failWord ++ leBytes 2 (s.pwr.supply[0]).mv ++ leBytes 1 s.pwr.wakeSrc
  b ++ [b.foldl (fun x y => x ^^^ y) 0]

/-- PERISCOPE_TRANSACTION (R439): an I²C transaction to an address, its write phase if it has one, and the number of
bytes read. The pointer is 0 after the STOP. -/
def execPeriscopeTransaction (addr : BitVec 7) (write : Option (List Byte)) (count : Nat) (s : State) :
    Host.Outcome State Fault Refusal :=
  if !s.pwr.pscUp || addr.toNat != 0x4A + s.pwr.pscAddr then .next s
  else
    let p := match write with
      | some (b :: _) => b.toNat % 16
      | _ => 0
    let blk := s.pscBlock
    let s := s.updPwr (fun x => { x with psc := 0 })
    let s := if count = 0 then s
      else s.emit (.readBytes ((List.range count).map (fun i => blk.getD ((p + i) % 16) 0)))
    .next (s.wakeBy 1)

end Sys2Proof.Machine
end

