-- ==== Sys2Proof/Machine/Late.lean ====
section
/-! DEFINITION. Commands whose ends let waiting work go on: DMA completions (08 R208, R219), container checks and the
boot (14 R394, R399), fuse operations (13 R380, R384, R386) and restarts (16 R455 to R457). -/

namespace Sys2Proof.Machine

/-! ### DMA (08) -/

/-- DESCRIPTOR_FETCH (R205 to R210). A descriptor ends the device's idleness (15 R433). -/
def execDescriptorFetch (e : Fin 5) (c : Fin 8) (s : State) : Host.Outcome State Fault Refusal :=
  .next (s.fetchStep e c).idleReset.settle

/-- TRANSFER_COMPLETE (R208): the preloads of a START may be complete with it (02 R61). -/
def execTransferComplete (e : Fin 5) (c : Fin 8) (s : State) : Host.Outcome State Fault Refusal :=
  .next (s.transferEnds e c).settle

/-- DESCRIPTOR_ABORT (R219). -/
def execDescriptorAbort (e : Fin 5) (c : Fin 8) (s : State) : Host.Outcome State Fault Refusal :=
  .next (s.abortDrained e c).settle

/-- BUCKET_GRANT (06 R164). -/
def execBucketGrant (ms : List Meet) (s : State) : Host.Outcome State Fault Refusal := .next (s.bucketStep ms).settle

/-- HBM_TRAINING: an attempt at training ends; the third failure is final (06 R170). A stack that is trained while it has
to be in self-refresh (R171) enters it. -/
def execHbmTraining (ok : Bool) (s : State) : Host.Outcome State Fault Refusal :=
  match s.hbm.phase with
  | .training n =>
    let awake := s.pwr.shed < 3 && (match s.pwr.phase with | .asleep _ => false | _ => true)
    if ok then
      .next (if awake then s.hbmReady
        else (s.updHbm (fun h => { h with phase := .selfRefresh })).count srcHbm hSelfRefresh 1)
    else if n + 1 < 3 then .next (s.updHbm (fun h => { h with phase := .training (n + 1) }))
    else
      let s := s.updHbm (fun h => { h with phase := .failed })
      let s : State := { s with pwr := { s.pwr with resetStatus := 0x0842, startStatus := 0x0842 } }
      .next (s.stackFault 0x0842)
  | _ => .next s

/-! ### Trust (14) -/

/-- FIRMWARE_BOOT (R396, R399): after READY.SYS the boot ROM loads and checks the slots. A BLANK device
has no firmware (R403). Descriptors waiting in the ring are taken once it serves. -/
def execFirmwareBoot (s : State) : Host.Outcome State Fault Refusal :=
  .next (if s.isReady 3 && !s.isReady 2 && s.pwr.phase == .running && s.lifecycle != 0 &&
      s.trust.boot != .waitPush then
    (s.bootRom.serveAll).settle
  else s)

/-- CONTAINER_CHECKED (R394): the oldest container in check is accepted or refused. -/
def execContainerChecked (s : State) : Host.Outcome State Fault Refusal :=
  match s.trust.checks with
  | [] => .next s
  | a :: as => .next (((s.updTrust (fun t => { t with checks := as })).containerChecked a).settle)

/-! ### Fuses (13) -/

/-- FUSE_PROGRAMMING_DONE (R380, R384): the pulses of the operation in progress end, with each bit's pulses and
verdict. -/
def execFuseProgrammingDone (outcomes : List (Nat × Nat)) (s : State) : Host.Outcome State Fault Refusal :=
  .next (s.pulsesDone outcomes).settle

/-- VPP_FUSE_PRESENCE (R380; 17 R488): VPP_FUSE has stood at a voltage for 100 µs. Leaving the window stops an
operation that uses it after the bit in progress. -/
def execVppFusePresence (mv : Nat) (outcomes : List (Nat × Nat)) (s : State) : Host.Outcome State Fault Refusal :=
  if 6000 < mv then .fault .outsideRatings
  else
    let s := (s.updFuse (fun f => { f with vpp := 5200 ≤ mv && mv ≤ 5800 })).fuseCheck
    match s.fuse.op with
    | some op => .next (if op.external && op.cut then (s.pulsesDone outcomes).settle else s)
    | none => .next s

/-- FUSE_REREAD (R386): in every state but S3, behind a programming operation in progress. -/
def execFuseReread (reads : List (Fin 528 × DWord × DWord)) (s : State) : Host.Outcome State Fault Refusal :=
  .next (if s.isReady 1 && s.pwr.sleep != 3 then s.startJob (.reread reads) else s)

/-! ### Restarts (16) -/

/-- SAMPLE_TRIGGER (10 R264 to R269), after which an Analog region that waits for a block boundary may rejoin (R456). -/
def execSampleTrigger (s : State) : Host.Outcome State Fault Refusal :=
  let t := s.sampleTrigger.rejoinBlock s.wav.trig
  .next (if s.err.isolated.getLsbD 5 && !t.err.isolated.getLsbD 5 then (t.syncGates srcPower).settle else t)

/-- AUTO_RESTART (R455): an isolated region whose REGION_CTL.AUTO bit is set, unless it is left to
REGION_RESTART. -/
def execAutoRestart (r : Fin 7) (s : State) : Host.Outcome State Fault Refusal :=
  .next (if s.err.isolated.getLsbD r.val && !s.err.restarting.getLsbD r.val && s.host.regionAuto.getLsbD r.val &&
      !s.err.manual.getLsbD r.val then
    (s.updErr (fun e => { e with autoTimes := (s.tk.now, r.val) :: e.autoTimes })).beginRestart r
  else s)

/-- RESTART_STEPS_DONE (R456, R457): the steps of a restart, the judging of its clocks among them, end; the region waits for its tick, Edge rejoins at
once, or the restart fails. -/
def execRestartStepsDone (r : Fin 7) (ok : Bool) (s : State) : Host.Outcome State Fault Refusal :=
  if !s.err.restarting.getLsbD r.val || s.err.heldRestart.getLsbD r.val || s.err.rejoin.getLsbD r.val then .next s
  else if !ok || (regionPlls r.val).any (fun (d : Fin 9) => s.pwr.pll[d] == .stopped) then .next (s.restartFails r).settle
  else if (regionPlls r.val).any (fun (d : Fin 9) => match s.pwr.pll[d] with | .judging _ => true | _ => false) then .next s
  else
    let s := s.restartSteps r.val
    let s := if r.val = 6 then s.rejoin r
      else s.updErr (fun e => { e with rejoin := e.rejoin ||| regionBit r.val })
    .next (s.syncGates srcPower).settle

end Sys2Proof.Machine
end

