-- ==== Sys2Proof/Machine/Edge.lean ====
section
/-! DEFINITION. The tick edge (02 R32 to R40, R61 to R69) and all that takes effect at it. -/

namespace Sys2Proof.Machine

/-! ### The end of a tick (02 R64 to R66) -/

/-- A Facet still executing at the edge has overrun its tick. -/
def State.overrunFacet (s : State) (f : Fin 16) : State :=
  let x := s.facets[f]
  let late := match x.phase with
    | .running => true
    | .waiting => true
    | _ => false
  if !late then s
  else
    let sec := s.tk.now / 1000000000
    let s := s.updFacet f (fun x => { x with
      invalid := true, overruns := x.overruns + 1, overrunSec := some sec, phase := .ended, prog := [] })
    let s := (s.count (srcFacet f) cOverrun 1).errorRec 0x0220 (f.val / 4) (f.val % 4) 0 1 1 []
    let s := s.fault 0x0220 (srcFacet f) (f.val / 4) (f.val % 4) 0 []
    let s := if x.overrunSec = some sec then s
      else s.openJournal.journalDev 0xFF02 0x0220 (leBytes 1 f.val ++ zeroBytes 7 ++ leBytes 8 s.tk.tick)
    (s.publishAll f).releaseEmits f

/-- A Facet's figures of the tick that ends (R66, R68; 16 R465). -/
def Facet.counted (x : Facet) : Facet :=
  { x with
    validTicks := x.validTicks + (if x.mainProg && !x.invalid then 1 else 0)
    invalidTicks := x.invalidTicks + (if x.invalid then 1 else 0)
    suspendedTicks := x.suspendedTicks + (if x.mainProg then 0 else 1) }

/-- The figures of the tick that ends, of the running image. -/
def State.countTick (s : State) : State :=
  match s.runningImage with
  | none => s
  | some im =>
    let fs := (List.range 16).filter (bitOf im.mask)
    let bad := fs.any (fun f => (s.facets[fin16 f]).invalid)
    let main := fs.all (fun f => (s.facets[fin16 f]).mainProg)
    let s := fs.foldl (fun s f => s.updFacet (fin16 f) Facet.counted) s
    s.updSched (fun x => { x with
      validTicks := x.validTicks + (if main && !bad then 1 else 0)
      invalidTicks := x.invalidTicks + (if bad then 1 else 0)
      suspendedTicks := x.suspendedTicks + (if main || bad then 0 else 1) })

/-! ### The edge itself (02 R32 to R34) -/

/-- Tick number, second, index and instant of the next edge; a new rate takes effect at the second's boundary. -/
def TimeSt.nextEdge (t : TimeSt) : TimeSt :=
  if t.k + 1 < t.rate then { t with tick := (t.tick + 1) % 2 ^ 64, k := t.k + 1, edge := t.sec * 1000000000 + edgeOff t.rate (t.k + 1) }
  else
    let n := t.pendingRate.getD t.rate
    { t with
      tick := (t.sec + 1) * n % 2 ^ 64, sec := t.sec + 1, k := 0, edge := (t.sec + 1) * 1000000000, rate := n
      pendingRate := none }

/-- The snapshot named for a tick that has come (16 R463). -/
def State.snapEdge (s : State) : State :=
  match s.err.snap with
  | some (t, o) => if t ≤ s.tk.tick then s.takeSnapshot o else s
  | none => s

/-! ### STOP (02 R62; 08 R218; 09 R254; 10 R279) -/

/-- A schedule channel at a STOP: its descriptor in progress is its last, a waiting one completes ABORTED. -/
def State.stopChan (s : State) (e : Fin 5) (c : Fin 8) : State :=
  if isHostChan e c then s
  else
    match (s.chan e c).phase with
    | .waiting =>
      ((s.updChan e c (fun x => { x with noNext := true })).toAbort e c false false).abortDrained e c
    | .fetching => s.updChan e c (fun x => { x with phase := .idle })
    | .idle => s
    | .halted => s
    | .polling => s
    | _ => s.updChan e c (fun x => { x with noNext := true })

/-- A Facet idles. -/
def Facet.idled (x : Facet) (main : Bool) : Facet :=
  { x with
    flags := [], acc := [], prog := [], recIdx := 0, phase := .idle, waitTarget := 0, mainProg := main, cycle := 0
    prevArray := false, invalid := false, emits := [] }

/-- The Objective at a STOP: the frame in readout completes before standby. -/
def State.stopObjective (s : State) : State :=
  match s.img.mode with
  | .off => s.updImg (fun m => { m with cfg := none })
  | _ =>
    if s.img.frame.isSome then s.updImg (fun m => { m with stopping := true })
    else s.updImg (fun m => { m with mode := .standby, cfg := none, stopping := false })

/-- With PERF_REQ.AUTO the level follows the schedule (15 R427). -/
def State.autoLevel (s : State) : State := if s.host.perfAuto then s.retarget else s

/-- The running image stops. -/
def State.stopRunning (s : State) : State :=
  let s : State := { s with facets := s.facets.map (fun x => x.idled true) }
  let s := s.updSched (fun x => { x with running := false, mode := .main, resume := false })
  let s := (List.range 40).foldl (fun s n => s.stopChan (fin5 (n / 8)) (fin8 n)) s
  (s.stopObjective.stopConverters).autoLevel

/-- The active image is discarded; `kept` are the partitions that the next one inherits. -/
def State.discardActive (s : State) (im : Image) (kept : List Partition) : State :=
  let s := s.autoCloseFor im kept
  let s : State := { s with tmplStatus := [] }
  s.updSched (fun x => { x with active := none })

/-- STOP at an edge, or at the hyperperiod's when asked for. -/
def State.stopEdge (s : State) : State :=
  match s.sched.stop with
  | none => s
  | some (boundary, discard) =>
    match s.sched.active with
    | none => s.updSched (fun x => { x with stop := none })
    | some im =>
      if boundary && s.sched.running && s.tk.tick % im.h != 0 then s
      else
        let s := if s.sched.running then s.stopRunning else s
        let s := s.updSched (fun x => { x with stop := none })
        if discard then s.discardActive im [] else s

/-! ### START (02 R61; 06 R173) -/

/-- Two partitions are one and the same to R58. -/
def Partition.same (p q : Partition) : Bool :=
  p.base == q.base && p.size == q.size && p.kind == q.kind && p.prism == q.prism && p.egress == q.egress && p.id == q.id

/-- The partitions of an image that it inherits from another (02 R58). -/
def Image.inherited (im : Image) (old : Option Image) : List Partition :=
  match old with
  | none => []
  | some o => im.parts.filter (fun p => p.inherit && o.parts.any (fun q => q.inherit && p.same q))

/-- The first mark that serves no partition of a list. -/
def freeMark (ms : Vector HistMark 8) (ps : List Partition) : Option (Fin 8) :=
  ((List.range 8).map fin8).find? (fun i => match ms[i].part with
    | some q => !ps.any (fun p => p.same q)
    | none => true)

/-- History marks at a start: inherited HISTORY partitions keep theirs, the others take free ones in order. -/
def State.markStart (s : State) (im : Image) (kept : List Partition) : State :=
  let hist := im.parts.filter (·.history)
  let keeps := hist.filter (fun p => kept.any (fun q => p.same q))
  let ms := s.hbm.marks.map (fun m => match m.part with
    | some q => if keeps.any (fun p => p.same q) then m else { m with part := none }
    | none => m)
  let s := s.updHbm (fun h => { h with marks := ms })
  hist.foldl (fun s p =>
    if s.hbm.marks.toList.any (fun m => match m.part with | some q => p.same q | none => false) then s
    else match freeMark s.hbm.marks hist with
      | some i => s.setMark i ⟨some p, p.base, false, 0⟩
      | none => s) s

/-- The frame in readout ends with the configuration it began under. -/
def State.frameCut (s : State) : State :=
  match s.img.cfg, s.img.frame with
  | some c, some fr => s.endFrame c fr (fr.activeRows c) none
  | _, _ => s

/-- The sensor of a schedule without OBJECTIVE_CONFIG is in standby (09 R254). -/
def State.objectiveAt (s : State) (c : Option ObjCfg) : State :=
  let s := s.frameCut.objectiveStart c
  match c, s.img.mode with
  | some _, _ => s
  | none, .off => s
  | none, _ => s.updImg (fun m => { m with mode := .standby })

/-- The Facets' figures begin again (16 R465). -/
def Facet.fresh (x : Facet) : Facet :=
  { x.idled true with validTicks := 0, invalidTicks := 0, suspendedTicks := 0, overruns := 0 }

/-- The start of an image at its tick. -/
def State.startNow (s : State) (staged : Bool) (im : Image) : State :=
  let old := s.sched.active
  let kept := im.inherited old
  let s := match staged, old with
    | true, some o => s.autoCloseFor o kept
    | _, _ => s
  let s : State := if staged then { s with tmplStatus := s.tmplStatus.filter (fun t => im.preloads.contains t.idx) } else s
  let s := s.markStart im kept
  let s : State := { s with facets := s.facets.map Facet.fresh }
  let s := s.stopConverters
  let s := s.updSched (fun x => { x with
    active := some im, staged := if staged then none else x.staged, running := true, mode := .main
    startTick := s.tk.tick, start := none, resume := false, validTicks := 0, invalidTicks := 0, suspendedTicks := 0 })
  let s := (s.loadRegions im (fun _ => true)).objectiveAt im.objective
  let s := match im.converter with
    | some c => s.startConverters c s.tk.tick s.tk.edge
    | none => s
  s.autoLevel

/-- SCHEDULE_START at the edge of the start tick. -/
def State.startEdge (s : State) : State :=
  match s.sched.start with
  | some p =>
    match s.pendingImage p with
    | some im => if p.fixed && p.t == s.tk.tick then s.startNow p.staged im else s
    | none => s
  | none => s

/-! ### Suspension and holdover (02 R67 to R69) -/

/-- The main program may run at a shedding stage. -/
def mainAllowed (shed floor : Nat) : Bool := shed == 0 || (shed == 1 && floor == 3)

/-- What runs from this edge on; the main program resumes at a multiple of H with empty regions. -/
def State.modeEdge (s : State) : State :=
  match s.runningImage with
  | none => s
  | some im =>
    if mainAllowed s.pwr.shed im.floor then
      if s.sched.mode = .main then s
      else if s.tk.tick % im.h = 0 then
        (List.range 16).foldl (fun s f => s.emptyRegions (fin16 f))
          (s.updSched (fun x => { x with mode := .main, resume := false }))
      else s.updSched (fun x => { x with resume := true })
    else
      s.updSched (fun x => { x with
        mode := if s.pwr.shed = 2 ∧ im.holdover = true then .holdover else .suspended, resume := false })

/-! ### Slot programs (02 R38) -/

/-- The program of a Facet for a slot: of the main or of the holdover table. -/
def Image.program (im : Image) (main : Bool) (f slot : Nat) : SlotEntry :=
  ((if main then im.slots[slot * 16 + f]? else im.hold[slot * 4 + f]?)).getD ⟨0, 0, 0⟩

/-- A Facet begins a slot program. -/
def Facet.begin (x : Facet) (ops : List Rec) (e : SlotEntry) (slot : Nat) (main : Bool) : Facet :=
  { x.idled main with
    prog := (ops.drop e.first).take e.count, recIdx := e.first, slot := slot
    phase := if e.count = 0 then .idle else .running }

/-- A Facet at the edge. One of an isolated Prism runs nothing, and its tick is invalid (16 R454). -/
def State.slotFacet (s : State) (im : Image) (f : Fin 16) : State :=
  let slot := s.tk.tick % im.h
  let p := f.val / 4
  let main := s.sched.mode == .main
  let runs := s.isReady (5 + p) && (main || (s.sched.mode == .holdover && decide (f.val < 4)))
  s.updFacet f (fun x =>
    if !bitOf im.mask f.val then x.idled true
    else if s.err.isolated.getLsbD p then { x.idled true with phase := .ended, invalid := true }
    else if runs then x.begin im.ops (im.program main f.val slot) slot main
    else x.idled false)

/-- SLOT_PROGRAM_START. -/
def State.slotEdge (s : State) : State :=
  match s.runningImage with
  | some im => (List.range 16).foldl (fun s f => s.slotFacet im (fin16 f)) s
  | none => s

/-! ### Templates and waits (08 R212, R217) -/

/-- A slot template armed, or skipped while its channel owns a descriptor. -/
def State.armSlot (s : State) (i : Nat) (t : Tmpl) : State :=
  let e := fin5 t.engine
  let c := fin8 t.channel
  if s.engineOut e then s
  else
    match (s.chan e c).phase with
    | .idle => s.armChan e c i
    | .halted => s.armChan e c i
    | _ => (s.count (srcDma e c) dSkipped 1).tickFault 0x0106 (srcDma e c) (dmaRegion e) (dmaBlock e) 0

/-- TEMPLATE_ARMING: the templates of the tick's slot, in template order. -/
def State.armEdge (s : State) : State :=
  match s.runningImage with
  | some im =>
    if s.sched.mode = .main then
      (List.range im.templates.length).foldl (fun s i => match im.templates[i]? with
        | some t => if t.slot = s.tk.tick % im.h then s.armSlot i t else s
        | none => s) s
    else s
  | none => s

/-- A descriptor that waits for a tick edge takes its start instant from this one. -/
def Channel.atEdge (c : Channel) (edge rate : Nat) : Channel :=
  if c.phase = .waiting ∧ c.desc.waitKind = 1 ∧ c.startAt = none then
    { c with startAt := some (edge + (2 * c.desc.waitSel * 1000000000 + 16 * rate) / (32 * rate)) }
  else c

def State.waitEdge (s : State) : State :=
  { s with dma := s.dma.map (fun (e : Engine) => { e with
      ch := e.ch.map (fun c => c.atEdge s.tk.edge s.tk.rate) }) }

/-! ### Limits that change at edges (01 R31; 06 R162, R169) -/

/-- The Aperture's rules in force from this edge on. -/
def State.apertureEdge (s : State) : State :=
  { s with ap := { s.ap with crop := s.sched.active.map (·.crop), full := s.fullEgress } }

/-- The allowance in force, in GB/s. -/
def State.allowanceNow (s : State) (capped : Bool) : Nat :=
  let a :=
    if 3 ≤ s.pwr.shed ∨ s.pwr.sleep ≠ 0 then 0
    else if 1 ≤ s.pwr.shed then 16
    else match s.runningImage with
      | none => 224
      | some im => allowance (im.energy.getD s.pwr.level 0) im.tps
  if capped then min a 16 else a

/-- The allowance and the cap of R169 at an edge. -/
def State.rateEdge (s : State) : State :=
  let cap := s.hbm.capWanted
  let r := s.allowanceNow cap
  s.updHbm (fun h => { h with rate := r, capped := cap })

/-! ### TICK_EDGE -/

/-- The tick that ends: overruns, its figures, its FAULT records. -/
def State.endTick (s : State) : State :=
  let s := (List.range 16).foldl (fun s f => s.overrunFacet (fin16 f)) s
  s.countTick.flushFaults.updErr (fun e => { e with made := [] })

/-- What takes effect at an edge, the tick's number being in force. -/
def State.newTick (s : State) (pixel : Int) (rows : List RawRow) : State :=
  let s := (s.snapEdge.globalAt s.tk.tick).stopEdge.startEdge
  let s := ((s.shedEdge s.tk.edge rows).levelEdge).rejoinAt s.tk.tick s.tk.edge
  let s := s.fixActivation.apertureEdge.modeEdge.slotEdge.armEdge.waitEdge
  let s := (s.frameEdge s.tk.tick s.tk.edge pixel).rateEdge
  (s.deferStart.settle.applyStep.noteIdle).syncGates srcPower

/-- TICK_EDGE (02 R32): the next edge of the tick generator, while the TIME domain runs (15 R417). `pixel` is the
pixel-die temperature of a frame that starts, `rows` what was read of a frame that shedding cuts. -/
def execTickEdge (pixel : Int) (rows : List RawRow) (s : State) : Host.Outcome State Fault Refusal :=
  if s.pllOf dTime ≠ .good then .next s
  else
    let n := s.tk.nextEdge
    let s := (s.setTime (max s.tk.now n.edge)).endTick
    let s : State := { s with tk := { s.tk with
      tick := n.tick, sec := n.sec, k := n.k, edge := n.edge, rate := n.rate, pendingRate := n.pendingRate } }
    .next (if s.activationDue s.tk.tick then s.activateNow else s.newTick pixel rows)

end Sys2Proof.Machine
end

