-- ==== Sys2Proof/Machine/FacetArray.lean ====
section
/-! DEFINITION. The array macro-ops MM, MMT, CONV and DWCONV: operand layout (03 R83, R86), group
scaling (04 R105 to R108), output and requantisation (04 R109), and focus (04 R111 to R117). -/

namespace Sys2Proof.Machine

/-- A list cut into pieces of `n`, at most `k` of them. -/
def chunksOf (n : Nat) : Nat → List α → List (List α)
  | 0, _ => []
  | k + 1, l => l.take n :: chunksOf n k (l.drop n)

/-- The operands of an array record as element bits: streamed rows, weight columns, and the scale of a
row and group, of a group and column. -/
structure ArrayIn where
  a : List (List Nat)
  w : List (List Nat)
  sa : Array FVal
  sw : Array FVal
  groups : Nat
  ncols : Nat
  norms : Array Nat

/-- Scale of streamed row `m` and group `g`; 1.0 without activation scales (04 R105). -/
def ArrayIn.saAt (x : ArrayIn) (m g : Nat) : FVal :=
  if x.sa.isEmpty then fpOne else x.sa.getD (m * x.groups + g) fpZero

/-- Scale of group `g` and column `n`. -/
def ArrayIn.swAt (x : ArrayIn) (g n : Nat) : FVal := x.sw.getD (g * x.ncols + n) fpZero

def ArrayIn.normAt (x : ArrayIn) (g n : Nat) : Nat := x.norms.getD (g * x.ncols + n) 0

/-! ### Totals -/

/-- Signed values of integer elements. -/
def intElts (t : Elt) (l : List Nat) : List Int := l.map (fun v => signExt t.bits v)

def dotInt (a w : List Int) : Int := (List.zipWith (· * ·) a w).foldl (· + ·) 0

/-- The exact sum of products (04 R106, R108). -/
def dotFp (ta tw : Elt) (a w : List Nat) : FVal :=
  (List.zipWith (fun p q => (ta.decode p).mul (tw.decode q)) a w).foldl FVal.add fpZero

/-- 04 R107 steps 1 to 3: a group closes. -/
def closeGroup (total p sa sw : FVal) : FVal := rz32 (total.add (rz32 (p.mul (rz32 (sa.mul sw)))))

/-- The group partial of 04 R105 (integers, exact) or R106 (FP8, one rounding per K-tile). -/
def groupPartial (ta tw : Elt) (a w : List Nat) : FVal :=
  if ta.isInt then .ofInt (dotInt (intElts ta a) (intElts tw w))
  else if a.length ≤ 64 then rz32 (dotFp ta tw a w)
  else rz32 ((rz32 (dotFp ta tw (a.take 64) (w.take 64))).add
    (dotFp ta tw (a.drop 64) (w.drop 64)))

/-- The total of one output over all groups in ascending order (04 R107). -/
def scaledTotal (ta tw : Elt) (grp : Nat) (x : ArrayIn) (start : FVal) (m n : Nat)
    (a w : List Nat) : FVal :=
  ((List.range x.groups).zip ((chunksOf grp x.groups a).zip (chunksOf grp x.groups w))).foldl
    (fun t p => closeGroup t (groupPartial ta tw p.2.1 p.2.2) (x.saAt m p.1) (x.swAt p.1 n)) start

/-- The total of a BF16 output: one rounding for each K-tile pass (04 R108). -/
def bf16Total (kt : Nat) (start : FVal) (a w : List Nat) : FVal :=
  ((chunksOf 64 kt a).zip (chunksOf 64 kt w)).foldl
    (fun t p => rz32 (t.add (dotFp .bf16 .bf16 p.1 p.2))) start

/-! ### Decision and output (04 R109) -/

/-- ReLU of 04 R109: +0 for a total at or below zero; NaN stays NaN. -/
def relu (t : FVal) : FVal := if t.le fpZero then fpZero else t

/-- The output element of a total (03 R82, 04 R109), as bits. -/
def outElt (r : Rec) (t : FVal) : Nat :=
  match r.kind with
  | 2 => if fpZero.lt t then 1 else 0
  | 3 => if (fp32 (BitVec.ofNat 32 r.param)).lt t then 1 else 0
  | k =>
    let t := if k = 1 then relu t else t
    let o := elt r.outType
    match o with
    | .int8 | .int4 => o.encode (rz32 (t.mul (fp32 (BitVec.ofNat 32 r.param))))
    | _ => o.encode t

/-- The bytes of one output row (03 R83). -/
def outRow (r : Rec) (vs : List Nat) : List Byte := fitBytes r.yRow (packElts (elt r.outType) vs)

/-! ### Reading the operands -/

/-- The streamed rows of MM and MMT (03 R83). -/
def readA (w : Run) (x : Ctx) (r : Rec) : List (List Nat) × Run :=
  let t := elt r.ty0
  let tu := tileUnits t
  if r.op = opMMT && r.flagBit 4 then
    let n := ceilDiv (r.m * t.bits) 256
    let (rows, w) := w.readRows x (.ofWord r.op0) (if r.aStride = 0 then n else r.aStride) n
      (64 * r.kt) 0
    let cols := rows.map (fun b => (unpackElts t r.m b).toArray)
    ((List.range r.m).map (fun m => cols.map (fun c => c.getD m 0)), w)
  else
    let n := r.kt * tu
    let (rows, w) := w.readRows x (.ofWord r.op0) (if r.aStride = 0 then n else r.aStride) n r.m 0
    (rows.map (unpackElts t (64 * r.kt)), w)

/-- Unit offset of the 64 channels of tap (ky, kx), channel tile `c`, output pixel `j` (03 R86). -/
def convUnit (r : Rec) (tu ky kx c j : Nat) : Nat :=
  let cit := if r.op = opCONV then r.cit else 1
  ky * r.dilation * r.ktField + kx * r.dilation * cit * tu + j * r.cstride * cit * tu + c * tu

/-- The taps in the order of the K-tiles (03 R86). -/
def convTiles (r : Rec) : List (Nat × Nat × Nat) :=
  let cit := if r.op = opCONV then r.cit else 1
  (List.range r.kh).flatMap (fun ky => (List.range r.kw).flatMap (fun kx =>
    (List.range cit).map (fun c => (ky, kx, c))))

/-- Pieces of `n` units read at given offsets and joined. -/
def Run.readAtAll (w : Run) (x : Ctx) (ref : Ref) (n : Nat) : List Nat → List Byte × Run
  | [] => ([], w)
  | o :: os =>
    let (b, w) := w.read x ref o n
    let (bs, w) := w.readAtAll x ref n os
    (b ++ bs, w)

/-- The streamed rows of CONV and DWCONV: for each output pixel its taps (03 R86). -/
def readConvA (w : Run) (x : Ctx) (r : Rec) : Nat → Nat → List (List Nat) × Run
  | 0, _ => ([], w)
  | n + 1, j =>
    let t := elt r.ty0
    let tu := tileUnits t
    let (b, w) := w.readAtAll x (.ofWord r.op0) tu
      ((convTiles r).map (fun k => convUnit r tu k.1 k.2.1 k.2.2 j))
    let (bs, w) := readConvA w x r n (j + 1)
    (unpackElts t (64 * r.kt) b :: bs, w)

/-- Elements `n`, `n + stride`, … of an array: `cnt` of them. -/
def strided (a : Array Nat) (start stride cnt : Nat) : List Nat :=
  (List.range cnt).map (fun i => a.getD (start + i * stride) 0)

/-- The weight columns from the tiles (03 R83). -/
def weightCols (r : Rec) (bs : List Byte) : List (List Nat) :=
  let t := elt r.ty1
  let width := if t = .bf16 then 16 else 64
  let per := 64 * width
  let a := (unpackElts t (r.kt * per) bs).toArray
  (List.range r.ncols).map (fun n => (List.range r.kt).flatMap (fun k =>
    if r.op = opMMT && r.flagBit 5 then strided a (k * per + n * 64) 1 64
    else strided a (k * per + n) width 64))

/-- BF16 values of a packed array. -/
def bf16Array (n : Nat) (bs : List Byte) : Array FVal :=
  ((unpackElts .bf16 n bs).map Elt.bf16.decode).toArray

/-- Groups of an array record: KT · g, or one for DWCONV (03 R83, R86). -/
def Rec.groups (r : Rec) : Nat := if r.op = opDWCONV then 1 else r.kt * 64 / r.group

/-- The operands of MM, MMT and CONV. -/
def readArray (w : Run) (x : Ctx) (r : Rec) : ArrayIn × Run :=
  let (a, w) := if r.op = opCONV then readConvA w x r r.m 0 else readA w x r
  let tw := elt r.ty1
  let tiles := r.kt * tileBytes tw / 32
  let (wb, w) := w.read x (.ofWord r.op1) 0 tiles
  let g := r.groups
  let scaled := elt r.ty0 != .bf16
  let su := if scaled then unitsOf (g * r.ncols * 2) else 0
  let (sb, w) := w.read x (.ofWord r.op1) tiles su
  let (nb, w) := w.read x (.ofWord r.op1) (tiles + su)
    (if r.focus then unitsOf (g * r.ncols * 2) else 0)
  let (ab, w) := w.read x (.ofWord r.op3) 0
    (if r.op3 = 0 then 0 else unitsOf (r.m * g * 2))
  (⟨a, weightCols r wb, if r.op3 = 0 then #[] else bf16Array (r.m * g) ab,
    bf16Array (g * r.ncols) sb, g, r.ncols, (unpackElts .u16 (g * r.ncols) nb).toArray⟩, w)

/-- The operands of DWCONV: the weights of a channel over the taps (03 R86). -/
def readDw (w : Run) (x : Ctx) (r : Rec) : ArrayIn × Run :=
  let (a, w) := readConvA w x r r.m 0
  let tw := elt r.ty1
  let tu := tileUnits tw
  let (wb, w) := w.read x (.ofWord r.op1) 0 (r.kt * tu)
  let scaled := elt r.ty0 != .bf16
  let (sb, w) := w.read x (.ofWord r.op1) (r.kt * tu) (if scaled then unitsOf (r.ncols * 2) else 0)
  let (ab, w) := w.read x (.ofWord r.op3) 0 (if r.op3 = 0 then 0 else unitsOf (r.m * 2))
  let arr := (unpackElts tw (r.kt * 64) wb).toArray
  (⟨a, (List.range r.ncols).map (fun n => strided arr n 64 r.kt),
    if r.op3 = 0 then #[] else bf16Array r.m ab, bf16Array r.ncols sb, 1, r.ncols, #[]⟩, w)

/-! ### Writing the result -/

/-- Where the total of an output starts: the accumulator file's contents with ACC_IN, else +0. -/
def startTotal (g : Facet) (r : Rec) (m n : Nat) : FVal :=
  if r.accIn then fp32 (g.accAt m n) else fpZero

/-- Totals stored in the accumulator file; with GROUP 128 rows 128 to 255 end cleared (03 R84). -/
def storeTotals (w : Run) (x : Ctx) (r : Rec) (rows : List (List FVal)) : Run :=
  let g := (rows.zip (List.range rows.length)).foldl
    (fun (g : Facet) p => g.setAccRow p.2 (p.1.map toFp32)) w.s.facets[x.f]
  let g := if r.op != opDWCONV && r.groupCode = 2 then
      { g with acc := g.acc.filter (fun p => p.1 < accKey 128 0) } else g
  { w with s := w.s.updFacet x.f (fun _ => g) }

/-- The output phase: rows written from OP2, unless the totals are kept (03 R82, R83). -/
def writeOut (w : Run) (x : Ctx) (r : Rec) (rows : List (List Nat)) : Run :=
  if r.accKeep then w else w.write x (.ofWord r.op2) 0 (rows.flatMap (outRow r))

/-- The plain path: totals, accumulator file, output. -/
def finishArray (w : Run) (x : Ctx) (r : Rec) (rows : List (List FVal)) : Run :=
  let w := storeTotals (w.settleReads x) x r rows
  writeOut w x r (rows.map (fun row => row.map (outElt r)))

/-- Totals of every output without focus. -/
def totals (g : Facet) (r : Rec) (i : ArrayIn) : List (List FVal) :=
  let ta := elt r.ty0
  let tw := elt r.ty1
  (i.a.zip (List.range i.a.length)).map (fun p =>
    (i.w.zip (List.range i.ncols)).map (fun q =>
      let t0 := startTotal g r p.2 q.2
      if ta = .bf16 then bf16Total r.kt t0 p.1 q.1
      else scaledTotal ta tw r.group i t0 p.2 q.2 p.1 q.1))

/-- Totals of DWCONV: channel `n` meets element `n` of each tap (03 R86, 04 R105, R108). -/
def dwTotals (g : Facet) (r : Rec) (i : ArrayIn) : List (List FVal) :=
  let ta := elt r.ty0
  let tw := elt r.ty1
  (i.a.zip (List.range i.a.length)).map (fun p =>
    let arr := p.1.toArray
    (i.w.zip (List.range i.ncols)).map (fun q =>
      let a := strided arr q.2 64 r.kt
      let t0 := startTotal g r p.2 q.2
      if ta = .bf16 then
        (List.zipWith (fun u v => (Elt.bf16.decode u).mul (Elt.bf16.decode v)) a q.1).foldl
          (fun t v => rz32 (t.add v)) t0
      else
        let pt := if ta.isInt then FVal.ofInt (dotInt (intElts ta a) (intElts tw q.1))
          else rz32 (dotFp ta tw a q.1)
        closeGroup t0 pt (i.saAt p.2 0) (i.swAt 0 q.2)))

/-! ### Focus (04 R111 to R117) -/

/-- The two halves of an INT8 activation. -/
def hiPart (v : Nat) : Int := signExt 4 (v / 16)
def loPart (v : Nat) : Int := ((v % 16 : Nat) : Int)

/-- E_b of an output: every step rounded up, kept as BF16 (04 R112). -/
def focusBound (i : ArrayIn) (m n : Nat) : FVal :=
  let e := (List.range i.groups).foldl (fun e g =>
    fmtFp32.ru (e.add (fmtFp32.ru ((fmtFp32.ru ((i.saAt m g).abs.mul (i.swAt g n).abs)).mul
      (.ofInt ((15 * i.normAt g n : Nat) : Int)))))) fpZero
  fmtBf16.ru e

/-- E_rec of a record, from FOCUS_BOUNDS of the active image (02 R53, 04 R113). -/
def State.eRec (s : State) (f : Fin 16) : FVal :=
  match s.sched.active with
  | none => fpZero
  | some im =>
    match im.focus.find? (fun b => byteAt b 0 == f.val && fieldLe b 2 2 == s.facets[f].slot &&
        fieldLe b 4 4 == s.facets[f].recIdx) with
    | some b => fp32 (BitVec.ofNat 32 (fieldLe b 8 4))
    | none => fpZero

/-- The boundary T of the decision kind (04 R114). -/
def focusT (r : Rec) : FVal := if r.kind = 3 then fp32 (BitVec.ofNat 32 r.param) else fpZero

/-- One focus output: the value the file holds, the output bits, near, forced, and E_b (04 R114,
R115). -/
structure FocusOut where
  acc : FVal
  out : Nat
  near : Bool
  forced : Bool
  eb : FVal

def focusOut (r : Rec) (i : ArrayIn) (eRec : FVal) (m n : Nat) (a w : List Nat) : FocusOut :=
  let tw := elt r.ty1
  let half (h : Nat → Int) (k : Int) : FVal :=
    ((List.range i.groups).zip ((chunksOf r.group i.groups a).zip (chunksOf r.group i.groups w))).foldl
      (fun t p => closeGroup t (.ofInt (k * dotInt (p.2.1.map h) (intElts tw p.2.2)))
        (i.saAt m p.1) (i.swAt p.1 n)) fpZero
  let yc := half hiPart 16
  let eb := focusBound i m n
  let t := focusT r
  let exact := yc.isFinite && eb.isFinite && ((yc.sub t).abs).le eb
  let forced := !exact && (!yc.isFinite || !eb.isFinite || !(eb.le eRec))
  let near := exact || forced
  let y := if near then yc.add (half loPart 1) else yc
  let v := if near then rz32 y else yc
  let bit : Bool := t.lt y
  let out := if r.kind = 1 then outElt r (if y.le fpZero then fpZero else v)
    else if bit then 1 else 0
  ⟨v, out, near, forced, eb⟩

/-- Groups of a K-tile whose stored norm differs from the weights' (04 R117): K-tiles affected. -/
def normMismatches (r : Rec) (i : ArrayIn) : Nat :=
  let tw := elt r.ty1
  let per := 64 / r.group
  let bad (g : Nat) : Bool := (i.w.zip (List.range i.ncols)).any (fun q =>
    ((intElts tw ((q.1.drop (g * r.group)).take r.group)).foldl (fun t v => t + v.natAbs) 0)
      != i.normAt g q.2)
  ((List.range r.kt).filter (fun k => (List.range per).any (fun j => bad (k * per + j)))).length

/-- FOCUS_NORM_MISMATCH charged for each weight tile loaded with a differing norm (04 R117; log 111). -/
def State.chargeNorm (s : State) (f : Fin 16) (n : Nat) : State :=
  if n = 0 then s
  else
    let s := (s.count (srcFacet f) cNormMis n).errorRecN 0x0240 (f.val / 4) (f.val % 4) 0 1 1 n []
    (s.faults n 0x0240 (srcFacet f) (f.val / 4) (f.val % 4)).updFacet f
      (fun x => { x with invalid := true })

/-- A focus record (04 R111 to R117). -/
def focusArray (w : Run) (x : Ctx) (r : Rec) (i : ArrayIn) : Run :=
  let w := w.settleReads x
  let w := { w with s := w.s.chargeNorm x.f (normMismatches r i) }
  let e := w.s.eRec x.f
  let outs := (i.a.zip (List.range i.a.length)).map (fun p =>
    (i.w.zip (List.range i.ncols)).map (fun q => focusOut r i e p.2 q.2 p.1 q.1))
  let all := outs.flatten
  let near := (all.filter (fun o => o.near)).length
  let s := w.s.count (srcFacet x.f) cNear near
  let s := s.count (srcFacet x.f) cFar (all.length - near)
  let s := s.count (srcFacet x.f) cForced ((all.filter (fun o => o.forced)).length)
  let s := s.updFacet x.f (fun g => { g with bound :=
    (outs.zip (List.range outs.length)).foldl (fun b p =>
      SMap.setRange 0 b (accKey p.2 0) (p.1.map (fun o =>
        BitVec.ofNat 16 (encodeIeee 8 7 (-126) 0x7FC0 o.eb)))) g.bound })
  let w := storeTotals { w with s := s } x r (outs.map (fun row => row.map (fun o => o.acc)))
  writeOut w x r (outs.map (fun row => row.map (fun o => o.out)))

/-! ### Bodies -/

/-- MM, MMT and CONV. -/
def matrixBody (x : Ctx) (r : Rec) (w : Run) : Run :=
  let (i, w) := readArray w x r
  if r.focus then focusArray w x r i
  else finishArray w x r (totals w.s.facets[x.f] r i)

/-- DWCONV. -/
def dwBody (x : Ctx) (r : Rec) (w : Run) : Run :=
  let (i, w) := readDw w x r
  finishArray w x r (dwTotals w.s.facets[x.f] r i)

/-- MM (03 R81 to R85): Facet `f` executes the matrix product at the front of its program. -/
def execMm (f : Fin 16) (ms : List Meet) (s : State) : Host.Outcome State Fault Refusal :=
  .next (s.runRecord f opMM ms true arrayCycles matrixBody)

/-- MMT (03 R81 to R85): with a transposed streamed or weight operand. -/
def execMmt (f : Fin 16) (ms : List Meet) (s : State) : Host.Outcome State Fault Refusal :=
  .next (s.runRecord f opMMT ms true arrayCycles matrixBody)

/-- CONV (03 R86). -/
def execConv (f : Fin 16) (ms : List Meet) (s : State) : Host.Outcome State Fault Refusal :=
  .next (s.runRecord f opCONV ms true arrayCycles matrixBody)

/-- DWCONV (03 R86). -/
def execDwconv (f : Fin 16) (ms : List Meet) (s : State) : Host.Outcome State Fault Refusal :=
  .next (s.runRecord f opDWCONV ms true arrayCycles dwBody)

end Sys2Proof.Machine
end

