-- ==== Sys2Proof/Machine/Transc.lean ====
section
/-! DEFINITION. The functions of 03 R91. The exact function is enclosed by exact arithmetic carried to
96 bits; the device's result is a free value (`Config.transc`) held to the stated bound (log 5). -/

namespace Sys2Proof.Machine

/-- A working format of 96 significand bits. -/
def fmtWork : Fmt := ⟨96, -1000000, 1000000, 2 ^ 96 - 1, true⟩

def wMul (a b : FVal) : FVal := fmtWork.rz (a.mul b)
def wAdd (a b : FVal) : FVal := fmtWork.rz (a.add b)
def wDiv (a b : FVal) : FVal := FVal.divTo fmtWork a b

/-- Horner form of the exponential series to degree `n`, at a small argument. -/
def expSeries (y : FVal) : Nat → FVal
  | 0 => fpOne
  | n + 1 => (List.range (n + 1)).foldl
      (fun acc i => wAdd fpOne (wMul acc (wDiv y (.ofInt ((n + 1 - i : Nat) : Int))))) fpOne

/-- The exponential of a finite value, to better than 2^-60 of it. -/
def expW (x : FVal) : FVal :=
  let y := x.mul (.fin false 1 (-10))
  (List.range 10).foldl (fun a _ => wMul a a) (expSeries (fmtWork.rz y) 16)

/-- The reciprocal square root of a positive finite value, to better than 2^-60 of it. -/
def rsqrtW : FVal → FVal
  | .fin _ m e =>
    let m' := if e % 2 = 0 then m else m * 2
    let e' := if e % 2 = 0 then e else e - 1
    let k := 100 + Nat.log2 m'
    fmtWork.rz (.fin false (Nat.sqrt (2 ^ (2 * k) / m')) (-(k : Int) - e' / 2))
  | v => v

/-- 1 / sqrt (2 pi), to 48 decimal digits. -/
def invSqrtTwoPi : FVal :=
  wDiv (.ofInt 3989422804014326779399460599343818684758586311649) (.ofInt (10 ^ 49))

/-- The standard normal distribution function at a finite value. -/
def phiW (x : FVal) : FVal :=
  let half : FVal := .fin false 1 (-1)
  if (FVal.ofInt 8).lt x.abs then (if x.lt fpZero then fpZero else fpOne)
  else
    let xx := fmtWork.rz (x.mul x)
    let pr := (List.range 160).foldl
      (fun (p : FVal × FVal) k =>
        (wAdd p.1 p.2, wMul p.2 (wDiv xx (.ofInt ((2 * k + 3 : Nat) : Int)))))
      (fpZero, fmtWork.rz x)
    let dens := wMul invSqrtTwoPi (expW ((xx.mul half).neg))
    wAdd half (wMul dens pr.1)

/-- 1 / (1 + e^-x). -/
def sigmoidW (x : FVal) : FVal :=
  if (FVal.ofInt 100).lt x then fpOne
  else if x.lt (FVal.ofInt (-100)) then fpZero
  else wDiv fpOne (wAdd fpOne (expW x.neg))

/-- The exact function of a finite input (functions 3 to 9 of 03 R90). -/
def exactFn (func : Nat) (x : FVal) : FVal :=
  match func with
  | 3 => expW x
  | 4 => wDiv fpOne x
  | 5 => rsqrtW x
  | 6 => wAdd (wMul (.ofInt 2) (sigmoidW (x.mul (.ofInt 2)))) (.ofInt (-1))
  | 7 => sigmoidW x
  | 8 => wMul x (phiW x)
  | _ => wMul x (sigmoidW x)

/-- 03 R91: the largest error of a function at a finite input, of which `a` is the exact value. -/
def errBound (func : Nat) (x a : FVal) : FVal :=
  match func with
  | 3 => a.abs.mul (.fin false 1 (-20))
  | 4 | 5 => a.abs.mul (.fin false 1 (-21))
  | 6 => .fin false 1 (-20)
  | 7 => .fin false 1 (-19)
  | 8 => (FVal.max2 fpOne x.abs).mul (.fin false 1 (-16))
  | _ => (FVal.max2 fpOne x.abs).mul (.fin false 1 (-18))

/-- The free value where it lies within the bound, otherwise the exact value rounded toward zero. -/
def boundedFree (func : Nat) (xBits : Word) (a tol : FVal) : FVal :=
  let w := fp32 (Config.transc func xBits)
  if w.isFinite && ((w.sub a).abs).le tol then w else rz32 a

/-- 03 R91: a function of an FP32 input (codes 3 EXP, 4 RECIP, 5 RSQRT, 6 TANH, 7 SIGMOID, 8 GELU,
9 SILU), with the cases outside its domain. -/
def transcFn (func : Nat) (x : FVal) : FVal :=
  let inDomain := boundedFree func (toFp32 x) (exactFn func x) (errBound func x (exactFn func x))
  match x with
  | .nan => .nan
  | .inf s =>
    match func with
    | 3 => if s then fpZero else fmtFp32.maxFin false
    | 4 => .fin s 0 0
    | 5 => if s then .nan else fpZero
    | 6 => .fin s 1 0
    | 7 => if s then fpZero else fpOne
    | _ => if s then fpZero else .inf false
  | .fin s m _ =>
    match func with
    | 3 =>
      if x.lt (.ofInt (-87)) then fpZero
      else if (FVal.ofInt 88).lt x then fmtFp32.maxFin false
      else inDomain
    | 4 => if m = 0 then fmtFp32.maxFin s else inDomain
    | 5 =>
      if m = 0 then fmtFp32.maxFin false
      else if s then .nan else inDomain
    | _ => inDomain

end Sys2Proof.Machine
end

