-- ==== Sys2Proof/Machine/FacetVector.lean ====
section
/-! DEFINITION. The vector macro-ops VEC_EW, VEC_RED, SOFTMAX, NORM and ACT (03 R89 to R91, R494; 04
R110). -/

namespace Sys2Proof.Machine

/-- Units between the rows of a scratchpad vector operand (03 R89; log 21). -/
def rowStride (r : Rec) (t : Elt) : Nat :=
  if r.vstride = 0 then ceilDiv (r.cols * t.bits) 256 else r.vstride

/-- Rows of a vector source as values; an ACC operand is FP32 (03 R89). -/
def readVec (w : Run) (x : Ctx) (r : Rec) (word : Nat) (t : Elt) : List (List FVal) × Run :=
  let ref := Ref.ofWord word
  if ref.acc then
    ((List.range r.rows).map (fun m =>
      (w.s.facets[x.f].accRow (ref.unit % 256 + m) r.cols).map Elt.fp32.decode), w)
  else
    let (rows, w) := w.readRows x ref (rowStride r t) (ceilDiv (r.cols * t.bits) 256) r.rows 0
    (rows.map (fun b => (unpackElts t r.cols b).map t.decode), w)

/-- Rows written to a vector destination. -/
def writeVec (w : Run) (x : Ctx) (r : Rec) (rows : List (List FVal)) : Run :=
  let ref := Ref.ofWord r.op2
  let td := elt r.ty1
  if ref.acc then
    { w with s := w.s.updFacet x.f (fun g =>
        (rows.zip (List.range rows.length)).foldl
          (fun g p => g.setAccRow (ref.unit % 256 + p.2) (p.1.map toFp32)) g) }
  else w.writeRows x ref (rowStride r td) 0 (rows.map (fun vs => packElts td (vs.map td.encode)))

/-- 03 R90, 04 R110: the exact result of an element-wise function. -/
def ewExact (func : Nat) (scalar a b : FVal) : FVal :=
  match func with
  | 0 => a.add b
  | 1 => a.sub b
  | 2 => a.mul b
  | 3 => a.max2 b
  | 4 => a.min2 b
  | 5 => a.mul scalar
  | 6 => a.add (scalar.mul b)
  | _ => a

/-- VEC_EW. -/
def vecEwBody (x : Ctx) (r : Rec) (w : Run) : Run :=
  let t := elt r.ty0
  let (a, w) := readVec w x r r.op0 t
  let (b, w) := if r.hasSrc2 then readVec w x r r.op1 t else (a, w)
  let w := w.settleReads x
  let sc := fp32 r.scalar
  writeVec w x r (List.zipWith (List.zipWith (ewExact r.func sc)) a b)

/-- ACT: functions 0 to 2 exactly, the rest by R91 from the FP32 value of the input. CLAMP holds the value
between the two bounds ±SCALAR, the lower of them first (log 42). -/
def actFn (func : Nat) (scalar a : FVal) : FVal :=
  match func with
  | 0 => relu a
  | 1 => if fpZero.lt a then a else a.mul scalar
  | 2 => if a.isNaN then a else (a.max2 scalar.abs.neg).min2 scalar.abs
  | n => transcFn n (rz32 a)

def actBody (x : Ctx) (r : Rec) (w : Run) : Run :=
  let (a, w) := readVec w x r r.op0 (elt r.ty0)
  let w := w.settleReads x
  writeVec w x r (a.map (fun row => row.map (actFn r.func (fp32 r.scalar))))

/-! ### Reductions (04 R110) -/

/-- One rounding to the type that a reduction works in: FP32, or INT32 with saturation. -/
def redRound (t : Elt) (v : FVal) : FVal :=
  match t with
  | .int32 => .ofInt (v.toRange (-2147483648) 2147483647)
  | _ => rz32 v

/-- One level of the pairwise tree: an element without a partner passes up unchanged. -/
def pairLevel (op : FVal → FVal → FVal) : List FVal → List FVal
  | a :: b :: l => op a b :: pairLevel op l
  | l => l

/-- The lanes of one vector reduced: six levels of pairs. -/
def treeReduce (op : FVal → FVal → FVal) (l : List FVal) : FVal :=
  ((List.range 6).foldl (fun l _ => pairLevel op l) l).headD fpZero

/-- A row reduced: each vector by the tree, the vectors in ascending order. -/
def rowReduce (op : FVal → FVal → FVal) (l : List FVal) : FVal :=
  match (chunksOf 64 (ceilDiv l.length 64) l).map (treeReduce op) with
  | [] => fpZero
  | v :: vs => vs.foldl op v

/-- A column reduced strictly in ascending row order. -/
def colReduce (op : FVal → FVal → FVal) : List FVal → FVal
  | [] => fpZero
  | v :: vs => vs.foldl op v

/-- The operation of a VEC_RED function on already mapped elements (SUMSQ squares them first). -/
def redOp (func : Nat) (t : Elt) : FVal → FVal → FVal :=
  match func with
  | 1 => FVal.max2
  | 2 => FVal.min2
  | _ => fun a b => redRound t (a.add b)

def redMap (func : Nat) (t : Elt) (v : FVal) : FVal :=
  if func = 3 then redRound t (v.mul v) else v

/-- Column `c` of rows. -/
def column (rows : List (List FVal)) (c : Nat) : List FVal := rows.map (fun r => r.getD c fpZero)

/-- VEC_RED with its placement of results (03 R494). Where one of the two types is floating and the other INT32, each
addition rounds in the destination's (DESIGN CHOICE, log 133). -/
def vecRedBody (x : Ctx) (r : Rec) (w : Run) : Run :=
  let td := if (Ref.ofWord r.op2).acc then .fp32 else elt r.ty1
  let (a, w) := readVec w x r r.op0 (elt r.ty0)
  let w := w.settleReads x
  let a := a.map (fun row => row.map (redMap r.func td))
  let op := redOp r.func td
  let ref := Ref.ofWord r.op2
  if r.flagBit 4 then
    let res := (List.range r.cols).map (fun c => colReduce op (column a c))
    if ref.acc then
      { w with s := w.s.updFacet x.f (fun g => g.setAccRow (ref.unit % 256) (res.map toFp32)) }
    else w.write x ref 0 (packElts td (res.map td.encode))
  else
    let res := a.map (rowReduce op)
    if ref.acc then
      { w with s := w.s.updFacet x.f (fun g =>
          (res.zip (List.range res.length)).foldl (fun g p =>
            g.setAccRow (ref.unit % 256 + p.2) (toFp32 p.1 :: List.replicate 63 0)) g) }
    else if r.vstride = 0 then w.write x ref 0 (packElts td (res.map td.encode))
    else w.writeRows x ref r.vstride 0 (res.map (fun v => packElts td [td.encode v]))

/-! ### SOFTMAX and NORM (04 R110) -/

def sum32 (l : List FVal) : FVal := rowReduce (fun a b => rz32 (a.add b)) l

/-- One row of SOFTMAX. -/
def softmaxRow (scalar : FVal) (row : List FVal) : List FVal :=
  let row := row.map rz32
  let mx := rowReduce FVal.max2 row
  if row.all (fun v => v == .inf true) then row.map (fun _ => fpZero)
  else
    let sc := if scalar.isZero then fpOne else scalar
    let es := row.map (fun v => transcFn 3 (rz32 ((rz32 (v.sub mx)).mul sc)))
    let rc := transcFn 4 (sum32 es)
    es.map (fun e => rz32 (e.mul rc))

def softmaxBody (x : Ctx) (r : Rec) (w : Run) : Run :=
  let (a, w) := readVec w x r r.op0 (elt r.ty0)
  let w := w.settleReads x
  writeVec w x r (a.map (softmaxRow (fp32 r.scalar)))

/-- The reduced sum divided by the number of columns, with one rounding. -/
def mean32 (l : List FVal) (cols : Nat) : FVal := (sum32 l).div32 (.ofInt (cols : Int))

/-- One row of NORM (0 LAYER, 1 RMS) with its parameters and ε. -/
def normRow (func : Nat) (cols : Nat) (gamma beta : List FVal) (eps : FVal) (row : List FVal) :
    List FVal :=
  let row := row.map rz32
  let d := if func = 0 then
      let m := mean32 row cols
      row.map (fun v => rz32 (v.sub m))
    else row
  let ms := mean32 (d.map (fun v => rz32 (v.mul v))) cols
  let rs := transcFn 5 (rz32 (ms.add eps))
  List.zipWith (fun v p => rz32 ((rz32 ((rz32 (v.mul rs)).mul p.1)).add p.2)) d (gamma.zip beta)

def normBody (x : Ctx) (r : Rec) (w : Run) : Run :=
  let (a, w) := readVec w x r r.op0 (elt r.ty0)
  let (pb, w) := w.read x (.ofWord r.op1) 0 (unitsOf (8 * r.cols))
  let w := w.settleReads x
  let ps := (unpackElts .fp32 (2 * r.cols) pb).map Elt.fp32.decode
  writeVec w x r (a.map (normRow r.func r.cols (ps.take r.cols) (ps.drop r.cols) (fp32 r.scalar)))

/-- The cycles of a vector record do not depend on the record before it. -/
def vecCyc (r : Rec) (_ : Bool) : Nat := vecCycles r

/-- VEC_EW (03 R90): element-wise work over ROWS x COLS elements. -/
def execVecEw (f : Fin 16) (ms : List Meet) (s : State) : Host.Outcome State Fault Refusal :=
  .next (s.runRecord f opVecEw ms false vecCyc vecEwBody)

/-- VEC_RED (03 R90, R494). -/
def execVecRed (f : Fin 16) (ms : List Meet) (s : State) : Host.Outcome State Fault Refusal :=
  .next (s.runRecord f opVecRed ms false vecCyc vecRedBody)

/-- SOFTMAX (03 R90, 04 R110). -/
def execSoftmax (f : Fin 16) (ms : List Meet) (s : State) : Host.Outcome State Fault Refusal :=
  .next (s.runRecord f opSoftmax ms false vecCyc softmaxBody)

/-- NORM (03 R90, 04 R110). -/
def execNorm (f : Fin 16) (ms : List Meet) (s : State) : Host.Outcome State Fault Refusal :=
  .next (s.runRecord f opNorm ms false vecCyc normBody)

/-- ACT (03 R90, R91). -/
def execAct (f : Fin 16) (ms : List Meet) (s : State) : Host.Outcome State Fault Refusal :=
  .next (s.runRecord f opAct ms false vecCyc actBody)

end Sys2Proof.Machine
end

