-- ==== Sys2Proof/Machine/FacetSelect.lean ====
section
/-! DEFINITION. The selection macro-ops DECIDE, TOPK and NMS (03 R92, R93). -/

namespace Sys2Proof.Machine

/-- `a` ranks above `b`: greater, or a number against a NaN (03 R93). -/
def ranksAbove (a b : FVal) : Bool := if b.isNaN then !a.isNaN else b.lt a

/-- The highest-ranking value and its lowest column. -/
def argmaxFrom : List FVal → Nat → FVal × Nat → FVal × Nat
  | [], _, best => best
  | v :: vs, c, best => argmaxFrom vs (c + 1) (if ranksAbove v best.1 then (v, c) else best)

def argmax (row : List FVal) : FVal × Nat :=
  match row with
  | [] => (.nan, 0)
  | v :: vs => argmaxFrom vs 1 (v, 0)

/-- The bits of a row (03 R93): above T for THRESHOLD, above 0 for SIGN. -/
def decideBits (func : Nat) (t : FVal) (row : List FVal) : List Nat :=
  row.map (fun v => if (if func = 0 then t else fpZero).lt v then 1 else 0)

/-- A decision entry (03 R92). -/
def decideEntry (func : Nat) (t : FVal) (row : List FVal) : List Byte :=
  let (mx, col) := argmax row
  let bits := decideBits func t row
  let set := bits.foldl (· + ·) 0
  let index := if func = 2 then (if mx.isNaN then 0 else col) else set
  let flags := (if func != 2 && set != 0 then 1 else 0) + (if row.any FVal.isNaN then 2 else 0)
  leBytes 2 index ++ leBytes 1 func ++ leBytes 1 flags ++ leBytes 4 (toFp32 mx).toNat

/-- DECIDE (03 R92, R93): STRIDE spaces the rows of OP0 alone; entries and bits stand densely (DESIGN CHOICE, log
135). -/
def decideBody (x : Ctx) (r : Rec) (w : Run) : Run :=
  let (a, w) := readVec w x r r.op0 (elt r.ty0)
  let w := w.settleReads x
  let t := fp32 r.scalar
  let w := w.write x (.ofWord r.op2) 0 (a.flatMap (decideEntry r.func t))
  if r.op3 = 0 then w
  else w.write x (.ofWord r.op3) 0 (a.flatMap (fun row =>
    fitBytes (ceilDiv r.cols 64 * 8) (packElts .bit (decideBits r.func t row))))

/-- A (value, column) pair put before the first that it ranks above, so that equal values keep column
order. -/
def insertDesc (p : FVal × Nat) : List (FVal × Nat) → List (FVal × Nat)
  | [] => [p]
  | q :: l => if ranksAbove p.1 q.1 then p :: q :: l else q :: insertDesc p l

/-- A row's pairs in descending order (03 R92, R93). -/
def sortDesc (row : List FVal) : List (FVal × Nat) :=
  (row.zip (List.range row.length)).foldl (fun l p => insertDesc p l) []

/-- TOPK (03 R92, R93): STRIDE spaces the rows of OP0 alone; pairs stand densely (DESIGN CHOICE, log 135). -/
def topkBody (x : Ctx) (r : Rec) (w : Run) : Run :=
  let (a, w) := readVec w x r r.op0 (elt r.ty0)
  let w := w.settleReads x
  w.write x (.ofWord r.op2) 0 (a.flatMap (fun row =>
    ((sortDesc row).take (r.p 0x1C 1)).flatMap (fun p =>
      leBytes 4 (toFp32 p.1).toNat ++ leBytes 4 p.2)))

/-- A box of 03 R93. -/
structure NmsBox where
  x0 : FVal
  y0 : FVal
  x1 : FVal
  y1 : FVal

/-- Zero area: degenerate or with a coordinate that is not finite. -/
def NmsBox.zero (b : NmsBox) : Bool :=
  !(b.x0.isFinite && b.y0.isFinite && b.x1.isFinite && b.y1.isFinite) ||
  b.x1.le b.x0 || b.y1.le b.y0

def NmsBox.area (b : NmsBox) : FVal := (b.x1.sub b.x0).mul (b.y1.sub b.y0)

/-- The IoU of two boxes is at most the threshold, judged exactly (03 R93). -/
def iouAtMost (t : FVal) (a b : NmsBox) : Bool :=
  if a.zero || b.zero then fpZero.le t
  else
    let w := (a.x1.min2 b.x1).sub (a.x0.max2 b.x0)
    let h := (a.y1.min2 b.y1).sub (a.y0.max2 b.y0)
    let i := if w.le fpZero || h.le fpZero then fpZero else w.mul h
    i.le (t.mul ((a.area.add b.area).sub i))

/-- Boxes kept in the order given, at most `max` of them. -/
def nmsKeep (t : FVal) (max : Nat) : List NmsBox → List NmsBox → List Nat
  | [], _ => []
  | b :: bs, kept =>
    if kept.length < max && kept.all (fun k => iouAtMost t k b)
    then 1 :: nmsKeep t max bs (b :: kept)
    else 0 :: nmsKeep t max bs kept

def nmsBody (x : Ctx) (r : Rec) (w : Run) : Run :=
  let n := r.p 0x14 2
  let (b, w) := w.read x (.ofWord r.op0) 0 (unitsOf (16 * n))
  let w := w.settleReads x
  let a := ((unpackElts .fp32 (4 * n) b).map Elt.fp32.decode).toArray
  let boxes := (List.range n).map (fun i => (⟨a.getD (4 * i) .nan, a.getD (4 * i + 1) .nan,
    a.getD (4 * i + 2) .nan, a.getD (4 * i + 3) .nan⟩ : NmsBox))
  let keep := nmsKeep (fp32 r.scalar) (r.p 0x16 2) boxes []
  let w := w.write x (.ofWord r.op2) 0 (packElts .bit keep)
  w.write x (.ofWord r.op3) 0 (leBytes 4 (keep.foldl (· + ·) 0))

def selCyc (r : Rec) (_ : Bool) : Nat := selectCycles r

/-- DECIDE (03 R92). -/
def execDecide (f : Fin 16) (ms : List Meet) (s : State) : Host.Outcome State Fault Refusal :=
  .next (s.runRecord f opDecide ms false selCyc decideBody)

/-- TOPK (03 R92). -/
def execTopk (f : Fin 16) (ms : List Meet) (s : State) : Host.Outcome State Fault Refusal :=
  .next (s.runRecord f opTopk ms false selCyc topkBody)

/-- NMS (03 R93). -/
def execNms (f : Fin 16) (ms : List Meet) (s : State) : Host.Outcome State Fault Refusal :=
  .next (s.runRecord f opNms ms false selCyc nmsBody)

end Sys2Proof.Machine
end

