-- ==== Sys2Proof/Machine/FacetMove.lean ====
section
/-! DEFINITION. The data-movement macro-ops GATHER, SCATTER, CROP, RESAMPLE, COPY_2D and ACC_WRITE (03
R94, R95; 05 R135). -/

namespace Sys2Proof.Machine

/-! ### GATHER and SCATTER -/

/-- FACET_INDEX_RANGE occurrences counted and reported, one for each index, and the tick invalid (03 R95, R101;
log 111). -/
def State.chargeIndex (s : State) (f : Fin 16) (n : Nat) : State :=
  if n = 0 then s
  else
    let s := (s.count (srcFacet f) cIndexRange n).errorRecN 0x0231 (f.val / 4) (f.val % 4) 0 1 1 n []
    (s.faults n 0x0231 (srcFacet f) (f.val / 4) (f.val % 4)).updFacet f
      (fun x => { x with invalid := true })

/-- The u32 indices at OP1. -/
def readIndices (w : Run) (x : Ctx) (r : Rec) : List Nat × Run :=
  let n := r.p 0x14 2
  let (b, w) := w.read x (.ofWord r.op1) 0 (unitsOf (4 * n))
  (unpackElts .int32 n b, w)

/-- Table rows read for the indices; none for an index out of range. -/
def gatherRows (w : Run) (x : Ctx) (ref : Ref) (units tableRows : Nat) :
    List Nat → List (Option (List Byte)) × Run
  | [] => ([], w)
  | i :: is =>
    if i < tableRows then
      let (b, w) := w.read x ref (i * units) units
      let (bs, w) := gatherRows w x ref units tableRows is
      (some b :: bs, w)
    else
      let (bs, w) := gatherRows w x ref units tableRows is
      (none :: bs, w)

/-- Destination rows written in order; a row for an index out of range is poisoned and makes the tick
invalid (03 R95). -/
def gatherWrite (w : Run) (x : Ctx) (ref : Ref) (units : Nat) :
    List (Option (List Byte)) → Nat → Run
  | [], _ => w
  | some b :: rs, off => gatherWrite (w.write x ref off b) x ref units rs (off + units)
  | none :: rs, off =>
    let w := w.writeBad x ref off (zeroBytes (32 * units)) true
    gatherWrite { w with s := w.s.updFacet x.f (fun g => { g with invalid := true }) } x ref units rs
      (off + units)

def gatherBody (x : Ctx) (r : Rec) (w : Run) : Run :=
  let units := r.p 0x16 2
  let (is, w) := readIndices w x r
  let (rows, w) := gatherRows w x (.ofWord r.op0) units (r.p 0x18 4) is
  let w := w.settleReads x
  let w := gatherWrite w x (.ofWord r.op2) units rows 0
  { w with s := w.s.chargeIndex x.f ((rows.filter Option.isNone).length) }

/-- One lane of an accumulate-on-write (05 R135): 0 INT32 saturating, 1 FP32, 2 BF16. -/
def accumLane (kind a b : Nat) : Nat :=
  match kind with
  | 0 => toBits 32 (clampInt (-2147483648) 2147483647 (signExt 32 a + signExt 32 b))
  | 1 => Elt.fp32.encode ((Elt.fp32.decode a).add (Elt.fp32.decode b))
  | _ => Elt.bf16.encode ((Elt.bf16.decode a).add (Elt.bf16.decode b))

def accumElt (kind : Nat) : Elt := if kind = 0 then .int32 else if kind = 1 then .fp32 else .bf16

/-- The unit that an accumulate adds into: that which its write addresses (03 R75, 05 R135). -/
def Run.readDst (w : Run) (x : Ctx) (ref : Ref) (off : Nat) : List Byte × Run :=
  let g := ref.facet x.f
  if ref.circ then w.readAt x g (w.s.headUnit g (fin16 ref.region) (ref.unit + off))
  else w.readAt x g (ref.unit + off)

/-- One unit accumulated (05 R135): the sum is poisoned when either addend is. An accumulate past the free space of
a region adds to nothing and is dropped as any write there (05 R146). -/
def Run.accumUnit (w : Run) (x : Ctx) (ref : Ref) (kind off : Nat) (bs : List Byte) : Run :=
  if ref.circ && w.s.headOver (ref.facet x.f) (fin16 ref.region) (ref.unit + off) then w.write x ref off bs
  else
    let (old, w') := ({ w with bad := false }).readDst x ref off
    let t := accumElt kind
    let n := 256 / t.bits
    let sum := packElts t (List.zipWith (accumLane kind) (unpackElts t n old) (unpackElts t n bs))
    let w' := if w'.bad then w'.settleReads x else w'
    let w' := { w' with bad := w.bad || w'.bad }
    w'.write x ref off sum

/-- A run of units accumulated. -/
def Run.accumRun (w : Run) (x : Ctx) (ref : Ref) (kind : Nat) : Nat → Nat → List Byte → Run
  | 0, _, _ => w
  | n + 1, off, bs =>
    (w.accumUnit x ref kind off (bs.take 32)).accumRun x ref kind n (off + 1) (bs.drop 32)

/-- Rows scattered in order, so a later one of a repeated index wins or both are added (03 R95). -/
def scatterWrite (w : Run) (x : Ctx) (ref : Ref) (units tableRows : Nat) (accum : Option Nat) :
    List (Nat × List Byte) → Run
  | [] => w
  | (i, b) :: rs =>
    if i < tableRows then
      match accum with
      | some k => scatterWrite (w.accumRun x ref k units (i * units) b) x ref units tableRows accum rs
      | none => scatterWrite (w.write x ref (i * units) b) x ref units tableRows accum rs
    else
      scatterWrite { w with s := w.s.updFacet x.f (fun g => { g with invalid := true }) } x ref units
        tableRows accum rs

def scatterBody (x : Ctx) (r : Rec) (w : Run) : Run :=
  let units := r.p 0x16 2
  let (is, w) := readIndices w x r
  let (rows, w) := w.readRows x (.ofWord r.op0) units units is.length 0
  let w := w.settleReads x
  let kind := if r.ty1 = 6 then 0 else if r.ty1 = 5 then 1 else 2
  let n := (is.filter (fun i => r.p 0x18 4 ≤ i)).length
  let w := scatterWrite w x (.ofWord r.op2) units (r.p 0x18 4)
    (if r.flagBit 4 then some kind else none) (is.zip rows)
  { w with s := w.s.chargeIndex x.f n }

/-! ### CROP -/

/-- A rectangle in pixels. -/
structure Rect where
  x : Nat
  y : Nat
  w : Nat
  h : Nat
  deriving DecidableEq, Repr

def evenDown (v : Nat) : Nat := v / 2 * 2
def evenUp (v : Nat) : Nat := (v + 1) / 2 * 2

/-- One axis of 03 R95: clipped to the source, rounded with BAYER, clamped to the limit. -/
def cropAxis (bayer : Bool) (pos len src lim : Nat) : Nat × Nat :=
  let len := min len (src - pos)
  if bayer then
    let p := evenDown pos
    (p, min (min (evenUp len) (evenDown (src - p))) (evenDown lim))
  else (pos, min len lim)

/-- 03 R95: the effective rectangle. -/
def cropRect (bayer : Bool) (q : Rect) (srcW srcH wMax hMax : Nat) : Rect :=
  let (x, w) := cropAxis bayer q.x q.w srcW wMax
  let (y, h) := cropAxis bayer q.y q.h srcH hMax
  if w = 0 ∨ h = 0 ∨ srcW ≤ q.x ∨ srcH ≤ q.y ∨ q.w = 0 ∨ q.h = 0 then
    let ex := min q.x srcW
    let ey := min q.y srcH
    if bayer then ⟨evenDown ex, evenDown ey, 0, 0⟩ else ⟨ex, ey, 0, 0⟩
  else ⟨x, y, w, h⟩

/-- Rows of the source image cut to the rectangle. -/
def cropRows (w : Run) (x : Ctx) (ref : Ref) (pitch eb : Nat) (q : Rect) :
    Nat → Nat → List (List Byte) × Run
  | 0, _ => ([], w)
  | n + 1, y =>
    let lo := q.x * eb
    let hi := (q.x + q.w) * eb
    let u0 := lo / 32
    let (b, w) := w.read x ref (y * pitch + u0) (unitsOf hi - u0)
    let (bs, w) := cropRows w x ref pitch eb q n (y + 1)
    ((b.drop (lo - u0 * 32)).take (hi - lo) :: bs, w)

def cropBody (x : Ctx) (r : Rec) (w : Run) : Run :=
  let (rb, w) := w.read x (.ofWord r.op1) 0 1
  let q : Rect := ⟨fieldLe rb 0 2, fieldLe rb 2 2, fieldLe rb 4 2, fieldLe rb 6 2⟩
  let e := cropRect (r.flagBit 4) q (r.p 0x1A 2) (r.p 0x1C 2) (r.p 0x14 2) (r.p 0x16 2)
  let eb := (elt r.ty0).bits / 8
  let (rows, w) := cropRows w x (.ofWord r.op0) (r.p 0x18 2) eb e (if e.w = 0 then 0 else e.h) e.y
  let w := w.settleReads x
  let w := w.writeRows x (.ofWord r.op2) (unitsOf (e.w * eb)) 0 rows
  w.write x (.ofWord r.op3) 0 (leBytes 2 e.x ++ leBytes 2 e.y ++ leBytes 2 e.w ++ leBytes 2 e.h)

/-! ### RESAMPLE -/

/-- 03 R95: the source coordinate of destination `d` in 16.16, truncated toward zero. -/
def resampleCoord (d src dst : Nat) : Int :=
  Int.tdiv ((((2 * d + 1) * src : Nat) : Int) * 65536 - ((dst : Nat) : Int) * 65536)
    ((2 * dst : Nat) : Int)

/-- A source index held inside the plane. -/
def edgeIdx (i : Int) (n : Nat) : Nat := (clampInt 0 ((n : Int) - 1) i).toNat

/-- The source pixels of one axis with their weights in units of 1 / 65536 (03 R95). -/
def resampleTaps (mode d src dst : Nat) : List (Nat × Nat) :=
  let c := resampleCoord d src dst
  match mode with
  | 0 => [(edgeIdx ((c + 32768) / 65536) src, 65536)]
  | 1 =>
    let fr := (c % 65536).toNat
    [(edgeIdx (c / 65536) src, 65536 - fr), (edgeIdx (c / 65536 + 1) src, fr)]
  | _ => [(edgeIdx (c / 65536) src, 32768), (edgeIdx (c / 65536 + 1) src, 32768)]

/-- The weighted sum over two axes, exact, converted once (03 R95). -/
def resamplePixel (t : Elt) (rows : Array (Array Nat)) (xs ys : List (Nat × Nat)) : Nat :=
  let v := ys.foldl (fun acc yt => xs.foldl (fun acc xt =>
    acc.add ((t.decode ((rows.getD yt.1 #[]).getD xt.1 0)).mul
      (.fin false (xt.2 * yt.2) (-32)))) acc) fpZero
  t.encode v

def resampleBody (x : Ctx) (r : Rec) (w : Run) : Run :=
  let t := elt r.ty0
  let sw := r.p 0x14 2
  let sh := r.p 0x16 2
  let dw := r.p 0x18 2
  let dh := r.p 0x1A 2
  let mode := r.p 0x1E 2
  let (rows, w) := w.readRows x (.ofWord r.op0) (r.p 0x1C 2) (ceilDiv (sw * t.bits) 256) sh 0
  let w := w.settleReads x
  let a := (rows.map (fun b => (unpackElts t sw b).toArray)).toArray
  let out := (List.range dh).map (fun y => packElts t ((List.range dw).map (fun c =>
    resamplePixel t a (resampleTaps mode c sw dw) (resampleTaps mode y sh dh))))
  w.writeRows x (.ofWord r.op2) (ceilDiv (dw * t.bits) 256) 0 out

/-! ### COPY_2D and ACC_WRITE -/

/-- COPY_2D (03 R94, R95): a SRC_STRIDE of 0 is ROW_UNITS, with TRANSPOSE too (DESIGN CHOICE, log 137). -/
def copyBody (x : Ctx) (r : Rec) (w : Run) : Run :=
  let n := r.p 0x14 2
  let u := r.p 0x16 2
  let ss := if r.p 0x18 2 = 0 then u else r.p 0x18 2
  let (rows, w) := w.readRows x (.ofWord r.op0) ss u n 0
  let w := w.settleReads x
  if r.flagBit 4 then
    let a := (rows.map List.toArray).toArray
    let out := (List.range (32 * u)).map (fun j =>
      (List.range n).map (fun i => (a.getD i #[]).getD j 0))
    w.writeRows x (.ofWord r.op2) (if r.p 0x1A 2 = 0 then n / 32 else r.p 0x1A 2) 0 out
  else w.writeRows x (.ofWord r.op2) (if r.p 0x1A 2 = 0 then u else r.p 0x1A 2) 0 rows

/-- Rows accumulated at a stride. -/
def Run.accumRows (w : Run) (x : Ctx) (ref : Ref) (kind units stride : Nat) :
    Nat → List (List Byte) → Run
  | _, [] => w
  | off, b :: bs =>
    (w.accumRun x ref kind units off b).accumRows x ref kind units stride (off + stride) bs

/-- Source rows of ACC_WRITE: accumulator rows converted to the kind's type (03 R95), or local rows. -/
def accWriteRows (w : Run) (x : Ctx) (r : Rec) : List (List Byte) × Run :=
  let n := r.p 0x14 2
  let u := r.p 0x16 2
  let ref := Ref.ofWord r.op0
  let t := accumElt (r.p 0x1A 1)
  if ref.acc then
    ((List.range n).map (fun m => packElts t
      ((w.s.facets[x.f].accRow (ref.unit % 256 + m) (u * 256 / t.bits)).map
        (fun v => t.encode (Elt.fp32.decode v)))), w)
  else w.readRows x ref u u n 0

def accWriteBody (x : Ctx) (r : Rec) (w : Run) : Run :=
  let u := r.p 0x16 2
  let (rows, w) := accWriteRows w x r
  let w := w.settleReads x
  w.accumRows x (.ofWord r.op2) (r.p 0x1A 1) u (if r.p 0x18 2 = 0 then u else r.p 0x18 2) 0 rows

def moveCyc (r : Rec) (_ : Bool) : Nat := moveCycles r

/-- GATHER (03 R94, R95). -/
def execGather (f : Fin 16) (ms : List Meet) (s : State) : Host.Outcome State Fault Refusal :=
  .next (s.runRecord f opGather ms false moveCyc gatherBody)

/-- SCATTER (03 R94, R95). -/
def execScatter (f : Fin 16) (ms : List Meet) (s : State) : Host.Outcome State Fault Refusal :=
  .next (s.runRecord f opScatter ms false moveCyc scatterBody)

/-- CROP (03 R94, R95). -/
def execCrop (f : Fin 16) (ms : List Meet) (s : State) : Host.Outcome State Fault Refusal :=
  .next (s.runRecord f opCrop ms false moveCyc cropBody)

/-- RESAMPLE (03 R94, R95). -/
def execResample (f : Fin 16) (ms : List Meet) (s : State) : Host.Outcome State Fault Refusal :=
  .next (s.runRecord f opResample ms false moveCyc resampleBody)

/-- COPY_2D (03 R94, R95). -/
def execCopy2d (f : Fin 16) (ms : List Meet) (s : State) : Host.Outcome State Fault Refusal :=
  .next (s.runRecord f opCopy2d ms false moveCyc copyBody)

/-- ACC_WRITE (03 R94, R95; 05 R135). -/
def execAccWrite (f : Fin 16) (ms : List Meet) (s : State) : Host.Outcome State Fault Refusal :=
  .next (s.runRecord f opAccWrite ms false moveCyc accWriteBody)

end Sys2Proof.Machine
end

