-- ==== Sys2Proof/Machine/Dispatch.lean ====
section
/-! DEFINITION. What each command does: one arm per row of spec/opcode_table.json. -/

namespace Sys2Proof.Machine

def exec (i : Instr) (s : State) : Host.Outcome State Fault Refusal :=
  match i with
  | .tickEdge pixel rows => Sys2Proof.Machine.execTickEdge pixel rows s
  | .mm f ms => Sys2Proof.Machine.execMm f ms s
  | .mmt f ms => Sys2Proof.Machine.execMmt f ms s
  | .conv f ms => Sys2Proof.Machine.execConv f ms s
  | .dwconv f ms => Sys2Proof.Machine.execDwconv f ms s
  | .vecEw f ms => Sys2Proof.Machine.execVecEw f ms s
  | .vecRed f ms => Sys2Proof.Machine.execVecRed f ms s
  | .softmax f ms => Sys2Proof.Machine.execSoftmax f ms s
  | .norm f ms => Sys2Proof.Machine.execNorm f ms s
  | .act f ms => Sys2Proof.Machine.execAct f ms s
  | .gather f ms => Sys2Proof.Machine.execGather f ms s
  | .scatter f ms => Sys2Proof.Machine.execScatter f ms s
  | .decide f ms => Sys2Proof.Machine.execDecide f ms s
  | .topk f ms => Sys2Proof.Machine.execTopk f ms s
  | .nms f ms => Sys2Proof.Machine.execNms f ms s
  | .crop f ms => Sys2Proof.Machine.execCrop f ms s
  | .resample f ms => Sys2Proof.Machine.execResample f ms s
  | .copy2d f ms => Sys2Proof.Machine.execCopy2d f ms s
  | .accWrite f ms => Sys2Proof.Machine.execAccWrite f ms s
  | .push f ms => Sys2Proof.Machine.execPush f ms s
  | .pop f ms => Sys2Proof.Machine.execPop f ms s
  | .emit f ms => Sys2Proof.Machine.execEmit f ms s
  | .checkFlag f ms => Sys2Proof.Machine.execCheckFlag f ms s
  | .waitTick f => Sys2Proof.Machine.execWaitTick f s
  | .waitTickExpiry f => Sys2Proof.Machine.execWaitTickExpiry f s
  | .endProg f => Sys2Proof.Machine.execEnd f s
  | .patrolRead f others => Sys2Proof.Machine.execPatrolRead f others s
  | .scrubWriteback f others => Sys2Proof.Machine.execScrubWriteback f others s
  | .descriptorFetch e c => Sys2Proof.Machine.execDescriptorFetch e c s
  | .descriptorStart e c => Sys2Proof.Machine.execDescriptorStart e c s
  | .burstIssue e ms => Sys2Proof.Machine.execBurstIssue e ms s
  | .bucketGrant ms => Sys2Proof.Machine.execBucketGrant ms s
  | .transferComplete e c => Sys2Proof.Machine.execTransferComplete e c s
  | .hostChannelPoll c => Sys2Proof.Machine.execHostChannelPoll c s
  | .descriptorAbort e c => Sys2Proof.Machine.execDescriptorAbort e c s
  | .expanderBlock p ms => Sys2Proof.Machine.execExpanderBlock p ms s
  | .condenserBlock p => Sys2Proof.Machine.execCondenserBlock p s
  | .hbmTraining ok => Sys2Proof.Machine.execHbmTraining ok s
  | .hbmTempRead t => Sys2Proof.Machine.execHbmTempRead t s
  | .ecsRead counts => Sys2Proof.Machine.execEcsRead counts s
  | .hbmRecalibration => Sys2Proof.Machine.execHbmRecalibration s
  | .hbmPowerDown c => Sys2Proof.Machine.execHbmPowerDown c s
  | .hbmParityError c failed => Sys2Proof.Machine.execHbmParityError c failed s
  | .lineGroupComplete st rows => Sys2Proof.Machine.execLineGroupComplete st rows s
  | .frameEnd rows => Sys2Proof.Machine.execFrameEnd rows s
  | .burstTrigger theta rows => Sys2Proof.Machine.execBurstTrigger theta rows s
  | .burstFrameStart rows lines => Sys2Proof.Machine.execBurstFrameStart rows lines s
  | .burstEnd => Sys2Proof.Machine.execBurstEnd s
  | .sensorStandbyExit => Sys2Proof.Machine.execSensorStandbyExit s
  | .setSensor flags seq set => Sys2Proof.Machine.execSetSensor flags seq set s
  | .sampleTrigger => Sys2Proof.Machine.execSampleTrigger s
  | .conversionDone k code => Sys2Proof.Machine.execConversionDone k code s
  | .holdoffExpiry idx => Sys2Proof.Machine.execHoldoffExpiry idx s
  | .urgentRequest => Sys2Proof.Machine.execUrgentRequest s
  | .blockComplete k bad => Sys2Proof.Machine.execBlockComplete k bad s
  | .historyWrite k => Sys2Proof.Machine.execHistoryWrite k s
  | .calibrationSlot => Sys2Proof.Machine.execCalibrationSlot s
  | .spareSelfCalibration => Sys2Proof.Machine.execSpareSelfCalibration s
  | .calibrationReturn ok => Sys2Proof.Machine.execCalibrationReturn ok s
  | .adcRefSettled => Sys2Proof.Machine.execAdcRefSettled s
  | .waveRefFault => Sys2Proof.Machine.execWaveRefFault s
  | .openWirePhaseEnd => Sys2Proof.Machine.execOpenWirePhaseEnd s
  | .ptpMessage port eth domain m => Sys2Proof.Machine.execPtpMessage port eth domain m s
  | .pdelayReqTimer => Sys2Proof.Machine.execPdelayReqTimer s
  | .syncTimeout => Sys2Proof.Machine.execSyncTimeout s
  | .holdoverExpiry => Sys2Proof.Machine.execHoldoverExpiry s
  | .holdoverReport => Sys2Proof.Machine.execHoldoverReport s
  | .linkDown port => Sys2Proof.Machine.execLinkDown port s
  | .linkUp port => Sys2Proof.Machine.execLinkUp port s
  | .discardedFrame port eth len badFcs => Sys2Proof.Machine.execDiscardedFrame port eth len badFcs s
  | .frameTransmit port => Sys2Proof.Machine.execFrameTransmit port s
  | .eventTimerEvent k => Sys2Proof.Machine.execEventTimerEvent k s
  | .etCapture k rising => Sys2Proof.Machine.execEtCapture k rising s
  | .templateRepeat t => Sys2Proof.Machine.execTemplateRepeat t s
  | .beamData port eth hdr payload => Sys2Proof.Machine.execBeamData port eth hdr payload s
  | .beamAck port eth hdr => Sys2Proof.Machine.execBeamAck port eth hdr s
  | .beamCredit port eth hdr => Sys2Proof.Machine.execBeamCredit port eth hdr s
  | .beamControl port eth hdr m => Sys2Proof.Machine.execBeamControl port eth hdr m s
  | .beamHello port eth hdr => Sys2Proof.Machine.execBeamHello port eth hdr s
  | .helloTimer => Sys2Proof.Machine.execHelloTimer s
  | .retransmit peer => Sys2Proof.Machine.execRetransmit peer s
  | .globalTimeout kind => Sys2Proof.Machine.execGlobalTimeout kind s
  | .loadSchedule flags seq addr len => Sys2Proof.Machine.execLoadSchedule flags seq addr len s
  | .loadScheduleChecked => Sys2Proof.Machine.execLoadScheduleChecked s
  | .start flags seq t => Sys2Proof.Machine.execStart flags seq t s
  | .stop flags seq => Sys2Proof.Machine.execStop flags seq s
  | .stats flags seq dst len => Sys2Proof.Machine.execStats flags seq dst len s
  | .dmaChain flags seq len inl => Sys2Proof.Machine.execDmaChain flags seq len inl s
  | .journalMirror flags seq len inl => Sys2Proof.Machine.execJournalMirror flags seq len inl s
  | .eventData flags seq len inl => Sys2Proof.Machine.execEventData flags seq len inl s
  | .analogRef flags seq len inl => Sys2Proof.Machine.execAnalogRef flags seq len inl s
  | .wavePeriod flags seq len inl => Sys2Proof.Machine.execWavePeriod flags seq len inl s
  | .waveCal flags seq len inl => Sys2Proof.Machine.execWaveCal flags seq len inl s
  | .openWire flags seq len inl => Sys2Proof.Machine.execOpenWire flags seq len inl s
  | .port flags seq len inl => Sys2Proof.Machine.execPort flags seq len inl s
  | .ptp flags seq len inl => Sys2Proof.Machine.execPtp flags seq len inl s
  | .eventTimer flags seq len inl => Sys2Proof.Machine.execEventTimer flags seq len inl s
  | .beamSystem flags seq len inl => Sys2Proof.Machine.execBeamSystem flags seq len inl s
  | .openWindow flags seq dir window peer kind facet region base size => Sys2Proof.Machine.execOpenWindow flags seq dir window peer kind facet region base size s
  | .closeWindow flags seq dir window => Sys2Proof.Machine.execCloseWindow flags seq dir window s
  | .globalBarrier flags seq window opId tick arg timeout src len => Sys2Proof.Machine.execGlobalBarrier flags seq window opId tick arg timeout src len s
  | .globalBroadcast flags seq window opId tick arg timeout src len => Sys2Proof.Machine.execGlobalBroadcast flags seq window opId tick arg timeout src len s
  | .globalSnapshot flags seq window opId tick arg timeout src len => Sys2Proof.Machine.execGlobalSnapshot flags seq window opId tick arg timeout src len s
  | .globalStart flags seq window opId tick arg timeout src len => Sys2Proof.Machine.execGlobalStart flags seq window opId tick arg timeout src len s
  | .globalStop flags seq window opId tick arg timeout src len => Sys2Proof.Machine.execGlobalStop flags seq window opId tick arg timeout src len s
  | .globalRestart flags seq window opId tick arg timeout src len => Sys2Proof.Machine.execGlobalRestart flags seq window opId tick arg timeout src len s
  | .snapshot flags seq tick => Sys2Proof.Machine.execSnapshot flags seq tick s
  | .readCounters flags seq dst len => Sys2Proof.Machine.execReadCounters flags seq dst len s
  | .readJournal flags seq first count dst => Sys2Proof.Machine.execReadJournal flags seq first count dst s
  | .attest flags seq nonce dst len => Sys2Proof.Machine.execAttest flags seq nonce dst len s
  | .attestSigned => Sys2Proof.Machine.execAttestSigned s
  | .enroll flags seq addr len slot => Sys2Proof.Machine.execEnroll flags seq addr len slot s
  | .fuseProgram flags seq region word source bits => Sys2Proof.Machine.execFuseProgram flags seq region word source bits s
  | .fuseSeal flags seq region => Sys2Proof.Machine.execFuseSeal flags seq region s
  | .fuseLock flags seq region kind => Sys2Proof.Machine.execFuseLock flags seq region kind s
  | .updateFirmware flags seq addr len => Sys2Proof.Machine.execUpdateFirmware flags seq addr len s
  | .updateFirmwareWritten ok => Sys2Proof.Machine.execUpdateFirmwareWritten ok s
  | .activateFirmware flags seq slot => Sys2Proof.Machine.execActivateFirmware flags seq slot s
  | .trialEnd => Sys2Proof.Machine.execTrialEnd s
  | .rollbackRetry => Sys2Proof.Machine.execRollbackRetry s
  | .setTemplate flags seq tmpl addr len => Sys2Proof.Machine.execSetTemplate flags seq tmpl addr len s
  | .dmaAbort flags seq engine channel => Sys2Proof.Machine.execDmaAbort flags seq engine channel s
  | .regionRestart flags seq mask => Sys2Proof.Machine.execRegionRestart flags seq mask s
  | .calibrationLoad flags seq addr len => Sys2Proof.Machine.execCalibrationLoad flags seq addr len s
  | .transition flags seq addr len => Sys2Proof.Machine.execTransition flags seq addr len s
  | .fuseGrant flags seq addr len => Sys2Proof.Machine.execFuseGrant flags seq addr len s
  | .revokeSlot flags seq addr len => Sys2Proof.Machine.execRevokeSlot flags seq addr len s
  | .cmdPutWrite path v => Sys2Proof.Machine.execCmdPutWrite path v s
  | .cmdSizeWrite path v => Sys2Proof.Machine.execCmdSizeWrite path v s
  | .evtSizeWrite path v => Sys2Proof.Machine.execEvtSizeWrite path v s
  | .evtGetWrite path v => Sys2Proof.Machine.execEvtGetWrite path v s
  | .ownerWrite path v => Sys2Proof.Machine.execOwnerWrite path v s
  | .mboxDataAccess path write => Sys2Proof.Machine.execMboxDataAccess path write s
  | .irqStatusWrite path v => Sys2Proof.Machine.execIrqStatusWrite path v s
  | .irqForceWrite path v => Sys2Proof.Machine.execIrqForceWrite path v s
  | .errSummaryPop path v => Sys2Proof.Machine.execErrSummaryPop path v s
  | .perfReqWrite path v => Sys2Proof.Machine.execPerfReqWrite path v s
  | .tickCtlWrite path v => Sys2Proof.Machine.execTickCtlWrite path v s
  | .snapCtlArm path v => Sys2Proof.Machine.execSnapCtlArm path v s
  | .snapCtlDisarm path v => Sys2Proof.Machine.execSnapCtlDisarm path v s
  | .wdogCtlWrite path v => Sys2Proof.Machine.execWdogCtlWrite path v s
  | .wdogKick path v => Sys2Proof.Machine.execWdogKick path v s
  | .hostLost => Sys2Proof.Machine.execHostLost s
  | .tickLoRead path part => Sys2Proof.Machine.execTickLoRead path part s
  | .timeLoRead path part => Sys2Proof.Machine.execTimeLoRead path part s
  | .lowHalfWrite reg v => Sys2Proof.Machine.execLowHalfWrite reg v s
  | .lowHalfRead reg hi => Sys2Proof.Machine.execLowHalfRead reg hi s
  | .registerWrite path reg be v => Sys2Proof.Machine.execRegisterWrite path reg be v s
  | .bar2Access off len write => Sys2Proof.Machine.execBar2Access off len write s
  | .firmwarePush path v => Sys2Proof.Machine.execFirmwarePush path v s
  | .functionLevelReset perst => Sys2Proof.Machine.execFunctionLevelReset perst s
  | .journalMirrorCopy => Sys2Proof.Machine.execJournalMirrorCopy s
  | .porstAssert => Sys2Proof.Machine.execPorstAssert s
  | .porstRelease bootSrc clkSrc => Sys2Proof.Machine.execPorstRelease bootSrc clkSrc s
  | .refCountWindow count => Sys2Proof.Machine.execRefCountWindow count s
  | .pllJudged d count => Sys2Proof.Machine.execPllJudged d count s
  | .pllCountCheck counts => Sys2Proof.Machine.execPllCountCheck counts s
  | .pgoodMainRise => Sys2Proof.Machine.execPgoodMainRise s
  | .pgoodMainTimeout => Sys2Proof.Machine.execPgoodMainTimeout s
  | .enMainRetry => Sys2Proof.Machine.execEnMainRetry s
  | .pgoodMainLow => Sys2Proof.Machine.execPgoodMainLow s
  | .pgoodCoreRise => Sys2Proof.Machine.execPgoodCoreRise s
  | .pgoodCoreTimeout => Sys2Proof.Machine.execPgoodCoreTimeout s
  | .vsetSettled => Sys2Proof.Machine.execVsetSettled s
  | .thermalCrossing t => Sys2Proof.Machine.execThermalCrossing t s
  | .supplyWarningCrossing idx mv => Sys2Proof.Machine.execSupplyWarningCrossing idx mv s
  | .supplyResetLevel idx mv => Sys2Proof.Machine.execSupplyResetLevel idx mv s
  | .sleepEntry => Sys2Proof.Machine.execSleepEntry s
  | .wake level => Sys2Proof.Machine.execWake level s
  | .periscopeTransaction addr write count => Sys2Proof.Machine.execPeriscopeTransaction addr write count s
  | .sleepExit => Sys2Proof.Machine.execSleepExit s
  | .firmwareBoot => Sys2Proof.Machine.execFirmwareBoot s
  | .fuseReread reads => Sys2Proof.Machine.execFuseReread reads s
  | .regionIsolation r block cause => Sys2Proof.Machine.execRegionIsolation r block cause s
  | .autoRestart r => Sys2Proof.Machine.execAutoRestart r s
  | .restartStepsDone r ok => Sys2Proof.Machine.execRestartStepsDone r ok s
  | .controlWatchdogExpiry => Sys2Proof.Machine.execControlWatchdogExpiry s
  | .fatalError status region block addr => Sys2Proof.Machine.execFatalError status region block addr s
  | .vddAonPowerUp pscAddr => Sys2Proof.Machine.execVddAonPowerUp pscAddr s
  | .vddAonPowerLoss => Sys2Proof.Machine.execVddAonPowerLoss s
  | .supplyRecovery idx mv => Sys2Proof.Machine.execSupplyRecovery idx mv s
  | .pgoodCoreLow => Sys2Proof.Machine.execPgoodCoreLow s
  | .thermalRearm t => Sys2Proof.Machine.execThermalRearm t s
  | .pcieLinkTrained => Sys2Proof.Machine.execPcieLinkTrained s
  | .vppFusePresence mv outcomes => Sys2Proof.Machine.execVppFusePresence mv outcomes s
  | .containerChecked => Sys2Proof.Machine.execContainerChecked s
  | .fuseProgrammingDone outcomes => Sys2Proof.Machine.execFuseProgrammingDone outcomes s
  | .backgroundResultWritten opcode => Sys2Proof.Machine.execBackgroundResultWritten opcode s

end Sys2Proof.Machine
end

