-- ==== Sys2Proof/Machine/Idle.lean ====
section
/-! DEFINITION. What the block does when no command waits (log 1). -/

namespace Sys2Proof.Machine

/-- Units of the servo's adjustment, 2^-16 ppm of 1 ns, in a nanosecond (11 R302, R304). -/
def slewUnit : Int := 65536000000

/-- An idle step: one cycle of the TIME domain (250 MHz) passes while that domain is clocked, slewed by the servo's
adjustment (11 R302), which stays in force in HOLDOVER (11 R303); nothing else changes but what the token bucket gains by
it. -/
def State.idleStep (s : State) : State :=
  let d := s.tk.slew + 4 * s.net.ptp.adj
  let q := Int.fdiv d slewUnit
  let s := s.setTime ((s.tk.now : Int) + 4 + q).toNat
  { s with tk := { s.tk with slew := d - q * slewUnit } }

end Sys2Proof.Machine
end

