-- ==== Sys2Proof/Safety.lean ====
section
/-! DEFINITION. The terms that statements are made in: what a state keeps at every step (memory, poison marks and
counters in their canonical form, the stores of a fixed size within it), and which fields of State differ between
two states. -/

namespace Sys2Proof.Machine

/-- Memory in its canonical form: addresses strictly rising, no byte listed that reads as an unlisted
address does. -/
abbrev Memory.wf (m : SMap Byte) : Bool := SMap.wf 0 m

/-- What an outcome ensures of the next state, when it answers one. -/
def Keeps (P : State → Prop) : Host.Outcome State Fault Refusal → Prop
  | .next t => P t
  | .fault _ => True
  | .refused _ => True

/-- The invariant of every step. -/
structure State.Inv (s : State) : Prop where
  /-- Memory is canonical. -/
  mem : Memory.wf s.mem = true
  /-- Poison marks are canonical. -/
  poison : SMap.wf 0 s.poison = true
  /-- Counters are canonical. -/
  cnt : SMap.wf 0 s.cnt = true
  /-- The token bucket holds at most 32 MiB (06 R164). -/
  bucket : s.hbm.bucket ≤ 33554432
  /-- The control bucket holds at most 1 MiB (06 R166). -/
  control : s.hbm.ctlBucket ≤ 1048576
  /-- The poison table holds at most 256 granules (06 R168). -/
  table : s.hbm.poison.length ≤ 256
  /-- The error queue holds at most 255 records (16 R450, R451). -/
  errors : s.err.queue.length ≤ 255
  /-- The always-on journal store holds at most 32 entries (12 R356). -/
  journal : s.jnl.aon.length ≤ 32

/-! ### Frames -/

/-- The fields of State. -/
inductive Field where
  | pending | freeCtr | out | upsets | mem | poison | wbQueue | cnt | tk | facets
  | sched | ap | hbm | dma | tmplStatus | exp | cnd | img | wav
  | net | beam | host | jnl | err | pwr | fuse | trust | idle | ready
  deriving DecidableEq, Repr

/-- Two states agree on a field. -/
def Field.same : Field → State → State → Prop
  | .pending, s, t => t.pending = s.pending
  | .freeCtr, s, t => t.freeCtr = s.freeCtr
  | .out, s, t => t.out = s.out
  | .upsets, s, t => t.upsets = s.upsets
  | .mem, s, t => t.mem = s.mem
  | .poison, s, t => t.poison = s.poison
  | .wbQueue, s, t => t.wbQueue = s.wbQueue
  | .cnt, s, t => t.cnt = s.cnt
  | .tk, s, t => t.tk = s.tk
  | .facets, s, t => t.facets = s.facets
  | .sched, s, t => t.sched = s.sched
  | .ap, s, t => t.ap = s.ap
  | .hbm, s, t => t.hbm = s.hbm
  | .dma, s, t => t.dma = s.dma
  | .tmplStatus, s, t => t.tmplStatus = s.tmplStatus
  | .exp, s, t => t.exp = s.exp
  | .cnd, s, t => t.cnd = s.cnd
  | .img, s, t => t.img = s.img
  | .wav, s, t => t.wav = s.wav
  | .net, s, t => t.net = s.net
  | .beam, s, t => t.beam = s.beam
  | .host, s, t => t.host = s.host
  | .jnl, s, t => t.jnl = s.jnl
  | .err, s, t => t.err = s.err
  | .pwr, s, t => t.pwr = s.pwr
  | .fuse, s, t => t.fuse = s.fuse
  | .trust, s, t => t.trust = s.trust
  | .idle, s, t => t.idleNs = s.idleNs
  | .ready, s, t => t.ready = s.ready

/-- `t` differs from `s` only in fields of `m`. -/
def State.Only (m : List Field) (s t : State) : Prop := ∀ f, f ∉ m → f.same s t

/-! ### What records do -/

/-- The host-control fields that records change: EVT_PUT, IRQ_STATUS, the pending bits of MSI-X, the sequence numbers,
the holding queue, the data ring and the counts of the tick. -/
def HostCtl.mute (h : HostCtl) : HostCtl :=
  { h with
    evtPut := 0, irqStatus := 0, msixPending := 0, seqs := [], held := [], lost := 0, lostBefore := false, dataPos := 0
    dataUsed := [], faultAcc := [] }

/-- An address that event records and journal entries are written to: the journal ring, and the slots of the event
ring in use with the one at EVT_PUT (12 R344, R354). -/
def State.recordByte (s : State) (a : Nat) : Prop :=
  (journalBase ≤ a ∧ a < journalBase + 0x100000) ∨
  ∃ i, (i < s.evtRingSize ∨ i = s.host.evtPut) ∧ s.evtSlot i ≤ a ∧ a < s.evtSlot i + 64

/-- Between `s` and `t` host control changes by records alone, and memory changes at the addresses of records and
of `x` alone. -/
structure State.Told (x : Nat → Prop) (s t : State) : Prop where
  /-- Host control but for what records change. -/
  host : t.host.mute = s.host.mute
  /-- EVT_PUT stays or is a slot of the ring. -/
  put : t.host.evtPut = s.host.evtPut ∨ t.host.evtPut < s.evtRingSize
  /-- Memory keeps its canonical form. -/
  wf : Memory.wf s.mem = true → Memory.wf t.mem = true
  /-- Every other byte is unchanged. -/
  mem : Memory.wf s.mem = true → ∀ a, ¬ s.recordByte a → ¬ x a → SMap.get 0 t.mem a = SMap.get 0 s.mem a

/-- The entry of index `j` of the journal stands in its ring: its index, OPCODE, RESULT and digest (12 R353, R354). -/
def State.journalled (t : State) (j opcode result : Nat) (digest : List Byte) : Prop :=
  let e := journalBase + j % 16384 * 64
  t.readLe e 8 = j % 2 ^ 64 ∧ t.readLe (e + 20) 2 = opcode ∧ t.readLe (e + 22) 2 = result ∧
    t.readB (e + 32) 16 = fitBytes 16 digest

/-! ### Macro-op records -/

/-- Where a Facet stands in its program: all of it but its files, its regions, what it has emitted and queued, and the
validity of its tick. -/
def Facet.place (x : Facet) : Facet :=
  { x with
    acc := [], bound := [], invalid := false, emits := []
    regions := Vector.replicate 16 RegionSt.vacant }

/-- The place one record further (03 R77, R79): the record's cycles pass, and SETF sets its flag at the last. -/
def Facet.passed (x : Facet) (r : Rec) (cycles : Nat) (array : Bool) : Facet :=
  { x.place with
    prog := x.prog.tail, recIdx := x.recIdx + 1, cycle := x.cycle + cycles, prevArray := array
    flags := if r.flagBit 3 then (r.flag % 16, x.cycle + cycles - 1) :: x.flags else x.flags }

/-- The Facet, the opcode and the meetings of the rows that execute a record at once (03 R78). -/
def recordOf : Instr → Option (Fin 16 × Nat × List Meet)
  | .mm f ms => some (f, opMM, ms)
  | .mmt f ms => some (f, opMMT, ms)
  | .conv f ms => some (f, opCONV, ms)
  | .dwconv f ms => some (f, opDWCONV, ms)
  | .vecEw f ms => some (f, opVecEw, ms)
  | .vecRed f ms => some (f, opVecRed, ms)
  | .softmax f ms => some (f, opSoftmax, ms)
  | .norm f ms => some (f, opNorm, ms)
  | .act f ms => some (f, opAct, ms)
  | .gather f ms => some (f, opGather, ms)
  | .scatter f ms => some (f, opScatter, ms)
  | .decide f ms => some (f, opDecide, ms)
  | .topk f ms => some (f, opTopk, ms)
  | .nms f ms => some (f, opNms, ms)
  | .crop f ms => some (f, opCrop, ms)
  | .resample f ms => some (f, opResample, ms)
  | .copy2d f ms => some (f, opCopy2d, ms)
  | .accWrite f ms => some (f, opAccWrite, ms)
  | .push f ms => some (f, opPush, ms)
  | .pop f ms => some (f, opPop, ms)
  | .emit f ms => some (f, opEmit, ms)
  | .checkFlag f ms => some (f, opCheckFlag, ms)
  | _ => none

/-- Rows that a record stores: the operand word they start at, how many, the units of one, and the units from one
to the next. -/
structure Store where
  word : Nat
  rows : Nat
  width : Nat
  stride : Nat

/-- Units that `n` elements of a TYPE nibble take. -/
def eltUnits (n ty : Nat) : Nat := ceilDiv (n * (elt ty).bits) 256

/-- What a record may store in a scratchpad, at most (03 R82, R83, R89 to R95, R494). -/
def Rec.stores (r : Rec) : List Store :=
  let one (word units : Nat) : Store := ⟨word, 1, units, 0⟩
  let or0 (v d : Nat) : Nat := if v = 0 then d else v
  if isArrayOp r.op then (if r.accKeep then [] else [one r.op2 (ceilDiv (r.m * r.yRow) 32)])
  else if r.op = opVecRed then
    if (Ref.ofWord r.op2).acc then []
    else if r.flagBit 4 then [one r.op2 (eltUnits r.cols r.ty1)]
    else if r.vstride = 0 then [one r.op2 (eltUnits r.rows r.ty1)]
    else [⟨r.op2, r.rows, 1, r.vstride⟩]
  else if 0x10 ≤ r.op ∧ r.op ≤ 0x14 then
    if (Ref.ofWord r.op2).acc then []
    else [⟨r.op2, r.rows, eltUnits r.cols r.ty1, or0 r.vstride (eltUnits r.cols r.ty1)⟩]
  else if r.op = opDecide then
    one r.op2 (ceilDiv (r.rows * 8) 32) ::
      (if r.op3 = 0 then [] else [one r.op3 (ceilDiv (r.rows * (ceilDiv r.cols 64 * 8)) 32)])
  else if r.op = opTopk then [one r.op2 (ceilDiv (r.rows * (r.p 0x1C 1 * 8)) 32)]
  else if r.op = opNms then [one r.op2 (ceilDiv (r.p 0x14 2) 256), one r.op3 1]
  else if r.op = opGather then [one r.op2 (r.p 0x14 2 * r.p 0x16 2)]
  else if r.op = opScatter then [one r.op2 (r.p 0x18 4 * r.p 0x16 2)]
  else if r.op = opCrop then [one r.op2 (r.p 0x16 2 * unitsOf (r.p 0x14 2 * ((elt r.ty0).bits / 8))), one r.op3 1]
  else if r.op = opResample then [one r.op2 (r.p 0x1A 2 * eltUnits (r.p 0x18 2) r.ty0)]
  else if r.op = opCopy2d then
    if r.flagBit 4 then [⟨r.op2, 32 * r.p 0x16 2, ceilDiv (r.p 0x14 2) 32, or0 (r.p 0x1A 2) (r.p 0x14 2 / 32)⟩]
    else [⟨r.op2, r.p 0x14 2, r.p 0x16 2, or0 (r.p 0x1A 2) (r.p 0x16 2)⟩]
  else if r.op = opAccWrite then [⟨r.op2, r.p 0x14 2, r.p 0x16 2, or0 (r.p 0x18 2) (r.p 0x16 2)⟩]
  else []

/-- Address of unit `o` of a destination: in the Facet that the reference names, or from LOCAL_HEAD of its circular
region (03 R75; 05 R146). -/
def State.destAddr (s : State) (f : Fin 16) (ref : Ref) (o : Nat) : Nat :=
  let g := ref.facet f
  if ref.circ then
    let rg := s.facets[g].regions[fin16 ref.region]
    unitAddr g (rg.base + (rg.head + rg.localPush + (ref.unit + o) % rg.size) % rg.size)
  else unitAddr g (ref.unit + o)

/-- A byte that a record of Facet `f` may store. -/
def State.storedBy (s : State) (f : Fin 16) (r : Rec) (a : Nat) : Prop :=
  ∃ st ∈ r.stores, ∃ i, i < st.rows ∧ ∃ j, j < st.width ∧
    s.destAddr f (Ref.ofWord st.word) (i * st.stride + j) ≤ a ∧
    a < s.destAddr f (Ref.ofWord st.word) (i * st.stride + j) + 32

/-- Nothing is poisoned and no stored error waits to be met. -/
def State.clean (s : State) : Prop := s.poison = [] ∧ s.upsets = []

/-! ### The token bucket (06 R164) -/

/-- HBM grants an access at once: it moves no byte of HBM, or the stack answers, nothing waits before it and the
bucket holds its bytes. -/
def State.grants (s : State) (u : BucketUser) (n prio : Nat) : Prop :=
  n = 0 ∨ s.hbm.phase = .ready ∧ s.heldBack prio = false ∧ n ≤ s.hbm.bucket ∧ ∀ w ∈ s.hbm.waiting, w.user ≠ u

/-! ### Host commands (12 R335 to R340) -/

/-- The descriptor that a host command's row submits (12 R341, R342). -/
def hostDesc : Instr → Option Desc
  | .loadSchedule f q a n => some ⟨.loadSchedule a n, f, q⟩
  | .start f q t => some ⟨.start t, f, q⟩
  | .stop f q => some ⟨.stop, f, q⟩
  | .stats f q d n => some ⟨.stats d n, f, q⟩
  | .dmaChain f q n i => some ⟨.setParams 0x01 n (fitBytes 48 i), f, q⟩
  | .journalMirror f q n i => some ⟨.setParams 0x02 n (fitBytes 48 i), f, q⟩
  | .eventData f q n i => some ⟨.setParams 0x03 n (fitBytes 48 i), f, q⟩
  | .analogRef f q n i => some ⟨.setParams 0x10 n (fitBytes 48 i), f, q⟩
  | .wavePeriod f q n i => some ⟨.setParams 0x11 n (fitBytes 48 i), f, q⟩
  | .waveCal f q n i => some ⟨.setParams 0x12 n (fitBytes 48 i), f, q⟩
  | .openWire f q n i => some ⟨.setParams 0x13 n (fitBytes 48 i), f, q⟩
  | .port f q n i => some ⟨.setParams 0x20 n (fitBytes 48 i), f, q⟩
  | .ptp f q n i => some ⟨.setParams 0x21 n (fitBytes 48 i), f, q⟩
  | .eventTimer f q n i => some ⟨.setParams 0x22 n (fitBytes 48 i), f, q⟩
  | .beamSystem f q n i => some ⟨.setParams 0x23 n (fitBytes 48 i), f, q⟩
  | .setSensor f q x => some ⟨.setSensor (fitBytes 32 x), f, q⟩
  | .openWindow f q d w p k g r b n => some ⟨.openWindow d w p k g r b n, f, q⟩
  | .closeWindow f q d w => some ⟨.closeWindow d w, f, q⟩
  | .globalBarrier f q w o t a m x n => some ⟨.globalOp 0 w o t a m x n, f, q⟩
  | .globalBroadcast f q w o t a m x n => some ⟨.globalOp 1 w o t a m x n, f, q⟩
  | .globalSnapshot f q w o t a m x n => some ⟨.globalOp 2 w o t a m x n, f, q⟩
  | .globalStart f q w o t a m x n => some ⟨.globalOp 3 w o t a m x n, f, q⟩
  | .globalStop f q w o t a m x n => some ⟨.globalOp 4 w o t a m x n, f, q⟩
  | .globalRestart f q w o t a m x n => some ⟨.globalOp 5 w o t a m x n, f, q⟩
  | .snapshot f q t => some ⟨.snapshot t, f, q⟩
  | .readCounters f q d n => some ⟨.readCounters d n, f, q⟩
  | .readJournal f q i n d => some ⟨.readJournal i n d, f, q⟩
  | .attest f q x d n => some ⟨.attest (fitBytes 32 x) d n, f, q⟩
  | .enroll f q a n k => some ⟨.enroll a n k, f, q⟩
  | .fuseProgram f q r w x b => some ⟨.fuseProgram r w x b, f, q⟩
  | .fuseSeal f q r => some ⟨.fuseSeal r, f, q⟩
  | .fuseLock f q r k => some ⟨.fuseLock r k, f, q⟩
  | .updateFirmware f q a n => some ⟨.updateFirmware a n, f, q⟩
  | .activateFirmware f q k => some ⟨.activateFirmware k, f, q⟩
  | .setTemplate f q t a n => some ⟨.setTemplate t a n, f, q⟩
  | .dmaAbort f q e c => some ⟨.dmaAbort e c, f, q⟩
  | .regionRestart f q m => some ⟨.regionRestart m, f, q⟩
  | .calibrationLoad f q a n => some ⟨.calibrationLoad a n, f, q⟩
  | .transition f q a n => some ⟨.setPolicy a n, f, q⟩
  | .fuseGrant f q a n => some ⟨.setPolicy a n, f, q⟩
  | .revokeSlot f q a n => some ⟨.setPolicy a n, f, q⟩
  | _ => none

/-- The descriptor written into slot CMD_PUT and taken from there, before its checks: both indexes have advanced and
IRQ_STATUS.CMD_SPACE is set. -/
def State.offered (s : State) (d : Desc) : State :=
  ((s.writeSlot s.host.cmdPut (descBytes d)).updHost (fun h => { h with
    cmdPut := (h.cmdPut + 1) % s.cmdEntries })).advanceGet

/-- The state in which a descriptor's command begins, or its refusal is reported: SEQUENCE is the last accepted
one when it begins. -/
def State.admitted (s : State) (d : Desc) : State :=
  (s.offered d).updHost (fun h => { h with expSeq := some (d.seq + 1) })

/-- The command as it is accepted; of a START, whether a LOAD_SCHEDULE is being checked then (12 R339). -/
def State.accepted (s : State) (d : Desc) : Accepted :=
  ⟨d, descBytes d, ownerPath s.host.owner, s.tk.now, s.tk.tick, [], [], s.acceptNum d.cmd⟩

/-- The device serves descriptors, the ring in use holds none and has room for one. -/
structure State.Open (s : State) : Prop where
  /-- Room in the ring, and the owner's path. -/
  room : s.canSubmit = true
  /-- READY.TRUST, READY.JOURNAL, no sleep. -/
  serving : s.serving = true
  /-- Every earlier descriptor has been taken. -/
  level : s.host.cmdGet = s.host.cmdPut

/-- A descriptor passes every framing check, and its command need not wait for another. -/
structure State.Takes (s : State) (d : Desc) : Prop extends State.Open s where
  /-- The checks of 12 R337. -/
  passes : (s.offered d).refuseDesc d (descBytes d) = 0
  /-- A foreground command finds none before it. -/
  free : isBackground d.cmd = false → s.host.fg = none ∧ s.host.deferred = []
  /-- No background command has its sequence. -/
  fresh : ∀ b ∈ s.host.bg, b.desc.seq ≠ d.seq

/-- The state in which an accepted command runs: in the background, or as the foreground command. -/
def State.begun (s : State) (d : Desc) : State :=
  (s.admitted d).updHost (fun h =>
    if isBackground d.cmd then { h with bg := h.bg ++ [s.accepted d] } else { h with fg := some (s.accepted d) })

/-- A background command that runs with what it will write. -/
def State.holding (s : State) (d : Desc) (data : List Byte) (num : Nat) : State :=
  (s.admitted d).updHost (fun h => { h with bg := h.bg ++ [{ s.accepted d with data := data, num := num }] })

/-! ### Reset -/

/-- The fuse array over a reset or a loss of supply (13 R380): with no operation in progress it is as it was; else the
operation ends where it stands, its bits with outcomes left open and every other bit as it was. -/
def FuseSt.cutBy (f g : FuseSt) : Prop :=
  (f.op = none → g.firm = f.firm ∧ g.marg = f.marg) ∧
  ∀ op, f.op = some op → SMap.wf 0 f.firm = true → SMap.wf 0 f.marg = true → ∀ p,
    (f.isFirm p = true → g.isFirm p = true) ∧
    (p ∉ op.todo → g.isFirm p = f.isFirm p ∧
      bitOf (g.marg.get (p / 64)) (p % 64) = bitOf (f.marg.get (p / 64)) (p % 64))

/-- An internal reset with a cause and a status lies between `s` and `t`: what is always-on or outside the device is
kept, everything else is as after reset, and no READY bit but AON and FUSE is set (16 R459, R460; 17 R474). -/
structure State.ResetBy (cause status : Nat) (s t : State) : Prop where
  /-- RESET_CAUSE. -/
  why : t.pwr.resetCause = cause ∧ t.pwr.resetStatus = status ∧ t.pwr.resetCount = min 255 (s.pwr.resetCount + 1)
  /-- READY. -/
  ready : t.ready &&& 0x7FFFC#19 = 0
  /-- Schedules and engines. -/
  units : t.tk = TimeSt.reset ∧ t.facets = State.reset.facets ∧ t.sched = Sched.reset ∧ t.dma = State.reset.dma ∧
    t.tmplStatus = [] ∧ t.exp = State.reset.exp ∧ t.cnd = State.reset.cnd ∧ t.img = Img.reset ∧ t.wav = Wav.reset ∧
    t.net = Net.reset ∧ t.beam = Beam.reset ∧ t.ap = Aperture.reset
  /-- Memory: the host's alone is left. -/
  mem : t.mem = hostMem s.mem ∧ t.poison = [] ∧ t.upsets = [] ∧ t.wbQueue = []
  /-- Host control: the expected sequence and PERST# are kept. -/
  host : t.host = { HostCtl.reset with expSeq := s.host.expSeq, perst := s.host.perst }
  /-- The journal goes on, its last entries are kept. -/
  jnl : t.jnl = { Journal.reset with
    head := s.jnl.head, chain := s.jnl.chain, aon := s.jnl.aon, ringFrom := s.jnl.head }
  /-- The fuse array, the flash, what waits and what has left the package. -/
  kept : s.fuse.cutBy t.fuse ∧ t.fuse.op = none ∧ t.trust.flash = s.trust.flash ∧
    t.pending = s.pending ∧ t.out = s.out
  /-- The last-state record holds the cause (16 R460). -/
  last : t.err = { Errors.reset with lastState := t.err.lastState } ∧ t.err.lastState.head? = some (BitVec.ofNat 8 cause)

/-- No command waits for another to end, and no START is pending. -/
def State.quiet (s : State) : Prop := s.sched.start = none ∧ s.host.deferred = []

/-- Nothing but the next tick itself takes effect at its edge: no frame, global operation, snapshot, START, STOP,
shedding, level change, rejoining region, activation or TIME step waits for one. -/
structure State.Settled (s : State) : Prop where
  /-- The TIME domain runs. -/
  time : s.pwr.pll[8] = .good
  /-- No schedule is about to start or to stop, and no command waits. -/
  sched : s.quiet ∧ s.sched.stop = none
  /-- No global operation is known. -/
  ops : s.beam.ops = []
  /-- No snapshot is armed. -/
  snap : s.err.snap = none
  /-- The stage is the target. -/
  shed : s.pwr.shed = s.pwr.target
  /-- No level change is in progress. -/
  level : s.pwr.change = none
  /-- No region waits to rejoin. -/
  rejoin : s.err.rejoin = 0
  /-- No firmware waits. -/
  activate : s.trust.activate = none
  /-- No step of TIME waits. -/
  step : s.tk.stepPending = none
  /-- The sensor reads out no frame. -/
  sensor : s.img.cfg = none ∧ s.img.frame = none

/-- A reference to scratchpad units that is neither circular nor to the accumulator file (03 R75). -/
def Ref.plain (r : Ref) : Prop := r.circ = false ∧ r.acc = false

end Sys2Proof.Machine
end

