-- ==== Sys2Proof/Certificates/Slice0/Obligations.lean ====
section
/-! DEFINITION. The statements about this model. -/

open Sys2Proof Sys2Proof.Machine

/-! ### The queue, reset and the invariant -/

/-- The command at the front of the queue runs on the state with the queue's rest. -/
def Obligations.StepRunsFrontCommand : Prop :=
  ∀ (c : Instr) (s : State), step { s with pending := c :: s.pending } = exec c s

/-- On an empty queue a cycle of the TIME domain passes (log 1, the model's choice): TIME advances by 4 ns and by what
the servo's adjustment adds to them (11 R302), modulo 2^64, and keeps the part below a nanosecond; what the token
buckets gain by it is credited, IDLE_TIME counts it in an idle device and is 0 in any other (15 R433), and nothing else
changes but counters of waiting. -/
def Obligations.EmptyQueueIdles : Prop :=
  ∀ s : State, s.pending = [] →
    let d := s.tk.slew + 4 * s.net.ptp.adj
    let q := Int.fdiv d slewUnit
    let n := ((s.tk.now : Int) + 4 + q).toNat % 2 ^ 64
    ∃ t, step s = .next t ∧ t.tk = { s.tk with now := n, slew := d - q * slewUnit } ∧
      (s.tk.now ≤ n →
        t.hbm.bucket = min 33554432 (s.hbm.bucket + (n - s.hbm.credited) / 2 * (s.hbm.rate / 4 * 8)) ∧
        t.hbm.ctlBucket = min 1048576 (s.hbm.ctlBucket + (n - s.hbm.credited) / 2 * 4) ∧
        t.idleNs = if s.idle then s.idleNs + (n - s.tk.now) else 0) ∧
      (n < s.tk.now → t.hbm = { s.hbm with credited := n } ∧ t.idleNs = s.idleNs) ∧
      State.Only [.cnt, .tk, .hbm, .idle] s t

/-- The state after reset meets the invariant: nothing of memory is listed, no poison, no counter, and every store is
within its size. -/
def Obligations.ResetMeetsInvariant : Prop := State.Inv State.reset

/-- Every step keeps the invariant: memory, poison marks and counters stay in canonical form, the token bucket holds at
most 32 MiB (06 R164), the control bucket at most 1 MiB (06 R166), the poison table 256 granules (06 R168), the error
queue 255 records (16 R450, R451) and the always-on journal store 32 entries (12 R356). -/
def Obligations.StepKeepsInvariant : Prop :=
  ∀ s t : State, s.Inv → step s = .next t → t.Inv

/-- After reset the registers read what 12 R325 and R329 to R332 give them: OWNER NONE; both rings off, with their bases
and every index 0, MBOX_ADDR and MBOX_DATA 0; no interrupt pending or enabled, no error record pending; PERF_REQ level 3
without AUTO, PERF_NOW level 3 at 400 MHz with no change pending, SLEEP_CTL, IDLE_TIME, SUPPLY, SHED, TEMP_A and TEMP_B
0; TICK_CTL.RATE 600 with no rate pending, TICK, TIME, SNAP_CTL and SNAP_TICK 0. -/
def Obligations.ResetRegisterValues : Prop :=
  let s := State.reset
  s.regValue 0x04 = 0 ∧ (∀ i ∈ [0x05, 0x06, 0x07, 0x08, 0x09, 0x0A, 0x0B, 0x0C, 0x0D, 0x0E, 0x0F, 0x10, 0x11, 0x12,
    0x14, 0x15, 0x16, 0x17, 0x1A, 0x1B, 0x1C, 0x1D, 0x1E, 0x1F, 0x21, 0x22, 0x23, 0x24, 0x25, 0x26],
    s.regValue i = 0) ∧
  s.regValue 0x18 = 3 ∧ s.regValue 0x19 = 3 + 400 * 65536 ∧ s.regValue 0x20 = 600

/-! ### Registers (12 R319 to R333) -/

/-- A write to any register but OWNER through a path that does not own the device is counted in NONOWNER_WRITES and
changes nothing else but the local bus's own low-half latch (12 R319, R323). A PCIe write whose byte enables are not all
set changes nothing (12 R322), and neither does a write through a path that is down or to an offset without a register
(12 R320). Whoever writes, and whatever, a register write completes: REGISTER_WRITE (registerWrite) and the rows of
single registers, CMD_PUT_WRITE (cmdPutWrite), CMD_SIZE_WRITE (cmdSizeWrite), EVT_SIZE_WRITE (evtSizeWrite),
EVT_GET_WRITE (evtGetWrite), OWNER_WRITE (ownerWrite), IRQ_STATUS_WRITE (irqStatusWrite), IRQ_FORCE_WRITE
(irqForceWrite), ERR_SUMMARY_POP (errSummaryPop), PERF_REQ_WRITE (perfReqWrite), TICK_CTL_WRITE (tickCtlWrite),
SNAP_CTL_ARM (snapCtlArm), SNAP_CTL_DISARM (snapCtlDisarm), WDOG_CTL_WRITE (wdogCtlWrite), WDOG_KICK (wdogKick) and
FIRMWARE_PUSH (firmwarePush). -/
def Obligations.NonOwnerWriteIgnored : Prop :=
  (∀ (p : Path) (r : Fin 1024) (v : Word) (s : State), s.pathOpen p = true → s.host.owner ≠ pathOwner p →
    r.val < 0x30 → r.val ≠ 4 →
    exec (.registerWrite p r 15 v) s = .next (((s.written p r.val v).2).count srcHost 0 1) ∧
    (s.written p r.val v).2 = { s with host := { s.host with
      lowLatch := match p with | .pcie => s.host.lowLatch | .localbus => none } }) ∧
  (∀ (r : Fin 1024) (be : BitVec 4) (v : Word) (s : State), be ≠ 15 →
    exec (.registerWrite .pcie r be v) s = .next s) ∧
  (∀ (r : Fin 1024) (v : Word) (s : State), s.pathOpen .pcie = true → 0x30 ≤ r.val →
    r.val < 0x200 ∨ 0x240 ≤ r.val → exec (.registerWrite .pcie r 15 v) s = .next s) ∧
  (∀ (p : Path) (r : Fin 1024) (be : BitVec 4) (v : Word) (s : State), s.pathOpen p = false →
    exec (.registerWrite p r be v) s = .next s) ∧
  (∀ (p : Path) (r : Fin 1024) (be : BitVec 4) (v : Word) (c : Instr) (s : State),
    c ∈ [Instr.registerWrite p r be v, .cmdPutWrite p v, .cmdSizeWrite p v, .evtSizeWrite p v, .evtGetWrite p v,
      .ownerWrite p v, .irqStatusWrite p v, .irqForceWrite p v, .errSummaryPop p v, .perfReqWrite p v,
      .tickCtlWrite p v, .snapCtlArm p v, .snapCtlDisarm p v, .wdogCtlWrite p v, .wdogKick p v, .firmwarePush p v] →
    ∃ t, exec c s = .next t ∧ t.pending = s.pending)

/-- CMD_SIZE (CMD_SIZE_WRITE, cmdSizeWrite; 12 R329): 0 disables the ring and clears both indexes; a power of two from
16 to 4,096 enables a disabled ring at slot 0; no other value is taken, and no value for a ring in use but 0 (log 51,
the model's choice). `u` is the state after the write cycle, which differs from `s` in the low-half latch alone.
EVT_SIZE and EVT_GET (EVT_SIZE_WRITE, evtSizeWrite; EVT_GET_WRITE, evtGetWrite; 12 R329, R345, R346): 0 disables the
event ring, and the data ring keeps only buffers whose records are still held (log 52, the model's choice); a power of
two from 64 to 32,768 enables a disabled one at slot 0, and then held records are placed; an index below the ring's size
is taken, frees the buffers of the records passed, and held records are placed, each at EVT_PUT in its order, until the
ring is full or none is left; any other is ignored. CMD_PUT (CMD_PUT_WRITE, cmdPutWrite; 12 R329, R335): an index below
the ring's size is taken and the descriptors up to it are served; an index of SIZE or more is ignored. -/
def Obligations.RingRegistersWritten : Prop :=
  (∀ (p : Path) (v : Word) (s : State), s.pathOpen p = true → s.host.owner = pathOwner p →
    let u := (s.written p 0x07 v).2
    let n := (s.written p 0x07 v).1.toNat % 65536
    exec (.cmdSizeWrite p v) s = .next (
      if n = 0 then { u with host := { u.host with cmdSize := 0, cmdGet := 0, cmdPut := 0 } }
      else if s.host.cmdSize = 0 ∧ n ∈ [16, 32, 64, 128, 256, 512, 1024, 2048, 4096] then
        { u with host := { u.host with cmdSize := n, cmdGet := 0, cmdPut := 0 } }
      else u)) ∧
  (∀ (p : Path) (v : Word) (s : State), s.pathOpen p = true → s.host.owner = pathOwner p →
    (let u := (s.written p 0x0C v).2
     let n := (s.written p 0x0C v).1.toNat % 65536
     exec (.evtSizeWrite p v) s = .next (
      if n = 0 then { u with host := { u.host with
        evtSize := 0, evtGet := 0, evtPut := 0, dataUsed := u.host.dataUsed.filter (fun d => d.1 == none) } }
      else if s.host.evtSize = 0 ∧ n ∈ [64, 128, 256, 512, 1024, 2048, 4096, 8192, 16384, 32768] then
        State.flushHeld { u with host := { u.host with evtSize := n, evtGet := 0, evtPut := 0 } }
      else u)) ∧
    (let u := (s.written p 0x0E v).2
     let g := (s.written p 0x0E v).1.toNat % 65536
     let n := s.evtRingSize
     let passed : State := { u with host := { u.host with evtGet := g, dataUsed := u.host.dataUsed.filter (fun d =>
       match d.1 with
       | some k => decide ((g + n - s.host.evtGet) % n ≤ (k + n - s.host.evtGet) % n)
       | none => true) } }
     ∃ t, exec (.evtGetWrite p v) s = .next t ∧ (n ≤ g → t = u) ∧ (g < n → t = passed.flushHeld ∧ t.host.evtGet = g ∧
       (s.host.held = [] → t = passed) ∧ (t.host.held = [] ∨ t.evtRoom = false) ∧
       (∀ r rs, s.host.held = r :: rs → passed.evtRoom = true → s.host.lostBefore = false →
         t = State.flushHeld (State.writeEvent { passed with host := { passed.host with held := rs } } r) ∧
         (rs = [] → t.host.evtPut = (s.host.evtPut + 1) % n ∧
           (rangeAll ringWrites (s.evtSlot s.host.evtPut) 64 = true → Memory.wf s.mem = true →
             t.readB (s.evtSlot s.host.evtPut) 64 = r.bytes)))))) ∧
  (∀ (p : Path) (v : Word) (s : State), s.pathOpen p = true → s.host.owner = pathOwner p →
    let u := (s.written p 0x08 v).2
    let n := (s.written p 0x08 v).1.toNat % 65536
    exec (.cmdPutWrite p v) s = .next (
      if n < s.cmdEntries then State.serveAll { u with host := { u.host with cmdPut := n } } else u))

/-- A register write by the owner (REGISTER_WRITE, registerWrite): IRQ_ENABLE, SLEEP_CTL, SNAP_TICK, SPARE_B and
REGION_CTL.AUTO take the value; CMD_BASE_LO and CMD_BASE_HI take it only while CMD_SIZE is 0, EVT_BASE_LO and
EVT_BASE_HI only while EVT_SIZE is 0, and an address whose low 12 bits are not 0 is ignored (log 150, the model's
choice); MBOX_ADDR takes OFFSET, a multiple of 4, SPACE and AUTOINC; the read-only registers ignore it (12 R327 to
R333). A word of an MSI-X entry takes the value through PCIe whoever owns the device, and a message that waits for its
vector leaves when it is unmasked (12 R320; log 127, the model's own reading of PCI Express). PERF_REQ (PERF_REQ_WRITE,
perfReqWrite) takes LEVEL and AUTO, a LEVEL that is refused too (log 132, the model's choice), and retargets the level
(12 R331; 15 R427); the write to SPARE_A (FIRMWARE_PUSH, firmwarePush) that ends a push starts the checks while the
device waits for one (14 R399), and any other value is only kept. IRQ_STATUS (IRQ_STATUS_WRITE, irqStatusWrite) clears
the bits written 1, IRQ_FORCE (IRQ_FORCE_WRITE, irqForceWrite) sets them, ERR_SUMMARY.POP (ERR_SUMMARY_POP,
errSummaryPop) removes the oldest pending record (12 R330; 16 R451). TICK_CTL (TICK_CTL_WRITE, tickCtlWrite; 12 R332; 02
R34): a rate from 1 to 10,000 becomes pending while no schedule runs or is starting, and nothing else changes; another
value is ignored. SNAP_CTL (SNAP_CTL_ARM, snapCtlArm; SNAP_CTL_DISARM, snapCtlDisarm; 12 R332): writing 1 arms a
snapshot at the least tick at least two ahead whose low half is SNAP_TICK, or sets LATE while another snapshot is
pending; writing 0 disarms. -/
def Obligations.RegistersWritten : Prop :=
  (∀ (p : Path) (v : Word) (s : State), s.pathOpen p = true → s.host.owner = pathOwner p →
    let w (i : Nat) := s.written p i v
    exec (.registerWrite p 0x12 15 v) s = .next { (w 0x12).2 with host := { (w 0x12).2.host with
      irqEnable := (w 0x12).1.setWidth 10 } } ∧
    exec (.registerWrite p 0x1A 15 v) s = .next { (w 0x1A).2 with host := { (w 0x1A).2.host with
      sleepCtl := (w 0x1A).1 &&& 0xFFFFFF#32 } } ∧
    exec (.registerWrite p 0x26 15 v) s = .next { (w 0x26).2 with host := { (w 0x26).2.host with
      snapTick := (w 0x26).1 } } ∧
    exec (.registerWrite p 0x2F 15 v) s = .next { (w 0x2F).2 with host := { (w 0x2F).2.host with
      spareB := (w 0x2F).1 } } ∧
    exec (.registerWrite p 0x2D 15 v) s = .next { (w 0x2D).2 with host := { (w 0x2D).2.host with
      regionAuto := (w 0x2D).1.extractLsb' 8 7 } } ∧
    exec (.registerWrite p 0x05 15 v) s = .next (if s.host.cmdSize = 0 ∧ (w 0x05).1.toNat % 4096 = 0 then
      { (w 0x05).2 with host := { (w 0x05).2.host with cmdBaseLo := (w 0x05).1 } } else (w 0x05).2) ∧
    exec (.registerWrite p 0x06 15 v) s = .next (if s.host.cmdSize = 0 then
      { (w 0x06).2 with host := { (w 0x06).2.host with cmdBaseHi := (w 0x06).1.setWidth 16 } } else (w 0x06).2) ∧
    exec (.registerWrite p 0x0A 15 v) s = .next (if s.host.evtSize = 0 ∧ (w 0x0A).1.toNat % 4096 = 0 then
      { (w 0x0A).2 with host := { (w 0x0A).2.host with evtBaseLo := (w 0x0A).1 } } else (w 0x0A).2) ∧
    exec (.registerWrite p 0x0B 15 v) s = .next (if s.host.evtSize = 0 then
      { (w 0x0B).2 with host := { (w 0x0B).2.host with evtBaseHi := (w 0x0B).1.setWidth 16 } } else (w 0x0B).2) ∧
    exec (.registerWrite p 0x0F 15 v) s = .next { (w 0x0F).2 with host := { (w 0x0F).2.host with
      mboxOff := (w 0x0F).1.toNat % 16384 / 4 * 4, mboxSpace := (w 0x0F).1.getLsbD 14
      mboxInc := (w 0x0F).1.getLsbD 15 } } ∧
    (∀ r : Fin 1024, r.val ∈ [0x00, 0x01, 0x02, 0x03, 0x09, 0x0D, 0x15, 0x16, 0x17, 0x19, 0x1B, 0x1C, 0x1D, 0x1E,
      0x1F, 0x21, 0x22, 0x23, 0x24, 0x27, 0x28, 0x29, 0x2A] →
      exec (.registerWrite p r 15 v) s = .next (w r.val).2)) ∧
  (∀ (k : Fin 16) (j : Fin 4) (r : Fin 1024) (v : Word) (s : State), s.pathOpen .pcie = true →
    r.val = 0x200 + 4 * k.val + j.val →
    let e := s.host.msix[k]
    let x : MsixEntry := match j.val with
      | 0 => { e with addr := BitVec.ofNat 64 (e.addr.toNat / 2 ^ 32 * 2 ^ 32 + v.toNat / 4 * 4) }
      | 1 => { e with addr := BitVec.ofNat 64 (v.toNat * 2 ^ 32 + e.addr.toNat % 2 ^ 32) }
      | 2 => { e with data := v }
      | _ => { e with ctl := v &&& 1#32 }
    let leaves := s.host.msixPending.getLsbD k.val && !x.ctl.getLsbD 0
    exec (.registerWrite .pcie r 15 v) s = .next { s with
      out := if leaves then .msix k.val x.addr x.data :: s.out else s.out
      host := { s.host with
        msix := s.host.msix.set k x
        msixPending := if leaves then s.host.msixPending &&& ~~~ (BitVec.ofNat 16 (2 ^ k.val))
          else s.host.msixPending } }) ∧
  (∀ (p : Path) (v : Word) (s : State), s.pathOpen p = true → s.host.owner = pathOwner p →
    (let w := s.written p 0x18 v
     exec (.perfReqWrite p v) s = .next (State.retarget { w.2 with host := { w.2.host with
       perfLevel := w.1.toNat % 4, perfAuto := w.1.getLsbD 8 } })) ∧
    (let w := s.written p 0x2E v
     exec (.firmwarePush p v) s = .next (if w.1 = 0x50555348#32 then
         (State.bootPush { w.2 with host := { w.2.host with spareA := w.1 } }).serveAll
       else { w.2 with host := { w.2.host with spareA := w.1 } }))) ∧
  (∀ (p : Path) (v : Word) (s : State), s.pathOpen p = true → s.host.owner = pathOwner p →
    (let u := (s.written p 0x11 v).2
     exec (.irqStatusWrite p v) s = .next { u with host := { u.host with
       irqStatus := s.host.irqStatus &&& ~~~((s.written p 0x11 v).1.setWidth 10) } }) ∧
    (let w := s.written p 0x13 v
     ∃ t, exec (.irqForceWrite p v) s = .next t ∧ t.host = { w.2.host with
       irqStatus := s.host.irqStatus ||| w.1.setWidth 10, msixPending := t.host.msixPending } ∧
       (p = .localbus → t.out = s.out) ∧ State.Only [.out, .host] s t) ∧
    (let w := s.written p 0x14 v
     exec (.errSummaryPop p v) s = .next (if w.1.getLsbD 31 then
       { w.2 with err := { w.2.err with queue := s.err.queue.drop 1 } } else w.2))) ∧
  (∀ (p : Path) (v : Word) (s : State), s.pathOpen p = true → s.host.owner = pathOwner p →
    let u := (s.written p 0x20 v).2
    let n := (s.written p 0x20 v).1.toNat % 16384
    (1 ≤ n → n ≤ 10000 → s.sched.running = false → s.sched.start = none →
      exec (.tickCtlWrite p v) s = .next { u with tk := { u.tk with
        pendingRate := if n = s.tk.rate then none else some n } }) ∧
    ((n = 0 ∨ 10000 < n) → exec (.tickCtlWrite p v) s = .next u)) ∧
  (∀ (p : Path) (v : Word) (s : State), s.pathOpen p = true → s.host.owner = pathOwner p →
    let w := s.written p 0x25 v
    (w.1.getLsbD 0 = true → s.snapPending = false →
      ∃ t n, exec (.snapCtlArm p v) s = .next t ∧ t.err = { s.err with snap := some (n, 0) } ∧ s.tk.tick + 2 ≤ n ∧
        n % 2 ^ 32 = s.host.snapTick.toNat ∧ n < s.tk.tick + 2 + 2 ^ 32 ∧ t.idleNs = 0 ∧
        t.host = { w.2.host with snapLate := false, snapDone := false } ∧ State.Only [.host, .err, .idle] s t) ∧
    (w.1.getLsbD 0 = true → s.snapPending = true →
      exec (.snapCtlArm p v) s =
        .next (State.noteIdle { w.2 with host := { w.2.host with snapLate := true } })) ∧
    (w.1.getLsbD 0 = false → ∀ n, s.err.snap = some (n, 0) →
      exec (.snapCtlDisarm p v) s = .next { w.2 with err := { w.2.err with snap := none } }))

/-- The host watchdog (12 R351, R352): a write of PERIOD (WDOG_CTL_WRITE, wdogCtlWrite) restarts the period; a kick
(WDOG_KICK, wdogKick) restarts it and clears HOST_LOST, and where HOST_LOST was 1 a FAULT record with status
HOST_RETURNED is placed; when the period expires (HOST_LOST, hostLost), HOST_LOST and the interrupt status bit are set,
the journal grows by a HOST_LOST entry, a FAULT record with status HOST_LOST is placed, and TIME stands at the end of
the period at least. FUNCTION_LEVEL_RESET (functionLevelReset; 12 R321): every begun descriptor of the Edge engine that
touches host memory is aborted: one that waits in host memory has completed with ABORTED, a running one is left to
DESCRIPTOR_ABORT, and no other channel changes; then a device that PCIe owns is without an owner, its rings are off, and
an OWNER_CHANGED entry from PCIE to NONE stands in the journal (12 R326); the MSI-X table is reset (log 127, the model's
own reading of PCI Express); PERST# also takes the PCIe path down. PCIE_LINK_TRAINED (pcieLinkTrained) brings the path
up, and descriptors that wait are served (15 R447). The last three complete in every state. -/
def Obligations.HostPathKept : Prop :=
  (∀ (p : Path) (v : Word) (s : State),
    (s.pathOpen p = true → s.host.owner = pathOwner p →
      (let w := s.written p 0x2B v
       exec (.wdogCtlWrite p v) s = .next { w.2 with host := { w.2.host with
         wdogPeriod := w.1.setWidth 16, wdogStart := s.tk.now, wdogRuns := true } }) ∧
      (let u := (s.written p 0x2C v).2
       let k : State := { u with host := { u.host with wdogStart := s.tk.now, wdogRuns := true, hostLost := false } }
       exec (.wdogKick p v) s = .next (if s.host.hostLost then k.fault 0x0021 srcHost 0xFF 0 0 [] else k))) ∧
    (s.host.wdogPeriod ≠ 0 → s.host.wdogRuns = true → s.isReady 17 = true →
      ∃ t, exec .hostLost s = .next (t.fault 0x0020 srcHost 0xFF 0 0 []) ∧ t.host.hostLost = true ∧
        t.host.wdogRuns = false ∧ t.host.irqStatus.getLsbD 8 = true ∧ t.jnl.head = s.jnl.head + 1 ∧
        (Memory.wf s.mem = true → t.journalled s.jnl.head 0xFF05 0x0020 (leBytes 4 s.host.wdogPeriod.toNat)) ∧
        t.tk.now = max s.tk.now (s.host.wdogStart + s.host.wdogPeriod.toNat * 1000000) % 2 ^ 64 ∧
        State.Only [.out, .mem, .cnt, .tk, .hbm, .host, .jnl, .idle] s t) ∧
    (s.host.wdogPeriod = 0 ∨ s.host.wdogRuns = false → exec .hostLost s = .next s)) ∧
  ((∀ (perst : Bool) (s : State),
    ∃ t, exec (.functionLevelReset perst) s = .next t ∧
      t.host.msix = Vector.replicate 16 MsixEntry.reset ∧ t.host.msixPending = 0 ∧
      (perst = true → t.host.pcieUp = false ∧ t.host.perst = true ∧ t.isReady 15 = false) ∧
      (s.host.owner ≠ .pcie → t.host.owner = s.host.owner ∧ t.jnl = s.jnl) ∧
      (∀ c : Fin 8,
        let x := s.chan 4 c
        (x.desc.touchesHost = false → t.chan 4 c = x) ∧
        (x.desc.touchesHost = true → x.phase = .running → (t.chan 4 c).phase = .aborting false true) ∧
        (∀ a, x.desc.touchesHost = true → x.phase = .waiting → x.at_ = .mem a → placeOf a = .host →
          s.beamOpen (chanNo 4 c) = false →
          (t.chan 4 c).phase = (if x.nextAt.isSome then .fetching else .idle) ∧
          (t.chan 4 c).seq = (x.seq + 1) % 2 ^ 32 ∧ (t.chan 4 c).latch = true)) ∧
      (s.host.owner = .pcie → s.isReady 17 = true → t.host.owner = .none ∧ t.host.cmdSize = 0 ∧ t.host.evtSize = 0 ∧
        t.host.irqStatus.getLsbD 9 = true ∧ t.jnl.head = s.jnl.head + 1 ∧
        (Memory.wf s.mem = true → t.journalled s.jnl.head 0xFF06 0 [1, 0])) ∧
      State.Only [.freeCtr, .out, .upsets, .mem, .poison, .wbQueue, .cnt, .facets, .sched, .hbm, .dma, .tmplStatus,
        .exp, .cnd, .host, .jnl, .ready] s t) ∧
  (∀ s : State, s.isReady 3 = true → s.pllOf dPcie = .good → s.err.isolated.getLsbD 6 = false →
    s.pwr.sleep ≤ 1 →
    exec .pcieLinkTrained s = .next (State.serveAll { s with
      host := { s.host with pcieUp := true, perst := false }
      ready := s.ready ||| BitVec.ofNat 19 (2 ^ 15) }))) ∧
  (∀ s : State,
    (∃ t, exec .hostLost s = .next t ∧
      State.Only [.out, .mem, .cnt, .tk, .hbm, .host, .jnl, .idle, .ready] s t) ∧
    (∃ t, exec .pcieLinkTrained s = .next t ∧
      State.Only [.freeCtr, .out, .upsets, .mem, .poison, .wbQueue, .cnt, .facets, .sched, .ap, .hbm, .dma,
        .tmplStatus, .exp, .cnd, .img, .wav, .net, .beam, .host, .jnl, .err, .pwr, .fuse, .trust, .idle, .ready] s t))

/-- OWNER is NONE after device reset. OWNER_WRITE (ownerWrite): A path's claim is granted when there is no owner, or the
other path owns the device and HOST_LOST is 1 or, for a claim by the local bus, the PCIe link is down or PERST# is
asserted; the owner's write of NONE releases the device; any other claim, a write of the other path's value and a write
of 3 are refused. A refused claim sets CLAIM_REFUSED and changes nothing else; a granted write clears it (12 R325). A
change of owner also disables both rings and stops the watchdog, sets IRQ_STATUS.OWNER and writes an OWNER_CHANGED entry
with the old and the new owner; the expected sequence number stays (12 R326). Before READY.JOURNAL is set the journal is
restored first (log 50, the model's own reading). A write that leaves OWNER as it is changes nothing else (log 41, the
model's choice). -/
def Obligations.OwnershipClaims : Prop :=
  State.reset.host.owner = .none ∧
  ∀ (p : Path) (v : Word) (s : State), s.pathOpen p = true →
    let w := s.written p 0x04 v
    let n := w.1.toNat % 4
    let own : Prop := n = ownerCode (pathOwner p)
    let other : Prop := s.host.owner ≠ .none ∧ s.host.owner ≠ pathOwner p
    let free : Prop := s.host.hostLost = true ∨ p = .localbus ∧ (s.host.pcieUp = false ∨ s.host.perst = true)
    ((own ∧ s.host.owner = .none ∨ n = 0 ∧ s.host.owner = pathOwner p ∨ own ∧ other ∧ free) →
      let new : Owner := if n = 0 then .none else pathOwner p
      ∃ t, exec (.ownerWrite p v) s = .next t ∧
        t.host.owner = new ∧ t.host.claimRefused = false ∧
        t.host.cmdSize = 0 ∧ t.host.cmdPut = 0 ∧ t.host.cmdGet = 0 ∧ t.host.evtSize = 0 ∧ t.host.evtGet = 0 ∧
        (s.host.held = [] ∨ n = 0 ∨ p = .pcie → t.host.evtPut = 0) ∧
        t.host.wdogPeriod = 0 ∧ t.host.hostLost = false ∧ t.host.irqStatus.getLsbD 9 = true ∧
        t.jnl.head = s.jnl.head + (if s.isReady 17 then 1 else 2) ∧ t.isReady 17 = true ∧
        (Memory.wf s.mem = true → t.journalled (t.jnl.head - 1) 0xFF06 0
          [BitVec.ofNat 8 (ownerCode s.host.owner), BitVec.ofNat 8 (ownerCode new)]) ∧
        t.host.expSeq = s.host.expSeq ∧
        State.Only [.out, .mem, .cnt, .host, .jnl, .ready] s t) ∧
    ((n = 0 ∧ s.host.owner = .none ∨ own ∧ s.host.owner = pathOwner p) →
      exec (.ownerWrite p v) s = .next { w.2 with host := { w.2.host with claimRefused := false } }) ∧
    ((own ∧ other ∧ ¬ free ∨ n = 0 ∧ other ∨ n ≠ 0 ∧ ¬ own) →
      exec (.ownerWrite p v) s = .next { w.2 with host := { w.2.host with claimRefused := true } })

/-- MBOX_DATA (MBOX_DATA_ACCESS, mboxDataAccess; 12 R329): a word written at MBOX_ADDR reads back there while SPACE is
0, and is ignored while SPACE is 1; a read answers the word at MBOX_ADDR; each access advances OFFSET by 4 when AUTOINC
is 1. BAR2 (BAR2_ACCESS, bar2Access; 12 R320; 01 R19, R20): a PCIe owner's write within the range named other is stored
where it stands clear of the read-only areas there, and is ignored else; a write of a path that does not own the device
is counted (log 128, the model's choice); a read answers bytes and changes no memory: none where the window is not
mapped, the bytes of the journal as they stand, zeros where the Aperture blocks (01 R29). Both complete in every state.
-/
def Obligations.MailboxAndBar2 : Prop :=
  (∀ (p : Path) (v : Word) (s : State), s.pathOpen p = true →
    (s.host.owner = pathOwner p → SMap.wf 0 s.host.mailbox = true →
      ∃ t, exec (.mboxDataAccess p (some v)) s = .next t ∧
        (s.host.mboxSpace = false → leNat (SMap.getRange 0 t.host.mailbox (s.host.mboxOff % 4096 / 4 * 4) 4) =
          (s.written p 0x10 v).1.toNat) ∧
        (s.host.mboxSpace = true → t.host.mailbox = s.host.mailbox) ∧
        t.host.mboxOff = (if s.host.mboxInc then
          (s.host.mboxOff + 4) % (if s.host.mboxSpace then 16384 else 4096) else s.host.mboxOff) ∧
        State.Only [.host] s t) ∧
    (∃ t, exec (.mboxDataAccess p none) s = .next t ∧ t.out = .readData s.mboxWord :: s.out ∧
      t.host = { s.host with mboxOff := if s.host.mboxInc then
          (s.host.mboxOff + 4) % (if s.host.mboxSpace then 16384 else 4096) else s.host.mboxOff } ∧
      State.Only [.out, .cnt, .host] s t)) ∧
  (∀ (off : Word) (len : Nat) (bs : List Byte) (s : State), s.pathOpen .pcie = true →
    let a := ctlBase + off.toNat
    (s.host.owner = .pcie → bs ≠ [] → otherBase ≤ a → a + bs.length ≤ otherBase + 0x100000 →
      ((∀ k, k < bs.length → readOnlyOther (a + k) = false) → Memory.wf s.mem = true →
        ∃ t, exec (.bar2Access off len (some bs)) s = .next t ∧ t.readB a bs.length = bs ∧
          (∀ b, b < a ∨ a + bs.length ≤ b → SMap.get 0 t.mem b = SMap.get 0 s.mem b) ∧
          State.Only [.upsets, .mem] s t) ∧
      (∀ k, k < bs.length → readOnlyOther (a + k) = true →
        exec (.bar2Access off len (some bs)) s = .next s)) ∧
    (s.host.owner ≠ .pcie → s.awaitsPush = false →
      exec (.bar2Access off len (some bs)) s = .next (s.count srcHost 0 1)) ∧
    (rangeAll bar2Reads a len = false ∨ len = 0 →
      exec (.bar2Access off len none) s = .next (s.emit (.readBytes []))) ∧
    (journalBase ≤ a → a + len ≤ outageBase → len ≠ 0 → s.clean → s.ap.sealed = false →
      exec (.bar2Access off len none) s = .next ((s.judged .bar true).emit (.readBytes (s.readB a len)))) ∧
    (rangeAll bar2Reads a len = true → len ≠ 0 → s.classPasses (s.dataClass a len) len = false →
      exec (.bar2Access off len none) s = .next ((s.judged .bar false).emit (.readBytes (zeroBytes len)))) ∧
    (∃ t bs', exec (.bar2Access off len none) s = .next t ∧ t.out = .readBytes bs' :: s.out ∧ t.mem = s.mem ∧
      State.Only [.freeCtr, .out, .cnt, .host, .err] s t)) ∧
  (∀ (p : Path) (data : Option Word) (off : Word) (len : Nat) (bs : Option (List Byte)) (c : Instr) (s : State),
    c ∈ [Instr.mboxDataAccess p data, .bar2Access off len bs] → ∃ t, exec c s = .next t ∧ t.pending = s.pending)

/-- Reads of TICK and TIME (TICK_LO_READ, tickLoRead; TIME_LO_READ, timeLoRead; 12 R322, R323): the low register answers
the low half of the count and takes a snapshot of the high half; the next read of the high register answers that
snapshot, and the one after it the count again; one 64-bit read does both. Half accesses of the local bus
(LOW_HALF_WRITE, lowHalfWrite; LOW_HALF_READ, lowHalfRead; 12 R323): the owner's low half is latched, another path's is
counted in NONOWNER_WRITES; a read of the low half of any register answers it and takes a snapshot of the high half,
which the read of the high half answers. The four complete in every state. -/
def Obligations.HalvesReadWhole : Prop :=
  (∀ s : State, s.pathOpen .pcie = true →
    (∃ t u, exec (.tickLoRead .pcie .low) s = .next t ∧ exec (.tickLoRead .pcie .high) t = .next u ∧
      exec (.tickLoRead .pcie .wide) s = .next u ∧
      u.out = .readData (s.tk.tick / 2 ^ 32 % 2 ^ 32) :: .readData (s.tk.tick % 2 ^ 32) :: s.out ∧
      u.tk.tickLatch = none ∧ State.Only [.out, .cnt, .tk] s u) ∧
    (∃ t u, exec (.timeLoRead .pcie .low) s = .next t ∧ exec (.timeLoRead .pcie .high) t = .next u ∧
      exec (.timeLoRead .pcie .wide) s = .next u ∧
      u.out = .readData (s.tk.now / 2 ^ 32 % 2 ^ 32) :: .readData (s.tk.now % 2 ^ 32) :: s.out ∧
      u.tk.timeLatch = none ∧ State.Only [.out, .cnt, .tk] s u)) ∧
  (∀ (r : Fin 64) (v : Half) (s : State), s.pathOpen .localbus = true →
    (s.host.owner = .localbus ∨ r.val = 4 → exec (.lowHalfWrite r v) s = .next { s with host := { s.host with
      lowLatch := some (r.val, v) } }) ∧
    (s.host.owner ≠ .localbus → r.val ≠ 4 → exec (.lowHalfWrite r v) s = .next (s.count srcHost 0 1)) ∧
    (r.val ≠ 0x22 → r.val ≠ 0x24 → s.highValue r.val = s.regValue r.val) ∧
    (∃ t u, exec (.lowHalfRead r false) s = .next t ∧ exec (.lowHalfRead r true) t = .next u ∧
      u.out = .readData (s.highValue r.val / 65536 % 65536) :: .readData (s.highValue r.val % 65536) :: s.out ∧
      State.Only [.out, .cnt, .tk, .host] s u)) ∧
  (∀ (p : Path) (w : PairRead) (r : Fin 64) (v : Half) (high : Bool) (c : Instr) (s : State),
    c ∈ [Instr.tickLoRead p w, .timeLoRead p w, .lowHalfWrite r v, .lowHalfRead r high] →
    ∃ t, exec c s = .next t ∧ State.Only [.out, .cnt, .tk, .host] s t)

/-! ### Macro-ops (03 R77 to R98) -/

/-- A Facet at a record of the row's opcode executes it: its program goes on to the next record with the record's cycles
passed and SETF's flag set, no other Facet's program moves, and no other field of the state than these changes. A Facet
that is not at such a record does nothing (03 R77, R79). So each of these 22 rows completes in every state: MM (mm), MMT
(mmt), CONV (conv), DWCONV (dwconv), VEC_EW (vecEw), VEC_RED (vecRed), SOFTMAX (softmax), NORM (norm), ACT (act), GATHER
(gather), SCATTER (scatter), DECIDE (decide), TOPK (topk), NMS (nms), CROP (crop), RESAMPLE (resample), COPY_2D
(copy2d), ACC_WRITE (accWrite), PUSH (push), POP (pop), EMIT (emit) and CHECK_FLAG (checkFlag), the cases of `recordOf`.
-/
def Obligations.RecordsPass : Prop :=
  ∀ (c : Instr) (f : Fin 16) (op : Nat) (ms : List Meet) (s : State), recordOf c = some (f, op, ms) →
    (∀ r, s.headRec f op = some r → ∃ t, exec c s = .next t ∧
      t.facets[f].place = s.facets[f].passed r (recCycles r s.facets[f].prevArray) (isArrayOp op) ∧
      (∀ g : Fin 16, g ≠ f → t.facets[g].place = s.facets[g].place) ∧
      State.Only [.freeCtr, .out, .upsets, .mem, .poison, .wbQueue, .cnt, .facets, .net, .beam, .host, .err] s t) ∧
    (s.headRec f op = none → exec c s = .next s)

/-- A record stores at the units of its destinations alone: every other byte of memory reads as before, but for the
event ring and the journal, and host control changes by event records alone (03 R82, R83, R89 to R95, R494). -/
def Obligations.RecordsStoreAtDestinations : Prop :=
  ∀ (c : Instr) (f : Fin 16) (op : Nat) (ms : List Meet) (s : State) (r : Rec), recordOf c = some (f, op, ms) →
    s.headRec f op = some r → ∃ t, exec c s = .next t ∧ State.Told (s.storedBy f r) s t

/-- COPY_2D without TRANSPOSE between plain references, with no poison and no stored error: row i of the destination
holds row i of the source (03 R94, R95). Where the two overlap, that every read comes before the writes is the model's
choice (log 10). -/
def Obligations.CopyMovesRows : Prop :=
  ∀ (f : Fin 16) (s : State) (r : Rec), s.headRec f opCopy2d = some r → s.clean → Memory.wf s.mem = true →
    (Ref.ofWord r.op0).plain → (Ref.ofWord r.op2).plain → r.flagBit 4 = false →
    (r.p 0x1A 2 = 0 ∨ r.p 0x16 2 ≤ r.p 0x1A 2) →
    ∃ t, exec (.copy2d f []) s = .next t ∧ ∀ i, i < r.p 0x14 2 →
      t.readB (s.destAddr f (Ref.ofWord r.op2) (i * (if r.p 0x1A 2 = 0 then r.p 0x16 2 else r.p 0x1A 2)))
        (32 * r.p 0x16 2) =
      s.readB (s.destAddr f (Ref.ofWord r.op0) (i * (if r.p 0x18 2 = 0 then r.p 0x16 2 else r.p 0x18 2)))
        (32 * r.p 0x16 2)

/-- VEC_EW on two plain sources with no poison and no stored error: element by element the exact result of the function,
in the destination's type, in whole units (03 R89, R90). Where a source and the destination overlap, that every read
comes before the writes is the model's choice (log 10). -/
def Obligations.VectorElementWise : Prop :=
  ∀ (f : Fin 16) (s : State) (r : Rec), s.headRec f opVecEw = some r → s.clean → Memory.wf s.mem = true →
    (Ref.ofWord r.op0).plain → (Ref.ofWord r.op1).plain → (Ref.ofWord r.op2).plain → r.hasSrc2 = true →
    (r.vstride = 0 ∨ eltUnits r.cols r.ty1 ≤ r.vstride) →
    ∃ t, exec (.vecEw f []) s = .next t ∧ ∀ i, i < r.rows →
      let src (op : Nat) : List FVal :=
        (unpackElts (elt r.ty0) r.cols (s.readB (s.destAddr f (Ref.ofWord op)
          (i * (if r.vstride = 0 then eltUnits r.cols r.ty0 else r.vstride)))
          (32 * eltUnits r.cols r.ty0))).map (elt r.ty0).decode
      t.readB (s.destAddr f (Ref.ofWord r.op2)
          (i * (if r.vstride = 0 then eltUnits r.cols r.ty1 else r.vstride))) (32 * eltUnits r.cols r.ty1) =
        padUnits (packElts (elt r.ty1)
          ((List.zipWith (ewExact r.func (fp32 r.scalar)) (src r.op0) (src r.op1)).map (elt r.ty1).encode))

/-- MM without FOCUS, ACC_IN, ACC_KEEP and activation scales, on plain operands with no poison and no stored error: the
destination holds the output elements of the totals, row by row (03 R81 to R83; 04 R105 to R109). Where an operand and
the destination overlap, that every read comes before the writes is the model's choice (log 10). -/
def Obligations.MatrixProduct : Prop :=
  ∀ (f : Fin 16) (s : State) (r : Rec), s.headRec f opMM = some r → s.clean → Memory.wf s.mem = true →
    (Ref.ofWord r.op0).plain → (Ref.ofWord r.op1).plain → (Ref.ofWord r.op2).plain →
    r.focus = false → r.accIn = false → r.accKeep = false → r.op3 = 0 →
    ∃ t, exec (.mm f []) s = .next t ∧
      let n := r.kt * tileUnits (elt r.ty0)
      let tiles := r.kt * tileBytes (elt r.ty1) / 32
      let w (off k : Nat) : List Byte := s.readB (s.destAddr f (Ref.ofWord r.op1) off) (32 * k)
      let i : ArrayIn :=
        ⟨(List.range r.m).map (fun m => unpackElts (elt r.ty0) (64 * r.kt)
            (s.readB (s.destAddr f (Ref.ofWord r.op0) (m * (if r.aStride = 0 then n else r.aStride))) (32 * n))),
          weightCols r (w 0 tiles), #[], bf16Array (r.groups * r.ncols)
            (w tiles (if elt r.ty0 != .bf16 then unitsOf (r.groups * r.ncols * 2) else 0)),
          r.groups, r.ncols,
          (unpackElts .u16 (r.groups * r.ncols) []).toArray⟩
      t.readB (s.destAddr f (Ref.ofWord r.op2) 0) (r.m * r.yRow) =
        (totals s.facets[f] r i).flatMap (fun row => outRow r (row.map (outElt r)))

/-- PUSH advances LOCAL_HEAD of its region, or marks an OVERRUN and makes the tick invalid; EMIT holds one more record;
CHECK_FLAG of a flag that is not visible makes the tick invalid, and of a visible one leaves it as it is (03 R96 to R98;
05 R146). Of CHECK_FLAG's two cycles the flag is sampled in the first (log 136, the model's choice). -/
def Obligations.ControlRecords : Prop :=
  ∀ (f : Fin 16) (s : State) (r : Rec),
    (s.headRec f opPush = some r →
      let g := if bitOf (r.p 0x15 1) 7 then fin16 (f.val / 4 * 4 + r.p 0x15 1 % 4) else f
      let k := fin16 (r.p 0x14 1)
      let y := s.facets[g].regions[k]
      ∃ t, exec (.push f []) s = .next t ∧
        (y.level + y.localPush + r.p 0x18 4 ≤ y.size →
          t.facets[g].regions[k] = { y with localPush := y.localPush + r.p 0x18 4 } ∧
          t.facets[f].invalid = s.facets[f].invalid) ∧
        (y.size < y.level + y.localPush + r.p 0x18 4 →
          t.facets[g].regions[k] = { y with overran := true } ∧ t.facets[f].invalid = true)) ∧
    (s.headRec f opEmit = some r → ∃ t e, exec (.emit f []) s = .next t ∧
      t.facets[f].emits = s.facets[f].emits ++ [e] ∧ e.type = r.p 0x14 2 ∧ e.route = r.p 0x16 1 ∧
      e.target = r.p 0x17 1 ∧ e.tick = s.tk.tick ∧ e.time = s.tk.edge ∧
      (r.op1 = 0 → e.bufLen = 0) ∧ e.bufLen ≤ r.p 0x18 4) ∧
    (s.headRec f opCheckFlag = some r → ∃ t, exec (.checkFlag f []) s = .next t ∧
      t.facets[f].invalid = (s.facets[f].invalid ||
        !(s.facets[fin16 (f.val / 4 * 4 + r.p 0x14 1 % 4)].flags.any (fun p =>
          p.1 == r.p 0x15 1 && p.2 + 14 ≤ s.facets[f].cycle))))

/-- A POP of U units greater than LEVEL is an UNDERRUN, counted once for the record: TAIL moves to HEAD, LEVEL becomes
0, U - LEVEL is added to DEBT and the Facet's tick is invalid. A POP of U up to LEVEL advances TAIL by U, around the
region, lowers LEVEL by U, counts nothing and leaves the tick's validity as it is (05 R144). -/
def Obligations.PopUnderruns : Prop :=
  ∀ (f : Fin 16) (s : State) (r : Rec), SMap.wf 0 s.cnt = true → s.headRec f opPop = some r →
    let k := fin16 (r.p 0x14 1)
    let u := r.p 0x18 4
    let y := s.facets[f].regions[k]
    ∃ t, exec (.pop f []) s = .next t ∧
      (y.level < u →
        t.facets[f].regions[k] = { y with tail := y.head, level := 0, debt := y.debt + (u - y.level), spans := [] } ∧
        t.facets[f].invalid = true ∧
        t.ctr (srcFacet f) (cUnder k.val) = s.ctr (srcFacet f) (cUnder k.val) + 1) ∧
      (u ≤ y.level →
        t.facets[f].regions[k] = { y with
          tail := (y.tail + u) % y.size, level := y.level - u
          spans := (y.spans.filter (fun p => u < p.2)).map (fun p => (p.1 - u, p.2 - u)) } ∧
        t.facets[f].invalid = s.facets[f].invalid ∧
        t.ctr (srcFacet f) (cUnder k.val) = s.ctr (srcFacet f) (cUnder k.val)) ∧
      (∀ j : Fin 16, j ≠ k → t.facets[f].regions[j] = s.facets[f].regions[j]) ∧
      (∀ g : Fin 16, g ≠ f → t.facets[g] = s.facets[g]) ∧ t.mem = s.mem

/-- WAIT_TICK (waitTick) makes its Facet wait; WAIT_TICK_EXPIRY (waitTickExpiry): the wait ends at the later of its
start + 1 and TARGET; END (endProg; 03 R96) publishes what its Facet has pushed into each region, with the validity of
its tick: HEAD and LEVEL advance by the units pushed, but a region that a push overran takes none (02 R40; 05 R145,
R146). Then it releases the records held by EMIT in their order, and the program has ended (02 R41): one of an invalid
tick goes to the host's ring alone, with INVALID; a record without a buffer stands with its source's next number; a
buffer that cannot be delivered, or that the Aperture blocks, leaves its record with BUFFER_LOST and is not written (12
R346; 01 R27); one that passes stands in the data ring as its units stand then, and its record carries BUFFER.
WAIT_TICK, WAIT_TICK_EXPIRY and END complete in every state, and change these fields at most. -/
def Obligations.WaitAndEnd : Prop :=
  (∀ (f : Fin 16) (s : State) (r : Rec),
    (s.headRec f opWaitTick = some r → exec (.waitTick f) s = .next
      (s.updFacet f (fun x => { x with phase := .waiting, waitTarget := r.p 0x18 4 }))) ∧
    (s.facets[f].phase = .waiting → s.facets[f].prog.head? = some r →
      ∃ t, exec (.waitTickExpiry f) s = .next t ∧
        t.facets[f] = { s.facets[f] with
          phase := .running, prog := s.facets[f].prog.tail, recIdx := s.facets[f].recIdx + 1
          cycle := s.facets[f].cycle + (max (s.facets[f].cycle + 1) s.facets[f].waitTarget - s.facets[f].cycle)
          prevArray := false
          flags := if r.flagBit 3 then
              (r.flag % 16, max (s.facets[f].cycle + 1) s.facets[f].waitTarget - 1) :: s.facets[f].flags
            else s.facets[f].flags } ∧
        State.Only [.facets] s t) ∧
    (s.headRec f opEnd = some r → ∃ t v, exec (.endProg f) s = .next t ∧
      t = State.updFacet (s.facets[f].emits.foldl (fun w e => w.releaseEmit f s.facets[f].invalid e) v) f
        (fun x => { x with phase := .ended }) ∧
      State.Only [.cnt, .facets] s v ∧ t.facets[f].phase = .ended ∧
      t.facets[f].emits = [] ∧ t.facets[f].prog = s.facets[f].prog.tail ∧
      t.facets[f].cycle = s.facets[f].cycle + 1 ∧
      (∀ i k : Fin 16,
        let x := s.facets[i].regions[k]
        let mine : Prop := i.val / 4 = f.val / 4 ∧ x.declared = true ∧ x.producer = 0 ∧ x.pindex = f.val
        t.facets[i].regions[k] = v.facets[i].regions[k] ∧
        (¬ mine ∨ x.localPush = 0 ∧ x.overran = false → t.facets[i].regions[k] = x) ∧
        (mine → x.overran = true → t.facets[i].regions[k] = { x with localPush := 0, overran := false }) ∧
        (mine → x.overran = false → x.localPush ≠ 0 →
          t.facets[i].regions[k] = RegionSt.publish { x with localPush := 0 } x.localPush s.facets[f].invalid ∧
          (t.facets[i].regions[k]).head = (x.head + x.localPush) % x.size ∧
          (x.debt = 0 → (t.facets[i].regions[k]).level = x.level + x.localPush ∧
            (t.facets[i].regions[k]).tail = x.tail % x.size))) ∧
      (∀ g : Fin 16, g ≠ f → t.facets[g].place = s.facets[g].place) ∧
      State.Only [.freeCtr, .out, .upsets, .mem, .poison, .wbQueue, .cnt, .facets, .ap, .hbm, .img, .wav, .net, .beam,
        .host, .err] s t)) ∧
  (∀ (f : Fin 16) (e : EmitRec) (inv : Bool) (w : State),
    let v := (w.nextSeq (srcFacet f)).2
    let record (flags extra : Nat) : EventRec :=
      ⟨e.type, srcFacet f, w.host.seqs.get (srcFacet f), e.time, e.tick, flags, extra, e.payload⟩
    let i : Nat := if inv then 1 else 0
    let ring : Nat := if w.host.dataPos + (e.bufLen + 63) / 64 * 64 ≤ w.host.dataSize then w.host.dataPos else 0
    let classes : Bool := e.bufUnits.all (fun u => w.bufferPasses e.type (w.dataClass (u.1 * 32) 32) e.bufLen)
    inv = true ∨ e.route = 1 ∧ e.type ≠ 0x0022 ∧ e.type ≠ 0x0084 → e.type ≠ 0x0012 →
    (w.recordPasses e.type e.payload e.bufLen = false →
      w.releaseEmit f inv e = v.judged w.hostPath false) ∧
    (w.recordPasses e.type e.payload e.bufLen = true →
      (e.bufLen = 0 → w.releaseEmit f inv e = v.placeRec (record i 0)) ∧
      (e.bufLen ≠ 0 → w.bufferWay e = false → w.releaseEmit f inv e = v.placeRec (record (i + 16) 0)) ∧
      (e.bufLen ≠ 0 → w.bufferWay e = true → classes = false →
        w.releaseEmit f inv e = (v.judged .pcie false).placeRec (record (i + 16) 0)) ∧
      (e.bufLen ≠ 0 → w.bufferWay e = true → classes = true → w.clean → (∀ u ∈ e.bufUnits, u.2 = false) →
        ∃ u, w.releaseEmit f inv e = u.placeRec (record (i + 8) e.bufLen) ∧
          (rangeAll ringWrites (w.host.dataBase + ring) e.bufLen = true → Memory.wf w.mem = true →
            u.readB (w.host.dataBase + ring) e.bufLen =
              fitBytes e.bufLen (e.bufUnits.flatMap (fun x => w.readB (x.1 * 32) 32))) ∧
          State.Only [.mem, .cnt, .host] w u))) ∧
  (∀ s : State,
    (∀ f, ∃ t, exec (.waitTick f) s = .next t ∧
      State.Only [.facets] s t) ∧
    (∀ f, ∃ t, exec (.waitTickExpiry f) s = .next t ∧
      State.Only [.facets] s t) ∧
    (∀ f, ∃ t, exec (.endProg f) s = .next t ∧
      State.Only [.freeCtr, .out, .upsets, .mem, .poison, .wbQueue, .cnt, .facets, .ap, .hbm, .img, .wav, .net,
        .beam, .host, .err] s t))

/-! ### Scrubbers and the HBM stack (05 R137, R140; 06 R155, R168 to R170) -/

/-- PATROL_READ (patrolRead) of a Facet whose Prism is not isolated and whose FACET clock runs takes the next row and
counts a completed patrol; a unit of the row with an uncorrectable error is then poisoned, and no tick becomes invalid
by it; without poison and stored errors it does nothing else (05 R140). SCRUB_WRITEBACK (scrubWriteback) writes the
oldest queued correction of its Facet back, gives it up for a write to the same unit, or waits for a write to its bank
(05 R129, R137); without one it does nothing. The stack: training (HBM_TRAINING, hbmTraining) that succeeds makes HBM
ready, or ends in self-refresh while the device sleeps or is at stage 3 (06 R171); the third failure is final with a
FAULT (06 R170); a temperature reading (HBM_TEMP_READ, hbmTempRead) doubles refresh from 85 °C to below 80 °C and asks
for the cap from 95 °C until a second below 90 °C, with a FAULT at the crossing (06 R169); an ECS reading (ECS_READ,
ecsRead) replaces the error counts; recalibration (HBM_RECALIBRATION, hbmRecalibration) changes nothing; a quiet channel
powers down (HBM_POWER_DOWN, hbmPowerDown; 06 R155); a transfer's failed attempts (HBM_PARITY_ERROR, hbmParityError) are
counted, and the third is a fatal error (06 R168). The eight complete in every state, and change these fields at most.
-/
def Obligations.MemoriesKept : Prop :=
  (∀ (f : Fin 16) (others : List Req) (s : State), s.facetOut f = false →
    (∃ t, exec (.patrolRead f others) s = .next t ∧
      t.facets[f].patrolRow = (s.facets[f].patrolRow + 1) % 4096 ∧
      (s.clean → t = (if s.facets[f].patrolRow = 4095 then s.count (srcFacet f) cPatrol 1 else s).updFacet f
        (fun x => { x with patrolRow := (s.facets[f].patrolRow + 1) % 4096 })) ∧
      t.facets[f] = { s.facets[f] with patrolRow := (s.facets[f].patrolRow + 1) % 4096 } ∧
      (∀ j, j < 64 → SMap.wf 0 s.poison = true →
        s.severity (unitAddr f (64 * s.facets[f].patrolRow + j)) = 3 →
        t.poisoned (unitAddr f (64 * s.facets[f].patrolRow + j)) = true) ∧
      (∀ g : Fin 16, g ≠ f → t.facets[g] = s.facets[g]) ∧
      State.Only [.upsets, .poison, .wbQueue, .cnt, .facets, .host, .err] s t) ∧
    (s.wbOf f = [] → exec (.scrubWriteback f others) s = .next s) ∧
    (∀ u us, s.wbOf f = u :: us →
      exec (.scrubWriteback f others) s = .next (
        if others.any (fun q => q.write && q.units.contains u) then
          { s with wbQueue := s.wbQueue.filter (fun v => v != u) }
        else if others.any (fun q => q.write && q.sharesBank ⟨.scrub, u, true⟩) then s
        else { s with
          wbQueue := s.wbQueue.filter (fun v => v != u)
          upsets := s.upsets.filter (fun p => p.1 != u) }))) ∧
  (∀ s : State,
    (∀ n, s.hbm.phase = .training n →
      (s.pwr.shed < 3 → (∀ k, s.pwr.phase ≠ .asleep k) →
        (∃ t, exec (.hbmTraining true) s = .next t ∧ t.hbm.phase = .ready ∧
          t.ready = s.ready ||| BitVec.ofNat 19 (2 ^ 4)) ∧
        (s.hbm.stalled = [] → exec (.hbmTraining true) s = .next { s with
          hbm := { s.hbm with phase := .ready }, ready := s.ready ||| BitVec.ofNat 19 (2 ^ 4) })) ∧
      (3 ≤ s.pwr.shed ∨ (∃ k, s.pwr.phase = .asleep k) → exec (.hbmTraining true) s = .next (
        State.count { s with hbm := { s.hbm with phase := .selfRefresh } } srcHbm hSelfRefresh 1)) ∧
      (n < 2 → exec (.hbmTraining false) s = .next { s with hbm := { s.hbm with phase := .training (n + 1) } }) ∧
      (2 ≤ n → exec (.hbmTraining false) s = .next (State.fault { s with
        hbm := { s.hbm with phase := .failed }
        pwr := { s.pwr with startStatus := 0x0842, resetStatus := 0x0842 } } 0x0842 srcHbm 6 32 0 []))) ∧
    (∀ x : Int, s.hbm.phase ≠ .off → ∃ hot cap below,
      let u : State := { s with hbm := { s.hbm with
        temp := x
        tempMax := max s.hbm.tempMax x
        doubled := if 85 * 16 ≤ x then true else if x < 80 * 16 then false else s.hbm.doubled
        hot := hot, capWanted := cap, below90 := below } }
      exec (.hbmTempRead x) s = .next (
        if 95 * 16 ≤ x ∧ s.hbm.temp < 95 * 16 then u.fault 0x0844 srcHbm 6 32 0 [] else u) ∧
      (95 * 16 ≤ x → cap = true ∧ hot = true) ∧
      (90 * 16 ≤ x → x < 95 * 16 → cap = s.hbm.capWanted ∧ below = none) ∧
      (x < 90 * 16 → s.hbm.below90 = none → cap = s.hbm.capWanted ∧ below = some s.tk.now) ∧
      (x < 90 * 16 → ∀ b, s.hbm.below90 = some b → b + 1000000000 ≤ s.tk.now → cap = false)) ∧
    (∀ counts : List Nat, s.hbm.phase = .ready → SMap.wf 0 s.cnt = true →
      ∃ t, exec (.ecsRead counts) s = .next t ∧ State.Only [.cnt] s t ∧
        (∀ c : Fin 16, t.ctr srcHbm (hEcs c) = counts.getD c 0) ∧
        ∀ k, k < ctrKey srcHbm (hEcs 0) ∨ ctrKey srcHbm (hEcs 15) < k → t.cnt.get k = s.cnt.get k) ∧
    exec .hbmRecalibration s = .next s ∧
    (∀ c : Fin 16, s.hbm.phase = .ready → exec (.hbmPowerDown c) s = .next { s with
      hbm := { s.hbm with powerDown := s.hbm.powerDown.set c true } }) ∧
    (∀ (c : Fin 16) (failed : Nat), s.hbm.phase ≠ .off →
      (failed < 3 → exec (.hbmParityError c failed) s = .next (s.count srcHbm (hParity c) failed)) ∧
      (3 ≤ failed → ∃ t, exec (.hbmParityError c failed) s = .next t ∧ State.ResetBy 3 0x0843
        (s.count srcHbm (hParity c) 2) t))) ∧
  (∀ s : State,
    (∀ f others, ∃ t, exec (.patrolRead f others) s = .next t ∧
      State.Only [.upsets, .poison, .wbQueue, .cnt, .facets, .host, .err] s t) ∧
    (∀ f others, ∃ t, exec (.scrubWriteback f others) s = .next t ∧
      State.Only [.upsets, .wbQueue] s t) ∧
    (∀ ok, ∃ t, exec (.hbmTraining ok) s = .next t ∧
      State.Only [.out, .upsets, .mem, .poison, .wbQueue, .cnt, .hbm, .img, .net, .beam, .host, .pwr, .ready] s t) ∧
    (∀ x, ∃ t, exec (.hbmTempRead x) s = .next t ∧
      State.Only [.out, .mem, .cnt, .hbm, .host] s t) ∧
    (∀ counts, ∃ t, exec (.ecsRead counts) s = .next t ∧
      State.Only [.cnt] s t) ∧
    (∀ c, ∃ t, exec (.hbmPowerDown c) s = .next t ∧
      State.Only [.hbm] s t) ∧
    (∀ c failed, ∃ t, exec (.hbmParityError c failed) s = .next t ∧
      State.Only [.freeCtr, .upsets, .mem, .poison, .wbQueue, .cnt, .tk, .facets, .sched, .ap, .hbm, .dma,
        .tmplStatus, .exp, .cnd, .img, .wav, .net, .beam, .host, .jnl, .err, .pwr, .fuse, .trust, .idle, .ready] s t))

/-! ### DMA (08; 07) -/

/-- DESCRIPTOR_FETCH (descriptorFetch) of a channel that fetches a descriptor the engine can reach (08 R205, R210), out
of HBM once the bucket grants its 64 bytes: with OWN 1 and the checks passed it waits for its start event; with OWN 0 a
host channel polls. HOST_CHANNEL_POLL (hostChannelPoll) counts the re-read of CTRL, and polls on while OWN is 0 (08
R221). A descriptor that fails a check completes at once with the check's status, which halts the channel for a
misaligned, unreachable or malformed one (08 R210, R214) and not for one that the Aperture blocks (01 R27, R29); but for
its completion and for records nothing is written. Both complete in every state. -/
def Obligations.DescriptorsTaken : Prop :=
  (∀ (e : Fin 5) (c : Fin 8) (a : Nat) (s : State), (s.chan e c).at_ = .mem a → s.canFetch e a = true →
    s.grants (.fetch (chanNo e c)) (if placeOf a = .hbm then 64 else 0) 3 → s.engineOut e = false → s.quiet →
    let w := ((if placeOf a = .hbm then s.takeBucket 64 else s).yieldsAt a).readDev a 64
    let u := if placeOf a = .hbm then w.2.2.countPages hRead a 64 else w.2.2
    ((s.chan e c).phase = .fetching → bitOf (fieldLe w.1 0 4) 31 = true → (u.checkDesc e c w.1).1 = 0 →
      ∃ t, exec (.descriptorFetch e c) s = .next t ∧
        t.chan e c = { s.chan e c with desc := DmaDesc.ofBytes w.1, phase := .waiting, waitFrom := s.tk.now } ∧
        (∀ e' c', (e', c') ≠ (e, c) → t.chan e' c' = s.chan e' c') ∧ t.idleNs = 0 ∧
        State.Only [.freeCtr, .upsets, .poison, .wbQueue, .cnt, .hbm, .dma, .img, .host, .err, .idle] s t) ∧
    ((s.chan e c).phase = .fetching → bitOf (fieldLe w.1 0 4) 31 = false → isHostChan e c = true →
      ∃ t, exec (.descriptorFetch e c) s = .next t ∧ t.chan e c = { s.chan e c with phase := .polling } ∧
        (∀ e' c', (e', c') ≠ (e, c) → t.chan e' c' = s.chan e' c') ∧
        State.Only [.freeCtr, .upsets, .poison, .wbQueue, .cnt, .hbm, .dma, .img, .host, .err, .idle] s t) ∧
    (e = 4 → (s.chan e c).phase = .polling → isHostChan e c = true → s.clean → placeOf a = .host →
      bitOf (s.readLe a 4) 31 = false →
      exec (.hostChannelPoll c) s = .next (s.count (srcDma 4 c) dPolls 1)) ∧
    (e = 4 → (s.chan e c).phase = .polling → isHostChan e c = true → s.clean → placeOf a = .host →
      bitOf (s.readLe a 4) 31 = true →
      ((s.count (srcDma 4 c) dPolls 1).checkDesc e c (s.readB a 64)).1 = 0 →
      ∃ t, exec (.hostChannelPoll c) s = .next t ∧
        t.chan e c = { s.chan e c with
          desc := DmaDesc.ofBytes (s.readB a 64), phase := .waiting, waitFrom := s.tk.now } ∧
        State.Only [.cnt, .dma, .host] s t)) ∧
  (∀ (e : Fin 5) (c : Fin 8) (a : Nat) (s : State), (s.chan e c).at_ = .mem a →
    s.canFetch e a = true → placeOf a = .host → s.engineOut e = false → s.quiet → s.clean →
    (s.chan e c).phase = .fetching → bitOf (s.readLe a 4) 31 = true → s.ap.sealed = false →
    Memory.wf s.mem = true → (∀ k, k < 64 → ¬ s.recordByte (a + k)) →
    ∀ st, (s.checkDesc e c (s.readB a 64)).1 = st → st ∈ [0x0101, 0x0102, 0x0103, 0x0104] →
    ∃ t, exec (.descriptorFetch e c) s = .next t ∧
      (st ≠ 0x0103 → (t.chan e c).phase = .halted) ∧
      (st = 0x0103 → (t.chan e c).phase =
        if ({ s.chan e c with desc := DmaDesc.ofBytes (s.readB a 64) } : Channel).nextAt.isSome then .fetching
        else .idle) ∧
      (∀ x, ¬ s.recordByte x → x < a ∨ a + 64 ≤ x → SMap.get 0 t.mem x = SMap.get 0 s.mem x) ∧
      (t.chan e c).seq = ((s.chan e c).seq + 1) % 2 ^ 32 ∧ (t.chan e c).latch = true ∧
      t.readLe (a + 0x28) 4 = st ∧ t.readLe (a + 0x2C) 4 = fieldLe (s.readB a 64) 0x18 4 ∧
      t.readLe a 4 = s.readLe a 4 - 2 ^ 31) ∧
  (∀ s : State,
    (∀ e c, ∃ t, exec (.descriptorFetch e c) s = .next t ∧
      State.Only [.freeCtr, .out, .upsets, .mem, .poison, .wbQueue, .cnt, .facets, .sched, .ap, .hbm, .dma,
        .tmplStatus, .exp, .cnd, .img, .wav, .net, .beam, .host, .jnl, .err, .pwr, .fuse, .trust, .idle, .ready] s t) ∧
    (∀ c, ∃ t, exec (.hostChannelPoll c) s = .next t ∧
      State.Only [.freeCtr, .out, .upsets, .mem, .poison, .wbQueue, .cnt, .sched, .hbm, .dma, .tmplStatus, .img,
        .host, .err] s t))

/-- DESCRIPTOR_START (descriptorStart) of a waiting descriptor whose start event has occurred (08 R209, R211, R212): it
runs; WAIT_KIND 3 takes the DONE latch it waited for; a circular destination reserves its units, or meets OVERRUN. None
that uses HBM starts while the stack drains into self-refresh (06 R171); a write into a HISTORY partition is marked as
one that is not cut short (06 R173). It completes in every state. -/
def Obligations.DescriptorStarts : Prop :=
  (∀ (e : Fin 5) (c : Fin 8) (s : State), (s.chan e c).phase = .waiting → s.startMet e (s.chan e c) = true →
    s.queueTaken (chanNo e c) (s.chan e c).desc = false → s.regionFull (s.chan e c).desc = false →
    s.engineOut e = false → (s.hbm.phase = .draining → (s.chan e c).desc.usesHbm = false) →
    let d := (s.chan e c).desc
    ∃ t, exec (.descriptorStart e c) s = .next t ∧ (t.chan e c).phase = .running ∧
      (t.chan e c).crc = 0xFFFFFFFF ∧ (t.chan e c).desc = d ∧
      (t.chan e c).history = s.writesHistory d ∧
      (∀ x, (s.chan e c).startAt = some x → t.tk.now = max s.tk.now x % 2 ^ 64) ∧
      ((s.chan e c).startAt = none → t.tk = s.tk) ∧
      (d.waitKind = 3 → (t.chan e (fin8 d.waitSel)).latch = false) ∧
      (d.circ = false → (t.chan e c).resv = (s.chan e c).resv ∧ (t.chan e c).stop = (s.chan e c).stop ∧
        State.Only [.cnt, .tk, .hbm, .dma, .idle] s t) ∧
      (∀ f r, d.circ = true → d.region = some (f, r) →
        let g := s.facets[f].regions[r]
        (g.level + g.reserved + d.outBytes / 32 ≤ g.size →
          (t.chan e c).resv = some ⟨f.val, r.val, g.base, g.size, (g.head + g.reserved) % g.size⟩ ∧
          t.facets[f].regions[r] = { g with
            reserved := g.reserved + d.outBytes / 32
            resv := g.resv ++ [⟨chanNo e c, d.outBytes / 32, false, false⟩] }) ∧
        (g.size < g.level + g.reserved + d.outBytes / 32 →
          (t.chan e c).stop = some 0x0252 ∧ t.facets[f].regions[r] = g)) ∧
      State.Only [.cnt, .tk, .facets, .hbm, .dma, .host, .err, .idle] s t) ∧
  (∀ s : State,
    (∀ e c, ∃ t, exec (.descriptorStart e c) s = .next t ∧
      State.Only [.cnt, .tk, .facets, .hbm, .dma, .host, .err, .idle] s t))

/-- BURST_ISSUE (burstIssue) moves the burst of the channel that is served: the first by priority and round robin that
finds space in the buffer, when the token bucket holds its HBM bytes; else the burst waits on the bucket. Bursts of
begun HISTORY writes that are left while the stack drains into self-refresh (06 R171, R173) move whatever the bucket's
level, which falls to 0 at most: the model's choice (log 114). When none finds space, none moves (08 R213, R223). A
plain copy's bytes then stand at the destination, in HBM, a scratchpad or host memory, and no other byte has changed (08
R213, R215; 06 R164). HBM that has come under protection meanwhile stops the transfer with status 0x0102, unwritten (02
R56; the status is the model's choice, log 152). BUCKET_GRANT (bucketGrant) takes the oldest waiting access of the
highest priority once the bucket holds its bytes, and a burst moves; until then nothing changes (06 R164), where no
START is pending and no command waits. Both complete in every state. -/
def Obligations.BurstsMove : Prop :=
  (∀ (e : Fin 5) (ms : List Meet) (s : State), s.engineOut e = false →
    (∀ c ∈ s.serveOrder e, s.hasSpace e c = false) →
    exec (.burstIssue e ms) s = .next (s.markFull e (s.serveOrder e))) ∧
  (∀ (e : Fin 5) (c : Fin 8) (ms : List Meet) (b : Burst1) (s : State), s.engineOut e = false →
    (s.serveOrder e).find? (fun i => s.hasSpace e i) = some c → s.burstOf e c = some b →
    let x := s.chan e c
    let dst := x.desc.dst + x.writtenN
    (s.hbm.phase = .draining ∨ s.grants (.chan (chanNo e c)) b.hbm x.desc.prio →
      ∃ t, exec (.burstIssue e ms) s = .next t ∧ (t.chan e c).readN = x.readN + b.n ∧
        t.hbm.bucket = s.hbm.bucket - b.hbm ∧ (t.dma[e]).rr[fin4 x.desc.prio] = c.val ∧
        (x.desc.transform = 0 → (t.chan e c).stop = none → (t.chan e c).writtenN = x.writtenN + b.n) ∧
        (x.desc.transform = 0 → isBeam x.desc.dst = false → (x.resv = none → inHbm dst → s.hbmWritable dst b.n = true) →
          (t.chan e c).stop = none) ∧
        (x.desc.transform = 0 → x.resv = none → isBeam x.desc.dst = false → inHbm dst → s.hbmWritable dst b.n = false →
          (t.chan e c).stop = some 0x0102 ∧
          (Memory.wf s.mem = true → ∀ a, ¬ s.recordByte a → SMap.get 0 t.mem a = SMap.get 0 s.mem a)) ∧
        State.Only [.freeCtr, .out, .upsets, .mem, .poison, .wbQueue, .cnt, .facets, .hbm, .dma, .exp, .cnd, .img, .wav,
          .net, .beam, .host, .err] s t ∧
        (x.desc.transform = 0 → x.desc.srcKind = 0 → x.resv = none → isBeam x.desc.dst = false →
          s.queueStream x.desc = none → s.clean → s.hbm.poison = [] → Memory.wf s.mem = true → b.n % 32 = 0 →
          placeOf b.src ≠ .other → (placeOf dst = .hbm → s.hbmWritable dst b.n = true) → placeOf dst = .hbm ∨ placeOf dst = .host ∨ (∃ f o, placeOf dst = .scratch f o) →
          t.readB dst b.n = s.readB b.src b.n ∧
          ∀ a, a < dst ∨ dst + b.n ≤ a → SMap.get 0 t.mem a = SMap.get 0 s.mem a)) ∧
    (0 < b.hbm → s.hbm.phase = .ready → s.heldBack x.desc.prio = true ∨ s.hbm.bucket < b.hbm →
      ∃ t, exec (.burstIssue e ms) s = .next t ∧
        t.hbm.waiting = s.hbm.waiting ++ [⟨.chan (chanNo e c), b.hbm, x.desc.prio⟩] ∧
        t.hbm.bucket = s.hbm.bucket ∧ t.chan e c = x ∧ State.Only [.hbm, .dma] s t)) ∧
  (∀ (w : BucketWait) (ms : List Meet) (s : State), firstWait s.hbm.waiting = some w →
    (∀ v ∈ s.hbm.waiting, v.prio ≤ w.prio) ∧
    (s.quiet → s.hbm.bucket < w.bytes ∨ s.hbm.phase ≠ .ready → exec (.bucketGrant ms) s = .next s) ∧
    (s.quiet → w.bytes ≤ s.hbm.bucket → s.hbm.phase = .ready → (∀ v ∈ s.hbm.waiting, v.user = w.user → v = w) →
      ∀ e c b, w.user = .chan (chanNo e c) → (s.unwait w.user).burstOf e c = some b → 0 < b.hbm →
        ∃ t, exec (.bucketGrant ms) s = .next t ∧
          t.hbm.waiting = s.hbm.waiting.filter (fun v => v.user != w.user) ∧
          t.hbm.bucket = s.hbm.bucket - w.bytes ∧ (t.chan e c).readN = (s.chan e c).readN + b.n ∧
          State.Only [.freeCtr, .out, .upsets, .mem, .poison, .wbQueue, .cnt, .facets, .hbm, .dma, .exp, .cnd, .img,
            .wav,
          .net, .beam, .host, .err] s t)) ∧
  (∀ s : State,
    (∀ e ms, ∃ t, exec (.burstIssue e ms) s = .next t ∧
      State.Only [.freeCtr, .out, .upsets, .mem, .poison, .wbQueue, .cnt, .facets, .hbm, .dma, .exp, .cnd, .img,
        .wav, .net, .beam, .host, .err] s t) ∧
    (∀ ms, ∃ t, exec (.bucketGrant ms) s = .next t ∧
      State.Only [.freeCtr, .out, .upsets, .mem, .poison, .wbQueue, .cnt, .facets, .sched, .ap, .hbm, .dma,
        .tmplStatus, .exp, .cnd, .img, .wav, .net, .beam, .host, .jnl, .err, .pwr, .fuse, .trust, .idle, .ready] s t))

/-- TRANSFER_COMPLETE (transferComplete) of a running transfer, whether it moved every byte or its outcome was fixed
before (08 R208, R214), once none of its Beam frames waits for its acknowledgement and the bucket grants the write of a
completion into HBM (06 R165; its bytes and its waiting are the model's choice, logs 75 and 113), and DESCRIPTOR_ABORT
(descriptorAbort) of one whose bursts have drained (08 R219), which does not wait for the bucket (log 113) but for the
same acknowledgements (log 161): the channel takes its next descriptor, or becomes idle or halted, its sequence number
advances, its DONE latch is set and nothing of it waits on the bucket; status, residue, the TIME of its last write and
sequence stand in a descriptor in HBM, where OWN is 0. Both complete in every state. -/
def Obligations.TransfersComplete : Prop :=
  (∀ (e : Fin 5) (c : Fin 8) (s : State), s.quiet → s.beamOpen (chanNo e c) = false →
    let x := s.chan e c
    let passes : Prop := s.hbm.phase = .draining ∨ s.grants (.back (chanNo e c)) (s.backCost e x.at_) x.desc.prio
    let ends (st residue : Nat) (halts : Bool) (t : State) : Prop :=
      let h := halts || st == 0x0101 || st == 0x0102 || st == 0x0104
      (t.chan e c).phase = (if h then .halted else if x.nextAt.isSome then .fetching else .idle) ∧
      (t.chan e c).seq = (x.seq + 1) % 2 ^ 32 ∧ (t.chan e c).latch = true ∧
      (h = false → ∀ n, x.nextAt = some n → (t.chan e c).at_ = n) ∧
      (∀ e' c', (e', c') ≠ (e, c) → t.chan e' c' = s.chan e' c') ∧
      (∀ a, x.at_ = .mem a → placeOf a = .hbm → s.canFetch e a = true → s.hbmWritable a 64 = true →
        Memory.wf s.mem = true → (∀ k, k < 64 → ¬ s.recordByte (a + k)) →
        t.readLe (a + 0x28) 4 = st % 2 ^ 32 ∧ t.readLe (a + 0x2C) 4 = residue % 2 ^ 32 ∧
        t.readLe (a + 0x30) 8 = x.lastAt.getD s.tk.now % 2 ^ 64 ∧ t.readLe (a + 0x38) 4 = (x.seq + 1) % 2 ^ 32 ∧
        t.readLe a 4 = x.desc.ctrl % 2 ^ 31) ∧
      State.Only [.freeCtr, .out, .upsets, .mem, .poison, .wbQueue, .cnt, .facets, .hbm, .dma, .tmplStatus, .exp, .cnd,
        .host] s t
    let letGo (t : State) : Prop :=
      ∀ w ∈ t.hbm.waiting, w.user ∉ [.chan (chanNo e c), .fetch (chanNo e c), .back (chanNo e c)]
    (x.phase = .running → x.stop = none → s.moved e c = true → passes →
      ∃ t, exec (.transferComplete e c) s = .next t ∧ ends x.outcome (x.residue x.outcome) false t ∧ letGo t) ∧
    (∀ st, x.phase = .running → x.stop = some st → passes →
      ∃ t, exec (.transferComplete e c) s = .next t ∧
        ends st (if st = 0x0252 then x.desc.len else x.residue st) false t ∧ letGo t) ∧
    (∀ halts started, x.phase = .aborting halts started →
      s.backCost e x.at_ = 0 ∨ s.hbm.phase = .ready ∨ s.hbm.phase = .draining →
      ∃ t, exec (.descriptorAbort e c) s = .next t ∧
        ends 0x0100 (if started then x.residue 0x0100 else x.desc.len) halts t ∧ (started = true → letGo t))) ∧
  (∀ s : State,
    (∀ e c, ∃ t, exec (.transferComplete e c) s = .next t ∧
      State.Only [.freeCtr, .out, .upsets, .mem, .poison, .wbQueue, .cnt, .facets, .sched, .ap, .hbm, .dma,
        .tmplStatus, .exp, .cnd, .img, .wav, .net, .beam, .host, .jnl, .err, .pwr, .fuse, .trust, .ready] s t) ∧
    (∀ e c, ∃ t, exec (.descriptorAbort e c) s = .next t ∧
      State.Only [.freeCtr, .out, .upsets, .mem, .poison, .wbQueue, .cnt, .facets, .sched, .ap, .hbm, .dma,
        .tmplStatus, .exp, .cnd, .img, .wav, .net, .beam, .host, .jnl, .err, .pwr, .fuse, .trust, .ready] s t))

/-- EXPANDER_BLOCK (expanderBlock) judges the oldest whole block that its Expander holds. A good one's data stand at the
channel's output position and its slot is free once the bucket grants the write; a bad one fixes the outcome, writes
nothing, and takes what was read behind it with it (07 R186, R187, R190); a block whose TOTAL_LEN does not fit its
fields is judged on its header (log 118). CONDENSER_BLOCK (condenserBlock) codes the 8,192 buffered bytes and writes the
coded block, or fixes NO_SPACE (07 R196, R197). Both complete in every state. -/
def Obligations.BlocksCoded : Prop :=
  (∀ (p : Fin 4) (b : BlockSlot) (s : State),
    let e := fin5 p.val
    let c := fin8 b.chan
    let x := s.chan e c
    s.engineOut e = false → b.whole = true → x.phase = .running → x.stop = none →
    (∀ bs ms, s.exp[p] = b :: bs →
      (∀ st, judgeBlock b.bytes b.poisoned (x.desc.len - x.codedDone) x.outPos x.desc.outLen = .bad st →
        ∃ t, exec (.expanderBlock p ms) s = .next t ∧ t.exp = s.exp.set p (bs.filter (fun v => v.chan != b.chan)) ∧
          t.chan e c = { x with stop := some st } ∧ State.Only [.cnt, .dma, .exp, .host] s t) ∧
      (∀ h data trailer, judgeBlock b.bytes b.poisoned (x.desc.len - x.codedDone) x.outPos x.desc.outLen =
          .good h data trailer → isBeam x.desc.dst = false →
        s.grants (.expander p.val) (x.desc.hbmBytes (data.length + trailer.length)) x.desc.prio →
        (x.resv = none → inHbm (x.desc.dst + x.outPos) → s.hbmWritable (x.desc.dst + x.outPos) data.length = true) →
        (x.resv = none → trailer ≠ [] → inHbm (x.desc.dst + h.normDst) →
          s.hbmWritable (x.desc.dst + h.normDst) trailer.length = true) →
        ∃ t, exec (.expanderBlock p ms) s = .next t ∧ t.exp = s.exp.set p bs ∧
          t.chan e c = { x with
            codedDone := x.codedDone + b.bytes.length, outPos := x.outPos + data.length, lastAt := some s.tk.now
            writtenN := x.writtenN + (data.length + trailer.length) } ∧
          (s.hbm.poison = [] → s.clean → Memory.wf s.mem = true → x.resv = none → trailer = [] →
            placeOf (x.desc.dst + x.outPos) = .hbm →
            t.readB (x.desc.dst + x.outPos) data.length = data ∧
            ∀ a, a < x.desc.dst + x.outPos ∨ x.desc.dst + x.outPos + data.length ≤ a →
              SMap.get 0 t.mem a = SMap.get 0 s.mem a) ∧
          State.Only [.upsets, .mem, .poison, .wbQueue, .cnt, .facets, .hbm, .dma, .exp, .host, .err] s t)) ∧
    (s.cnd[p] = some b →
      let blk := (codeBlock (if x.desc.coding = 1 then 0x11 else 0x10) b.poisoned b.bytes).1
      (x.desc.outLen < x.writtenN + blk.length →
        ∃ t, exec (.condenserBlock p) s = .next t ∧ t.cnd = s.cnd.set p none ∧
          t.chan e c = { x with stop := some 0x0144 } ∧ State.Only [.cnt, .dma, .cnd] s t) ∧
      (x.writtenN + blk.length ≤ x.desc.outLen → isBeam x.desc.dst = false →
        s.grants (.condenser p.val) (x.desc.hbmBytes blk.length) x.desc.prio →
        (x.resv = none → inHbm (x.desc.dst + x.writtenN) → s.hbmWritable (x.desc.dst + x.writtenN) blk.length = true) →
        ∃ t, exec (.condenserBlock p) s = .next t ∧ t.cnd = s.cnd.set p none ∧
          (t.chan e c).codedDone = x.codedDone + 8192 ∧ (t.chan e c).writtenN = x.writtenN + blk.length ∧
          (s.hbm.poison = [] → s.clean → Memory.wf s.mem = true → x.resv = none → b.badUnits = [] →
            placeOf (x.desc.dst + x.writtenN) = .hbm →
            t.readB (x.desc.dst + x.writtenN) blk.length = blk) ∧
          State.Only [.freeCtr, .upsets, .mem, .poison, .wbQueue, .cnt, .hbm, .dma, .cnd, .host] s t))) ∧
  (∀ s : State,
    (∀ p ms, ∃ t, exec (.expanderBlock p ms) s = .next t ∧
      State.Only [.upsets, .mem, .poison, .wbQueue, .cnt, .facets, .hbm, .dma, .exp, .net, .beam, .host, .err] s t) ∧
    (∀ p, ∃ t, exec (.condenserBlock p) s = .next t ∧
      State.Only [.freeCtr, .upsets, .mem, .poison, .wbQueue, .cnt, .hbm, .dma, .cnd, .net, .beam, .host] s t))

/-! ### The sensor (09 R225 to R260) -/

/-- LINE_GROUP_COMPLETE (lineGroupComplete), once every row that can contribute to the stream's next group has been read
(09 R244 to R247): the group's bytes stand in the stream's ring and its lines are counted; a full ring truncates the
stream. FRAME_END (frameEnd) ends the frame in readout: every enabled stream has emitted its FRAME_STATUS record with
the frame's sequence number, TIME and tick, the lines written, flags and settings of R248 (stated where records are
held, because the event ring has no room), its count of skipped slots starts again, the statistics of a frame stand in
their ring of four, and a STOP takes the sensor to standby (09 R248, R249, R254). Both complete in every state. -/
def Obligations.FramesRead : Prop :=
  (∀ (st : Fin 5) (rows : List RawRow) (c : ObjCfg) (fr : FrameSt) (s : State),
    s.img.cfg = some c → s.img.frame = some fr →
    let fr' : FrameSt := { fr with rows := fr.rows ++ rows }
    let sc := c.stream st
    let x := s.img.streams[st]
    let hi := min (x.lines + sc.lpg) sc.lines
    let full := s.streamDma c st = true ∧ sc.ringGroups ≤ x.held.length
    let bs := groupData (s.frameEnv c fr' (modeH c.mode)) sc c.tone x.lines hi
    let a := c.ringBase st.val + x.pos * sc.groupBytes
    sc.kind ≠ 0 → x.trunc = none → x.lines < hi →
    min (modeH c.mode) ((groupRows sc x.lines hi).2 + sc.margin) ≤ fr'.activeRows c →
    ∃ t, exec (.lineGroupComplete st rows) s = .next t ∧ t.img.frame = some fr' ∧
      (full → t.img.streams[st] = { x with trunc := some 0 } ∧ State.Told (fun _ => False) s t) ∧
      (¬ full → sc.dest ≠ 1 →
        t.img.streams[st].lines = hi ∧ t.img.streams[st].pos = (x.pos + 1) % sc.ringGroups ∧
        t.img.streams[st].held = (if s.streamDma c st then x.held ++ [x.pos] else x.held) ∧
        t.img.streams[st].trunc = none ∧ State.Told (fun b => a ≤ b ∧ b < a + bs.length) s t ∧
        ((∀ r ∈ fr'.rows, r.bad = false) → Memory.wf s.mem = true → t.readB a bs.length = bs)) ∧
      (∀ i : Fin 5, i ≠ st → t.img.streams[i] = s.img.streams[i]) ∧
      State.Only [.freeCtr, .out, .upsets, .mem, .poison, .wbQueue, .cnt, .facets, .img, .host, .err] s t) ∧
  (∀ (rows : List RawRow) (c : ObjCfg) (fr : FrameSt) (s : State), s.img.cfg = some c → s.img.frame = some fr →
    ∃ t, exec (.frameEnd rows) s = .next t ∧ t.img.frame = none ∧
      (∀ i : Fin 5, (c.stream i).kind ≠ 0 → t.img.streams[i].skipped = 0) ∧
      (s.evtRoom = false → s.host.held.length ≤ 4000 → ∃ k,
        let fr' : FrameSt := { fr with rows := fr.rows ++ rows }
        let e := State.frameEnv { s with freeCtr := k } c fr' (fr'.activeRows c)
        ∀ i : Fin 5, (c.stream i).kind ≠ 0 → ∃ q : Nat,
          let x := t.img.streams[i]
          (⟨0x0020, srcImg + i.val, q, fr.time, fr.tick, frameFlags fr' x ||| 4, 0,
            framePayload c (c.stream i) fr' { x with skipped := s.img.streams[i].skipped } e.ob
              (dynCount e (fr'.activeRows c))⟩ : EventRec) ∈ t.host.held) ∧
      (s.img.stopping = false → t.img.mode = s.img.mode ∧ t.img.cfg = some c) ∧
      (s.img.stopping = true → t.img.mode = .standby ∧ t.img.cfg = none ∧ t.img.stopping = false) ∧
      (let a := otherBase + fr.seq % 4 * 16384
       bitOf c.flags 3 = true → Memory.wf s.mem = true → (∀ k, k < 16 → ¬ s.recordByte (a + k)) →
        t.readLe a 4 = fr.seq % 2 ^ 32 ∧ t.readLe (a + 8) 8 = fr.tick % 2 ^ 64) ∧
      State.Only [.freeCtr, .out, .upsets, .mem, .poison, .wbQueue, .cnt, .facets, .img, .host, .err] s t) ∧
  (∀ s : State,
    (∀ st rows, ∃ t, exec (.lineGroupComplete st rows) s = .next t ∧
      State.Only [.freeCtr, .out, .upsets, .mem, .poison, .wbQueue, .cnt, .facets, .img, .host, .err] s t) ∧
    (∀ rows, ∃ t, exec (.frameEnd rows) s = .next t ∧
      State.Only [.freeCtr, .out, .upsets, .mem, .poison, .wbQueue, .cnt, .facets, .img, .host, .err] s t))

/-- BURST_TRIGGER (burstTrigger) takes the oldest trigger: a sensor in normal mode whose configuration has bursts, with
none still to be written, goes over to the burst, its frame in readout is cut and its temperature read; any other
ignores the trigger. BURST_FRAME_START (burstFrameStart) passes at most the rows accepted through the burst ring, all of
them while nothing waits for HBM and the bucket holds their bytes, and writes nowhere but in that ring and in the
frame's rows of the burst partition; the frame's index entry holds its TIME and its rows. BURST_END (burstEnd) returns
to normal mode; BURST_DONE follows the write of the index (09 R251, R252). SENSOR_STANDBY_EXIT (sensorStandbyExit)
begins the exit when nothing keeps the sensor in standby (09 R255). The four complete in every state. -/
def Obligations.BurstsRun : Prop :=
  (∀ (c : ObjCfg) (theta : Int) (rows : List RawRow) (s : State),
    (∀ b bs, s.img.trigs = b :: bs →
      (s.img.cfg = some c → bitOf c.flags 4 = true → s.img.mode = .normal → s.img.burstOut = none →
        ∃ t, exec (.burstTrigger theta rows) s = .next t ∧ t.img.trigs = bs ∧ t.img.frame = none ∧
          t.img.theta = theta ∧
          t.img.mode = .burst ⟨{ b with
            x := min (b.x / 2 * 2) 7168, y := min (b.y / 2 * 2) 5120
            frames := if b.frames = 0 then c.burstFrames else min b.frames c.burstFrames },
            theta, 0, 0, s.burstStart c, 0, []⟩ ∧
          State.Only [.freeCtr, .out, .upsets, .mem, .poison, .wbQueue, .cnt, .facets, .img, .host, .err] s t) ∧
      (s.img.cfg = none ∨ s.img.cfg = some c ∧ (bitOf c.flags 4 = false ∨ s.img.mode ≠ .normal ∨ s.img.burstOut ≠ none) →
        exec (.burstTrigger theta rows) s = .next ((State.count { s with img := { s.img with trigs := bs } }
          srcImg iBurstIgnored 1).tickFault 0x0311 0x0206 4 4 0))) ∧
    (∀ b p lines, s.img.cfg = some c → s.img.mode = .burst b → s.burstPart c = some p →
      (b.done < b.trig.frames → ∃ t n, exec (.burstFrameStart rows lines) s = .next t ∧ n ≤ min lines 1024 ∧
        (s.hbm.stalled = [] → s.grants .burst (1024 * 2048) 3 → n = min lines 1024) ∧
        t.tk.now = max s.tk.now (b.time0 + b.done * 1000000) % 2 ^ 64 ∧
        t.img.mode = .burst { b with
          done := b.done + 1, dropped := b.dropped + (if n < 1024 then 1 else 0), row := b.row + n
          index := b.index ++ [(b.time0 + b.done * 1000000, n)] } ∧
        (Memory.wf s.mem = true → ∀ x, x < burstRing ∨ burstRing + 0x100000 ≤ x →
          (∀ y, y < n → x < p.storage (b.done * 2097152 + y * 2048) ∨
            p.storage (b.done * 2097152 + y * 2048) + 2048 ≤ x) →
          SMap.get 0 t.mem x = SMap.get 0 s.mem x) ∧
        State.Only [.freeCtr, .upsets, .mem, .poison, .wbQueue, .cnt, .tk, .hbm, .img, .host, .idle] s t) ∧
      (b.trig.frames ≤ b.done → ∃ t, exec .burstEnd s = .next t ∧
        t.img = { s.img with
          mode := .returning (b.time0 + (b.done - 1) * 1000000 + 748800), burstOut := t.img.burstOut } ∧
        (t.img.burstOut = none ∨ t.img.burstOut = some b) ∧
        State.Only [.out, .upsets, .mem, .poison, .wbQueue, .cnt, .tk, .hbm, .img, .host, .idle] s t)) ∧
    (s.img.mode = .standby → s.sensorWanted = true → exec .sensorStandbyExit s = .next { s with
      img := { s.img with mode := .leaving s.tk.now, settling := true } })) ∧
  (∀ s : State,
    (∀ theta rows, ∃ t, exec (.burstTrigger theta rows) s = .next t ∧
      State.Only [.freeCtr, .out, .upsets, .mem, .poison, .wbQueue, .cnt, .facets, .img, .host, .err] s t) ∧
    (∀ rows lines, ∃ t, exec (.burstFrameStart rows lines) s = .next t ∧
      State.Only [.freeCtr, .upsets, .mem, .poison, .wbQueue, .cnt, .tk, .hbm, .img, .host, .idle] s t) ∧
    (∃ t, exec .burstEnd s = .next t ∧
      State.Only [.out, .upsets, .mem, .poison, .wbQueue, .cnt, .tk, .hbm, .img, .host, .idle] s t) ∧
    (∃ t, exec .sensorStandbyExit s = .next t ∧
      State.Only [.img] s t))

/-! ### The waveform inputs (10 R262 to R293) -/

/-- SAMPLE_TRIGGER (sampleTrigger): every active converter whose DIV divides the trigger's index takes its next input as
a sample whose hold instant lies DELAY later. At that instant the slice that serves the converter holds it when it has a
free capacitor, else the sample is MISSED (10 R264 to R269). While no converter converts, before READY.ADC, with Analog
isolated or in a sleep state, it takes its place as MISSED (10 R278, R289; 16 R454); after a reference fault converters
go on (the model's reading of 10 R278 beside 15 R447, log 166). The row completes in every state; what it does is stated
where no earlier sample still waits to be held, no handover is due and no region waits to rejoin. -/
def Obligations.TriggersHoldSamples : Prop :=
  (∀ s : State, ∃ t, exec .sampleTrigger s = .next t ∧ State.Only [.freeCtr, .out, .upsets, .mem, .poison, .wbQueue,
    .cnt, .tk, .facets, .sched, .ap, .hbm, .dma, .tmplStatus, .exp, .cnd, .img, .wav, .net, .beam, .host, .jnl,
    .err, .pwr, .fuse, .trust, .idle, .ready] s t) ∧
  ∀ (c : ConvCfg) (inst : Nat) (s : State), s.wav.cfg = some c → s.nextTrigger c = some inst →
    s.wav.handover = none → (∀ k : Fin 16, s.wav.conv[k].pend = []) → s.err.rejoin.getLsbD 5 = false →
    ∃ t, exec .sampleTrigger s = .next t ∧ t.wav.trig = s.wav.trig + 1 ∧
      t.tk.now = max s.tk.now (inst / 256) % 2 ^ 64 ∧
      (∀ k : Fin 16, bitOf c.activeMask k.val = true → s.wav.trig % (c.ent k.val).div = 0 →
        let v := s.wav.conv[k]
        let w := t.wav.conv[k]
        let input := (c.ent k.val).inputOf k.val v.idx
        let hold := inst + (c.ent k.val).delay * adcCycle
        let h : Held := ⟨k.val, v.idx, input, hold, hold, false, false, false, 0⟩
        w.idx = v.idx + 1 ∧
        ((c.ent k.val).delay ≠ 0 → w.pend = [h] ∧ w.core = v.core ∧ w.words = v.words) ∧
        ((c.ent k.val).delay = 0 → w.pend = [] ∧
          (s.convOff = true →
            w.core = v.core ∧ w.words = v.words ++ [(v.idx, missedWord input)]) ∧
          (s.convOff = false → s.wav.standing ≠ some k.val →
            (v.core.free inst = true → w.words = v.words ∧
              w.core = v.core.push (.stream { h with openWire := s.testing input })) ∧
            (v.core.free inst = false → w.words = v.words ++ [(v.idx, missedWord input)] ∧ w.core = v.core)) ∧
          (s.convOff = false → s.wav.standing = some k.val → w.core = v.core ∧
            (s.wav.spare.free inst = true → w.words = v.words ∧
              t.wav.spare = s.wav.spare.push (.stream { h with openWire := s.testing input, spare := true })) ∧
            (s.wav.spare.free inst = false → w.words = v.words ++ [(v.idx, missedWord input)])))) ∧
      (∀ k : Fin 16, bitOf c.activeMask k.val = false ∨ s.wav.trig % (c.ent k.val).div ≠ 0 →
        t.wav.conv[k] = s.wav.conv[k])

/-- CONVERSION_DONE (conversionDone) of a slice, the spare one being 16. The result of a held sample takes that sample's
place in its converter's block, corrected with the gain and offset in force at it and marked with its flags; the core is
free at the conversion's end (10 R268 to R271). After an urgent conversion the sample abandoned for it is held again (10
R273, R274). A slice that holds nothing ends no conversion. The row completes in every state. -/
def Obligations.ConversionsTakeTheirPlace : Prop :=
  (∀ (k : Fin 17) (code : BitVec 18) (s : State), ∃ t, exec (.conversionDone k code) s = .next t ∧
    State.Only [.freeCtr, .out, .mem, .cnt, .tk, .hbm, .img, .wav, .net, .host,
      .idle] s t ∧ State.Told (fun _ => False) s t) ∧
  (∀ (k : Fin 17) (code : BitVec 18) (s : State), (∀ j : Fin 16, s.wav.conv[j].pend = []) →
    (s.slice k.val).jobs = [] → exec (.conversionDone k code) s = .next s) ∧
  ∀ (k : Fin 17) (code : BitVec 18) (js : List CoreJob) (s : State), (∀ j : Fin 16, s.wav.conv[j].pend = []) →
    (∀ (j : Fin 16) (h : Held) (new : Option (Int × Nat × Nat)), (s.slice k.val).jobs = .stream h :: js →
      (∀ a as, js ≠ .again a :: as) → h.conv = j.val → h.pair = 0 →
      s.wav.inputs[fin64 h.input].next = new.toList →
      let x := s.wav.inputs[fin64 h.input]
      let og := match new with
        | some (o, g, first) => if first ≤ h.idx then (o, g) else (x.offset, x.gain)
        | none => (x.offset, x.gain)
      let y := correct og.1 og.2 code.toInt
      let e := adcEdge (max h.hold (s.slice k.val).freeAt) + convTime
      ∃ t, exec (.conversionDone k code) s = .next t ∧ t.slice k.val = ⟨js, e⟩ ∧
        t.tk.now = max s.tk.now (e / 256) % 2 ^ 64 ∧
        t.wav.conv[j].words = s.wav.conv[j].words ++ [(h.idx, sampleWord y.1 h.input
          ((if h.late then swLate + swUnaligned else 0) + (if y.2 then swClip else 0) +
            (if h.spare then swSpare else 0) + (if h.openWire then swOpenWire else 0) +
            (if s.convError j then swError else 0)))] ∧
        (∀ i : Fin 16, i ≠ j → t.wav.conv[i].words = s.wav.conv[i].words) ∧
        (∀ i : Fin 17, i ≠ k → t.slice i.val = s.slice i.val)) ∧
    (∀ u : Urgent, (s.slice k.val).jobs = .urgent u :: js →
      let e := adcEdge (max (u.hold * 256) (s.slice k.val).freeAt) + convTime
      ∃ t, exec (.conversionDone k code) s = .next t ∧
        t.slice k.val = ⟨match js with
          | .again h :: r => .stream { h with hold := e, late := true, openWire := s.testing h.input } :: r
          | r => r, e⟩ ∧
        t.tk.now = max s.tk.now (e / 256) % 2 ^ 64 ∧
        (∀ i : Fin 16, t.wav.conv[i].words = s.wav.conv[i].words) ∧
        (∀ i : Fin 17, i ≠ k → t.slice i.val = s.slice i.val))

/-- HOLDOFF_EXPIRY (holdoffExpiry) ends an input's hold-off at its instant (10 R284). URGENT_REQUEST (urgentRequest)
takes the earliest request: refused while no converter converts; held on a free spare slice, else on the slice that
serves the converter, whose running conversion is abandoned, or refused while that one has an urgent input (10 R272,
R273). Background calibration and the reference (10 R275 to R278): at SPARE_SELF_CALIBRATION (spareSelfCalibration) the
spare slice calibrates itself; CALIBRATION_SLOT (calibrationSlot) has it take over an active converter at its first hold
in the slot, and CALIBRATION_RETURN (calibrationReturn) gives the converter back 20 ms later, or halts the rotation when
the calibration failed. ADC_REF_SETTLED (adcRefSettled) makes the reference and the converters ready, WAVE_REF_FAULT
(waveRefFault) takes both READY bits away (15 R447), and samples go on with ERROR (10 R278; log 166). At
OPEN_WIRE_PHASE_END (openWirePhaseEnd) samples held in the phase are waited for, and inputs without a reading are
converted; an open-wire test whose inputs are all read goes from its up to its down phase, and reports at the end of
that (10 R287). Each of these rows completes in every state; what they do is stated where no triggered sample waits. -/
def Obligations.AnalogKept : Prop :=
  (∀ (i : Fin 64) (ok : Bool) (s : State),
    (∃ t, exec (.holdoffExpiry i) s = .next t ∧ State.Only [.cnt, .tk, .hbm, .wav, .idle] s t) ∧
    (∃ t, exec .urgentRequest s = .next t ∧ State.Only [.cnt, .wav, .host] s t) ∧
    (∃ t, exec .spareSelfCalibration s = .next t ∧ State.Only [.cnt, .tk, .hbm, .wav, .host, .idle] s t) ∧
    (∃ t, exec .calibrationSlot s = .next t ∧ State.Only [.cnt, .tk, .hbm, .wav, .host, .idle] s t) ∧
    (∃ t, exec (.calibrationReturn ok) s = .next t ∧ State.Only [.out, .mem, .cnt, .tk, .hbm, .wav, .host, .idle] s t ∧
      State.Told (fun _ => False) s t) ∧
    (∃ t, exec .adcRefSettled s = .next t ∧ State.Only [.cnt, .tk, .hbm, .wav, .host, .idle, .ready] s t) ∧
    (∃ t, exec .waveRefFault s = .next t ∧ State.Only [.out, .mem, .cnt, .wav, .host,
      .ready] s t ∧ State.Told (fun _ => False) s t) ∧
    (∃ t, exec .openWirePhaseEnd s = .next t ∧ State.Only [.freeCtr, .out, .mem, .cnt, .tk, .hbm, .wav, .host,
      .idle] s t ∧
      State.Told (fun _ => False) s t)) ∧
  (∀ (i : Fin 64) (s : State),
    (s.wav.inputs[i].holdoff = none → exec (.holdoffExpiry i) s = .next s) ∧
    (∀ x, s.wav.inputs[i].holdoff = some x → ∃ t, exec (.holdoffExpiry i) s = .next t ∧
      t.tk.now = max s.tk.now x % 2 ^ 64 ∧
      t.wav = { s.wav with inputs := s.wav.inputs.set i { s.wav.inputs[i] with holdoff := none } })) ∧
  (∀ s : State, (∀ k : Fin 16, s.wav.conv[k].pend = []) →
    (∀ u, firstReq s.wav.reqs = some u →
      let r : State := { s with wav := { s.wav with reqs := s.wav.reqs.erase u } }
      let k := fin16 (u.input / 4)
      let sl := s.streamSlice (u.input / 4)
      let refused := (r.count (srcConv k.val) wRefused 1).tickFault 0x0412 (srcConv k.val) 5 k.val 0
      let held (m : Nat) : CoreJob := .urgent { u with
        hold := s.tk.now, slice := m, openWire := s.testing u.input, heldN := s.wav.conv[k].idx }
      (∀ v ∈ s.wav.reqs, u.req ≤ v.req) ∧
      (s.convOff = true ∨ s.wav.cfg = none → exec .urgentRequest s = .next refused) ∧
      (s.convOff = false → s.wav.cfg ≠ none →
        (s.wav.spareFree = true → exec .urgentRequest s = .next { r with wav := { r.wav with
          spare := { s.wav.spare with jobs := [held 16] } } }) ∧
        (s.wav.spareFree = false → sl ≤ 16 → (s.slice sl).jobs = [] →
          exec .urgentRequest s = .next (r.setSlice sl { s.slice sl with jobs := [held sl] })) ∧
        (∀ h js, s.wav.spareFree = false → sl ≤ 16 → (s.slice sl).jobs = .stream h :: js →
          (∀ v, CoreJob.urgent v ∉ js) →
          let a := adcEdge (max h.hold (s.slice sl).freeAt)
          a ≤ s.tk.now * 256 → s.tk.now * 256 < a + convTime →
          exec .urgentRequest s = .next (r.setSlice sl { s.slice sl with jobs := held sl :: .again h :: js })) ∧
        (∀ v js, s.wav.spareFree = false → (s.slice sl).jobs = .urgent v :: js →
          s.tk.now * 256 < adcEdge (max (v.hold * 256) (s.slice sl).freeAt) + convTime →
          exec .urgentRequest s = .next refused)))) ∧
  (∀ s : State, (∀ k : Fin 16, s.wav.conv[k].pend = []) → s.convOff = false →
    (s.wav.halted = false →
      (∃ t, exec .spareSelfCalibration s = .next t ∧ t.wav = { s.wav with selfCal := true } ∧
        t.tk.now = max s.tk.now ((s.tk.now / 320000000 + 1) * 320000000 - 4000000) % 2 ^ 64) ∧
      (let r := (s.tk.now + 160000000) / 320000000
       ∃ t, exec .calibrationSlot s = .next t ∧ t.tk.now = max s.tk.now (r * 320000000) % 2 ^ 64 ∧
        t.wav = { s.wav with
          selfCal := false
          handover := match s.wav.cfg with
            | some c => if bitOf c.activeMask (r % 16) then some (r % 16, true, r * 320000000) else none
            | none => none })) ∧
    (let r := s.tk.now / 320000000
     let back := r * 320000000 + 20000000
     ∀ ok, ∃ t, exec (.calibrationReturn ok) s = .next t ∧ t.tk.now = max s.tk.now back % 2 ^ 64 ∧
       t.wav =
        if s.wav.halted then
          (if ok then s.wav else { s.wav with
            conv := s.wav.conv.set (fin16 (r % 16)) { s.wav.conv[fin16 (r % 16)] with failed := true } })
        else if ok then { s.wav with handover := s.wav.standing.map (fun j => (j, false, back)) }
        else { s.wav with halted := true, handover := none, standing := some (s.wav.standing.getD (r % 16)) })) ∧
  (∀ s : State, (∀ k : Fin 16, s.wav.conv[k].pend = []) →
    (s.wav.refOn = true → s.pwr.pll[5] = .good → s.analogOut = false ∨ s.err.restarting.getLsbD 5 = true →
      ∃ t, exec .adcRefSettled s = .next t ∧
      t.tk.now = max s.tk.now (s.wav.refSince + 5000000) % 2 ^ 64 ∧
      t.wav = { s.wav with refFault := false, refReady := true } ∧
      t.ready = if s.analogOut then s.ready else s.ready ||| BitVec.ofNat 19 (2 ^ 10 + 2 ^ 11)) ∧
    (s.wav.refOn = true → s.wav.cfg ≠ none → ∃ t, exec .waveRefFault s = .next t ∧
      t.wav = { s.wav with refFault := true, refReady := false } ∧
      t.ready = s.ready &&& ~~~ (BitVec.ofNat 19 (2 ^ 10 + 2 ^ 11))) ∧
    (∀ o, s.wav.openWire = some o →
      ∃ t, exec .openWirePhaseEnd s = .next t ∧ t.tk.now = max s.tk.now (o.since + 200000) % 2 ^ 64 ∧
        (s.phaseHolds o = true → t.wav = s.wav) ∧
        (s.phaseHolds o = false → o.unread ≠ [] → s.convOff = false → t.wav.openWire = some o) ∧
        (s.phaseHolds o = false → o.unread = [] ∨ s.convOff = true →
          let down : OpenWire := { o with down := true, since := t.tk.now, sums := [], up := s.readings o }
          t.wav = { s.wav with openWire := if o.down then none else some down })))

/-- BLOCK_COMPLETE (blockComplete) of a full block (10 R280, R281): it enters its readers' queue, which the history ring
joins with the place its SEQ has there; a full queue drops it, and the next block carries GAP; in an outage it goes into
the outage ring (10 R288), with zeros when a parity error spoils it; with the Analog region isolated it is dropped (16
R454). HISTORY_WRITE (historyWrite) writes the oldest block not yet in the ring when the bucket grants its 1,088 bytes
(10 R283). A window whose last block that write completes for its last converter is closed and reported with its
WAVE_WINDOW record (10 R286; stated where records are held, because the event ring has no room); any other stays open.
Both rows complete in every state. -/
def Obligations.BlocksReachReaders : Prop :=
  (∀ (k : Fin 16) (bad : Bool) (s : State),
    (∃ t, exec (.blockComplete k bad) s = .next t ∧ State.Only [.freeCtr, .upsets, .mem, .poison, .wbQueue, .cnt,
      .facets, .wav, .host, .err] s t) ∧
    (∃ t, exec (.historyWrite k) s = .next t ∧ State.Only [.out, .upsets, .mem, .poison, .wbQueue, .cnt, .hbm, .wav,
      .host] s t)) ∧
  (∀ (k : Fin 16) (bad : Bool) (c : ConvCfg) (s : State), s.wav.cfg = some c → bitOf c.activeMask k.val = true →
    (s.wav.conv[k].full s.wav.conv[k].seq = false → exec (.blockComplete k bad) s = .next s) ∧
    (s.wav.conv[k].full s.wav.conv[k].seq = true →
      let v := s.wav.conv[k]
      let e := c.ent k.val
      let bs := blockBytes k.val e v v.seq v.gap
      let hist := if bitOf e.readers 2 then s.histAt c k.val v.seq else none
      let dma := bitOf e.readers 1
      let queued := s.updConv k (fun x => { x.after v.seq with
        gap := false
        queue := if dma || hist.isSome then x.queue ++ [⟨v.seq, bs, bad, dma, hist, false⟩] else x.queue })
      let dropped := (s.updConv k (fun x => { x.after v.seq with
        gap := true, drops := v.seq :: x.drops.take 1023 })).count (srcConv k.val) wDropped 1
      (s.analogOut = true → exec (.blockComplete k bad) s = .next dropped) ∧
      (s.analogOut = false → s.wav.outage.on = false → v.queue.length < 30 →
        (bitOf e.readers 0 = false →
          exec (.blockComplete k bad) s = .next (queued.count (srcConv k.val) wBlocks 1)) ∧
        ∃ t, exec (.blockComplete k bad) s = .next t ∧ t.wav = queued.wav) ∧
      (s.analogOut = false → s.wav.outage.on = false → 30 ≤ v.queue.length →
        exec (.blockComplete k bad) s = .next (dropped.tickFault 0x0410 (srcConv k.val) 5 k.val 0)) ∧
      (s.analogOut = false → s.wav.outage.on = true →
        (c.outage = false ∨ bitOf c.outageMask k.val = false → s.drainsConv k = false →
          exec (.blockComplete k bad) s = .next dropped) ∧
        (c.outage = true → bitOf c.outageMask k.val = true → c.keepFirst = false → Memory.wf s.mem = true →
          ∃ t, exec (.blockComplete k bad) s = .next t ∧ t.wav.conv[k].seq = v.seq + 1 ∧
            t.wav.outage.blocks = s.wav.outage.blocks + 1 ∧
            t.wav.outage.next = (s.wav.outage.next + 1) % outageSlots ∧
            t.readB (outageSlot s.wav.outage.next) 1088 = (if bad then zeroBytes 1088 else bs) ∧
            State.Only [.mem, .cnt, .wav] s t)))) ∧
  ∀ (k : Fin 16) (b : Block) (a : Nat) (s : State), (s.wav.conv[k].queue.find? (·.hist.isSome)) = some b →
    b.hist = some a → s.wav.outage.on = false → s.isReady 4 = true → s.edgeOut = false →
    s.grants (.history k.val) 1088 3 →
    ∃ t, exec (.historyWrite k) s = .next t ∧ t.wav.conv[k] = s.wav.conv[k].histTaken b ∧
      t.hbm.bucket = s.hbm.bucket - 1088 ∧
      (b.bad = false → b.bytes.length = 1088 → placeOf a = .hbm → s.hbmWritable a 1088 = true → s.clean →
        s.hbm.poison = [] → Memory.wf s.mem = true → (∀ i, i < 1088 → ¬ s.recordByte (a + i)) →
        t.readB a 1088 = b.bytes) ∧
      (∀ (c : ConvCfg) (w : Fin 8) (x : WaveWin), s.wav.cfg = some c → b.old = false → s.wav.windows[w] = some x →
        let mask := (c.win w.val).convMask
        let ks := (List.range 16).filter (bitOf mask)
        let next (i : Nat) : Nat := if fin16 i = k then b.seq + 1 else s.wav.conv[fin16 i].histNext
        (∀ last, s.waveLast ks (x.stop * 256) = some last → (∀ i ∈ ks, last < next i) →
          t.wav.windows[w] = none ∧
          (s.evtRoom = false → s.host.held.length ≤ 4000 → s.wav.oldWindows = [] → ∃ q : Nat,
            (⟨0x0013, srcInput x.input, q, x.time, s.tickOf x.time, 4, (last - x.first + 1) * 1088 * ks.length,
              leBytes 4 c.histPart ++ leBytes 2 mask ++ leBytes 1 w.val ++
                leBytes 1 ((if x.short then 1 else 0) + (if s.waveGap ks x.first last then 2 else 0)) ++
                leBytes 4 x.first ++ leBytes 4 last ++ leBytes 8 x.time⟩ : EventRec) ∈ t.host.held)) ∧
        (s.waveLast ks (x.stop * 256) = none ∨
            (∃ last, s.waveLast ks (x.stop * 256) = some last ∧ ∃ i ∈ ks, next i ≤ last) →
          t.wav.windows[w] = some x))

/-! ### Time and the network (11 R295 to R309) -/

/-- PTP_MESSAGE (ptpMessage) on a port that receives (11 R297, R299, R301 to R303): a frame that is no PTP frame of the
port is discarded, and a message of another domain is not followed. An Announce makes the selection anew; a one-step
Sync of the selected master, or the Follow_Up of a two-step one, gives the servo its offset, which locks, unlocks or
steps the clock; a Pdelay_Req is answered; a completed exchange, its answer of one step or followed up, gives the link's
delay from the device's stamps of 4 ns and the peer's turnaround. The clock's timers (11 R301, R303, R304):
PDELAY_REQ_TIMER (pdelayReqTimer) sends Pdelay_Req on every port that is up; at SYNC_TIMEOUT (syncTimeout) a silent
master leads from LOCKED to HOLDOVER, or to another master that is known; HOLDOVER_EXPIRY (holdoverExpiry) ends HOLDOVER
in FREE, without READY.PTP_LOCK; HOLDOVER_REPORT (holdoverReport) is one event. Every row completes in every state. -/
def Obligations.ClockServo : Prop :=
  (∀ (port : Fin 2) (eth : Eth) (domain : Nat) (m : PtpMsg) (s : State),
    (∃ t, exec (.ptpMessage port eth domain m) s = .next t ∧ State.Only [.out, .mem, .cnt, .tk, .hbm, .net, .host,
      .idle, .ready] s t) ∧
    (s.portHears port = false → exec (.ptpMessage port eth domain m) s = .next s) ∧
    (s.portHears port = true → s.ptpClass port eth = false →
      exec (.ptpMessage port eth domain m) s = .next (s.count (srcPort port) nDiscard 1)) ∧
    (s.portHears port = true → s.ptpClass port eth = true → domain ≠ s.net.ptp.domain →
      exec (.ptpMessage port eth domain m) s = .next (s.count (srcPort port) nRx 1))) ∧
  (∀ (port : Fin 2) (eth : Eth) (s : State), s.portHears port = true → s.ptpClass port eth = true →
    let run (m : PtpMsg) := exec (.ptpMessage port eth s.net.ptp.domain m) s
    let mine (src : Nat) : Prop := s.net.ptp.slave = some port.val ∧ s.net.ptp.master = some src
    let delay : Int := s.net.ptp.delay[port]
    let offset (m : PtpMsg) (o : Int) (atFree : PtpState) : Prop :=
      ∃ t, run m = .next t ∧ t.net.ptp.offset = o ∧
        (o.natAbs ≤ 1000000 → t.tk.now = s.tk.now ∧ t.tk.stepPending = none) ∧
        (1000000 < o.natAbs → s.runningImage.isSome = true →
          t.tk.now = s.tk.now ∧ t.tk.stepPending = some o) ∧
        (1000000 < o.natAbs → s.runningImage = none →
          t.tk.now = ((s.tk.now : Int) - o).toNat % 2 ^ 64 ∧ t.tk.stepPending = none) ∧
        t.net.ptp.state = match s.net.ptp.state with
          | .free => atFree
          | .acquiring => if o.natAbs ≤ 100 ∧ 7 ≤ s.net.ptp.good then .locked else .acquiring
          | .locked => if 1000 < o.natAbs ∧ 3 ≤ s.net.ptp.bad then .acquiring else .locked
          | .holdover => .holdover
    (∀ src a, ∃ t, run (.announce src a) = .next t ∧
      (let heard := s.net.ptp.hear port src a
       t.net.ptp.masters = heard.masters ∧ t.net.ptp.slave = heard.best.map (·.1) ∧
       t.net.ptp.master = heard.best.map (·.2.1) ∧ t.net.ptp.gm = heard.best.map (·.2.2)) ∧
      (s.net.ptp.state = .holdover → t.net.ptp.state = .acquiring)) ∧
    (∀ src q org corr, mine src →
      offset (.sync src q (some org) corr) (((s.tk.now / 4 * 4 : Nat) : Int) - org - corr - delay) .acquiring) ∧
    (∀ src q corr, mine src → ∃ t, run (.sync src q none corr) = .next t ∧
      t.net.ptp.syncWait = some (port.val, src, q, s.tk.now / 4 * 4, corr) ∧
      t.net.ptp.state = if s.net.ptp.state = .free then .acquiring else s.net.ptp.state) ∧
    (∀ src q rx org c corr, mine src → s.net.ptp.syncWait = some (port.val, src, q, rx, c) →
      offset (.followUp src q org corr) ((rx : Int) - org - c - corr - delay) .free) ∧
    (∀ src q org corr, ¬ mine src →
      run (.sync src q org corr) = .next (s.count (srcPort port) nRx 1)) ∧
    (∀ q, ∃ t, run (.pdelayReq q) = .next t ∧
      t.net.port[port].txq[7] = s.net.port[port].txq[7] ++
        [.pdelayResp s.net.ptp.domain q (s.tk.now / 4 * 4) s.net.ptp.oneStep 0] ∧ State.Only [.cnt, .net] s t) ∧
    (∀ q rx turn tx, s.net.ptp.reqAt[port] = some (q, tx) → ∃ t, run (.pdelayResp q rx (some turn)) = .next t ∧
      t.net.ptp = { s.net.ptp with
        delay := s.net.ptp.delay.set port ((s.tk.now / 4 * 4 - tx - turn) / 2)
        reqAt := s.net.ptp.reqAt.set port none } ∧
      State.Only [.cnt, .net] s t) ∧
    (∀ q rx, ∃ t, run (.pdelayResp q rx none) = .next t ∧
      t.net.ptp = { s.net.ptp with respWait := s.net.ptp.respWait.set port (some (q, s.tk.now / 4 * 4, rx)) } ∧
      State.Only [.cnt, .net] s t) ∧
    (∀ (q out corr : Nat) (rx peerRx tx : Nat), s.net.ptp.respWait[port] = some (q, rx, peerRx) →
      s.net.ptp.reqAt[port] = some (q, tx) → peerRx ≤ out → ∃ t, run (.pdelayFup q out corr) = .next t ∧
      t.net.ptp = { s.net.ptp with
        delay := s.net.ptp.delay.set port ((rx - tx - (out - peerRx + corr)) / 2)
        respWait := s.net.ptp.respWait.set port none, reqAt := s.net.ptp.reqAt.set port none } ∧
      State.Only [.cnt, .net] s t)) ∧
  (∀ s : State,
    (∃ t, exec .pdelayReqTimer s = .next t ∧ t.net.ptp = { s.net.ptp with
        reqSeq := (s.net.ptp.reqSeq + 1) % 65536 } ∧
      (∀ p : Fin 2, t.net.port[p].txq[7] = s.net.port[p].txq[7] ++
        (if s.net.port[p].up && !s.edgeOut then [.pdelayReq s.net.ptp.domain s.net.ptp.reqSeq] else [])) ∧
      State.Only [.net] s t) ∧
    (∃ t, exec .syncTimeout s = .next t ∧ State.Only [.out, .mem, .cnt, .net, .host,
      .ready] s t ∧ State.Told (fun _ => False) s t) ∧
    (∀ p, s.net.ptp.state = .locked → s.net.ptp.slave = some p → ∃ t, exec .syncTimeout s = .next t ∧
      let rest := s.net.ptp.masters[fin2 p].filter (fun m => some m.1 != s.net.ptp.master)
      let best := Ptp.best { s.net.ptp with masters := s.net.ptp.masters.set (fin2 p) rest }
      (best = none → t.net.ptp.state = .holdover ∧ t.net.ptp.slave = none ∧ t.net.ptp.since = s.tk.now ∧
        t.isReady 14 = true) ∧
      (∀ i src g, best = some (i, src, g) → t.net.ptp.state = .acquiring ∧ t.net.ptp.slave = some i ∧
        t.net.ptp.master = some src ∧ t.isReady 14 = false)) ∧
    (s.net.ptp.state = .holdover → ∃ t, exec .holdoverExpiry s = .next t ∧ t.net.ptp.state = .free ∧
      t.isReady 14 = false ∧ State.Only [.out, .mem, .cnt, .net, .host, .ready] s t ∧ State.Told (fun _ => False) s t) ∧
    (s.net.ptp.state ≠ .holdover → exec .holdoverExpiry s = .next s ∧ exec .holdoverReport s = .next s) ∧
    (s.net.ptp.state = .holdover → exec .holdoverReport s = .next
      (s.event 0x0040 0x0500 (0x0540 * 65536) s.timePayload)))

/-- Links and frames (11 R296 to R300): at LINK_DOWN (linkDown) a port loses its readiness, its queues and its masters;
at LINK_UP (linkUp) the port is ready; DISCARDED_FRAME (discardedFrame) is counted, but for a PAUSE frame;
FRAME_TRANSMIT (frameTransmit) sends the oldest frame of the highest non-empty queue, byte by byte; the stamp of a
Pdelay_Req is kept and that of a two-step answer follows in its Follow_Up (11 R301); a template's SEQ goes on with the
first frame sent of a transmission (11 R307). Event timers (11 R305) and repeats (11 R308): EVENT_TIMER_EVENT
(eventTimerEvent) drives the channel's pin for WIDTH, wakes the descriptors that wait for it and goes on to the next
instant; ET_CAPTURE (etCapture) of a channel that senses its pin stamps an edge to 4 ns unless it follows the last
within 400 ns (that an active-low pin inverts the edges is the model's choice, log 26); in S3 neither happens (15 R432;
17 R482); TEMPLATE_REPEAT (templateRepeat) puts the next transmission into the queue of each of the template's ports
that is up, while no firing waits and none of its frames stands in a queue. Every row completes in every state. -/
def Obligations.NetworkRuns : Prop :=
  (∀ (p : Fin 2) (s : State),
    (s.net.port[p].up = false → exec (.linkDown p) s = .next s) ∧
    (s.net.port[p].up = true → ∃ t, exec (.linkDown p) s = .next t ∧
      t.net.port[p] = { s.net.port[p] with up := false, txq := Vector.replicate 8 [] } ∧
      t.isReady (12 + p.val) = false ∧ t.net.ptp.masters[p] = [] ∧ t.net.ptp.slave ≠ some p.val ∧
      State.Only [.freeCtr, .out, .mem, .cnt, .net, .beam, .host, .ready] s t ∧ State.Told (fun _ => False) s t) ∧
    (s.net.port[p].mode ≠ 0 → s.pwr.shed ≠ 3 → s.edgeOut = false → s.pwr.pll[7] = .good →
      exec (.linkUp p) s = .next { s with
        net := { s.net with port := s.net.port.set p { s.net.port[p] with up := true } }
        ready := s.ready ||| BitVec.ofNat 19 (2 ^ (12 + p.val)) }) ∧
    (s.net.port[p].mode = 0 ∨ s.pwr.shed = 3 ∨ s.edgeOut = true ∨ s.pwr.pll[7] ≠ .good →
      exec (.linkUp p) s = .next s) ∧
    (∀ (e : Eth) (len : Nat) (fcs : Bool), exec (.discardedFrame p e len fcs) s = .next
      (if s.portHears p then
        if fcs then s.count (srcPort p) nFcs 1
        else if len < 64 ∨ 9216 < len then s.count (srcPort p) nDiscard 1
        else if isPause e || s.ptpClass p e || s.beamClass p e then s
        else s.count (srcPort p) nDiscard 1
      else s)) ∧
    (∃ t, exec (.frameTransmit p) s = .next t ∧ State.Only [.freeCtr, .out, .cnt, .net, .host] s t) ∧
    (∀ q f fs, s.net.port[p].up = true → s.edgeOut = false → s.net.port[p].txq[q] = f :: fs →
      (∀ r : Fin 8, q < r → s.net.port[p].txq[r] = []) →
      ∃ t, exec (.frameTransmit p) s = .next t ∧
        t.out = (match s.wire p q.val f with
          | some bs => Output.frame p.val q.val bs f.ctl
          | none => .ptpFrame p.val q.val s.net.port[p].vid (f.stamped (s.tk.now / 4 * 4))) :: s.out ∧
        ((∀ k tg bs, f ≠ .template k tg bs) → (∀ d i rx n, f ≠ .pdelayResp d i rx false n) →
          t.net.port[p].txq[q] = fs ∧ (∀ r, r ≠ q → t.net.port[p].txq[r] = s.net.port[p].txq[r]) ∧
          State.Only [.out, .cnt, .net] s t) ∧
        (∀ d i, f = .pdelayReq d i → t.net.ptp = { s.net.ptp with
          reqAt := s.net.ptp.reqAt.set p (some (i, s.tk.now / 4 * 4)) }) ∧
        (∀ d i rx n, f = .pdelayResp d i rx false n → q ≠ 6 → t.net.port[p].txq[q] = fs ∧
          t.net.port[p].txq[6] = s.net.port[p].txq[6] ++ [.pdelayFup d i (s.tk.now / 4 * 4)]) ∧
        (∀ k tg bs x, f = .template k tg bs → s.net.tmpl[fin32 k] = some x → x.waiting = [] →
          t.net.port[p].txq[q] = fs ∧ t.net.tmpl[fin32 k] = some (x.frameSent) ∧
          (x.unsent = true → x.frameSent.counters = x.seqNext.counters) ∧
          State.Only [.out, .cnt, .net] s t))) ∧
  (∀ (k : Fin 8) (s : State),
    let e := s.net.et[k]
    let woken (t : State) : Prop := ∀ (g : Fin 5) (c : Fin 8), (s.chan g c).phase = .waiting →
      (s.chan g c).desc.waitKind = 2 → (s.chan g c).desc.waitSel = k.val → (t.chan g c).eventSeen = true
    let at_ := e.start + e.next * e.period / 256
    (s.pwr.sleep ≠ 3 → e.mode = 1 ∨ e.mode = 2 ∧ e.next = 0 → ∃ t, exec (.eventTimerEvent k) s = .next t ∧
      t.net.et[k] = { e with next := e.next + 1 } ∧
      t.tk.now = max s.tk.now at_ % 2 ^ 64 ∧ woken t ∧
      t.out = (if bitOf e.pin 0 then
        [.etPin k.val (bitOf e.pin 1) (at_ + e.width), .etPin k.val (!bitOf e.pin 1) at_] else []) ++ s.out ∧
      State.Only [.out, .cnt, .tk, .hbm, .dma, .img, .wav, .net, .idle] s t) ∧
    (s.pwr.sleep = 3 → exec (.eventTimerEvent k) s = .next s) ∧
    (e.mode ≠ 1 → ¬ (e.mode = 2 ∧ e.next = 0) → exec (.eventTimerEvent k) s = .next s) ∧
    (∀ rising : Bool, (∃ t, exec (.etCapture k rising) s = .next t ∧ State.Only [.freeCtr, .out, .mem, .cnt, .dma,
      .img, .wav, .net, .host] s t) ∧
      (s.pwr.sleep = 3 ∨ e.mode ≠ 3 ∨ bitOf e.pin 0 = false → exec (.etCapture k rising) s = .next s) ∧
      (s.pwr.sleep ≠ 3 → e.mode = 3 → bitOf e.pin 0 = true →
        (bitsOf e.pin 2 2 = 2 ∨ bitsOf e.pin 2 2 = if rising != bitOf e.pin 1 then 0 else 1) →
        (∀ l, e.last = some l → s.tk.now / 4 * 4 < l + 400 →
          exec (.etCapture k rising) s = .next (s.count (srcEt k) etIgnored 1)) ∧
        ((∀ l, e.last = some l → l + 400 ≤ s.tk.now / 4 * 4) → ∃ t, exec (.etCapture k rising) s = .next t ∧
          t.net.et[k] = { e with last := some (s.tk.now / 4 * 4) } ∧ woken t ∧
          State.Told (fun _ => False) s t)))) ∧
  ∀ (i : Fin 32) (s : State), (∃ t, exec (.templateRepeat i) s = .next t ∧ State.Only [.freeCtr, .cnt, .net,
    .host] s t) ∧
    (∀ (x : EvTmpl) (f : Firing), s.net.tmpl[i] = some x → x.firing = some f → x.waiting = [] →
      x.inQueue = 0 → 1 ≤ x.sent →
      (x.sent ≤ x.repeats ∨ x.heartbeat = true ∧ 1 ≤ x.repeats) →
      ∃ t, exec (.templateRepeat i) s = .next t ∧
        (s.ap.sealed = false →
          (t.net.tmpl[i]).map (·.sent) = some (x.sent + 1) ∧
          ∀ p : Fin 2, t.net.port[p].txq[fin8 x.queue] = s.net.port[p].txq[fin8 x.queue] ++
            (if bitOf x.ports p.val && s.net.port[p].up && !s.edgeOut then
              [.template i.val x.tagged (x.patched s.freeCtr f x.sent)] else [])) ∧
        (s.ap.sealed = true → State.Only [.cnt, .host] s t))

/-! ### Beam (11 R310 to R316) -/

/-- A Beam frame that no class takes in, or that fails a check of 11 R311 (reserved fields included), is discarded and
counted. BEAM_DATA (beamData) and BEAM_CONTROL (beamControl) in sequence are taken and acknowledged with an ACK frame in
the queue of the peer's port, and the expected SEQ goes on; out of sequence they are discarded and counted, an earlier
one with an ACK frame at once (11 R314). A whole message in one frame within the credit, when the bucket grants its
bytes, stands in the HBM window and uses its units, which come back (11 R313). WINDOW_OPEN and the receiver's
WINDOW_CLOSE make the send windows to it usable or not (11 R312). Both rows complete in every state. -/
def Obligations.BeamFramesInSequence : Prop :=
  (∀ (port : Fin 2) (eth : Eth) (hdr pl : List Byte) (m : BeamCtl) (s : State),
    (∃ t, exec (.beamData port eth hdr pl) s = .next t ∧ State.Only [.freeCtr, .out, .upsets, .mem, .poison,
      .wbQueue, .cnt, .facets, .hbm, .dma, .img, .net, .beam, .host, .jnl, .err] s t) ∧
    (∃ t, exec (.beamControl port eth hdr m) s = .next t ∧ State.Only [.out, .mem, .cnt, .facets, .sched, .dma,
      .net, .beam, .host, .jnl] s t) ∧
    (s.portHears port = false →
      exec (.beamData port eth hdr pl) s = .next s ∧ exec (.beamControl port eth hdr m) s = .next s) ∧
    (s.portHears port = true → s.beamClass port eth = false →
      exec (.beamData port eth hdr pl) s = .next (s.count (srcPort port) nDiscard 1) ∧
      exec (.beamControl port eth hdr m) s = .next (s.count (srcPort port) nDiscard 1)) ∧
    (s.portHears port = true → s.beamClass port eth = true →
      let bad := (s.count (srcPort port) nRx 1).beamDiscard port (beamHdrOf hdr)
      (s.beamOk 0 hdr = false ∨ pl.length ≠ (beamHdrOf hdr).plen →
        exec (.beamData port eth hdr pl) s = .next bad) ∧
      (s.beamOk 3 hdr = false → exec (.beamControl port eth hdr m) s = .next bad))) ∧
  ∀ (port : Fin 2) (eth : Eth) (hdr : List Byte) (p : Peer) (s : State),
    let h := beamHdrOf hdr
    s.portHears port = true → s.beamClass port eth = true → s.beam.peer h.src = some p → p.up = true →
    SMap.wf 0 s.cnt = true →
    let taken (t : State) : Prop := (t.beam.peer h.src).map (·.rxSeq) = some ((p.rxSeq + 1) % 4294967296)
    let ack (seq flags : Nat) (t : State) : Prop := s.portHears (fin2 p.port) = true →
      Frame.beam p.index p.mac ⟨1, 1, flags, s.beam.index, p.index, h.window, 0, seq, 0, 0, 0, 0⟩ [] none ∈
        t.net.port[fin2 p.port].txq[6]
    let left (t : State) : Prop := (t.beam.peer h.src).map (·.rxSeq) = some p.rxSeq ∧
      t.cnt.get (ctrKey srcBeam (bCtr h.src 5)) = s.cnt.get (ctrKey srcBeam (bCtr h.src 5)) + 1 ∧
      (seqBefore h.seq p.rxSeq = true → ack p.rxSeq 0 t)
    (∀ pl : List Byte, s.beamOk 0 hdr = true → pl.length = h.plen →
      (h.seq ≠ p.rxSeq → ∃ t, exec (.beamData port eth hdr pl) s = .next t ∧ left t ∧ t.beam.rx = s.beam.rx ∧
        State.Only [.out, .mem, .cnt, .dma, .net, .beam, .host, .jnl] s t) ∧
      (h.seq = p.rxSeq → ∃ t, exec (.beamData port eth hdr pl) s = .next t ∧ taken t ∧
        (ack ((p.rxSeq + 1) % 4294967296) 0 t ∨ ack ((p.rxSeq + 1) % 4294967296) 4 t) ∧
        (∀ base size granted used returned, bitOf h.flags 0 = true → bitOf h.flags 1 = true → h.frag = 0 →
          h.len = h.plen → s.hbm.stalled = [] → s.grants .beam h.plen 3 →
          s.beam.rx[fin16 h.window] = some ⟨h.src, .hbm base size, granted, used, returned, none⟩ →
          used + creditUnits h.len ≤ granted → h.off + h.len ≤ size →
          (t.beam.rx[fin16 h.window]).map (fun x => (x.used, x.returned, x.msg)) =
            some (used + creditUnits h.len, returned + creditUnits h.len, none) ∧
          ack ((p.rxSeq + 1) % 4294967296) 0 t ∧
          (placeOf (base + h.off) = .hbm → s.hbmWritable (base + h.off) h.plen = true → s.clean →
            s.hbm.poison = [] → Memory.wf s.mem = true →
            (∀ i, i < h.plen → ¬ s.recordByte (base + h.off + i)) → t.readB (base + h.off) h.plen = pl)))) ∧
    (∀ m : BeamCtl, s.beamOk 3 hdr = true →
      (h.seq ≠ p.rxSeq → ∃ t, exec (.beamControl port eth hdr m) s = .next t ∧ left t ∧ t.beam.tx = s.beam.tx ∧
        t.beam.remote = s.beam.remote ∧ State.Only [.out, .mem, .cnt, .dma, .net, .beam, .host, .jnl] s t) ∧
      (h.seq = p.rxSeq → ∃ t, exec (.beamControl port eth hdr m) s = .next t ∧ taken t ∧
        ack ((p.rxSeq + 1) % 4294967296) 0 t ∧
        (∀ w size, m = .windowOpen w size → (h.src, w, size) ∈ t.beam.remote ∧
          ∀ (i : Fin 16) (x : TxWin), s.beam.tx[i] = some x → x.peer = h.src → x.window = w →
            t.beam.tx[i] = some { x with usable := true, size := size, used := 0, granted := 0 }) ∧
        (∀ w, m = .windowClose w true → (∀ r ∈ t.beam.remote, (r.1, r.2.1) ≠ (h.src, w)) ∧
          ∀ (i : Fin 16) (x : TxWin), s.beam.tx[i] = some x → x.peer = h.src → x.window = w →
            t.beam.tx[i] = some { x with usable := false })))

/-- BEAM_ACK (beamAck) ends the frames before ACK and RTO goes back to 100 µs; BEAM_CREDIT (beamCredit) gives a send
window its cumulative units, the 32 bits of its frame counted on past their wrap (11 R311, R313, R314). BEAM_HELLO
(beamHello) with a current epoch brings a LOST peer up with both counters at 0, one with the peer's own epoch changes
nothing else, one with a later epoch begins that epoch (11 R310, R314). HELLO_TIMER (helloTimer) queues a HELLO to every
peer and renews the grants of the receive windows (11 R310, R313). RETRANSMIT (retransmit) doubles RTO up to 3,200 µs
and keeps the frames; after 8 expiries the peer is LOST (11 R314). GLOBAL_TIMEOUT (globalTimeout) ends a BARRIER or
BROADCAST that is not complete in time (11 R316). Every row completes in every state. -/
def Obligations.BeamKeepsPeers : Prop :=
  (∀ (port : Fin 2) (eth : Eth) (hdr : List Byte) (i : Byte) (kind : Fin 2) (s : State),
    (∃ t, exec (.beamAck port eth hdr) s = .next t ∧ State.Only [.out, .mem, .cnt, .dma, .net, .beam, .host,
      .jnl] s t) ∧
    (∃ t, exec (.beamCredit port eth hdr) s = .next t ∧ State.Only [.out, .mem, .cnt, .dma, .net, .beam, .host,
      .jnl] s t) ∧
    (∃ t, exec (.beamHello port eth hdr) s = .next t ∧ State.Only [.out, .mem, .cnt, .facets, .dma, .net, .beam,
      .host, .jnl] s t) ∧
    (∃ t, exec (.retransmit i) s = .next t ∧ State.Only [.out, .mem, .cnt, .facets, .dma, .net, .beam, .host,
      .jnl] s t) ∧
    (∃ t, exec (.globalTimeout kind) s = .next t ∧ State.Only [.out, .mem, .cnt, .tk, .hbm, .beam, .host, .jnl,
      .idle] s t)) ∧
  (∀ (port : Fin 2) (eth : Eth) (hdr : List Byte) (p : Peer) (s : State),
    let h := beamHdrOf hdr
    s.portHears port = true → s.beamClass port eth = true → s.beam.peer h.src = some p →
    (s.beamOk 1 hdr = true → p.waiting = [] → p.unacked.any (fun f => seqBefore f.hdr.seq h.ack) = true →
      ∃ t, exec (.beamAck port eth hdr) s = .next t ∧ t.beam.peer h.src = some { p with
          unacked := p.unacked.filter (fun f => !seqBefore f.hdr.seq h.ack), rtoUs := 100, expiries := 0 }) ∧
    (s.beamOk 2 hdr = true → ∃ t, exec (.beamCredit port eth hdr) s = .next t ∧
      (∀ (i : Fin 16) (x : TxWin), s.beam.tx[i] = some x → t.beam.tx[i] = some (
        if x.peer = h.src ∧ x.window = h.window then { x with granted := unwrap32 x.granted h.off } else x))) ∧
    (s.beamOk 4 hdr = true →
      (p.up = false → seqBefore h.off p.epoch = false → p.waiting = [] →
        ∃ t, exec (.beamHello port eth hdr) s = .next t ∧
          (t.beam.peer h.src).map (fun q => (q.up, q.epoch, q.txSeq, q.rxSeq, q.unacked)) =
            some (true, h.off, 0, 0, p.unacked) ∧
          State.Only [.out, .mem, .cnt, .net, .beam, .host] s t ∧ State.Told (fun _ => False) s t) ∧
      (p.up = true → h.off = p.epoch → p.unacked = [] →
        exec (.beamHello port eth hdr) s = .next (s.count (srcPort port) nRx 1)) ∧
      (p.up = true → seqBefore p.epoch h.off = true → ∃ t, exec (.beamHello port eth hdr) s = .next t ∧
        (t.beam.peer h.src).map (fun q => (q.up, q.epoch, q.txSeq, q.rxSeq, q.unacked)) =
          some (true, h.off, 0, 0, [])))) ∧
  (∀ s : State,
    (∃ t, exec .helloTimer s = .next t ∧ t.beam.peers = s.beam.peers ∧
      (∀ p ∈ s.beam.peers, s.beam.peer p.index = some p → s.portHears (fin2 p.port) = true →
        Frame.beam p.index p.mac ⟨1, 4, 0, s.beam.index, p.index, 0, 0, p.rxSeq, p.epoch, 0, 0, 0⟩ [] none ∈
          t.net.port[fin2 p.port].txq[6]) ∧
      (∀ (w : Fin 16) (x : RxWin), s.beam.rx[w] = some x →
        t.beam.rx[w] = some { x with granted := s.grantOf x }) ∧
      State.Only [.cnt, .net, .beam] s t) ∧
    (∀ (i : Byte) (p : Peer), s.beam.peer i.toNat = some p →
      (p.up = false ∨ p.unacked = [] → exec (.retransmit i) s = .next s) ∧
      (p.up = true → p.unacked ≠ [] → p.expiries < 7 →
        ∃ t, exec (.retransmit i) s = .next t ∧ t.beam.peer i.toNat = some { p with
            expiries := p.expiries + 1, rtoUs := min 3200 (2 * p.rtoUs) } ∧
          State.Only [.cnt, .net, .beam] s t) ∧
      (p.up = true → p.unacked ≠ [] → 7 ≤ p.expiries → ∃ t, exec (.retransmit i) s = .next t ∧
        (t.beam.peer i.toNat).map (fun q => (q.up, q.epoch, q.unacked, q.waiting)) =
          some (false, (p.epoch + 1) % 4294967296, [], []))) ∧
    (∀ (kind : Fin 2) (op : GlobalOp), s.beam.ops.find? (fun o => o.kind == kind.val && o.deadline != 0) = some op →
      ∃ t, exec (.globalTimeout kind) s = .next t ∧ t.tk.now = max s.tk.now op.deadline % 2 ^ 64 ∧
        (∀ o ∈ t.beam.ops, (o.kind, o.opId) ≠ (op.kind, op.opId))))

/-! ### Host commands (12 R334 to R342) -/

/-- Every host command that the ring has room for is taken at once when the ring holds no other: one that fails a check
of 12 R337 is counted and reported with SUBMITTED_INDEX all ones, and the expected sequence stays; one that passes
begins, and taking it ends the device's idleness (15 R433). The descriptor's 64 bytes give the command back (12 R334,
R341). While the device serves no descriptor the command waits in its slot (12 R335, R338), and without a ring in use
that has room nothing is submitted. Each of the forty-one rows of `hostDesc` completes in every state. -/
def Obligations.HostCommandsTaken : Prop :=
  ∀ (c : Instr) (d : Desc) (s : State), hostDesc c = some d →
    descOf (descBytes d) = some d ∧
    (∃ t, exec c s = .next t) ∧
    (s.canSubmit = false → exec c s = .next s) ∧
    (s.canSubmit = true → s.serving = false → exec c s = .next ((s.writeSlot s.host.cmdPut (descBytes d)).updHost
      (fun h => { h with cmdPut := (h.cmdPut + 1) % s.cmdEntries }))) ∧
    (s.Open → (s.offered d).refuseDesc d (descBytes d) = 0 →
      exec c s = .next ((s.admitted d).beginCmd (s.accepted d))) ∧
    (∀ st, s.Open → (s.offered d).refuseDesc d (descBytes d) = st → st ≠ 0 →
      ∃ t, exec c s = .next t ∧ t.host.expSeq = s.host.expSeq ∧ t.host.fg = s.host.fg ∧ t.host.bg = s.host.bg ∧
        t.idleNs = 0 ∧
        t = ((s.offered d).count srcHost 1 1).event 0x0001 srcHost (st * 65536)
          (leBytes 4 d.seq.toNat ++ leBytes 2 (cmdOpcode d.cmd) ++ leBytes 2 st ++ leBytes 8 (2 ^ 64 - 1) ++
            fitBytes 16 (if st = 2 then (s.host.expSeq.map (fun e => leBytes 4 e.toNat)).getD [] else [])) ∧
        State.Only [.out, .mem, .cnt, .host, .idle] s t)

/-- A command that ends leaves its place in the foreground or the background, is journalled with its status and the
first 16 bytes of its digest, and CMD_DONE carries the entry's index (12 R339, R340, R353). JOURNAL_MIRROR_COPY
(journalMirrorCopy) copies the entries not yet in the mirror to the end of HBM, each to the slot of its index, while HBM
is ready; without a mirror nothing is copied (12 R355). The row completes in every state. -/
def Obligations.CommandsJournalled : Prop :=
  (∀ (a : Accepted) (st : Nat) (result extra : List Byte) (s : State),
    let t := s.completeLater a st result extra
    let j := s.jnl.head
    let e := journalBase + j % 16384 * 64
    t.jnl.head = j + 1 ∧ (∀ b ∈ t.host.bg, b.desc.seq ≠ a.desc.seq) ∧
    (∀ b, t.host.fg = some b → b.desc.seq ≠ a.desc.seq) ∧ t.host.deferred = s.host.deferred ∧
    (∃ u : State, u.jnl = t.jnl ∧ u.host.evtPut = s.host.evtPut ∧
      (Memory.wf s.mem = true → u.readLe e 8 = j % 2 ^ 64 ∧ u.readLe (e + 16) 4 = a.desc.seq.toNat ∧
        u.readLe (e + 20) 2 = cmdOpcode a.desc.cmd ∧ u.readLe (e + 22) 2 = st % 2 ^ 16 ∧
        u.readB (e + 32) 16 = (sha384 (a.bytes ++ extra)).take 16) ∧
      t = u.event 0x0001 srcHost (st * 65536) (leBytes 4 a.desc.seq.toNat ++ leBytes 2 (cmdOpcode a.desc.cmd) ++
        leBytes 2 st ++ leBytes 8 j ++ fitBytes 16 result)) ∧
    State.Only [.out, .mem, .cnt, .host, .jnl] s t) ∧
  (∀ s : State, ∃ t, exec .journalMirrorCopy s = .next t ∧ t.jnl.head = s.jnl.head ∧
    t.jnl = { s.jnl with mirrorNext := t.jnl.mirrorNext } ∧
    (s.jnl.mirrorJ = 0 ∨ s.isReady 4 = false → t = { s with jnl := { s.jnl with
      mirrorNext := max s.jnl.mirrorNext s.jnl.ringFrom } }) ∧
    (∀ j, 1 ≤ j → j ≤ 16 → s.jnl.mirrorJ = j → s.isReady 4 = true → s.jnl.mirrorNext ≤ s.jnl.head →
      s.jnl.ringFrom ≤ s.jnl.head → s.jnl.head ≤ s.jnl.ringFrom + 16384 →
      let size := j * 0x4000000
      let from_ := max s.jnl.mirrorNext s.jnl.ringFrom
      t.jnl.mirrorNext = s.jnl.head ∧ t.hbm.ctlBucket = s.hbm.ctlBucket - 64 * (s.jnl.head - from_) ∧
      (s.clean → s.hbm.poison = [] → Memory.wf s.mem = true → ∀ i, from_ ≤ i → i < s.jnl.head →
        t.readB (hbmSize - size + i % (size / 64) * 64) 64 = s.readB (journalBase + i % 16384 * 64) 64)) ∧
    State.Only [.upsets, .mem, .poison, .wbQueue, .cnt, .hbm, .jnl] s t)

/-- SET_PARAMS with an inline set of the control side (12 R342): DMA_CHAIN (dmaChain) starts a host channel,
JOURNAL_MIRROR (journalMirror) sizes the mirror, EVENT_DATA (eventData) places the data ring, PORT (port) and PTP (ptp)
set the ports and the clock, EVENT_TIMER (eventTimer) a channel of the timer, BEAM_SYSTEM (beamSystem) the tree; pending
global operations go on (11 R316). Each row, when its set is in range, completes with status 0; DMA_CHAIN while Edge is
isolated with 0x0800 (01 R17; the status is the model's choice, log 115). -/
def Obligations.ControlParameterSets : Prop :=
  ∀ (flags : Half) (seq : Word) (len : Half) (inl : List Byte) (s : State), bitOf flags.toNat 0 = false →
    let b := (fitBytes 48 inl).take len.toNat
    let d (set : Half) : Desc := ⟨.setParams set len (fitBytes 48 inl), flags, seq⟩
    let ends (c : Instr) (set : Half) (v : State) : Prop :=
      exec c s = .next (v.completeLater (s.accepted (d set)) 0 [] [])
    (let u := s.begun (d 1)
     let c := fin8 (byteAt b 0)
     s.Takes (d 1) → len = 16 → (byteAt b 0 = 6 ∨ byteAt b 0 = 7) → allZero ((b.drop 1).take 7) = true →
      (s.engineOut 4 = true →
        exec (.dmaChain flags seq len inl) s = .next (u.completeLater (s.accepted (d 1)) 0x0800 [] [])) ∧
      (s.engineOut 4 = false → ((s.chan 4 c).phase = .idle ∨ (s.chan 4 c).phase = .halted) →
      ends (.dmaChain flags seq len inl) 1 (u.updChan 4 c (fun x => { Channel.reset with
        phase := .fetching, at_ := .mem (fieldLe b 8 8), latch := x.latch, seq := x.seq })))) ∧
    (let u := s.begun (d 2)
     let j := byteAt b 0
     s.Takes (d 2) → len = 8 → j ≤ 16 → allZero (b.drop 1) = true →
      (∀ im, s.sched.active = some im ∨ s.sched.staged = some im →
        ∀ p ∈ im.parts, p.base + p.size ≤ hbmSize - j * 0x4000000) →
      ends (.journalMirror flags seq len inl) 2 (if j = s.jnl.mirrorJ then u
        else { u with jnl := { u.jnl with mirrorJ := j, mirrorFrom := u.jnl.head, mirrorNext := u.jnl.head } })) ∧
    (let u := s.begun (d 3)
     s.Takes (d 3) → len = 16 → allZero (b.drop 12) = true → fieldLe b 8 4 % 4096 = 0 → fieldLe b 0 8 % 4096 = 0 →
      (fieldLe b 8 4 ≠ 0 → hostBase ≤ fieldLe b 0 8 ∧ fieldLe b 0 8 + fieldLe b 8 4 ≤ 0x1000000000000) →
      ends (.eventData flags seq len inl) 3 { u with host := { u.host with
        dataBase := fieldLe b 0 8, dataSize := fieldLe b 8 4, dataPos := 0, dataUsed := [] } }) ∧
    (let u := s.begun (d 0x20)
     s.Takes (d 0x20) → len = 8 → byteAt b 0 ≤ 1 → byteAt b 1 ≤ 2 → (fieldLe b 2 2 ≤ 4094 ∨ fieldLe b 2 2 = 0xFFF) →
      allZero ((b.drop 4).take 4) = true →
      ends (.port flags seq len inl) 0x20 (u.updPort (fin2 (byteAt b 0)) (fun x => { x with
        mode := byteAt b 1, vid := fieldLe b 2 2 }))) ∧
    (let u := s.begun (d 0x21)
     s.Takes (d 0x21) → len = 8 → byteAt b 1 ≤ 1 → 1 ≤ fieldLe b 2 2 → fieldLe b 2 2 ≤ 3600 →
      allZero ((b.drop 4).take 4) = true →
      ends (.ptp flags seq len inl) 0x21 (u.updPtp (fun p => { p with
        domain := byteAt b 0, oneStep := byteAt b 1 == 1, limit := fieldLe b 2 2 }))) ∧
    (let u := s.begun (d 0x22)
     s.Takes (d 0x22) → len = 24 → (s.setEtSet b).1 = 0 →
      ends (.eventTimer flags seq len inl) 0x22 (u.setEt (fin8 (byteAt b 0))
        ⟨byteAt b 1, byteAt b 2, fieldLe b 4 4, fieldLe b 8 8, fieldLe b 0x10 8, 0, none⟩)) ∧
    (let u := s.begun (d 0x23)
     s.Takes (d 0x23) → setLength 0x23 b = some len.toNat → (s.setBeamSystem b).1 = 0 →
      ∃ v, ends (.beamSystem flags seq len inl) 0x23 v ∧ v.beam.n = fieldLe b 0 2 ∧ v.beam.index = byteAt b 2 ∧
        v.beam.ops = s.beam.ops ∧ v.beam.remote = [] ∧ v.beam.peers.length = fieldLe b 8 2 ∧
        (∀ p ∈ v.beam.peers, p.up = false ∧ p.unacked = [] ∧ p.txSeq = 0 ∧ p.rxSeq = 0) ∧
        v.net.port[0].beamQueue = byteAt b 6 ∧ v.net.port[1].beamQueue = byteAt b 7 ∧
        State.Only [.out, .mem, .cnt, .net, .beam, .host] u v ∧ State.Told (fun _ => False) u v)

/-- SET_PARAMS with an inline set of the waveform inputs (10 R292), stated where no triggered sample waits to be held:
ANALOG_REF (analogRef) switches the reference, WAVE_PERIOD (wavePeriod) takes a period for the next block boundary,
WAVE_CAL (waveCal) corrections for each input of its mask, OPEN_WIRE (openWire) begins a test. SET_SENSOR (setSensor)
queues a parameter set for its planned frame, which RESULT carries, and an analog gain given in HDR is kept (09 R228,
R230 to R232). Each row, when its set is in range, completes with status 0; while the region that it is work for is
isolated, with 0x0800 (01 R17; the status is the model's choice, log 115). -/
def Obligations.InputParameterSets : Prop :=
  ∀ (flags : Half) (seq : Word) (len : Half) (inl : List Byte) (s : State), bitOf flags.toNat 0 = false →
    (∀ k : Fin 16, s.wav.conv[k].pend = []) →
    let b := (fitBytes 48 inl).take len.toNat
    let d (set : Half) : Desc := ⟨.setParams set len (fitBytes 48 inl), flags, seq⟩
    let ends (c : Instr) (set : Half) (v : State) : Prop :=
      exec c s = .next (v.completeLater (s.accepted (d set)) 0 [] [])
    (let u := s.begun (d 0x10)
     s.Takes (d 0x10) → len = 8 → allZero ((b.drop 1).take 7) = true →
      (byteAt b 0 = 1 → ends (.analogRef flags seq len inl) 0x10 (if s.wav.refOn then u
        else { u with wav := { u.wav with refOn := true, refSince := s.tk.now, refFault := false, refReady := false } })) ∧
      (byteAt b 0 = 0 → s.convRunning = false → ends (.analogRef flags seq len inl) 0x10 { u with
        wav := { u.wav with refOn := false, refFault := false, refReady := false }
        ready := u.ready &&& ~~~ (BitVec.ofNat 19 (2 ^ 10)) &&& ~~~ (BitVec.ofNat 19 (2 ^ 11)) })) ∧
    (let u := s.begun (d 0x11)
     ∀ c, s.Takes (d 0x11) → s.analogOut = false → len = 8 → s.wav.cfg = some c → c.source = 0 → 128000 ≤ fieldLe b 0 4 →
      (∀ k, k < 16 → fieldLe b 0 4 * (c.ent k).div < 2 ^ 32) →
      allZero ((b.drop 4).take 4) = true →
      ends (.wavePeriod flags seq len inl) 0x11 { u with wav := { u.wav with nextPeriod := some (fieldLe b 0 4) } }) ∧
    (let u := s.begun (d 0x12)
     let is := maskInputs (fieldLe b 0 8)
     s.Takes (d 0x12) → s.analogOut = false → len.toNat = waveCalLen b → s.wav.cfg ≠ none →
      (∀ j, j < is.length → -131072 ≤ fieldI32 b (8 + 8 * j) ∧ fieldI32 b (8 + 8 * j) ≤ 131071 ∧
        fieldLe b (12 + 8 * j) 4 ≤ 0xFFFFFF) →
      ∃ v, ends (.waveCal flags seq len inl) 0x12 v ∧ State.Only [.wav] u v ∧ v.wav.conv = s.wav.conv ∧
        (∀ j (i : Fin 64), is[j]? = some i.val → v.wav.inputs[i] = { s.wav.inputs[i] with
          next := s.wav.inputs[i].next ++ [(fieldI32 b (8 + 8 * j), fieldLe b (12 + 8 * j) 4,
            (s.wav.conv[fin16 (i.val / 4)].idx + 255) / 256 * 256)] }) ∧
        (∀ i : Fin 64, i.val ∉ is → v.wav.inputs[i] = s.wav.inputs[i])) ∧
    (let u := s.begun (d 0x13)
     s.Takes (d 0x13) → s.analogOut = false → len = 16 → byteAt b 8 ≤ 1 → allZero ((b.drop 9).take 3) = true → s.wav.openWire = none →
      ends (.openWire flags seq len inl) 0x13 { u with wav := { u.wav with
        openWire := some ⟨fieldLe b 0 8, byteAt b 8, fieldLe b 12 4, false, s.tk.now, [], []⟩ } }) ∧
    (s.analogOut = true →
      let out (set : Half) : Host.Outcome State Fault Refusal :=
        .next ((s.begun (d set)).completeLater (s.accepted (d set)) 0x0800 [] [])
      (s.Takes (d 0x11) → exec (.wavePeriod flags seq len inl) s = out 0x11) ∧
      (s.Takes (d 0x12) → exec (.waveCal flags seq len inl) s = out 0x12) ∧
      (s.Takes (d 0x13) → exec (.openWire flags seq len inl) s = out 0x13)) ∧
    (∀ (set : List Byte) (c : ObjCfg),
      let d : Desc := ⟨.setSensor (fitBytes 32 set), flags, seq⟩
      let u := s.begun d
      let b := fitBytes 32 set
      let lead := if bitOf (fieldLe b 0x0A 2) 0 then 2 else 1
      let inTime := s.tk.now + 200000 ≤ s.tickTime (fieldLe b 0 8 - lead * c.frameTicks)
      let planned := if fieldLe b 0 8 ≠ 0 ∧ inTime then fieldLe b 0 8
        else s.earliestFrame c s.tk.now lead 4 (roundUp (s.tickOf s.tk.now + 1) c.frameTicks)
      (s.Takes d → s.err.isolated.getLsbD 4 = true →
        exec (.setSensor flags seq set) s = .next (u.completeLater (s.accepted d) 0x0800 [] [])) ∧
      (s.Takes d → s.err.isolated.getLsbD 4 = false → s.img.cfg = some c → (s.setSensorSet s.tk.now b).1 = 0 →
      exec (.setSensor flags seq set) s = .next (State.completeLater { u with img := { u.img with
        keptAgain := if c.mode = 2 && bitOf (fieldLe b 0x0A 2) 1 then some (fieldLe b 0x10 2) else s.img.keptAgain
        sets := s.img.sets ++ [⟨planned, !decide inTime, fieldLe b 0 8 == 0, fieldLe b 8 2, fieldLe b 0x0A 2,
          fieldLe b 0x0C 4, fieldLe b 0x10 2, fieldLe b 0x12 2, (List.range 4).map (fun i => fieldLe b (0x14 + 2 * i) 2),
          fieldLe b 0x1C 2⟩] } } (s.accepted d) 0 (leBytes 8 planned) [])))

/-- OPEN_WINDOW (openWindow) takes a free window for a known peer: a receive window for a region or an HBM range, which
the peer is told of, or a send window, usable once the peer has announced its end; CLOSE_WINDOW (closeWindow) frees one,
and the peer is told (11 R312). -/
def Obligations.WindowsOpenAndClose : Prop :=
  ∀ (flags : Half) (seq : Word) (w peer kind facet region : Byte) (base size : DWord) (s : State), s.beam.n ≠ 0 →
    w.toNat < 16 →
    (let d : Desc := ⟨.openWindow 0 w peer kind facet region base size, flags, seq⟩
     let g := s.facets[fin16 facet.toNat].regions[fin16 region.toNat]
     s.Takes d → s.beam.rx[fin16 w.toNat] = none → (s.beam.peer peer.toNat).isSome = true →
      (kind = 0 ∧ facet.toNat < 16 ∧ region.toNat < 16 ∧ g.declared = true ∧ g.producer = 5 ∧ g.pindex = w.toNat ∨
        kind = 1 ∧ (s.begun d).rxRangeOk base.toNat size.toNat = true) →
      ∃ v, exec (.openWindow flags seq 0 w peer kind facet region base size) s =
          .next (v.completeLater (s.accepted d) 0 [] []) ∧
        (v.beam.rx[fin16 w.toNat]).map (fun x => (x.peer, x.dest, x.used, x.msg)) = some (peer.toNat,
          if kind = 0 then .region facet.toNat region.toNat else .hbm base.toNat size.toNat, 0, none) ∧
        (∀ i, i ≠ fin16 w.toNat → v.beam.rx[i] = s.beam.rx[i]) ∧ v.beam.tx = s.beam.tx ∧
        State.Only [.cnt, .net, .beam] (s.begun d) v) ∧
    (let d : Desc := ⟨.openWindow 1 w peer kind facet region base size, flags, seq⟩
     s.Takes d → s.beam.tx[fin16 w.toNat] = none → (s.beam.peer peer.toNat).isSome = true → kind.toNat ≤ 15 →
      exec (.openWindow flags seq 1 w peer kind facet region base size) s = .next (((s.begun d).setTx (fin16 w.toNat)
        (some (match s.beam.remote.find? (fun r => r.1 == peer.toNat && r.2.1 == kind.toNat) with
          | some r => ⟨peer.toNat, kind.toNat, true, r.2.2, 0, 0⟩
          | none => ⟨peer.toNat, kind.toNat, false, 0, 0, 0⟩))).completeLater (s.accepted d) 0 [] [])) ∧
    (let d : Desc := ⟨.closeWindow 0 w, flags, seq⟩
     s.Takes d → (s.beam.rx[fin16 w.toNat]).isSome = true →
      ∃ v, exec (.closeWindow flags seq 0 w) s = .next (v.completeLater (s.accepted d) 0 [] []) ∧
        v.beam.rx[fin16 w.toNat] = none ∧ v.beam.tx = s.beam.tx ∧
        State.Only [.cnt, .facets, .hbm, .net, .beam] (s.begun d) v) ∧
    (let d : Desc := ⟨.closeWindow 1 w, flags, seq⟩
     ∀ x, s.Takes d → s.beam.tx[fin16 w.toNat] = some x →
      ∃ v, exec (.closeWindow flags seq 1 w) s = .next (v.completeLater (s.accepted d) 0 [] []) ∧
        v.beam.tx = s.beam.tx.set (fin16 w.toNat) none ∧ v.beam.rx = s.beam.rx ∧
        (∀ p, s.beam.peer x.peer = some p → p.up = true → p.unacked.length < 64 → p.waiting = [] →
          (v.beam.peer x.peer).map (fun q => q.unacked.map (·.ctl)) =
            some (p.unacked.map (·.ctl) ++ [some (.windowClose x.window false)])) ∧
        (∀ e c, (s.chan e c).phase = .running → (s.chan e c).stop = none →
          (s.chan e c).desc.sendsTo x.peer (some x.window) = true → (v.chan e c).stop = some 0x0521) ∧
        State.Only [.cnt, .dma, .net, .beam] (s.begun d) v)

/-- START (start) fixes its tick at once when the image has no preload templates, else it waits for them, which are
armed in template order; it takes the place of a START that is pending (the model's choice, log 131); STOP (stop) asks
for the stop at the next edge or hyperperiod boundary and cancels a pending START (02 R60 to R62). SNAPSHOT (snapshot)
arms a snapshot (16 R463), DMA_ABORT (dmaAbort) ends a channel's descriptor with ABORTED and halts it, at once or, as
the model reads 08 R208 and R219 (log 161), when the frames of its message are acknowledged (08 R220), REGION_RESTART
(regionRestart) isolates and restarts its regions and ends with the last (16 R455). -/
def Obligations.ControlCommands : Prop :=
  ∀ (flags : Half) (seq : Word) (s : State),
    (∀ (t : DWord) (staged : Bool) (im : Image),
      let d : Desc := ⟨.start t, flags, seq⟩
      let u := s.begun d
      let tick := if t = 0 then s.firstStart im s.tk.tick else t.toNat
      s.Takes d → s.refuseStart (s.bgOf 0x01).isSome s.tk.tick t.toNat = 0 → s.startImage = some (staged, im) →
      0 < s.startStep im → (∀ p, s.sched.start = some p → p.fixed = true ∨ p.acc = none) →
      (im.preloads = [] → exec (.start flags seq t) s = .next (State.completeLater { u with sched := { u.sched with
        start := some ⟨tick, staged, [], [], false, true, some (s.accepted d)⟩ } } (s.accepted d) 0
        (leBytes 8 tick) [])) ∧
      (im.preloads ≠ [] → ∃ v p, exec (.start flags seq t) s = .next v ∧ v.sched.start = some p ∧ p.t = tick ∧
        p.fixed = false ∧ p.acc = some (s.accepted d) ∧ p.running.map (·.2) ++ p.preloads = im.preloads ∧
        State.Only [.sched, .dma] u v)) ∧
    (let d : Desc := ⟨.stop, flags, seq⟩
     let u := s.begun d
     s.Takes d → s.sched.active.isSome = true ∨ s.sched.start.isSome = true → ∃ v, exec (.stop flags seq) s = .next v ∧
      v.sched.start = none ∧
      (s.sched.active.isSome = true → v.sched.stop = some (bitOf flags.toNat 0, bitOf flags.toNat 1)) ∧
      (s.sched.start = none →
        v = (u.completeLater (s.accepted d) 0 (leBytes 8 (s.stopTick (bitOf flags.toNat 0))) []).updSched (fun x =>
          { x with stop := some (bitOf flags.toNat 0, bitOf flags.toNat 1) })) ∧
      State.Only [.out, .mem, .cnt, .sched, .host, .jnl] u v) ∧
    (∀ t : DWord,
      let d : Desc := ⟨.snapshot t, flags, seq⟩
      let u := s.begun d
      s.Takes d → s.tk.tick + 2 ≤ t.toNat → s.snapPending = false →
      exec (.snapshot flags seq t) s = .next (State.completeLater { u with err := { u.err with
        snap := some (t.toNat, 1) } } (s.accepted d) 0 (leBytes 8 t.toNat) [])) ∧
    (∀ (e c : Byte),
      let d : Desc := ⟨.dmaAbort e c, flags, seq⟩
      let u := s.begun d
      let x := s.chan (fin5 e.toNat) (fin8 c.toNat)
      s.Takes d → e.toNat ≤ 4 → c.toNat ≤ 7 →
      ∃ v st, exec (.dmaAbort flags seq e c) s = .next (v.completeLater (s.accepted d) 0 (leBytes 4 st) []) ∧
        (x.phase = .idle ∨ x.phase = .halted → st = 0 ∧ v = u) ∧
        (x.phase = .fetching ∨ x.phase = .polling → st = 0 ∧ (s.sched.start = none →
          (v.chan (fin5 e.toNat) (fin8 c.toNat)).phase = .halted)) ∧
        (x.phase = .waiting ∨ x.phase = .running ∨ (∃ h b, x.phase = .aborting h b) → st = 0x0100 ∧
          (u.mayEnd (fin5 e.toNat) (fin8 c.toNat) = true →
            (s.sched.start = none → (v.chan (fin5 e.toNat) (fin8 c.toNat)).phase = .halted) ∧
            (s.sched.start = none → (v.chan (fin5 e.toNat) (fin8 c.toNat)).seq = (x.seq + 1) % 2 ^ 32)) ∧
          (u.mayEnd (fin5 e.toNat) (fin8 c.toNat) = false →
            ∃ b, (v.chan (fin5 e.toNat) (fin8 c.toNat)).phase = .aborting true b)) ∧
        State.Only [.freeCtr, .out, .upsets, .mem, .poison, .wbQueue, .cnt, .facets, .sched, .hbm, .dma,
          .tmplStatus, .exp, .cnd, .host, .jnl] u v) ∧
    (∀ m : Half,
      let d : Desc := ⟨.regionRestart m, flags, seq⟩
      s.Takes d → m.toNat ≠ 0 → m.toNat < 128 → ∃ v, exec (.regionRestart flags seq m) s = .next v ∧
      v.host.fg = some (s.accepted d) ∧ v.err.restartWait.toNat = m.toNat ∧ v.err.restartDone = 0 ∧
      (∀ r, r < 7 → bitOf m.toNat r = true → v.err.restarting.getLsbD r = true ∧
        (s.err.restarting.getLsbD r = false → v.err.isolated.getLsbD r = true)) ∧
      State.Only [.freeCtr, .out, .upsets, .mem, .poison, .wbQueue, .cnt, .facets, .sched, .ap, .hbm, .dma,
        .tmplStatus, .exp, .cnd, .img, .wav, .net, .beam, .host, .jnl, .err, .pwr, .ready] (s.begun d) v)

/-- STATS (stats), READ_COUNTERS (readCounters), READ_JOURNAL (readJournal) and ATTEST (attest) run in the background
with what they will write (what ATTEST holds is the head of its report; READ_JOURNAL reads its entries at once), and
LOAD_SCHEDULE (loadSchedule) with its check (02 R55; 12 R339, R359; 14 R413; 16 R462, R465). Background commands end (02
R57; 12 R339; 14 R401, R413): at LOAD_SCHEDULE_CHECKED (loadScheduleChecked) an image is staged or its status is
reported; at BACKGROUND_RESULT_WRITTEN (backgroundResultWritten) and ATTEST_SIGNED (attestSigned) a result goes to its
DST, which may have come under protection since and then takes nothing (log 152: CMD_BAD_ARGS), and the command
completes with its length; at UPDATE_FIRMWARE_WRITTEN (updateFirmwareWritten) the other slot holds the image. These four
rows complete in every state. -/
def Obligations.BackgroundCommands : Prop :=
  (∀ (flags : Half) (seq : Word) (dst : DWord) (len : Word) (s : State),
    (∀ im, let d : Desc := ⟨.stats dst len, flags, seq⟩
      s.Takes d → s.sched.active = some im → (s.figures im).length ≤ len.toNat →
      (s.begun d).dstOk dst.toNat (s.figures im).length = true →
      exec (.stats flags seq dst len) s = .next (s.holding d (s.figures im) 0)) ∧
    (∀ sh, let d : Desc := ⟨.readCounters dst len, flags, seq⟩
      s.Takes d → s.err.shadow = some sh → sh.dump.length ≤ len.toNat →
      (s.begun d).dstOk dst.toNat sh.dump.length = true →
      exec (.readCounters flags seq dst len) s = .next (s.holding d sh.dump sh.tick)) ∧
    (∀ first : DWord, let d : Desc := ⟨.readJournal first len dst, flags, seq⟩
      s.Takes d → 1 ≤ len.toNat → len.toNat ≤ 65536 → s.jnl.ringFrom ≤ first.toNat →
      first.toNat + len.toNat ≤ s.jnl.head → (s.begun d).dstOk dst.toNat (64 * len.toNat) = true →
      (∀ i < len.toNat, s.plainRange (journalBase + (first.toNat + i) % 16384 * 64) 64 = true) →
      exec (.readJournal flags seq first len dst) s = .next (s.holding d ((List.range len.toNat).flatMap (fun i =>
        (s.admitted d).readB (journalBase + (first.toNat + i) % 16384 * 64) 64)) s.jnl.head)) ∧
    (∀ nonce : List Byte, let d : Desc := ⟨.attest (fitBytes 32 nonce) dst len, flags, seq⟩
      let n := 0x4300 + (s.certBytes (bitOf flags.toNat 0)).length
      s.Takes d → n ≤ len.toNat → (s.begun d).dstOk dst.toNat n = true → s.identityLost = false →
      exec (.attest flags seq nonce dst len) s = .next (s.holding d
        (s.reportHead (s.accepted d) (fitBytes 32 nonce)) 0)) ∧
    (∀ size : DWord, let d : Desc := ⟨.loadSchedule dst size, flags, seq⟩
      s.Takes d → s.loadBusy = false →
      exec (.loadSchedule flags seq dst size) s = .next (s.begun d))) ∧
  (∀ (op : Half) (ok : Bool) (s : State),
    (∃ t, exec .loadScheduleChecked s = .next t ∧ State.Only [.freeCtr, .out, .upsets, .mem, .poison, .wbQueue,
      .cnt, .sched, .hbm, .img, .host, .jnl, .err, .idle] s t) ∧
    (∃ t, exec (.backgroundResultWritten op) s = .next t ∧ State.Only [.out, .upsets, .mem, .poison, .wbQueue, .cnt,
      .hbm, .host, .jnl, .idle] s t) ∧
    (∃ t, exec .attestSigned s = .next t ∧ State.Only [.out, .upsets, .mem, .poison, .wbQueue, .cnt, .hbm, .host,
      .jnl, .idle] s t) ∧
    (∃ t, exec (.updateFirmwareWritten ok) s = .next t ∧ State.Only [.freeCtr, .out, .mem, .cnt, .host, .jnl,
      .trust, .idle] s t)) ∧
  (∀ (a : Accepted) (s : State),
    (∀ addr len : DWord, s.bgOf 0x01 = some a → a.desc.cmd = .loadSchedule addr len →
      s.imageRangeOk addr.toNat len.toNat = true →
      let w := s.readControl addr.toNat len.toNat
      let m := img0Of addr.toNat w.1
      let st := w.2.admitImage m
      exec .loadScheduleChecked s = .next (if st = 0 then
          State.completeLater { w.2 with sched := { w.2.sched with staged := some m.image } } a 0
            (leBytes 4 m.image.id ++ leBytes 4 m.image.version ++ (sha384 w.1).take 8) (sha384 w.1)
        else w.2.completeLater a st [] (sha384 w.1)).noteIdle) ∧
    (∀ (op : Half) (dst : DWord) (len : Word), s.bgOf op.toNat = some a →
      a.desc.cmd = .stats dst len ∨ a.desc.cmd = .readCounters dst len ∨ (∃ first, a.desc.cmd = .readJournal first len dst) →
      a.data ≠ [] →
      (s.dstOk dst.toNat a.data.length = false →
        exec (.backgroundResultWritten op) s = .next (s.completeLater a 0x0010 [] []).noteIdle) ∧
      (s.dstOk dst.toNat a.data.length = true → s.classPasses .status a.data.length = true → ∃ v res,
        exec (.backgroundResultWritten op) s = .next (v.completeLater a 0 res []).noteIdle ∧
        (placeOf dst.toNat = .host → Memory.wf s.mem = true → dst.toNat % 32 = 0 → a.data.length % 32 = 0 →
          a.bads = [] →
          v.readB dst.toNat a.data.length = a.data ∧
          ∀ x, x < dst.toNat ∨ dst.toNat + a.data.length ≤ x → SMap.get 0 v.mem x = SMap.get 0 s.mem x) ∧
        (∀ n, a.desc.cmd = .stats dst n → res = leBytes 4 a.data.length) ∧
        State.Only [.upsets, .mem, .poison, .wbQueue, .cnt, .hbm, .host] s v)) ∧
    (∀ (nonce : List Byte) (dst : DWord) (len : Word), s.bgOf 0x0D = some a → a.desc.cmd = .attest nonce dst len →
      let r := s.attestReport a
      s.dstOk dst.toNat r.length = true → s.classPasses .status r.length = true →
      ∃ v, exec .attestSigned s = .next (v.completeLater a 0 (leBytes 4 r.length) (sha384 r)).noteIdle ∧
        State.Only [.upsets, .mem, .poison, .wbQueue, .cnt, .hbm, .host] s v) ∧
    (∀ ok : Bool, s.trust.update = some a → ∃ v, exec (.updateFirmwareWritten ok) s = .next (v.completeLater a
        (if ok then 0 else 0x0616) (if ok then leBytes 1 (1 - s.trust.slot) else []) (sha384 a.data)).noteIdle ∧
      v.trust.update = none ∧ v.trust.pending = (if ok then some (1 - s.trust.slot) else s.trust.pending) ∧
      (ok = true → SMap.wf 0xFF s.trust.flash = true →
        v.flashBytes (slotBase (1 - s.trust.slot)) a.data.length = a.data) ∧
      State.Only [.freeCtr, .trust] s v))

/-- A container command begins with its container in check, bound to JNL_HEAD at acceptance (14 R394): ENROLL (enroll),
SET_TEMPLATE (setTemplate), CALIBRATION_LOAD (calibrationLoad), and SET_POLICY as TRANSITION (transition), FUSE_GRANT
(fuseGrant) and REVOKE_SLOT (revokeSlot). CONTAINER_CHECKED (containerChecked) refuses the oldest with the first failing
check's status, or it takes effect: a template is installed, a grant is held, a calibration waits for the next frame,
its ADC_TRIM for the next block, its tables stand in the line store, where places that do not overlap give them back
(the places are free: log 129), and READY.CAL is set (09 R244, R256; 11 R306; 14 R407, R410). ENROLL of an occupied slot
or under the write lock is refused, and begins the programming of the slot words: anchor digests, OWNER_ID with
ARTEFACTS, two zero words, the seal (14 R408). TRANSITION that its state does not permit is refused, and begins the
first of its fuse steps (14 R406). REVOKE_SLOT begins the programming of every bit of the seal word, and the slot reads
as revoked at once (14 R409). The three end with FUSE_NO_VPP where the programming conditions are unmet (13 R380). That
row completes in every state. -/
def Obligations.ContainersChecked : Prop :=
  (∀ (flags : Half) (seq : Word) (addr : DWord) (len : Word) (k : Byte) (c : Instr) (d : Desc) (s : State),
    (c, d) ∈ [(Instr.enroll flags seq addr len k, (⟨.enroll addr len k, flags, seq⟩ : Desc)),
      (.setTemplate flags seq k addr len, ⟨.setTemplate k addr len, flags, seq⟩),
      (.calibrationLoad flags seq addr len, ⟨.calibrationLoad addr len, flags, seq⟩),
      (.transition flags seq addr len, ⟨.setPolicy addr len, flags, seq⟩),
      (.fuseGrant flags seq addr len, ⟨.setPolicy addr len, flags, seq⟩),
      (.revokeSlot flags seq addr len, ⟨.setPolicy addr len, flags, seq⟩)] →
    s.Takes d → State.containerRange addr.toNat len.toNat = true →
    (k.toNat < 2 ∨ k.toNat < 32 ∧ ∀ a n x, d.cmd ≠ .enroll a n x) →
    exec c s = .next { s.begun d with trust := { s.trust with
      checks := s.trust.checks ++ [{ s.accepted d with num := s.jnl.head }] } }) ∧
  (∀ s : State, ∃ t, exec .containerChecked s = .next t ∧ (s.trust.checks = [] → t = s)) ∧
  (∀ (a : Accepted) (as : List Accepted) (s : State), s.trust.checks = a :: as → s.quiet →
    let at_ := containerAt a.desc.cmd
    let w := State.readControl { s with trust := { s.trust with checks := as } } at_.1 at_.2
    let st := w.2.checkContainer a.desc.cmd a.num w.1
    let dig := sha384 w.1
    let a' : Accepted := { a with data := dig }
    (st ≠ 0 → exec .containerChecked s = .next (w.2.completeLater a' st [] dig)) ∧
    (∀ t x n, st = 0 → a.desc.cmd = .setTemplate t x n → ∀ e, templateOf (contBody w.1) = some e →
      exec .containerChecked s = .next (State.completeLater (w.2.setTmpl (fin32 t.toNat) (some { e with
        inQueue := match s.net.tmpl[fin32 t.toNat] with | some o => o.inQueue | none => 0 })) a' 0 [] dig)) ∧
    (∀ x n, st = 0 → a.desc.cmd = .setPolicy x n → polOp (contBody w.1) = 2 →
      exec .containerChecked s = .next (State.completeLater { w.2 with trust := { w.2.trust with
        grant := polArg (contBody w.1) } } a' 0 [] dig)) ∧
    (∀ x n k, st = 0 → a.desc.cmd = .enroll x n k →
      let ws := slotWords (enrollAnchor (contBody w.1)) (fieldLe (contBody w.1) 4 4) (fieldLe (contBody w.1) 8 2)
      let e : Accepted := { a' with num := packWords ws }
      let ps := s.fuse.needed ((List.range 16).flatMap (fun i => s.fuse.wordBits (96 + 16 * k.toNat + i)
        ((ws ++ [sealWord ws (16 * k.toNat + 3)]).getD i 0)))
      (s.slotState k.toNat ≠ 0 ∨ s.writeLocked 3 = true →
        exec .containerChecked s = .next (w.2.completeLater a' 0x0614 [] dig)) ∧
      (s.slotState k.toNat = 0 → s.writeLocked 3 = false → s.fuse.op = none →
        (s.fuseReady s.fuse.vpp = false → exec .containerChecked s = .next (w.2.completeLater e 0x0604 [] dig)) ∧
        (s.fuseReady s.fuse.vpp = true → ps ≠ [] → exec .containerChecked s = .next { w.2 with fuse := { s.fuse with
          op := some ⟨.enroll e k.toNat, ps, [], s.fuse.vpp, 0, false⟩ } }))) ∧
    (∀ x n, st = 0 → a.desc.cmd = .setPolicy x n → polOp (contBody w.1) = 1 →
      let target := polArg (contBody w.1)
      (s.transitionOk target = false → exec .containerChecked s = .next (w.2.completeLater a' 0x0615 [] dig)) ∧
      (s.transitionOk target = true → s.fuse.op = none →
        (s.fuseReady s.fuse.vpp = false → exec .containerChecked s = .next (w.2.completeLater a' 0x0604 [] dig)) ∧
        (∀ p ps, s.fuseReady s.fuse.vpp = true → s.fuse.transitionSteps s.lifecycle target = p :: ps →
          s.fuse.needed p ≠ [] → exec .containerChecked s = .next { w.2 with fuse := { s.fuse with
            op := some ⟨.transition a' target, s.fuse.needed p, ps, s.fuse.vpp, 0, false⟩ } }))) ∧
    (∀ x n, st = 0 → a.desc.cmd = .setPolicy x n → polOp (contBody w.1) = 3 →
      let k := polArg (contBody w.1)
      let ps := s.fuse.needed (s.fuse.wordBits (96 + 16 * k + 15) (2 ^ 64 - 1))
      (s.fuseReady s.fuse.vpp = false → exec .containerChecked s = .next (w.2.completeLater a' 0x0604 [] dig)) ∧
      (s.fuseReady s.fuse.vpp = true → s.fuse.op = none → ps ≠ [] →
        exec .containerChecked s = .next { w.2 with fuse := { s.fuse with
          op := some ⟨.revoke a' k, ps, [], s.fuse.vpp, 0, false⟩, slotSt := s.fuse.slotSt.set k 3 } })) ∧
    (∀ x n, st = 0 → a.desc.cmd = .calibrationLoad x n → calItemsOk (contBody w.1) = true →
      ∃ v, exec .containerChecked s = .next (v.completeLater a' 0 [] dig) ∧
        v.img = { w.2.img with calNext := some (imgCalOf (contBody w.1)) } ∧
        v.wav = (match calItem (contBody w.1) 0x10 with
          | some it => { w.2.wav with trimNext := some it }
          | none => w.2.wav) ∧
        v.trust = { w.2.trust with calDigest := some (sha384 (contBody w.1)) } ∧
        v.ready = w.2.ready ||| BitVec.ofNat 19 (2 ^ 18) ∧
        (Memory.wf w.2.mem = true → ∀ x, x < lineBase ∨ lineBase + 0x100000 ≤ x →
          SMap.get 0 v.mem x = SMap.get 0 w.2.mem x) ∧
        (let place (id : Nat) (it : List Byte) : Nat := lineBase + Config.calPlace id * 32 % (0x100001 - it.length)
         Memory.wf w.2.mem = true → (∀ i ∈ [1, 2, 3, 4, 5, 6], ∀ j ∈ [1, 2, 3, 4, 5, 6], ∀ it jt, i ≠ j →
            calItem (contBody w.1) i = some it → calItem (contBody w.1) j = some jt →
            place i it + it.length ≤ place j jt ∨ place j jt + jt.length ≤ place i it) →
          ∀ i ∈ [1, 2, 3, 4, 5, 6], ∀ it, calItem (contBody w.1) i = some it →
            v.readB (place i it) it.length = it) ∧
        State.Only [.upsets, .mem, .poison, .wbQueue, .cnt, .hbm, .img, .wav, .trust, .ready] w.2 v))

/-- FUSE_PROGRAM (fuseProgram), FUSE_SEAL (fuseSeal) and FUSE_LOCK (fuseLock) with a grant, their checks and the
conditions met and bits left to program, begin their pulses; a lock that is set already completes without a pulse, once
the conditions hold, and where they do not FUSE_LOCK ends with FUSE_NO_VPP (13 R380 to R383; 14 R407; that the
conditions come first there too: log 139). UPDATE_FIRMWARE (updateFirmware) of an image that passes its checks erases
the other slot and begins its write (14 R401); ACTIVATE_FIRMWARE (activateFirmware) of the slot that waits fixes its
tick (14 R402). -/
def Obligations.FuseAndFirmwareCommands : Prop :=
  ∀ (flags : Half) (seq : Word) (r : Byte) (s : State),
    (s.granted r.toNat = true → s.fuse.op = none →
      (∀ (w src : Byte) (bits : DWord),
        let d : Desc := ⟨.fuseProgram r w src bits, flags, seq⟩
        let ps := s.fuse.needed (if isDoubled r.toNat then s.fuse.logicalBits r.toNat w.toNat bits.toNat
          else s.fuse.wordBits (32 * r.toNat + w.toNat) bits.toNat)
        s.Takes d → src.toNat ≤ 1 → programArgsOk r.toNat w.toNat bits.toNat = true → s.writeLocked r.toNat = false →
        s.regionState r.toNat ≠ 2 → s.fuseReady (src == 0) = true → ps ≠ [] →
        exec (.fuseProgram flags seq r w src bits) s = .next { s.begun d with fuse := { s.fuse with
          op := some ⟨.program (s.accepted d), ps, [], src == 0, 0, false⟩ } }) ∧
      (let d : Desc := ⟨.fuseSeal r, flags, seq⟩
       let ps := s.fuse.needed (s.fuse.wordBits (32 * r.toNat + 31) (s.freshSeal r.toNat))
       s.Takes d → sealable r.toNat = true → s.writeLocked r.toNat = false → s.regionState r.toNat ≤ 1 →
        s.freshMarginal r.toNat = false → s.fuseReady s.fuse.vpp = true → ps ≠ [] →
        exec (.fuseSeal flags seq r) s = .next { s.begun d with fuse := { s.fuse with
          op := some ⟨.seal (s.accepted d) r.toNat, ps, [], s.fuse.vpp, 0, false⟩ } }) ∧
      (∀ kind : Byte,
        let d : Desc := ⟨.fuseLock r kind, flags, seq⟩
        let b := if kind = 0 then r.toNat else 16 + r.toNat
        let ps := s.fuse.needed (s.fuse.logicalBits 0 1 (2 ^ b))
        s.Takes d → lockable r.toNat kind.toNat = true →
        (kind = 0 → bitOf flags.toNat 0 = false → s.lockState r.toNat = true) →
        (bitOf (s.shadowWord 1) b = false → s.fuseReady s.fuse.vpp = true → ps ≠ [] →
          exec (.fuseLock flags seq r kind) s = .next { s.begun d with fuse := { s.fuse with
            op := some ⟨.lock (s.accepted d), ps, [], s.fuse.vpp, 0, false⟩ } }) ∧
        (bitOf (s.shadowWord 1) b = true → s.fuseReady s.fuse.vpp = true →
          ∃ v, exec (.fuseLock flags seq r kind) s = .next (v.completeLater (s.accepted d) 0 [] []) ∧
            (∀ p, v.fuse.isFirm p = s.fuse.isFirm p) ∧ State.Only [.out, .mem, .cnt, .sched, .host, .jnl, .fuse]
              (s.begun d) v) ∧
        (s.fuseReady s.fuse.vpp = false →
          exec (.fuseLock flags seq r kind) s = .next ((s.begun d).completeLater (s.accepted d) 0x0604 [] [])))) ∧
    (∀ (addr : DWord) (len : Word),
      let d : Desc := ⟨.updateFirmware addr len, flags, seq⟩
      let w := (s.begun d).readControl addr.toNat len.toNat
      s.Takes d → State.containerRange addr.toNat len.toNat = true → len.toNat = 0x4400 + fwLen w.1 →
      w.2.checkFirmware w.1 = 0 →
      exec (.updateFirmware flags seq addr len) s = .next { w.2 with trust := { w.2.trust with
        flash := w.2.trust.flash.filter (fun p => p.1 / 0x400000 != 1 - s.trust.slot)
        update := some { s.accepted d with data := w.1 }, pending := none } }) ∧
    (let d : Desc := ⟨.activateFirmware r, flags, seq⟩
     let u := s.begun d
     let t := match s.runningImage with
       | some im => roundUp (s.tk.tick + 2) im.h
       | none => s.tk.tick + 2
     s.Takes d → r.toNat ≤ 1 → s.trust.pending = some r.toNat → s.pwr.shed = 0 →
      exec (.activateFirmware flags seq r) s = .next (State.completeLater { u with trust := { u.trust with
        activate := some (s.accepted d, r.toNat, some t) } } (s.accepted d) 0 (leBytes 8 t) []))

/-- FUSE_PROGRAMMING_DONE (fuseProgrammingDone) of the operation in progress (13 R380, R384; 14 R406): the bits that
verified are firm, no other bit is, and the array is judged again. After the last step, or with a bit that did not
verify, the operation is over and its command completes; else the next step's bits are programmed. An operation whose
conditions have failed ends after the bits listed, and those alone have outcomes. A device found RETIRED holds no staged
image. The row completes in every state; without an operation nothing changes but what waits for one (02 R61; 12 R339).
-/
def Obligations.FuseProgrammingEnds : Prop :=
  (∀ (outs : List (Nat × Nat)) (s : State), ∃ t, exec (.fuseProgrammingDone outs) s = .next t ∧
    (s.fuse.op = none → s.quiet → t = s)) ∧
  ∀ (op : FuseOp) (outs : List (Nat × Nat)) (s : State), s.fuse.op = some op → s.quiet → s.fuse.waiting = [] →
    SMap.wf 0 s.fuse.firm = true → SMap.wf 0 s.fuse.marg = true →
    let n := if op.cut then min outs.length op.todo.length else op.todo.length
    let fails := ∃ i, i < n ∧ (outs.getD i (1, 0)).2 ≠ 0 ∧ ∀ k, k < n → op.todo.getD k 0 = op.todo.getD i 0 → k = i
    ∃ t, exec (.fuseProgrammingDone outs) s = .next t ∧ t.fuse.waiting = [] ∧
      (∀ i, i < n → (outs.getD i (1, 0)).2 = 0 → t.fuse.isFirm (op.todo.getD i 0) = true) ∧
      (∀ p, p ∉ op.todo.take n → t.fuse.isFirm p = s.fuse.isFirm p) ∧
      (∀ p, s.fuse.isFirm p = true → t.fuse.isFirm p = true) ∧
      (s.lifecycle ≠ 4 → t.lifecycle = 4 → t.sched.staged = none) ∧
      (op.cut = true ∨ op.steps = [] ∨ fails ∧ (∀ p ∈ op.todo, s.fuse.isFirm p = false) → t.fuse.op = none ∧
        t.jnl.head = s.jnl.head + (if op.job.acc.isSome then 1 else 0)) ∧
      (∀ b bs, op.cut = false → op.steps = b :: bs → (∀ i, i < n → (outs.getD i (1, 0)).2 = 0) →
        let left := (s.fuse.needed b).filter (fun p => !op.todo.contains p)
        left ≠ [] → t.jnl.head = s.jnl.head ∧
          t.fuse.op = some { op with todo := left, steps := bs, pulsed := op.pulsed + op.todo.length }) ∧
      State.Only [.out, .mem, .cnt, .sched, .host, .jnl, .fuse] s t

/-- The six GLOBAL_OP kinds that are not refused (11 R315, R316): a BARRIER (globalBarrier) notes this device's arrival,
a BROADCAST (globalBroadcast) of the root goes to its children and one below the root waits for it, and a time-named
kind (globalSnapshot, globalStart, globalStop, globalRestart) completes at once and is announced, armed at this device
when its edge is far enough ahead; a START that arms replaces one that is pending, whose command ends with
CMD_NOT_AVAILABLE (the model's choice, log 131). -/
def Obligations.GlobalOperations : Prop :=
  ∀ (flags : Half) (seq : Word) (w : Byte) (o : Word) (k : DWord) (arg tmo : Word) (src : DWord) (n : Word) (s : State),
    let d (kind : Byte) : Desc := ⟨.globalOp kind w o k arg tmo src n, flags, seq⟩
    let passes (kind : Byte) : Prop := s.Takes (d kind) ∧
      (s.begun (d kind)).refuseGlobal kind.toNat o.toNat k.toNat arg.toNat w.toNat src.toNat n.toNat = 0
    let deadline := s.tk.now + tmo.toNat * 1000000 + 1
    (passes 0 →
      let kids := match s.beam.op 0 o.toNat with | some q => q.kids | none => []
      let op : GlobalOp := ⟨0, o.toNat, 0, 0, s.beam.index == 0, true, kids, 0, 0, false, deadline, 0, 0⟩
      (¬ (∀ c ∈ s.beam.kids, c ∈ kids) →
        exec (.globalBarrier flags seq w o k arg tmo src n) s = .next ((s.begun (d 0)).putOp op)) ∧
      ((∀ c ∈ s.beam.kids, c ∈ kids) → ∃ t, exec (.globalBarrier flags seq w o k arg tmo src n) s = .next t ∧
        (s.beam.index = 0 → t.jnl.head = s.jnl.head + 1 ∧ t.beam.op 0 o.toNat = none) ∧
        (s.beam.index ≠ 0 → t.beam.op 0 o.toNat = some { op with reported := true } ∧ t.jnl = s.jnl) ∧
        State.Only [.out, .mem, .cnt, .net, .beam, .host, .jnl] (s.begun (d 0)) t)) ∧
    (passes 1 →
      let op (root : Bool) : GlobalOp :=
        ⟨1, o.toNat, 0, 0, root, root, [], 0, 0, false, deadline, w.toNat, n.toNat⟩
      (s.beam.index ≠ 0 → exec (.globalBroadcast flags seq w o k arg tmo src n) s =
        .next ((s.begun (d 1)).putOp (op false))) ∧
      (s.beam.index = 0 → (State.judgeTransfer (s.begun (d 1)) .beam src.toNat n.toNat n.toNat).1 = true →
        ∃ t, exec (.globalBroadcast flags seq w o k arg tmo src n) s = .next t ∧
          (n.toNat ≤ 8192 → ∀ c ∈ s.beam.kids, ∀ p, s.beam.peer c = some p → p.up = true →
            p.unacked.length < 64 → p.waiting = [] →
            (t.beam.peer c).map (·.txSeq) = some ((p.txSeq + 1) % 4294967296)) ∧
          State.Only [.freeCtr, .out, .upsets, .mem, .poison, .wbQueue, .cnt, .sched, .hbm, .dma, .img, .net, .beam,
            .host, .jnl, .err] (s.begun (d 1)) t)) ∧
    (∀ (kind : Byte) (c : Instr), (kind, c) ∈ [((2 : Byte), Instr.globalSnapshot flags seq w o k arg tmo src n),
        (3, .globalStart flags seq w o k arg tmo src n), (4, .globalStop flags seq w o k arg tmo src n),
        (5, .globalRestart flags seq w o k arg tmo src n)] → passes kind →
      let v := (s.begun (d kind)).completeLater (s.accepted (d kind)) 0 [] []
      ∃ t, exec c s = .next t ∧
        (kind ≠ 3 ∨ (∀ p, s.sched.start = some p → p.acc = none ∨ p.fixed = true) → t.jnl = v.jnl) ∧
        (v.mayArm kind.toNat k.toNat arg.toNat = true →
          (∃ q ∈ t.beam.ops, (q.kind, q.opId, q.tick, q.arg, q.root, q.here) =
            (kind.toNat, o.toNat, k.toNat, arg.toNat, true, true)) ∧
          (kind = 3 → t.sched.start.isSome = true)) ∧
        State.Only [.out, .mem, .cnt, .sched, .dma, .net, .beam, .host, .jnl] v t)

/-! ### Supplies, clocks and sleep (15, 17) -/

/-- VDD_AON_POWER_UP (vddAonPowerUp) samples PSC_ADDR and the Periscope serves; PORST_RELEASE (porstRelease) samples the
straps, reads the fuses and begins bring-up, or holds the device with the failing region and word; PORST_ASSERT
(porstAssert) resets it. VDD_AON_POWER_LOSS (vddAonPowerLoss) leaves the fuse array, the bits of an operation in
progress with outcomes left open, the flash, the host's memory and the pins (13 R374, R380; 17 R473, R474). Each
completes in every state. -/
def Obligations.PowerUpAndLoss : Prop :=
  ∀ s : State,
    (∀ a : Fin 4,
      (s.pwr.phase = .off → exec (.vddAonPowerUp a) s =
        .next { s with pwr := { s.pwr with phase := .porst, pscUp := true, pscAddr := a.val } }) ∧
      (s.pwr.phase ≠ .off → exec (.vddAonPowerUp a) s = .next s)) ∧
    (∀ a b : Fin 4,
      (s.pwr.phase ≠ .porst → exec (.porstRelease a b) s = .next s) ∧
      (s.pwr.phase = .porst → ∃ t, exec (.porstRelease a b) s = .next t ∧
        t.trust = { s.trust with bootSrc := a.val } ∧ t.pwr.clkSrc = b.val ∧ t.isReady 0 = true ∧
        t.fuse.firm = s.fuse.firm ∧ t.fuse.marg = s.fuse.marg ∧
        (t.fuse.startFailure = none → t.fuse.valid = true ∧ t.isReady 1 = true ∧ t.pwr.phase = .starting ∧
          t.pwr.enMain = true ∧ t.pwr.refStable = false ∧ t.pwr.startStatus = 0) ∧
        (∀ st r w, t.fuse.startFailure = some (st, r, w) → t.fuse.valid = false ∧ t.fuse.critical = true ∧
          t.pwr.phase = .held ∧ t.pwr.enMain = false ∧ t.pwr.startStatus = st ∧ t.pwr.failRegion = r ∧
          t.pwr.failWord = w) ∧
        State.Only [.cnt, .pwr, .fuse, .trust, .ready] s t)) ∧
    (s.pwr.phase = .off ∨ s.pwr.phase = .porst → exec .porstAssert s = .next s) ∧
    (s.pwr.phase ≠ .off → s.pwr.phase ≠ .porst → ∃ t, exec .porstAssert s = .next t ∧
      State.ResetBy 1 0 s t ∧ t.pwr.phase = .porst ∧ t.ready = 0) ∧
    (∃ t, exec .vddAonPowerLoss s = .next t ∧ t.pwr.phase = .off ∧ t.pwr.pscUp = false ∧
      t.mem = hostMem s.mem ∧ s.fuse.cutBy t.fuse ∧ t.fuse.op = none ∧
      t.trust.flash = s.trust.flash ∧ t.host = { HostCtl.reset with perst := s.host.perst } ∧
      t.pending = s.pending ∧ t.out = s.out ∧
      State.Only [.pending, .freeCtr, .out, .mem, .host, .fuse, .trust, .pwr] State.reset t)

/-- A supply that fails resets the device with cause 2 and leaves it held with EN_MAIN low until EN_MAIN_RETRY
(enMainRetry): PGOOD_MAIN that does not rise (PGOOD_MAIN_TIMEOUT, pgoodMainTimeout), PGOOD_MAIN that falls
(PGOOD_MAIN_LOW, pgoodMainLow), and an input below its reset level (SUPPLY_RESET_LEVEL, supplyResetLevel; 15 R443; 17
R474). A value beyond the absolute maximum ratings is outside the specification, and the model stops there (17 R469). A
fatal error resets the device with cause 3 and its status and begins bring-up anew (16 R458, R459): FATAL_ERROR
(fatalError) with a status of 16 R458, any other being no fatal error, CONTROL_WATCHDOG_EXPIRY (controlWatchdogExpiry),
REF lost (REF_COUNT_WINDOW, refCountWindow), and a PLL out of range twice in a row (PLL_COUNT_CHECK, pllCountCheck);
after the thermal trip's status it stays in reset (15 R430). Within the ratings each of the named six completes in every
state. -/
def Obligations.FailuresReset : Prop :=
  (∀ s : State,
    let resets (c : Instr) : Prop := ∃ t, exec c s = .next t ∧ State.ResetBy 2 0 s t ∧ t.pwr.phase = .held ∧
      t.pwr.startStatus = 0 ∧ t.pwr.enMain = false ∧ t.pwr.enCore = false ∧ t.ready = 0
    (s.pwr.enMain = true → s.pwr.mainSeen = false → resets .pgoodMainTimeout) ∧
    (s.pwr.enMain = false ∨ s.pwr.mainSeen = true → exec .pgoodMainTimeout s = .next s) ∧
    (s.pwr.enMain = true → s.pwr.mainSeen = true → resets .pgoodMainLow) ∧
    (s.pwr.enMain = false ∨ s.pwr.mainSeen = false →
      exec .pgoodMainLow s = .next { s with pwr := { s.pwr with pgoodMain := false } }) ∧
    (∀ (i : Fin 5) (mv : Nat),
      let below : Prop := s.alive = true ∧ s.pwr.underReset i.val mv = true ∧ (i.val = 1 → s.pwr.enCore = true)
      (mv ≤ maxMv i.val → below → ∃ t, exec (.supplyResetLevel i mv) s = .next t ∧
        State.ResetBy 2 0 (s.supplyValue i mv) t ∧ t.pwr.phase = .held ∧ t.pwr.startStatus = 0 ∧
        t.pwr.enMain = false ∧ t.pwr.enCore = false ∧ t.ready = 0) ∧
      (mv ≤ maxMv i.val → ¬ below → ∃ t, exec (.supplyResetLevel i mv) s = .next t ∧ (t.pwr.supply[i]).mv = mv ∧
        t.pwr.target = t.pwr.deepest ∧ (s.pwr.sleep ≠ 3 → State.Only [.pwr] s t) ∧
        State.Only [.freeCtr, .out, .mem, .cnt, .tk, .host, .err, .pwr, .fuse, .idle] s t) ∧
      (maxMv i.val < mv → exec (.supplyResetLevel i mv) s = .fault .outsideRatings)) ∧
    (∀ (i : Fin 4) (mv : Nat), maxMv i.val < mv →
      exec (.supplyWarningCrossing i mv) s = .fault .outsideRatings ∧
      exec (.supplyRecovery i mv) s = .fault .outsideRatings) ∧
    (s.pwr.phase = .held → s.pwr.startStatus = 0 → ∃ t, exec .enMainRetry s = .next t ∧ t.isReady 0 = true ∧
      (t.fuse.startFailure = none → t.pwr.phase = .starting ∧ t.pwr.enMain = true ∧ t.isReady 1 = true) ∧
      (∀ st r w, t.fuse.startFailure = some (st, r, w) → t.pwr.phase = .held ∧ t.pwr.startStatus = st) ∧
      State.Only [.cnt, .pwr, .fuse, .ready] s t) ∧
    (s.pwr.phase ≠ .held ∨ s.pwr.startStatus ≠ 0 → exec .enMainRetry s = .next s) ∧
    (s.alive = false → exec .controlWatchdogExpiry s = .next s ∧
      ∀ (status : Half) (region block : Byte) (addr : DWord),
        exec (.fatalError status region block addr) s = .next s)) ∧
  (∀ s : State, s.alive = true →
    let resets (c : Instr) (status : Nat) : Prop := ∃ t, exec c s = .next t ∧ State.ResetBy 3 status s t ∧
      (status = 0x0704 → t.pwr.phase = .tripped) ∧
      (status ≠ 0x0704 → t.isReady 0 = true ∧
        t.pwr.phase = (if t.fuse.startFailure = none then .starting else .held))
    (∀ (status : Half) (region block : Byte) (addr : DWord),
      (fatalCodes.contains status.toNat = true → resets (.fatalError status region block addr) status.toNat) ∧
      (fatalCodes.contains status.toNat = false → exec (.fatalError status region block addr) s = .next s)) ∧
    resets .controlWatchdogExpiry 0x0803 ∧
    (∀ count, s.isReady 1 = true → s.pwr.refStable = true → s.refGoodCount count = false → s.pwr.refBad ≠ 0 →
      resets (.refCountWindow count) 0x0705) ∧
    (∀ (counts : List Nat) (d : Fin 9) (c : Nat), s.isReady 3 = true → d.val ≠ 0 → s.pwr.pll[d] = .good →
      counts[d.val]? = some c → s.pllInRange d.val c = false → 1 ≤ s.pwr.pllBad[d] →
      resets (.pllCountCheck counts) 0x0705))

/-- The device watches the logic-die temperature, here in 1/16 °C (15 R430). At 100 °C or above, below 115 °C, a POWER
record with status POWER_THERMAL_HIGH is placed once per crossing (THERMAL_CROSSING, thermalCrossing), and the level and
its target stay as they are; below 95 °C the crossing is armed again (THERMAL_REARM, thermalRearm); at 115 °C or above
the device is reset with cause 3 and status POWER_THERMAL_HIGH and stays in reset until a temperature below 95 °C, with
which it starts. An operation on the fuses that the temperature takes out of its conditions is cut short (13 R380). Both
complete in every state. -/
def Obligations.ThermalLimits : Prop :=
  ∀ (t : Int) (s : State),
    let p : Power := { s.pwr with logicT := t, logicMax := max s.pwr.logicMax t }
    let w : State := { s with pwr := p, fuse := match s.fuse.op with
      | some op => if State.fuseReady { s with pwr := p } op.external then s.fuse
        else { s.fuse with op := some { op with cut := true } }
      | none => s.fuse }
    let hot : State := { w with pwr := { p with hotArmed := false } }
    let trips : Prop := 1840 ≤ t ∧ s.alive = true
    (¬ trips → 1600 ≤ t → s.pwr.hotArmed = true → exec (.thermalCrossing t) s =
      .next (if s.isReady 3 then hot.powerRec 0x0704 3 0 0 0 0 0 0 else hot)) ∧
    (¬ trips → t < 1600 ∨ s.pwr.hotArmed = false → exec (.thermalCrossing t) s = .next w) ∧
    (trips → ∃ u, exec (.thermalCrossing t) s = .next u ∧ State.ResetBy 3 0x0704 s u ∧ u.pwr.phase = .tripped) ∧
    (1520 ≤ t → exec (.thermalRearm t) s = .next w) ∧
    (t < 1520 → s.pwr.phase ≠ .tripped →
      exec (.thermalRearm t) s = .next { w with pwr := { p with hotArmed := true } }) ∧
    (t < 1520 → s.pwr.phase = .tripped → ∃ u, exec (.thermalRearm t) s = .next u ∧ u.pwr.hotArmed = true ∧
      (u.fuse.startFailure = none → u.pwr.phase = .starting ∧ u.pwr.enMain = true) ∧
      State.Only [.cnt, .pwr, .fuse, .ready] s u)

/-- The rising edge of WAKE (wake), and a Periscope transaction to the device's address (PERISCOPE_TRANSACTION,
periscopeTransaction), latch a wake in a sleep state and end idleness; the transaction reads the block of 16 bytes from
its pointer, and the exclusive or of the block is 0 (15 R438 to R440). Both complete in every state. -/
def Obligations.WakePins : Prop :=
  ∀ s : State,
    (∀ level : Bool,
      let p : Power := { s.pwr with wakePin := level }
      (level = true → s.pwr.wakePin = false → s.pwr.pscUp = true → exec (.wake level) s = .next { s with
        idleNs := 0, pwr := if s.pwr.sleep = 0 then p else { p with wakeLatched := true, wakeSrc := 2 } }) ∧
      (level = false ∨ s.pwr.wakePin = true ∨ s.pwr.pscUp = false → exec (.wake level) s = .next { s with
        pwr := p, idleNs := if State.idle { s with pwr := p } then s.idleNs else 0 })) ∧
    s.pscBlock.length = 16 ∧ s.pscBlock.foldl (fun x y => x ^^^ y) 0 = 0 ∧
    (∀ (addr : BitVec 7) (w : Option (List Byte)) (n : Nat),
      (s.pwr.pscUp = false ∨ addr.toNat ≠ 0x4A + s.pwr.pscAddr →
        exec (.periscopeTransaction addr w n) s = .next s) ∧
      (s.pwr.pscUp = true → addr.toNat = 0x4A + s.pwr.pscAddr →
        let p : Power := { s.pwr with psc := 0 }
        let at_ : Nat := match w with
          | some (b :: _) => b.toNat % 16
          | _ => 0
        exec (.periscopeTransaction addr w n) s = .next { s with
          idleNs := 0
          out := if n = 0 then s.out
            else .readBytes ((List.range n).map (fun i => s.pscBlock.getD ((at_ + i) % 16) 0)) :: s.out
          pwr := if s.pwr.sleep = 0 then p else { p with wakeLatched := true, wakeSrc := 1 } }))

/-- The reference and the PLLs come up (15 R418 to R421, R447; 17 R473): PGOOD_MAIN_RISE (pgoodMainRise) and four
windows of REF in a row (REF_COUNT_WINDOW, refCountWindow) switch VDD_CORE and the PLLs on, whichever comes last; 64
windows without success hold the device. PLL_JUDGED (pllJudged): a PLL is accepted by a count in its window, SYS makes
READY.SYS and the device run, HBM begins to train; one that fails 64 times is stopped. PLL_COUNT_CHECK (pllCountCheck):
a running PLL out of range once is noted. The last step of an exit from sleep waits for the PLLs under judgement, and is
SleepEnteredAndLeft's. Each completes in every state: twice out of range in a row is FailuresReset's. -/
def Obligations.ClocksComeUp : Prop :=
  ∀ s : State,
    let core (p : Power) : Power := if p.phase = .starting ∧ p.refStable = true ∧ p.mainSeen = true ∧ p.enCore = false
      then { p with
        vid := 14, enCore := true, pll := Vector.replicate 9 (.judging 0), idleLevel := 3, idleJudged := false }
      else p
    (failedState (s.regionState 7) = false → ∀ n, s.refGoodCount n = (decide (753907 ≤ n) && decide (n ≤ 808593))) ∧
    (∃ t, exec .pgoodMainRise s = .next t) ∧ (∀ (d : Fin 9) (n : Nat), ∃ t, exec (.pllJudged d n) s = .next t) ∧
    (s.pwr.enMain = true → s.pwr.exit ≠ some .main → exec .pgoodMainRise s =
      .next { s with pwr := core { s.pwr with pgoodMain := true, mainSeen := true } }) ∧
    (s.pwr.enMain = false → exec .pgoodMainRise s = .next { s with pwr := { s.pwr with pgoodMain := true } }) ∧
    (∀ n, s.isReady 1 = false ∨ s.alive = false → exec (.refCountWindow n) s = .next s) ∧
    (∀ n, s.isReady 1 = true → s.alive = true →
      let good := s.refGoodCount n
      let p : Power := { s.pwr with
        refWindows := s.pwr.refWindows + 1, refGood := if good then s.pwr.refGood + 1 else 0 }
      (s.pwr.refStable = true → good = true ∨ s.pwr.refBad = 0 → exec (.refCountWindow n) s = .next { s with
        pwr := { s.pwr with refBad := if good then 0 else 1 } }) ∧
      (s.pwr.refStable = false → 4 ≤ p.refGood → exec (.refCountWindow n) s = .next { s with
        pwr := core { p with refStable := true, refBad := 0 } }) ∧
      (s.pwr.refStable = false → p.refGood < 4 → p.refWindows < 64 → exec (.refCountWindow n) s =
        .next { s with pwr := p }) ∧
      (s.pwr.refStable = false → p.refGood < 4 → 64 ≤ p.refWindows → ∃ t, exec (.refCountWindow n) s = .next t ∧
        t.pwr.phase = .held ∧ t.pwr.startStatus = 0x0705 ∧ t.pwr.enMain = false ∧ State.Only [.pwr] s t)) ∧
    (∀ (d : Fin 9) (count : Nat),
      (s.pwr.pll[d] = .good → exec (.pllJudged d count) s = .next (if d.val = 2 then { s with
        pwr := { s.pwr with idleJudged := true } } else s)) ∧
      (s.pwr.pll[d] = .off ∨ s.pwr.pll[d] = .stopped → exec (.pllJudged d count) s = .next s)) ∧
    (∀ (d : Fin 9) (count k : Nat), s.pwr.pll[d] = .judging k →
      s.pwr.exit ≠ some .clocks ∨ (∃ (e : Fin 9) (j : Nat), e ≠ d ∧ s.pwr.pll[e] = .judging j) →
      (pllAccepts d.val count = true → ∃ t, exec (.pllJudged d count) s = .next t ∧
        t.pwr.pll = s.pwr.pll.set d .good ∧
        (d.val = 1 → t.isReady 3 = true ∧ t.isReady 16 = true ∧ (s.pwr.phase = .starting → t.pwr.phase = .running)) ∧
        (d.val = 2 → t.pwr.idleJudged = true) ∧
        (d.val = 3 → s.pwr.sleep = 0 → t.hbm = { s.hbm with phase := if s.hbm.phase = .off then .training 0 else s.hbm.phase }) ∧
        (d.val = 4 → s.pwr.sleep = 0 → s.err.isolated.getLsbD 4 = false → s.pwr.shed < 2 → t.isReady 9 = true) ∧
        (d.val ≠ 2 → State.Told (fun _ => False) s t) ∧
        State.Only [.out, .upsets, .mem, .poison, .wbQueue, .cnt, .hbm, .img, .host, .pwr, .ready] s t) ∧
      (pllAccepts d.val count = false → k + 1 < 64 → exec (.pllJudged d count) s =
        .next { s with pwr := { s.pwr with pll := s.pwr.pll.set d (.judging (k + 1)) } }) ∧
      (pllAccepts d.val count = false → 64 ≤ k + 1 → ∃ t, exec (.pllJudged d count) s = .next t ∧
        t.pwr.startStatus = 0x0705 ∧
        (d.val = 1 → t.pwr.phase = .held) ∧ (d.val ≠ 1 → t.pwr.pll = s.pwr.pll.set d .stopped) ∧
        State.Only [.out, .mem, .cnt, .host, .pwr] s t ∧ State.Told (fun _ => False) s t)) ∧
    (∀ counts : List Nat,
      (s.isReady 3 = false → exec (.pllCountCheck counts) s = .next s) ∧
      (s.isReady 3 = true → (∀ d : Fin 9, s.pwr.pllBad[d] ≤ 1) →
        (∀ (d : Fin 9) (c : Nat), counts[d.val]? = some c → s.pllInRange d.val c = true ∨ s.pwr.pllBad[d] = 0) →
        ∃ t, exec (.pllCountCheck counts) s = .next t ∧
          (∀ d : Fin 9, t.pwr.pllBad[d] = match s.pwr.pll[d], counts[d.val]? with
            | .good, some c => if d.val = 0 then s.pwr.pllBad[d] else if s.pllInRange d.val c then 0 else 1
            | _, _ => s.pwr.pllBad[d]) ∧
          t = { s with pwr := { s.pwr with pllBad := t.pwr.pllBad } }))

/-- A change of level (15 R428): PGOOD_CORE_RISE (pgoodCoreRise) begins the settling time, after which (VSET_SETTLED,
vsetSettled) a rise is ready for a tick edge and a fall is complete. PGOOD_CORE with the FACET clock running makes the
Prisms ready. SUPPLY_WARNING_CROSSING (supplyWarningCrossing) and SUPPLY_RECOVERY (supplyRecovery) take a value of an
input (15 R441, R442, R445): the warning levels it has crossed follow it, with their hysteresis, its lowest value is
kept, and the target stage is the deepest crossed; the stage in force waits for a tick edge, and in S3 rises at once,
and falls once the 10 ms of R445 have passed (15 R444), TIME moving on there by a free amount (log 90). Within the
absolute maximum ratings each completes in every state. -/
def Obligations.CoreSupplyFollows : Prop :=
  (∀ s : State,
    (s.pwr.enCore = false → exec .pgoodCoreRise s = .next s) ∧
    (s.pwr.enCore = true → s.pwr.exit ≠ some .core → ∃ t, exec .pgoodCoreRise s = .next t ∧ t.pwr.pgoodCore = true ∧ t.pwr.level = s.pwr.level ∧
      (s.pwr.change = none → t.pwr.change = none) ∧
      (∀ l v, s.pwr.change = some (.up l v) → t.pwr.change = some (.upSettle l v)) ∧
      (∀ v, s.pwr.change = some (.downWait v) → t.pwr.change = some (.downSettle v)) ∧
      (∀ p, p < 4 → s.pwr.pll[2] = .good → s.pwr.sleep = 0 → s.err.isolated.getLsbD p = false →
        shedRegion s.pwr.shed p = false → t.isReady (5 + p) = true) ∧
      State.Only [.out, .upsets, .mem, .poison, .wbQueue, .cnt, .host, .pwr, .ready] s t) ∧
    ((∀ l v, s.pwr.change ≠ some (.upSettle l v)) → (∀ v, s.pwr.change ≠ some (.downSettle v)) →
      exec .vsetSettled s = .next s) ∧
    (∀ l v, s.pwr.change = some (.upSettle l v) → exec .vsetSettled s = .next { s with
      pwr := { s.pwr with change := some (.upReady l v) } }) ∧
    (∀ v, s.pwr.change = some (.downSettle v) → ∃ t, exec .vsetSettled s = .next t ∧
      (let p : Power := { s.pwr with change := none, nextTarget := none }
       t.pwr = match s.pwr.nextTarget with
        | some n => p.newTarget n
        | none => p) ∧
      State.Only [.out, .mem, .cnt, .host, .pwr] s t ∧ State.Told (fun _ => False) s t)) ∧
  (∀ (i : Fin 4) (mv : Nat) (c : Instr) (s : State), c ∈ [Instr.supplyWarningCrossing i mv, .supplyRecovery i mv] →
    mv ≤ maxMv i.val →
    ∃ t, exec c s = .next t ∧ (t.pwr.supply[i.val]).mv = mv ∧
      t.pwr.target = t.pwr.deepest ∧
      (∀ j : Fin 5, j.val ≠ i.val → (t.pwr.supply[j]).mv = (s.pwr.supply[j]).mv ∧
        (t.pwr.supply[j]).below = (s.pwr.supply[j]).below) ∧
      (∀ k, 1 ≤ k → k ≤ 3 → (i.val = 1 → s.pwr.enCore = true) →
        (s.pwr.underW i.val k mv false = true → bitOf (t.pwr.supply[i.val]).below (k - 1) = true) ∧
        (mv ≠ 0 → s.pwr.underW i.val k mv false = false → s.pwr.underW i.val k mv true = true →
          bitOf (t.pwr.supply[i.val]).below (k - 1) = bitOf (s.pwr.supply[i.val]).below (k - 1)) ∧
        (s.pwr.underW i.val k mv true = false → bitOf (t.pwr.supply[i.val]).below (k - 1) = false)) ∧
      (s.pwr.sleep ≠ 3 → t.pwr.shed = s.pwr.shed ∧
        ((s.pwr.supply[i.val]).low ≠ 0 → (t.pwr.supply[i.val]).low = min (s.pwr.supply[i.val]).low mv)) ∧
      (s.pwr.sleep = 3 → s.pwr.shed ≤ 3 → t.pwr.target ≤ t.pwr.shed ∧
        (t.pwr.target = t.pwr.shed ∨ t.pwr.mayUndo t.pwr.shed t.tk.now = false)) ∧
      (s.pwr.sleep ≠ 3 → State.Only [.pwr] s t) ∧ State.Only [.freeCtr, .out, .mem, .cnt, .tk, .host, .err, .pwr,
        .fuse, .idle] s t)

/-- When PGOOD_CORE has not returned high within 1 ms of a VID_CORE change (PGOOD_CORE_TIMEOUT, pgoodCoreTimeout),
VID_CORE takes its previous code again, the level stays, a POWER record of KIND 2 with status POWER_BAD_LEVEL is placed,
and no change is pending (a target that waited is then taken up); a change to a slower level that still waits for its
switch, while VID_CORE holds what an abandoned change has raised, ends so too. PGOOD_CORE that is high leaves the change
alone. PGOOD_CORE that does not rise within 1 ms of EN_CORE, outside a change, resets the device (log 84).
PGOOD_CORE_LOW (pgoodCoreLow) at any other time while EN_CORE is high resets the device as VDD_CORE below its reset
level does: cause 2, held (15 R429). Both complete in every state. -/
def Obligations.CoreSupplyFails : Prop :=
  ∀ s : State,
    (s.pwr.enCore = true → s.pwr.pgoodCore = false → ∀ (v target : Nat),
      (s.pwr.change = some (.up target v) ∨ s.pwr.change = some (.downWait v) ∧ target = s.pwr.level ∨
        s.pwr.change = some (.down target) ∧ v = levelVid s.pwr.level ∧ s.pwr.vid ≠ v) →
      let back : State := { s with pwr := { s.pwr with
        vid := v, change := none, idleLevel := 3
        idleJudged := if s.pwr.idleLevel = 3 then s.pwr.idleJudged else false } }
      let u := back.powerRec 0x0700 2 target s.pwr.level 0 0 0 0
      u.pwr = back.pwr ∧ u.pwr.level = s.pwr.level ∧
      (s.pwr.nextTarget = none → exec .pgoodCoreTimeout s = .next u) ∧
      (∀ n, s.pwr.nextTarget = some n → exec .pgoodCoreTimeout s = .next { u with
        pwr := { u.pwr with nextTarget := none }.newTarget n })) ∧
    (s.pwr.enCore = false ∨ s.pwr.pgoodCore = true → exec .pgoodCoreTimeout s = .next s) ∧
    (let resets (c : Instr) : Prop := ∃ t, exec c s = .next t ∧ State.ResetBy 2 0 s t ∧ t.pwr.phase = .held ∧
       t.pwr.startStatus = 0 ∧ t.pwr.enMain = false ∧ t.pwr.enCore = false ∧ t.ready = 0
     (s.pwr.enCore = true → s.pwr.pgoodCore = false → (∀ l v, s.pwr.change ≠ some (.up l v)) →
      (∀ v, s.pwr.change ≠ some (.downWait v)) →
      (∀ l, s.pwr.change = some (.down l) → s.pwr.vid = levelVid s.pwr.level) → resets .pgoodCoreTimeout) ∧
     (s.pwr.enCore = true → s.pwr.pgoodCore = true → resets .pgoodCoreLow)) ∧
    (s.pwr.enCore = false ∨ s.pwr.pgoodCore = false → exec .pgoodCoreLow s = .next s)

/-- SLEEP_ENTRY (sleepEntry) takes an idle device into the deepest state whose threshold IDLE_TIME has reached (15 R432
to R436): once its gates are off (none is refused: log 88), the READY bits of what the state stops are clear, and S2 and
S3 keep the saved registers; a device that is not idle, or has reached no deeper threshold, stays; S3 keeps the
converter slices that have failed (10 R277). SLEEP_EXIT (sleepExit) after a wake (15 R436, R437) ends S1 at once, and
begins the exit from S2 with EN_CORE, VID_CORE, the level and the FACET PLL's settings restored, from S3 with EN_MAIN,
after which PGOOD_MAIN_RISE (pgoodMainRise) does so. PGOOD_CORE_RISE (pgoodCoreRise) begins the oscillator step: the
PLLs are judged, and S3 reads the fuses anew, where a failing read holds the device. PLL_JUDGED (pllJudged) of the last
PLL ends the exit: the device runs, what the state stopped is ready where its clock serves and neither isolation nor
shedding keeps it off, S3 restores the registers and TIME, moved on by the AON cycles that have passed, whose number is
free (log 90), and waiting descriptors are taken last. SLEEP_ENTRY and SLEEP_EXIT complete in every state. -/
def Obligations.SleepEnteredAndLeft : Prop :=
  (∀ s : State, (∃ t, exec .sleepEntry s = .next t) ∧ (∃ t, exec .sleepExit s = .next t) ∧
    ((s.pwr.phase = .running → s.isReady 3 = false) → (∀ k, s.pwr.phase = .asleep k → s.pwr.exit ≠ none) →
      exec .sleepEntry s = .next s)) ∧
  (∀ (n : Nat) (s : State),
    (s.pwr.phase = .running ∧ s.isReady 3 = true ∨ s.pwr.exit = none ∧ ∃ k, s.pwr.phase = .asleep k) →
    s.noteIdle.sleepTarget = n →
    (s.idle = false ∨ n ≤ s.pwr.sleep → exec .sleepEntry s = .next s.noteIdle) ∧
    (s.idle = true → s.pwr.sleep < n → (s.gatesFor n).gateHeld = false →
      ∃ t, exec .sleepEntry s = .next t ∧ t.pwr.phase = .asleep n ∧ t.pwr.sleepAt = s.tk.now ∧
        (∀ b, 4 ≤ b → b ≤ 9 → t.isReady b = false) ∧
        (n = 2 → t.isReady 10 = false ∧ t.isReady 11 = false) ∧
        (n = 3 → ∀ b, 2 ≤ b → b ≤ 18 → t.isReady b = false) ∧
        (2 ≤ n → t.pwr.enCore = false ∧ t.pwr.pgoodCore = false ∧ (s.sched.start = none →
          let c := match s.pwr.saved with
            | some w => (w.level, w.vid, w.idle)
            | none => (s.pwr.level, s.pwr.vid, s.pwr.idleLevel)
          ∃ h, t.pwr.saved = some ⟨h, s.tk.rate, s.tk.now, s.net.ptp.adj, s.tk.now, c.1, c.2.1, c.2.2⟩ ∧
            h.mute = s.host.mute)) ∧
        (n ≤ 2 → State.Only [.freeCtr, .out, .upsets, .mem, .poison, .wbQueue, .cnt, .facets, .hbm, .img, .wav,
          .host, .err, .pwr, .ready] s t) ∧
        (n = 3 → t.facets = State.reset.facets ∧ t.sched = Sched.reset ∧ t.dma = State.reset.dma ∧
          t.tk.now = s.tk.now ∧
          t.wav.halted = s.wav.halted ∧ (∀ k : Fin 16, (t.wav.conv[k]).failed = (s.wav.conv[k]).failed) ∧
          t.fuse = s.fuse ∧ t.trust = { s.trust with calDigest := none } ∧ t.pending = s.pending))) ∧
  (∀ s : State, s.pwr.wakeLatched = false ∨ s.pwr.exit ≠ none ∨ s.pwr.sleep ∉ [1, 2, 3] → exec .sleepExit s = .next s) ∧
  (∀ s : State,
    let back (p : Power) : Power :=
      let c := match p.saved with
        | some v => if 1 ≤ p.shed then (3, 14, 3) else (v.level, v.vid, v.idle)
        | none => (3, 14, 3)
      { p with
        enCore := true, pgoodCore := false, vid := c.2.1, level := c.1, idleLevel := c.2.2, idleJudged := false
        exit := some .core }
    (s.pwr.wakeLatched = true → s.pwr.exit = none →
      (s.pwr.phase = .asleep 1 →
        ∃ u, exec .sleepExit s = .next u.serveAll ∧ u.pwr.phase = .running ∧ u.pwr.wakeLatched = false ∧
          u.idleNs = 0 ∧ (s.facetClock = true → s.pwr.facetsWait = false ∨ s.coreReady = true → ∀ p, p < 4 →
            s.err.isolated.getLsbD p = false → shedRegion s.pwr.shed p = false → u.isReady (5 + p) = true) ∧
          (s.err.isolated.getLsbD 4 = false → s.pwr.pll[4] = .good → s.pwr.shed < 2 → u.isReady 9 = true) ∧
          (s.hbm.phase = .selfRefresh ∨ s.hbm.phase = .draining → s.pwr.shed < 3 →
            u.isReady 4 = true ∧ u.hbm.phase = .ready) ∧
          State.Only [.out, .upsets, .mem, .poison, .wbQueue, .cnt, .hbm, .img, .net, .beam, .host, .pwr, .idle,
            .ready] s u ∧ (s.hbm.stalled = [] → State.Told (fun _ => False) s u)) ∧
      (s.pwr.phase = .asleep 2 → s.pwr.shed < 3 → exec .sleepExit s = .next { s with pwr := back s.pwr }) ∧
      (s.pwr.phase = .asleep 2 → 3 ≤ s.pwr.shed → s.pwr.enCore = false → exec .sleepExit s = .next s.exitClocks) ∧
      (s.pwr.phase = .asleep 3 → exec .sleepExit s = .next { s with pwr := { s.pwr with
        enMain := true, pgoodMain := false, mainSeen := false, exit := some .main } })) ∧
    (s.pwr.phase = .asleep 3 → s.pwr.exit = some .main → s.pwr.enMain = true →
      let p : Power := { s.pwr with pgoodMain := true, mainSeen := true }
      (s.pwr.shed < 3 → exec .pgoodMainRise s = .next { s with pwr := back p }) ∧
      (3 ≤ s.pwr.shed → s.pwr.enCore = false → exec .pgoodMainRise s = .next (State.exitClocks { s with pwr := p }))) ∧
    (s.pwr.sleep ≠ 0 → s.pwr.exit = some .core → s.pwr.enCore = true → s.pwr.change = none →
      ∃ g, exec .pgoodCoreRise s = .next g.exitClocks ∧ g.pwr.pgoodCore = true ∧ g.pwr.phase = s.pwr.phase ∧
        g.pwr.pll = s.pwr.pll ∧ State.Only [.out, .mem, .cnt, .host, .pwr] s g ∧ State.Told (fun _ => False) s g) ∧
    (s.pwr.phase = .asleep 2 → ∃ v, v = { s with pwr := { s.pwr with exit := some .clocks, pll := v.pwr.pll } } ∧
      (∀ d : Fin 9, v.pwr.pll[d] = if s.pwr.pll[d] = .off ∧
        (d.val = 3 ∨ d.val = 4 ∨ d.val = 5 ∨ d.val = 2 ∧ s.pwr.enCore = true) then .judging 0 else s.pwr.pll[d]) ∧
      ((∃ (d : Fin 9) (j : Nat), v.pwr.pll[d] = .judging j) → s.exitClocks = v)) ∧
    (s.pwr.phase = .asleep 3 → ∃ v, v.fuse.firm = s.fuse.firm ∧ v.fuse.marg = s.fuse.marg ∧
      (v.fuse.valid = true → v.isReady 1 = true ∧ v.pwr.phase = .asleep 3 ∧ v.pwr.exit = some .clocks ∧
        (∀ d : Fin 9, d.val ≠ 0 → d.val ≠ 2 → v.pwr.pll[d] ≠ .off) ∧
        ((∃ (d : Fin 9) (j : Nat), v.pwr.pll[d] = .judging j) → s.exitClocks = v)) ∧
      (v.fuse.valid = false → s.exitClocks = v ∧ v.isReady 1 = false ∧ v.pwr.phase = .held ∧
        v.pwr.wakeLatched = false ∧ v.pwr.exit = none) ∧
      State.Only [.freeCtr, .out, .mem, .cnt, .tk, .host, .err, .pwr, .fuse, .ready] s v)) ∧
  (∀ (n : Nat) (d : Fin 9) (count k : Nat) (s : State), n = 2 ∨ n = 3 → s.pwr.phase = .asleep n →
    s.pwr.exit = some .clocks → s.pwr.pll[d] = .judging k →
    (∀ (e : Fin 9) (j : Nat), e ≠ d → s.pwr.pll[e] ≠ .judging j) → pllAccepts d.val count = true →
    ∃ u, exec (.pllJudged d count) s = .next u.serveAll ∧ u.pwr.phase = .running ∧ u.pwr.wakeLatched = false ∧
      u.pwr.exit = none ∧ u.pwr.saved = none ∧ u.idleNs = 0 ∧ u.pwr.level = s.pwr.level ∧
      (d.val = 1 ∨ s.isReady 3 = true → u.isReady 3 = true) ∧
      (s.pwr.enCore = true → d.val = 2 ∨ s.pwr.pll[2] = .good → s.pwr.facetsWait = false ∨ s.pwr.pgoodCore = true →
        ∀ p, p < 4 → s.err.isolated.getLsbD p = false → shedRegion s.pwr.shed p = false → u.isReady (5 + p) = true) ∧
      (s.err.isolated.getLsbD 4 = false → d.val = 4 ∨ s.pwr.pll[4] = .good → s.pwr.shed < 2 → u.isReady 9 = true) ∧
      (n = 2 → (s.hbm.phase = .selfRefresh ∨ s.hbm.phase = .draining → s.pwr.shed < 3 →
          u.isReady 4 = true ∧ u.hbm.phase = .ready) ∧
        State.Only [.out, .upsets, .mem, .poison, .wbQueue, .cnt, .facets, .hbm, .img, .net, .beam, .host, .pwr,
          .idle, .ready] s u) ∧
      (n = 3 → (s.hbm.phase = .off → u.hbm.phase = .training 0) ∧
        (s.pwr.shed < 3 → s.isReady 2 = false → s.isReady 17 = false → u.isReady 17 = u.isReady 2 ∧
          (u.isReady 2 = false → u.trust.boot = .none)) ∧
        ∀ v, s.pwr.saved = some v → u.tk.rate = v.rate ∧
          u.tk.now = (s.tk.now + s.free.toNat * 30517578 / 1000) % 2 ^ 64 ∧ u.tk.tick = tickAt v.rate u.tk.now ∧
          u.net.ptp.adj = v.adj ∧
          u.host.owner = v.host.owner ∧ u.host.cmdBaseLo = v.host.cmdBaseLo ∧ u.host.cmdBaseHi = v.host.cmdBaseHi ∧
          u.host.cmdSize = v.host.cmdSize ∧ u.host.cmdPut = v.host.cmdPut ∧ u.host.cmdGet = v.host.cmdGet ∧
          u.host.evtBaseLo = v.host.evtBaseLo ∧ u.host.evtBaseHi = v.host.evtBaseHi ∧
          u.host.evtSize = v.host.evtSize ∧ u.host.mboxOff = v.host.mboxOff ∧ u.host.irqEnable = v.host.irqEnable ∧
          u.host.perfLevel = v.host.perfLevel ∧ u.host.perfAuto = v.host.perfAuto ∧
          u.host.sleepCtl = v.host.sleepCtl ∧ u.host.wdogPeriod = v.host.wdogPeriod ∧
          u.host.regionAuto = v.host.regionAuto ∧ u.host.spareA = v.host.spareA ∧ u.host.spareB = v.host.spareB))

/-! ### Isolation, restart and firmware (13, 14, 16) -/

/-- REGION_ISOLATION (regionIsolation) for an assigned cause (12 R360) isolates a region, clears its READY bits and,
after three automatic restarts within the hour, leaves it to REGION_RESTART; a Prism's Facets stop with their tick
invalid (16 R453 to R455). AUTO_RESTART (autoRestart) begins the restart of one whose AUTO bit is set, held while the
region is shed, with its own PLLs under judgement again (16 R455 to R457). RESTART_STEPS_DONE (restartStepsDone; 16
R456, R457) waits for those PLLs; a restart that fails, or that finds one stopped, leaves its region isolated for
REGION_RESTART. One whose steps are done waits for its tick; of a Prism the scratchpads are initialised, the DMA engine
is reset, and no Expander or Condenser transfer is open. Edge rejoins at once: it is no longer isolated. The three
complete in every state. -/
def Obligations.RegionsRestart : Prop :=
  (∀ (r : Fin 7) (s : State),
    (∀ ok, ∃ t, exec (.restartStepsDone r ok) s = .next t) ∧
    (∀ (block : Byte) (cause : Half),
      (s.err.isolated.getLsbD r.val = true ∨ statusCodes.contains cause.toNat = false →
        exec (.regionIsolation r block cause) s = .next s) ∧
      (s.err.isolated.getLsbD r.val = false → statusCodes.contains cause.toNat = true → ∃ t, exec (.regionIsolation r block cause) s = .next t ∧
        t.err.isolated = s.err.isolated ||| BitVec.ofNat 7 (2 ^ r.val) ∧
        (∀ b, b < 19 → t.isReady b = (s.isReady b && !(readyBits r.val).contains b) ∨ r.val = 6 ∧ 12 ≤ b) ∧
        t.err.manual = (if 3 ≤ s.autoCount r.val then s.err.manual ||| BitVec.ofNat 7 (2 ^ r.val) else s.err.manual) ∧
        (∀ f : Fin 16, f.val / 4 = r.val → (t.facets[f]).phase = .ended ∧ (t.facets[f]).invalid = true ∧
          (t.facets[f]).prog = [] ∧ (t.facets[f]).emits = []) ∧
        t.jnl = s.jnl ∧ State.Only [.freeCtr, .out, .upsets, .mem, .poison, .wbQueue, .cnt, .facets, .sched, .ap,
          .hbm, .dma, .tmplStatus, .exp, .cnd, .img, .wav, .net, .beam, .host, .err, .pwr, .ready] s t)) ∧
    (s.err.isolated.getLsbD r.val = false ∨ s.err.restarting.getLsbD r.val = true ∨
      s.host.regionAuto.getLsbD r.val = false ∨ s.err.manual.getLsbD r.val = true →
      exec (.autoRestart r) s = .next s) ∧
    (s.err.restarting.getLsbD r.val = false ∨ s.err.heldRestart.getLsbD r.val = true ∨
      s.err.rejoin.getLsbD r.val = true → ∀ ok, exec (.restartStepsDone r ok) s = .next s) ∧
    (s.err.isolated.getLsbD r.val = true → s.err.restarting.getLsbD r.val = false →
      s.host.regionAuto.getLsbD r.val = true → s.err.manual.getLsbD r.val = false →
      ∃ t, exec (.autoRestart r) s = .next t ∧ t.err = { s.err with
        autoTimes := (s.tk.now, r.val) :: s.err.autoTimes
        restarting := s.err.restarting ||| regionBit r.val
        manual := s.err.manual &&& ~~~(regionBit r.val)
        heldRestart := if shedRegion s.pwr.shed r.val then s.err.heldRestart ||| regionBit r.val
          else s.err.heldRestart } ∧
        (∀ d ∈ regionPlls r.val, shedRegion s.pwr.shed r.val = false → s.pwr.pll[d] = .good →
          t.pwr.pll[d] = .judging 0) ∧
        State.Only [.out, .mem, .cnt, .host, .err, .pwr] s t ∧ State.Told (fun _ => False) s t)) ∧
  (∀ (r : Fin 7) (s : State), s.err.restarting.getLsbD r.val = true → s.err.heldRestart.getLsbD r.val = false →
    s.err.rejoin.getLsbD r.val = false → s.quiet →
    let served : Prop := ∀ d ∈ regionPlls r.val, s.pwr.pll[d] ≠ .stopped ∧ ∀ j, s.pwr.pll[d] ≠ .judging j
    ((∀ d ∈ regionPlls r.val, s.pwr.pll[d] ≠ .stopped) → ¬ served → exec (.restartStepsDone r true) s = .next s) ∧
    (∀ ok, ok = false ∨ (∃ d ∈ regionPlls r.val, s.pwr.pll[d] = .stopped) →
      ∃ t, exec (.restartStepsDone r ok) s = .next t ∧ t.err.isolated = s.err.isolated ∧
      t.err.restarting = s.err.restarting &&& ~~~(regionBit r.val) ∧
      t.err.manual = s.err.manual ||| regionBit r.val ∧ State.Only [.out, .mem, .cnt, .host, .jnl, .err, .pwr] s t) ∧
    (served → r.val ≠ 6 → ∃ t, exec (.restartStepsDone r true) s = .next t ∧
      t.err.rejoin = s.err.rejoin ||| regionBit r.val ∧ t.err.isolated = s.err.isolated ∧
      t.err.restarting = s.err.restarting ∧
      (∀ p : Fin 4, p.val = r.val → t.dma[p.val] = Engine.reset ∧ t.exp[p] = [] ∧ t.cnd[p] = none ∧
        (Memory.wf s.mem = true → ∀ (f : Fin 16) (x : Nat), f.val / 4 = r.val → x < 0x800000 →
          ¬ s.recordByte (unitAddr f 0 + x) → SMap.get 0 t.mem (unitAddr f 0 + x) = 0)) ∧
      State.Only [.freeCtr, .out, .upsets, .mem, .poison, .wbQueue, .cnt, .facets, .sched, .hbm, .dma, .tmplStatus,
        .exp, .cnd,
        .img, .wav, .host, .err, .pwr] s t) ∧
    (served → r.val = 6 → ∃ t, exec (.restartStepsDone r true) s = .next t ∧ t.isReady 16 = true ∧
      t.err.isolated = s.err.isolated &&& ~~~(regionBit 6) ∧
      t.err.restarting = s.err.restarting &&& ~~~(regionBit 6) ∧ t.ap.sealed = false ∧ t.dma[4] = Engine.reset ∧
      (∀ w : Fin 16, t.beam.rx[w] = none ∧ t.beam.tx[w] = none)))

/-- FIRMWARE_BOOT (firmwareBoot; 14 R396, R399): the preferred slot's firmware starts when its checks pass, else the
other slot's, and READY.TRUST and READY.JOURNAL are set; the preferred slot stays as it is after such a fallback (14
R400), but that one that fails in its trial loses the preference to the slot before it (14 R402). With neither the
device reports the last status, and a strap of 1 waits for a push. Waiting descriptors and preloads are taken up last.
It changes nothing before READY.SYS, once firmware runs, asleep, in a BLANK device (14 R403), and while a push is
awaited. -/
def Obligations.FirmwareBoots : Prop :=
  (∀ s : State, s.isReady 3 = false ∨ s.isReady 2 = true ∨ s.pwr.phase ≠ .running ∨ s.lifecycle = 0 ∨
    s.trust.boot = .waitPush → exec .firmwareBoot s = .next s) ∧
  (∀ s : State, s.isReady 3 = true → s.isReady 2 = false → s.pwr.phase = .running → s.lifecycle ≠ 0 →
    s.trust.boot ≠ .waitPush →
    let k := s.trust.preferred
    let b (j : Nat) : List Byte := s.slotImage j
    (∀ j, s.bootStrap ≠ 1 → s.checkFirmware (b j) = 0 → (j = k ∨ j = 1 - k ∧ s.checkFirmware (b k) ≠ 0) →
      ∃ u, exec .firmwareBoot s = .next u.serveAll.settle ∧ u.trust.slot = j ∧ u.trust.boot = .running ∧
        u.trust.preferred = (if j = k then k else s.trust.trial.getD k) ∧
        u.trust.fw = ⟨fieldLe (b j) 0x10 4, byteAt (b j) 0xC, fwLen (b j), ((b j).drop 0x18).take 48⟩ ∧
        u.isReady 2 = true ∧ u.isReady 17 = true ∧ (j ≠ k → u.trust.abandoned = s.checkFirmware (b k)) ∧
        (s.isReady 17 = false → s.lifecycle < 4 → u.jnl.head = s.jnl.head + 1) ∧
        State.Only [.freeCtr, .out, .mem, .cnt, .sched, .host, .jnl, .err, .fuse, .trust, .ready] s u) ∧
    (s.quiet →
      (s.bootStrap = 1 → exec .firmwareBoot s = .next { s with trust := { s.trust with boot := .waitPush } }) ∧
      (s.bootStrap ≠ 1 → s.checkFirmware (b k) ≠ 0 → s.checkFirmware (b (1 - k)) ≠ 0 →
        ∃ t, exec .firmwareBoot s = .next t ∧ t.pwr.startStatus = s.checkFirmware (b (1 - k)) ∧
          t.trust.boot = (if s.bootStrap = 2 then .waitPush else .none) ∧ State.Only [.pwr, .trust] s t)))

/-- TRIAL_END (trialEnd), 600 s after READY.TRUST, ends the trial and, as ROLLBACK_RETRY (rollbackRetry) does when it is
due, programs the anti-rollback counter up to the manifest's ROLLBACK; with the conditions unmet it stays due (14 R402).
FUSE_REREAD (fuseReread) counts, reports a difference, or waits behind the operation that runs, before all others (13
R386). The three complete in every state. VPP_FUSE_PRESENCE (vppFusePresence) follows the pin, ends an operation that it
fails, and within the ratings completes in every state; beyond them the model stops (13 R380; 17 R469, R488). -/
def Obligations.FuseUpkeep : Prop :=
  ∀ s : State,
    (∀ c : Instr, (c = .trialEnd ∧ s.isReady 2 = true ∧ s.trust.trial ≠ none) ∨
        (c = .rollbackRetry ∧ s.trust.rollbackDue = true ∧ s.fuse.op = none) →
      let tr : Trust := if c = .trialEnd then { s.trust with trial := none } else s.trust
      let w : State := if c = .trialEnd then s.setTime (max s.tk.now s.trialEndAt) else s
      let bits := s.fuse.needed ((List.range s.trust.fw.rollback).map (fun i => s.fuse.bitAt (288 + i / 64) (i % 64)))
      (∃ t, exec c s = .next t ∧ State.Only [.out, .mem, .cnt, .sched, .host, .jnl, .err, .fuse, .trust] w t) ∧
      (c = .trialEnd → s.tk.now < 2 ^ 64 → s.trialEndAt < 2 ^ 64 →
        w.tk.now = max s.tk.now s.trialEndAt ∧ State.Only [.cnt, .tk, .hbm, .idle] s w) ∧
      (s.rollback < s.trust.fw.rollback → s.fuse.op ≠ none → exec c s = .next { w with
        trust := { tr with rollbackDue := true }, fuse := { s.fuse with waiting := s.fuse.waiting ++ [.rollback] } }) ∧
      (s.trust.fw.rollback ≤ s.rollback → exec c s = .next { w with trust := { tr with rollbackDue := false } }) ∧
      (s.rollback < s.trust.fw.rollback → s.fuse.op = none → s.fuseReady s.fuse.vpp = false →
        exec c s = .next { w with trust := { tr with rollbackDue := true } }) ∧
      (s.rollback < s.trust.fw.rollback → s.fuse.op = none → s.fuseReady s.fuse.vpp = true → bits ≠ [] →
        exec c s = .next { w with
          trust := { tr with rollbackDue := true }
          fuse := { s.fuse with op := some ⟨.rollback, bits, [], s.fuse.vpp, 0, false⟩ } })) ∧
    (s.isReady 2 = false ∨ s.trust.trial = none → exec .trialEnd s = .next s) ∧
    (s.trust.rollbackDue = false ∨ s.fuse.op ≠ none → exec .rollbackRetry s = .next s) ∧
    (∀ reads, s.isReady 1 = false ∨ s.pwr.sleep = 3 → exec (.fuseReread reads) s = .next s) ∧
    (∀ reads, s.isReady 1 = true → s.pwr.sleep ≠ 3 →
      (s.fuse.op ≠ none → exec (.fuseReread reads) s = .next { s with
        fuse := { s.fuse with waiting := .reread reads :: s.fuse.waiting } }) ∧
      (s.fuse.op = none → s.rereadBad reads = [] → exec (.fuseReread reads) s = .next (s.count srcFuse 2 1)) ∧
      (s.fuse.op = none → s.rereadBad reads ≠ [] → ∃ t, exec (.fuseReread reads) s = .next t ∧
        t.fuse = { s.fuse with
          alarm := true, mismatch := s.fuse.mismatch + (s.rereadBad reads).length
          mismatchAon := s.fuse.mismatchAon + (s.rereadBad reads).length } ∧
        State.Only [.out, .mem, .cnt, .host, .err, .fuse] s t ∧ State.Told (fun _ => False) s t)) ∧
    (∀ (mv : Nat) (outs : List (Nat × Nat)),
      let p := decide (5200 ≤ mv) && decide (mv ≤ 5800)
      (6000 < mv → exec (.vppFusePresence mv outs) s = .fault .outsideRatings) ∧
      (mv ≤ 6000 → ∃ t, exec (.vppFusePresence mv outs) s = .next t ∧
        State.Only [.freeCtr, .out, .upsets, .mem, .poison, .wbQueue, .cnt, .facets, .sched, .ap, .hbm, .dma,
          .tmplStatus, .exp, .cnd, .img, .wav, .net, .beam, .host, .jnl, .err, .pwr, .fuse, .trust, .ready] s t) ∧
      (mv ≤ 6000 → (∀ op, s.fuse.op = some op → s.fuseReady false = true ∧ (op.external = false ∨ p = true ∧ op.cut = false)) →
        exec (.vppFusePresence mv outs) s = .next { s with fuse := { s.fuse with vpp := p } }) ∧
      (∀ op, mv ≤ 6000 → p = false → s.fuse.op = some op → op.external = true → s.fuse.waiting = [] → s.quiet →
        ∃ t, exec (.vppFusePresence mv outs) s = .next t ∧ t.fuse.op = none ∧ t.fuse.vpp = false ∧
          (∀ x, s.fuse.isFirm x = true → SMap.wf 0 s.fuse.firm = true → t.fuse.isFirm x = true) ∧
          State.Only [.out, .mem, .cnt, .sched, .host, .jnl, .fuse] s t))

/-! ### The tick edge (02) -/

/-- TICK_EDGE (tickEdge) completes in every state; without the TIME domain it changes nothing (15 R417). It moves the
tick number, and at a second's end takes a pending rate; edges lie at round(k/n) of the second (02 R32 to R34). With a
schedule running, the ending tick is counted as overrun, invalid or valid for each Facet (02 R64 to R66; 16 R465), and
each Facet begins its program of the new slot (02 R38). The Aperture takes the limits of the active image, and full
egress as policy and lifecycle give it then (01 R30, R31). -/
def Obligations.TicksRun : Prop :=
  (∀ (px : Int) (rows : List RawRow) (s : State),
    (s.pwr.pll[8] ≠ .good → exec (.tickEdge px rows) s = .next s) ∧
    (∃ t, exec (.tickEdge px rows) s = .next t ∧ t.pending = s.pending)) ∧
  (∀ (px : Int) (rows : List RawRow) (s : State), s.Settled →
    let n := s.tk.nextEdge
    (s.tk.k + 1 < s.tk.rate → n = { s.tk with
      tick := (s.tk.tick + 1) % 2 ^ 64, k := s.tk.k + 1
      edge := s.tk.sec * 1000000000 + (2 * (s.tk.k + 1) * 1000000000 + s.tk.rate) / (2 * s.tk.rate) }) ∧
    (s.tk.rate ≤ s.tk.k + 1 → n = { s.tk with
      tick := (s.tk.sec + 1) * s.tk.pendingRate.getD s.tk.rate % 2 ^ 64, sec := s.tk.sec + 1, k := 0
      edge := (s.tk.sec + 1) * 1000000000, rate := s.tk.pendingRate.getD s.tk.rate, pendingRate := none }) ∧
    ∃ t, exec (.tickEdge px rows) s = .next t ∧ t.tk = { n with now := max s.tk.now n.edge % 2 ^ 64 } ∧
      t.sched.start = none ∧ t.ap.crop = s.sched.active.map (·.crop) ∧ t.ap.full = s.fullEgress ∧
      t.sched.active = s.sched.active ∧ t.sched.running = s.sched.running ∧ t.pwr.level = s.pwr.level ∧
      t.pwr.shed = s.pwr.shed ∧ t.fuse = s.fuse ∧ t.trust = s.trust ∧
      (∀ (im : Image) (f : Fin 16), s.runningImage = some im → s.sched.mode = .main → s.pwr.shed = 0 →
        bitOf im.mask f.val = true →
        let x := s.facets[f]
        let y := t.facets[f]
        let late := x.phase = .running ∨ x.phase = .waiting
        y.overruns = x.overruns + (if late then 1 else 0) ∧
        y.invalidTicks = x.invalidTicks + (if late ∨ x.invalid = true then 1 else 0) ∧
        y.validTicks = x.validTicks + (if ¬ late ∧ x.invalid = false ∧ x.mainProg = true then 1 else 0) ∧
        (s.isReady (5 + f.val / 4) = true → s.err.isolated.getLsbD (f.val / 4) = false →
          let e := im.program true f.val (n.tick % im.h)
          y.prog = (im.ops.drop e.first).take e.count ∧ y.recIdx = e.first ∧ y.slot = n.tick % im.h ∧
          y.phase = (if e.count = 0 then .idle else .running) ∧ y.mainProg = true ∧ y.invalid = false ∧
          y.flags = [] ∧ y.acc = [] ∧ y.cycle = 0)) ∧
      (∀ (im : Image) (i : Nat) (x : Tmpl), s.runningImage = some im → s.sched.mode = .main → s.pwr.shed = 0 →
        im.templates[i]? = some x → x.slot = n.tick % im.h →
        (∀ (j : Nat) (y : Tmpl), im.templates[j]? = some y → y.slot = x.slot →
          fin5 y.engine = fin5 x.engine → fin8 y.channel = fin8 x.channel → j = i) →
        s.engineOut (fin5 x.engine) = false → (s.chan (fin5 x.engine) (fin8 x.channel)).phase = .idle →
        t.chan (fin5 x.engine) (fin8 x.channel) = { Channel.reset with
          phase := .fetching, at_ := .tmpl i, store := tmplChain im.templates (im.templates.length + 1) i []
          latch := (s.chan (fin5 x.engine) (fin8 x.channel)).latch
          seq := (s.chan (fin5 x.engine) (fin8 x.channel)).seq }))

/-- What TICK_EDGE (tickEdge) brings about. START takes effect at the edge of its tick: the image is active and runs
from slot 0 of its figures on; STOP takes effect at the next edge, or at the hyperperiod's, and with DISCARD leaves no
active image (02 R61, R62); the Aperture's limits are those of the image that is active from the edge on (01 R31). What
else waits for an edge: shedding goes down to its target stage and comes up one stage when every input has been clear
for 10 ms (15 R442, R445), a level change that is ready switches (15 R428), a snapshot is taken (16 R463), a restarted
Prism rejoins at a hyperperiod (16 R456), and firmware is activated by a reset with cause 4 (14 R402). -/
def Obligations.EdgesTakeEffect : Prop :=
  (∀ (px : Int) (rows : List RawRow) (s : State),
    State.Settled { s with sched := { s.sched with start := none, stop := none } } →
    let n := s.tk.nextEdge
    (∀ (p : StartPend) (im : Image), s.sched.start = some p → s.sched.stop = none → p.fixed = true → p.t = n.tick →
      (if p.staged then s.sched.staged else s.sched.active) = some im →
      ∃ t, exec (.tickEdge px rows) s = .next t ∧ t.sched.start = none ∧ t.sched.active = some im ∧
        t.sched.staged = (if p.staged then none else s.sched.staged) ∧ t.sched.running = true ∧
        t.sched.startTick = n.tick ∧ t.tk.tick = n.tick ∧ t.ap.crop = some im.crop ∧
        (t.sched.validTicks, t.sched.invalidTicks, t.sched.suspendedTicks) = (0, 0, 0) ∧
        (∀ f : Fin 16, im.objective = none → s.pwr.shed = 0 → bitOf im.mask f.val = true →
          s.isReady (5 + f.val / 4) = true → s.err.isolated.getLsbD (f.val / 4) = false →
          let e := im.program true f.val (n.tick % im.h)
          (t.facets[f]).prog = (im.ops.drop e.first).take e.count ∧ (t.facets[f]).overruns = 0)) ∧
    (∀ (boundary discard : Bool) (im : Image), s.sched.start = none → s.sched.stop = some (boundary, discard) →
      s.sched.active = some im → s.sched.running = true →
      (boundary = true → n.tick % im.h = 0) →
      ∃ t, exec (.tickEdge px rows) s = .next t ∧ t.sched.stop = none ∧ t.sched.running = false ∧
        t.sched.active = (if discard then none else some im) ∧ t.tk.tick = n.tick ∧
        t.ap.crop = (if discard then none else some im.crop) ∧
        (∀ f : Fin 16, (t.facets[f]).phase = .idle ∧ (t.facets[f]).prog = [])) ∧
    (∀ (discard : Bool) (im : Image), s.sched.start = none → s.sched.stop = some (true, discard) →
      s.sched.active = some im → s.sched.running = true → n.tick % im.h ≠ 0 →
      ∃ t, exec (.tickEdge px rows) s = .next t ∧ t.sched.stop = some (true, discard) ∧ t.sched.running = true ∧
        t.sched.active = some im)) ∧
  (∀ (px : Int) (rows : List RawRow) (s : State),
    let n := s.tk.nextEdge
    let calm (p : Power) : Power := { p with shed := p.target, change := none }
    (State.Settled { s with pwr := calm s.pwr } → s.pwr.change = none →
      (s.pwr.shed < s.pwr.target → s.pwr.target ≤ 3 →
        ∃ t, exec (.tickEdge px rows) s = .next t ∧ t.pwr.shed = s.pwr.target ∧
          t.pwr.shedCount = s.pwr.shedCount + (s.pwr.target - s.pwr.shed) ∧
          (2 ≤ s.pwr.target → s.pwr.shed < 2 → ∀ b, 6 ≤ b → b ≤ 9 → t.isReady b = false) ∧
          (s.pwr.target = 3 → t.isReady 4 = false ∧ t.isReady 5 = false ∧ t.pwr.enCore = false ∧
            t.jnl.sealed = true) ∧
          (2 ≤ s.pwr.target → s.runningImage ≠ none → t.sched.mode ≠ .main)) ∧
      (s.pwr.target < s.pwr.shed → s.pwr.mayUndo s.pwr.shed n.edge = true →
        ∃ t, exec (.tickEdge px rows) s = .next t ∧ t.pwr.shed = s.pwr.shed - 1) ∧
      (s.pwr.target < s.pwr.shed → s.pwr.mayUndo s.pwr.shed n.edge = false →
        ∃ t, exec (.tickEdge px rows) s = .next t ∧ t.pwr.shed = s.pwr.shed)) ∧
    (∀ l v, State.Settled { s with pwr := calm s.pwr } → s.pwr.shed = s.pwr.target →
      s.pwr.change = some (.upReady l v) → s.pwr.idleJudged = true → s.pwr.idleLevel = l → s.pwr.nextTarget = none →
      ∃ t, exec (.tickEdge px rows) s = .next t ∧ t.pwr.level = l ∧ t.pwr.change = none ∧ t.pwr.vid = s.pwr.vid) ∧
    (∀ T o, State.Settled { s with err := { s.err with snap := none } } → s.err.snap = some (T, o) → T ≤ n.tick →
      ∃ t, exec (.tickEdge px rows) s = .next t ∧ t.err.snap = none ∧ t.host.snapDone = true ∧
        t.err.shadow.map (fun x => (x.tick, x.count, x.origin)) = some (n.tick, s.err.snapCount + 1, o)) ∧
    (∀ (r : Fin 4) (im : Image), State.Settled { s with err := { s.err with rejoin := 0 } } →
      s.err.rejoin = BitVec.ofNat 7 (2 ^ r.val) → s.runningImage = some im → n.tick % im.h = 0 →
      ∃ t, exec (.tickEdge px rows) s = .next t ∧ t.err.isolated.getLsbD r.val = false ∧
        t.err.restarting.getLsbD r.val = false ∧ t.isReady (5 + r.val) = true) ∧
    (∀ (a : Accepted) (k T : Nat), s.pwr.pll[8] = .good → s.trust.activate = some (a, k, some T) → T ≤ n.tick →
      ∃ t, exec (.tickEdge px rows) s = .next t ∧ t.trust.preferred = k ∧ t.trust.trial = some s.trust.preferred ∧
        t.pwr.resetCause = 4 ∧ t.pwr.resetCount = min 255 (s.pwr.resetCount + 1) ∧ t.tk = TimeSt.reset ∧
        t.pwr.phase = (if t.fuse.startFailure = none then .starting else .held) ∧
        s.fuse.cutBy t.fuse ∧ t.trust.flash = s.trust.flash))
end

