-- ==== Sys2Proof/Laws/Frame.lean ====
section
/-! SUPPORT. Frames: which fields of State differ between two states. -/

set_option Elab.async false

namespace Sys2Proof.Machine

theorem Field.same_refl (f : Field) (s : State) : f.same s s := by cases f <;> rfl

theorem Field.same_trans {f : Field} {s t u : State} (h : f.same s t) (h' : f.same t u) : f.same s u := by
  cases f <;> exact h'.trans h

variable {m l : List Field} {s t u : State}

theorem State.Only.refl (m : List Field) (s : State) : State.Only m s s := fun f _ => f.same_refl s

theorem State.Only.trans (h : State.Only m s t) (h' : State.Only m t u) : State.Only m s u :=
  fun f hf => Field.same_trans (h f hf) (h' f hf)

theorem State.Only.mono (h : State.Only l s t) (hl : l ⊆ m) : State.Only m s t :=
  fun f hf => h f (fun q => hf (hl q))

/-- A change of the fields of `l` on top of earlier ones. -/
theorem State.Only.upd (h : State.Only m s t) (h' : State.Only l t u) (hl : l ⊆ m) : State.Only m s u :=
  h.trans (h'.mono hl)

/-! ### Outcomes -/

theorem keeps_next {P : State → Prop} {s : State} (h : P s) : Keeps P (.next s) := h

theorem keeps_mono {P Q : State → Prop} {o : Host.Outcome State Fault Refusal} (h : Keeps P o) (hi : ∀ t, P t → Q t) :
    Keeps Q o := by
  cases o with
  | next t => exact hi t h
  | fault f => trivial
  | refused r => trivial

end Sys2Proof.Machine
end

