-- ==== Sys2Proof/Laws/State.lean ====
section
/-! SUPPORT. What each update of State leaves in each field: one lemma per field and update, so that no proof
unfolds an update. -/

set_option Elab.async false

namespace Sys2Proof.Machine

/-! ### updFacet -/

@[simp] theorem State.updFacet_pending (s : State) (f : Fin 16) (g : Facet → Facet) : (s.updFacet f g).pending = s.pending := rfl
@[simp] theorem State.updFacet_freeCtr (s : State) (f : Fin 16) (g : Facet → Facet) : (s.updFacet f g).freeCtr = s.freeCtr := rfl
@[simp] theorem State.updFacet_out (s : State) (f : Fin 16) (g : Facet → Facet) : (s.updFacet f g).out = s.out := rfl
@[simp] theorem State.updFacet_upsets (s : State) (f : Fin 16) (g : Facet → Facet) : (s.updFacet f g).upsets = s.upsets := rfl
@[simp] theorem State.updFacet_mem (s : State) (f : Fin 16) (g : Facet → Facet) : (s.updFacet f g).mem = s.mem := rfl
@[simp] theorem State.updFacet_poison (s : State) (f : Fin 16) (g : Facet → Facet) : (s.updFacet f g).poison = s.poison := rfl
@[simp] theorem State.updFacet_wbQueue (s : State) (f : Fin 16) (g : Facet → Facet) : (s.updFacet f g).wbQueue = s.wbQueue := rfl
@[simp] theorem State.updFacet_cnt (s : State) (f : Fin 16) (g : Facet → Facet) : (s.updFacet f g).cnt = s.cnt := rfl
@[simp] theorem State.updFacet_tk (s : State) (f : Fin 16) (g : Facet → Facet) : (s.updFacet f g).tk = s.tk := rfl
@[simp] theorem State.updFacet_facets (s : State) (f : Fin 16) (g : Facet → Facet) : (s.updFacet f g).facets = s.facets.set f (g s.facets[f]) := rfl
@[simp] theorem State.updFacet_sched (s : State) (f : Fin 16) (g : Facet → Facet) : (s.updFacet f g).sched = s.sched := rfl
@[simp] theorem State.updFacet_ap (s : State) (f : Fin 16) (g : Facet → Facet) : (s.updFacet f g).ap = s.ap := rfl
@[simp] theorem State.updFacet_hbm (s : State) (f : Fin 16) (g : Facet → Facet) : (s.updFacet f g).hbm = s.hbm := rfl
@[simp] theorem State.updFacet_dma (s : State) (f : Fin 16) (g : Facet → Facet) : (s.updFacet f g).dma = s.dma := rfl
@[simp] theorem State.updFacet_tmplStatus (s : State) (f : Fin 16) (g : Facet → Facet) : (s.updFacet f g).tmplStatus = s.tmplStatus := rfl
@[simp] theorem State.updFacet_exp (s : State) (f : Fin 16) (g : Facet → Facet) : (s.updFacet f g).exp = s.exp := rfl
@[simp] theorem State.updFacet_cnd (s : State) (f : Fin 16) (g : Facet → Facet) : (s.updFacet f g).cnd = s.cnd := rfl
@[simp] theorem State.updFacet_img (s : State) (f : Fin 16) (g : Facet → Facet) : (s.updFacet f g).img = s.img := rfl
@[simp] theorem State.updFacet_wav (s : State) (f : Fin 16) (g : Facet → Facet) : (s.updFacet f g).wav = s.wav := rfl
@[simp] theorem State.updFacet_net (s : State) (f : Fin 16) (g : Facet → Facet) : (s.updFacet f g).net = s.net := rfl
@[simp] theorem State.updFacet_beam (s : State) (f : Fin 16) (g : Facet → Facet) : (s.updFacet f g).beam = s.beam := rfl
@[simp] theorem State.updFacet_host (s : State) (f : Fin 16) (g : Facet → Facet) : (s.updFacet f g).host = s.host := rfl
@[simp] theorem State.updFacet_jnl (s : State) (f : Fin 16) (g : Facet → Facet) : (s.updFacet f g).jnl = s.jnl := rfl
@[simp] theorem State.updFacet_err (s : State) (f : Fin 16) (g : Facet → Facet) : (s.updFacet f g).err = s.err := rfl
@[simp] theorem State.updFacet_pwr (s : State) (f : Fin 16) (g : Facet → Facet) : (s.updFacet f g).pwr = s.pwr := rfl
@[simp] theorem State.updFacet_fuse (s : State) (f : Fin 16) (g : Facet → Facet) : (s.updFacet f g).fuse = s.fuse := rfl
@[simp] theorem State.updFacet_trust (s : State) (f : Fin 16) (g : Facet → Facet) : (s.updFacet f g).trust = s.trust := rfl
@[simp] theorem State.updFacet_ready (s : State) (f : Fin 16) (g : Facet → Facet) : (s.updFacet f g).ready = s.ready := rfl
@[simp] theorem State.updFacet_idleNs (s : State) (f : Fin 16) (g : Facet → Facet) : (s.updFacet f g).idleNs = s.idleNs := rfl

/-! ### updRegion -/

@[simp] theorem State.updRegion_pending (s : State) (f r : Fin 16) (g : RegionSt → RegionSt) : (s.updRegion f r g).pending = s.pending := rfl
@[simp] theorem State.updRegion_freeCtr (s : State) (f r : Fin 16) (g : RegionSt → RegionSt) : (s.updRegion f r g).freeCtr = s.freeCtr := rfl
@[simp] theorem State.updRegion_out (s : State) (f r : Fin 16) (g : RegionSt → RegionSt) : (s.updRegion f r g).out = s.out := rfl
@[simp] theorem State.updRegion_upsets (s : State) (f r : Fin 16) (g : RegionSt → RegionSt) : (s.updRegion f r g).upsets = s.upsets := rfl
@[simp] theorem State.updRegion_mem (s : State) (f r : Fin 16) (g : RegionSt → RegionSt) : (s.updRegion f r g).mem = s.mem := rfl
@[simp] theorem State.updRegion_poison (s : State) (f r : Fin 16) (g : RegionSt → RegionSt) : (s.updRegion f r g).poison = s.poison := rfl
@[simp] theorem State.updRegion_wbQueue (s : State) (f r : Fin 16) (g : RegionSt → RegionSt) : (s.updRegion f r g).wbQueue = s.wbQueue := rfl
@[simp] theorem State.updRegion_cnt (s : State) (f r : Fin 16) (g : RegionSt → RegionSt) : (s.updRegion f r g).cnt = s.cnt := rfl
@[simp] theorem State.updRegion_tk (s : State) (f r : Fin 16) (g : RegionSt → RegionSt) : (s.updRegion f r g).tk = s.tk := rfl
@[simp] theorem State.updRegion_sched (s : State) (f r : Fin 16) (g : RegionSt → RegionSt) : (s.updRegion f r g).sched = s.sched := rfl
@[simp] theorem State.updRegion_ap (s : State) (f r : Fin 16) (g : RegionSt → RegionSt) : (s.updRegion f r g).ap = s.ap := rfl
@[simp] theorem State.updRegion_hbm (s : State) (f r : Fin 16) (g : RegionSt → RegionSt) : (s.updRegion f r g).hbm = s.hbm := rfl
@[simp] theorem State.updRegion_dma (s : State) (f r : Fin 16) (g : RegionSt → RegionSt) : (s.updRegion f r g).dma = s.dma := rfl
@[simp] theorem State.updRegion_tmplStatus (s : State) (f r : Fin 16) (g : RegionSt → RegionSt) : (s.updRegion f r g).tmplStatus = s.tmplStatus := rfl
@[simp] theorem State.updRegion_exp (s : State) (f r : Fin 16) (g : RegionSt → RegionSt) : (s.updRegion f r g).exp = s.exp := rfl
@[simp] theorem State.updRegion_cnd (s : State) (f r : Fin 16) (g : RegionSt → RegionSt) : (s.updRegion f r g).cnd = s.cnd := rfl
@[simp] theorem State.updRegion_img (s : State) (f r : Fin 16) (g : RegionSt → RegionSt) : (s.updRegion f r g).img = s.img := rfl
@[simp] theorem State.updRegion_wav (s : State) (f r : Fin 16) (g : RegionSt → RegionSt) : (s.updRegion f r g).wav = s.wav := rfl
@[simp] theorem State.updRegion_net (s : State) (f r : Fin 16) (g : RegionSt → RegionSt) : (s.updRegion f r g).net = s.net := rfl
@[simp] theorem State.updRegion_beam (s : State) (f r : Fin 16) (g : RegionSt → RegionSt) : (s.updRegion f r g).beam = s.beam := rfl
@[simp] theorem State.updRegion_host (s : State) (f r : Fin 16) (g : RegionSt → RegionSt) : (s.updRegion f r g).host = s.host := rfl
@[simp] theorem State.updRegion_jnl (s : State) (f r : Fin 16) (g : RegionSt → RegionSt) : (s.updRegion f r g).jnl = s.jnl := rfl
@[simp] theorem State.updRegion_err (s : State) (f r : Fin 16) (g : RegionSt → RegionSt) : (s.updRegion f r g).err = s.err := rfl
@[simp] theorem State.updRegion_pwr (s : State) (f r : Fin 16) (g : RegionSt → RegionSt) : (s.updRegion f r g).pwr = s.pwr := rfl
@[simp] theorem State.updRegion_fuse (s : State) (f r : Fin 16) (g : RegionSt → RegionSt) : (s.updRegion f r g).fuse = s.fuse := rfl
@[simp] theorem State.updRegion_trust (s : State) (f r : Fin 16) (g : RegionSt → RegionSt) : (s.updRegion f r g).trust = s.trust := rfl
@[simp] theorem State.updRegion_ready (s : State) (f r : Fin 16) (g : RegionSt → RegionSt) : (s.updRegion f r g).ready = s.ready := rfl
@[simp] theorem State.updRegion_idleNs (s : State) (f r : Fin 16) (g : RegionSt → RegionSt) : (s.updRegion f r g).idleNs = s.idleNs := rfl

/-! ### updChan -/

@[simp] theorem State.updChan_pending (s : State) (e : Fin 5) (c : Fin 8) (g : Channel → Channel) : (s.updChan e c g).pending = s.pending := rfl
@[simp] theorem State.updChan_freeCtr (s : State) (e : Fin 5) (c : Fin 8) (g : Channel → Channel) : (s.updChan e c g).freeCtr = s.freeCtr := rfl
@[simp] theorem State.updChan_out (s : State) (e : Fin 5) (c : Fin 8) (g : Channel → Channel) : (s.updChan e c g).out = s.out := rfl
@[simp] theorem State.updChan_upsets (s : State) (e : Fin 5) (c : Fin 8) (g : Channel → Channel) : (s.updChan e c g).upsets = s.upsets := rfl
@[simp] theorem State.updChan_mem (s : State) (e : Fin 5) (c : Fin 8) (g : Channel → Channel) : (s.updChan e c g).mem = s.mem := rfl
@[simp] theorem State.updChan_poison (s : State) (e : Fin 5) (c : Fin 8) (g : Channel → Channel) : (s.updChan e c g).poison = s.poison := rfl
@[simp] theorem State.updChan_wbQueue (s : State) (e : Fin 5) (c : Fin 8) (g : Channel → Channel) : (s.updChan e c g).wbQueue = s.wbQueue := rfl
@[simp] theorem State.updChan_cnt (s : State) (e : Fin 5) (c : Fin 8) (g : Channel → Channel) : (s.updChan e c g).cnt = s.cnt := rfl
@[simp] theorem State.updChan_tk (s : State) (e : Fin 5) (c : Fin 8) (g : Channel → Channel) : (s.updChan e c g).tk = s.tk := rfl
@[simp] theorem State.updChan_facets (s : State) (e : Fin 5) (c : Fin 8) (g : Channel → Channel) : (s.updChan e c g).facets = s.facets := rfl
@[simp] theorem State.updChan_sched (s : State) (e : Fin 5) (c : Fin 8) (g : Channel → Channel) : (s.updChan e c g).sched = s.sched := rfl
@[simp] theorem State.updChan_ap (s : State) (e : Fin 5) (c : Fin 8) (g : Channel → Channel) : (s.updChan e c g).ap = s.ap := rfl
@[simp] theorem State.updChan_hbm (s : State) (e : Fin 5) (c : Fin 8) (g : Channel → Channel) : (s.updChan e c g).hbm = s.hbm := rfl
@[simp] theorem State.updChan_tmplStatus (s : State) (e : Fin 5) (c : Fin 8) (g : Channel → Channel) : (s.updChan e c g).tmplStatus = s.tmplStatus := rfl
@[simp] theorem State.updChan_exp (s : State) (e : Fin 5) (c : Fin 8) (g : Channel → Channel) : (s.updChan e c g).exp = s.exp := rfl
@[simp] theorem State.updChan_cnd (s : State) (e : Fin 5) (c : Fin 8) (g : Channel → Channel) : (s.updChan e c g).cnd = s.cnd := rfl
@[simp] theorem State.updChan_img (s : State) (e : Fin 5) (c : Fin 8) (g : Channel → Channel) : (s.updChan e c g).img = s.img := rfl
@[simp] theorem State.updChan_wav (s : State) (e : Fin 5) (c : Fin 8) (g : Channel → Channel) : (s.updChan e c g).wav = s.wav := rfl
@[simp] theorem State.updChan_net (s : State) (e : Fin 5) (c : Fin 8) (g : Channel → Channel) : (s.updChan e c g).net = s.net := rfl
@[simp] theorem State.updChan_beam (s : State) (e : Fin 5) (c : Fin 8) (g : Channel → Channel) : (s.updChan e c g).beam = s.beam := rfl
@[simp] theorem State.updChan_host (s : State) (e : Fin 5) (c : Fin 8) (g : Channel → Channel) : (s.updChan e c g).host = s.host := rfl
@[simp] theorem State.updChan_jnl (s : State) (e : Fin 5) (c : Fin 8) (g : Channel → Channel) : (s.updChan e c g).jnl = s.jnl := rfl
@[simp] theorem State.updChan_err (s : State) (e : Fin 5) (c : Fin 8) (g : Channel → Channel) : (s.updChan e c g).err = s.err := rfl
@[simp] theorem State.updChan_pwr (s : State) (e : Fin 5) (c : Fin 8) (g : Channel → Channel) : (s.updChan e c g).pwr = s.pwr := rfl
@[simp] theorem State.updChan_fuse (s : State) (e : Fin 5) (c : Fin 8) (g : Channel → Channel) : (s.updChan e c g).fuse = s.fuse := rfl
@[simp] theorem State.updChan_trust (s : State) (e : Fin 5) (c : Fin 8) (g : Channel → Channel) : (s.updChan e c g).trust = s.trust := rfl
@[simp] theorem State.updChan_ready (s : State) (e : Fin 5) (c : Fin 8) (g : Channel → Channel) : (s.updChan e c g).ready = s.ready := rfl
@[simp] theorem State.updChan_idleNs (s : State) (e : Fin 5) (c : Fin 8) (g : Channel → Channel) : (s.updChan e c g).idleNs = s.idleNs := rfl

/-! ### updHost -/

@[simp] theorem State.updHost_pending (s : State) (g : HostCtl → HostCtl) : (s.updHost g).pending = s.pending := rfl
@[simp] theorem State.updHost_freeCtr (s : State) (g : HostCtl → HostCtl) : (s.updHost g).freeCtr = s.freeCtr := rfl
@[simp] theorem State.updHost_out (s : State) (g : HostCtl → HostCtl) : (s.updHost g).out = s.out := rfl
@[simp] theorem State.updHost_upsets (s : State) (g : HostCtl → HostCtl) : (s.updHost g).upsets = s.upsets := rfl
@[simp] theorem State.updHost_mem (s : State) (g : HostCtl → HostCtl) : (s.updHost g).mem = s.mem := rfl
@[simp] theorem State.updHost_poison (s : State) (g : HostCtl → HostCtl) : (s.updHost g).poison = s.poison := rfl
@[simp] theorem State.updHost_wbQueue (s : State) (g : HostCtl → HostCtl) : (s.updHost g).wbQueue = s.wbQueue := rfl
@[simp] theorem State.updHost_cnt (s : State) (g : HostCtl → HostCtl) : (s.updHost g).cnt = s.cnt := rfl
@[simp] theorem State.updHost_tk (s : State) (g : HostCtl → HostCtl) : (s.updHost g).tk = s.tk := rfl
@[simp] theorem State.updHost_facets (s : State) (g : HostCtl → HostCtl) : (s.updHost g).facets = s.facets := rfl
@[simp] theorem State.updHost_sched (s : State) (g : HostCtl → HostCtl) : (s.updHost g).sched = s.sched := rfl
@[simp] theorem State.updHost_ap (s : State) (g : HostCtl → HostCtl) : (s.updHost g).ap = s.ap := rfl
@[simp] theorem State.updHost_hbm (s : State) (g : HostCtl → HostCtl) : (s.updHost g).hbm = s.hbm := rfl
@[simp] theorem State.updHost_dma (s : State) (g : HostCtl → HostCtl) : (s.updHost g).dma = s.dma := rfl
@[simp] theorem State.updHost_tmplStatus (s : State) (g : HostCtl → HostCtl) : (s.updHost g).tmplStatus = s.tmplStatus := rfl
@[simp] theorem State.updHost_exp (s : State) (g : HostCtl → HostCtl) : (s.updHost g).exp = s.exp := rfl
@[simp] theorem State.updHost_cnd (s : State) (g : HostCtl → HostCtl) : (s.updHost g).cnd = s.cnd := rfl
@[simp] theorem State.updHost_img (s : State) (g : HostCtl → HostCtl) : (s.updHost g).img = s.img := rfl
@[simp] theorem State.updHost_wav (s : State) (g : HostCtl → HostCtl) : (s.updHost g).wav = s.wav := rfl
@[simp] theorem State.updHost_net (s : State) (g : HostCtl → HostCtl) : (s.updHost g).net = s.net := rfl
@[simp] theorem State.updHost_beam (s : State) (g : HostCtl → HostCtl) : (s.updHost g).beam = s.beam := rfl
@[simp] theorem State.updHost_host (s : State) (g : HostCtl → HostCtl) : (s.updHost g).host = g s.host := rfl
@[simp] theorem State.updHost_jnl (s : State) (g : HostCtl → HostCtl) : (s.updHost g).jnl = s.jnl := rfl
@[simp] theorem State.updHost_err (s : State) (g : HostCtl → HostCtl) : (s.updHost g).err = s.err := rfl
@[simp] theorem State.updHost_pwr (s : State) (g : HostCtl → HostCtl) : (s.updHost g).pwr = s.pwr := rfl
@[simp] theorem State.updHost_fuse (s : State) (g : HostCtl → HostCtl) : (s.updHost g).fuse = s.fuse := rfl
@[simp] theorem State.updHost_trust (s : State) (g : HostCtl → HostCtl) : (s.updHost g).trust = s.trust := rfl
@[simp] theorem State.updHost_ready (s : State) (g : HostCtl → HostCtl) : (s.updHost g).ready = s.ready := rfl
@[simp] theorem State.updHost_idleNs (s : State) (g : HostCtl → HostCtl) : (s.updHost g).idleNs = s.idleNs := rfl

/-! ### updErr -/

@[simp] theorem State.updErr_pending (s : State) (g : Errors → Errors) : (s.updErr g).pending = s.pending := rfl
@[simp] theorem State.updErr_freeCtr (s : State) (g : Errors → Errors) : (s.updErr g).freeCtr = s.freeCtr := rfl
@[simp] theorem State.updErr_out (s : State) (g : Errors → Errors) : (s.updErr g).out = s.out := rfl
@[simp] theorem State.updErr_upsets (s : State) (g : Errors → Errors) : (s.updErr g).upsets = s.upsets := rfl
@[simp] theorem State.updErr_mem (s : State) (g : Errors → Errors) : (s.updErr g).mem = s.mem := rfl
@[simp] theorem State.updErr_poison (s : State) (g : Errors → Errors) : (s.updErr g).poison = s.poison := rfl
@[simp] theorem State.updErr_wbQueue (s : State) (g : Errors → Errors) : (s.updErr g).wbQueue = s.wbQueue := rfl
@[simp] theorem State.updErr_cnt (s : State) (g : Errors → Errors) : (s.updErr g).cnt = s.cnt := rfl
@[simp] theorem State.updErr_tk (s : State) (g : Errors → Errors) : (s.updErr g).tk = s.tk := rfl
@[simp] theorem State.updErr_facets (s : State) (g : Errors → Errors) : (s.updErr g).facets = s.facets := rfl
@[simp] theorem State.updErr_sched (s : State) (g : Errors → Errors) : (s.updErr g).sched = s.sched := rfl
@[simp] theorem State.updErr_ap (s : State) (g : Errors → Errors) : (s.updErr g).ap = s.ap := rfl
@[simp] theorem State.updErr_hbm (s : State) (g : Errors → Errors) : (s.updErr g).hbm = s.hbm := rfl
@[simp] theorem State.updErr_dma (s : State) (g : Errors → Errors) : (s.updErr g).dma = s.dma := rfl
@[simp] theorem State.updErr_tmplStatus (s : State) (g : Errors → Errors) : (s.updErr g).tmplStatus = s.tmplStatus := rfl
@[simp] theorem State.updErr_exp (s : State) (g : Errors → Errors) : (s.updErr g).exp = s.exp := rfl
@[simp] theorem State.updErr_cnd (s : State) (g : Errors → Errors) : (s.updErr g).cnd = s.cnd := rfl
@[simp] theorem State.updErr_img (s : State) (g : Errors → Errors) : (s.updErr g).img = s.img := rfl
@[simp] theorem State.updErr_wav (s : State) (g : Errors → Errors) : (s.updErr g).wav = s.wav := rfl
@[simp] theorem State.updErr_net (s : State) (g : Errors → Errors) : (s.updErr g).net = s.net := rfl
@[simp] theorem State.updErr_beam (s : State) (g : Errors → Errors) : (s.updErr g).beam = s.beam := rfl
@[simp] theorem State.updErr_host (s : State) (g : Errors → Errors) : (s.updErr g).host = s.host := rfl
@[simp] theorem State.updErr_jnl (s : State) (g : Errors → Errors) : (s.updErr g).jnl = s.jnl := rfl
@[simp] theorem State.updErr_err (s : State) (g : Errors → Errors) : (s.updErr g).err = g s.err := rfl
@[simp] theorem State.updErr_pwr (s : State) (g : Errors → Errors) : (s.updErr g).pwr = s.pwr := rfl
@[simp] theorem State.updErr_fuse (s : State) (g : Errors → Errors) : (s.updErr g).fuse = s.fuse := rfl
@[simp] theorem State.updErr_trust (s : State) (g : Errors → Errors) : (s.updErr g).trust = s.trust := rfl
@[simp] theorem State.updErr_ready (s : State) (g : Errors → Errors) : (s.updErr g).ready = s.ready := rfl
@[simp] theorem State.updErr_idleNs (s : State) (g : Errors → Errors) : (s.updErr g).idleNs = s.idleNs := rfl

/-! ### updHbm -/

@[simp] theorem State.updHbm_pending (s : State) (g : Hbm → Hbm) : (s.updHbm g).pending = s.pending := rfl
@[simp] theorem State.updHbm_freeCtr (s : State) (g : Hbm → Hbm) : (s.updHbm g).freeCtr = s.freeCtr := rfl
@[simp] theorem State.updHbm_out (s : State) (g : Hbm → Hbm) : (s.updHbm g).out = s.out := rfl
@[simp] theorem State.updHbm_upsets (s : State) (g : Hbm → Hbm) : (s.updHbm g).upsets = s.upsets := rfl
@[simp] theorem State.updHbm_mem (s : State) (g : Hbm → Hbm) : (s.updHbm g).mem = s.mem := rfl
@[simp] theorem State.updHbm_poison (s : State) (g : Hbm → Hbm) : (s.updHbm g).poison = s.poison := rfl
@[simp] theorem State.updHbm_wbQueue (s : State) (g : Hbm → Hbm) : (s.updHbm g).wbQueue = s.wbQueue := rfl
@[simp] theorem State.updHbm_cnt (s : State) (g : Hbm → Hbm) : (s.updHbm g).cnt = s.cnt := rfl
@[simp] theorem State.updHbm_tk (s : State) (g : Hbm → Hbm) : (s.updHbm g).tk = s.tk := rfl
@[simp] theorem State.updHbm_facets (s : State) (g : Hbm → Hbm) : (s.updHbm g).facets = s.facets := rfl
@[simp] theorem State.updHbm_sched (s : State) (g : Hbm → Hbm) : (s.updHbm g).sched = s.sched := rfl
@[simp] theorem State.updHbm_ap (s : State) (g : Hbm → Hbm) : (s.updHbm g).ap = s.ap := rfl
@[simp] theorem State.updHbm_hbm (s : State) (g : Hbm → Hbm) : (s.updHbm g).hbm = g s.hbm := rfl
@[simp] theorem State.updHbm_dma (s : State) (g : Hbm → Hbm) : (s.updHbm g).dma = s.dma := rfl
@[simp] theorem State.updHbm_tmplStatus (s : State) (g : Hbm → Hbm) : (s.updHbm g).tmplStatus = s.tmplStatus := rfl
@[simp] theorem State.updHbm_exp (s : State) (g : Hbm → Hbm) : (s.updHbm g).exp = s.exp := rfl
@[simp] theorem State.updHbm_cnd (s : State) (g : Hbm → Hbm) : (s.updHbm g).cnd = s.cnd := rfl
@[simp] theorem State.updHbm_img (s : State) (g : Hbm → Hbm) : (s.updHbm g).img = s.img := rfl
@[simp] theorem State.updHbm_wav (s : State) (g : Hbm → Hbm) : (s.updHbm g).wav = s.wav := rfl
@[simp] theorem State.updHbm_net (s : State) (g : Hbm → Hbm) : (s.updHbm g).net = s.net := rfl
@[simp] theorem State.updHbm_beam (s : State) (g : Hbm → Hbm) : (s.updHbm g).beam = s.beam := rfl
@[simp] theorem State.updHbm_host (s : State) (g : Hbm → Hbm) : (s.updHbm g).host = s.host := rfl
@[simp] theorem State.updHbm_jnl (s : State) (g : Hbm → Hbm) : (s.updHbm g).jnl = s.jnl := rfl
@[simp] theorem State.updHbm_err (s : State) (g : Hbm → Hbm) : (s.updHbm g).err = s.err := rfl
@[simp] theorem State.updHbm_pwr (s : State) (g : Hbm → Hbm) : (s.updHbm g).pwr = s.pwr := rfl
@[simp] theorem State.updHbm_fuse (s : State) (g : Hbm → Hbm) : (s.updHbm g).fuse = s.fuse := rfl
@[simp] theorem State.updHbm_trust (s : State) (g : Hbm → Hbm) : (s.updHbm g).trust = s.trust := rfl
@[simp] theorem State.updHbm_ready (s : State) (g : Hbm → Hbm) : (s.updHbm g).ready = s.ready := rfl
@[simp] theorem State.updHbm_idleNs (s : State) (g : Hbm → Hbm) : (s.updHbm g).idleNs = s.idleNs := rfl

/-! ### updSched -/

@[simp] theorem State.updSched_pending (s : State) (g : Sched → Sched) : (s.updSched g).pending = s.pending := rfl
@[simp] theorem State.updSched_freeCtr (s : State) (g : Sched → Sched) : (s.updSched g).freeCtr = s.freeCtr := rfl
@[simp] theorem State.updSched_out (s : State) (g : Sched → Sched) : (s.updSched g).out = s.out := rfl
@[simp] theorem State.updSched_upsets (s : State) (g : Sched → Sched) : (s.updSched g).upsets = s.upsets := rfl
@[simp] theorem State.updSched_mem (s : State) (g : Sched → Sched) : (s.updSched g).mem = s.mem := rfl
@[simp] theorem State.updSched_poison (s : State) (g : Sched → Sched) : (s.updSched g).poison = s.poison := rfl
@[simp] theorem State.updSched_wbQueue (s : State) (g : Sched → Sched) : (s.updSched g).wbQueue = s.wbQueue := rfl
@[simp] theorem State.updSched_cnt (s : State) (g : Sched → Sched) : (s.updSched g).cnt = s.cnt := rfl
@[simp] theorem State.updSched_tk (s : State) (g : Sched → Sched) : (s.updSched g).tk = s.tk := rfl
@[simp] theorem State.updSched_facets (s : State) (g : Sched → Sched) : (s.updSched g).facets = s.facets := rfl
@[simp] theorem State.updSched_sched (s : State) (g : Sched → Sched) : (s.updSched g).sched = g s.sched := rfl
@[simp] theorem State.updSched_ap (s : State) (g : Sched → Sched) : (s.updSched g).ap = s.ap := rfl
@[simp] theorem State.updSched_hbm (s : State) (g : Sched → Sched) : (s.updSched g).hbm = s.hbm := rfl
@[simp] theorem State.updSched_dma (s : State) (g : Sched → Sched) : (s.updSched g).dma = s.dma := rfl
@[simp] theorem State.updSched_tmplStatus (s : State) (g : Sched → Sched) : (s.updSched g).tmplStatus = s.tmplStatus := rfl
@[simp] theorem State.updSched_exp (s : State) (g : Sched → Sched) : (s.updSched g).exp = s.exp := rfl
@[simp] theorem State.updSched_cnd (s : State) (g : Sched → Sched) : (s.updSched g).cnd = s.cnd := rfl
@[simp] theorem State.updSched_img (s : State) (g : Sched → Sched) : (s.updSched g).img = s.img := rfl
@[simp] theorem State.updSched_wav (s : State) (g : Sched → Sched) : (s.updSched g).wav = s.wav := rfl
@[simp] theorem State.updSched_net (s : State) (g : Sched → Sched) : (s.updSched g).net = s.net := rfl
@[simp] theorem State.updSched_beam (s : State) (g : Sched → Sched) : (s.updSched g).beam = s.beam := rfl
@[simp] theorem State.updSched_host (s : State) (g : Sched → Sched) : (s.updSched g).host = s.host := rfl
@[simp] theorem State.updSched_jnl (s : State) (g : Sched → Sched) : (s.updSched g).jnl = s.jnl := rfl
@[simp] theorem State.updSched_err (s : State) (g : Sched → Sched) : (s.updSched g).err = s.err := rfl
@[simp] theorem State.updSched_pwr (s : State) (g : Sched → Sched) : (s.updSched g).pwr = s.pwr := rfl
@[simp] theorem State.updSched_fuse (s : State) (g : Sched → Sched) : (s.updSched g).fuse = s.fuse := rfl
@[simp] theorem State.updSched_trust (s : State) (g : Sched → Sched) : (s.updSched g).trust = s.trust := rfl
@[simp] theorem State.updSched_ready (s : State) (g : Sched → Sched) : (s.updSched g).ready = s.ready := rfl
@[simp] theorem State.updSched_idleNs (s : State) (g : Sched → Sched) : (s.updSched g).idleNs = s.idleNs := rfl

/-! ### updPwr -/

@[simp] theorem State.updPwr_pending (s : State) (g : Power → Power) : (s.updPwr g).pending = s.pending := rfl
@[simp] theorem State.updPwr_freeCtr (s : State) (g : Power → Power) : (s.updPwr g).freeCtr = s.freeCtr := rfl
@[simp] theorem State.updPwr_out (s : State) (g : Power → Power) : (s.updPwr g).out = s.out := rfl
@[simp] theorem State.updPwr_upsets (s : State) (g : Power → Power) : (s.updPwr g).upsets = s.upsets := rfl
@[simp] theorem State.updPwr_mem (s : State) (g : Power → Power) : (s.updPwr g).mem = s.mem := rfl
@[simp] theorem State.updPwr_poison (s : State) (g : Power → Power) : (s.updPwr g).poison = s.poison := rfl
@[simp] theorem State.updPwr_wbQueue (s : State) (g : Power → Power) : (s.updPwr g).wbQueue = s.wbQueue := rfl
@[simp] theorem State.updPwr_cnt (s : State) (g : Power → Power) : (s.updPwr g).cnt = s.cnt := rfl
@[simp] theorem State.updPwr_tk (s : State) (g : Power → Power) : (s.updPwr g).tk = s.tk := rfl
@[simp] theorem State.updPwr_facets (s : State) (g : Power → Power) : (s.updPwr g).facets = s.facets := rfl
@[simp] theorem State.updPwr_sched (s : State) (g : Power → Power) : (s.updPwr g).sched = s.sched := rfl
@[simp] theorem State.updPwr_ap (s : State) (g : Power → Power) : (s.updPwr g).ap = s.ap := rfl
@[simp] theorem State.updPwr_hbm (s : State) (g : Power → Power) : (s.updPwr g).hbm = s.hbm := rfl
@[simp] theorem State.updPwr_dma (s : State) (g : Power → Power) : (s.updPwr g).dma = s.dma := rfl
@[simp] theorem State.updPwr_tmplStatus (s : State) (g : Power → Power) : (s.updPwr g).tmplStatus = s.tmplStatus := rfl
@[simp] theorem State.updPwr_exp (s : State) (g : Power → Power) : (s.updPwr g).exp = s.exp := rfl
@[simp] theorem State.updPwr_cnd (s : State) (g : Power → Power) : (s.updPwr g).cnd = s.cnd := rfl
@[simp] theorem State.updPwr_img (s : State) (g : Power → Power) : (s.updPwr g).img = s.img := rfl
@[simp] theorem State.updPwr_wav (s : State) (g : Power → Power) : (s.updPwr g).wav = s.wav := rfl
@[simp] theorem State.updPwr_net (s : State) (g : Power → Power) : (s.updPwr g).net = s.net := rfl
@[simp] theorem State.updPwr_beam (s : State) (g : Power → Power) : (s.updPwr g).beam = s.beam := rfl
@[simp] theorem State.updPwr_host (s : State) (g : Power → Power) : (s.updPwr g).host = s.host := rfl
@[simp] theorem State.updPwr_jnl (s : State) (g : Power → Power) : (s.updPwr g).jnl = s.jnl := rfl
@[simp] theorem State.updPwr_err (s : State) (g : Power → Power) : (s.updPwr g).err = s.err := rfl
@[simp] theorem State.updPwr_pwr (s : State) (g : Power → Power) : (s.updPwr g).pwr = g s.pwr := rfl
@[simp] theorem State.updPwr_fuse (s : State) (g : Power → Power) : (s.updPwr g).fuse = s.fuse := rfl
@[simp] theorem State.updPwr_trust (s : State) (g : Power → Power) : (s.updPwr g).trust = s.trust := rfl
@[simp] theorem State.updPwr_ready (s : State) (g : Power → Power) : (s.updPwr g).ready = s.ready := rfl
@[simp] theorem State.updPwr_idleNs (s : State) (g : Power → Power) : (s.updPwr g).idleNs = s.idleNs := rfl

/-! ### updFuse -/

@[simp] theorem State.updFuse_pending (s : State) (g : FuseSt → FuseSt) : (s.updFuse g).pending = s.pending := rfl
@[simp] theorem State.updFuse_freeCtr (s : State) (g : FuseSt → FuseSt) : (s.updFuse g).freeCtr = s.freeCtr := rfl
@[simp] theorem State.updFuse_out (s : State) (g : FuseSt → FuseSt) : (s.updFuse g).out = s.out := rfl
@[simp] theorem State.updFuse_upsets (s : State) (g : FuseSt → FuseSt) : (s.updFuse g).upsets = s.upsets := rfl
@[simp] theorem State.updFuse_mem (s : State) (g : FuseSt → FuseSt) : (s.updFuse g).mem = s.mem := rfl
@[simp] theorem State.updFuse_poison (s : State) (g : FuseSt → FuseSt) : (s.updFuse g).poison = s.poison := rfl
@[simp] theorem State.updFuse_wbQueue (s : State) (g : FuseSt → FuseSt) : (s.updFuse g).wbQueue = s.wbQueue := rfl
@[simp] theorem State.updFuse_cnt (s : State) (g : FuseSt → FuseSt) : (s.updFuse g).cnt = s.cnt := rfl
@[simp] theorem State.updFuse_tk (s : State) (g : FuseSt → FuseSt) : (s.updFuse g).tk = s.tk := rfl
@[simp] theorem State.updFuse_facets (s : State) (g : FuseSt → FuseSt) : (s.updFuse g).facets = s.facets := rfl
@[simp] theorem State.updFuse_sched (s : State) (g : FuseSt → FuseSt) : (s.updFuse g).sched = s.sched := rfl
@[simp] theorem State.updFuse_ap (s : State) (g : FuseSt → FuseSt) : (s.updFuse g).ap = s.ap := rfl
@[simp] theorem State.updFuse_hbm (s : State) (g : FuseSt → FuseSt) : (s.updFuse g).hbm = s.hbm := rfl
@[simp] theorem State.updFuse_dma (s : State) (g : FuseSt → FuseSt) : (s.updFuse g).dma = s.dma := rfl
@[simp] theorem State.updFuse_tmplStatus (s : State) (g : FuseSt → FuseSt) : (s.updFuse g).tmplStatus = s.tmplStatus := rfl
@[simp] theorem State.updFuse_exp (s : State) (g : FuseSt → FuseSt) : (s.updFuse g).exp = s.exp := rfl
@[simp] theorem State.updFuse_cnd (s : State) (g : FuseSt → FuseSt) : (s.updFuse g).cnd = s.cnd := rfl
@[simp] theorem State.updFuse_img (s : State) (g : FuseSt → FuseSt) : (s.updFuse g).img = s.img := rfl
@[simp] theorem State.updFuse_wav (s : State) (g : FuseSt → FuseSt) : (s.updFuse g).wav = s.wav := rfl
@[simp] theorem State.updFuse_net (s : State) (g : FuseSt → FuseSt) : (s.updFuse g).net = s.net := rfl
@[simp] theorem State.updFuse_beam (s : State) (g : FuseSt → FuseSt) : (s.updFuse g).beam = s.beam := rfl
@[simp] theorem State.updFuse_host (s : State) (g : FuseSt → FuseSt) : (s.updFuse g).host = s.host := rfl
@[simp] theorem State.updFuse_jnl (s : State) (g : FuseSt → FuseSt) : (s.updFuse g).jnl = s.jnl := rfl
@[simp] theorem State.updFuse_err (s : State) (g : FuseSt → FuseSt) : (s.updFuse g).err = s.err := rfl
@[simp] theorem State.updFuse_pwr (s : State) (g : FuseSt → FuseSt) : (s.updFuse g).pwr = s.pwr := rfl
@[simp] theorem State.updFuse_fuse (s : State) (g : FuseSt → FuseSt) : (s.updFuse g).fuse = g s.fuse := rfl
@[simp] theorem State.updFuse_trust (s : State) (g : FuseSt → FuseSt) : (s.updFuse g).trust = s.trust := rfl
@[simp] theorem State.updFuse_ready (s : State) (g : FuseSt → FuseSt) : (s.updFuse g).ready = s.ready := rfl
@[simp] theorem State.updFuse_idleNs (s : State) (g : FuseSt → FuseSt) : (s.updFuse g).idleNs = s.idleNs := rfl

/-! ### updTrust -/

@[simp] theorem State.updTrust_pending (s : State) (g : Trust → Trust) : (s.updTrust g).pending = s.pending := rfl
@[simp] theorem State.updTrust_freeCtr (s : State) (g : Trust → Trust) : (s.updTrust g).freeCtr = s.freeCtr := rfl
@[simp] theorem State.updTrust_out (s : State) (g : Trust → Trust) : (s.updTrust g).out = s.out := rfl
@[simp] theorem State.updTrust_upsets (s : State) (g : Trust → Trust) : (s.updTrust g).upsets = s.upsets := rfl
@[simp] theorem State.updTrust_mem (s : State) (g : Trust → Trust) : (s.updTrust g).mem = s.mem := rfl
@[simp] theorem State.updTrust_poison (s : State) (g : Trust → Trust) : (s.updTrust g).poison = s.poison := rfl
@[simp] theorem State.updTrust_wbQueue (s : State) (g : Trust → Trust) : (s.updTrust g).wbQueue = s.wbQueue := rfl
@[simp] theorem State.updTrust_cnt (s : State) (g : Trust → Trust) : (s.updTrust g).cnt = s.cnt := rfl
@[simp] theorem State.updTrust_tk (s : State) (g : Trust → Trust) : (s.updTrust g).tk = s.tk := rfl
@[simp] theorem State.updTrust_facets (s : State) (g : Trust → Trust) : (s.updTrust g).facets = s.facets := rfl
@[simp] theorem State.updTrust_sched (s : State) (g : Trust → Trust) : (s.updTrust g).sched = s.sched := rfl
@[simp] theorem State.updTrust_ap (s : State) (g : Trust → Trust) : (s.updTrust g).ap = s.ap := rfl
@[simp] theorem State.updTrust_hbm (s : State) (g : Trust → Trust) : (s.updTrust g).hbm = s.hbm := rfl
@[simp] theorem State.updTrust_dma (s : State) (g : Trust → Trust) : (s.updTrust g).dma = s.dma := rfl
@[simp] theorem State.updTrust_tmplStatus (s : State) (g : Trust → Trust) : (s.updTrust g).tmplStatus = s.tmplStatus := rfl
@[simp] theorem State.updTrust_exp (s : State) (g : Trust → Trust) : (s.updTrust g).exp = s.exp := rfl
@[simp] theorem State.updTrust_cnd (s : State) (g : Trust → Trust) : (s.updTrust g).cnd = s.cnd := rfl
@[simp] theorem State.updTrust_img (s : State) (g : Trust → Trust) : (s.updTrust g).img = s.img := rfl
@[simp] theorem State.updTrust_wav (s : State) (g : Trust → Trust) : (s.updTrust g).wav = s.wav := rfl
@[simp] theorem State.updTrust_net (s : State) (g : Trust → Trust) : (s.updTrust g).net = s.net := rfl
@[simp] theorem State.updTrust_beam (s : State) (g : Trust → Trust) : (s.updTrust g).beam = s.beam := rfl
@[simp] theorem State.updTrust_host (s : State) (g : Trust → Trust) : (s.updTrust g).host = s.host := rfl
@[simp] theorem State.updTrust_jnl (s : State) (g : Trust → Trust) : (s.updTrust g).jnl = s.jnl := rfl
@[simp] theorem State.updTrust_err (s : State) (g : Trust → Trust) : (s.updTrust g).err = s.err := rfl
@[simp] theorem State.updTrust_pwr (s : State) (g : Trust → Trust) : (s.updTrust g).pwr = s.pwr := rfl
@[simp] theorem State.updTrust_fuse (s : State) (g : Trust → Trust) : (s.updTrust g).fuse = s.fuse := rfl
@[simp] theorem State.updTrust_trust (s : State) (g : Trust → Trust) : (s.updTrust g).trust = g s.trust := rfl
@[simp] theorem State.updTrust_ready (s : State) (g : Trust → Trust) : (s.updTrust g).ready = s.ready := rfl
@[simp] theorem State.updTrust_idleNs (s : State) (g : Trust → Trust) : (s.updTrust g).idleNs = s.idleNs := rfl

/-! ### updImg -/

@[simp] theorem State.updImg_pending (s : State) (g : Img → Img) : (s.updImg g).pending = s.pending := rfl
@[simp] theorem State.updImg_freeCtr (s : State) (g : Img → Img) : (s.updImg g).freeCtr = s.freeCtr := rfl
@[simp] theorem State.updImg_out (s : State) (g : Img → Img) : (s.updImg g).out = s.out := rfl
@[simp] theorem State.updImg_upsets (s : State) (g : Img → Img) : (s.updImg g).upsets = s.upsets := rfl
@[simp] theorem State.updImg_mem (s : State) (g : Img → Img) : (s.updImg g).mem = s.mem := rfl
@[simp] theorem State.updImg_poison (s : State) (g : Img → Img) : (s.updImg g).poison = s.poison := rfl
@[simp] theorem State.updImg_wbQueue (s : State) (g : Img → Img) : (s.updImg g).wbQueue = s.wbQueue := rfl
@[simp] theorem State.updImg_cnt (s : State) (g : Img → Img) : (s.updImg g).cnt = s.cnt := rfl
@[simp] theorem State.updImg_tk (s : State) (g : Img → Img) : (s.updImg g).tk = s.tk := rfl
@[simp] theorem State.updImg_facets (s : State) (g : Img → Img) : (s.updImg g).facets = s.facets := rfl
@[simp] theorem State.updImg_sched (s : State) (g : Img → Img) : (s.updImg g).sched = s.sched := rfl
@[simp] theorem State.updImg_ap (s : State) (g : Img → Img) : (s.updImg g).ap = s.ap := rfl
@[simp] theorem State.updImg_hbm (s : State) (g : Img → Img) : (s.updImg g).hbm = s.hbm := rfl
@[simp] theorem State.updImg_dma (s : State) (g : Img → Img) : (s.updImg g).dma = s.dma := rfl
@[simp] theorem State.updImg_tmplStatus (s : State) (g : Img → Img) : (s.updImg g).tmplStatus = s.tmplStatus := rfl
@[simp] theorem State.updImg_exp (s : State) (g : Img → Img) : (s.updImg g).exp = s.exp := rfl
@[simp] theorem State.updImg_cnd (s : State) (g : Img → Img) : (s.updImg g).cnd = s.cnd := rfl
@[simp] theorem State.updImg_img (s : State) (g : Img → Img) : (s.updImg g).img = g s.img := rfl
@[simp] theorem State.updImg_wav (s : State) (g : Img → Img) : (s.updImg g).wav = s.wav := rfl
@[simp] theorem State.updImg_net (s : State) (g : Img → Img) : (s.updImg g).net = s.net := rfl
@[simp] theorem State.updImg_beam (s : State) (g : Img → Img) : (s.updImg g).beam = s.beam := rfl
@[simp] theorem State.updImg_host (s : State) (g : Img → Img) : (s.updImg g).host = s.host := rfl
@[simp] theorem State.updImg_jnl (s : State) (g : Img → Img) : (s.updImg g).jnl = s.jnl := rfl
@[simp] theorem State.updImg_err (s : State) (g : Img → Img) : (s.updImg g).err = s.err := rfl
@[simp] theorem State.updImg_pwr (s : State) (g : Img → Img) : (s.updImg g).pwr = s.pwr := rfl
@[simp] theorem State.updImg_fuse (s : State) (g : Img → Img) : (s.updImg g).fuse = s.fuse := rfl
@[simp] theorem State.updImg_trust (s : State) (g : Img → Img) : (s.updImg g).trust = s.trust := rfl
@[simp] theorem State.updImg_ready (s : State) (g : Img → Img) : (s.updImg g).ready = s.ready := rfl
@[simp] theorem State.updImg_idleNs (s : State) (g : Img → Img) : (s.updImg g).idleNs = s.idleNs := rfl

/-! ### updWav -/

@[simp] theorem State.updWav_pending (s : State) (g : Wav → Wav) : (s.updWav g).pending = s.pending := rfl
@[simp] theorem State.updWav_freeCtr (s : State) (g : Wav → Wav) : (s.updWav g).freeCtr = s.freeCtr := rfl
@[simp] theorem State.updWav_out (s : State) (g : Wav → Wav) : (s.updWav g).out = s.out := rfl
@[simp] theorem State.updWav_upsets (s : State) (g : Wav → Wav) : (s.updWav g).upsets = s.upsets := rfl
@[simp] theorem State.updWav_mem (s : State) (g : Wav → Wav) : (s.updWav g).mem = s.mem := rfl
@[simp] theorem State.updWav_poison (s : State) (g : Wav → Wav) : (s.updWav g).poison = s.poison := rfl
@[simp] theorem State.updWav_wbQueue (s : State) (g : Wav → Wav) : (s.updWav g).wbQueue = s.wbQueue := rfl
@[simp] theorem State.updWav_cnt (s : State) (g : Wav → Wav) : (s.updWav g).cnt = s.cnt := rfl
@[simp] theorem State.updWav_tk (s : State) (g : Wav → Wav) : (s.updWav g).tk = s.tk := rfl
@[simp] theorem State.updWav_facets (s : State) (g : Wav → Wav) : (s.updWav g).facets = s.facets := rfl
@[simp] theorem State.updWav_sched (s : State) (g : Wav → Wav) : (s.updWav g).sched = s.sched := rfl
@[simp] theorem State.updWav_ap (s : State) (g : Wav → Wav) : (s.updWav g).ap = s.ap := rfl
@[simp] theorem State.updWav_hbm (s : State) (g : Wav → Wav) : (s.updWav g).hbm = s.hbm := rfl
@[simp] theorem State.updWav_dma (s : State) (g : Wav → Wav) : (s.updWav g).dma = s.dma := rfl
@[simp] theorem State.updWav_tmplStatus (s : State) (g : Wav → Wav) : (s.updWav g).tmplStatus = s.tmplStatus := rfl
@[simp] theorem State.updWav_exp (s : State) (g : Wav → Wav) : (s.updWav g).exp = s.exp := rfl
@[simp] theorem State.updWav_cnd (s : State) (g : Wav → Wav) : (s.updWav g).cnd = s.cnd := rfl
@[simp] theorem State.updWav_img (s : State) (g : Wav → Wav) : (s.updWav g).img = s.img := rfl
@[simp] theorem State.updWav_wav (s : State) (g : Wav → Wav) : (s.updWav g).wav = g s.wav := rfl
@[simp] theorem State.updWav_net (s : State) (g : Wav → Wav) : (s.updWav g).net = s.net := rfl
@[simp] theorem State.updWav_beam (s : State) (g : Wav → Wav) : (s.updWav g).beam = s.beam := rfl
@[simp] theorem State.updWav_host (s : State) (g : Wav → Wav) : (s.updWav g).host = s.host := rfl
@[simp] theorem State.updWav_jnl (s : State) (g : Wav → Wav) : (s.updWav g).jnl = s.jnl := rfl
@[simp] theorem State.updWav_err (s : State) (g : Wav → Wav) : (s.updWav g).err = s.err := rfl
@[simp] theorem State.updWav_pwr (s : State) (g : Wav → Wav) : (s.updWav g).pwr = s.pwr := rfl
@[simp] theorem State.updWav_fuse (s : State) (g : Wav → Wav) : (s.updWav g).fuse = s.fuse := rfl
@[simp] theorem State.updWav_trust (s : State) (g : Wav → Wav) : (s.updWav g).trust = s.trust := rfl
@[simp] theorem State.updWav_ready (s : State) (g : Wav → Wav) : (s.updWav g).ready = s.ready := rfl
@[simp] theorem State.updWav_idleNs (s : State) (g : Wav → Wav) : (s.updWav g).idleNs = s.idleNs := rfl

/-! ### updNet -/

@[simp] theorem State.updNet_pending (s : State) (g : Net → Net) : (s.updNet g).pending = s.pending := rfl
@[simp] theorem State.updNet_freeCtr (s : State) (g : Net → Net) : (s.updNet g).freeCtr = s.freeCtr := rfl
@[simp] theorem State.updNet_out (s : State) (g : Net → Net) : (s.updNet g).out = s.out := rfl
@[simp] theorem State.updNet_upsets (s : State) (g : Net → Net) : (s.updNet g).upsets = s.upsets := rfl
@[simp] theorem State.updNet_mem (s : State) (g : Net → Net) : (s.updNet g).mem = s.mem := rfl
@[simp] theorem State.updNet_poison (s : State) (g : Net → Net) : (s.updNet g).poison = s.poison := rfl
@[simp] theorem State.updNet_wbQueue (s : State) (g : Net → Net) : (s.updNet g).wbQueue = s.wbQueue := rfl
@[simp] theorem State.updNet_cnt (s : State) (g : Net → Net) : (s.updNet g).cnt = s.cnt := rfl
@[simp] theorem State.updNet_tk (s : State) (g : Net → Net) : (s.updNet g).tk = s.tk := rfl
@[simp] theorem State.updNet_facets (s : State) (g : Net → Net) : (s.updNet g).facets = s.facets := rfl
@[simp] theorem State.updNet_sched (s : State) (g : Net → Net) : (s.updNet g).sched = s.sched := rfl
@[simp] theorem State.updNet_ap (s : State) (g : Net → Net) : (s.updNet g).ap = s.ap := rfl
@[simp] theorem State.updNet_hbm (s : State) (g : Net → Net) : (s.updNet g).hbm = s.hbm := rfl
@[simp] theorem State.updNet_dma (s : State) (g : Net → Net) : (s.updNet g).dma = s.dma := rfl
@[simp] theorem State.updNet_tmplStatus (s : State) (g : Net → Net) : (s.updNet g).tmplStatus = s.tmplStatus := rfl
@[simp] theorem State.updNet_exp (s : State) (g : Net → Net) : (s.updNet g).exp = s.exp := rfl
@[simp] theorem State.updNet_cnd (s : State) (g : Net → Net) : (s.updNet g).cnd = s.cnd := rfl
@[simp] theorem State.updNet_img (s : State) (g : Net → Net) : (s.updNet g).img = s.img := rfl
@[simp] theorem State.updNet_wav (s : State) (g : Net → Net) : (s.updNet g).wav = s.wav := rfl
@[simp] theorem State.updNet_net (s : State) (g : Net → Net) : (s.updNet g).net = g s.net := rfl
@[simp] theorem State.updNet_beam (s : State) (g : Net → Net) : (s.updNet g).beam = s.beam := rfl
@[simp] theorem State.updNet_host (s : State) (g : Net → Net) : (s.updNet g).host = s.host := rfl
@[simp] theorem State.updNet_jnl (s : State) (g : Net → Net) : (s.updNet g).jnl = s.jnl := rfl
@[simp] theorem State.updNet_err (s : State) (g : Net → Net) : (s.updNet g).err = s.err := rfl
@[simp] theorem State.updNet_pwr (s : State) (g : Net → Net) : (s.updNet g).pwr = s.pwr := rfl
@[simp] theorem State.updNet_fuse (s : State) (g : Net → Net) : (s.updNet g).fuse = s.fuse := rfl
@[simp] theorem State.updNet_trust (s : State) (g : Net → Net) : (s.updNet g).trust = s.trust := rfl
@[simp] theorem State.updNet_ready (s : State) (g : Net → Net) : (s.updNet g).ready = s.ready := rfl
@[simp] theorem State.updNet_idleNs (s : State) (g : Net → Net) : (s.updNet g).idleNs = s.idleNs := rfl

/-! ### updBeam -/

@[simp] theorem State.updBeam_pending (s : State) (g : Beam → Beam) : (s.updBeam g).pending = s.pending := rfl
@[simp] theorem State.updBeam_freeCtr (s : State) (g : Beam → Beam) : (s.updBeam g).freeCtr = s.freeCtr := rfl
@[simp] theorem State.updBeam_out (s : State) (g : Beam → Beam) : (s.updBeam g).out = s.out := rfl
@[simp] theorem State.updBeam_upsets (s : State) (g : Beam → Beam) : (s.updBeam g).upsets = s.upsets := rfl
@[simp] theorem State.updBeam_mem (s : State) (g : Beam → Beam) : (s.updBeam g).mem = s.mem := rfl
@[simp] theorem State.updBeam_poison (s : State) (g : Beam → Beam) : (s.updBeam g).poison = s.poison := rfl
@[simp] theorem State.updBeam_wbQueue (s : State) (g : Beam → Beam) : (s.updBeam g).wbQueue = s.wbQueue := rfl
@[simp] theorem State.updBeam_cnt (s : State) (g : Beam → Beam) : (s.updBeam g).cnt = s.cnt := rfl
@[simp] theorem State.updBeam_tk (s : State) (g : Beam → Beam) : (s.updBeam g).tk = s.tk := rfl
@[simp] theorem State.updBeam_facets (s : State) (g : Beam → Beam) : (s.updBeam g).facets = s.facets := rfl
@[simp] theorem State.updBeam_sched (s : State) (g : Beam → Beam) : (s.updBeam g).sched = s.sched := rfl
@[simp] theorem State.updBeam_ap (s : State) (g : Beam → Beam) : (s.updBeam g).ap = s.ap := rfl
@[simp] theorem State.updBeam_hbm (s : State) (g : Beam → Beam) : (s.updBeam g).hbm = s.hbm := rfl
@[simp] theorem State.updBeam_dma (s : State) (g : Beam → Beam) : (s.updBeam g).dma = s.dma := rfl
@[simp] theorem State.updBeam_tmplStatus (s : State) (g : Beam → Beam) : (s.updBeam g).tmplStatus = s.tmplStatus := rfl
@[simp] theorem State.updBeam_exp (s : State) (g : Beam → Beam) : (s.updBeam g).exp = s.exp := rfl
@[simp] theorem State.updBeam_cnd (s : State) (g : Beam → Beam) : (s.updBeam g).cnd = s.cnd := rfl
@[simp] theorem State.updBeam_img (s : State) (g : Beam → Beam) : (s.updBeam g).img = s.img := rfl
@[simp] theorem State.updBeam_wav (s : State) (g : Beam → Beam) : (s.updBeam g).wav = s.wav := rfl
@[simp] theorem State.updBeam_net (s : State) (g : Beam → Beam) : (s.updBeam g).net = s.net := rfl
@[simp] theorem State.updBeam_beam (s : State) (g : Beam → Beam) : (s.updBeam g).beam = g s.beam := rfl
@[simp] theorem State.updBeam_host (s : State) (g : Beam → Beam) : (s.updBeam g).host = s.host := rfl
@[simp] theorem State.updBeam_jnl (s : State) (g : Beam → Beam) : (s.updBeam g).jnl = s.jnl := rfl
@[simp] theorem State.updBeam_err (s : State) (g : Beam → Beam) : (s.updBeam g).err = s.err := rfl
@[simp] theorem State.updBeam_pwr (s : State) (g : Beam → Beam) : (s.updBeam g).pwr = s.pwr := rfl
@[simp] theorem State.updBeam_fuse (s : State) (g : Beam → Beam) : (s.updBeam g).fuse = s.fuse := rfl
@[simp] theorem State.updBeam_trust (s : State) (g : Beam → Beam) : (s.updBeam g).trust = s.trust := rfl
@[simp] theorem State.updBeam_ready (s : State) (g : Beam → Beam) : (s.updBeam g).ready = s.ready := rfl
@[simp] theorem State.updBeam_idleNs (s : State) (g : Beam → Beam) : (s.updBeam g).idleNs = s.idleNs := rfl

/-! ### emit -/

@[simp] theorem State.emit_pending (s : State) (o : Output) : (s.emit o).pending = s.pending := rfl
@[simp] theorem State.emit_freeCtr (s : State) (o : Output) : (s.emit o).freeCtr = s.freeCtr := rfl
@[simp] theorem State.emit_out (s : State) (o : Output) : (s.emit o).out = o :: s.out := rfl
@[simp] theorem State.emit_upsets (s : State) (o : Output) : (s.emit o).upsets = s.upsets := rfl
@[simp] theorem State.emit_mem (s : State) (o : Output) : (s.emit o).mem = s.mem := rfl
@[simp] theorem State.emit_poison (s : State) (o : Output) : (s.emit o).poison = s.poison := rfl
@[simp] theorem State.emit_wbQueue (s : State) (o : Output) : (s.emit o).wbQueue = s.wbQueue := rfl
@[simp] theorem State.emit_cnt (s : State) (o : Output) : (s.emit o).cnt = s.cnt := rfl
@[simp] theorem State.emit_tk (s : State) (o : Output) : (s.emit o).tk = s.tk := rfl
@[simp] theorem State.emit_facets (s : State) (o : Output) : (s.emit o).facets = s.facets := rfl
@[simp] theorem State.emit_sched (s : State) (o : Output) : (s.emit o).sched = s.sched := rfl
@[simp] theorem State.emit_ap (s : State) (o : Output) : (s.emit o).ap = s.ap := rfl
@[simp] theorem State.emit_hbm (s : State) (o : Output) : (s.emit o).hbm = s.hbm := rfl
@[simp] theorem State.emit_dma (s : State) (o : Output) : (s.emit o).dma = s.dma := rfl
@[simp] theorem State.emit_tmplStatus (s : State) (o : Output) : (s.emit o).tmplStatus = s.tmplStatus := rfl
@[simp] theorem State.emit_exp (s : State) (o : Output) : (s.emit o).exp = s.exp := rfl
@[simp] theorem State.emit_cnd (s : State) (o : Output) : (s.emit o).cnd = s.cnd := rfl
@[simp] theorem State.emit_img (s : State) (o : Output) : (s.emit o).img = s.img := rfl
@[simp] theorem State.emit_wav (s : State) (o : Output) : (s.emit o).wav = s.wav := rfl
@[simp] theorem State.emit_net (s : State) (o : Output) : (s.emit o).net = s.net := rfl
@[simp] theorem State.emit_beam (s : State) (o : Output) : (s.emit o).beam = s.beam := rfl
@[simp] theorem State.emit_host (s : State) (o : Output) : (s.emit o).host = s.host := rfl
@[simp] theorem State.emit_jnl (s : State) (o : Output) : (s.emit o).jnl = s.jnl := rfl
@[simp] theorem State.emit_err (s : State) (o : Output) : (s.emit o).err = s.err := rfl
@[simp] theorem State.emit_pwr (s : State) (o : Output) : (s.emit o).pwr = s.pwr := rfl
@[simp] theorem State.emit_fuse (s : State) (o : Output) : (s.emit o).fuse = s.fuse := rfl
@[simp] theorem State.emit_trust (s : State) (o : Output) : (s.emit o).trust = s.trust := rfl
@[simp] theorem State.emit_ready (s : State) (o : Output) : (s.emit o).ready = s.ready := rfl
@[simp] theorem State.emit_idleNs (s : State) (o : Output) : (s.emit o).idleNs = s.idleNs := rfl

/-! ### drawn -/

@[simp] theorem State.drawn_pending (s : State) (n : Nat) : (s.drawn n).pending = s.pending := rfl
@[simp] theorem State.drawn_freeCtr (s : State) (n : Nat) : (s.drawn n).freeCtr = s.freeCtr + n := rfl
@[simp] theorem State.drawn_out (s : State) (n : Nat) : (s.drawn n).out = s.out := rfl
@[simp] theorem State.drawn_upsets (s : State) (n : Nat) : (s.drawn n).upsets = s.upsets := rfl
@[simp] theorem State.drawn_mem (s : State) (n : Nat) : (s.drawn n).mem = s.mem := rfl
@[simp] theorem State.drawn_poison (s : State) (n : Nat) : (s.drawn n).poison = s.poison := rfl
@[simp] theorem State.drawn_wbQueue (s : State) (n : Nat) : (s.drawn n).wbQueue = s.wbQueue := rfl
@[simp] theorem State.drawn_cnt (s : State) (n : Nat) : (s.drawn n).cnt = s.cnt := rfl
@[simp] theorem State.drawn_tk (s : State) (n : Nat) : (s.drawn n).tk = s.tk := rfl
@[simp] theorem State.drawn_facets (s : State) (n : Nat) : (s.drawn n).facets = s.facets := rfl
@[simp] theorem State.drawn_sched (s : State) (n : Nat) : (s.drawn n).sched = s.sched := rfl
@[simp] theorem State.drawn_ap (s : State) (n : Nat) : (s.drawn n).ap = s.ap := rfl
@[simp] theorem State.drawn_hbm (s : State) (n : Nat) : (s.drawn n).hbm = s.hbm := rfl
@[simp] theorem State.drawn_dma (s : State) (n : Nat) : (s.drawn n).dma = s.dma := rfl
@[simp] theorem State.drawn_tmplStatus (s : State) (n : Nat) : (s.drawn n).tmplStatus = s.tmplStatus := rfl
@[simp] theorem State.drawn_exp (s : State) (n : Nat) : (s.drawn n).exp = s.exp := rfl
@[simp] theorem State.drawn_cnd (s : State) (n : Nat) : (s.drawn n).cnd = s.cnd := rfl
@[simp] theorem State.drawn_img (s : State) (n : Nat) : (s.drawn n).img = s.img := rfl
@[simp] theorem State.drawn_wav (s : State) (n : Nat) : (s.drawn n).wav = s.wav := rfl
@[simp] theorem State.drawn_net (s : State) (n : Nat) : (s.drawn n).net = s.net := rfl
@[simp] theorem State.drawn_beam (s : State) (n : Nat) : (s.drawn n).beam = s.beam := rfl
@[simp] theorem State.drawn_host (s : State) (n : Nat) : (s.drawn n).host = s.host := rfl
@[simp] theorem State.drawn_jnl (s : State) (n : Nat) : (s.drawn n).jnl = s.jnl := rfl
@[simp] theorem State.drawn_err (s : State) (n : Nat) : (s.drawn n).err = s.err := rfl
@[simp] theorem State.drawn_pwr (s : State) (n : Nat) : (s.drawn n).pwr = s.pwr := rfl
@[simp] theorem State.drawn_fuse (s : State) (n : Nat) : (s.drawn n).fuse = s.fuse := rfl
@[simp] theorem State.drawn_trust (s : State) (n : Nat) : (s.drawn n).trust = s.trust := rfl
@[simp] theorem State.drawn_ready (s : State) (n : Nat) : (s.drawn n).ready = s.ready := rfl
@[simp] theorem State.drawn_idleNs (s : State) (n : Nat) : (s.drawn n).idleNs = s.idleNs := rfl

/-! ### setReady -/

@[simp] theorem State.setReady_pending (s : State) (b : Nat) (v : Bool) : (s.setReady b v).pending = s.pending := rfl
@[simp] theorem State.setReady_freeCtr (s : State) (b : Nat) (v : Bool) : (s.setReady b v).freeCtr = s.freeCtr := rfl
@[simp] theorem State.setReady_out (s : State) (b : Nat) (v : Bool) : (s.setReady b v).out = s.out := rfl
@[simp] theorem State.setReady_upsets (s : State) (b : Nat) (v : Bool) : (s.setReady b v).upsets = s.upsets := rfl
@[simp] theorem State.setReady_mem (s : State) (b : Nat) (v : Bool) : (s.setReady b v).mem = s.mem := rfl
@[simp] theorem State.setReady_poison (s : State) (b : Nat) (v : Bool) : (s.setReady b v).poison = s.poison := rfl
@[simp] theorem State.setReady_wbQueue (s : State) (b : Nat) (v : Bool) : (s.setReady b v).wbQueue = s.wbQueue := rfl
@[simp] theorem State.setReady_cnt (s : State) (b : Nat) (v : Bool) : (s.setReady b v).cnt = s.cnt := rfl
@[simp] theorem State.setReady_tk (s : State) (b : Nat) (v : Bool) : (s.setReady b v).tk = s.tk := rfl
@[simp] theorem State.setReady_facets (s : State) (b : Nat) (v : Bool) : (s.setReady b v).facets = s.facets := rfl
@[simp] theorem State.setReady_sched (s : State) (b : Nat) (v : Bool) : (s.setReady b v).sched = s.sched := rfl
@[simp] theorem State.setReady_ap (s : State) (b : Nat) (v : Bool) : (s.setReady b v).ap = s.ap := rfl
@[simp] theorem State.setReady_hbm (s : State) (b : Nat) (v : Bool) : (s.setReady b v).hbm = s.hbm := rfl
@[simp] theorem State.setReady_dma (s : State) (b : Nat) (v : Bool) : (s.setReady b v).dma = s.dma := rfl
@[simp] theorem State.setReady_tmplStatus (s : State) (b : Nat) (v : Bool) : (s.setReady b v).tmplStatus = s.tmplStatus := rfl
@[simp] theorem State.setReady_exp (s : State) (b : Nat) (v : Bool) : (s.setReady b v).exp = s.exp := rfl
@[simp] theorem State.setReady_cnd (s : State) (b : Nat) (v : Bool) : (s.setReady b v).cnd = s.cnd := rfl
@[simp] theorem State.setReady_img (s : State) (b : Nat) (v : Bool) : (s.setReady b v).img = s.img := rfl
@[simp] theorem State.setReady_wav (s : State) (b : Nat) (v : Bool) : (s.setReady b v).wav = s.wav := rfl
@[simp] theorem State.setReady_net (s : State) (b : Nat) (v : Bool) : (s.setReady b v).net = s.net := rfl
@[simp] theorem State.setReady_beam (s : State) (b : Nat) (v : Bool) : (s.setReady b v).beam = s.beam := rfl
@[simp] theorem State.setReady_host (s : State) (b : Nat) (v : Bool) : (s.setReady b v).host = s.host := rfl
@[simp] theorem State.setReady_jnl (s : State) (b : Nat) (v : Bool) : (s.setReady b v).jnl = s.jnl := rfl
@[simp] theorem State.setReady_err (s : State) (b : Nat) (v : Bool) : (s.setReady b v).err = s.err := rfl
@[simp] theorem State.setReady_pwr (s : State) (b : Nat) (v : Bool) : (s.setReady b v).pwr = s.pwr := rfl
@[simp] theorem State.setReady_fuse (s : State) (b : Nat) (v : Bool) : (s.setReady b v).fuse = s.fuse := rfl
@[simp] theorem State.setReady_trust (s : State) (b : Nat) (v : Bool) : (s.setReady b v).trust = s.trust := rfl

/-! ### setCtr -/

@[simp] theorem State.setCtr_pending (s : State) (src i v : Nat) : (s.setCtr src i v).pending = s.pending := rfl
@[simp] theorem State.setCtr_freeCtr (s : State) (src i v : Nat) : (s.setCtr src i v).freeCtr = s.freeCtr := rfl
@[simp] theorem State.setCtr_out (s : State) (src i v : Nat) : (s.setCtr src i v).out = s.out := rfl
@[simp] theorem State.setCtr_upsets (s : State) (src i v : Nat) : (s.setCtr src i v).upsets = s.upsets := rfl
@[simp] theorem State.setCtr_mem (s : State) (src i v : Nat) : (s.setCtr src i v).mem = s.mem := rfl
@[simp] theorem State.setCtr_poison (s : State) (src i v : Nat) : (s.setCtr src i v).poison = s.poison := rfl
@[simp] theorem State.setCtr_wbQueue (s : State) (src i v : Nat) : (s.setCtr src i v).wbQueue = s.wbQueue := rfl
@[simp] theorem State.setCtr_cnt (s : State) (src i v : Nat) : (s.setCtr src i v).cnt = s.cnt.set (ctrKey src i) v := rfl
@[simp] theorem State.setCtr_tk (s : State) (src i v : Nat) : (s.setCtr src i v).tk = s.tk := rfl
@[simp] theorem State.setCtr_facets (s : State) (src i v : Nat) : (s.setCtr src i v).facets = s.facets := rfl
@[simp] theorem State.setCtr_sched (s : State) (src i v : Nat) : (s.setCtr src i v).sched = s.sched := rfl
@[simp] theorem State.setCtr_ap (s : State) (src i v : Nat) : (s.setCtr src i v).ap = s.ap := rfl
@[simp] theorem State.setCtr_hbm (s : State) (src i v : Nat) : (s.setCtr src i v).hbm = s.hbm := rfl
@[simp] theorem State.setCtr_dma (s : State) (src i v : Nat) : (s.setCtr src i v).dma = s.dma := rfl
@[simp] theorem State.setCtr_tmplStatus (s : State) (src i v : Nat) : (s.setCtr src i v).tmplStatus = s.tmplStatus := rfl
@[simp] theorem State.setCtr_exp (s : State) (src i v : Nat) : (s.setCtr src i v).exp = s.exp := rfl
@[simp] theorem State.setCtr_cnd (s : State) (src i v : Nat) : (s.setCtr src i v).cnd = s.cnd := rfl
@[simp] theorem State.setCtr_img (s : State) (src i v : Nat) : (s.setCtr src i v).img = s.img := rfl
@[simp] theorem State.setCtr_wav (s : State) (src i v : Nat) : (s.setCtr src i v).wav = s.wav := rfl
@[simp] theorem State.setCtr_net (s : State) (src i v : Nat) : (s.setCtr src i v).net = s.net := rfl
@[simp] theorem State.setCtr_beam (s : State) (src i v : Nat) : (s.setCtr src i v).beam = s.beam := rfl
@[simp] theorem State.setCtr_host (s : State) (src i v : Nat) : (s.setCtr src i v).host = s.host := rfl
@[simp] theorem State.setCtr_jnl (s : State) (src i v : Nat) : (s.setCtr src i v).jnl = s.jnl := rfl
@[simp] theorem State.setCtr_err (s : State) (src i v : Nat) : (s.setCtr src i v).err = s.err := rfl
@[simp] theorem State.setCtr_pwr (s : State) (src i v : Nat) : (s.setCtr src i v).pwr = s.pwr := rfl
@[simp] theorem State.setCtr_fuse (s : State) (src i v : Nat) : (s.setCtr src i v).fuse = s.fuse := rfl
@[simp] theorem State.setCtr_trust (s : State) (src i v : Nat) : (s.setCtr src i v).trust = s.trust := rfl
@[simp] theorem State.setCtr_ready (s : State) (src i v : Nat) : (s.setCtr src i v).ready = s.ready := rfl
@[simp] theorem State.setCtr_idleNs (s : State) (src i v : Nat) : (s.setCtr src i v).idleNs = s.idleNs := rfl

/-! ### writeB -/

@[simp] theorem State.writeB_pending (s : State) (a : Nat) (bs : List Byte) : (s.writeB a bs).pending = s.pending := rfl
@[simp] theorem State.writeB_freeCtr (s : State) (a : Nat) (bs : List Byte) : (s.writeB a bs).freeCtr = s.freeCtr := rfl
@[simp] theorem State.writeB_out (s : State) (a : Nat) (bs : List Byte) : (s.writeB a bs).out = s.out := rfl
@[simp] theorem State.writeB_upsets (s : State) (a : Nat) (bs : List Byte) : (s.writeB a bs).upsets = s.upsets := rfl
@[simp] theorem State.writeB_mem (s : State) (a : Nat) (bs : List Byte) : (s.writeB a bs).mem = SMap.setRange 0 s.mem a bs := rfl
@[simp] theorem State.writeB_poison (s : State) (a : Nat) (bs : List Byte) : (s.writeB a bs).poison = s.poison := rfl
@[simp] theorem State.writeB_wbQueue (s : State) (a : Nat) (bs : List Byte) : (s.writeB a bs).wbQueue = s.wbQueue := rfl
@[simp] theorem State.writeB_cnt (s : State) (a : Nat) (bs : List Byte) : (s.writeB a bs).cnt = s.cnt := rfl
@[simp] theorem State.writeB_tk (s : State) (a : Nat) (bs : List Byte) : (s.writeB a bs).tk = s.tk := rfl
@[simp] theorem State.writeB_facets (s : State) (a : Nat) (bs : List Byte) : (s.writeB a bs).facets = s.facets := rfl
@[simp] theorem State.writeB_sched (s : State) (a : Nat) (bs : List Byte) : (s.writeB a bs).sched = s.sched := rfl
@[simp] theorem State.writeB_ap (s : State) (a : Nat) (bs : List Byte) : (s.writeB a bs).ap = s.ap := rfl
@[simp] theorem State.writeB_hbm (s : State) (a : Nat) (bs : List Byte) : (s.writeB a bs).hbm = s.hbm := rfl
@[simp] theorem State.writeB_dma (s : State) (a : Nat) (bs : List Byte) : (s.writeB a bs).dma = s.dma := rfl
@[simp] theorem State.writeB_tmplStatus (s : State) (a : Nat) (bs : List Byte) : (s.writeB a bs).tmplStatus = s.tmplStatus := rfl
@[simp] theorem State.writeB_exp (s : State) (a : Nat) (bs : List Byte) : (s.writeB a bs).exp = s.exp := rfl
@[simp] theorem State.writeB_cnd (s : State) (a : Nat) (bs : List Byte) : (s.writeB a bs).cnd = s.cnd := rfl
@[simp] theorem State.writeB_img (s : State) (a : Nat) (bs : List Byte) : (s.writeB a bs).img = s.img := rfl
@[simp] theorem State.writeB_wav (s : State) (a : Nat) (bs : List Byte) : (s.writeB a bs).wav = s.wav := rfl
@[simp] theorem State.writeB_net (s : State) (a : Nat) (bs : List Byte) : (s.writeB a bs).net = s.net := rfl
@[simp] theorem State.writeB_beam (s : State) (a : Nat) (bs : List Byte) : (s.writeB a bs).beam = s.beam := rfl
@[simp] theorem State.writeB_host (s : State) (a : Nat) (bs : List Byte) : (s.writeB a bs).host = s.host := rfl
@[simp] theorem State.writeB_jnl (s : State) (a : Nat) (bs : List Byte) : (s.writeB a bs).jnl = s.jnl := rfl
@[simp] theorem State.writeB_err (s : State) (a : Nat) (bs : List Byte) : (s.writeB a bs).err = s.err := rfl
@[simp] theorem State.writeB_pwr (s : State) (a : Nat) (bs : List Byte) : (s.writeB a bs).pwr = s.pwr := rfl
@[simp] theorem State.writeB_fuse (s : State) (a : Nat) (bs : List Byte) : (s.writeB a bs).fuse = s.fuse := rfl
@[simp] theorem State.writeB_trust (s : State) (a : Nat) (bs : List Byte) : (s.writeB a bs).trust = s.trust := rfl
@[simp] theorem State.writeB_ready (s : State) (a : Nat) (bs : List Byte) : (s.writeB a bs).ready = s.ready := rfl
@[simp] theorem State.writeB_idleNs (s : State) (a : Nat) (bs : List Byte) : (s.writeB a bs).idleNs = s.idleNs := rfl

/-! ### count: counters are the only field -/

@[simp] theorem State.count_pending (s : State) (src i n : Nat) : (s.count src i n).pending = s.pending := by
  unfold State.count; split <;> rfl
@[simp] theorem State.count_freeCtr (s : State) (src i n : Nat) : (s.count src i n).freeCtr = s.freeCtr := by
  unfold State.count; split <;> rfl
@[simp] theorem State.count_out (s : State) (src i n : Nat) : (s.count src i n).out = s.out := by
  unfold State.count; split <;> rfl
@[simp] theorem State.count_upsets (s : State) (src i n : Nat) : (s.count src i n).upsets = s.upsets := by
  unfold State.count; split <;> rfl
@[simp] theorem State.count_mem (s : State) (src i n : Nat) : (s.count src i n).mem = s.mem := by
  unfold State.count; split <;> rfl
@[simp] theorem State.count_poison (s : State) (src i n : Nat) : (s.count src i n).poison = s.poison := by
  unfold State.count; split <;> rfl
@[simp] theorem State.count_wbQueue (s : State) (src i n : Nat) : (s.count src i n).wbQueue = s.wbQueue := by
  unfold State.count; split <;> rfl
@[simp] theorem State.count_tk (s : State) (src i n : Nat) : (s.count src i n).tk = s.tk := by
  unfold State.count; split <;> rfl
@[simp] theorem State.count_facets (s : State) (src i n : Nat) : (s.count src i n).facets = s.facets := by
  unfold State.count; split <;> rfl
@[simp] theorem State.count_sched (s : State) (src i n : Nat) : (s.count src i n).sched = s.sched := by
  unfold State.count; split <;> rfl
@[simp] theorem State.count_ap (s : State) (src i n : Nat) : (s.count src i n).ap = s.ap := by
  unfold State.count; split <;> rfl
@[simp] theorem State.count_hbm (s : State) (src i n : Nat) : (s.count src i n).hbm = s.hbm := by
  unfold State.count; split <;> rfl
@[simp] theorem State.count_dma (s : State) (src i n : Nat) : (s.count src i n).dma = s.dma := by
  unfold State.count; split <;> rfl
@[simp] theorem State.count_tmplStatus (s : State) (src i n : Nat) : (s.count src i n).tmplStatus = s.tmplStatus := by
  unfold State.count; split <;> rfl
@[simp] theorem State.count_exp (s : State) (src i n : Nat) : (s.count src i n).exp = s.exp := by
  unfold State.count; split <;> rfl
@[simp] theorem State.count_cnd (s : State) (src i n : Nat) : (s.count src i n).cnd = s.cnd := by
  unfold State.count; split <;> rfl
@[simp] theorem State.count_img (s : State) (src i n : Nat) : (s.count src i n).img = s.img := by
  unfold State.count; split <;> rfl
@[simp] theorem State.count_wav (s : State) (src i n : Nat) : (s.count src i n).wav = s.wav := by
  unfold State.count; split <;> rfl
@[simp] theorem State.count_net (s : State) (src i n : Nat) : (s.count src i n).net = s.net := by
  unfold State.count; split <;> rfl
@[simp] theorem State.count_beam (s : State) (src i n : Nat) : (s.count src i n).beam = s.beam := by
  unfold State.count; split <;> rfl
@[simp] theorem State.count_host (s : State) (src i n : Nat) : (s.count src i n).host = s.host := by
  unfold State.count; split <;> rfl
@[simp] theorem State.count_jnl (s : State) (src i n : Nat) : (s.count src i n).jnl = s.jnl := by
  unfold State.count; split <;> rfl
@[simp] theorem State.count_err (s : State) (src i n : Nat) : (s.count src i n).err = s.err := by
  unfold State.count; split <;> rfl
@[simp] theorem State.count_pwr (s : State) (src i n : Nat) : (s.count src i n).pwr = s.pwr := by
  unfold State.count; split <;> rfl
@[simp] theorem State.count_fuse (s : State) (src i n : Nat) : (s.count src i n).fuse = s.fuse := by
  unfold State.count; split <;> rfl
@[simp] theorem State.count_trust (s : State) (src i n : Nat) : (s.count src i n).trust = s.trust := by
  unfold State.count; split <;> rfl
@[simp] theorem State.count_ready (s : State) (src i n : Nat) : (s.count src i n).ready = s.ready := by
  unfold State.count; split <;> rfl
@[simp] theorem State.count_idleNs (s : State) (src i n : Nat) : (s.count src i n).idleNs = s.idleNs := by
  unfold State.count; split <;> rfl

/-! ### writeUnits -/

@[simp] theorem State.writeUnits_pending (s : State) (a : Nat) (bs : List Byte) (bad : Bool) : (s.writeUnits a bs bad).pending = s.pending := rfl
@[simp] theorem State.writeUnits_freeCtr (s : State) (a : Nat) (bs : List Byte) (bad : Bool) : (s.writeUnits a bs bad).freeCtr = s.freeCtr := rfl
@[simp] theorem State.writeUnits_out (s : State) (a : Nat) (bs : List Byte) (bad : Bool) : (s.writeUnits a bs bad).out = s.out := rfl
@[simp] theorem State.writeUnits_upsets (s : State) (a : Nat) (bs : List Byte) (bad : Bool) : (s.writeUnits a bs bad).upsets = s.upsets.filter (fun p => !(a / 32 ≤ p.1 && p.1 < a / 32 + bs.length / 32)) := rfl
@[simp] theorem State.writeUnits_mem (s : State) (a : Nat) (bs : List Byte) (bad : Bool) : (s.writeUnits a bs bad).mem = SMap.setRange 0 s.mem a bs := rfl
@[simp] theorem State.writeUnits_poison (s : State) (a : Nat) (bs : List Byte) (bad : Bool) : (s.writeUnits a bs bad).poison = SMap.setRange 0 s.poison (a / 32) (List.replicate (bs.length / 32) (if bad then badMark else 0)) := rfl
@[simp] theorem State.writeUnits_wbQueue (s : State) (a : Nat) (bs : List Byte) (bad : Bool) : (s.writeUnits a bs bad).wbQueue = s.wbQueue.filter (fun u => !(a / 32 ≤ u && u < a / 32 + bs.length / 32)) := rfl
@[simp] theorem State.writeUnits_cnt (s : State) (a : Nat) (bs : List Byte) (bad : Bool) : (s.writeUnits a bs bad).cnt = s.cnt := rfl
@[simp] theorem State.writeUnits_tk (s : State) (a : Nat) (bs : List Byte) (bad : Bool) : (s.writeUnits a bs bad).tk = s.tk := rfl
@[simp] theorem State.writeUnits_facets (s : State) (a : Nat) (bs : List Byte) (bad : Bool) : (s.writeUnits a bs bad).facets = s.facets := rfl
@[simp] theorem State.writeUnits_sched (s : State) (a : Nat) (bs : List Byte) (bad : Bool) : (s.writeUnits a bs bad).sched = s.sched := rfl
@[simp] theorem State.writeUnits_ap (s : State) (a : Nat) (bs : List Byte) (bad : Bool) : (s.writeUnits a bs bad).ap = s.ap := rfl
@[simp] theorem State.writeUnits_hbm (s : State) (a : Nat) (bs : List Byte) (bad : Bool) : (s.writeUnits a bs bad).hbm = s.hbm := rfl
@[simp] theorem State.writeUnits_dma (s : State) (a : Nat) (bs : List Byte) (bad : Bool) : (s.writeUnits a bs bad).dma = s.dma := rfl
@[simp] theorem State.writeUnits_tmplStatus (s : State) (a : Nat) (bs : List Byte) (bad : Bool) : (s.writeUnits a bs bad).tmplStatus = s.tmplStatus := rfl
@[simp] theorem State.writeUnits_exp (s : State) (a : Nat) (bs : List Byte) (bad : Bool) : (s.writeUnits a bs bad).exp = s.exp := rfl
@[simp] theorem State.writeUnits_cnd (s : State) (a : Nat) (bs : List Byte) (bad : Bool) : (s.writeUnits a bs bad).cnd = s.cnd := rfl
@[simp] theorem State.writeUnits_img (s : State) (a : Nat) (bs : List Byte) (bad : Bool) : (s.writeUnits a bs bad).img = s.img := rfl
@[simp] theorem State.writeUnits_wav (s : State) (a : Nat) (bs : List Byte) (bad : Bool) : (s.writeUnits a bs bad).wav = s.wav := rfl
@[simp] theorem State.writeUnits_net (s : State) (a : Nat) (bs : List Byte) (bad : Bool) : (s.writeUnits a bs bad).net = s.net := rfl
@[simp] theorem State.writeUnits_beam (s : State) (a : Nat) (bs : List Byte) (bad : Bool) : (s.writeUnits a bs bad).beam = s.beam := rfl
@[simp] theorem State.writeUnits_host (s : State) (a : Nat) (bs : List Byte) (bad : Bool) : (s.writeUnits a bs bad).host = s.host := rfl
@[simp] theorem State.writeUnits_jnl (s : State) (a : Nat) (bs : List Byte) (bad : Bool) : (s.writeUnits a bs bad).jnl = s.jnl := rfl
@[simp] theorem State.writeUnits_err (s : State) (a : Nat) (bs : List Byte) (bad : Bool) : (s.writeUnits a bs bad).err = s.err := rfl
@[simp] theorem State.writeUnits_pwr (s : State) (a : Nat) (bs : List Byte) (bad : Bool) : (s.writeUnits a bs bad).pwr = s.pwr := rfl
@[simp] theorem State.writeUnits_fuse (s : State) (a : Nat) (bs : List Byte) (bad : Bool) : (s.writeUnits a bs bad).fuse = s.fuse := rfl
@[simp] theorem State.writeUnits_trust (s : State) (a : Nat) (bs : List Byte) (bad : Bool) : (s.writeUnits a bs bad).trust = s.trust := rfl
@[simp] theorem State.writeUnits_ready (s : State) (a : Nat) (bs : List Byte) (bad : Bool) : (s.writeUnits a bs bad).ready = s.ready := rfl
@[simp] theorem State.writeUnits_idleNs (s : State) (a : Nat) (bs : List Byte) (bad : Bool) : (s.writeUnits a bs bad).idleNs = s.idleNs := rfl

/-! ### mark -/

@[simp] theorem State.mark_pending (s : State) (a : Nat) : (s.mark a).pending = s.pending := rfl
@[simp] theorem State.mark_freeCtr (s : State) (a : Nat) : (s.mark a).freeCtr = s.freeCtr := rfl
@[simp] theorem State.mark_out (s : State) (a : Nat) : (s.mark a).out = s.out := rfl
@[simp] theorem State.mark_upsets (s : State) (a : Nat) : (s.mark a).upsets = s.upsets := rfl
@[simp] theorem State.mark_mem (s : State) (a : Nat) : (s.mark a).mem = s.mem := rfl
@[simp] theorem State.mark_poison (s : State) (a : Nat) : (s.mark a).poison = SMap.set 0 s.poison (a / 32) badMark := rfl
@[simp] theorem State.mark_wbQueue (s : State) (a : Nat) : (s.mark a).wbQueue = s.wbQueue := rfl
@[simp] theorem State.mark_cnt (s : State) (a : Nat) : (s.mark a).cnt = s.cnt := rfl
@[simp] theorem State.mark_tk (s : State) (a : Nat) : (s.mark a).tk = s.tk := rfl
@[simp] theorem State.mark_facets (s : State) (a : Nat) : (s.mark a).facets = s.facets := rfl
@[simp] theorem State.mark_sched (s : State) (a : Nat) : (s.mark a).sched = s.sched := rfl
@[simp] theorem State.mark_ap (s : State) (a : Nat) : (s.mark a).ap = s.ap := rfl
@[simp] theorem State.mark_hbm (s : State) (a : Nat) : (s.mark a).hbm = s.hbm := rfl
@[simp] theorem State.mark_dma (s : State) (a : Nat) : (s.mark a).dma = s.dma := rfl
@[simp] theorem State.mark_tmplStatus (s : State) (a : Nat) : (s.mark a).tmplStatus = s.tmplStatus := rfl
@[simp] theorem State.mark_exp (s : State) (a : Nat) : (s.mark a).exp = s.exp := rfl
@[simp] theorem State.mark_cnd (s : State) (a : Nat) : (s.mark a).cnd = s.cnd := rfl
@[simp] theorem State.mark_img (s : State) (a : Nat) : (s.mark a).img = s.img := rfl
@[simp] theorem State.mark_wav (s : State) (a : Nat) : (s.mark a).wav = s.wav := rfl
@[simp] theorem State.mark_net (s : State) (a : Nat) : (s.mark a).net = s.net := rfl
@[simp] theorem State.mark_beam (s : State) (a : Nat) : (s.mark a).beam = s.beam := rfl
@[simp] theorem State.mark_host (s : State) (a : Nat) : (s.mark a).host = s.host := rfl
@[simp] theorem State.mark_jnl (s : State) (a : Nat) : (s.mark a).jnl = s.jnl := rfl
@[simp] theorem State.mark_err (s : State) (a : Nat) : (s.mark a).err = s.err := rfl
@[simp] theorem State.mark_pwr (s : State) (a : Nat) : (s.mark a).pwr = s.pwr := rfl
@[simp] theorem State.mark_fuse (s : State) (a : Nat) : (s.mark a).fuse = s.fuse := rfl
@[simp] theorem State.mark_trust (s : State) (a : Nat) : (s.mark a).trust = s.trust := rfl
@[simp] theorem State.mark_ready (s : State) (a : Nat) : (s.mark a).ready = s.ready := rfl
@[simp] theorem State.mark_idleNs (s : State) (a : Nat) : (s.mark a).idleNs = s.idleNs := rfl

/-! ### clearUpset -/

@[simp] theorem State.clearUpset_pending (s : State) (a : Nat) : (s.clearUpset a).pending = s.pending := rfl
@[simp] theorem State.clearUpset_freeCtr (s : State) (a : Nat) : (s.clearUpset a).freeCtr = s.freeCtr := rfl
@[simp] theorem State.clearUpset_out (s : State) (a : Nat) : (s.clearUpset a).out = s.out := rfl
@[simp] theorem State.clearUpset_upsets (s : State) (a : Nat) : (s.clearUpset a).upsets = s.upsets.filter (fun p => p.1 != a / 32) := rfl
@[simp] theorem State.clearUpset_mem (s : State) (a : Nat) : (s.clearUpset a).mem = s.mem := rfl
@[simp] theorem State.clearUpset_poison (s : State) (a : Nat) : (s.clearUpset a).poison = s.poison := rfl
@[simp] theorem State.clearUpset_wbQueue (s : State) (a : Nat) : (s.clearUpset a).wbQueue = s.wbQueue := rfl
@[simp] theorem State.clearUpset_cnt (s : State) (a : Nat) : (s.clearUpset a).cnt = s.cnt := rfl
@[simp] theorem State.clearUpset_tk (s : State) (a : Nat) : (s.clearUpset a).tk = s.tk := rfl
@[simp] theorem State.clearUpset_facets (s : State) (a : Nat) : (s.clearUpset a).facets = s.facets := rfl
@[simp] theorem State.clearUpset_sched (s : State) (a : Nat) : (s.clearUpset a).sched = s.sched := rfl
@[simp] theorem State.clearUpset_ap (s : State) (a : Nat) : (s.clearUpset a).ap = s.ap := rfl
@[simp] theorem State.clearUpset_hbm (s : State) (a : Nat) : (s.clearUpset a).hbm = s.hbm := rfl
@[simp] theorem State.clearUpset_dma (s : State) (a : Nat) : (s.clearUpset a).dma = s.dma := rfl
@[simp] theorem State.clearUpset_tmplStatus (s : State) (a : Nat) : (s.clearUpset a).tmplStatus = s.tmplStatus := rfl
@[simp] theorem State.clearUpset_exp (s : State) (a : Nat) : (s.clearUpset a).exp = s.exp := rfl
@[simp] theorem State.clearUpset_cnd (s : State) (a : Nat) : (s.clearUpset a).cnd = s.cnd := rfl
@[simp] theorem State.clearUpset_img (s : State) (a : Nat) : (s.clearUpset a).img = s.img := rfl
@[simp] theorem State.clearUpset_wav (s : State) (a : Nat) : (s.clearUpset a).wav = s.wav := rfl
@[simp] theorem State.clearUpset_net (s : State) (a : Nat) : (s.clearUpset a).net = s.net := rfl
@[simp] theorem State.clearUpset_beam (s : State) (a : Nat) : (s.clearUpset a).beam = s.beam := rfl
@[simp] theorem State.clearUpset_host (s : State) (a : Nat) : (s.clearUpset a).host = s.host := rfl
@[simp] theorem State.clearUpset_jnl (s : State) (a : Nat) : (s.clearUpset a).jnl = s.jnl := rfl
@[simp] theorem State.clearUpset_err (s : State) (a : Nat) : (s.clearUpset a).err = s.err := rfl
@[simp] theorem State.clearUpset_pwr (s : State) (a : Nat) : (s.clearUpset a).pwr = s.pwr := rfl
@[simp] theorem State.clearUpset_fuse (s : State) (a : Nat) : (s.clearUpset a).fuse = s.fuse := rfl
@[simp] theorem State.clearUpset_trust (s : State) (a : Nat) : (s.clearUpset a).trust = s.trust := rfl
@[simp] theorem State.clearUpset_ready (s : State) (a : Nat) : (s.clearUpset a).ready = s.ready := rfl
@[simp] theorem State.clearUpset_idleNs (s : State) (a : Nat) : (s.clearUpset a).idleNs = s.idleNs := rfl

/-! ### egress: what leaves is counted -/

@[simp] theorem State.egress_pending (s : State) (p : EgressPath) : (s.egress p).pending = s.pending := State.count_pending ..
@[simp] theorem State.egress_freeCtr (s : State) (p : EgressPath) : (s.egress p).freeCtr = s.freeCtr := State.count_freeCtr ..
@[simp] theorem State.egress_out (s : State) (p : EgressPath) : (s.egress p).out = s.out := State.count_out ..
@[simp] theorem State.egress_upsets (s : State) (p : EgressPath) : (s.egress p).upsets = s.upsets := State.count_upsets ..
@[simp] theorem State.egress_mem (s : State) (p : EgressPath) : (s.egress p).mem = s.mem := State.count_mem ..
@[simp] theorem State.egress_poison (s : State) (p : EgressPath) : (s.egress p).poison = s.poison := State.count_poison ..
@[simp] theorem State.egress_wbQueue (s : State) (p : EgressPath) : (s.egress p).wbQueue = s.wbQueue := State.count_wbQueue ..
@[simp] theorem State.egress_tk (s : State) (p : EgressPath) : (s.egress p).tk = s.tk := State.count_tk ..
@[simp] theorem State.egress_facets (s : State) (p : EgressPath) : (s.egress p).facets = s.facets := State.count_facets ..
@[simp] theorem State.egress_sched (s : State) (p : EgressPath) : (s.egress p).sched = s.sched := State.count_sched ..
@[simp] theorem State.egress_ap (s : State) (p : EgressPath) : (s.egress p).ap = s.ap := State.count_ap ..
@[simp] theorem State.egress_hbm (s : State) (p : EgressPath) : (s.egress p).hbm = s.hbm := State.count_hbm ..
@[simp] theorem State.egress_dma (s : State) (p : EgressPath) : (s.egress p).dma = s.dma := State.count_dma ..
@[simp] theorem State.egress_tmplStatus (s : State) (p : EgressPath) : (s.egress p).tmplStatus = s.tmplStatus := State.count_tmplStatus ..
@[simp] theorem State.egress_exp (s : State) (p : EgressPath) : (s.egress p).exp = s.exp := State.count_exp ..
@[simp] theorem State.egress_cnd (s : State) (p : EgressPath) : (s.egress p).cnd = s.cnd := State.count_cnd ..
@[simp] theorem State.egress_img (s : State) (p : EgressPath) : (s.egress p).img = s.img := State.count_img ..
@[simp] theorem State.egress_wav (s : State) (p : EgressPath) : (s.egress p).wav = s.wav := State.count_wav ..
@[simp] theorem State.egress_net (s : State) (p : EgressPath) : (s.egress p).net = s.net := State.count_net ..
@[simp] theorem State.egress_beam (s : State) (p : EgressPath) : (s.egress p).beam = s.beam := State.count_beam ..
@[simp] theorem State.egress_host (s : State) (p : EgressPath) : (s.egress p).host = s.host := State.count_host ..
@[simp] theorem State.egress_jnl (s : State) (p : EgressPath) : (s.egress p).jnl = s.jnl := State.count_jnl ..
@[simp] theorem State.egress_err (s : State) (p : EgressPath) : (s.egress p).err = s.err := State.count_err ..
@[simp] theorem State.egress_pwr (s : State) (p : EgressPath) : (s.egress p).pwr = s.pwr := State.count_pwr ..
@[simp] theorem State.egress_fuse (s : State) (p : EgressPath) : (s.egress p).fuse = s.fuse := State.count_fuse ..
@[simp] theorem State.egress_trust (s : State) (p : EgressPath) : (s.egress p).trust = s.trust := State.count_trust ..
@[simp] theorem State.egress_ready (s : State) (p : EgressPath) : (s.egress p).ready = s.ready := State.count_ready ..
@[simp] theorem State.egress_idleNs (s : State) (p : EgressPath) : (s.egress p).idleNs = s.idleNs := State.count_idleNs ..

end Sys2Proof.Machine
end

