-- ==== Sys2Proof/Laws/Book.lean ====
section
/-! SUPPORT. The tools that the lemmas about `State.Book` are built from: what a macro-op's body leaves of every
Facet's program state and regions. -/

set_option Elab.async false

namespace Sys2Proof.Machine

/-- What a body leaves of a Facet: all but its files, the validity of its tick, its queues and what a write past a
region's space marks. -/
def Facet.shape (x : Facet) : Facet :=
  { x with
    acc := [], bound := [], invalid := false, emits := []
    regions := x.regions.map (fun r => { r with overran := false }) }

/-- Every Facet keeps its shape. -/
def State.Book (S s : State) : Prop := ∀ g : Fin 16, s.facets[g].shape = S.facets[g].shape

variable {S s t : State}

theorem State.Book.refl (s : State) : State.Book s s := fun _ => rfl

theorem State.Book.trans {u : State} (h : State.Book s t) (h' : State.Book t u) : State.Book s u :=
  fun g => (h' g).trans (h g)

theorem State.Book.congr (h : State.Book S s) (e : t.facets = s.facets) : State.Book S t := fun g => by
  rw [e]; exact h g

theorem State.Book.of_only {m : List Field} (h : State.Only m s t) (hm : .facets ∉ m) : State.Book s t :=
  (State.Book.refl s).congr (h .facets hm)

theorem State.updFacet_get (s : State) (f g : Fin 16) (u : Facet → Facet) :
    (s.updFacet f u).facets[g] = if f = g then u s.facets[g] else s.facets[g] := by
  simp only [State.updFacet_facets, Fin.getElem_fin, Vector.getElem_set]
  by_cases h : f = g
  · subst h; simp
  · rw [if_neg (fun e => h (Fin.ext e)), if_neg h]

theorem State.updFacet_book {f : Fin 16} {u : Facet → Facet} (h : State.Book S s)
    (hu : ∀ x, (u x).shape = x.shape) : State.Book S (s.updFacet f u) := fun g => by
  rw [State.updFacet_get]
  split
  · rw [hu]; exact h g
  · exact h g

theorem State.updRegion_book {f r : Fin 16} {u : RegionSt → RegionSt} (h : State.Book S s)
    (hu : ∀ y, { u y with overran := false } = { y with overran := false }) : State.Book S (s.updRegion f r u) :=
  State.updFacet_book h fun x => by
    simp only [Facet.shape, Facet.mk.injEq, true_and, and_true]
    ext1 i hi
    simp only [Vector.getElem_map, Vector.getElem_set]
    split
    next e => subst e; exact hu _
    next => rfl

variable {α : Type}

/-- Accumulator rows written one after another. -/
theorem Facet.setAccRow_shape (x : Facet) (row : Nat) (vs : List Word) : (x.setAccRow row vs).shape = x.shape := rfl

theorem Facet.foldl_shape {f : Facet → α → Facet} (hf : ∀ x a, (f x a).shape = x.shape) (l : List α) (x : Facet) :
    (l.foldl f x).shape = x.shape := by
  induction l generalizing x with
  | nil => rfl
  | cons a l ih => exact (ih _).trans (hf x a)

end Sys2Proof.Machine
end

