-- ==== Sys2Proof/WellFormed.lean ====
section
/-! DEFINITION. Which commands are well formed: the limits that the operands' own layouts give them and that
the types of Syntax.lean do not. A command's meaning does not rest on them. -/

namespace Sys2Proof

/-- The inline bytes of SET_PARAMS fill its 48-byte field (12 R341). -/
def inlineOk (inl : List Byte) : Bool := inl.length == 48

/-- An Ethernet header's fields fit their widths (11 R297, R299). -/
def Eth.fits (e : Eth) : Bool := e.dst.length == 6 && e.vid.all (fun v => v < 4096) && e.etype < 65536

/-- A Beam frame up to its payload: the header is 32 bytes (11 R311). -/
def beamFits (e : Eth) (hdr : List Byte) : Bool := e.fits && hdr.length == 32

/-- A sensor row carries 12-bit codes (09 R225). -/
def RawRow.fits (r : RawRow) : Bool :=
  r.hi.all (fun v => v < 4096) && r.lo.all (fun v => v < 4096)

/-- Well-formed commands. -/
def Instr.wellFormed : Instr → Bool
  | .tickEdge _ rows => rows.all RawRow.fits
  | .lineGroupComplete _ rows => rows.all RawRow.fits
  | .frameEnd rows => rows.all RawRow.fits
  | .burstTrigger _ rows => rows.all RawRow.fits
  | .burstFrameStart rows lines => rows.all RawRow.fits && lines ≤ 1024
  | .setSensor _ _ set => set.length == 32
  | .hostChannelPoll c => 6 ≤ c.val
  | .ecsRead counts => counts.length == 16
  | .hbmParityError _ failed => 1 ≤ failed && failed ≤ 3
  | .pllCountCheck counts => counts.length == 9
  | .ptpMessage _ eth domain _ => eth.fits && domain < 256
  | .discardedFrame _ eth _ _ => eth.fits
  | .beamData _ eth hdr payload => beamFits eth hdr && payload.length ≤ 9216
  | .beamAck _ eth hdr => beamFits eth hdr
  | .beamCredit _ eth hdr => beamFits eth hdr
  | .beamControl _ eth hdr _ => beamFits eth hdr
  | .beamHello _ eth hdr => beamFits eth hdr
  | .dmaChain _ _ _ inl => inlineOk inl
  | .journalMirror _ _ _ inl => inlineOk inl
  | .eventData _ _ _ inl => inlineOk inl
  | .analogRef _ _ _ inl => inlineOk inl
  | .wavePeriod _ _ _ inl => inlineOk inl
  | .waveCal _ _ _ inl => inlineOk inl
  | .openWire _ _ _ inl => inlineOk inl
  | .port _ _ _ inl => inlineOk inl
  | .ptp _ _ _ inl => inlineOk inl
  | .eventTimer _ _ _ inl => inlineOk inl
  | .beamSystem _ _ _ inl => inlineOk inl
  | .attest _ _ nonce _ _ => nonce.length == 32
  | .registerWrite path reg _ _ => path == .pcie || reg.val < 64
  | .bar2Access off len write =>
      off.toNat + len ≤ 0x4000000 && (match write with | some bs => bs.length == len | none => true)
  | .mm _ _ => true
  | .mmt _ _ => true
  | .conv _ _ => true
  | .dwconv _ _ => true
  | .vecEw _ _ => true
  | .vecRed _ _ => true
  | .softmax _ _ => true
  | .norm _ _ => true
  | .act _ _ => true
  | .gather _ _ => true
  | .scatter _ _ => true
  | .decide _ _ => true
  | .topk _ _ => true
  | .nms _ _ => true
  | .crop _ _ => true
  | .resample _ _ => true
  | .copy2d _ _ => true
  | .accWrite _ _ => true
  | .push _ _ => true
  | .pop _ _ => true
  | .emit _ _ => true
  | .checkFlag _ _ => true
  | .waitTick _ => true
  | .waitTickExpiry _ => true
  | .endProg _ => true
  | .patrolRead _ _ => true
  | .scrubWriteback _ _ => true
  | .descriptorFetch _ _ => true
  | .descriptorStart _ _ => true
  | .burstIssue _ _ => true
  | .bucketGrant _ => true
  | .transferComplete _ _ => true
  | .descriptorAbort _ _ => true
  | .expanderBlock _ _ => true
  | .condenserBlock _ => true
  | .hbmTraining _ => true
  | .hbmTempRead _ => true
  | .hbmRecalibration => true
  | .hbmPowerDown _ => true
  | .burstEnd => true
  | .sensorStandbyExit => true
  | .sampleTrigger => true
  | .conversionDone _ _ => true
  | .holdoffExpiry _ => true
  | .urgentRequest => true
  | .blockComplete _ _ => true
  | .historyWrite _ => true
  | .calibrationSlot => true
  | .spareSelfCalibration => true
  | .calibrationReturn _ => true
  | .adcRefSettled => true
  | .waveRefFault => true
  | .openWirePhaseEnd => true
  | .pdelayReqTimer => true
  | .syncTimeout => true
  | .holdoverExpiry => true
  | .holdoverReport => true
  | .linkDown _ => true
  | .linkUp _ => true
  | .frameTransmit _ => true
  | .eventTimerEvent _ => true
  | .etCapture _ _ => true
  | .templateRepeat _ => true
  | .helloTimer => true
  | .retransmit _ => true
  | .globalTimeout _ => true
  | .loadSchedule _ _ _ _ => true
  | .loadScheduleChecked => true
  | .start _ _ _ => true
  | .stop _ _ => true
  | .stats _ _ _ _ => true
  | .openWindow _ _ _ _ _ _ _ _ _ _ => true
  | .closeWindow _ _ _ _ => true
  | .globalBarrier _ _ _ _ _ _ _ _ _ => true
  | .globalBroadcast _ _ _ _ _ _ _ _ _ => true
  | .globalSnapshot _ _ _ _ _ _ _ _ _ => true
  | .globalStart _ _ _ _ _ _ _ _ _ => true
  | .globalStop _ _ _ _ _ _ _ _ _ => true
  | .globalRestart _ _ _ _ _ _ _ _ _ => true
  | .snapshot _ _ _ => true
  | .readCounters _ _ _ _ => true
  | .readJournal _ _ _ _ _ => true
  | .attestSigned => true
  | .enroll _ _ _ _ _ => true
  | .fuseProgram _ _ _ _ _ _ => true
  | .fuseSeal _ _ _ => true
  | .fuseLock _ _ _ _ => true
  | .updateFirmware _ _ _ _ => true
  | .updateFirmwareWritten _ => true
  | .activateFirmware _ _ _ => true
  | .trialEnd => true
  | .rollbackRetry => true
  | .setTemplate _ _ _ _ _ => true
  | .dmaAbort _ _ _ _ => true
  | .regionRestart _ _ _ => true
  | .calibrationLoad _ _ _ _ => true
  | .transition _ _ _ _ => true
  | .fuseGrant _ _ _ _ => true
  | .revokeSlot _ _ _ _ => true
  | .cmdPutWrite _ _ => true
  | .cmdSizeWrite _ _ => true
  | .evtSizeWrite _ _ => true
  | .evtGetWrite _ _ => true
  | .ownerWrite _ _ => true
  | .mboxDataAccess _ _ => true
  | .irqStatusWrite _ _ => true
  | .irqForceWrite _ _ => true
  | .errSummaryPop _ _ => true
  | .perfReqWrite _ _ => true
  | .tickCtlWrite _ _ => true
  | .snapCtlArm _ _ => true
  | .snapCtlDisarm _ _ => true
  | .wdogCtlWrite _ _ => true
  | .wdogKick _ _ => true
  | .hostLost => true
  | .tickLoRead path part => path == .pcie || part != .wide
  | .lowHalfWrite _ _ => true
  | .lowHalfRead _ _ => true
  | .timeLoRead path part => path == .pcie || part != .wide
  | .firmwarePush _ _ => true
  | .functionLevelReset _ => true
  | .journalMirrorCopy => true
  | .porstAssert => true
  | .porstRelease _ _ => true
  | .refCountWindow _ => true
  | .pllJudged _ _ => true
  | .pgoodMainRise => true
  | .pgoodMainTimeout => true
  | .enMainRetry => true
  | .pgoodMainLow => true
  | .pgoodCoreRise => true
  | .pgoodCoreTimeout => true
  | .vsetSettled => true
  | .thermalCrossing _ => true
  | .supplyWarningCrossing _ _ => true
  | .supplyResetLevel _ _ => true
  | .sleepEntry => true
  | .wake _ => true
  | .periscopeTransaction _ _ _ => true
  | .sleepExit => true
  | .firmwareBoot => true
  | .fuseReread _ => true
  | .regionIsolation _ _ _ => true
  | .autoRestart _ => true
  | .restartStepsDone _ _ => true
  | .controlWatchdogExpiry => true
  | .fatalError _ _ _ _ => true
  | .vddAonPowerUp _ => true
  | .vddAonPowerLoss => true
  | .supplyRecovery _ _ => true
  | .pgoodCoreLow => true
  | .thermalRearm _ => true
  | .pcieLinkTrained => true
  | .vppFusePresence _ _ => true
  | .containerChecked => true
  | .fuseProgrammingDone _ => true
  | .backgroundResultWritten _ => true

end Sys2Proof
end

