-- ==== Sys2Proof/Laws/PerInstr.lean ====
section
/-! SUPPORT. For every row of the command table, WellFormed admits a command of that row: one lemma per
constructor, so that no row is shut out by the limits on operands. -/

set_option Elab.async false

namespace Sys2Proof.Laws.WellFormed

/-- The row of a command has a well-formed command. -/
def Statement (i : Instr) : Prop := ∃ j : Instr, j.ctorIdx = i.ctorIdx ∧ j.wellFormed = true

theorem tickEdge (pixel : Int) (rows : List RawRow) : Statement (.tickEdge pixel rows) :=
  ⟨.tickEdge 0 [], rfl, by decide⟩

theorem mm (f : Fin 16) (ms : List Meet) : Statement (.mm f ms) :=
  ⟨.mm 0 [], rfl, by decide⟩

theorem mmt (f : Fin 16) (ms : List Meet) : Statement (.mmt f ms) :=
  ⟨.mmt 0 [], rfl, by decide⟩

theorem conv (f : Fin 16) (ms : List Meet) : Statement (.conv f ms) :=
  ⟨.conv 0 [], rfl, by decide⟩

theorem dwconv (f : Fin 16) (ms : List Meet) : Statement (.dwconv f ms) :=
  ⟨.dwconv 0 [], rfl, by decide⟩

theorem vecEw (f : Fin 16) (ms : List Meet) : Statement (.vecEw f ms) :=
  ⟨.vecEw 0 [], rfl, by decide⟩

theorem vecRed (f : Fin 16) (ms : List Meet) : Statement (.vecRed f ms) :=
  ⟨.vecRed 0 [], rfl, by decide⟩

theorem softmax (f : Fin 16) (ms : List Meet) : Statement (.softmax f ms) :=
  ⟨.softmax 0 [], rfl, by decide⟩

theorem norm (f : Fin 16) (ms : List Meet) : Statement (.norm f ms) :=
  ⟨.norm 0 [], rfl, by decide⟩

theorem act (f : Fin 16) (ms : List Meet) : Statement (.act f ms) :=
  ⟨.act 0 [], rfl, by decide⟩

theorem gather (f : Fin 16) (ms : List Meet) : Statement (.gather f ms) :=
  ⟨.gather 0 [], rfl, by decide⟩

theorem scatter (f : Fin 16) (ms : List Meet) : Statement (.scatter f ms) :=
  ⟨.scatter 0 [], rfl, by decide⟩

theorem decide (f : Fin 16) (ms : List Meet) : Statement (.decide f ms) :=
  ⟨.decide 0 [], rfl, by decide⟩

theorem topk (f : Fin 16) (ms : List Meet) : Statement (.topk f ms) :=
  ⟨.topk 0 [], rfl, by decide⟩

theorem nms (f : Fin 16) (ms : List Meet) : Statement (.nms f ms) :=
  ⟨.nms 0 [], rfl, by decide⟩

theorem crop (f : Fin 16) (ms : List Meet) : Statement (.crop f ms) :=
  ⟨.crop 0 [], rfl, by decide⟩

theorem resample (f : Fin 16) (ms : List Meet) : Statement (.resample f ms) :=
  ⟨.resample 0 [], rfl, by decide⟩

theorem copy2d (f : Fin 16) (ms : List Meet) : Statement (.copy2d f ms) :=
  ⟨.copy2d 0 [], rfl, by decide⟩

theorem accWrite (f : Fin 16) (ms : List Meet) : Statement (.accWrite f ms) :=
  ⟨.accWrite 0 [], rfl, by decide⟩

theorem push (f : Fin 16) (ms : List Meet) : Statement (.push f ms) :=
  ⟨.push 0 [], rfl, by decide⟩

theorem pop (f : Fin 16) (ms : List Meet) : Statement (.pop f ms) :=
  ⟨.pop 0 [], rfl, by decide⟩

theorem emit (f : Fin 16) (ms : List Meet) : Statement (.emit f ms) :=
  ⟨.emit 0 [], rfl, by decide⟩

theorem checkFlag (f : Fin 16) (ms : List Meet) : Statement (.checkFlag f ms) :=
  ⟨.checkFlag 0 [], rfl, by decide⟩

theorem waitTick (f : Fin 16) : Statement (.waitTick f) :=
  ⟨.waitTick 0, rfl, by decide⟩

theorem waitTickExpiry (f : Fin 16) : Statement (.waitTickExpiry f) :=
  ⟨.waitTickExpiry 0, rfl, by decide⟩

theorem endProg (f : Fin 16) : Statement (.endProg f) :=
  ⟨.endProg 0, rfl, by decide⟩

theorem patrolRead (f : Fin 16) (others : List Req) : Statement (.patrolRead f others) :=
  ⟨.patrolRead 0 [], rfl, by decide⟩

theorem scrubWriteback (f : Fin 16) (others : List Req) : Statement (.scrubWriteback f others) :=
  ⟨.scrubWriteback 0 [], rfl, by decide⟩

theorem descriptorFetch (e : Fin 5) (c : Fin 8) : Statement (.descriptorFetch e c) :=
  ⟨.descriptorFetch 0 0, rfl, by decide⟩

theorem descriptorStart (e : Fin 5) (c : Fin 8) : Statement (.descriptorStart e c) :=
  ⟨.descriptorStart 0 0, rfl, by decide⟩

theorem burstIssue (e : Fin 5) (ms : List Meet) : Statement (.burstIssue e ms) :=
  ⟨.burstIssue 0 [], rfl, by decide⟩

theorem bucketGrant (ms : List Meet) : Statement (.bucketGrant ms) :=
  ⟨.bucketGrant [], rfl, by decide⟩

theorem transferComplete (e : Fin 5) (c : Fin 8) : Statement (.transferComplete e c) :=
  ⟨.transferComplete 0 0, rfl, by decide⟩

theorem hostChannelPoll (c : Fin 8) : Statement (.hostChannelPoll c) :=
  ⟨.hostChannelPoll 6, rfl, by decide⟩

theorem descriptorAbort (e : Fin 5) (c : Fin 8) : Statement (.descriptorAbort e c) :=
  ⟨.descriptorAbort 0 0, rfl, by decide⟩

theorem expanderBlock (p : Fin 4) (ms : List Meet) : Statement (.expanderBlock p ms) :=
  ⟨.expanderBlock 0 [], rfl, by decide⟩

theorem condenserBlock (p : Fin 4) : Statement (.condenserBlock p) :=
  ⟨.condenserBlock 0, rfl, by decide⟩

theorem hbmTraining (ok : Bool) : Statement (.hbmTraining ok) :=
  ⟨.hbmTraining true, rfl, by decide⟩

theorem hbmTempRead (t : Int) : Statement (.hbmTempRead t) :=
  ⟨.hbmTempRead 0, rfl, by decide⟩

theorem ecsRead (counts : List Nat) : Statement (.ecsRead counts) :=
  ⟨.ecsRead (List.replicate 16 0), rfl, by decide⟩

theorem hbmRecalibration : Statement .hbmRecalibration :=
  ⟨.hbmRecalibration, rfl, by decide⟩

theorem hbmPowerDown (c : Fin 16) : Statement (.hbmPowerDown c) :=
  ⟨.hbmPowerDown 0, rfl, by decide⟩

theorem hbmParityError (c : Fin 16) (failed : Nat) : Statement (.hbmParityError c failed) :=
  ⟨.hbmParityError 0 1, rfl, by decide⟩

theorem lineGroupComplete (st : Fin 5) (rows : List RawRow) : Statement (.lineGroupComplete st rows) :=
  ⟨.lineGroupComplete 0 [], rfl, by decide⟩

theorem frameEnd (rows : List RawRow) : Statement (.frameEnd rows) :=
  ⟨.frameEnd [], rfl, by decide⟩

theorem burstTrigger (theta : Int) (rows : List RawRow) : Statement (.burstTrigger theta rows) :=
  ⟨.burstTrigger 0 [], rfl, by decide⟩

theorem burstFrameStart (rows : List RawRow) (lines : Nat) : Statement (.burstFrameStart rows lines) :=
  ⟨.burstFrameStart [] 0, rfl, by decide⟩

theorem burstEnd : Statement .burstEnd :=
  ⟨.burstEnd, rfl, by decide⟩

theorem sensorStandbyExit : Statement .sensorStandbyExit :=
  ⟨.sensorStandbyExit, rfl, by decide⟩

theorem setSensor (flags : Half) (seq : Word) (set : List Byte) : Statement (.setSensor flags seq set) :=
  ⟨.setSensor 0 0 (List.replicate 32 0), rfl, by decide⟩

theorem sampleTrigger : Statement .sampleTrigger :=
  ⟨.sampleTrigger, rfl, by decide⟩

theorem conversionDone (k : Fin 17) (code : BitVec 18) : Statement (.conversionDone k code) :=
  ⟨.conversionDone 0 0, rfl, by decide⟩

theorem holdoffExpiry (i : Fin 64) : Statement (.holdoffExpiry i) :=
  ⟨.holdoffExpiry 0, rfl, by decide⟩

theorem urgentRequest : Statement .urgentRequest :=
  ⟨.urgentRequest, rfl, by decide⟩

theorem blockComplete (k : Fin 16) (bad : Bool) : Statement (.blockComplete k bad) :=
  ⟨.blockComplete 0 true, rfl, by decide⟩

theorem historyWrite (k : Fin 16) : Statement (.historyWrite k) :=
  ⟨.historyWrite 0, rfl, by decide⟩

theorem calibrationSlot : Statement .calibrationSlot :=
  ⟨.calibrationSlot, rfl, by decide⟩

theorem spareSelfCalibration : Statement .spareSelfCalibration :=
  ⟨.spareSelfCalibration, rfl, by decide⟩

theorem calibrationReturn (ok : Bool) : Statement (.calibrationReturn ok) :=
  ⟨.calibrationReturn true, rfl, by decide⟩

theorem adcRefSettled : Statement .adcRefSettled :=
  ⟨.adcRefSettled, rfl, by decide⟩

theorem waveRefFault : Statement .waveRefFault :=
  ⟨.waveRefFault, rfl, by decide⟩

theorem openWirePhaseEnd : Statement .openWirePhaseEnd :=
  ⟨.openWirePhaseEnd, rfl, by decide⟩

theorem ptpMessage (port : Fin 2) (eth : Eth) (domain : Nat) (m : PtpMsg) :
    Statement (.ptpMessage port eth domain m) :=
  ⟨.ptpMessage 0 ⟨List.replicate 6 0, none, 0⟩ 0 (.pdelayReq 0), rfl, by decide⟩

theorem pdelayReqTimer : Statement .pdelayReqTimer :=
  ⟨.pdelayReqTimer, rfl, by decide⟩

theorem syncTimeout : Statement .syncTimeout :=
  ⟨.syncTimeout, rfl, by decide⟩

theorem holdoverExpiry : Statement .holdoverExpiry :=
  ⟨.holdoverExpiry, rfl, by decide⟩

theorem holdoverReport : Statement .holdoverReport :=
  ⟨.holdoverReport, rfl, by decide⟩

theorem linkDown (port : Fin 2) : Statement (.linkDown port) :=
  ⟨.linkDown 0, rfl, by decide⟩

theorem linkUp (port : Fin 2) : Statement (.linkUp port) :=
  ⟨.linkUp 0, rfl, by decide⟩

theorem discardedFrame (port : Fin 2) (eth : Eth) (len : Nat) (badFcs : Bool) :
    Statement (.discardedFrame port eth len badFcs) :=
  ⟨.discardedFrame 0 ⟨List.replicate 6 0, none, 0⟩ 0 false, rfl, by decide⟩

theorem frameTransmit (port : Fin 2) : Statement (.frameTransmit port) :=
  ⟨.frameTransmit 0, rfl, by decide⟩

theorem eventTimerEvent (k : Fin 8) : Statement (.eventTimerEvent k) :=
  ⟨.eventTimerEvent 0, rfl, by decide⟩

theorem etCapture (k : Fin 8) (rising : Bool) : Statement (.etCapture k rising) :=
  ⟨.etCapture 0 true, rfl, by decide⟩

theorem templateRepeat (t : Fin 32) : Statement (.templateRepeat t) :=
  ⟨.templateRepeat 0, rfl, by decide⟩

theorem beamData (port : Fin 2) (eth : Eth) (hdr : List Byte) (payload : List Byte) :
    Statement (.beamData port eth hdr payload) :=
  ⟨.beamData 0 ⟨List.replicate 6 0, none, 0⟩ (List.replicate 32 0) [], rfl, by decide⟩

theorem beamAck (port : Fin 2) (eth : Eth) (hdr : List Byte) : Statement (.beamAck port eth hdr) :=
  ⟨.beamAck 0 ⟨List.replicate 6 0, none, 0⟩ (List.replicate 32 0), rfl, by decide⟩

theorem beamCredit (port : Fin 2) (eth : Eth) (hdr : List Byte) : Statement (.beamCredit port eth hdr) :=
  ⟨.beamCredit 0 ⟨List.replicate 6 0, none, 0⟩ (List.replicate 32 0), rfl, by decide⟩

theorem beamControl (port : Fin 2) (eth : Eth) (hdr : List Byte) (m : BeamCtl) :
    Statement (.beamControl port eth hdr m) :=
  ⟨.beamControl 0 ⟨List.replicate 6 0, none, 0⟩ (List.replicate 32 0) (.windowClose 0 true), rfl, by decide⟩

theorem beamHello (port : Fin 2) (eth : Eth) (hdr : List Byte) : Statement (.beamHello port eth hdr) :=
  ⟨.beamHello 0 ⟨List.replicate 6 0, none, 0⟩ (List.replicate 32 0), rfl, by decide⟩

theorem helloTimer : Statement .helloTimer :=
  ⟨.helloTimer, rfl, by decide⟩

theorem retransmit (peer : Byte) : Statement (.retransmit peer) :=
  ⟨.retransmit 0, rfl, by decide⟩

theorem globalTimeout (kind : Fin 2) : Statement (.globalTimeout kind) :=
  ⟨.globalTimeout 0, rfl, by decide⟩

theorem loadSchedule (flags : Half) (seq : Word) (addr len : DWord) : Statement (.loadSchedule flags seq addr len) :=
  ⟨.loadSchedule 0 0 0 0, rfl, by decide⟩

theorem loadScheduleChecked : Statement .loadScheduleChecked :=
  ⟨.loadScheduleChecked, rfl, by decide⟩

theorem start (flags : Half) (seq : Word) (t : DWord) : Statement (.start flags seq t) :=
  ⟨.start 0 0 0, rfl, by decide⟩

theorem stop (flags : Half) (seq : Word) : Statement (.stop flags seq) :=
  ⟨.stop 0 0, rfl, by decide⟩

theorem stats (flags : Half) (seq : Word) (dst : DWord) (len : Word) : Statement (.stats flags seq dst len) :=
  ⟨.stats 0 0 0 0, rfl, by decide⟩

theorem dmaChain (flags : Half) (seq : Word) (len : Half) (inl : List Byte) :
    Statement (.dmaChain flags seq len inl) :=
  ⟨.dmaChain 0 0 0 (List.replicate 48 0), rfl, by decide⟩

theorem journalMirror (flags : Half) (seq : Word) (len : Half) (inl : List Byte) :
    Statement (.journalMirror flags seq len inl) :=
  ⟨.journalMirror 0 0 0 (List.replicate 48 0), rfl, by decide⟩

theorem eventData (flags : Half) (seq : Word) (len : Half) (inl : List Byte) :
    Statement (.eventData flags seq len inl) :=
  ⟨.eventData 0 0 0 (List.replicate 48 0), rfl, by decide⟩

theorem analogRef (flags : Half) (seq : Word) (len : Half) (inl : List Byte) :
    Statement (.analogRef flags seq len inl) :=
  ⟨.analogRef 0 0 0 (List.replicate 48 0), rfl, by decide⟩

theorem wavePeriod (flags : Half) (seq : Word) (len : Half) (inl : List Byte) :
    Statement (.wavePeriod flags seq len inl) :=
  ⟨.wavePeriod 0 0 0 (List.replicate 48 0), rfl, by decide⟩

theorem waveCal (flags : Half) (seq : Word) (len : Half) (inl : List Byte) : Statement (.waveCal flags seq len inl) :=
  ⟨.waveCal 0 0 0 (List.replicate 48 0), rfl, by decide⟩

theorem openWire (flags : Half) (seq : Word) (len : Half) (inl : List Byte) :
    Statement (.openWire flags seq len inl) :=
  ⟨.openWire 0 0 0 (List.replicate 48 0), rfl, by decide⟩

theorem port (flags : Half) (seq : Word) (len : Half) (inl : List Byte) : Statement (.port flags seq len inl) :=
  ⟨.port 0 0 0 (List.replicate 48 0), rfl, by decide⟩

theorem ptp (flags : Half) (seq : Word) (len : Half) (inl : List Byte) : Statement (.ptp flags seq len inl) :=
  ⟨.ptp 0 0 0 (List.replicate 48 0), rfl, by decide⟩

theorem eventTimer (flags : Half) (seq : Word) (len : Half) (inl : List Byte) :
    Statement (.eventTimer flags seq len inl) :=
  ⟨.eventTimer 0 0 0 (List.replicate 48 0), rfl, by decide⟩

theorem beamSystem (flags : Half) (seq : Word) (len : Half) (inl : List Byte) :
    Statement (.beamSystem flags seq len inl) :=
  ⟨.beamSystem 0 0 0 (List.replicate 48 0), rfl, by decide⟩

theorem openWindow (flags : Half) (seq : Word) (dir window peer kind facet region : Byte) (base size : DWord) :
    Statement (.openWindow flags seq dir window peer kind facet region base size) :=
  ⟨.openWindow 0 0 0 0 0 0 0 0 0 0, rfl, by decide⟩

theorem closeWindow (flags : Half) (seq : Word) (dir window : Byte) : Statement (.closeWindow flags seq dir window) :=
  ⟨.closeWindow 0 0 0 0, rfl, by decide⟩

theorem globalBarrier (flags : Half) (seq : Word) (window : Byte) (opId : Word) (tick : DWord) (arg timeout : Word) (src : DWord) (len : Word) :
    Statement (.globalBarrier flags seq window opId tick arg timeout src len) :=
  ⟨.globalBarrier 0 0 0 0 0 0 0 0 0, rfl, by decide⟩

theorem globalBroadcast (flags : Half) (seq : Word) (window : Byte) (opId : Word) (tick : DWord) (arg timeout : Word) (src : DWord) (len : Word) :
    Statement (.globalBroadcast flags seq window opId tick arg timeout src len) :=
  ⟨.globalBroadcast 0 0 0 0 0 0 0 0 0, rfl, by decide⟩

theorem globalSnapshot (flags : Half) (seq : Word) (window : Byte) (opId : Word) (tick : DWord) (arg timeout : Word) (src : DWord) (len : Word) :
    Statement (.globalSnapshot flags seq window opId tick arg timeout src len) :=
  ⟨.globalSnapshot 0 0 0 0 0 0 0 0 0, rfl, by decide⟩

theorem globalStart (flags : Half) (seq : Word) (window : Byte) (opId : Word) (tick : DWord) (arg timeout : Word) (src : DWord) (len : Word) :
    Statement (.globalStart flags seq window opId tick arg timeout src len) :=
  ⟨.globalStart 0 0 0 0 0 0 0 0 0, rfl, by decide⟩

theorem globalStop (flags : Half) (seq : Word) (window : Byte) (opId : Word) (tick : DWord) (arg timeout : Word) (src : DWord) (len : Word) :
    Statement (.globalStop flags seq window opId tick arg timeout src len) :=
  ⟨.globalStop 0 0 0 0 0 0 0 0 0, rfl, by decide⟩

theorem globalRestart (flags : Half) (seq : Word) (window : Byte) (opId : Word) (tick : DWord) (arg timeout : Word) (src : DWord) (len : Word) :
    Statement (.globalRestart flags seq window opId tick arg timeout src len) :=
  ⟨.globalRestart 0 0 0 0 0 0 0 0 0, rfl, by decide⟩

theorem snapshot (flags : Half) (seq : Word) (tick : DWord) : Statement (.snapshot flags seq tick) :=
  ⟨.snapshot 0 0 0, rfl, by decide⟩

theorem readCounters (flags : Half) (seq : Word) (dst : DWord) (len : Word) :
    Statement (.readCounters flags seq dst len) :=
  ⟨.readCounters 0 0 0 0, rfl, by decide⟩

theorem readJournal (flags : Half) (seq : Word) (first : DWord) (count : Word) (dst : DWord) :
    Statement (.readJournal flags seq first count dst) :=
  ⟨.readJournal 0 0 0 0 0, rfl, by decide⟩

theorem attest (flags : Half) (seq : Word) (nonce : List Byte) (dst : DWord) (len : Word) :
    Statement (.attest flags seq nonce dst len) :=
  ⟨.attest 0 0 (List.replicate 32 0) 0 0, rfl, by decide⟩

theorem attestSigned : Statement .attestSigned :=
  ⟨.attestSigned, rfl, by decide⟩

theorem enroll (flags : Half) (seq : Word) (addr : DWord) (len : Word) (slot : Byte) :
    Statement (.enroll flags seq addr len slot) :=
  ⟨.enroll 0 0 0 0 0, rfl, by decide⟩

theorem fuseProgram (flags : Half) (seq : Word) (region word source : Byte) (bits : DWord) :
    Statement (.fuseProgram flags seq region word source bits) :=
  ⟨.fuseProgram 0 0 0 0 0 0, rfl, by decide⟩

theorem fuseSeal (flags : Half) (seq : Word) (region : Byte) : Statement (.fuseSeal flags seq region) :=
  ⟨.fuseSeal 0 0 0, rfl, by decide⟩

theorem fuseLock (flags : Half) (seq : Word) (region kind : Byte) : Statement (.fuseLock flags seq region kind) :=
  ⟨.fuseLock 0 0 0 0, rfl, by decide⟩

theorem updateFirmware (flags : Half) (seq : Word) (addr : DWord) (len : Word) :
    Statement (.updateFirmware flags seq addr len) :=
  ⟨.updateFirmware 0 0 0 0, rfl, by decide⟩

theorem updateFirmwareWritten (ok : Bool) : Statement (.updateFirmwareWritten ok) :=
  ⟨.updateFirmwareWritten true, rfl, by decide⟩

theorem activateFirmware (flags : Half) (seq : Word) (slot : Byte) : Statement (.activateFirmware flags seq slot) :=
  ⟨.activateFirmware 0 0 0, rfl, by decide⟩

theorem trialEnd : Statement .trialEnd :=
  ⟨.trialEnd, rfl, by decide⟩

theorem rollbackRetry : Statement .rollbackRetry :=
  ⟨.rollbackRetry, rfl, by decide⟩

theorem setTemplate (flags : Half) (seq : Word) (tmpl : Byte) (addr : DWord) (len : Word) :
    Statement (.setTemplate flags seq tmpl addr len) :=
  ⟨.setTemplate 0 0 0 0 0, rfl, by decide⟩

theorem dmaAbort (flags : Half) (seq : Word) (engine channel : Byte) :
    Statement (.dmaAbort flags seq engine channel) :=
  ⟨.dmaAbort 0 0 0 0, rfl, by decide⟩

theorem regionRestart (flags : Half) (seq : Word) (mask : Half) : Statement (.regionRestart flags seq mask) :=
  ⟨.regionRestart 0 0 0, rfl, by decide⟩

theorem calibrationLoad (flags : Half) (seq : Word) (addr : DWord) (len : Word) :
    Statement (.calibrationLoad flags seq addr len) :=
  ⟨.calibrationLoad 0 0 0 0, rfl, by decide⟩

theorem transition (flags : Half) (seq : Word) (addr : DWord) (len : Word) :
    Statement (.transition flags seq addr len) :=
  ⟨.transition 0 0 0 0, rfl, by decide⟩

theorem fuseGrant (flags : Half) (seq : Word) (addr : DWord) (len : Word) :
    Statement (.fuseGrant flags seq addr len) :=
  ⟨.fuseGrant 0 0 0 0, rfl, by decide⟩

theorem revokeSlot (flags : Half) (seq : Word) (addr : DWord) (len : Word) :
    Statement (.revokeSlot flags seq addr len) :=
  ⟨.revokeSlot 0 0 0 0, rfl, by decide⟩

theorem cmdPutWrite (path : Path) (v : Word) : Statement (.cmdPutWrite path v) :=
  ⟨.cmdPutWrite .pcie 0, rfl, by decide⟩

theorem cmdSizeWrite (path : Path) (v : Word) : Statement (.cmdSizeWrite path v) :=
  ⟨.cmdSizeWrite .pcie 0, rfl, by decide⟩

theorem evtSizeWrite (path : Path) (v : Word) : Statement (.evtSizeWrite path v) :=
  ⟨.evtSizeWrite .pcie 0, rfl, by decide⟩

theorem evtGetWrite (path : Path) (v : Word) : Statement (.evtGetWrite path v) :=
  ⟨.evtGetWrite .pcie 0, rfl, by decide⟩

theorem ownerWrite (path : Path) (v : Word) : Statement (.ownerWrite path v) :=
  ⟨.ownerWrite .pcie 0, rfl, by decide⟩

theorem mboxDataAccess (path : Path) (write : Option Word) : Statement (.mboxDataAccess path write) :=
  ⟨.mboxDataAccess .pcie none, rfl, by decide⟩

theorem irqStatusWrite (path : Path) (v : Word) : Statement (.irqStatusWrite path v) :=
  ⟨.irqStatusWrite .pcie 0, rfl, by decide⟩

theorem irqForceWrite (path : Path) (v : Word) : Statement (.irqForceWrite path v) :=
  ⟨.irqForceWrite .pcie 0, rfl, by decide⟩

theorem errSummaryPop (path : Path) (v : Word) : Statement (.errSummaryPop path v) :=
  ⟨.errSummaryPop .pcie 0, rfl, by decide⟩

theorem perfReqWrite (path : Path) (v : Word) : Statement (.perfReqWrite path v) :=
  ⟨.perfReqWrite .pcie 0, rfl, by decide⟩

theorem tickCtlWrite (path : Path) (v : Word) : Statement (.tickCtlWrite path v) :=
  ⟨.tickCtlWrite .pcie 0, rfl, by decide⟩

theorem snapCtlArm (path : Path) (v : Word) : Statement (.snapCtlArm path v) :=
  ⟨.snapCtlArm .pcie 0, rfl, by decide⟩

theorem snapCtlDisarm (path : Path) (v : Word) : Statement (.snapCtlDisarm path v) :=
  ⟨.snapCtlDisarm .pcie 0, rfl, by decide⟩

theorem wdogCtlWrite (path : Path) (v : Word) : Statement (.wdogCtlWrite path v) :=
  ⟨.wdogCtlWrite .pcie 0, rfl, by decide⟩

theorem wdogKick (path : Path) (v : Word) : Statement (.wdogKick path v) :=
  ⟨.wdogKick .pcie 0, rfl, by decide⟩

theorem hostLost : Statement .hostLost :=
  ⟨.hostLost, rfl, by decide⟩

theorem tickLoRead (path : Path) (part : PairRead) : Statement (.tickLoRead path part) :=
  ⟨.tickLoRead .pcie .wide, rfl, by decide⟩

theorem timeLoRead (path : Path) (part : PairRead) : Statement (.timeLoRead path part) :=
  ⟨.timeLoRead .pcie .wide, rfl, by decide⟩

theorem lowHalfWrite (reg : Fin 64) (v : Half) : Statement (.lowHalfWrite reg v) :=
  ⟨.lowHalfWrite 0 0, rfl, by decide⟩

theorem lowHalfRead (reg : Fin 64) (hi : Bool) : Statement (.lowHalfRead reg hi) :=
  ⟨.lowHalfRead 0 true, rfl, by decide⟩

theorem registerWrite (path : Path) (reg : Fin 1024) (be : BitVec 4) (v : Word) :
    Statement (.registerWrite path reg be v) :=
  ⟨.registerWrite .pcie 0 15 0, rfl, by decide⟩

theorem bar2Access (off : Word) (len : Nat) (write : Option (List Byte)) : Statement (.bar2Access off len write) :=
  ⟨.bar2Access 0 0 none, rfl, by decide⟩

theorem firmwarePush (path : Path) (v : Word) : Statement (.firmwarePush path v) :=
  ⟨.firmwarePush .pcie 0, rfl, by decide⟩

theorem functionLevelReset (perst : Bool) : Statement (.functionLevelReset perst) :=
  ⟨.functionLevelReset true, rfl, by decide⟩

theorem journalMirrorCopy : Statement .journalMirrorCopy :=
  ⟨.journalMirrorCopy, rfl, by decide⟩

theorem porstAssert : Statement .porstAssert :=
  ⟨.porstAssert, rfl, by decide⟩

theorem porstRelease (bootSrc clkSrc : Fin 4) : Statement (.porstRelease bootSrc clkSrc) :=
  ⟨.porstRelease 0 0, rfl, by decide⟩

theorem refCountWindow (count : Nat) : Statement (.refCountWindow count) :=
  ⟨.refCountWindow 0, rfl, by decide⟩

theorem pllJudged (d : Fin 9) (count : Nat) : Statement (.pllJudged d count) :=
  ⟨.pllJudged 0 0, rfl, by decide⟩

theorem pllCountCheck (counts : List Nat) : Statement (.pllCountCheck counts) :=
  ⟨.pllCountCheck (List.replicate 9 0), rfl, by decide⟩

theorem pgoodMainRise : Statement .pgoodMainRise :=
  ⟨.pgoodMainRise, rfl, by decide⟩

theorem pgoodMainTimeout : Statement .pgoodMainTimeout :=
  ⟨.pgoodMainTimeout, rfl, by decide⟩

theorem enMainRetry : Statement .enMainRetry :=
  ⟨.enMainRetry, rfl, by decide⟩

theorem pgoodMainLow : Statement .pgoodMainLow :=
  ⟨.pgoodMainLow, rfl, by decide⟩

theorem pgoodCoreRise : Statement .pgoodCoreRise :=
  ⟨.pgoodCoreRise, rfl, by decide⟩

theorem pgoodCoreTimeout : Statement .pgoodCoreTimeout :=
  ⟨.pgoodCoreTimeout, rfl, by decide⟩

theorem vsetSettled : Statement .vsetSettled :=
  ⟨.vsetSettled, rfl, by decide⟩

theorem thermalCrossing (t : Int) : Statement (.thermalCrossing t) :=
  ⟨.thermalCrossing 0, rfl, by decide⟩

theorem supplyWarningCrossing (i : Fin 4) (mv : Nat) : Statement (.supplyWarningCrossing i mv) :=
  ⟨.supplyWarningCrossing 0 0, rfl, by decide⟩

theorem supplyResetLevel (i : Fin 5) (mv : Nat) : Statement (.supplyResetLevel i mv) :=
  ⟨.supplyResetLevel 0 0, rfl, by decide⟩

theorem sleepEntry : Statement .sleepEntry :=
  ⟨.sleepEntry, rfl, by decide⟩

theorem wake (level : Bool) : Statement (.wake level) :=
  ⟨.wake true, rfl, by decide⟩

theorem periscopeTransaction (addr : BitVec 7) (write : Option (List Byte)) (count : Nat) :
    Statement (.periscopeTransaction addr write count) :=
  ⟨.periscopeTransaction 0 none 0, rfl, by decide⟩

theorem sleepExit : Statement .sleepExit :=
  ⟨.sleepExit, rfl, by decide⟩

theorem firmwareBoot : Statement .firmwareBoot :=
  ⟨.firmwareBoot, rfl, by decide⟩

theorem fuseReread (reads : List (Fin 528 × DWord × DWord)) : Statement (.fuseReread reads) :=
  ⟨.fuseReread [], rfl, by decide⟩

theorem regionIsolation (r : Fin 7) (block : Byte) (cause : Half) : Statement (.regionIsolation r block cause) :=
  ⟨.regionIsolation 0 0 0, rfl, by decide⟩

theorem autoRestart (r : Fin 7) : Statement (.autoRestart r) :=
  ⟨.autoRestart 0, rfl, by decide⟩

theorem restartStepsDone (r : Fin 7) (ok : Bool) : Statement (.restartStepsDone r ok) :=
  ⟨.restartStepsDone 0 true, rfl, by decide⟩

theorem controlWatchdogExpiry : Statement .controlWatchdogExpiry :=
  ⟨.controlWatchdogExpiry, rfl, by decide⟩

theorem fatalError (status : Half) (region block : Byte) (addr : DWord) :
    Statement (.fatalError status region block addr) :=
  ⟨.fatalError 0 0 0 0, rfl, by decide⟩

theorem vddAonPowerUp (pscAddr : Fin 4) : Statement (.vddAonPowerUp pscAddr) :=
  ⟨.vddAonPowerUp 0, rfl, by decide⟩

theorem vddAonPowerLoss : Statement .vddAonPowerLoss :=
  ⟨.vddAonPowerLoss, rfl, by decide⟩

theorem supplyRecovery (i : Fin 4) (mv : Nat) : Statement (.supplyRecovery i mv) :=
  ⟨.supplyRecovery 0 0, rfl, by decide⟩

theorem pgoodCoreLow : Statement .pgoodCoreLow :=
  ⟨.pgoodCoreLow, rfl, by decide⟩

theorem thermalRearm (t : Int) : Statement (.thermalRearm t) :=
  ⟨.thermalRearm 0, rfl, by decide⟩

theorem pcieLinkTrained : Statement .pcieLinkTrained :=
  ⟨.pcieLinkTrained, rfl, by decide⟩

theorem vppFusePresence (mv : Nat) (outcomes : List (Nat × Nat)) : Statement (.vppFusePresence mv outcomes) :=
  ⟨.vppFusePresence 0 [], rfl, by decide⟩

theorem containerChecked : Statement .containerChecked :=
  ⟨.containerChecked, rfl, by decide⟩

theorem fuseProgrammingDone (outcomes : List (Nat × Nat)) : Statement (.fuseProgrammingDone outcomes) :=
  ⟨.fuseProgrammingDone [], rfl, by decide⟩

theorem backgroundResultWritten (opcode : Half) : Statement (.backgroundResultWritten opcode) :=
  ⟨.backgroundResultWritten 0, rfl, by decide⟩

end Sys2Proof.Laws.WellFormed
end

