-- ==== Sys2Proof/Laws/Registers.lean ====
section
/-! SUPPORT. What a write of a register by its owner comes to, for every register: the write cycle and then the
register's own effect. -/

set_option Elab.async false

namespace Sys2Proof.Machine

/-- A write cycle changes the low-half latch alone (12 R323). -/
theorem State.written_state (s : State) (p : Path) (i : Nat) (v : Word) :
    (s.written p i v).2 = { s with host := { s.host with
      lowLatch := match p with | .pcie => s.host.lowLatch | .localbus => none } } := by
  cases p <;> rfl

theorem State.written_owner (s : State) (p : Path) (i : Nat) (v : Word) :
    (s.written p i v).2.host.owner = s.host.owner := by cases p <;> rfl

/-- The owner's write of any register but OWNER (12 R319). -/
theorem State.writeReg_owned {s : State} {p : Path} (i : Nat) (v : Word) (hp : s.pathOpen p = true)
    (ho : s.host.owner = pathOwner p) (hi : i ≠ 4) (hr : i < 0x30) :
    s.writeReg p i v = (s.written p i v).2.putReg i (s.written p i v).1 := by
  rw [State.writeReg, if_neg (by simp [hp])]
  generalize hw : s.written p i v = w
  obtain ⟨x, t⟩ := w
  have h2 : t.host.owner = s.host.owner := by
    have := s.written_owner p i v
    rwa [hw] at this
  simp only
  rw [if_neg (by omega), if_neg hi, if_neg (by rw [h2, ho]; simp)]

/-- A write by another path, OWNER apart (12 R319, R325). -/
theorem State.writeReg_other {s : State} {p : Path} (i : Nat) (v : Word) (hp : s.pathOpen p = true)
    (ho : s.host.owner ≠ pathOwner p) (hi : i ≠ 4) (hr : i < 0x30) :
    s.writeReg p i v = (s.written p i v).2.count srcHost 0 1 := by
  rw [State.writeReg, if_neg (by simp [hp])]
  generalize hw : s.written p i v = w
  obtain ⟨x, t⟩ := w
  have h2 : t.host.owner = s.host.owner := by
    have := s.written_owner p i v
    rwa [hw] at this
  simp only
  rw [if_neg (by omega), if_neg hi, if_pos (by rw [h2]; exact ho)]

end Sys2Proof.Machine
end

