-- ==== Sys2Proof/Laws/SMap.lean ====
section
/-! SUPPORT. Sparse maps: every operation keeps the canonical form, what a write changes and what it
leaves, and that equal readings are equal data. -/

set_option Elab.async false

namespace Sys2Proof.Machine.SMap
variable {α : Type} [DecidableEq α] {d : α} {m m' : SMap α}

/-- The canonical form as a proposition. -/
theorem wf_iff : wf d m = true ↔ m.Pairwise (fun p q => p.1 < q.1) ∧ ∀ p ∈ m, p.2 ≠ d := by
  simp [wf, List.all_eq_true]

theorem wf_nil : wf d ([] : SMap α) = true := rfl

theorem wf_filter (f : Nat × α → Bool) (h : wf d m = true) : wf d (m.filter f) = true := by
  rw [wf_iff] at *
  exact ⟨h.1.filter _, fun p hp => h.2 p (List.mem_of_mem_filter hp)⟩

/-- Keys of written cells lie in the range written, and no default is listed. -/
theorem mem_cells {vs : List α} {a : Nat} {p : Nat × α} (h : p ∈ cells d a vs) :
    a ≤ p.1 ∧ p.1 < a + vs.length ∧ p.2 ≠ d := by
  induction vs generalizing a with
  | nil => simp [cells] at h
  | cons v vs ih =>
    simp only [cells] at h
    split at h
    · obtain ⟨h1, h2, h3⟩ := ih h
      exact ⟨by omega, by simp only [List.length_cons]; omega, h3⟩
    · rename_i hv
      rcases List.mem_cons.1 h with rfl | h
      · simpa using hv
      · obtain ⟨h1, h2, h3⟩ := ih h
        exact ⟨by omega, by simp only [List.length_cons]; omega, h3⟩

theorem cells_rising (vs : List α) (a : Nat) : (cells d a vs).Pairwise (fun p q => p.1 < q.1) := by
  induction vs generalizing a with
  | nil => simp [cells]
  | cons v vs ih =>
    simp only [cells]
    split
    · exact ih _
    · refine List.pairwise_cons.2 ⟨fun p hp => ?_, ih _⟩
      have := (mem_cells hp).1
      simp only; omega

/-- A write of a run keeps the canonical form. -/
theorem wf_setRange (a : Nat) (vs : List α) (h : wf d m = true) : wf d (setRange d m a vs) = true := by
  rw [wf_iff] at *
  obtain ⟨hr, hd⟩ := h
  simp only [setRange]
  refine ⟨?_, ?_⟩
  · rw [List.pairwise_append, List.pairwise_append]
    refine ⟨⟨hr.filter _, cells_rising vs a, ?_⟩, hr.filter _, ?_⟩
    · intro p hp q hq
      have h1 := (List.mem_filter.1 hp).2
      have h2 := (mem_cells hq).1
      simp only [decide_eq_true_eq] at h1
      omega
    · intro p hp q hq
      have h2 := (List.mem_filter.1 hq).2
      simp only [decide_eq_true_eq] at h2
      rcases List.mem_append.1 hp with hp | hp
      · have h1 := (List.mem_filter.1 hp).2
        simp only [decide_eq_true_eq] at h1
        omega
      · have := (mem_cells hp).2.1
        omega
  · intro p hp
    rcases List.mem_append.1 hp with hp | hp
    · rcases List.mem_append.1 hp with hp | hp
      · exact hd p (List.mem_of_mem_filter hp)
      · exact (mem_cells hp).2.2
    · exact hd p (List.mem_of_mem_filter hp)

theorem wf_set (k : Nat) (v : α) (h : wf d m = true) : wf d (set d m k v) = true := wf_setRange k [v] h

theorem wf_bump {m : NMap} (k n : Nat) (h : wf 0 m = true) : wf 0 (NMap.bump m k n) = true := wf_set k _ h

/-! ### Reading -/

omit [DecidableEq α] in
theorem get_cons (k : Nat) (v : α) (m : SMap α) (a : Nat) :
    get d ((k, v) :: m) a = if a = k then v else if a < k then d else get d m a := rfl

omit [DecidableEq α] in
/-- A key below every listed key reads as the default. -/
theorem get_below {a : Nat} (h : ∀ p ∈ m, a < p.1) : get d m a = d := by
  induction m with
  | nil => rfl
  | cons p m ih =>
    obtain ⟨k, v⟩ := p
    have hk : a < k := h (k, v) (by simp)
    rw [get_cons, if_neg (by omega), if_pos hk]

omit [DecidableEq α] in
/-- Reading a joined map whose first part lies wholly below the second. -/
theorem get_append {l r : SMap α} (hl : l.Pairwise (fun p q => p.1 < q.1)) (a b : Nat)
    (h1 : ∀ p ∈ l, p.1 < b) (h2 : ∀ p ∈ r, b ≤ p.1) :
    get d (l ++ r) a = if a < b then get d l a else get d r a := by
  induction l with
  | nil =>
    by_cases h : a < b
    · rw [if_pos h]
      exact get_below (fun p hp => by have := h2 p (by simpa using hp); omega)
    · simp [h]
  | cons p l ih =>
    obtain ⟨k, v⟩ := p
    have hk : k < b := h1 (k, v) (by simp)
    have ih := ih (List.pairwise_cons.1 hl).2 (fun p hp => h1 p (by simp [hp]))
    simp only [List.cons_append, get_cons, ih]
    by_cases hab : a < b
    · simp [hab]
    · simp only [hab, if_false]
      rw [if_neg (by omega), if_neg (by omega)]

omit [DecidableEq α] in
/-- A filter by a bound on keys does not change what lies inside the bound. -/
theorem get_filter_lt {a b : Nat} (hw : m.Pairwise (fun p q => p.1 < q.1)) (h : a < b) :
    get d (m.filter (fun p => p.1 < b)) a = get d m a := by
  induction m with
  | nil => rfl
  | cons p m ih =>
    obtain ⟨k, v⟩ := p
    have hw' := List.pairwise_cons.1 hw
    by_cases hk : k < b
    · simp only [List.filter_cons, hk, decide_true, if_true, get_cons, ih hw'.2]
    · have : m.filter (fun p => decide (p.1 < b)) = [] := by
        refine List.filter_eq_nil_iff.2 fun p hp => ?_
        have := hw'.1 p hp
        simp only [decide_eq_true_eq]; simp only at this; omega
      have h1 : ¬a = k := by omega
      have h2 : a < k := by omega
      simp [hk, this, h1, h2, get]

omit [DecidableEq α] in
theorem get_filter_ge {a b : Nat} (h : b ≤ a) :
    get d (m.filter (fun p => b ≤ p.1)) a = get d m a := by
  induction m with
  | nil => rfl
  | cons p m ih =>
    obtain ⟨k, v⟩ := p
    by_cases hk : b ≤ k
    · simp only [List.filter_cons, hk, decide_true, if_true, get_cons, ih]
    · have h1 : ¬a = k := by omega
      have h2 : ¬a < k := by omega
      simp [hk, get_cons, h1, h2, ih]

theorem get_cells (vs : List α) (a i : Nat) : get d (cells d a vs) (a + i) = vs.getD i d := by
  induction vs generalizing a i with
  | nil => simp [cells, get]
  | cons v vs ih =>
    simp only [cells]
    cases i with
    | zero =>
      split
      · rename_i hv
        subst hv
        exact get_below (fun p hp => by have := (mem_cells hp).1; omega)
      · simp [get_cons]
    | succ i =>
      have := ih (a + 1) i
      have e : a + (i + 1) = a + 1 + i := by omega
      split
      · rw [e, this]; simp
      · rw [get_cons, if_neg (by omega), if_neg (by omega), e, this]; simp

/-- What a run written reads as: the run's values inside it, what stood there before outside it. -/
theorem get_setRange (hw : wf d m = true) (a k : Nat) (vs : List α) :
    get d (setRange d m a vs) k =
      if a ≤ k ∧ k < a + vs.length then vs.getD (k - a) d else get d m k := by
  have hr := (wf_iff.1 hw).1
  simp only [setRange]
  have hc : (m.filter (fun p => decide (p.1 < a)) ++ cells d a vs).Pairwise (fun p q => p.1 < q.1) := by
    rw [List.pairwise_append]
    refine ⟨hr.filter _, cells_rising vs a, fun p hp q hq => ?_⟩
    have h1 := (List.mem_filter.1 hp).2
    have h2 := (mem_cells hq).1
    simp only [decide_eq_true_eq] at h1
    omega
  rw [get_append hc k (a + vs.length)]
  · by_cases h : k < a + vs.length
    · rw [if_pos h, get_append (hr.filter _) k a]
      · by_cases h2 : k < a
        · rw [if_pos h2, if_neg (by omega), get_filter_lt hr h2]
        · have e : k = a + (k - a) := by omega
          rw [if_neg h2, if_pos (by omega), e, get_cells]
          simp
      · intro p hp
        simpa using (List.mem_filter.1 hp).2
      · exact fun p hp => (mem_cells hp).1
    · rw [if_neg h, if_neg (by omega), get_filter_ge (by omega)]
  · intro p hp
    rcases List.mem_append.1 hp with hp | hp
    · have := (List.mem_filter.1 hp).2
      simp only [decide_eq_true_eq] at this; omega
    · exact (mem_cells hp).2.1
  · intro p hp
    simpa using (List.mem_filter.1 hp).2

/-- Writing one key. -/
theorem get_set (hw : wf d m = true) (a k : Nat) (v : α) :
    get d (set d m a v) k = if k = a then v else get d m k := by
  rw [set, get_setRange hw]
  by_cases h : k = a
  · subst h; simp
  · have : ¬(a ≤ k ∧ k < a + [v].length) := by simp only [List.length_singleton]; omega
    rw [if_neg this, if_neg h]

/-- A key that is listed in a canonical map does not read as the default. -/
theorem get_mem (hw : wf d m = true) {p : Nat × α} (hp : p ∈ m) : get d m p.1 = p.2 := by
  induction m with
  | nil => cases hp
  | cons q m ih =>
    have hw' := wf_iff.1 hw
    have hq := List.pairwise_cons.1 hw'.1
    obtain ⟨k, v⟩ := q
    rcases List.mem_cons.1 hp with rfl | hp
    · simp [get_cons]
    · have := hq.1 p hp
      simp only at this
      rw [get_cons, if_neg (by omega), if_neg (by omega)]
      exact ih (wf_iff.2 ⟨hq.2, fun r hr => hw'.2 r (by simp [hr])⟩) hp

/-- Canonical maps that read alike are the same data. -/
theorem ext_of_get (h : wf d m = true) (h' : wf d m' = true) (e : ∀ k, get d m k = get d m' k) :
    m = m' := by
  induction m generalizing m' with
  | nil =>
    cases m' with
    | nil => rfl
    | cons p m' =>
      have := get_mem h' (p := p) (by simp)
      have hd := (wf_iff.1 h').2 p (by simp)
      rw [← e] at this
      exact absurd this.symm hd
  | cons p m ih =>
    cases m' with
    | nil =>
      have := get_mem h (p := p) (by simp)
      have hd := (wf_iff.1 h).2 p (by simp)
      rw [e] at this
      exact absurd this.symm hd
    | cons q m' =>
      have hw := wf_iff.1 h
      have hw' := wf_iff.1 h'
      have hp := List.pairwise_cons.1 hw.1
      have hq := List.pairwise_cons.1 hw'.1
      obtain ⟨k, v⟩ := p
      obtain ⟨k', v'⟩ := q
      have e1 := e k
      have e2 := e k'
      have dv : v ≠ d := hw.2 (k, v) (by simp)
      have dv' : v' ≠ d := hw'.2 (k', v') (by simp)
      have hk : k = k' := by
        rcases Nat.lt_trichotomy k k' with hlt | heq | hgt
        · rw [get_cons, get_cons, if_pos rfl, if_neg (by omega), if_pos hlt] at e1
          exact absurd e1 dv
        · exact heq
        · rw [get_cons, get_cons, if_neg (by omega), if_pos hgt, if_pos rfl] at e2
          exact absurd e2.symm dv'
      subst hk
      have hv : v = v' := by simpa [get_cons] using e1
      subst hv
      congr 1
      refine ih (wf_iff.2 ⟨hp.2, fun r hr => hw.2 r (by simp [hr])⟩)
        (wf_iff.2 ⟨hq.2, fun r hr => hw'.2 r (by simp [hr])⟩) fun j => ?_
      by_cases hj : k < j
      · have := e j
        rwa [get_cons, get_cons, if_neg (by omega), if_neg (by omega), if_neg (by omega),
          if_neg (by omega)] at this
      · rw [get_below (fun r hr => by have := hp.1 r hr; simp only at this; omega),
          get_below (fun r hr => by have := hq.1 r hr; simp only at this; omega)]

end Sys2Proof.Machine.SMap
end

