-- ==== Sys2Proof/Laws/Told.lean ====
section
/-! SUPPORT. Host control that changes by records alone: what composes, writes, and the lengths of what is written. -/

set_option Elab.async false

namespace Sys2Proof.Machine

variable {X : Nat → Prop} {S s t u : State}

/-- What `State.Told` speaks of. -/
abbrev State.heard (s : State) := (s.host.mute, s.host.evtPut, s.mem)

theorem State.Told.refl (X : Nat → Prop) (s : State) : State.Told X s s :=
  ⟨rfl, .inl rfl, id, fun _ _ _ _ => rfl⟩

theorem State.heard_ring (e : t.host.mute = s.host.mute) : t.evtRingSize = s.evtRingSize ∧ t.evtSlot = s.evtSlot := by
  simp only [HostCtl.mute, HostCtl.mk.injEq] at e
  obtain ⟨e1, e2⟩ := e
  constructor
  · simp only [State.evtRingSize, e1, e2]
  · funext i
    simp only [State.evtSlot, e1, e2]

theorem State.Told.trans (h : State.Told X s t) (h' : State.Told X t u) : State.Told X s u := by
  have hr := State.heard_ring h.host
  refine ⟨h'.host.trans h.host, ?_, fun w => h'.wf (h.wf w), fun w a ha hx => ?_⟩
  · rcases h'.put with e | e
    · rw [e]; exact h.put
    · right; rw [← hr.1]; exact e
  · rw [h'.mem (h.wf w) a ?_ hx, h.mem w a ha hx]
    intro hc
    apply ha
    rcases hc with hc | ⟨i, hi, hb⟩
    · exact .inl hc
    · rw [hr.1] at hi
      rw [hr.2] at hb
      rcases hi with hi | hi
      · exact .inr ⟨i, .inl hi, hb⟩
      · rcases h.put with e | e
        · exact .inr ⟨i, .inr (hi.trans e), hb⟩
        · exact .inr ⟨i, .inl (hi ▸ e), hb⟩

theorem State.Told.congr (h : State.Told X S s) (e : t.heard = s.heard) : State.Told X S t := by
  simp only [State.heard, Prod.mk.injEq] at e
  obtain ⟨e1, e2, e3⟩ := e
  exact ⟨e1.trans h.host, e2 ▸ h.put, fun w => e3 ▸ h.wf w, fun w a ha hx => by rw [e3]; exact h.mem w a ha hx⟩

/-- Only other fields differ. -/
theorem State.Told.of_only {m : List Field} (h : State.Only m s t) (hm : ∀ f ∈ m, f ≠ .host ∧ f ≠ .mem) :
    State.Told X s t := by
  have e1 : t.host = s.host := h .host (fun q => (hm _ q).1 rfl)
  have e2 : t.mem = s.mem := h .mem (fun q => (hm _ q).2 rfl)
  exact (State.Told.refl X s).congr (by simp only [State.heard, e1, e2])

theorem State.Told.mono {Y : Nat → Prop} (h : State.Told X s t) (hi : ∀ a, X a → Y a) : State.Told Y s t :=
  ⟨h.host, h.put, h.wf, fun w a ha hy => h.mem w a ha (fun q => hy (hi a q))⟩

theorem State.writeB_told {a : Nat} {bs : List Byte} (h : State.Told X S s) (hx : ∀ i, i < bs.length → X (a + i)) :
    State.Told X S (s.writeB a bs) := by
  refine ⟨h.host, h.put, fun w => SMap.wf_setRange _ _ (h.wf w), fun w b hb hbx => ?_⟩
  rw [State.writeB_mem, SMap.get_setRange (h.wf w), if_neg, h.mem w b hb hbx]
  rintro ⟨h1, h2⟩
  apply hbx
  have := hx (b - a) (by omega)
  rwa [show a + (b - a) = b by omega] at this

theorem State.writeUnits_told {a : Nat} {bs : List Byte} {bad : Bool} (h : State.Told X S s)
    (hx : ∀ i, i < bs.length → X (a + i)) : State.Told X S (s.writeUnits a bs bad) :=
  State.Told.congr (State.writeB_told h hx) rfl

theorem State.writeRec_told {a : Nat} {bs : List Byte} (h : State.Told X S s)
    (hx : ∀ i, i < bs.length → s.recordByte (a + i)) : State.Told X S (s.writeB a bs) := by
  refine h.trans ⟨rfl, .inl rfl, fun w => SMap.wf_setRange _ _ w, fun w b hb hbx => ?_⟩
  rw [State.writeB_mem, SMap.get_setRange w, if_neg]
  rintro ⟨h1, h2⟩
  apply hb
  have := hx (b - a) (by omega)
  rwa [show a + (b - a) = b by omega] at this

theorem leBytes_length (n v : Nat) : (leBytes n v).length = n := by
  induction n generalizing v with
  | zero => rfl
  | succ n ih => simp only [leBytes, List.length_cons, ih]

theorem fitBytes_length (n : Nat) (bs : List Byte) : (fitBytes n bs).length = n := by
  simp only [fitBytes, zeroBytes, List.length_append, List.length_take, List.length_replicate]
  omega

theorem zeroBytes_length (n : Nat) : (zeroBytes n).length = n := List.length_replicate

theorem EventRec.bytes_length (r : EventRec) : r.bytes.length = 64 := by
  simp only [EventRec.bytes, List.length_append, leBytes_length, fitBytes_length]

end Sys2Proof.Machine
end

