-- ==== Sys2Proof/Laws/Via.lean ====
section
/-! SUPPORT. What an operation can do, said once: the kinds of change between the state before it and the state
after. From the kinds follow its frame, that it keeps the invariant, that host control changes by records alone, and
that every Facet keeps its shape. -/

set_option Elab.async false

namespace Sys2Proof.Machine

/-- The kinds of change: a field each, but that a Facet may change its files alone (`file`), host control by what
records change alone (`note`), and memory at the addresses of records alone (`ring`). -/
inductive Change where
  | pending | freeCtr | out | upsets | mem | ring | poison | wbQueue | cnt | tk | facets | file
  | sched | ap | hbm | dma | tmplStatus | exp | cnd | img | wav
  | net | beam | host | note | jnl | err | pwr | fuse | trust | idle | ready
  deriving DecidableEq, Repr

/-- The field that a kind of change writes. -/
def Change.field : Change → Field
  | .pending => .pending | .freeCtr => .freeCtr | .out => .out | .upsets => .upsets | .mem => .mem | .ring => .mem
  | .poison => .poison | .wbQueue => .wbQueue | .cnt => .cnt | .tk => .tk | .facets => .facets | .file => .facets
  | .sched => .sched | .ap => .ap | .hbm => .hbm | .dma => .dma | .tmplStatus => .tmplStatus | .exp => .exp
  | .cnd => .cnd | .img => .img | .wav => .wav | .net => .net | .beam => .beam | .host => .host | .note => .host
  | .jnl => .jnl | .err => .err | .pwr => .pwr | .fuse => .fuse | .trust => .trust | .idle => .idle
  | .ready => .ready

/-- `t` comes from `s` by changes of the kinds of `K`. -/
structure State.Via (K : List Change) (s t : State) : Prop where
  /-- Its frame. -/
  only : State.Only (K.map Change.field) s t
  /-- The invariant is kept. -/
  inv : s.Inv → t.Inv
  /-- Host control changes by records alone, unless it is among the kinds. -/
  told : .host ∉ K → State.Told (fun _ => .mem ∈ K) s t
  /-- Facets keep their shape, unless they are among the kinds. -/
  book : .facets ∉ K → State.Book s t

variable {K M : List Change} {S s t u : State}

theorem State.Via.refl (K : List Change) (s : State) : State.Via K s s :=
  ⟨.refl _ s, id, fun _ => .refl _ s, fun _ => .refl s⟩

theorem State.Via.mono (h : State.Via K s t) (hk : K ⊆ M) : State.Via M s t :=
  ⟨h.only.mono (List.map_subset _ hk), h.inv, fun q => (h.told (fun p => q (hk p))).mono fun _ p => hk p,
    fun q => h.book (fun p => q (hk p))⟩

/-- Changes of the kinds of `K` on top of earlier ones. -/
theorem State.Via.upd (h : State.Via M S s) (h' : State.Via K s t) (hk : K ⊆ M) : State.Via M S t :=
  have h' := h'.mono hk
  ⟨h.only.trans h'.only, fun q => h'.inv (h.inv q), fun q => (h.told q).trans (h'.told q),
    fun q => (h.book q).trans (h'.book q)⟩

/-- A frame in a list of fields. -/
theorem State.Via.frame (h : State.Via K s t) {l : List Field} (hl : K.map Change.field ⊆ l := by decide) :
    State.Only l s t := h.only.mono hl

/-- Records alone. -/
theorem State.Via.quietly (h : State.Via K s t) (h1 : .host ∉ K := by decide) (h2 : .mem ∉ K := by decide) :
    State.Told (fun _ => False) s t := (h.told h1).mono fun _ p => h2 p

theorem sub {a b c : List Change} (h : b ⊆ c) (e : a ⊆ b := by decide) : a ⊆ c := List.Subset.trans e h

/-! ### Folds and pairs -/

theorem foldl_via {α : Type} {f : State → α → State} {l : List α} (h : State.Via M S s)
    (hf : ∀ u a, State.Via M S u → State.Via M S (f u a)) : State.Via M S (l.foldl f s) := by
  induction l generalizing s with
  | nil => exact h
  | cons a l ih => exact ih (hf s a h)

theorem foldl_viaR {α : Type} {f : Run → α → Run} {l : List α} {w : Run} (h : State.Via M S w.s)
    (hf : ∀ u a, State.Via M S u.s → State.Via M S (f u a).s) : State.Via M S (l.foldl f w).s := by
  induction l generalizing w with
  | nil => exact h
  | cons a l ih => exact ih (hf w a h)

theorem foldl_viaP {α β : Type} {f : β × State → α → β × State} {l : List α} {p : β × State}
    (h : State.Via M S p.2) (hf : ∀ u a, State.Via M S u.2 → State.Via M S (f u a).2) :
    State.Via M S (l.foldl f p).2 := by
  induction l generalizing p with
  | nil => exact h
  | cons a l ih => exact ih (hf p a h)

variable {α β : Type}

theorem via1 {p : State × α} {t : State} {a : α} (e : p = (t, a)) (h : State.Via M S p.1) : State.Via M S t := by
  rw [e] at h; exact h

theorem via2 {p : α × State} {t : State} {a : α} (e : p = (a, t)) (h : State.Via M S p.2) : State.Via M S t := by
  rw [e] at h; exact h

theorem via3 {p : α × β × State} {t : State} {a : α} {b : β} (e : p = (a, b, t)) (h : State.Via M S p.2.2) :
    State.Via M S t := by
  rw [e] at h; exact h

theorem via2s {p : α × Run} {w : Run} {a : α} (e : p = (a, w)) (h : State.Via M S p.2.s) : State.Via M S w.s := by
  rw [e] at h; exact h

/-! ### Writes of fields -/

/-- What `State.Inv` speaks of. -/
abbrev State.core (s : State) :=
  (s.mem, s.poison, s.cnt, s.hbm.bucket, s.hbm.ctlBucket, s.hbm.poison, s.err.queue, s.jnl.aon)

theorem State.Inv.congr {s t : State} (h : s.Inv) (e : t.core = s.core) : t.Inv := by
  simp only [State.core, Prod.mk.injEq] at e
  obtain ⟨e1, e2, e3, e4, e5, e6, e7, e8⟩ := e
  exact ⟨e1 ▸ h.mem, e2 ▸ h.poison, e3 ▸ h.cnt, e4 ▸ h.bucket, e5 ▸ h.control, e6 ▸ h.table,
    e7 ▸ h.errors, e8 ▸ h.journal⟩

/-- Fields written that the invariant does not speak of. -/
theorem State.Via.of (h : ∀ f, f ∉ K.map Change.field → f.same s t) (hc : t.core = s.core)
    (hh : .host ∈ K ∨ t.heard = s.heard) (hf : .facets ∈ K ∨ t.facets = s.facets) : State.Via K s t :=
  ⟨h, fun q => q.congr hc, fun q => (State.Told.refl _ s).congr (hh.resolve_left q),
    fun q => (State.Book.refl s).congr (hf.resolve_left q)⟩

/-- Any change that keeps the invariant, host control and the Facets among what it writes. -/
theorem State.Via.whole (h : ∀ f, f ∉ K.map Change.field → f.same s t) (hi : s.Inv → t.Inv)
    (hh : .host ∈ K := by decide) (hf : .facets ∈ K := by decide) : State.Via K s t :=
  ⟨h, hi, fun q => absurd hh q, fun q => absurd hf q⟩

/-! ### One field written -/

theorem State.via_pending {x : State} (e : x = { t with pending := x.pending }) : State.Via [.pending] t x :=
  .of (fun f hf => by rw [e]; cases f <;> first | rfl | exact absurd (by decide) hf) (by rw [e]) (.inr (by rw [e])) (.inr (by rw [e]))

theorem State.via_freeCtr {x : State} (e : x = { t with freeCtr := x.freeCtr }) : State.Via [.freeCtr] t x :=
  .of (fun f hf => by rw [e]; cases f <;> first | rfl | exact absurd (by decide) hf) (by rw [e]) (.inr (by rw [e])) (.inr (by rw [e]))

theorem State.via_out {x : State} (e : x = { t with out := x.out }) : State.Via [.out] t x :=
  .of (fun f hf => by rw [e]; cases f <;> first | rfl | exact absurd (by decide) hf) (by rw [e]) (.inr (by rw [e])) (.inr (by rw [e]))

theorem State.via_upsets {x : State} (e : x = { t with upsets := x.upsets }) : State.Via [.upsets] t x :=
  .of (fun f hf => by rw [e]; cases f <;> first | rfl | exact absurd (by decide) hf) (by rw [e]) (.inr (by rw [e])) (.inr (by rw [e]))

theorem State.via_wbQueue {x : State} (e : x = { t with wbQueue := x.wbQueue }) : State.Via [.wbQueue] t x :=
  .of (fun f hf => by rw [e]; cases f <;> first | rfl | exact absurd (by decide) hf) (by rw [e]) (.inr (by rw [e])) (.inr (by rw [e]))

theorem State.via_tk {x : State} (e : x = { t with tk := x.tk }) : State.Via [.tk] t x :=
  .of (fun f hf => by rw [e]; cases f <;> first | rfl | exact absurd (by decide) hf) (by rw [e]) (.inr (by rw [e])) (.inr (by rw [e]))

theorem State.via_facets {x : State} (e : x = { t with facets := x.facets }) : State.Via [.facets] t x :=
  .of (fun f hf => by rw [e]; cases f <;> first | rfl | exact absurd (by decide) hf) (by rw [e]) (.inr (by rw [e])) (.inl (by decide))

theorem State.via_sched {x : State} (e : x = { t with sched := x.sched }) : State.Via [.sched] t x :=
  .of (fun f hf => by rw [e]; cases f <;> first | rfl | exact absurd (by decide) hf) (by rw [e]) (.inr (by rw [e])) (.inr (by rw [e]))

theorem State.via_ap {x : State} (e : x = { t with ap := x.ap }) : State.Via [.ap] t x :=
  .of (fun f hf => by rw [e]; cases f <;> first | rfl | exact absurd (by decide) hf) (by rw [e]) (.inr (by rw [e])) (.inr (by rw [e]))

theorem State.via_dma {x : State} (e : x = { t with dma := x.dma }) : State.Via [.dma] t x :=
  .of (fun f hf => by rw [e]; cases f <;> first | rfl | exact absurd (by decide) hf) (by rw [e]) (.inr (by rw [e])) (.inr (by rw [e]))

theorem State.via_tmplStatus {x : State} (e : x = { t with tmplStatus := x.tmplStatus }) : State.Via [.tmplStatus] t x :=
  .of (fun f hf => by rw [e]; cases f <;> first | rfl | exact absurd (by decide) hf) (by rw [e]) (.inr (by rw [e])) (.inr (by rw [e]))

theorem State.via_exp {x : State} (e : x = { t with exp := x.exp }) : State.Via [.exp] t x :=
  .of (fun f hf => by rw [e]; cases f <;> first | rfl | exact absurd (by decide) hf) (by rw [e]) (.inr (by rw [e])) (.inr (by rw [e]))

theorem State.via_cnd {x : State} (e : x = { t with cnd := x.cnd }) : State.Via [.cnd] t x :=
  .of (fun f hf => by rw [e]; cases f <;> first | rfl | exact absurd (by decide) hf) (by rw [e]) (.inr (by rw [e])) (.inr (by rw [e]))

theorem State.via_img {x : State} (e : x = { t with img := x.img }) : State.Via [.img] t x :=
  .of (fun f hf => by rw [e]; cases f <;> first | rfl | exact absurd (by decide) hf) (by rw [e]) (.inr (by rw [e])) (.inr (by rw [e]))

theorem State.via_wav {x : State} (e : x = { t with wav := x.wav }) : State.Via [.wav] t x :=
  .of (fun f hf => by rw [e]; cases f <;> first | rfl | exact absurd (by decide) hf) (by rw [e]) (.inr (by rw [e])) (.inr (by rw [e]))

theorem State.via_net {x : State} (e : x = { t with net := x.net }) : State.Via [.net] t x :=
  .of (fun f hf => by rw [e]; cases f <;> first | rfl | exact absurd (by decide) hf) (by rw [e]) (.inr (by rw [e])) (.inr (by rw [e]))

theorem State.via_beam {x : State} (e : x = { t with beam := x.beam }) : State.Via [.beam] t x :=
  .of (fun f hf => by rw [e]; cases f <;> first | rfl | exact absurd (by decide) hf) (by rw [e]) (.inr (by rw [e])) (.inr (by rw [e]))

theorem State.via_host {x : State} (e : x = { t with host := x.host }) : State.Via [.host] t x :=
  .of (fun f hf => by rw [e]; cases f <;> first | rfl | exact absurd (by decide) hf) (by rw [e]) (.inl (by decide)) (.inr (by rw [e]))

theorem State.via_pwr {x : State} (e : x = { t with pwr := x.pwr }) : State.Via [.pwr] t x :=
  .of (fun f hf => by rw [e]; cases f <;> first | rfl | exact absurd (by decide) hf) (by rw [e]) (.inr (by rw [e])) (.inr (by rw [e]))

theorem State.via_fuse {x : State} (e : x = { t with fuse := x.fuse }) : State.Via [.fuse] t x :=
  .of (fun f hf => by rw [e]; cases f <;> first | rfl | exact absurd (by decide) hf) (by rw [e]) (.inr (by rw [e])) (.inr (by rw [e]))

theorem State.via_trust {x : State} (e : x = { t with trust := x.trust }) : State.Via [.trust] t x :=
  .of (fun f hf => by rw [e]; cases f <;> first | rfl | exact absurd (by decide) hf) (by rw [e]) (.inr (by rw [e])) (.inr (by rw [e]))

theorem State.via_idle {x : State} (e : x = { t with idleNs := x.idleNs }) : State.Via [.idle] t x :=
  .of (fun f hf => by rw [e]; cases f <;> first | rfl | exact absurd (by decide) hf) (by rw [e]) (.inr (by rw [e])) (.inr (by rw [e]))

theorem State.via_ready {x : State} (e : x = { t with ready := x.ready }) : State.Via [.ready] t x :=
  .of (fun f hf => by rw [e]; cases f <;> first | rfl | exact absurd (by decide) hf) (by rw [e]) (.inr (by rw [e])) (.inr (by rw [e]))

theorem State.via_jnl {x : State} (e : x = { t with jnl := x.jnl }) (ha : x.jnl.aon = t.jnl.aon) :
    State.Via [.jnl] t x :=
  .of (fun f hf => by rw [e]; cases f <;> first | rfl | exact absurd (by decide) hf)
    (by rw [State.core, ha, e]) (.inr (by rw [e])) (.inr (by rw [e]))

/-! ### Parts of the state -/

theorem State.updHost_via {g : HostCtl → HostCtl} (hs : State.Via M S s) (hk : [.host] ⊆ M) :
    State.Via M S (s.updHost g) :=
  hs.upd (K := [.host]) (.of (fun f hf => by cases f <;> first | rfl | exact absurd (by decide) hf) rfl
    (.inl (by decide)) (.inr rfl)) hk

theorem State.updHost_note {g : HostCtl → HostCtl} (hs : State.Via M S s) (hk : [.note] ⊆ M)
    (hg : ∀ e, ((g e).mute, (g e).evtPut) = (e.mute, e.evtPut)) : State.Via M S (s.updHost g) :=
  hs.upd (K := [.note]) (.of (fun f hf => by cases f <;> first | rfl | exact absurd (by decide) hf) rfl
    (.inr (by
      have := hg s.host
      simp only [Prod.mk.injEq] at this
      simp [State.heard, this])) (.inr rfl)) hk

theorem State.updFacet_via {f : Fin 16} {g : Facet → Facet} (hs : State.Via M S s) (hk : [.facets] ⊆ M) :
    State.Via M S (s.updFacet f g) :=
  hs.upd (K := [.facets]) (.of (fun f hf => by cases f <;> first | rfl | exact absurd (by decide) hf) rfl
    (.inr rfl) (.inl (by decide))) hk

theorem State.updFacet_file {f : Fin 16} {g : Facet → Facet} (hs : State.Via M S s) (hk : [.file] ⊆ M)
    (hg : ∀ x, (g x).shape = x.shape) : State.Via M S (s.updFacet f g) :=
  hs.upd (K := [.file]) ⟨fun f hf => by cases f <;> first | rfl | exact absurd (by decide) hf,
    fun q => q.congr rfl, fun _ => (State.Told.refl _ s).congr rfl, fun _ => State.updFacet_book (.refl s) hg⟩ hk

theorem State.updRegion_via {f r : Fin 16} {g : RegionSt → RegionSt} (hs : State.Via M S s) (hk : [.facets] ⊆ M) :
    State.Via M S (s.updRegion f r g) := State.updFacet_via hs hk

theorem State.updRegion_file {f r : Fin 16} {g : RegionSt → RegionSt} (hs : State.Via M S s) (hk : [.file] ⊆ M)
    (hg : ∀ y, { g y with overran := false } = { y with overran := false }) : State.Via M S (s.updRegion f r g) :=
  hs.upd (K := [.file]) ⟨fun f hf => by cases f <;> first | rfl | exact absurd (by decide) hf,
    fun q => q.congr rfl, fun _ => (State.Told.refl _ s).congr rfl, fun _ => State.updRegion_book (.refl s) hg⟩ hk

theorem State.updErr_via {g : Errors → Errors} (hs : State.Via M S s) (hk : [.err] ⊆ M)
    (hg : ∀ e, (g e).queue = e.queue) : State.Via M S (s.updErr g) :=
  hs.upd (K := [.err]) (.of (fun f hf => by cases f <;> first | rfl | exact absurd (by decide) hf)
    (by simp [State.updErr, State.core, hg]) (.inr rfl) (.inr rfl)) hk

theorem State.updErr_le {g : Errors → Errors} (hs : State.Via M S s) (hk : [.err] ⊆ M)
    (hg : s.err.queue.length ≤ 255 → (g s.err).queue.length ≤ 255) : State.Via M S (s.updErr g) :=
  hs.upd (K := [.err]) ⟨fun f hf => by cases f <;> first | rfl | exact absurd (by decide) hf,
    fun h => ⟨h.mem, h.poison, h.cnt, h.bucket, h.control, h.table, hg h.errors, h.journal⟩,
    fun _ => (State.Told.refl _ s).congr rfl, fun _ => (State.Book.refl s).congr rfl⟩ hk

theorem State.updHbm_via {g : Hbm → Hbm} (hs : State.Via M S s) (hk : [.hbm] ⊆ M)
    (hg : ∀ m, ((g m).bucket, (g m).ctlBucket, (g m).poison) = (m.bucket, m.ctlBucket, m.poison)) :
    State.Via M S (s.updHbm g) :=
  hs.upd (K := [.hbm]) (.of (fun f hf => by cases f <;> first | rfl | exact absurd (by decide) hf)
    (by
      have := hg s.hbm
      simp only [Prod.mk.injEq] at this
      simp [State.updHbm, State.core, this]) (.inr rfl) (.inr rfl)) hk

theorem State.updHbm_le {g : Hbm → Hbm} (hs : State.Via M S s) (hk : [.hbm] ⊆ M)
    (hb : s.hbm.bucket ≤ 33554432 → (g s.hbm).bucket ≤ 33554432)
    (hc : s.hbm.ctlBucket ≤ 1048576 → (g s.hbm).ctlBucket ≤ 1048576)
    (hp : s.hbm.poison.length ≤ 256 → (g s.hbm).poison.length ≤ 256) : State.Via M S (s.updHbm g) :=
  hs.upd (K := [.hbm]) ⟨fun f hf => by cases f <;> first | rfl | exact absurd (by decide) hf,
    fun h => ⟨h.mem, h.poison, h.cnt, hb h.bucket, hc h.control, hp h.table, h.errors, h.journal⟩,
    fun _ => (State.Told.refl _ s).congr rfl, fun _ => (State.Book.refl s).congr rfl⟩ hk

theorem State.count_via {src i n : Nat} (hs : State.Via M S s) (hk : [.cnt] ⊆ M) :
    State.Via M S (s.count src i n) := by
  unfold State.count
  split
  · exact hs
  · exact hs.upd (K := [.cnt]) ⟨fun f hf => by cases f <;> first | rfl | exact absurd (by decide) hf,
      fun h => ⟨h.mem, h.poison, SMap.wf_bump _ _ h.cnt, h.bucket, h.control, h.table, h.errors, h.journal⟩,
      fun _ => (State.Told.refl _ s).congr rfl, fun _ => (State.Book.refl s).congr rfl⟩ hk

theorem State.setCtr_via {src i v : Nat} (hs : State.Via M S s) (hk : [.cnt] ⊆ M) :
    State.Via M S (s.setCtr src i v) :=
  hs.upd (K := [.cnt]) ⟨fun f hf => by cases f <;> first | rfl | exact absurd (by decide) hf,
    fun h => ⟨h.mem, h.poison, SMap.wf_set _ _ h.cnt, h.bucket, h.control, h.table, h.errors, h.journal⟩,
    fun _ => (State.Told.refl _ s).congr rfl, fun _ => (State.Book.refl s).congr rfl⟩ hk

/-! ### Memory -/

theorem State.writeB_via {a : Nat} {bs : List Byte} (hs : State.Via M S s) (hk : [.mem] ⊆ M) :
    State.Via M S (s.writeB a bs) :=
  hs.upd (K := [.mem]) ⟨fun f hf => by cases f <;> first | rfl | exact absurd (by decide) hf,
    fun h => ⟨SMap.wf_setRange _ _ h.mem, h.poison, h.cnt, h.bucket, h.control, h.table, h.errors, h.journal⟩,
    fun _ => State.writeB_told (.refl _ s) fun _ _ => by decide, fun _ => (State.Book.refl s).congr rfl⟩ hk

/-- Bytes of records. -/
theorem State.writeRec_via {a : Nat} {bs : List Byte} (hs : State.Via M S s) (hk : [.ring] ⊆ M)
    (hx : ∀ i, i < bs.length → s.recordByte (a + i)) : State.Via M S (s.writeB a bs) :=
  hs.upd (K := [.ring]) ⟨fun f hf => by cases f <;> first | rfl | exact absurd (by decide) hf,
    fun h => ⟨SMap.wf_setRange _ _ h.mem, h.poison, h.cnt, h.bucket, h.control, h.table, h.errors, h.journal⟩,
    fun _ => State.writeRec_told (.refl _ s) hx, fun _ => (State.Book.refl s).congr rfl⟩ hk

theorem State.writeUnits_via {a : Nat} {bs : List Byte} {bad : Bool} (hs : State.Via M S s)
    (hk : [.upsets, .mem, .poison, .wbQueue] ⊆ M) : State.Via M S (s.writeUnits a bs bad) :=
  hs.upd (K := [.upsets, .mem, .poison, .wbQueue])
    ⟨fun f hf => by cases f <;> first | rfl | exact absurd (by decide) hf,
    fun h => ⟨SMap.wf_setRange _ _ h.mem, SMap.wf_setRange _ _ h.poison, h.cnt, h.bucket, h.control, h.table,
      h.errors, h.journal⟩,
    fun _ => State.writeUnits_told (.refl _ s) fun _ _ => by decide, fun _ => (State.Book.refl s).congr rfl⟩ hk

theorem State.mark_via {a : Nat} (hs : State.Via M S s) (hk : [.poison] ⊆ M) : State.Via M S (s.mark a) :=
  hs.upd (K := [.poison]) ⟨fun f hf => by cases f <;> first | rfl | exact absurd (by decide) hf,
    fun h => ⟨h.mem, SMap.wf_set _ _ h.poison, h.cnt, h.bucket, h.control, h.table, h.errors, h.journal⟩,
    fun _ => (State.Told.refl _ s).congr rfl, fun _ => (State.Book.refl s).congr rfl⟩ hk

end Sys2Proof.Machine
end

