-- ==== Sys2Proof/Laws/ViaOps.lean ====
section
/-! SUPPORT. What each operation of named operations, the tick and the regions can change (Via.lean), one lemma an operation. -/

set_option Elab.async false

namespace Sys2Proof.Machine

variable {M : List Change} {S : State}

/-! ### Ops -/

theorem State.updChan_via {s : State} {e : Fin 5} {c : Fin 8} {g : Channel → Channel} (hs : State.Via M S s)
    (hk : [.dma] ⊆ M) : State.Via M S (State.updChan s e c g) := by
  unfold State.updChan
  extract_lets en0
  exact hs.upd (State.via_dma rfl) (sub hk)

theorem State.updSched_via {s : State} {g : Sched → Sched} (hs : State.Via M S s) (hk : [.sched] ⊆ M) :
    State.Via M S (State.updSched s g) := by
  unfold State.updSched
  exact hs.upd (State.via_sched rfl) (sub hk)

theorem State.emit_via {s : State} {o : Output} (hs : State.Via M S s) (hk : [.out] ⊆ M) :
    State.Via M S (State.emit s o) := by
  unfold State.emit
  exact hs.upd (State.via_out rfl) (sub hk)

theorem State.drawn_via {s : State} {n : Nat} (hs : State.Via M S s) (hk : [.freeCtr] ⊆ M) :
    State.Via M S (State.drawn s n) := by
  unfold State.drawn
  exact hs.upd (State.via_freeCtr rfl) (sub hk)

theorem State.egress_via {s : State} {p : EgressPath} (hs : State.Via M S s) (hk : [.cnt] ⊆ M) :
    State.Via M S (State.egress s p) := by
  unfold State.egress
  exact State.count_via hs (sub hk)

theorem State.ringWrite_via {s : State} {a : Nat} {bs : List Byte} (hs : State.Via M S s) (hk : [.mem] ⊆ M) :
    State.Via M S (State.ringWrite s a bs) := by
  unfold State.ringWrite
  split
  · exact State.writeB_via hs (sub hk)
  · exact hs

theorem State.clearUpset_via {s : State} {a : Nat} (hs : State.Via M S s) (hk : [.upsets] ⊆ M) :
    State.Via M S (State.clearUpset s a) := by
  unfold State.clearUpset
  exact hs.upd (State.via_upsets rfl) (sub hk)

theorem State.sendMsix_via {s : State} {v : Fin 16} (hs : State.Via M S s) (hk : [.out, .note] ⊆ M) :
    State.Via M S (State.sendMsix s v) := by
  unfold State.sendMsix
  extract_lets e0
  split
  · exact State.updHost_note hs (sub hk) (fun _ => rfl)
  · exact State.emit_via hs (sub hk)

theorem State.irq_via {s : State} {b : Nat} (hs : State.Via M S s) (hk : [.out, .note] ⊆ M) :
    State.Via M S (State.irq s b) := by
  unfold State.irq
  extract_lets m0 was1 s2
  have hs2 : State.Via M S s2 := by
    unfold s2
    exact State.updHost_note hs (sub hk) (fun _ => rfl)
  clear_value s2
  split
  · exact State.sendMsix_via hs2 (sub hk)
  · exact hs2

/-- A record is 64 bytes of the slot at EVT_PUT of the ring in use (12 R344). -/
theorem State.writeEvent_via {s : State} {r : EventRec} (hs : State.Via M S s)
    (hk : [.out, .ring, .cnt, .note] ⊆ M) (hn : s.evtRingSize ≠ 0) : State.Via M S (s.writeEvent r) := by
  unfold State.writeEvent
  extract_lets s1 s2 s3 s4
  have h1 : State.Via M S s1 := by
    unfold s1 State.ringWrite
    split
    · refine State.writeRec_via hs (sub hk) fun i hi => ?_
      rw [EventRec.bytes_length] at hi
      exact .inr ⟨s.host.evtPut, .inr rfl, by omega⟩
    · exact hs
  have e1 : s1.evtRingSize = s.evtRingSize := by
    unfold s1 State.ringWrite
    split <;> rfl
  have h2 : State.Via M S s2 := by
    unfold s2
    split
    · exact State.count_via h1 (sub hk)
    · exact h1
  have e2 : s2.evtRingSize = s.evtRingSize := by
    unfold s2
    split
    · rw [← e1]
      simp only [State.evtRingSize, State.egress_host]
    · exact e1
  have h3 : State.Via M S s3 := h2.upd (K := [.note])
    ⟨fun f hf => by cases f <;> first | rfl | exact absurd (by decide) hf, fun h => h.congr rfl,
      fun _ => ⟨rfl, .inr (by
        show (s2.host.evtPut + 1) % s2.evtRingSize < _
        exact Nat.mod_lt _ (by omega)), id, fun _ _ _ _ => rfl⟩, fun _ => (State.Book.refl s2).congr rfl⟩ (sub hk)
  have h4 : State.Via M S s4 := State.irq_via h3 (sub hk)
  split
  · exact State.irq_via h4 (sub hk)
  · exact h4

theorem State.evtRoom_ring {s : State} (h : s.evtRoom = true) : s.evtRingSize ≠ 0 := by
  unfold State.evtRoom at h
  extract_lets n at h
  simp only [Bool.and_eq_true, bne_iff_ne, ne_eq] at h
  exact h.1.1

theorem State.nextSeq_via {s : State} {src : Nat} (hs : State.Via M S s) (hk : [.note] ⊆ M) :
    State.Via M S (State.nextSeq s src).2 := by
  unfold State.nextSeq
  extract_lets n0
  dsimp -zeta only
  exact State.updHost_note hs (sub hk) (fun _ => rfl)

theorem State.holdEvent_via {s : State} {r : EventRec} (hs : State.Via M S s) (hk : [.out, .cnt, .note] ⊆ M) :
    State.Via M S (State.holdEvent s r) := by
  unfold State.holdEvent
  split
  · exact State.updHost_note hs (sub hk) (fun _ => rfl)
  · exact State.irq_via (State.count_via (State.updHost_note hs (sub hk) (fun _ => rfl)) (sub hk)) (sub hk)

theorem State.lostFault_via {s : State} {n : Nat} (hs : State.Via M S s) (hk : [.note] ⊆ M) :
    State.Via M S (State.lostFault s n).2 := by
  unfold State.lostFault
  split
  rename_i x0 q1 s2 heq3
  have hs2 : State.Via M S s2 := by
    exact via2 heq3 (State.nextSeq_via hs (sub hk))
  exact hs2

theorem State.putEvent_via {s : State} {r : EventRec} (hs : State.Via M S s) (hk : [.out, .ring, .cnt, .note] ⊆ M)
    (hn : s.evtRingSize ≠ 0) : State.Via M S (s.putEvent r) := by
  unfold State.putEvent
  split
  · extract_lets n s1 s2
    have h1 : State.Via M S s1 := State.updHost_note hs (sub hk) fun _ => rfl
    have h2 : State.Via M S s2 := State.writeEvent_via h1 (sub hk) hn
    have h3 : State.Via M S (s2.lostFault n).2 := State.lostFault_via h2 (sub hk)
    generalize s2.lostFault n = p at h3
    obtain ⟨fr, s3⟩ := p
    dsimp only
    split
    next hr => exact State.writeEvent_via h3 (sub hk) (State.evtRoom_ring hr)
    next => exact State.updHost_note h3 (sub hk) fun _ => rfl
  · exact State.writeEvent_via hs (sub hk) hn

/-- A record placed, held or discarded. -/
theorem State.placeRec_via {s : State} {r : EventRec} (hs : State.Via M S s) (hk : [.out, .ring, .cnt, .note] ⊆ M) :
    State.Via M S (s.placeRec r) := by
  unfold State.placeRec
  split
  next hr =>
    simp only [Bool.and_eq_true] at hr
    exact State.putEvent_via hs (sub hk) (State.evtRoom_ring hr.2)
  next => exact State.holdEvent_via hs (sub hk)

theorem State.eventAt_via {s : State} {type : Nat} {src : Nat} {time : Nat} {tick : Nat} {flags : Nat} {extra : Nat}
    {payload : List Byte} (hs : State.Via M S s) (hk : [.out, .ring, .cnt, .note] ⊆ M) :
    State.Via M S (State.eventAt s type src time tick flags extra payload) := by
  unfold State.eventAt
  split
  rename_i x0 q1 s2 heq3
  have hs2 : State.Via M S s2 := by
    exact via2 heq3 (State.nextSeq_via hs (sub hk))
  exact State.placeRec_via hs2 (sub hk)

theorem State.event_via {s : State} {type : Nat} {src : Nat} {flags : Nat} {payload : List Byte} (hs : State.Via M S
      s)
    (hk : [.out, .ring, .cnt, .note] ⊆ M) : State.Via M S (State.event s type src flags payload) := by
  unfold State.event
  exact State.eventAt_via hs (sub hk)

theorem State.flushHeldN_via {n : Nat} {s : State} (hs : State.Via M S s) (hk : [.out, .ring, .cnt, .note] ⊆ M) :
    State.Via M S (State.flushHeldN n s) := by
  induction n generalizing s with
  | zero => exact hs
  | succ n ih =>
    unfold State.flushHeldN
    split
    · exact hs
    · split
      next hr =>
        exact ih (State.putEvent_via (State.updHost_note hs (sub hk) fun _ => rfl) (sub hk) (State.evtRoom_ring hr))
      next => exact hs

theorem State.flushHeld_via {s : State} (hs : State.Via M S s) (hk : [.out, .ring, .cnt, .note] ⊆ M) :
    State.Via M S (State.flushHeld s) := by
  unfold State.flushHeld
  exact State.flushHeldN_via hs (sub hk)

theorem State.fault_via {s : State} {status : Nat} {src : Nat} {region : Nat} {block : Nat} {addr : Nat} {detail :
      List Byte}
    (hs : State.Via M S s) (hk : [.out, .ring, .cnt, .note] ⊆ M) :
    State.Via M S (State.fault s status src region block addr detail) := by
  unfold State.fault
  exact State.event_via hs (sub hk)

theorem State.faults_via {s : State} {n : Nat} {status : Nat} {src : Nat} {region : Nat} {block : Nat} (hs : State.Via
      M S s)
    (hk : [.out, .ring, .cnt, .note] ⊆ M) : State.Via M S (State.faults s n status src region block) := by
  unfold State.faults
  exact foldl_via hs (fun u0 u1 hu2 => State.fault_via hu2 (sub hk))

theorem State.tickFaultK_via {s : State} {status : Nat} {src : Nat} {key : Nat} {region : Nat} {block : Nat} {addr :
      Nat} {n : Nat}
    {detail : List Byte} (hs : State.Via M S s) (hk : [.note] ⊆ M) :
    State.Via M S (State.tickFaultK s status src key region block addr n detail) := by
  unfold State.tickFaultK
  extract_lets hit0
  split
  · exact State.updHost_note hs (sub hk) (fun _ => rfl)
  · exact State.updHost_note hs (sub hk) (fun _ => rfl)

theorem State.tickFault_via {s : State} {status : Nat} {src : Nat} {region : Nat} {block : Nat} {addr : Nat}
    (hs : State.Via M S s) (hk : [.note] ⊆ M) : State.Via M S (State.tickFault s status src region block addr) := by
  unfold State.tickFault
  exact State.tickFaultK_via hs (sub hk)

theorem State.flushFaults_via {s : State} (hs : State.Via M S s) (hk : [.out, .ring, .cnt, .note] ⊆ M) :
    State.Via M S (State.flushFaults s) := by
  unfold State.flushFaults
  extract_lets accs0
  exact foldl_via (State.updHost_note hs (sub hk) (fun _ => rfl)) (fun u1 u2 hu3 => State.eventAt_via hu3 (sub hk))

/-- An error record leaves at most 255 of them (16 R451). -/
theorem State.errorRecN_via {s : State} {status region block addr level action n : Nat} {detail : List Byte}
    (hs : State.Via M S s) (hk : [.cnt, .err] ⊆ M) :
    State.Via M S (s.errorRecN status region block addr level action n detail) := by
  unfold State.errorRecN
  split
  · exact hs
  split
  · exact State.updErr_le hs (sub hk) (by simp)
  · extract_lets s1
    have h1 : State.Via M S s1 := State.updErr_via hs (sub hk) fun _ => rfl
    clear_value s1
    split
    next hl => exact State.updErr_le h1 (sub hk) fun _ => by simpa using hl
    next => exact State.count_via h1 (sub hk)

theorem State.errorRec_via {s : State} {status : Nat} {region : Nat} {block : Nat} {addr : Nat} {level : Nat} {action
      : Nat}
    {detail : List Byte} (hs : State.Via M S s) (hk : [.cnt, .err] ⊆ M) :
    State.Via M S (State.errorRec s status region block addr level action detail) := by
  unfold State.errorRec
  exact State.errorRecN_via hs (sub hk)

/-- A journal entry is 64 bytes of the journal ring, and the always-on store keeps the last 32 (12 R354, R356). -/
theorem State.journal_via {s : State} {seq opcode result path : Nat} {digest : List Byte} (hs : State.Via M S s)
    (hk : [.ring, .jnl] ⊆ M) : State.Via M S (s.journal seq opcode result path digest) :=
  hs.upd (K := [.ring, .jnl]) ⟨fun f hf => by cases f <;> first | rfl | exact absurd (by decide) hf,
    fun h => ⟨SMap.wf_setRange _ _ h.mem, h.poison, h.cnt, h.bucket, h.control, h.table, h.errors, by
      simp only [State.journal, List.length_take]; omega⟩,
    fun _ => State.Told.congr (s := s.writeB (journalBase + s.jnl.head % 16384 * 64) _)
      (State.writeRec_told (.refl _ s) fun i hi => by
        simp only [List.length_append, leBytes_length, fitBytes_length, zeroBytes_length, List.length_take] at hi
        left
        omega) rfl,
    fun _ => (State.Book.refl s).congr rfl⟩ hk

theorem State.journalDev_via {s : State} {opcode : Nat} {result : Nat} {digest : List Byte} (hs : State.Via M S s)
    (hk : [.ring, .jnl] ⊆ M) : State.Via M S (State.journalDev s opcode result digest) := by
  unfold State.journalDev
  exact State.journal_via hs (sub hk)

theorem State.cmdDone_via {s : State} {seq : Nat} {opcode : Nat} {status : Nat} {index : Nat} {result : List Byte}
    (hs : State.Via M S s) (hk : [.out, .ring, .cnt, .note] ⊆ M) :
    State.Via M S (State.cmdDone s seq opcode status index result) := by
  unfold State.cmdDone
  exact State.event_via hs (sub hk)

theorem State.complete_via {s : State} {a : Accepted} {status : Nat} {result : List Byte} {extra : List Byte}
    (hs : State.Via M S s) (hk : [.out, .ring, .cnt, .note, .jnl] ⊆ M) :
    State.Via M S (State.complete s a status result extra) := by
  unfold State.complete
  extract_lets idx0 s1
  have hs1 : State.Via M S s1 := by
    unfold s1
    exact State.journal_via hs (sub hk)
  clear_value s1
  exact State.cmdDone_via hs1 (sub hk)

theorem State.bgEnd_via {s : State} {a : Accepted} (hs : State.Via M S s) (hk : [.host] ⊆ M) :
    State.Via M S (State.bgEnd s a) := by
  unfold State.bgEnd
  exact State.updHost_via hs (sub hk)

theorem State.setReady_via {s : State} {b : Nat} {v : Bool} (hs : State.Via M S s) (hk : [.ready] ⊆ M) :
    State.Via M S (State.setReady s b v) := by
  unfold State.setReady
  exact hs.upd (State.via_ready rfl) (sub hk)

theorem State.countWait_via {s : State} {cyc : Nat} (hs : State.Via M S s) (hk : [.cnt] ⊆ M) :
    State.Via M S (State.countWait s cyc) := by
  unfold State.countWait
  split
  · exact hs
  · apply foldl_via
    · exact State.count_via hs (sub hk)
    · intro u0 u1 hu2
      beta_reduce
      split
      · exact State.count_via hu2 (sub hk)
      · exact hu2

theorem State.idleReset_via {s : State} (hs : State.Via M S s) (hk : [.idle] ⊆ M) :
    State.Via M S (State.idleReset s) := by
  unfold State.idleReset
  exact hs.upd (State.via_idle rfl) (sub hk)

theorem State.noteIdle_via {s : State} (hs : State.Via M S s) (hk : [.idle] ⊆ M) :
    State.Via M S (State.noteIdle s) := by
  unfold State.noteIdle
  split
  · exact hs
  · exact State.idleReset_via hs (sub hk)

theorem State.countIdle_via {s : State} {cyc : Nat} (hs : State.Via M S s) (hk : [.cnt] ⊆ M) :
    State.Via M S (State.countIdle s cyc) := by
  unfold State.countIdle
  extract_lets s0
  have hs0 : State.Via M S s0 := by
    unfold s0
    apply foldl_via
    · exact hs
    · intro u1 u2 hu3
      beta_reduce
      split
      · exact State.count_via hu3 (sub hk)
      · exact hu3
  clear_value s0
  apply foldl_via
  · exact hs0
  · intro u4 u5 hu6
    beta_reduce
    split
    · exact State.count_via hu6 (sub hk)
    · exact hu6

/-- The buckets are credited up to their depths (06 R164, R166). -/
theorem State.creditBucket_via {s : State} (hs : State.Via M S s) (hk : [.cnt, .hbm] ⊆ M) :
    State.Via M S s.creditBucket := by
  unfold State.creditBucket
  extract_lets cyc
  have h1 : State.Via M S ((s.countWait cyc).countIdle cyc) :=
    State.countIdle_via (State.countWait_via hs (sub hk)) (sub hk)
  generalize (s.countWait cyc).countIdle cyc = t at h1
  refine State.updHbm_le h1 (sub hk) (fun _ => ?_) (fun _ => ?_) ?_
  · show min 33554432 _ ≤ 33554432
    exact Nat.min_le_left _ _
  · show min 1048576 _ ≤ 1048576
    exact Nat.min_le_left _ _
  · exact id

theorem State.setTime_via {s : State} {t0 : Nat} (hs : State.Via M S s) (hk : [.cnt, .tk, .hbm, .idle] ⊆ M) :
    State.Via M S (State.setTime s t0) := by
  unfold State.setTime
  extract_lets t0 src1 s2
  have hs2 : State.Via M S s2 := by
    unfold s2
    exact hs.upd (State.via_tk rfl) (sub hk)
  clear_value s2
  split
  · exact State.creditBucket_via ((hs.upd (State.via_tk (x := { s with tk := { s.tk with now := t0 } }) rfl) (sub hk)).upd
      (State.via_idle rfl) (sub hk)) (sub hk)
  · exact State.updHbm_via hs2 (sub hk) (fun _ => rfl)

/-! ### Idle -/

theorem State.idleStep_via {s : State} (hs : State.Via M S s) (hk : [.cnt, .tk, .hbm, .idle] ⊆ M) :
    State.Via M S (State.idleStep s) := by
  unfold State.idleStep
  extract_lets d0 q1 s2 src3
  have hs2 : State.Via M S s2 := by
    unfold s2
    exact State.setTime_via hs (sub hk)
  clear_value s2
  exact hs2.upd (State.via_tk rfl) (sub hk)

/-! ### Regions -/

theorem State.highWater_via {s : State} {f : Fin 16} {r : Fin 16} (hs : State.Via M S s) (hk : [.cnt] ⊆ M) :
    State.Via M S (State.highWater s f r) := by
  unfold State.highWater
  extract_lets x0 v1
  split
  · exact State.setCtr_via hs (sub hk)
  · exact hs

theorem State.regionTo_via {s : State} {f : Fin 16} {r : Fin 16} {x : RegionSt × Nat} (hs : State.Via M S s)
    (hk : [.cnt, .facets] ⊆ M) : State.Via M S (State.regionTo s f r x) := by
  unfold State.regionTo
  exact State.highWater_via (State.count_via (State.updRegion_via hs (sub hk)) (sub hk)) (sub hk)

theorem State.regionCommit_via {s : State} {f : Fin 16} {r : Fin 16} {tag : Nat} {units : Nat} (hs : State.Via M S s)
    (hk : [.cnt, .facets] ⊆ M) : State.Via M S (State.regionCommit s f r tag units) := by
  unfold State.regionCommit
  extract_lets x0
  split
  · exact State.regionTo_via hs (sub hk)
  · exact State.count_via hs (sub hk)

theorem State.regionRelease_via {s : State} {f : Fin 16} {r : Fin 16} {tag : Nat} (hs : State.Via M S s)
    (hk : [.cnt, .facets] ⊆ M) : State.Via M S (State.regionRelease s f r tag) := by
  unfold State.regionRelease
  exact State.regionTo_via hs (sub hk)

theorem State.facetReport_via {s : State} {f : Fin 16} {status addr action : Nat} (hs : State.Via M S s)
    (hk : [.cnt, .note, .err] ⊆ M) : State.Via M S (State.facetReport s f status addr action) := by
  unfold State.facetReport
  exact State.tickFault_via (State.errorRec_via hs (sub hk)) (sub hk)

theorem State.facetError_via {s : State} {f : Fin 16} {status : Nat} {addr : Nat} (hs : State.Via M S s)
    (hk : [.cnt, .note, .err] ⊆ M) : State.Via M S (State.facetError s f status addr) :=
  State.facetReport_via hs hk

theorem State.regionOverrun_via {s : State} {f : Fin 16} {r : Fin 16} (hs : State.Via M S s) (hk : [.cnt] ⊆ M) :
    State.Via M S (State.regionOverrun s f r) := by
  unfold State.regionOverrun
  exact State.count_via hs (sub hk)

theorem State.yields_via {s : State} {f : Fin 16} (hs : State.Via M S s) (hk : [.freeCtr, .cnt] ⊆ M) :
    State.Via M S (State.yields s f) := by
  unfold State.yields
  exact State.drawn_via (State.count_via hs (sub hk)) (sub hk)

theorem State.yieldsAt_via {s : State} {a : Nat} (hs : State.Via M S s) (hk : [.freeCtr, .cnt] ⊆ M) :
    State.Via M S (State.yieldsAt s a) := by
  unfold State.yieldsAt
  split
  · exact State.yields_via hs (sub hk)
  · exact hs

theorem State.publishPushes_via {s : State} {p : Fin 16} {g : Fin 16} {r : Fin 16} (hs : State.Via M S s)
    (hk : [.cnt, .facets] ⊆ M) : State.Via M S (State.publishPushes s p g r) := by
  unfold State.publishPushes
  extract_lets x0 y1
  split
  · split
    · exact State.updRegion_via hs (sub hk)
    · split
      · exact hs
      · exact State.regionTo_via hs (sub hk)
  · exact hs

theorem State.publishAll_via {s : State} {p : Fin 16} (hs : State.Via M S s) (hk : [.cnt, .facets] ⊆ M) :
    State.Via M S (State.publishAll s p) := by
  unfold State.publishAll
  exact foldl_via hs (fun u0 u1 hu2 => foldl_via hu2 (fun u3 u4 hu5 => State.publishPushes_via hu5 (sub hk)))

theorem State.emptyRegions_via {s : State} {f : Fin 16} (hs : State.Via M S s) (hk : [.cnt, .facets] ⊆ M) :
    State.Via M S (State.emptyRegions s f) := by
  unfold State.emptyRegions
  extract_lets s0
  have hs0 : State.Via M S s0 := by
    unfold s0
    exact State.updFacet_via hs (sub hk)
  clear_value s0
  exact foldl_via hs0 (fun u1 u2 hu3 => State.setCtr_via hu3 (sub hk))

end Sys2Proof.Machine
end

