-- ==== Sys2Proof/Laws/ViaMove.lean ====
section
/-! SUPPORT. What each operation of operands, egress, moves of bytes and ticks can change (Via.lean), one lemma an operation. -/

set_option Elab.async false

namespace Sys2Proof.Machine

variable {M : List Change} {S : State}

/-! ### Operands -/

theorem State.readUnit_via {s : State} {g : Fin 16} {u : Nat} (hs : State.Via M S s)
    (hk : [.upsets, .poison, .wbQueue, .cnt, .note, .err] ⊆ M) : State.Via M S (State.readUnit s g u).2.2 := by
  unfold State.readUnit
  extract_lets a0 s1 s2
  have hs1 : State.Via M S s1 := by
    unfold s1
    exact State.facetError_via (State.count_via (State.clearUpset_via hs (sub hk)) (sub hk)) (sub hk)
  clear_value s1
  have hs2 : State.Via M S s2 := by
    unfold s2
    exact State.count_via hs (sub hk)
  clear_value s2
  split
  · dsimp -zeta only
    exact State.count_via hs (sub hk)
  · split
    · exact hs
    · dsimp -zeta only
      exact State.mark_via hs1 (sub hk)
    · dsimp -zeta only
      split
      · exact hs2
      · split
        · exact hs2.upd (State.via_wbQueue rfl) (sub hk)
        · exact State.count_via hs2 (sub hk)

theorem Run.s_via {self : Run} (hs : State.Via M S self.s) : State.Via M S (Run.s self) := by
  unfold Run.s
  exact hs

theorem Run.readAt_via {w : Run} {x : Ctx} {g : Fin 16} {u : Nat} (hs : State.Via M S w.s)
    (hk : [.upsets, .poison, .wbQueue, .cnt, .note, .err] ⊆ M) : State.Via M S (Run.readAt w x g u).2.s := by
  unfold Run.readAt
  split
  · exact hs
  · split
    rename_i x0 bs1 p2 s3 heq4
    have hs3 : State.Via M S s3 := by
      exact via3 heq4 (State.readUnit_via hs (sub hk))
    exact hs3

theorem Run.readEach_via {w : Run} {x : Ctx} {g : Fin 16} {f : Nat → Nat} {a : Nat} {a1 : Nat} (hs : State.Via M S
      w.s)
    (hk : [.upsets, .poison, .wbQueue, .cnt, .note, .err] ⊆ M) : State.Via M S (Run.readEach w x g f a a1).2.s := by
  fun_induction Run.readEach w x g f a a1
  · rename_i w0 x1
    exact hs
  · rename_i w2 n3 i4 bs5 w6 x7 bs8 w9 x10 ih11
    have hw6 : State.Via M S w6.s := by
      exact via2s x7 (Run.readAt_via hs (sub hk))
    have hw9 : State.Via M S w9.s := by
      exact via2s x10 (ih11 hw6)
    exact hw9

theorem Run.readCirc_via {w : Run} {x : Ctx} {r : Fin 16} {o : Nat} (hs : State.Via M S w.s)
    (hk : [.upsets, .poison, .wbQueue, .cnt, .note, .err] ⊆ M) : State.Via M S (Run.readCirc w x r o).2.s := by
  unfold Run.readCirc
  extract_lets g0 o1 u2
  split
  · exact hs
  · split
    rename_i x3 bs4 w5 heq6
    have hw5 : State.Via M S w5.s := by
      exact via2s heq6 (Run.readAt_via hs (sub hk))
    split <;> exact hw5

theorem Run.readCircs_via {w : Run} {x : Ctx} {r : Fin 16} {a : Nat} {a1 : Nat} (hs : State.Via M S w.s)
    (hk : [.upsets, .poison, .wbQueue, .cnt, .note, .err] ⊆ M) : State.Via M S (Run.readCircs w x r a a1).2.s := by
  fun_induction Run.readCircs w x r a a1
  · rename_i w0 x1
    exact hs
  · rename_i w2 n3 i4 bs5 w6 x7 bs8 w9 x10 ih11
    have hw6 : State.Via M S w6.s := by
      exact via2s x7 (Run.readCirc_via hs (sub hk))
    have hw9 : State.Via M S w9.s := by
      exact via2s x10 (ih11 hw6)
    exact hw9

theorem Run.read_via {w : Run} {x : Ctx} {ref : Ref} {off : Nat} {n : Nat} (hs : State.Via M S w.s)
    (hk : [.upsets, .poison, .wbQueue, .cnt, .note, .err] ⊆ M) : State.Via M S (Run.read w x ref off n).2.s := by
  unfold Run.read
  split
  · exact Run.readCircs_via hs (sub hk)
  · extract_lets g0 a1
    split
    · exact hs
    · exact Run.readEach_via hs (sub hk)

theorem Run.readRows_via {w : Run} {x : Ctx} {ref : Ref} {stride : Nat} {n : Nat} {a : Nat} {a1 : Nat}
    (hs : State.Via M S w.s) (hk : [.upsets, .poison, .wbQueue, .cnt, .note, .err] ⊆ M) :
    State.Via M S (Run.readRows w x ref stride n a a1).2.s := by
  fun_induction Run.readRows w x ref stride n a a1
  · rename_i w0 x1
    exact hs
  · rename_i w2 n3 i4 bs5 w6 x7 bs8 w9 x10 ih11
    have hw6 : State.Via M S w6.s := by
      exact via2s x7 (Run.read_via hs (sub hk))
    have hw9 : State.Via M S w9.s := by
      exact via2s x10 (ih11 hw6)
    exact hw9

theorem Run.writeAt_via {w : Run} {x : Ctx} {g : Fin 16} {u : Nat} {bs : List Byte} {bad : Bool}
    (hs : State.Via M S w.s) (hk : [.upsets, .mem, .poison, .wbQueue] ⊆ M) :
    State.Via M S (Run.writeAt w x g u bs bad).s := by
  unfold Run.writeAt
  extract_lets a0
  split
  · dsimp -zeta only
    exact State.mark_via hs (sub hk)
  · dsimp -zeta only
    exact State.writeUnits_via hs (sub hk)

theorem Run.writeCirc_via {w : Run} {x : Ctx} {g : Fin 16} {r : Fin 16} {o : Nat} {bs : List Byte} {bad : Bool}
    (hs : State.Via M S w.s) (hk : [.upsets, .mem, .poison, .wbQueue, .cnt, .file, .note, .err] ⊆ M) :
    State.Via M S (Run.writeCirc w x g r o bs bad).s := by
  unfold Run.writeCirc
  split
  · extract_lets s0 s1
    have hs0 : State.Via M S s0 := by
      unfold s0
      exact State.count_via (State.updRegion_file hs (sub hk) (fun _ => rfl)) (sub hk)
    clear_value s0
    have hs1 : State.Via M S s1 := by
      unfold s1
      exact State.updFacet_file (State.facetError_via hs0 (sub hk)) (sub hk) (fun _ => rfl)
    clear_value s1
    exact hs1
  · exact Run.writeAt_via hs (sub hk)

theorem Run.writeEach_via {w : Run} {x : Ctx} {ref : Ref} {bad : Bool} {a : Nat} {a1 : Nat} {a11 : List Byte}
    (hs : State.Via M S w.s) (hk : [.upsets, .mem, .poison, .wbQueue, .cnt, .file, .note, .err] ⊆ M) :
    State.Via M S (Run.writeEach w x ref bad a a1 a11).s := by
  fun_induction Run.writeEach w x ref bad a a1 a11
  · rename_i w0 x1 x2
    exact hs
  · rename_i w3 n4 off5 bs6 g7 w8 ih9
    have hw8 : State.Via M S w8.s := by
      unfold w8
      split
      · exact Run.writeCirc_via hs (sub hk)
      · exact Run.writeAt_via hs (sub hk)
    clear_value w8
    exact ih9 hw8

theorem Run.writeBad_via {w : Run} {x : Ctx} {ref : Ref} {off : Nat} {bs : List Byte} {bad : Bool}
    (hs : State.Via M S w.s) (hk : [.upsets, .mem, .poison, .wbQueue, .cnt, .file, .note, .err] ⊆ M) :
    State.Via M S (Run.writeBad w x ref off bs bad).s := by
  unfold Run.writeBad
  extract_lets bs0 bad1
  split
  · dsimp -zeta only
    exact State.writeUnits_via hs (sub hk)
  · exact Run.writeEach_via hs (sub hk)

theorem Run.write_via {w : Run} {x : Ctx} {ref : Ref} {off : Nat} {bs : List Byte} (hs : State.Via M S w.s)
    (hk : [.upsets, .mem, .poison, .wbQueue, .cnt, .file, .note, .err] ⊆ M) :
    State.Via M S (Run.write w x ref off bs).s := by
  unfold Run.write
  exact Run.writeBad_via hs (sub hk)

theorem Run.writeRows_via {w : Run} {x : Ctx} {ref : Ref} {stride : Nat} {a : Nat} {a1 : List (List Byte)}
    (hs : State.Via M S w.s) (hk : [.upsets, .mem, .poison, .wbQueue, .cnt, .file, .note, .err] ⊆ M) :
    State.Via M S (Run.writeRows w x ref stride a a1).s := by
  fun_induction Run.writeRows w x ref stride a a1
  · rename_i w0 x1
    exact hs
  · rename_i w2 off3 r4 rs5 ih6
    exact ih6 (Run.write_via hs (sub hk))

theorem State.chargeMeet_via {s : State} {f : Fin 16} {m : Meet} (hs : State.Via M S s)
    (hk : [.cnt, .file, .note, .err] ⊆ M) : State.Via M S (State.chargeMeet s f m) := by
  unfold State.chargeMeet
  extract_lets s0 s1
  have hs0 : State.Via M S s0 := by
    unfold s0
    split
    · exact State.updFacet_file (State.facetError_via (State.count_via hs (sub hk)) (sub hk)) (sub hk) (fun _ => rfl)
    · exact hs
  clear_value s0
  have hs1 : State.Via M S s1 := by
    unfold s1
    exact State.count_via hs0 (sub hk)
  clear_value s1
  split
  · split
    · exact State.updFacet_file (State.facetError_via (State.count_via hs1 (sub hk)) (sub hk)) (sub hk) (fun _ => rfl)
    · exact hs1
  · exact hs0

theorem Run.chargeUnder_via {w : Run} {x : Ctx} (hs : State.Via M S w.s) (hk : [.cnt, .note, .err] ⊆ M) :
    State.Via M S (Run.chargeUnder w x).s := by
  unfold Run.chargeUnder
  dsimp -zeta only
  exact foldl_via hs (fun u0 u1 hu2 => State.facetError_via (State.count_via hu2 (sub hk)) (sub hk))

theorem Run.settleReads_via {w : Run} {x : Ctx} (hs : State.Via M S w.s) (hk : [.cnt, .file, .note, .err] ⊆ M) :
    State.Via M S (Run.settleReads w x).s := by
  unfold Run.settleReads
  extract_lets w0
  have hw0 : State.Via M S w0.s := by
    unfold w0
    exact Run.chargeUnder_via hs (sub hk)
  clear_value w0
  split
  · dsimp -zeta only
    exact State.updFacet_file hw0 (sub hk) (fun _ => rfl)
  · exact hw0

theorem State.endRecord_via {s : State} {f : Fin 16} {r : Rec} {cycles : Nat} {array : Bool} (hs : State.Via M S s)
    (hk : [.facets] ⊆ M) : State.Via M S (State.endRecord s f r cycles array) := by
  unfold State.endRecord
  exact State.updFacet_via hs (sub hk)

theorem State.runRecord_via {s : State} {f : Fin 16} {op : Nat} {ms : List Meet} {array : Bool}
    {cycles : Rec → Bool → Nat} {body : Ctx → Rec → Run → Run} (hs : State.Via M S s)
    (hbody : ∀ v0 v1 v2, State.Via M S v2.s → State.Via M S (body v0 v1 v2).s)
    (hk : [.freeCtr, .cnt, .facets, .file, .note, .err] ⊆ M) :
    State.Via M S (State.runRecord s f op ms array cycles body) := by
  unfold State.runRecord
  split
  · exact hs
  · extract_lets n0 s1 w2
    have hs1 : State.Via M S s1 := by
      unfold s1
      exact foldl_via hs (fun u3 u4 hu5 => State.chargeMeet_via hu5 (sub hk))
    clear_value s1
    have hw2 : State.Via M S w2.s := by
      unfold w2
      apply hbody
      exact hs1
    clear_value w2
    exact State.drawn_via (State.endRecord_via hw2 (sub hk)) (sub hk)

/-! ### Egress -/

theorem State.judged_via {s : State} {p : EgressPath} {ok : Bool} (hs : State.Via M S s) (hk : [.cnt, .note] ⊆ M) :
    State.Via M S (State.judged s p ok) := by
  unfold State.judged
  split
  · exact State.count_via hs (sub hk)
  · exact State.tickFaultK_via (State.count_via hs (sub hk)) (sub hk)

theorem State.judgeTransfer_via {s : State} {p : EgressPath} {a n m : Nat} (hs : State.Via M S s)
    (hk : [.cnt, .note] ⊆ M) : State.Via M S (State.judgeTransfer s p a n m).2 := by
  unfold State.judgeTransfer
  extract_lets ok0
  dsimp -zeta only
  exact State.judged_via hs (sub hk)

theorem State.countCrop_via {s : State} {payload : List Byte} (hs : State.Via M S s) (hk : [.ap] ⊆ M) :
    State.Via M S (State.countCrop s payload) := by
  unfold State.countCrop
  exact hs.upd (State.via_ap rfl) (sub hk)

/-! ### Moving -/

theorem State.readGranule_via {s : State} {a : Nat} (hs : State.Via M S s) (hk : [.cnt, .hbm, .note, .err] ⊆ M) :
    State.Via M S (State.readGranule s a).2.2 := by
  unfold State.readGranule
  extract_lets c0 s1
  have hs1 : State.Via M S s1 := by
    unfold s1
    exact State.errorRec_via (State.count_via hs (sub hk)) (sub hk)
  clear_value s1
  split
  · dsimp -zeta only
    exact State.count_via hs (sub hk)
  · split
    · exact hs
    · dsimp -zeta only
      exact State.count_via hs (sub hk)
    · dsimp -zeta only
      exact State.updHbm_via (State.count_via hs (sub hk)) (sub hk) (fun _ => rfl)
    · dsimp -zeta only
      exact State.tickFaultK_via hs1 (sub hk)

theorem State.wakeRange_via {s : State} {a : Nat} {n : Nat} (hs : State.Via M S s) (hk : [.hbm] ⊆ M) :
    State.Via M S (State.wakeRange s a n) := by
  unfold State.wakeRange
  extract_lets first0 pages1
  exact State.updHbm_via hs (sub hk) (fun _ => rfl)

theorem State.updImg_via {s : State} {g : Img → Img} (hs : State.Via M S s) (hk : [.img] ⊆ M) :
    State.Via M S (State.updImg s g) := by
  unfold State.updImg
  exact hs.upd (State.via_img rfl) (sub hk)

theorem State.updStream_via {s : State} {i : Fin 5} {g : StreamSt → StreamSt} (hs : State.Via M S s)
    (hk : [.img] ⊆ M) : State.Via M S (State.updStream s i g) := by
  unfold State.updStream
  exact State.updImg_via hs (sub hk)

theorem State.poisonedGroup_via {s : State} {i : Fin 5} (hs : State.Via M S s)
    (hk : [.out, .ring, .cnt, .img, .note] ⊆ M) : State.Via M S (State.poisonedGroup s i) := by
  unfold State.poisonedGroup
  extract_lets was0 s1
  have hs1 : State.Via M S s1 := by
    unfold s1
    exact State.count_via (State.updStream_via hs (sub hk)) (sub hk)
  clear_value s1
  split
  · exact hs1
  · exact State.fault_via hs1 (sub hk)

theorem State.lineParity_via {s : State} {a : Nat} (hs : State.Via M S s)
    (hk : [.out, .upsets, .mem, .ring, .poison, .wbQueue, .cnt, .img, .note] ⊆ M) :
    State.Via M S (State.lineParity s a) := by
  unfold State.lineParity
  split
  · exact State.poisonedGroup_via (State.writeUnits_via hs (sub hk)) (sub hk)
  · exact State.writeUnits_via hs (sub hk)

theorem State.sramError_via {s : State} {a : Nat} (hs : State.Via M S s) (hk : [.cnt, .err] ⊆ M) :
    State.Via M S (State.sramError s a) := by
  unfold State.sramError
  exact State.errorRec_via hs (sub hk)

theorem State.readPiece_via {s : State} {a : Nat} (hs : State.Via M S s)
    (hk : [.out, .upsets, .mem, .ring, .poison, .wbQueue, .cnt, .hbm, .img, .note, .err] ⊆ M) :
    State.Via M S (State.readPiece s a).2.2 := by
  unfold State.readPiece
  split
  · exact State.readGranule_via hs (sub hk)
  · exact State.readUnit_via hs (sub hk)
  · split
    · exact hs
    · split
      · dsimp -zeta only
        exact State.lineParity_via hs (sub hk)
      · exact hs
  · split
    · dsimp -zeta only
      exact State.sramError_via hs (sub hk)
    · split
      · exact hs
      · split
        · exact hs
        · split <;> exact hs
  · split
    · dsimp -zeta only
      exact State.sramError_via hs (sub hk)
    · split
      · exact hs
      · split
        · exact hs
        · split <;> exact hs
  · split
    · dsimp -zeta only
      exact State.sramError_via hs (sub hk)
    · split
      · exact hs
      · split
        · exact hs
        · split <;> exact hs
  · split
    · dsimp -zeta only
      exact State.sramError_via hs (sub hk)
    · split
      · exact hs
      · split
        · exact hs
        · split <;> exact hs
  · exact hs

theorem State.readPieces_via {s : State} {a : Nat} {a1 : Nat} (hs : State.Via M S s)
    (hk : [.out, .upsets, .mem, .ring, .poison, .wbQueue, .cnt, .hbm, .img, .note, .err] ⊆ M) :
    State.Via M S (State.readPieces s a a1).2.2 := by
  fun_induction State.readPieces s a a1
  · rename_i s0 a1
    exact hs
  · rename_i s2 a3 n4 bs5 bad6 s7 x8 rest9 bads10 s11 x12 ih13
    have hs7 : State.Via M S s7 := by
      exact via3 x8 (State.readPiece_via hs (sub hk))
    have hs11 : State.Via M S s11 := by
      exact via3 x12 (ih13 hs7)
    exact hs11

theorem State.readDev_via {s : State} {a : Nat} {n : Nat} (hs : State.Via M S s)
    (hk : [.freeCtr, .out, .upsets, .mem, .ring, .poison, .wbQueue, .cnt, .hbm, .img, .note, .err] ⊆ M) :
    State.Via M S (State.readDev s a n).2.2 := by
  unfold State.readDev
  extract_lets s0
  have hs0 : State.Via M S s0 := by
    unfold s0
    split
    · exact State.wakeRange_via hs (sub hk)
    · exact hs
  clear_value s0
  split
  · exact hs0
  · split
    rename_i x1 rest2 bads3 s4 heq5
    have hs4 : State.Via M S s4 := by
      exact via3 heq5 (State.readPieces_via hs0 (sub hk))
    dsimp -zeta only
    exact State.drawn_via hs4 (sub hk)

theorem State.countPages_via {s : State} {base : Nat → Nat} {a : Nat} {n : Nat} (hs : State.Via M S s) (hk : [.cnt] ⊆
      M) :
    State.Via M S (State.countPages s base a n) := by
  unfold State.countPages
  apply foldl_via
  · exact hs
  · intro u0 u1 hu2
    beta_reduce
    extract_lets p3 lo4 hi5
    exact State.count_via hu2 (sub hk)

/-- The poison table holds at most 256 granules (06 R168). -/
theorem State.writeGranule_via {s : State} {a : Nat} {bs : List Byte} {bad : Bool} (hs : State.Via M S s)
    (hk : [.upsets, .mem, .cnt, .hbm] ⊆ M) : State.Via M S (s.writeGranule a bs bad).1 := by
  have h1 : State.Via M S (s.clearUpset a) := State.clearUpset_via hs (sub hk)
  unfold State.writeGranule
  extract_lets s1 listed
  have h2 : State.Via M S (s1.writeB a bs) := State.writeB_via h1 (sub hk)
  split
  · split
    · exact h2
    · split
      next hl =>
        dsimp -zeta only
        refine State.updHbm_le h2 (sub hk) id id fun _ => ?_
        show (s1.hbm.poison ++ [a / 32]).length ≤ 256
        rw [List.length_append]
        exact hl
      next =>
        dsimp -zeta only
        exact State.count_via (State.writeB_via h1 (sub hk)) (sub hk)
  · dsimp -zeta only
    refine State.updHbm_le h2 (sub hk) ?_ ?_ ?_
    · split <;> exact id
    · split <;> exact id
    · split
      · exact fun h => Nat.le_trans (List.length_filter_le _ _) h
      · exact id

theorem State.writeGranules_via {s : State} {a : Nat} {bads : List Nat} {a1 : List (List Byte)} (hs : State.Via M S s)
    (hk : [.upsets, .mem, .cnt, .hbm] ⊆ M) : State.Via M S (State.writeGranules s a bads a1).1 := by
  fun_induction State.writeGranules s a bads a1
  · rename_i s0 a1
    exact hs
  · rename_i s2 a3 g4 gs5 s6 l7 x8 s9 l10 x11 ih12
    have hs6 : State.Via M S s6 := by
      exact via1 x8 (State.writeGranule_via hs (sub hk))
    have hs9 : State.Via M S s9 := by
      exact via1 x11 (ih12 hs6)
    exact hs9

theorem State.clearRun_via {s : State} {a : Nat} {n : Nat} (hs : State.Via M S s) (hk : [.upsets] ⊆ M) :
    State.Via M S (State.clearRun s a n) := by
  unfold State.clearRun
  exact hs.upd (State.via_upsets rfl) (sub hk)

theorem State.writeMarked_via {s : State} {a : Nat} {bs : List Byte} {bads : List Nat} (hs : State.Via M S s)
    (hk : [.upsets, .mem, .poison, .wbQueue] ⊆ M) : State.Via M S (State.writeMarked s a bs bads) := by
  unfold State.writeMarked
  split
  · exact State.writeUnits_via hs (sub hk)
  · extract_lets gs0
    exact foldl_via hs (fun u1 u2 hu3 => State.writeUnits_via hu3 (sub hk))

theorem State.writeDev_via {s : State} {a : Nat} {bs : List Byte} {bads : List Nat} (hs : State.Via M S s)
    (hk : [.upsets, .mem, .poison, .wbQueue, .cnt, .hbm] ⊆ M) : State.Via M S (State.writeDev s a bs bads).1 := by
  unfold State.writeDev
  split
  · extract_lets s0
    have hs0 : State.Via M S s0 := by
      unfold s0
      exact State.wakeRange_via hs (sub hk)
    clear_value s0
    split
    · dsimp -zeta only
      exact State.writeB_via hs0 (sub hk)
    · exact State.writeGranules_via hs0 (sub hk)
  · dsimp -zeta only
    exact State.writeMarked_via hs (sub hk)
  · dsimp -zeta only
    exact State.writeMarked_via hs (sub hk)
  · exact hs
  · exact hs
  · dsimp -zeta only
    exact State.writeB_via hs (sub hk)
  · dsimp -zeta only
    exact State.writeB_via (State.clearRun_via hs (sub hk)) (sub hk)

theorem State.writeMergedBad_via {s : State} {a : Nat} {bs : List Byte} {bads : List Nat} (hs : State.Via M S s)
    (hk : [.upsets, .mem, .poison, .wbQueue, .cnt, .hbm] ⊆ M) :
    State.Via M S (State.writeMergedBad s a bs bads).1 := by
  unfold State.writeMergedBad
  extract_lets lo0 hi1
  exact State.writeDev_via hs (sub hk)

theorem State.writeMerged_via {s : State} {a : Nat} {bs : List Byte} (hs : State.Via M S s)
    (hk : [.upsets, .mem, .poison, .wbQueue, .cnt, .hbm] ⊆ M) : State.Via M S (State.writeMerged s a bs) :=
  State.writeMergedBad_via hs hk

theorem State.takeBucket_via {s : State} {n : Nat} (hs : State.Via M S s) (hk : [.cnt, .hbm] ⊆ M) :
    State.Via M S (s.takeBucket n) := by
  have h1 : State.Via M S (s.updHbm (fun h => { h with bucket := h.bucket - n })) :=
    State.updHbm_le hs (sub hk) (fun h => by dsimp only; omega) id id
  unfold State.takeBucket
  extract_lets s1 d
  split
  · exact State.setCtr_via h1 (sub hk)
  · exact h1

theorem State.bucketPass_via {s : State} {u : BucketUser} {n : Nat} {prio : Nat} (hs : State.Via M S s)
    (hk : [.cnt, .hbm] ⊆ M) : State.Via M S (State.bucketPass s u n prio).2 := by
  unfold State.bucketPass
  split
  · exact hs
  · split
    · exact hs
    · split
      · dsimp -zeta only
        exact State.takeBucket_via hs (sub hk)
      · split
        · split
          · dsimp -zeta only
            exact State.takeBucket_via (State.updHbm_via hs (sub hk) (fun _ => rfl)) (sub hk)
          · exact hs
        · split
          · dsimp -zeta only
            exact State.takeBucket_via hs (sub hk)
          · dsimp -zeta only
            exact State.updHbm_via hs (sub hk) (fun _ => rfl)

theorem State.unwait_via {s : State} {u : BucketUser} (hs : State.Via M S s) (hk : [.hbm] ⊆ M) :
    State.Via M S (State.unwait s u) := by
  unfold State.unwait
  exact State.updHbm_via hs (sub hk) (fun _ => rfl)

theorem State.takeControl_via {s : State} {n : Nat} (hs : State.Via M S s) (hk : [.cnt, .hbm] ⊆ M) :
    State.Via M S (s.takeControl n) :=
  State.count_via (State.updHbm_le hs (sub hk) id (fun h => by dsimp only; omega) id) (sub hk)

theorem State.setMark_via {s : State} {i : Fin 8} {m : HistMark} (hs : State.Via M S s) (hk : [.hbm] ⊆ M) :
    State.Via M S (State.setMark s i m) := by
  unfold State.setMark
  exact State.updHbm_via hs (sub hk) (fun _ => rfl)

theorem State.markWrite_via {s : State} {a : Nat} {n : Nat} (hs : State.Via M S s) (hk : [.hbm] ⊆ M) :
    State.Via M S (State.markWrite s a n) := by
  unfold State.markWrite
  split
  · exact State.setMark_via hs (sub hk)
  · exact hs

theorem State.land_via {s : State} {x : Stalled} (hs : State.Via M S s)
    (hk : [.upsets, .mem, .poison, .wbQueue, .cnt, .hbm, .note] ⊆ M) : State.Via M S (State.land s x) := by
  unfold State.land
  extract_lets n0
  split
  · exact hs
  · split
    rename_i x1 s2 l3 heq4
    have hs2 : State.Via M S s2 := by
      exact via1 heq4 (State.writeDev_via hs (sub hk))
    extract_lets s5
    have hs5 : State.Via M S s5 := by
      unfold s5
      exact State.markWrite_via (State.countPages_via hs2 (sub hk)) (sub hk)
    clear_value s5
    split
    · exact State.tickFault_via hs5 (sub hk)
    · exact hs5

theorem State.landHead_via {s : State} (hs : State.Via M S s)
    (hk : [.upsets, .mem, .poison, .wbQueue, .cnt, .hbm, .note] ⊆ M) : State.Via M S (State.landHead s).2 := by
  unfold State.landHead
  split
  · exact hs
  · split
    rename_i x0 ok1 s2 heq3
    have hs2 : State.Via M S s2 := by
      exact via2 heq3 (State.bucketPass_via hs (sub hk))
    split
    · dsimp -zeta only
      exact State.land_via (State.updHbm_via hs2 (sub hk) (fun _ => rfl)) (sub hk)
    · exact hs2

theorem State.stall_via {s : State} {x : Stalled} (hs : State.Via M S s) (hk : [.hbm] ⊆ M) :
    State.Via M S (State.stall s x) := by
  unfold State.stall
  exact State.updHbm_via hs (sub hk) (fun _ => rfl)

theorem State.arrive_via {s : State} {x : Stalled} (hs : State.Via M S s)
    (hk : [.upsets, .mem, .poison, .wbQueue, .cnt, .hbm, .note] ⊆ M) : State.Via M S (State.arrive s x) := by
  unfold State.arrive
  split
  · exact State.landHead_via (State.stall_via hs (sub hk)) (sub hk)
  · exact State.stall_via hs (sub hk)

theorem State.writeRing_via {s : State} {g : RingAt} {off : Nat} {bs : List Byte} {bads : List Nat}
    (hs : State.Via M S s) (hk : [.upsets, .mem, .poison, .wbQueue] ⊆ M) :
    State.Via M S (State.writeRing s g off bs bads) := by
  unfold State.writeRing
  extract_lets gs0
  exact foldl_via hs (fun u1 u2 hu3 => State.writeUnits_via hu3 (sub hk))

theorem State.regionDeliver_via {s : State} {f : Fin 16} {r : Fin 16} {tag : Nat} {bs : List Byte} {bads : List Nat}
    (hs : State.Via M S s) (hk : [.freeCtr, .upsets, .mem, .poison, .wbQueue, .cnt, .facets] ⊆ M) :
    State.Via M S (State.regionDeliver s f r tag bs bads).2 := by
  unfold State.regionDeliver
  extract_lets k0 g1 at2 s3
  have hs3 : State.Via M S s3 := by
    unfold s3
    exact State.yields_via (State.highWater_via (State.updRegion_via hs (sub hk)) (sub hk)) (sub hk)
  clear_value s3
  split
  · dsimp -zeta only
    exact State.regionCommit_via (State.writeRing_via hs3 (sub hk)) (sub hk)
  · dsimp -zeta only
    exact State.regionOverrun_via hs (sub hk)

end Sys2Proof.Machine
end

