-- ==== Sys2Proof/Laws/ViaSense.lean ====
section
/-! SUPPORT. What each operation of the sensor can change (Via.lean), one lemma an operation. -/

set_option Elab.async false

namespace Sys2Proof.Machine

variable {M : List Change} {S : State}

/-! ### Sensor -/

theorem State.truncate_via {s : State} {i : Fin 5} {cause : Nat} (hs : State.Via M S s)
    (hk : [.out, .ring, .cnt, .img, .note] ⊆ M) : State.Via M S (State.truncate s i cause) := by
  unfold State.truncate
  split
  · exact hs
  · extract_lets s0
    have hs0 : State.Via M S s0 := by
      unfold s0
      exact State.count_via (State.updStream_via hs (sub hk)) (sub hk)
    clear_value s0
    split
    · exact State.fault_via hs0 (sub hk)
    · exact hs0

theorem State.deliverGroup_via {s : State} {c : ObjCfg} {e : PixEnv} {fr : FrameSt} {i : Fin 5} {lo : Nat} {hi : Nat}
    (hs : State.Via M S s)
    (hk : [.freeCtr, .out, .upsets, .mem, .ring, .poison, .wbQueue, .cnt, .facets, .img, .note, .err] ⊆ M) :
    State.Via M S (State.deliverGroup s c e fr i lo hi) := by
  unfold State.deliverGroup
  extract_lets sc0 st1 bs2 rows3 bad4 bads5 dma6 s7
  have hs7 : State.Via M S s7 := by
    unfold s7
    exact State.writeMarked_via hs (sub hk)
  clear_value s7
  split
  · exact State.truncate_via hs (sub hk)
  · split
    rename_i x8 ok9 s10 heq11
    have hs10 : State.Via M S s10 := by
      refine via2 heq11 ?_
      split
      · exact State.regionDeliver_via hs7 (sub hk)
      · exact hs7
    split
    · exact State.truncate_via hs10 (sub hk)
    · extract_lets s12
      have hs12 : State.Via M S s12 := by
        unfold s12
        exact State.count_via (State.updStream_via hs10 (sub hk)) (sub hk)
      clear_value s12
      split
      · exact State.poisonedGroup_via hs12 (sub hk)
      · exact hs12

theorem State.deliverLines_via {s : State} {c : ObjCfg} {e : PixEnv} {fr : FrameSt} {i : Fin 5} {n : Nat} {a : Nat}
    (hs : State.Via M S s)
    (hk : [.freeCtr, .out, .upsets, .mem, .ring, .poison, .wbQueue, .cnt, .facets, .img, .note, .err] ⊆ M) :
    State.Via M S (State.deliverLines s c e fr i n a) := by
  fun_induction State.deliverLines s c e fr i n a
  · rename_i s0
    exact hs
  · rename_i s1 k2 lo3 hi4 h5
    exact hs
  · rename_i s6 k7 lo8 hi9 h10 ih11
    exact ih11 (State.deliverGroup_via hs (sub hk))

theorem State.finishStreams_via {s : State} {c : ObjCfg} {fr : FrameSt} {n : Nat} (hs : State.Via M S s)
    (hk : [.freeCtr, .out, .upsets, .mem, .ring, .poison, .wbQueue, .cnt, .facets, .img, .note, .err] ⊆ M) :
    State.Via M S (State.finishStreams s c fr n) := by
  unfold State.finishStreams
  extract_lets e0
  apply foldl_via
  · exact hs
  · intro u1 u2 hu3
    beta_reduce
    extract_lets i4 sc5
    split
    · exact hu3
    · exact State.deliverLines_via hu3 (sub hk)

theorem State.statsBlock_via {s : State} {c : ObjCfg} {e : PixEnv} {fr : FrameSt} (hs : State.Via M S s)
    (hk : [.freeCtr, .out, .mem, .ring, .cnt, .note] ⊆ M) : State.Via M S (State.statsBlock s c e fr) := by
  unfold State.statsBlock
  extract_lets a0 cells1 bs2 s3
  have hs3 : State.Via M S s3 := by
    unfold s3
    exact State.drawn_via (State.writeB_via hs (sub hk)) (sub hk)
  clear_value s3
  exact State.eventAt_via hs3 (sub hk)

theorem State.countDefects_via {s : State} {e : PixEnv} {n : Nat} (hs : State.Via M S s) (hk : [.cnt] ⊆ M) :
    State.Via M S (State.countDefects s e n) := by
  unfold State.countDefects
  exact State.count_via (State.count_via hs (sub hk)) (sub hk)

theorem State.endFrame_via {s : State} {c : ObjCfg} {fr : FrameSt} {n : Nat} {cause : Option Nat} (hs : State.Via M S
      s)
    (hk : [.freeCtr, .out, .upsets, .mem, .ring, .poison, .wbQueue, .cnt, .facets, .img, .note, .err] ⊆ M) :
    State.Via M S (State.endFrame s c fr n cause) := by
  unfold State.endFrame
  extract_lets s0 e1 dyn2 s3 s4 s5
  have hs0 : State.Via M S s0 := by
    unfold s0
    exact State.finishStreams_via hs (sub hk)
  clear_value s0
  have hs3 : State.Via M S s3 := by
    unfold s3
    exact State.countDefects_via hs0 (sub hk)
  clear_value s3
  have hs4 : State.Via M S s4 := by
    unfold s4
    apply foldl_via
    · exact hs3
    · intro u6 u7 hu8
      beta_reduce
      extract_lets i9 sc10 s11 st12 s13
      have hs11 : State.Via M S s11 := by
        unfold s11
        split
        · rename_i x14 val15
          exact State.truncate_via hu8 (sub hk)
        · rename_i x16
          split
          · exact State.truncate_via hu8 (sub hk)
          · exact hu8
      clear_value s11
      have hs13 : State.Via M S s13 := by
        unfold s13
        exact State.eventAt_via hs11 (sub hk)
      clear_value s13
      split
      · exact hu8
      · exact State.updStream_via hs13 (sub hk)
  clear_value s4
  have hs5 : State.Via M S s5 := by
    unfold s5
    split
    · exact State.statsBlock_via hs4 (sub hk)
    · exact State.drawn_via hs4 (sub hk)
  clear_value s5
  exact State.updImg_via hs5 (sub hk)

theorem State.cutFrame_via {s : State} {rows : List RawRow} {cause : Nat} (hs : State.Via M S s)
    (hk : [.freeCtr, .out, .upsets, .mem, .ring, .poison, .wbQueue, .cnt, .facets, .img, .note, .err] ⊆ M) :
    State.Via M S (State.cutFrame s rows cause) := by
  unfold State.cutFrame
  split
  · extract_lets fr0
    exact State.endFrame_via hs (sub hk)
  · exact hs

theorem State.skipSlot_via {s : State} (hs : State.Via M S s) (hk : [.cnt, .img] ⊆ M) :
    State.Via M S (State.skipSlot s) := by
  unfold State.skipSlot
  exact State.count_via (State.updImg_via hs (sub hk)) (sub hk)

theorem State.readTheta_via {s : State} {theta : Int} (hs : State.Via M S s)
    (hk : [.out, .ring, .cnt, .img, .note] ⊆ M) : State.Via M S (State.readTheta s theta) := by
  unfold State.readTheta
  extract_lets cross0 s1
  have hs1 : State.Via M S s1 := by
    unfold s1
    exact State.updImg_via hs (sub hk)
  clear_value s1
  split
  · exact State.fault_via hs1 (sub hk)
  · exact hs1

theorem State.startFrame_via {s : State} {c : ObjCfg} {t : Nat} {time : Nat} {theta : Int} (hs : State.Via M S s)
    (hk : [.out, .ring, .cnt, .img, .note] ⊆ M) : State.Via M S (State.startFrame s c t time theta) := by
  unfold State.startFrame
  extract_lets reach0 late1 cfg2 pipe3 emax4 cal5 fr6 s7 s8
  have hs7 : State.Via M S s7 := by
    unfold s7
    exact State.count_via (State.count_via (State.count_via hs (sub hk)) (sub hk)) (sub hk)
  clear_value s7
  have hs8 : State.Via M S s8 := by
    unfold s8
    exact State.updImg_via hs7 (sub hk)
  clear_value s8
  exact State.readTheta_via hs8 (sub hk)

theorem State.frameEdge_via {s : State} {t : Nat} {time : Nat} {theta : Int} (hs : State.Via M S s)
    (hk : [.freeCtr, .out, .upsets, .mem, .ring, .poison, .wbQueue, .cnt, .facets, .img, .note, .err] ⊆ M) :
    State.Via M S (State.frameEdge s t time theta) := by
  unfold State.frameEdge
  split
  · split
    · extract_lets s0
      have hs0 : State.Via M S s0 := by
        unfold s0
        split
        · exact State.endFrame_via hs (sub hk)
        · exact hs
      clear_value s0
      split
      · exact State.startFrame_via hs0 (sub hk)
      · exact State.skipSlot_via hs0 (sub hk)
    · exact hs
  · exact hs

theorem State.objectiveStart_via {s : State} {c : Option ObjCfg} (hs : State.Via M S s)
    (hk : [.out, .ring, .cnt, .img, .note] ⊆ M) : State.Via M S (State.objectiveStart s c) := by
  unfold State.objectiveStart
  split
  · exact State.updImg_via hs (sub hk)
  · extract_lets a0 s1
    have hs1 : State.Via M S s1 := by
      unfold s1
      exact State.updImg_via hs (sub hk)
    clear_value s1
    split
    · exact State.fault_via hs1 (sub hk)
    · exact hs1

theorem State.sensorStandby_via {s : State} {rows : List RawRow} (hs : State.Via M S s)
    (hk : [.freeCtr, .out, .upsets, .mem, .ring, .poison, .wbQueue, .cnt, .facets, .img, .note, .err] ⊆ M) :
    State.Via M S (State.sensorStandby s rows) := by
  unfold State.sensorStandby
  split
  · exact hs
  · exact hs
  · exact State.updImg_via (State.cutFrame_via hs (sub hk)) (sub hk)

theorem State.setSensorSet_via {s : State} {at_ : Nat} {b : List Byte} (hs : State.Via M S s) (hk : [.img] ⊆ M) :
    State.Via M S (State.setSensorSet s at_ b).2.2 := by
  unfold State.setSensorSet
  split
  · exact hs
  · split
    · exact hs
    · extract_lets target0 tag1 valid2 exposure3 again4 dgain5 wb6 black7 bad8 lead9 inTime10 first11 planned12 p13
      split
      · exact hs
      · split
        · exact hs
        · split
          · exact hs
          · dsimp -zeta only
            exact State.updImg_via hs (sub hk)

theorem State.burstTrigger_via {s : State} {t : BurstTrig} (hs : State.Via M S s) (hk : [.img] ⊆ M) :
    State.Via M S (State.burstTrigger s t) := by
  unfold State.burstTrigger
  exact State.updImg_via hs (sub hk)

theorem execLineGroupComplete_via {st : Fin 5} {rows : List RawRow} {s : State} (hs : State.Via M S s)
    (hk : [.freeCtr, .out, .upsets, .mem, .ring, .poison, .wbQueue, .cnt, .facets, .img, .note, .err] ⊆ M) :
    Keeps (State.Via M S) (execLineGroupComplete st rows s) := by
  unfold execLineGroupComplete
  split
  · extract_lets fr0 s1 sc2 x3 hi4 need5
    have hs1 : State.Via M S s1 := by
      unfold s1
      exact State.updImg_via hs (sub hk)
    clear_value s1
    split
    · exact keeps_next hs1
    · exact keeps_next (State.drawn_via (State.deliverGroup_via hs1 (sub hk)) (sub hk))
  · exact keeps_next hs

theorem execFrameEnd_via {rows : List RawRow} {s : State} (hs : State.Via M S s)
    (hk : [.freeCtr, .out, .upsets, .mem, .ring, .poison, .wbQueue, .cnt, .facets, .img, .note, .err] ⊆ M) :
    Keeps (State.Via M S) (execFrameEnd rows s) := by
  unfold execFrameEnd
  split
  · extract_lets fr0 s1
    have hs1 : State.Via M S s1 := by
      unfold s1
      exact State.endFrame_via hs (sub hk)
    clear_value s1
    apply keeps_next
    split
    · exact State.updImg_via hs1 (sub hk)
    · exact hs1
  · exact keeps_next hs

theorem execBurstTrigger_via {theta : Int} {rows : List RawRow} {s : State} (hs : State.Via M S s)
    (hk : [.freeCtr, .out, .upsets, .mem, .ring, .poison, .wbQueue, .cnt, .facets, .img, .note, .err] ⊆ M) :
    Keeps (State.Via M S) (execBurstTrigger theta rows s) := by
  unfold execBurstTrigger
  split
  · exact keeps_next hs
  · extract_lets s0 ignored1 s2 o3
    have hs0 : State.Via M S s0 := by
      unfold s0
      exact State.updImg_via hs (sub hk)
    clear_value s0
    have hignored1 : State.Via M S ignored1 := by
      unfold ignored1
      exact State.tickFault_via (State.count_via hs0 (sub hk)) (sub hk)
    clear_value ignored1
    have hs2 : State.Via M S s2 := by
      unfold s2
      exact State.readTheta_via (State.cutFrame_via hs0 (sub hk)) (sub hk)
    clear_value s2
    split
    · exact keeps_next hignored1
    · split
      · extract_lets time4 n5
        exact keeps_next (State.count_via (State.updImg_via hs2 (sub hk)) (sub hk))
      · exact keeps_next hignored1

theorem State.burstRows_via {s : State} {p : Partition} {k : Nat} {ring : Nat} {y : Nat} {a : List (List Byte × Bool)}
    (hs : State.Via M S s) (hk : [.upsets, .mem, .poison, .wbQueue, .cnt, .hbm, .note] ⊆ M) :
    State.Via M S (State.burstRows s p k ring y a).2 := by
  fun_induction State.burstRows s p k ring y a
  · rename_i s0 y1
    exact hs
  · rename_i s2 y3 bs4 bad5 rs6 h7
    exact hs
  · rename_i s8 y9 bs10 bad11 rs12 h13 bads14 s15 ih16
    have hs15 : State.Via M S s15 := by
      unfold s15
      exact State.writeMarked_via hs (sub hk)
    clear_value s15
    exact ih16 (State.arrive_via hs15 (sub hk))

theorem State.takeCal_via {s : State} (hs : State.Via M S s) (hk : [.img] ⊆ M) : State.Via M S (State.takeCal s) := by
  unfold State.takeCal
  split
  · exact hs.upd (State.via_img rfl) (sub hk)
  · exact hs

theorem State.burstFrame_via {s : State} {c : ObjCfg} {b : Burst} {p : Partition} {rows : List RawRow} {lines : Nat}
    (hs : State.Via M S s)
    (hk : [.freeCtr, .upsets, .mem, .poison, .wbQueue, .cnt, .tk, .hbm, .img, .note, .idle] ⊆ M) :
    State.Via M S (State.burstFrame s c b p rows lines) := by
  unfold State.burstFrame
  extract_lets t0 s1 src2 e3 rs4
  have hs1 : State.Via M S s1 := by
    unfold s1
    exact State.takeCal_via (State.setTime_via hs (sub hk)) (sub hk)
  clear_value s1
  split
  rename_i x5 n6 s7 heq8
  have hs7 : State.Via M S s7 := by
    exact via2 heq8 (State.burstRows_via (State.countDefects_via hs1 (sub hk)) (sub hk))
  extract_lets s9 dropped10 s11
  have hs9 : State.Via M S s9 := by
    unfold s9
    exact State.count_via hs7 (sub hk)
  clear_value s9
  have hs11 : State.Via M S s11 := by
    unfold s11
    split
    · exact State.count_via hs9 (sub hk)
    · exact hs9
  clear_value s11
  exact State.drawn_via (State.updImg_via hs11 (sub hk)) (sub hk)

theorem execBurstFrameStart_via {rows : List RawRow} {lines : Nat} {s : State} (hs : State.Via M S s)
    (hk : [.freeCtr, .upsets, .mem, .poison, .wbQueue, .cnt, .tk, .hbm, .img, .note, .idle] ⊆ M) :
    Keeps (State.Via M S) (execBurstFrameStart rows lines s) := by
  unfold execBurstFrameStart
  split
  · split
    · exact keeps_next hs
    · split
      · exact keeps_next hs
      · exact keeps_next (State.burstFrame_via hs (sub hk))
  · exact keeps_next hs

theorem State.burstDone_via {s : State} (hs : State.Via M S s) (hk : [.out, .ring, .cnt, .img, .note] ⊆ M) :
    State.Via M S (State.burstDone s) := by
  unfold State.burstDone
  split
  · split
    · exact hs
    · exact State.event_via (State.updImg_via hs (sub hk)) (sub hk)
  · exact hs

theorem State.closeBurst_via {s : State} {c : ObjCfg} {b : Burst} {p : Partition} (hs : State.Via M S s)
    (hk : [.out, .upsets, .mem, .ring, .poison, .wbQueue, .cnt, .tk, .hbm, .img, .note, .idle] ⊆ M) :
    State.Via M S (State.closeBurst s c b p) := by
  unfold State.closeBurst
  extract_lets tEnd0 s1 idx2 a3 len4 bs5 s6
  have hs1 : State.Via M S s1 := by
    unfold s1
    exact State.setTime_via hs (sub hk)
  clear_value s1
  have hs6 : State.Via M S s6 := by
    unfold s6
    exact State.updImg_via hs1 (sub hk)
  clear_value s6
  exact State.burstDone_via (State.arrive_via hs6 (sub hk)) (sub hk)

theorem execBurstEnd_via {s : State} (hs : State.Via M S s)
    (hk : [.out, .upsets, .mem, .ring, .poison, .wbQueue, .cnt, .tk, .hbm, .img, .note, .idle] ⊆ M) :
    Keeps (State.Via M S) (execBurstEnd s) := by
  unfold execBurstEnd
  split
  · split
    · exact keeps_next hs
    · split
      · exact keeps_next hs
      · exact keeps_next (State.closeBurst_via hs (sub hk))
  · exact keeps_next hs

theorem execSensorStandbyExit_via {s : State} (hs : State.Via M S s) (hk : [.img] ⊆ M) :
    Keeps (State.Via M S) (execSensorStandbyExit s) := by
  unfold execSensorStandbyExit
  split
  · apply keeps_next
    split
    · exact State.updImg_via hs (sub hk)
    · exact hs
  · exact keeps_next hs

end Sys2Proof.Machine
end

