-- ==== Sys2Proof/Laws/ViaNet.lean ====
section
/-! SUPPORT. What each operation of templates and the network can change (Via.lean), one lemma an operation. -/

set_option Elab.async false

namespace Sys2Proof.Machine

variable {M : List Change} {S : State}

/-! ### Templates -/

theorem State.updNet_via {s : State} {g : Net → Net} (hs : State.Via M S s) (hk : [.net] ⊆ M) :
    State.Via M S (State.updNet s g) := by
  unfold State.updNet
  exact hs.upd (State.via_net rfl) (sub hk)

theorem State.updPort_via {s : State} {p : Fin 2} {g : Port → Port} (hs : State.Via M S s) (hk : [.net] ⊆ M) :
    State.Via M S (State.updPort s p g) := by
  unfold State.updPort
  exact State.updNet_via hs (sub hk)

theorem State.setTmpl_via {s : State} {t : Fin 32} {v : Option EvTmpl} (hs : State.Via M S s) (hk : [.net] ⊆ M) :
    State.Via M S (State.setTmpl s t v) := by
  unfold State.setTmpl
  exact State.updNet_via hs (sub hk)

theorem State.updTmpl_via {s : State} {t : Fin 32} {g : EvTmpl → EvTmpl} (hs : State.Via M S s) (hk : [.net] ⊆ M) :
    State.Via M S (State.updTmpl s t g) := by
  unfold State.updTmpl
  exact State.setTmpl_via hs (sub hk)

theorem State.enqueue_via {s : State} {p : Fin 2} {q : Nat} {f : Frame} (hs : State.Via M S s) (hk : [.net] ⊆ M) :
    State.Via M S (State.enqueue s p q f).2 := by
  unfold State.enqueue
  split
  · dsimp -zeta only
    exact State.updPort_via hs (sub hk)
  · exact hs

theorem State.transmit_via {s : State} {k : Fin 32} (hs : State.Via M S s) (hk : [.freeCtr, .cnt, .net, .note] ⊆ M) :
    State.Via M S (State.transmit s k) := by
  unfold State.transmit
  split
  · exact hs
  · split
    · exact hs
    · extract_lets ok0 s1 fr2 s3 s4 any5
      have hs1 : State.Via M S s1 := by
        unfold s1
        exact State.judged_via hs (sub hk)
      clear_value s1
      have hs3 : State.Via M S s3 := by
        unfold s3
        exact State.drawn_via hs1 (sub hk)
      clear_value s3
      have hs4 : State.Via M S s4 := by
        unfold s4
        apply foldl_via
        · exact hs3
        · intro u6 u7 hu8
          beta_reduce
          split
          · split
            rename_i x9 sent10 s11 heq12
            have hs11 : State.Via M S s11 := by
              exact via2 heq12 (State.enqueue_via hu8 (sub hk))
            split
            · exact State.updTmpl_via hs11 (sub hk)
            · exact State.count_via hs11 (sub hk)
          · exact hu8
      clear_value s4
      split
      · exact hs1
      · exact State.updTmpl_via hs4 (sub hk)

theorem State.serveFiring_via {s : State} {k : Fin 32} {f : Firing} (hs : State.Via M S s)
    (hk : [.freeCtr, .cnt, .net, .note] ⊆ M) : State.Via M S (State.serveFiring s k f) := by
  unfold State.serveFiring
  exact State.transmit_via (State.updTmpl_via hs (sub hk)) (sub hk)

theorem State.fireTemplate_via {s : State} {k : Fin 32} {f : Firing} (hs : State.Via M S s)
    (hk : [.freeCtr, .cnt, .net, .note] ⊆ M) : State.Via M S (State.fireTemplate s k f) := by
  unfold State.fireTemplate
  split
  · exact hs
  · extract_lets s0
    have hs0 : State.Via M S s0 := by
      unfold s0
      exact State.count_via hs (sub hk)
    clear_value s0
    split
    · exact State.serveFiring_via hs0 (sub hk)
    · split
      · exact State.updTmpl_via hs0 (sub hk)
      · exact State.tickFault_via (State.count_via hs0 (sub hk)) (sub hk)

theorem State.fireWhere_via {s : State} {p : EvTmpl → Bool} {f : Firing} (hs : State.Via M S s)
    (hk : [.freeCtr, .cnt, .net, .note] ⊆ M) : State.Via M S (State.fireWhere s p f) := by
  unfold State.fireWhere
  apply foldl_via
  · exact hs
  · intro u0 u1 hu2
    beta_reduce
    split
    · split
      · exact State.fireTemplate_via hu2 (sub hk)
      · exact hu2
    · exact hu2

theorem State.nextFirings_via {s : State} {k : Fin 32} {a : Nat} (hs : State.Via M S s)
    (hk : [.freeCtr, .cnt, .net, .note] ⊆ M) : State.Via M S (State.nextFirings s k a) := by
  fun_induction State.nextFirings s k a
  · rename_i s0
    exact hs
  · rename_i s1 n2 t3 x4 f5 fs6 x7 h8 ih9
    exact ih9 (State.serveFiring_via (State.updTmpl_via hs (sub hk)) (sub hk))
  · rename_i s10 n11 t12 x13 f14 fs15 x16 h17
    exact hs
  · rename_i s18 n19 t20 x21 x22
    exact hs
  · rename_i s23 n24 x25
    exact hs

theorem State.nextFiring_via {s : State} {k : Fin 32} (hs : State.Via M S s)
    (hk : [.freeCtr, .cnt, .net, .note] ⊆ M) : State.Via M S (State.nextFiring s k) := by
  unfold State.nextFiring
  exact State.nextFirings_via hs (sub hk)

theorem State.installTemplate_via {s : State} {t : Fin 32} {b : List Byte} (hs : State.Via M S s) (hk : [.net] ⊆ M) :
    State.Via M S (State.installTemplate s t b).2 := by
  unfold State.installTemplate
  split
  · exact hs
  · extract_lets left0
    dsimp -zeta only
    exact State.setTmpl_via hs (sub hk)

theorem execTemplateRepeat_via {t : Fin 32} {s : State} (hs : State.Via M S s)
    (hk : [.freeCtr, .cnt, .net, .note] ⊆ M) : Keeps (State.Via M S) (execTemplateRepeat t s) := by
  unfold execTemplateRepeat
  split
  · split
    · exact keeps_next (State.transmit_via hs (sub hk))
    · exact keeps_next hs
  · exact keeps_next hs

theorem execDiscardedFrame_via {port : Fin 2} {eth : Eth} {len : Nat} {badFcs : Bool} {s : State}
    (hs : State.Via M S s) (hk : [.cnt] ⊆ M) : Keeps (State.Via M S) (execDiscardedFrame port eth len badFcs s) := by
  unfold execDiscardedFrame
  split
  · exact keeps_next hs
  · split
    · exact keeps_next (State.count_via hs (sub hk))
    · split
      · exact keeps_next (State.count_via hs (sub hk))
      · split
        · exact keeps_next hs
        · exact keeps_next (State.count_via hs (sub hk))

theorem State.ptpSent_via {s : State} {port : Fin 2} {stamp : Nat} {f : Frame} (hs : State.Via M S s)
    (hk : [.cnt, .net] ⊆ M) : State.Via M S (State.ptpSent s port stamp f) := by
  unfold State.ptpSent
  split
  · exact State.updNet_via hs (sub hk)
  · exact State.enqueue_via hs (sub hk)
  · exact hs

theorem execFrameTransmit_via {port : Fin 2} {s : State} (hs : State.Via M S s)
    (hk : [.freeCtr, .out, .cnt, .net, .note] ⊆ M) : Keeps (State.Via M S) (execFrameTransmit port s) := by
  unfold execFrameTransmit
  extract_lets p0
  clear_value p0
  split
  · exact keeps_next hs
  · split
    · exact keeps_next hs
    · extract_lets bytes1 s2 s3 s4
      clear_value bytes1
      have hs2 : State.Via M S s2 := by
        unfold s2
        exact State.updPort_via hs (sub hk)
      clear_value s2
      have hs3 : State.Via M S s3 := by
        unfold s3
        exact State.count_via (State.count_via hs2 (sub hk)) (sub hk)
      clear_value s3
      have hs4 : State.Via M S s4 := by
        unfold s4
        split
        · rename_i x5 l6
          exact State.emit_via hs3 (sub hk)
        · rename_i x7
          exact State.emit_via hs3 (sub hk)
      clear_value s4
      apply keeps_next
      split
      · exact State.nextFiring_via (State.updTmpl_via (State.count_via hs4 (sub hk)) (sub hk)) (sub hk)
      · exact State.ptpSent_via hs4 (sub hk)

/-! ### Network -/

theorem State.updPtp_via {s : State} {g : Ptp → Ptp} (hs : State.Via M S s) (hk : [.net] ⊆ M) :
    State.Via M S (State.updPtp s g) := by
  unfold State.updPtp
  exact State.updNet_via hs (sub hk)

theorem State.setEt_via {s : State} {k : Fin 8} {e : EvTimer} (hs : State.Via M S s) (hk : [.net] ⊆ M) :
    State.Via M S (State.setEt s k e) := by
  unfold State.setEt
  exact State.updNet_via hs (sub hk)

theorem State.timeState_via {s : State} {status : Nat} (hs : State.Via M S s) (hk : [.out, .ring, .cnt, .note] ⊆ M) :
    State.Via M S (State.timeState s status) := by
  unfold State.timeState
  exact State.event_via hs (sub hk)

theorem State.toPtp_via {s : State} {st : PtpState} {status : Nat} (hs : State.Via M S s)
    (hk : [.out, .ring, .cnt, .net, .note, .ready] ⊆ M) : State.Via M S (State.toPtp s st status) := by
  unfold State.toPtp
  split
  · exact hs
  · extract_lets s0 s1
    have hs0 : State.Via M S s0 := by
      unfold s0
      exact State.updPtp_via hs (sub hk)
    clear_value s0
    have hs1 : State.Via M S s1 := by
      unfold s1
      exact hs0.upd (State.via_ready rfl) (sub hk)
    clear_value s1
    exact State.timeState_via (State.count_via hs1 (sub hk)) (sub hk)

theorem State.stepTime_via {s : State} {t : Nat} (hs : State.Via M S s) (hk : [.cnt, .tk, .hbm, .net, .idle] ⊆ M) :
    State.Via M S (State.stepTime s t) := by
  unfold State.stepTime
  extract_lets tt s0 n1 k2 src3 s4
  have hs0 : State.Via M S s0 := by
    unfold s0
    exact State.setTime_via hs (sub hk)
  clear_value s0
  have hs4 : State.Via M S s4 := by
    unfold s4
    exact hs0.upd (State.via_tk rfl) (sub hk)
  clear_value s4
  exact State.updNet_via hs4 (sub hk)

theorem State.applyStep_via {s : State} (hs : State.Via M S s)
    (hk : [.out, .ring, .cnt, .tk, .hbm, .net, .note, .idle] ⊆ M) : State.Via M S (State.applyStep s) := by
  unfold State.applyStep
  split
  · split
    · exact hs
    · exact State.timeState_via (State.stepTime_via hs (sub hk)) (sub hk)
  · exact hs

theorem State.servo_via {s : State} {o : Int} (hs : State.Via M S s)
    (hk : [.out, .ring, .cnt, .tk, .hbm, .net, .note, .idle] ⊆ M) : State.Via M S (State.servo s o) := by
  unfold State.servo
  extract_lets s0 was1 src2 s3
  have hs0 : State.Via M S s0 := by
    unfold s0
    exact State.updPtp_via hs (sub hk)
  clear_value s0
  have hs3 : State.Via M S s3 := by
    unfold s3
    exact hs0.upd (State.via_tk rfl) (sub hk)
  clear_value s3
  split
  · split
    · split
      · exact hs3
      · exact State.timeState_via hs3 (sub hk)
    · exact State.applyStep_via hs3 (sub hk)
  · split
    · exact State.timeState_via (hs0.upd (State.via_tk rfl) (sub hk)) (sub hk)
    · exact hs0

theorem State.settleGm_via {s : State} (hs : State.Via M S s) (hk : [.out, .ring, .cnt, .net, .note] ⊆ M) :
    State.Via M S (State.settleGm s) := by
  unfold State.settleGm
  split
  · exact State.timeState_via (State.updPtp_via hs (sub hk)) (sub hk)
  · exact hs

theorem State.ptpOffset_via {s : State} {o : Int} (hs : State.Via M S s)
    (hk : [.out, .ring, .cnt, .tk, .hbm, .net, .note, .idle, .ready] ⊆ M) : State.Via M S (State.ptpOffset s o) := by
  unfold State.ptpOffset
  extract_lets p0 good1 bad2 s3
  have hs3 : State.Via M S s3 := by
    unfold s3
    exact State.servo_via (State.updPtp_via hs (sub hk)) (sub hk)
  clear_value s3
  split
  · exact State.settleGm_via (State.toPtp_via hs3 (sub hk)) (sub hk)
  · split
    · exact State.toPtp_via hs3 (sub hk)
    · split
      · exact State.settleGm_via hs3 (sub hk)
      · exact hs3

theorem State.selectMaster_via {s : State} (hs : State.Via M S s)
    (hk : [.out, .ring, .cnt, .net, .note, .ready] ⊆ M) : State.Via M S (State.selectMaster s) := by
  unfold State.selectMaster
  split
  · exact State.updPtp_via hs (sub hk)
  · extract_lets p0 changed1 s2
    have hs2 : State.Via M S s2 := by
      unfold s2
      exact State.updPtp_via hs (sub hk)
    clear_value s2
    split
    · exact State.toPtp_via hs2 (sub hk)
    · split
      · exact State.timeState_via hs2 (sub hk)
      · exact hs2

theorem State.masterLost_via {s : State} {port : Nat} (hs : State.Via M S s)
    (hk : [.out, .ring, .cnt, .net, .note, .ready] ⊆ M) : State.Via M S (State.masterLost s port) := by
  unfold State.masterLost
  extract_lets s0 s1 s2
  have hs0 : State.Via M S s0 := by
    unfold s0
    exact State.updPtp_via hs (sub hk)
  clear_value s0
  have hs1 : State.Via M S s1 := by
    unfold s1
    exact State.updPtp_via hs0 (sub hk)
  clear_value s1
  have hs2 : State.Via M S s2 := by
    unfold s2
    split
    · exact State.toPtp_via hs1 (sub hk)
    · exact hs1
  clear_value s2
  split
  · exact State.selectMaster_via hs2 (sub hk)
  · exact hs2

theorem State.peerDelay_via {s : State} {port : Fin 2} {seq rx turn : Nat} (hs : State.Via M S s) (hk : [.net] ⊆ M) :
    State.Via M S (State.peerDelay s port seq rx turn) := by
  unfold State.peerDelay
  split
  · split
    · exact State.updPtp_via hs (sub hk)
    · exact hs
  · exact hs

theorem State.ptpTaken_via {s : State} {port : Fin 2} {m : PtpMsg} (hs : State.Via M S s)
    (hk : [.out, .ring, .cnt, .tk, .hbm, .net, .note, .idle, .ready] ⊆ M) : State.Via M S (State.ptpTaken s port m)
    := by
  unfold State.ptpTaken
  extract_lets mine0 delay1 rx0 s2 s3
  clear_value delay1 mine0 rx0
  split
  · exact State.selectMaster_via (State.updPtp_via hs (sub hk)) (sub hk)
  · split
    · exact hs
    · have hs2 : State.Via M S s2 := by
        unfold s2
        exact State.count_via hs (sub hk)
      clear_value s2
      have hs3 : State.Via M S s3 := by
        unfold s3
        split
        · exact State.toPtp_via hs2 (sub hk)
        · exact hs2
      clear_value s3
      split
      · exact State.ptpOffset_via hs3 (sub hk)
      · exact State.updPtp_via hs3 (sub hk)
  · split
    · split
      · exact State.ptpOffset_via (State.updPtp_via hs (sub hk)) (sub hk)
      · exact hs
    · exact hs
  · exact State.enqueue_via hs (sub hk)
  · split
    · exact State.peerDelay_via hs (sub hk)
    · exact State.updPtp_via hs (sub hk)
  · split
    · split
      · exact State.peerDelay_via (State.updPtp_via hs (sub hk)) (sub hk)
      · exact hs
    · exact hs

theorem execPtpMessage_via {port : Fin 2} {eth : Eth} {domain : Nat} {m : PtpMsg} {s : State} (hs : State.Via M S s)
    (hk : [.out, .ring, .cnt, .tk, .hbm, .net, .note, .idle, .ready] ⊆ M) :
    Keeps (State.Via M S) (execPtpMessage port eth domain m s) := by
  unfold execPtpMessage
  split
  · exact keeps_next hs
  · split
    · exact keeps_next (State.count_via hs (sub hk))
    · extract_lets s0
      have hs0 : State.Via M S s0 := by
        unfold s0
        exact State.count_via hs (sub hk)
      clear_value s0
      apply keeps_next
      split
      · exact State.ptpTaken_via hs0 (sub hk)
      · exact hs0

theorem execPdelayReqTimer_via {s : State} (hs : State.Via M S s) (hk : [.net] ⊆ M) :
    Keeps (State.Via M S) (execPdelayReqTimer s) := by
  unfold execPdelayReqTimer
  extract_lets p0 f1 s2 s3
  have hs2 : State.Via M S s2 := by
    unfold s2
    exact State.enqueue_via hs (sub hk)
  clear_value s2
  have hs3 : State.Via M S s3 := by
    unfold s3
    exact State.enqueue_via hs2 (sub hk)
  clear_value s3
  exact keeps_next (State.updPtp_via hs3 (sub hk))

theorem execSyncTimeout_via {s : State} (hs : State.Via M S s) (hk : [.out, .ring, .cnt, .net, .note, .ready] ⊆ M) :
    Keeps (State.Via M S) (execSyncTimeout s) := by
  unfold execSyncTimeout
  split
  · exact keeps_next (State.masterLost_via hs (sub hk))
  · exact keeps_next hs

theorem execHoldoverExpiry_via {s : State} (hs : State.Via M S s)
    (hk : [.out, .ring, .cnt, .net, .note, .ready] ⊆ M) : Keeps (State.Via M S) (execHoldoverExpiry s) := by
  unfold execHoldoverExpiry
  split
  · exact keeps_next (State.toPtp_via hs (sub hk))
  · exact keeps_next hs

theorem execHoldoverReport_via {s : State} (hs : State.Via M S s) (hk : [.out, .ring, .cnt, .note] ⊆ M) :
    Keeps (State.Via M S) (execHoldoverReport s) := by
  unfold execHoldoverReport
  split
  · exact keeps_next (State.timeState_via hs (sub hk))
  · exact keeps_next hs

theorem State.etEvent_via {s : State} {k : Fin 8} {time : Nat} (hs : State.Via M S s) (hk : [.dma, .img, .wav] ⊆ M) :
    State.Via M S (State.etEvent s k time) := by
  unfold State.etEvent
  extract_lets wakes0 s1 src2 s3
  have hs1 : State.Via M S s1 := by
    unfold s1
    exact hs.upd (State.via_dma rfl) (sub hk)
  clear_value s1
  have hs3 : State.Via M S s3 := by
    unfold s3
    split
    · split
      · exact hs1.upd (State.via_wav rfl) (sub hk)
      · exact hs1
    · exact hs1
  clear_value s3
  split
  · split
    · exact State.updImg_via hs3 (sub hk)
    · exact hs3
  · exact hs3

theorem execEventTimerEvent_via {k : Fin 8} {s : State} (hs : State.Via M S s)
    (hk : [.out, .cnt, .tk, .hbm, .dma, .img, .wav, .net, .idle] ⊆ M) :
    Keeps (State.Via M S) (execEventTimerEvent k s) := by
  unfold execEventTimerEvent
  extract_lets e0 t1 e2 s3 s4
  have hs3 : State.Via M S s3 := by
    unfold s3
    exact State.setEt_via (State.setTime_via hs (sub hk)) (sub hk)
  clear_value s3
  have hs4 : State.Via M S s4 := by
    unfold s4
    exact State.etEvent_via hs3 (sub hk)
  clear_value s4
  split
  · apply keeps_next
    split
    · exact State.emit_via (State.emit_via hs4 (sub hk)) (sub hk)
    · exact hs4
  · exact keeps_next hs

theorem State.setPortSet_via {s : State} {b : List Byte} (hs : State.Via M S s) (hk : [.net] ⊆ M) :
    State.Via M S (State.setPortSet s b).2 := by
  unfold State.setPortSet
  extract_lets p0 vid1
  split
  · dsimp -zeta only
    exact State.updPort_via hs (sub hk)
  · exact hs

theorem State.setPtpSet_via {s : State} {b : List Byte} (hs : State.Via M S s) (hk : [.net] ⊆ M) :
    State.Via M S (State.setPtpSet s b).2 := by
  unfold State.setPtpSet
  extract_lets lim0
  split
  · dsimp -zeta only
    exact State.updPtp_via hs (sub hk)
  · exact hs

theorem State.setEtSet_via {s : State} {b : List Byte} (hs : State.Via M S s) (hk : [.net] ⊆ M) :
    State.Via M S (State.setEtSet s b).2 := by
  unfold State.setEtSet
  extract_lets k0 mode1 pin2 width3 start4 period5 timed6 busy7 ok8
  split
  · dsimp -zeta only
    exact State.setEt_via hs (sub hk)
  · exact hs

theorem execEtCapture_via {k : Fin 8} {rising : Bool} {s : State} (hs : State.Via M S s)
    (hk : [.freeCtr, .out, .ring, .cnt, .dma, .img, .wav, .net, .note] ⊆ M) :
    Keeps (State.Via M S) (execEtCapture k rising s) := by
  unfold execEtCapture
  extract_lets e0 edge1 r1 t2 near3 e4 s5 pl6 s7
  clear_value e0 edge1 r1 t2 near3 e4 pl6
  have hs5 : State.Via M S s5 := by
    unfold s5
    exact State.count_via (State.setEt_via hs (sub hk)) (sub hk)
  clear_value s5
  have hs7 : State.Via M S s7 := by
    unfold s7
    exact State.etEvent_via (State.event_via hs5 (sub hk)) (sub hk)
  clear_value s7
  split
  · split
    · exact keeps_next (State.count_via hs (sub hk))
    · exact keeps_next (State.fireWhere_via hs7 (sub hk))
  · exact keeps_next hs

end Sys2Proof.Machine
end

