-- ==== Sys2Proof/Laws/ViaBeam.lean ====
section
/-! SUPPORT. What each operation of Beam can change (Via.lean), one lemma an operation. -/

set_option Elab.async false

namespace Sys2Proof.Machine

variable {M : List Change} {S : State}

/-! ### Beam -/

theorem State.updBeam_via {s : State} {g : Beam → Beam} (hs : State.Via M S s) (hk : [.beam] ⊆ M) :
    State.Via M S (State.updBeam s g) := by
  unfold State.updBeam
  exact hs.upd (State.via_beam rfl) (sub hk)

theorem State.setRx_via {s : State} {w : Fin 16} {v : Option RxWin} (hs : State.Via M S s) (hk : [.beam] ⊆ M) :
    State.Via M S (State.setRx s w v) := by
  unfold State.setRx
  exact State.updBeam_via hs (sub hk)

theorem State.setTx_via {s : State} {w : Fin 16} {v : Option TxWin} (hs : State.Via M S s) (hk : [.beam] ⊆ M) :
    State.Via M S (State.setTx s w v) := by
  unfold State.setTx
  exact State.updBeam_via hs (sub hk)

theorem State.updPeer_via {s : State} {i : Nat} {g : Peer → Peer} (hs : State.Via M S s) (hk : [.beam] ⊆ M) :
    State.Via M S (State.updPeer s i g) := by
  unfold State.updPeer
  exact State.updBeam_via hs (sub hk)

theorem State.beamQueue_via {s : State} {i : Nat} {f : BeamFrame} (hs : State.Via M S s) (hk : [.net] ⊆ M) :
    State.Via M S (State.beamQueue s i f) := by
  unfold State.beamQueue
  split
  · exact hs
  · extract_lets port0 q1 src2
    exact State.enqueue_via hs (sub hk)

theorem State.beamPlain_via {s : State} {i : Nat} {kind : Nat} {flags : Nat} {win : Nat} {off : Nat} (hs : State.Via M
      S s)
    (hk : [.cnt, .net] ⊆ M) : State.Via M S (State.beamPlain s i kind flags win off) := by
  unfold State.beamPlain
  split
  · exact State.beamQueue_via (State.egress_via hs (sub hk)) (sub hk)
  · exact hs

theorem State.beamSend_via {s : State} {i : Nat} {f : BeamFrame} (hs : State.Via M S s)
    (hk : [.cnt, .net, .beam] ⊆ M) : State.Via M S (State.beamSend s i f) := by
  unfold State.beamSend
  split
  · exact hs
  · extract_lets src0 f1 s2
    have hs2 : State.Via M S s2 := by
      unfold s2
      split
      · exact State.count_via hs (sub hk)
      · exact hs
    clear_value s2
    exact State.beamQueue_via (State.updPeer_via hs2 (sub hk)) (sub hk)

theorem State.beamSeq_via {s : State} {i : Nat} {kind : Nat} {flags : Nat} {win : Nat} {off : Nat} {len : Nat} {frag :
      Nat}
    {pl : List Byte} {ctl : Option BeamCtl} {chan : Option Nat} (hs : State.Via M S s) (hk : [.cnt, .net, .beam] ⊆ M)
      :
    State.Via M S (State.beamSeq s i kind flags win off len frag pl ctl chan) := by
  unfold State.beamSeq
  split
  · exact hs
  · extract_lets f0
    split
    · exact State.beamSend_via hs (sub hk)
    · exact State.updPeer_via hs (sub hk)

theorem State.beamControl_via {s : State} {i : Nat} {m : BeamCtl} (hs : State.Via M S s)
    (hk : [.cnt, .net, .beam] ⊆ M) : State.Via M S (State.beamControl s i m) := by
  unfold State.beamControl
  extract_lets w0
  exact State.beamSeq_via (State.egress_via hs (sub hk)) (sub hk)

theorem State.beamFill_via {s : State} {i : Nat} {a : Nat} (hs : State.Via M S s) (hk : [.cnt, .net, .beam] ⊆ M) :
    State.Via M S (State.beamFill s i a) := by
  fun_induction State.beamFill s i a
  · rename_i s0
    exact hs
  · rename_i s1 n2 x3
    exact hs
  · rename_i s4 n5 p6 x7 x8
    exact hs
  · rename_i s9 n10 p11 x12 f13 fs14 x15 h16 ih17
    exact ih17 (State.beamSend_via (State.updPeer_via hs (sub hk)) (sub hk))
  · rename_i s18 n19 p20 x21 f22 fs23 x24 h25
    exact hs

theorem State.beamResend_via {s : State} {i : Nat} (hs : State.Via M S s) (hk : [.cnt, .net] ⊆ M) :
    State.Via M S (State.beamResend s i) := by
  unfold State.beamResend
  split
  · exact hs
  · exact foldl_via hs (fun u0 u1 hu2 => State.beamQueue_via (State.count_via hu2 (sub hk)) (sub hk))

theorem State.beamStop_via {s : State} {p : Nat → DmaDesc → Bool} {status : Nat} (hs : State.Via M S s)
    (hk : [.dma] ⊆ M) : State.Via M S (State.beamStop s p status) := by
  unfold State.beamStop
  apply foldl_via
  · exact hs
  · intro u0 u1 hu2
    beta_reduce
    extract_lets e3 c4 ch5
    split
    · exact State.updChan_via hu2 (sub hk)
    · exact hu2

theorem State.regrant_via {s : State} {w : Fin 16} {always : Bool} (hs : State.Via M S s)
    (hk : [.cnt, .net, .beam] ⊆ M) :
    State.Via M S (State.regrant s w always) := by
  unfold State.regrant
  split
  · exact hs
  · extract_lets g0
    split
    · exact hs
    · exact State.beamPlain_via (State.setRx_via hs (sub hk)) (sub hk)

theorem State.regrantRegion_via {s : State} {f : Fin 16} {r : Fin 16} (hs : State.Via M S s)
    (hk : [.cnt, .net, .beam] ⊆ M) : State.Via M S (State.regrantRegion s f r) := by
  unfold State.regrantRegion
  apply foldl_via
  · exact hs
  · intro u0 u1 hu2
    beta_reduce
    split
    · split
      · exact State.regrant_via hu2 (sub hk)
      · exact hu2
    · exact hu2

theorem State.dropRx_via {s : State} {w : Fin 16} (hs : State.Via M S s) (hk : [.cnt, .facets, .net, .beam] ⊆ M) :
    State.Via M S (State.dropRx s w) := by
  unfold State.dropRx
  split
  · extract_lets s0 s1
    have hs0 : State.Via M S s0 := by
      unfold s0
      exact State.setRx_via hs (sub hk)
    clear_value s0
    have hs1 : State.Via M S s1 := by
      unfold s1
      split
      · split
        · exact hs0
        · exact State.regionRelease_via hs0 (sub hk)
      · exact hs0
    clear_value s1
    exact State.regrant_via hs1 (sub hk)
  · exact hs

theorem State.globalDone_via {s : State} {opId : Nat} {status : Nat} {map : Nat} (hs : State.Via M S s)
    (hk : [.out, .ring, .cnt, .note] ⊆ M) : State.Via M S (State.globalDone s opId status map) := by
  unfold State.globalDone
  exact State.placeRec_via hs (sub hk)

theorem State.dropOp_via {s : State} {op : GlobalOp} (hs : State.Via M S s) (hk : [.beam] ⊆ M) :
    State.Via M S (State.dropOp s op) := by
  unfold State.dropOp
  exact State.updBeam_via hs (sub hk)

theorem State.putOp_via {s : State} {op : GlobalOp} (hs : State.Via M S s) (hk : [.beam] ⊆ M) :
    State.Via M S (State.putOp s op) := by
  unfold State.putOp
  exact State.updBeam_via hs (sub hk)

theorem State.finishOp_via {s : State} {op : GlobalOp} {status : Nat} (hs : State.Via M S s)
    (hk : [.out, .ring, .cnt, .beam, .host, .note, .jnl] ⊆ M) : State.Via M S (State.finishOp s op status) := by
  unfold State.finishOp
  extract_lets s0 s1
  have hs0 : State.Via M S s0 := by
    unfold s0
    exact State.dropOp_via hs (sub hk)
  clear_value s0
  have hs1 : State.Via M S s1 := by
    unfold s1
    split
    · exact State.complete_via (State.bgEnd_via hs0 (sub hk)) (sub hk)
    · exact hs0
  clear_value s1
  exact State.globalDone_via hs1 (sub hk)

theorem State.barrierCheck_via {s : State} {opId : Nat} (hs : State.Via M S s)
    (hk : [.out, .ring, .cnt, .net, .beam, .host, .note, .jnl] ⊆ M) : State.Via M S (State.barrierCheck s opId) := by
  unfold State.barrierCheck
  split
  · exact hs
  · split
    · split
      · exact State.finishOp_via (foldl_via hs (fun u0 u1 hu2 => State.beamControl_via hu2 (sub hk))) (sub hk)
      · exact State.beamControl_via (State.putOp_via hs (sub hk)) (sub hk)
    · exact hs

theorem State.broadcastCheck_via {s : State} (hs : State.Via M S s)
    (hk : [.out, .ring, .cnt, .beam, .host, .note, .jnl] ⊆ M) : State.Via M S (State.broadcastCheck s) := by
  unfold State.broadcastCheck
  split
  · split
    · exact hs
    · exact State.finishOp_via hs (sub hk)
  · exact hs

theorem State.answerCheck_via {s : State} {op : GlobalOp} (hs : State.Via M S s)
    (hk : [.out, .ring, .cnt, .net, .beam, .note] ⊆ M) : State.Via M S (State.answerCheck s op) := by
  unfold State.answerCheck
  extract_lets all0 s1
  have hs1 : State.Via M S s1 := by
    unfold s1
    split
    · exact State.putOp_via hs (sub hk)
    · exact State.dropOp_via hs (sub hk)
  clear_value s1
  split
  · exact State.putOp_via hs (sub hk)
  · split
    · exact State.globalDone_via hs1 (sub hk)
    · exact State.beamControl_via hs1 (sub hk)

theorem State.globalLost_via {s : State} {i : Nat} (hs : State.Via M S s)
    (hk : [.out, .ring, .cnt, .net, .beam, .host, .note, .jnl] ⊆ M) : State.Via M S (State.globalLost s i) := by
  unfold State.globalLost
  split
  · apply foldl_via
    · exact hs
    · intro u0 u1 hu2
      beta_reduce
      split
      · split
        · exact State.dropOp_via hu2 (sub hk)
        · exact State.finishOp_via hu2 (sub hk)
      · split
        · exact State.answerCheck_via hu2 (sub hk)
        · exact hu2
  · exact hs

theorem State.beamState_via {s : State} {i : Nat} (hs : State.Via M S s) (hk : [.out, .ring, .cnt, .note] ⊆ M) :
    State.Via M S (State.beamState s i) := by
  unfold State.beamState
  split
  · exact State.event_via hs (sub hk)
  · exact hs

theorem State.peerLost_via {s : State} {i : Nat} (hs : State.Via M S s)
    (hk : [.out, .ring, .cnt, .facets, .dma, .net, .beam, .host, .note, .jnl] ⊆ M) :
    State.Via M S (State.peerLost s i) := by
  unfold State.peerLost
  extract_lets s0 s1 s2 s3
  have hs0 : State.Via M S s0 := by
    unfold s0
    exact State.updPeer_via hs (sub hk)
  clear_value s0
  have hs1 : State.Via M S s1 := by
    unfold s1
    exact State.beamState_via (State.count_via hs0 (sub hk)) (sub hk)
  clear_value s1
  have hs2 : State.Via M S s2 := by
    unfold s2
    exact State.beamStop_via hs1 (sub hk)
  clear_value s2
  have hs3 : State.Via M S s3 := by
    unfold s3
    apply foldl_via
    · exact hs2
    · intro u4 u5 hu6
      beta_reduce
      split
      · split
        · exact State.dropRx_via hu6 (sub hk)
        · exact hu6
      · exact hu6
  clear_value s3
  exact State.globalLost_via hs3 (sub hk)

theorem State.peerUp_via {s : State} {i : Nat} {epoch : Nat} (hs : State.Via M S s)
    (hk : [.out, .ring, .cnt, .net, .beam, .note] ⊆ M) : State.Via M S (State.peerUp s i epoch) := by
  unfold State.peerUp
  extract_lets up0
  exact State.beamFill_via (State.beamState_via (State.updPeer_via hs (sub hk)) (sub hk)) (sub hk)

theorem State.beamDiscard_via {s : State} {port : Fin 2} {h : BeamHdr} (hs : State.Via M S s) (hk : [.cnt] ⊆ M) :
    State.Via M S (State.beamDiscard s port h) := by
  unfold State.beamDiscard
  split
  · exact State.count_via hs (sub hk)
  · exact State.count_via hs (sub hk)

theorem State.reached_via {s : State} {done : List BeamFrame} (hs : State.Via M S s) (hk : [.dma] ⊆ M) :
    State.Via M S (State.reached s done) := by
  unfold State.reached
  apply foldl_via
  · exact hs
  · intro u0 f1 hu2
    beta_reduce
    split
    · split
      · exact State.updChan_via hu2 (sub hk)
      · exact hu2
    · exact hu2

theorem State.takeAck_via {s : State} {i : Nat} {ack : Nat} {refused : Option Nat} (hs : State.Via M S s)
    (hk : [.out, .ring, .cnt, .dma, .net, .beam, .host, .note, .jnl] ⊆ M) :
    State.Via M S (State.takeAck s i ack refused) := by
  unfold State.takeAck
  split
  · exact hs
  · extract_lets done0 s1 s1b s2 s3
    have hs1 : State.Via M S s1 := by
      unfold s1
      exact State.updPeer_via hs (sub hk)
    clear_value s1
    have hs1b : State.Via M S s1b := by
      unfold s1b
      exact State.reached_via hs1 (sub hk)
    clear_value s1b
    have hs2 : State.Via M S s2 := by
      unfold s2
      exact State.beamFill_via hs1b (sub hk)
    clear_value s2
    have hs3 : State.Via M S s3 := by
      unfold s3
      split
      · rename_i w4 w5
        extract_lets mine6 cs7
        exact State.beamStop_via hs2 (sub hk)
      · rename_i w8
        exact hs2
    clear_value s3
    split
    · exact hs
    · exact State.broadcastCheck_via hs3 (sub hk)

theorem State.inSequence_via {s : State} {h : BeamHdr} (hs : State.Via M S s)
    (hk : [.out, .ring, .cnt, .dma, .net, .beam, .host, .note, .jnl] ⊆ M) :
    State.Via M S (State.inSequence s h).2 := by
  unfold State.inSequence
  split
  · exact hs
  · split
    · dsimp -zeta only
      exact State.count_via hs (sub hk)
    · extract_lets s0 s1
      have hs0 : State.Via M S s0 := by
        unfold s0
        exact State.takeAck_via hs (sub hk)
      clear_value s0
      have hs1 : State.Via M S s1 := by
        unfold s1
        exact State.count_via hs0 (sub hk)
      clear_value s1
      split
      · dsimp -zeta only
        exact State.updPeer_via hs0 (sub hk)
      · dsimp -zeta only
        split
        · exact State.beamPlain_via hs1 (sub hk)
        · exact hs1

theorem State.noCredit_via {s : State} {h : BeamHdr} (hs : State.Via M S s) (hk : [.note] ⊆ M) :
    State.Via M S (State.noCredit s h) := by
  unfold State.noCredit
  exact State.tickFaultK_via hs (sub hk)

theorem State.openMsg_via {s : State} {w : Fin 16} {h : BeamHdr} (hs : State.Via M S s)
    (hk : [.cnt, .facets, .net, .beam, .note, .err] ⊆ M) : State.Via M S (State.openMsg s w h) := by
  unfold State.openMsg
  extract_lets s0 u1 k2
  have hs0 : State.Via M S s0 := by
    unfold s0
    exact State.dropRx_via hs (sub hk)
  clear_value s0
  split
  · exact hs0
  · extract_lets refuse3 taken4
    have hrefuse3 : State.Via M S refuse3 := by
      unfold refuse3
      exact State.setRx_via hs0 (sub hk)
    clear_value refuse3
    split
    · exact State.noCredit_via hrefuse3 (sub hk)
    · split
      · split
        · exact State.noCredit_via hrefuse3 (sub hk)
        · exact State.setRx_via hs0 (sub hk)
      · extract_lets g5
        split
        · exact State.highWater_via (State.updRegion_via (State.setRx_via hs0 (sub hk)) (sub hk)) (sub hk)
        · exact State.noCredit_via (State.regionOverrun_via hrefuse3 (sub hk)) (sub hk)

theorem State.returnUnits_via {s : State} {w : Fin 16} {len : Nat} {got : Nat} (hs : State.Via M S s)
    (hk : [.cnt, .net, .beam] ⊆ M) : State.Via M S (State.returnUnits s w len got) := by
  unfold State.returnUnits
  split
  · exact State.regrant_via (State.setRx_via hs (sub hk)) (sub hk)
  · exact hs

theorem State.landAll_via {s : State} {a : Nat} (hs : State.Via M S s)
    (hk : [.out, .upsets, .mem, .ring, .poison, .wbQueue, .cnt, .hbm, .img, .net, .beam, .note] ⊆ M) :
    State.Via M S (State.landAll s a) := by
  fun_induction State.landAll s a
  · rename_i s0
    exact hs
  · rename_i s1 n2 s3 x4
    have hs3 : State.Via M S s3 := by
      exact via2 x4 (State.landHead_via hs (sub hk))
    exact hs3
  · rename_i s5 n6 s7 x8 x9 ih10
    have hs7 : State.Via M S s7 := by
      exact via2 x9 (State.landHead_via hs (sub hk))
    apply ih10
    split
    · exact State.returnUnits_via hs7 (sub hk)
    · exact State.burstDone_via hs7 (sub hk)

theorem State.hbmReady_via {s : State} (hs : State.Via M S s)
    (hk : [.out, .upsets, .mem, .ring, .poison, .wbQueue, .cnt, .hbm, .img, .net, .beam, .note, .ready] ⊆ M) :
    State.Via M S (State.hbmReady s) := by
  unfold State.hbmReady
  extract_lets s0
  have hs0 : State.Via M S s0 := by
    unfold s0
    exact State.setReady_via (State.updHbm_via hs (sub hk) (fun _ => rfl)) (sub hk)
  clear_value s0
  exact State.landAll_via hs0 (sub hk)

theorem State.landing_via {s : State} {x : Stalled} (hs : State.Via M S s)
    (hk : [.out, .upsets, .mem, .ring, .poison, .wbQueue, .cnt, .hbm, .img, .net, .beam, .note] ⊆ M) :
    State.Via M S (State.landing s x) := by
  unfold State.landing
  split
  · exact State.landAll_via (State.stall_via hs (sub hk)) (sub hk)
  · exact State.stall_via hs (sub hk)

theorem State.closeMsg_via {s : State} {w : Fin 16} (hs : State.Via M S s)
    (hk : [.out, .upsets, .mem, .ring, .poison, .wbQueue, .cnt, .facets, .hbm, .img, .net, .beam, .note] ⊆ M) :
    State.Via M S (State.closeMsg s w) := by
  unfold State.closeMsg
  split
  · extract_lets s0
    have hs0 : State.Via M S s0 := by
      unfold s0
      exact State.setRx_via hs (sub hk)
    clear_value s0
    split
    · exact hs0
    · split
      · exact State.regrant_via (State.regionCommit_via hs0 (sub hk)) (sub hk)
      · exact State.landing_via hs0 (sub hk)
  · exact hs

theorem State.writeMsg_via {s : State} {w : Fin 16} {h : BeamHdr} {pl : List Byte} (hs : State.Via M S s)
    (hk : [.freeCtr, .out, .upsets, .mem, .ring, .poison, .wbQueue, .cnt, .hbm, .img, .net, .beam, .note] ⊆ M) :
    State.Via M S (State.writeMsg s w h pl).2 := by
  unfold State.writeMsg
  split
  · split
    · exact hs
    · extract_lets s0
      have hs0 : State.Via M S s0 := by
        unfold s0
        exact State.setRx_via hs (sub hk)
      clear_value s0
      dsimp -zeta only
      split
      · exact State.writeRing_via (State.yields_via hs0 (sub hk)) (sub hk)
      · exact State.landing_via hs0 (sub hk)
  · exact hs

theorem State.takePayload_via {s : State} {w : Fin 16} {h : BeamHdr} {payload : List Byte} (hs : State.Via M S s)
    (hk : [.freeCtr, .out, .upsets, .mem, .ring, .poison, .wbQueue, .cnt, .facets, .hbm, .img, .net, .beam, .note,
    .err] ⊆ M) :
    State.Via M S (State.takePayload s w h payload).2 := by
  unfold State.takePayload
  split
  · exact hs
  · split
    · dsimp -zeta only
      split
      · exact State.noCredit_via hs (sub hk)
      · exact hs
    · extract_lets s0
      have hs0 : State.Via M S s0 := by
        unfold s0
        split
        · exact State.openMsg_via hs (sub hk)
        · exact hs
      clear_value s0
      split
      rename_i x1 refused2 s3 heq4
      have hs3 : State.Via M S s3 := by
        exact via2 heq4 (State.writeMsg_via hs0 (sub hk))
      dsimp -zeta only
      split
      · exact State.closeMsg_via hs3 (sub hk)
      · exact hs3

theorem State.beamData_via {s : State} {w : Fin 16} {flags : Nat} {units : Nat} {off : Nat} {len : Nat} {frag : Nat}
    {pl : List Byte} {chan : Nat} (hs : State.Via M S s) (hk : [.cnt, .net, .beam] ⊆ M) :
    State.Via M S (State.beamData s w flags units off len frag pl chan) := by
  unfold State.beamData
  split
  · exact hs
  · extract_lets s0
    have hs0 : State.Via M S s0 := by
      unfold s0
      split
      · exact hs
      · exact State.setTx_via hs (sub hk)
    clear_value s0
    exact State.beamSeq_via hs0 (sub hk)

theorem State.forward_via {s : State} {h : BeamHdr} {pl : List Byte} (hs : State.Via M S s)
    (hk : [.out, .ring, .cnt, .net, .beam, .host, .note, .jnl] ⊆ M) : State.Via M S (State.forward s h pl) := by
  unfold State.forward
  split
  · exact hs
  · split
    · exact hs
    · extract_lets s0
      have hs0 : State.Via M S s0 := by
        unfold s0
        apply foldl_via
        · exact hs
        · intro u1 u2 hu3
          beta_reduce
          split
          · exact State.beamData_via (State.egress_via hu3 (sub hk)) (sub hk)
          · exact hu3
      clear_value s0
      split
      · exact State.broadcastCheck_via (State.putOp_via hs0 (sub hk)) (sub hk)
      · exact hs0

theorem State.beamFrame_via {s : State} {port : Fin 2} {eth : Eth} {kind : Nat} {hdr : List Byte}
    {take : BeamHdr → State → State} (hs : State.Via M S s)
    (htake : ∀ v0 v1, State.Via M S v1 → State.Via M S (take v0 v1)) (hk : [.cnt] ⊆ M) :
    State.Via M S (State.beamFrame s port eth kind hdr take) := by
  unfold State.beamFrame
  split
  · exact hs
  · split
    · exact State.count_via hs (sub hk)
    · extract_lets s0
      have hs0 : State.Via M S s0 := by
        unfold s0
        exact State.count_via hs (sub hk)
      clear_value s0
      split
      · apply htake
        exact hs0
      · exact State.beamDiscard_via hs0 (sub hk)

theorem State.takeData_via {s : State} {h : BeamHdr} {payload : List Byte} (hs : State.Via M S s)
    (hk : [.freeCtr, .out, .upsets, .mem, .ring, .poison, .wbQueue, .cnt, .facets, .hbm, .dma, .img, .net, .beam,
    .host, .note, .jnl, .err] ⊆ M) :
    State.Via M S (State.takeData s h payload) := by
  unfold State.takeData
  split
  rename_i x0 refused1 s2 heq3
  have hs2 : State.Via M S s2 := by
    exact via2 heq3 (State.inSequence_via hs (sub hk))
  split
  · exact hs2
  · extract_lets w4 s5
    have hs5 : State.Via M S s5 := by
      unfold s5
      exact State.count_via hs2 (sub hk)
    clear_value s5
    split
    rename_i x7 refused8 s9 heq10
    have hs9 : State.Via M S s9 := by
      exact via2 heq10 (State.takePayload_via hs5 (sub hk))
    extract_lets s12
    have hs12 : State.Via M S s12 := by
      unfold s12
      split
      · exact State.count_via hs9 (sub hk)
      · exact State.forward_via hs9 (sub hk)
    clear_value s12
    exact State.beamPlain_via hs12 (sub hk)

theorem execBeamData_via {port : Fin 2} {eth : Eth} {hdr : List Byte} {payload : List Byte} {s : State}
    (hs : State.Via M S s)
    (hk : [.freeCtr, .out, .upsets, .mem, .ring, .poison, .wbQueue, .cnt, .facets, .hbm, .dma, .img, .net, .beam,
    .host, .note, .jnl, .err] ⊆ M) :
    Keeps (State.Via M S) (execBeamData port eth hdr payload s) := by
  unfold execBeamData
  apply keeps_next
  apply State.beamFrame_via
  · exact hs
  · intro u0 u1 hu2
    beta_reduce
    split
    · exact State.takeData_via hu2 (sub hk)
    · exact State.beamDiscard_via hu2 (sub hk)
  · exact sub hk

theorem execBeamAck_via {port : Fin 2} {eth : Eth} {hdr : List Byte} {s : State} (hs : State.Via M S s)
    (hk : [.out, .ring, .cnt, .dma, .net, .beam, .host, .note, .jnl] ⊆ M) :
    Keeps (State.Via M S) (execBeamAck port eth hdr s) := by
  unfold execBeamAck
  exact keeps_next (State.beamFrame_via hs (fun u0 u1 hu2 => State.takeAck_via hu2 (sub hk)) (sub hk))

theorem State.takeCredit_via {s : State} {h : BeamHdr} (hs : State.Via M S s)
    (hk : [.out, .ring, .cnt, .dma, .net, .beam, .host, .note, .jnl] ⊆ M) :
    State.Via M S (State.takeCredit s h) := by
  unfold State.takeCredit
  apply foldl_via
  · exact State.takeAck_via hs (sub hk)
  · intro u0 u1 hu2
    beta_reduce
    split
    · split
      · exact State.setTx_via hu2 (sub hk)
      · exact hu2
    · exact hu2

theorem execBeamCredit_via {port : Fin 2} {eth : Eth} {hdr : List Byte} {s : State} (hs : State.Via M S s)
    (hk : [.out, .ring, .cnt, .dma, .net, .beam, .host, .note, .jnl] ⊆ M) :
    Keeps (State.Via M S) (execBeamCredit port eth hdr s) := by
  unfold execBeamCredit
  exact keeps_next (State.beamFrame_via hs (fun u0 u1 hu2 => State.takeCredit_via hu2 (sub hk)) (sub hk))

theorem State.takeHello_via {s : State} {h : BeamHdr} (hs : State.Via M S s)
    (hk : [.out, .ring, .cnt, .facets, .dma, .net, .beam, .host, .note, .jnl] ⊆ M) :
    State.Via M S (State.takeHello s h) := by
  unfold State.takeHello
  split
  · exact hs
  · split
    · split
      · exact State.peerUp_via (State.peerLost_via hs (sub hk)) (sub hk)
      · split
        · exact State.takeAck_via hs (sub hk)
        · exact hs
    · split
      · exact hs
      · exact State.peerUp_via hs (sub hk)

theorem execBeamHello_via {port : Fin 2} {eth : Eth} {hdr : List Byte} {s : State} (hs : State.Via M S s)
    (hk : [.out, .ring, .cnt, .facets, .dma, .net, .beam, .host, .note, .jnl] ⊆ M) :
    Keeps (State.Via M S) (execBeamHello port eth hdr s) := by
  unfold execBeamHello
  exact keeps_next (State.beamFrame_via hs (fun u0 u1 hu2 => State.takeHello_via hu2 (sub hk)) (sub hk))

theorem execHelloTimer_via {s : State} (hs : State.Via M S s) (hk : [.cnt, .net, .beam] ⊆ M) :
    Keeps (State.Via M S) (execHelloTimer s) := by
  unfold execHelloTimer
  extract_lets s0
  have hs0 : State.Via M S s0 := by
    unfold s0
    exact foldl_via hs (fun u1 u2 hu3 => State.beamPlain_via hu3 (sub hk))
  clear_value s0
  exact keeps_next (foldl_via hs0 (fun u4 u5 hu6 => State.regrant_via hu6 (sub hk)))

theorem execRetransmit_via {peer : Byte} {s : State} (hs : State.Via M S s)
    (hk : [.out, .ring, .cnt, .facets, .dma, .net, .beam, .host, .note, .jnl] ⊆ M) :
    Keeps (State.Via M S) (execRetransmit peer s) := by
  unfold execRetransmit
  extract_lets i0
  split
  · exact keeps_next hs
  · split
    · exact keeps_next hs
    · split
      · exact keeps_next (State.peerLost_via hs (sub hk))
      · exact keeps_next (State.beamResend_via (State.updPeer_via hs (sub hk)) (sub hk))

theorem execGlobalTimeout_via {kind : Fin 2} {s : State} (hs : State.Via M S s)
    (hk : [.out, .ring, .cnt, .tk, .hbm, .beam, .host, .note, .jnl, .idle] ⊆ M) :
    Keeps (State.Via M S) (execGlobalTimeout kind s) := by
  unfold execGlobalTimeout
  split
  · exact keeps_next (State.finishOp_via (State.setTime_via hs (sub hk)) (sub hk))
  · exact keeps_next hs

theorem State.systemLeft_via {s : State} {p : Peer} (hs : State.Via M S s) (hk : [.out, .ring, .cnt, .note] ⊆ M) :
    State.Via M S (State.systemLeft s p) := by
  unfold State.systemLeft
  split
  · exact State.event_via hs (sub hk)
  · exact hs

theorem State.setBeamSystem_via {s : State} {b : List Byte} (hs : State.Via M S s)
    (hk : [.out, .ring, .cnt, .net, .beam, .note] ⊆ M) : State.Via M S (State.setBeamSystem s b).2 := by
  unfold State.setBeamSystem
  extract_lets n0 idx1 hop2 et3 cnt4 es5 ids6 entry7 tree8 open9 ok10 was11 s12 s13 s14
  have hs12 : State.Via M S s12 := by
    unfold s12
    exact State.updBeam_via hs (sub hk)
  clear_value s12
  have hs13 : State.Via M S s13 := by
    unfold s13
    exact foldl_via hs12 (fun u15 u16 hu17 => State.systemLeft_via hu17 (sub hk))
  clear_value s13
  have hs14 : State.Via M S s14 := by
    unfold s14
    exact State.updPort_via hs13 (sub hk)
  clear_value s14
  split
  · dsimp -zeta only
    exact State.updPort_via hs14 (sub hk)
  · exact hs

theorem State.openWindow_via {s : State} {dir : Nat} {w : Nat} {peer : Nat} {kind : Nat} {facet : Nat} {region : Nat}
      {base : Nat}
    {size : Nat} (hs : State.Via M S s) (hk : [.cnt, .net, .beam] ⊆ M) :
    State.Via M S (State.openWindow s dir w peer kind facet region base size).2 := by
  unfold State.openWindow
  split
  · exact hs
  · split
    · exact hs
    · split
      · split
        · exact hs
        · extract_lets g0 ok1 d2 bytes3 s4
          have hs4 : State.Via M S s4 := by
            unfold s4
            exact State.setRx_via hs (sub hk)
          clear_value s4
          split
          · dsimp -zeta only
            exact State.regrant_via (State.beamControl_via hs4 (sub hk)) (sub hk)
          · exact hs
      · split
        · exact hs
        · split
          · split
            · dsimp -zeta only
              exact State.setTx_via hs (sub hk)
            · dsimp -zeta only
              exact State.setTx_via hs (sub hk)
          · exact hs

theorem State.dropEnds_via {s : State} {w : Fin 16} (hs : State.Via M S s) (hk : [.hbm] ⊆ M) :
    State.Via M S (State.dropEnds s w) := by
  unfold State.dropEnds
  exact State.updHbm_via hs (sub hk) (fun _ => rfl)

theorem State.closeRx_via {s : State} {w : Fin 16} (hs : State.Via M S s)
    (hk : [.cnt, .facets, .hbm, .net, .beam] ⊆ M) : State.Via M S (State.closeRx s w) := by
  unfold State.closeRx
  split
  · exact State.setRx_via (State.beamControl_via (State.dropEnds_via (State.dropRx_via hs (sub hk)) (sub hk)) (sub
      hk)) (sub hk)
  · exact hs

theorem State.closeWindow_via {s : State} {dir : Nat} {w : Nat} (hs : State.Via M S s)
    (hk : [.cnt, .facets, .hbm, .dma, .net, .beam] ⊆ M) : State.Via M S (State.closeWindow s dir w).2 := by
  unfold State.closeWindow
  split
  · exact hs
  · split
    · split
      · dsimp -zeta only
        exact State.closeRx_via hs (sub hk)
      · exact hs
    · split
      · extract_lets s0
        have hs0 : State.Via M S s0 := by
          unfold s0
          exact State.beamStop_via hs (sub hk)
        clear_value s0
        dsimp -zeta only
        exact State.setTx_via (State.beamControl_via hs0 (sub hk)) (sub hk)
      · exact hs

theorem State.autoClose_via {s : State} {w : Fin 16} (hs : State.Via M S s)
    (hk : [.out, .ring, .cnt, .facets, .hbm, .net, .beam, .note] ⊆ M) : State.Via M S (State.autoClose s w) := by
  unfold State.autoClose
  split
  · exact State.fault_via (State.closeRx_via hs (sub hk)) (sub hk)
  · exact hs

theorem State.autoCloseFor_via {s : State} {im : Image} {kept : List Partition} (hs : State.Via M S s)
    (hk : [.out, .ring, .cnt, .facets, .hbm, .net, .beam, .note] ⊆ M) :
    State.Via M S (State.autoCloseFor s im kept) := by
  unfold State.autoCloseFor
  apply foldl_via
  · exact hs
  · intro u0 u1 hu2
    beta_reduce
    split
    · extract_lets gone3
      split
      · exact State.autoClose_via hu2 (sub hk)
      · exact hu2
    · exact hu2

theorem State.clearPort_via {s : State} {port : Fin 2} (hs : State.Via M S s)
    (hk : [.freeCtr, .cnt, .net, .note] ⊆ M) : State.Via M S (State.clearPort s port) := by
  unfold State.clearPort
  extract_lets fs0 s1 s2
  have hs1 : State.Via M S s1 := by
    unfold s1
    exact State.updPort_via hs (sub hk)
  clear_value s1
  have hs2 : State.Via M S s2 := by
    unfold s2
    apply foldl_via
    · exact hs1
    · intro u3 u4 hu5
      beta_reduce
      split
      · exact State.updTmpl_via (State.count_via hu5 (sub hk)) (sub hk)
      · split
        · split
          · exact State.enqueue_via hu5 (sub hk)
          · exact hu5
        · exact hu5
      · exact hu5
  clear_value s2
  exact foldl_via hs2 (fun u6 u7 hu8 => State.nextFiring_via hu8 (sub hk))

theorem State.movePeers_via {s : State} {port : Fin 2} (hs : State.Via M S s) (hk : [.cnt, .net, .beam] ⊆ M) :
    State.Via M S (State.movePeers s port) := by
  unfold State.movePeers
  apply foldl_via
  · exact hs
  · intro u0 u1 hu2
    beta_reduce
    split
    · exact State.beamResend_via (State.updPeer_via hu2 (sub hk)) (sub hk)
    · exact hu2

theorem State.portDown_via {s : State} {port : Fin 2} (hs : State.Via M S s)
    (hk : [.freeCtr, .out, .ring, .cnt, .net, .beam, .note, .ready] ⊆ M) :
    State.Via M S (State.portDown s port) := by
  unfold State.portDown
  extract_lets s0 s1 slave2 s3
  have hs0 : State.Via M S s0 := by
    unfold s0
    exact State.updPort_via hs (sub hk)
  clear_value s0
  have hs1 : State.Via M S s1 := by
    unfold s1
    exact State.movePeers_via (State.clearPort_via (State.setReady_via hs0 (sub hk)) (sub hk)) (sub hk)
  clear_value s1
  have hs3 : State.Via M S s3 := by
    unfold s3
    exact State.updPtp_via hs1 (sub hk)
  clear_value s3
  split
  · exact hs3
  · split
    · exact State.selectMaster_via hs3 (sub hk)
    · exact State.masterLost_via hs3 (sub hk)

theorem execLinkDown_via {port : Fin 2} {s : State} (hs : State.Via M S s)
    (hk : [.freeCtr, .out, .ring, .cnt, .net, .beam, .note, .ready] ⊆ M) :
    Keeps (State.Via M S) (execLinkDown port s) := by
  unfold execLinkDown
  split
  · exact keeps_next (State.fault_via (State.count_via (State.portDown_via hs (sub hk)) (sub hk)) (sub hk))
  · exact keeps_next hs

theorem execLinkUp_via {port : Fin 2} {s : State} (hs : State.Via M S s) (hk : [.net, .ready] ⊆ M) :
    Keeps (State.Via M S) (execLinkUp port s) := by
  unfold execLinkUp
  split
  · exact keeps_next hs
  · exact keeps_next (State.setReady_via (State.updPort_via hs (sub hk)) (sub hk))

end Sys2Proof.Machine
end

