-- ==== Sys2Proof/Laws/ViaWave.lean ====
section
/-! SUPPORT. What each operation of the HBM stack and the waveform unit can change (Via.lean), one lemma an operation. -/

set_option Elab.async false

namespace Sys2Proof.Machine

variable {M : List Change} {S : State}

/-! ### Hbm -/

theorem State.patrolUnit_via {s : State} {f : Fin 16} {u : Nat} (hs : State.Via M S s)
    (hk : [.upsets, .poison, .wbQueue, .cnt, .note, .err] ⊆ M) : State.Via M S (State.patrolUnit s f u) := by
  unfold State.patrolUnit
  extract_lets a0
  clear_value a0
  split
  · exact hs
  · split
    · exact State.mark_via (State.facetReport_via (State.count_via (State.clearUpset_via hs (sub hk)) (sub hk)) (sub hk))
        (sub hk)
    · exact State.readUnit_via hs (sub hk)

theorem execPatrolRead_via {f : Fin 16} {_others : List Req} {s : State} (hs : State.Via M S s)
    (hk : [.upsets, .poison, .wbQueue, .cnt, .facets, .note, .err] ⊆ M) :
    Keeps (State.Via M S) (execPatrolRead f _others s) := by
  unfold execPatrolRead
  split
  · exact keeps_next hs
  · extract_lets row0 s1 s2
    clear_value row0
    have hs1 : State.Via M S s1 := by
      unfold s1
      split
      · exact hs
      · exact foldl_via hs (fun u3 u4 hu5 => State.patrolUnit_via hu5 (sub hk))
    clear_value s1
    have hs2 : State.Via M S s2 := by
      unfold s2
      exact State.updFacet_via hs1 (sub hk)
    clear_value s2
    apply keeps_next
    split
    · exact State.count_via hs2 (sub hk)
    · exact hs2

theorem State.wbDrop_via {s : State} {u : Nat} (hs : State.Via M S s) (hk : [.wbQueue] ⊆ M) :
    State.Via M S (State.wbDrop s u) := by
  unfold State.wbDrop
  exact hs.upd (State.via_wbQueue rfl) (sub hk)

theorem execScrubWriteback_via {f : Fin 16} {others : List Req} {s : State} (hs : State.Via M S s)
    (hk : [.upsets, .wbQueue] ⊆ M) : Keeps (State.Via M S) (execScrubWriteback f others s) := by
  unfold execScrubWriteback
  split
  · exact keeps_next hs
  · split
    · exact keeps_next hs
    · extract_lets me0
      clear_value me0
      split
      · exact keeps_next (State.wbDrop_via hs (sub hk))
      · split
        · exact keeps_next hs
        · exact keeps_next (State.clearUpset_via (State.wbDrop_via hs (sub hk)) (sub hk))

theorem State.stackFault_via {s : State} {status : Nat} (hs : State.Via M S s) (hk : [.out, .ring, .cnt, .note] ⊆ M) :
    State.Via M S (State.stackFault s status) := by
  unfold State.stackFault
  exact State.fault_via hs (sub hk)

theorem execHbmTempRead_via {t : Int} {s : State} (hs : State.Via M S s) (hk : [.out, .ring, .cnt, .hbm, .note] ⊆ M) :
    Keeps (State.Via M S) (execHbmTempRead t s) := by
  unfold execHbmTempRead
  split
  · exact keeps_next hs
  · extract_lets crossed0 since1 cool2 s3
    clear_value crossed0 since1 cool2
    have hs3 : State.Via M S s3 := by
      unfold s3
      exact State.updHbm_via hs (sub hk) (fun _ => rfl)
    clear_value s3
    apply keeps_next
    split
    · exact State.stackFault_via hs3 (sub hk)
    · exact hs3

theorem execEcsRead_via {counts : List Nat} {s : State} (hs : State.Via M S s) (hk : [.cnt] ⊆ M) :
    Keeps (State.Via M S) (execEcsRead counts s) := by
  unfold execEcsRead
  split
  · exact keeps_next (foldl_via hs (fun u0 u1 hu2 => State.setCtr_via hu2 (sub hk)))
  · exact keeps_next hs

theorem execHbmRecalibration_via {s : State} (hs : State.Via M S s) :
    Keeps (State.Via M S) (execHbmRecalibration s) := by
  unfold execHbmRecalibration
  exact keeps_next hs

theorem execHbmPowerDown_via {c : Fin 16} {s : State} (hs : State.Via M S s) (hk : [.hbm] ⊆ M) :
    Keeps (State.Via M S) (execHbmPowerDown c s) := by
  unfold execHbmPowerDown
  split
  · exact keeps_next (State.updHbm_via hs (sub hk) (fun _ => rfl))
  · exact keeps_next hs

/-! ### Waveform -/

theorem State.updWav_via {s : State} {g : Wav → Wav} (hs : State.Via M S s) (hk : [.wav] ⊆ M) :
    State.Via M S (State.updWav s g) := by
  unfold State.updWav
  exact hs.upd (State.via_wav rfl) (sub hk)

theorem State.setConv_via {s : State} {k : Fin 16} {c : Conv} (hs : State.Via M S s) (hk : [.wav] ⊆ M) :
    State.Via M S (State.setConv s k c) := by
  unfold State.setConv
  exact State.updWav_via hs (sub hk)

theorem State.updConv_via {s : State} {k : Fin 16} {g : Conv → Conv} (hs : State.Via M S s) (hk : [.wav] ⊆ M) :
    State.Via M S (State.updConv s k g) := by
  unfold State.updConv
  exact State.setConv_via hs (sub hk)

theorem State.setInput_via {s : State} {i : Fin 64} {x : Input} (hs : State.Via M S s) (hk : [.wav] ⊆ M) :
    State.Via M S (State.setInput s i x) := by
  unfold State.setInput
  exact State.updWav_via hs (sub hk)

theorem State.setWindow_via {s : State} {w : Fin 8} {x : Option WaveWin} (hs : State.Via M S s) (hk : [.wav] ⊆ M) :
    State.Via M S (State.setWindow s w x) := by
  unfold State.setWindow
  exact State.updWav_via hs (sub hk)

theorem State.takePeriod_via {s : State} {c : ConvCfg} {inst : Nat} (hs : State.Via M S s) (hk : [.wav] ⊆ M) :
    State.Via M S (State.takePeriod s c inst).2 := by
  unfold State.takePeriod
  extract_lets m0
  clear_value m0
  split
  · dsimp -zeta only
    exact State.updWav_via hs (sub hk)
  · split
    · split
      · dsimp -zeta only
        exact State.updWav_via hs (sub hk)
      · exact hs
    · exact hs

theorem State.setSlice_via {s : State} {k : Nat} {c : Core} (hs : State.Via M S s) (hk : [.wav] ⊆ M) :
    State.Via M S (State.setSlice s k c) := by
  unfold State.setSlice
  split
  · exact State.updWav_via hs (sub hk)
  · exact State.updConv_via hs (sub hk)

theorem State.missWord_via {s : State} {k : Fin 16} {idx : Nat} {input : Nat} (hs : State.Via M S s) (hk : [.wav] ⊆ M)
      :
    State.Via M S (State.missWord s k idx input) := by
  unfold State.missWord
  extract_lets i0
  exact State.setInput_via (State.updConv_via hs (sub hk)) (sub hk)

theorem State.missSample_via {s : State} {k : Fin 16} {idx : Nat} {input : Nat} (hs : State.Via M S s)
    (hk : [.cnt, .wav, .note] ⊆ M) : State.Via M S (State.missSample s k idx input) := by
  unfold State.missSample
  exact State.tickFault_via (State.count_via (State.missWord_via hs (sub hk)) (sub hk)) (sub hk)

theorem State.takeHandover_via {s : State} {k : Nat} {hold : Nat} (hs : State.Via M S s) (hk : [.wav] ⊆ M) :
    State.Via M S (State.takeHandover s k hold).2 := by
  unfold State.takeHandover
  split
  · split
    · dsimp -zeta only
      exact State.updWav_via hs (sub hk)
    · exact hs
  · exact hs

theorem State.holdOn_via {s : State} {slice : Nat} {h : Held} (hs : State.Via M S s) (hk : [.wav] ⊆ M) :
    State.Via M S (State.holdOn s slice h) := by
  unfold State.holdOn
  exact State.setSlice_via hs (sub hk)

theorem State.holdSample_via {s : State} {h : Held} (hs : State.Via M S s) (hk : [.cnt, .wav, .note] ⊆ M) :
    State.Via M S (State.holdSample s h) := by
  unfold State.holdSample
  extract_lets k0 s1 main2 other3
  clear_value k0 main2 other3
  have hs1 : State.Via M S s1 := by
    unfold s1
    exact State.updConv_via hs (sub hk)
  clear_value s1
  split
  · exact State.missWord_via hs1 (sub hk)
  · split
    rename_i x4 both5 s6 heq7
    have hs6 : State.Via M S s6 := by
      exact via2 heq7 (State.takeHandover_via hs1 (sub hk))
    extract_lets h8 a9 b10
    clear_value h8 a9 b10
    split
    · exact State.holdOn_via (State.holdOn_via hs6 (sub hk)) (sub hk)
    · split
      · exact State.holdOn_via hs6 (sub hk)
      · split
        · exact State.holdOn_via hs6 (sub hk)
        · exact State.missSample_via hs6 (sub hk)

theorem State.holdDue_via {s : State} {k : Fin 16} {t : Nat} {a : Nat} (hs : State.Via M S s)
    (hk : [.cnt, .wav, .note] ⊆ M) : State.Via M S (State.holdDue s k t a) := by
  fun_induction State.holdDue s k t a
  · rename_i s0
    exact hs
  · rename_i s1 n2 h3 tail4 x5 h6 ih7
    exact ih7 (State.holdSample_via hs (sub hk))
  · rename_i s8 n9 h10 tail11 x12 h13
    exact hs
  · rename_i s14 n15 x16
    exact hs

theorem State.holdAll_via {s : State} {t : Nat} (hs : State.Via M S s) (hk : [.cnt, .wav, .note] ⊆ M) :
    State.Via M S (State.holdAll s t) := by
  unfold State.holdAll
  exact foldl_via hs (fun u0 u1 hu2 => State.holdDue_via hu2 (sub hk))

theorem State.holdNow_via {s : State} (hs : State.Via M S s) (hk : [.cnt, .wav, .note] ⊆ M) :
    State.Via M S (State.holdNow s) := by
  unfold State.holdNow
  exact State.holdAll_via hs (sub hk)

theorem State.takeTrim_via {s : State} (hs : State.Via M S s) (hk : [.wav] ⊆ M) :
    State.Via M S (State.takeTrim s) := by
  unfold State.takeTrim
  split
  · exact State.updWav_via hs (sub hk)
  · exact hs

theorem State.trigSample_via {s : State} {c : ConvCfg} {k : Fin 16} {inst : Nat} {rate : Bool} (hs : State.Via M S s)
    (hk : [.wav] ⊆ M) : State.Via M S (State.trigSample s c k inst rate) := by
  unfold State.trigSample
  extract_lets e0 idx1 s2 hold3 hdr4 h5
  clear_value e0 idx1 hold3 hdr4 h5
  have hs2 : State.Via M S s2 := by
    unfold s2
    split
    · exact State.takeTrim_via hs (sub hk)
    · exact hs
  clear_value s2
  exact State.updConv_via hs2 (sub hk)

theorem State.waveRecord_via {s : State} {w part mask : Nat} {x : WaveWin} {last : Nat} {gap : Bool}
    (hs : State.Via M S s) (hk : [.out, .ring, .cnt, .note] ⊆ M) :
    State.Via M S (State.waveRecord s w part mask x last gap) := by
  unfold State.waveRecord
  exact State.eventAt_via hs (sub hk)

theorem State.closeWave_via {s : State} {c : ConvCfg} {w : Fin 8} (hs : State.Via M S s)
    (hk : [.out, .ring, .cnt, .wav, .note] ⊆ M) : State.Via M S (State.closeWave s c w) := by
  unfold State.closeWave
  split
  · exact hs
  · extract_lets e0 ks1
    clear_value e0 ks1
    split
    · exact hs
    · split
      · exact State.waveRecord_via (State.setWindow_via hs (sub hk)) (sub hk)
      · exact hs

theorem State.closeWaves_via {s : State} {c : ConvCfg} (hs : State.Via M S s)
    (hk : [.out, .ring, .cnt, .wav, .note] ⊆ M) : State.Via M S (State.closeWaves s c) := by
  unfold State.closeWaves
  exact foldl_via hs (fun u0 u1 hu2 => State.closeWave_via hu2 (sub hk))

theorem State.retireWave_via {s : State} {c : ConvCfg} {w : Fin 8} (hs : State.Via M S s) (hk : [.wav] ⊆ M) :
    State.Via M S (State.retireWave s c w) := by
  unfold State.retireWave
  split
  · exact hs
  · extract_lets e0 ks1
    clear_value e0 ks1
    split
    · exact hs
    · exact State.updWav_via hs (sub hk)

theorem State.closeOld_via {s : State} (hs : State.Via M S s) (hk : [.out, .ring, .cnt, .wav, .note] ⊆ M) :
    State.Via M S (State.closeOld s) := by
  unfold State.closeOld
  exact foldl_via (State.updWav_via hs (sub hk)) (fun u0 u1 hu2 => State.waveRecord_via hu2 (sub hk))

theorem State.sampleTrigger_via {s : State} (hs : State.Via M S s)
    (hk : [.out, .ring, .cnt, .tk, .hbm, .wav, .note, .idle] ⊆ M) : State.Via M S (State.sampleTrigger s) := by
  unfold State.sampleTrigger
  split
  · exact hs
  · split
    · exact hs
    · extract_lets m0 s1
      clear_value m0
      have hs1 : State.Via M S s1 := by
        unfold s1
        exact State.holdAll_via (State.setTime_via hs (sub hk)) (sub hk)
      clear_value s1
      split
      rename_i x2 both3 s4 heq5
      have hs4 : State.Via M S s4 := by
        exact via2 heq5 (State.takePeriod_via hs1 (sub hk))
      extract_lets s6
      have hs6 : State.Via M S s6 := by
        unfold s6
        apply foldl_via
        · exact hs4
        · intro u7 u8 hu9
          beta_reduce
          split
          · exact State.trigSample_via hu9 (sub hk)
          · exact hu9
      clear_value s6
      exact State.closeWaves_via (State.updWav_via (State.holdAll_via hs6 (sub hk)) (sub hk)) (sub hk)

theorem State.openWave_via {s : State} {c : ConvCfg} {w : Fin 8} {input : Nat} {time : Nat} (hs : State.Via M S s)
    (hk : [.out, .ring, .cnt, .wav, .note] ⊆ M) : State.Via M S (State.openWave s c w input time) := by
  unfold State.openWave
  split
  · exact State.count_via hs (sub hk)
  · extract_lets e0 ks1 lo2 fs3 cut4 raw5 newest6 oldest7
    clear_value e0 ks1 lo2 fs3 cut4 raw5 newest6 oldest7
    exact State.closeWave_via (State.count_via (State.setWindow_via hs (sub hk)) (sub hk)) (sub hk)

theorem State.fireEnvelope_via {s : State} {c : ConvCfg} {i : Fin 64} {e : InputEnt} {word : Nat} {hold : Nat}
    (hs : State.Via M S s) (hk : [.freeCtr, .out, .ring, .cnt, .img, .wav, .net, .note] ⊆ M) :
    State.Via M S (State.fireEnvelope s c i e word hold) := by
  unfold State.fireEnvelope
  extract_lets t0 tick1 pl2 s3 s4 s5 s6
  clear_value t0 tick1 pl2
  have hs3 : State.Via M S s3 := by
    unfold s3
    exact State.eventAt_via (State.count_via hs (sub hk)) (sub hk)
  clear_value s3
  have hs4 : State.Via M S s4 := by
    unfold s4
    split
    · exact State.updWav_via hs3 (sub hk)
    · exact hs3
  clear_value s4
  have hs5 : State.Via M S s5 := by
    unfold s5
    split
    · split
      · exact State.updImg_via hs4 (sub hk)
      · exact hs4
    · exact hs4
  clear_value s5
  have hs6 : State.Via M S s6 := by
    unfold s6
    exact State.fireWhere_via hs5 (sub hk)
  clear_value s6
  apply foldl_via
  · exact hs6
  · intro u7 u8 hu9
    beta_reduce
    split
    · exact State.openWave_via hu9 (sub hk)
    · exact hu9

theorem State.envelope_via {s : State} {c : ConvCfg} {i : Fin 64} {idx : Nat} {word : Nat} {hold : Nat} {y : Int}
    (hs : State.Via M S s) (hk : [.freeCtr, .out, .ring, .cnt, .img, .wav, .net, .note] ⊆ M) :
    State.Via M S (State.envelope s c i idx word hold y) := by
  unfold State.envelope
  extract_lets e0 x1 met2 x3 until4
  clear_value e0 x1 met2 x3 until4
  split
  · split
    · exact State.fireEnvelope_via (State.setInput_via hs (sub hk)) (sub hk)
    · exact State.setInput_via hs (sub hk)
  · exact State.setInput_via hs (sub hk)
  · exact State.setInput_via hs (sub hk)

theorem State.openWireSample_via {s : State} {input : Nat} {hold : Nat} {y : Int} (hs : State.Via M S s)
    (hk : [.wav] ⊆ M) : State.Via M S (State.openWireSample s input hold y) := by
  unfold State.openWireSample
  split
  · split
    · extract_lets old0
      clear_value old0
      exact State.updWav_via hs (sub hk)
    · exact hs
  · exact hs

theorem State.openWireCode_via {s : State} {input : Nat} {y : Int} (hs : State.Via M S s) (hk : [.wav] ⊆ M) :
    State.Via M S (State.openWireCode s input y) := by
  unfold State.openWireCode
  split
  · split
    · exact State.updWav_via hs (sub hk)
    · exact hs
  · exact hs

theorem State.urgentResult_via {s : State} {u : Urgent} {x : Int} {err : Bool} (hs : State.Via M S s)
    (hk : [.freeCtr, .out, .ring, .cnt, .wav, .net, .note] ⊆ M) : State.Via M S (State.urgentResult s u x err) := by
  unfold State.urgentResult
  extract_lets k0 cr1 s2 tick3
  clear_value k0 cr1 tick3
  have hs2 : State.Via M S s2 := by
    unfold s2
    exact State.count_via hs (sub hk)
  clear_value s2
  split
  split
  · exact State.openWireCode_via hs2 (sub hk)
  · extract_lets flags4 pl5 s6
    clear_value flags4 pl5
    have hs6 : State.Via M S s6 := by
      unfold s6
      exact State.eventAt_via hs2 (sub hk)
    clear_value s6
    exact State.fireWhere_via hs6 (sub hk)

theorem State.pairResult_via {s : State} {h : Held} {x : Int} (hs : State.Via M S s)
    (hk : [.out, .ring, .cnt, .wav, .note] ⊆ M) : State.Via M S (State.pairResult s h x) := by
  unfold State.pairResult
  split
  · exact hs
  · split
    · split
      · extract_lets s0
        have hs0 : State.Via M S s0 := by
          unfold s0
          exact State.updWav_via hs (sub hk)
        clear_value s0
        split
        · exact State.fault_via (State.count_via hs0 (sub hk)) (sub hk)
        · exact hs0
      · exact State.updWav_via hs (sub hk)
    · exact State.updWav_via hs (sub hk)

theorem State.streamResult_via {s : State} {k : Fin 16} {h : Held} {x : Int} (hs : State.Via M S s)
    (hk : [.freeCtr, .out, .ring, .cnt, .img, .wav, .net, .note] ⊆ M) :
    State.Via M S (State.streamResult s k h x) := by
  unfold State.streamResult
  extract_lets i0 s1 cr2 err3
  clear_value cr2 err3
  have hs1 : State.Via M S s1 := by
    unfold s1
    exact State.setInput_via hs (sub hk)
  clear_value s1
  split
  extract_lets flags4 word5 s6 s7 s8 s9 s10
  clear_value flags4 word5
  have hs6 : State.Via M S s6 := by
    unfold s6
    exact State.updConv_via hs1 (sub hk)
  clear_value s6
  have hs7 : State.Via M S s7 := by
    unfold s7
    split
    · exact State.count_via hs6 (sub hk)
    · exact hs6
  clear_value s7
  have hs8 : State.Via M S s8 := by
    unfold s8
    split
    · exact State.count_via hs7 (sub hk)
    · exact hs7
  clear_value s8
  have hs9 : State.Via M S s9 := by
    unfold s9
    exact State.openWireSample_via hs8 (sub hk)
  clear_value s9
  have hs10 : State.Via M S s10 := by
    unfold s10
    split
    · split
      · exact State.updImg_via hs9 (sub hk)
      · exact hs9
    · exact hs9
  clear_value s10
  split
  · exact hs9
  · split
    · exact State.envelope_via hs10 (sub hk)
    · exact hs10

theorem execConversionDone_via {k : Fin 17} {code : BitVec 18} {s : State} (hs : State.Via M S s)
    (hk : [.freeCtr, .out, .ring, .cnt, .tk, .hbm, .img, .wav, .net, .note, .idle] ⊆ M) :
    Keeps (State.Via M S) (execConversionDone k code s) := by
  unfold execConversionDone
  extract_lets x0 s1 s2
  clear_value x0
  have hs1 : State.Via M S s1 := by
    unfold s1
    exact State.holdNow_via hs (sub hk)
  clear_value s1
  have hs2 : State.Via M S s2 := by
    unfold s2
    split
    · unfold Option.elim
      split
      · rename_i x3 x4 x5 x6 x7 h8 heq9
        exact State.holdAll_via hs1 (sub hk)
      · rename_i x10 x11 x12 x13 h14 heq15
        exact hs1
    · exact hs1
  clear_value s2
  split
  · exact keeps_next hs2
  · extract_lets s16 c17 s18
    clear_value c17
    have hs16 : State.Via M S s16 := by
      unfold s16
      exact State.setTime_via (State.holdAll_via hs2 (sub hk)) (sub hk)
    clear_value s16
    have hs18 : State.Via M S s18 := by
      unfold s18
      exact State.setSlice_via hs16 (sub hk)
    clear_value s18
    apply keeps_next
    split
    · exact State.urgentResult_via hs18 (sub hk)
    · extract_lets s19
      have hs19 : State.Via M S s19 := by
        unfold s19
        exact State.pairResult_via hs18 (sub hk)
      clear_value s19
      split
      · exact hs19
      · exact State.streamResult_via hs19 (sub hk)
    · extract_lets s20
      have hs20 : State.Via M S s20 := by
        unfold s20
        exact State.pairResult_via hs18 (sub hk)
      clear_value s20
      split
      · exact hs20
      · exact State.streamResult_via hs20 (sub hk)
    · exact hs18

theorem execHoldoffExpiry_via {i : Fin 64} {s : State} (hs : State.Via M S s)
    (hk : [.cnt, .tk, .hbm, .wav, .idle] ⊆ M) :
    Keeps (State.Via M S) (execHoldoffExpiry i s) := by
  unfold execHoldoffExpiry
  extract_lets x0
  clear_value x0
  split
  · exact keeps_next (State.setInput_via (State.setTime_via hs (sub hk)) (sub hk))
  · exact keeps_next hs

theorem State.refuseUrgent_via {s : State} {k : Fin 16} (hs : State.Via M S s) (hk : [.cnt, .note] ⊆ M) :
    State.Via M S (State.refuseUrgent s k) := by
  unfold State.refuseUrgent
  exact State.tickFault_via (State.count_via hs (sub hk)) (sub hk)

theorem State.serveUrgent_via {s : State} {u : Urgent} (hs : State.Via M S s) (hk : [.wav] ⊆ M) :
    State.Via M S (State.serveUrgent s u).2 := by
  unfold State.serveUrgent
  extract_lets k0 v1 slice2 u3
  clear_value v1 slice2 u3
  split
  · dsimp -zeta only
    exact State.setSlice_via hs (sub hk)
  · exact hs

theorem execUrgentRequest_via {s : State} (hs : State.Via M S s) (hk : [.cnt, .wav, .note] ⊆ M) :
    Keeps (State.Via M S) (execUrgentRequest s) := by
  unfold execUrgentRequest
  split
  · exact keeps_next hs
  · extract_lets k0 s1
    clear_value k0
    have hs1 : State.Via M S s1 := by
      unfold s1
      exact State.holdNow_via (State.updWav_via hs (sub hk)) (sub hk)
    clear_value s1
    split
    · exact keeps_next (State.refuseUrgent_via hs1 (sub hk))
    · split
      rename_i x2 both3 s4 heq5
      have hs4 : State.Via M S s4 := by
        exact via2 heq5 (State.serveUrgent_via hs1 (sub hk))
      apply keeps_next
      split
      · exact hs4
      · exact State.refuseUrgent_via hs4 (sub hk)

theorem execSpareSelfCalibration_via {s : State} (hs : State.Via M S s)
    (hk : [.cnt, .tk, .hbm, .wav, .note, .idle] ⊆ M) :
    Keeps (State.Via M S) (execSpareSelfCalibration s) := by
  unfold execSpareSelfCalibration
  split
  · extract_lets s0
    have hs0 : State.Via M S s0 := by
      unfold s0
      exact State.setTime_via hs (sub hk)
    clear_value s0
    exact keeps_next (State.updWav_via (State.holdNow_via hs0 (sub hk)) (sub hk))
  · exact keeps_next hs

theorem execCalibrationSlot_via {s : State} (hs : State.Via M S s) (hk : [.cnt, .tk, .hbm, .wav, .note, .idle] ⊆ M) :
    Keeps (State.Via M S) (execCalibrationSlot s) := by
  unfold execCalibrationSlot
  split
  · exact keeps_next hs
  · extract_lets r0 s1 s2 k3 active4
    clear_value r0 k3 active4
    have hs1 : State.Via M S s1 := by
      unfold s1
      exact State.holdAll_via hs (sub hk)
    clear_value s1
    have hs2 : State.Via M S s2 := by
      unfold s2
      exact State.setTime_via hs1 (sub hk)
    clear_value s2
    exact keeps_next (State.holdNow_via (State.updWav_via hs2 (sub hk)) (sub hk))

theorem execCalibrationReturn_via {ok : Bool} {s : State} (hs : State.Via M S s)
    (hk : [.out, .ring, .cnt, .tk, .hbm, .wav, .note, .idle] ⊆ M) : Keeps (State.Via M S) (execCalibrationReturn ok
    s) := by
  unfold execCalibrationReturn
  split
  · exact keeps_next hs
  · extract_lets r0 back1 k2 s3 s4
    clear_value r0 back1 k2
    have hs3 : State.Via M S s3 := by
      unfold s3
      exact State.holdAll_via (State.setTime_via hs (sub hk)) (sub hk)
    clear_value s3
    have hs4 : State.Via M S s4 := by
      unfold s4
      exact State.count_via hs3 (sub hk)
    clear_value s4
    split
    · split
      · exact keeps_next hs3
      · exact keeps_next (State.holdNow_via (State.updWav_via hs4 (sub hk)) (sub hk))
    · split
      · exact keeps_next (State.updConv_via hs3 (sub hk))
      · exact keeps_next (State.fault_via (State.updWav_via hs3 (sub hk)) (sub hk))

theorem execAdcRefSettled_via {s : State} (hs : State.Via M S s)
    (hk : [.cnt, .tk, .hbm, .wav, .note, .idle, .ready] ⊆ M) :
    Keeps (State.Via M S) (execAdcRefSettled s) := by
  unfold execAdcRefSettled
  split
  · extract_lets s0 s1
    have hs0 : State.Via M S s0 := by
      unfold s0
      exact State.holdNow_via (State.setTime_via hs (sub hk)) (sub hk)
    clear_value s0
    have hs1 : State.Via M S s1 := by
      unfold s1
      exact State.updWav_via hs0 (sub hk)
    clear_value s1
    apply keeps_next
    split
    · exact hs1
    · exact State.setReady_via (State.setReady_via hs1 (sub hk)) (sub hk)
  · exact keeps_next hs

theorem execWaveRefFault_via {s : State} (hs : State.Via M S s) (hk : [.out, .ring, .cnt, .wav, .note, .ready] ⊆ M) :
    Keeps (State.Via M S) (execWaveRefFault s) := by
  unfold execWaveRefFault
  split
  · exact keeps_next (State.fault_via (State.setReady_via (State.setReady_via (State.updWav_via (State.holdNow_via hs
      (sub hk)) (sub hk)) (sub hk)) (sub hk)) (sub hk))
  · exact keeps_next hs

theorem State.askReadings_via {s : State} {o : OpenWire} (hs : State.Via M S s) (hk : [.wav] ⊆ M) :
    State.Via M S (State.askReadings s o) := by
  unfold State.askReadings
  apply foldl_via
  · exact hs
  · intro u0 u1 hu2
    beta_reduce
    split
    · exact hu2
    · exact State.serveUrgent_via hu2 (sub hk)

theorem State.phaseOver_via {s : State} {o : OpenWire} (hs : State.Via M S s)
    (hk : [.freeCtr, .out, .ring, .cnt, .wav, .note] ⊆ M) : State.Via M S (State.phaseOver s o) := by
  unfold State.phaseOver
  extract_lets rs0 s1 opens2 s3
  clear_value rs0 opens2
  have hs1 : State.Via M S s1 := by
    unfold s1
    exact State.drawn_via hs (sub hk)
  clear_value s1
  have hs3 : State.Via M S s3 := by
    unfold s3
    exact State.event_via (State.updWav_via hs1 (sub hk)) (sub hk)
  clear_value s3
  split
  · exact State.updWav_via hs1 (sub hk)
  · split
    · exact hs3
    · exact State.fault_via hs3 (sub hk)

theorem execOpenWirePhaseEnd_via {s : State} (hs : State.Via M S s)
    (hk : [.freeCtr, .out, .ring, .cnt, .tk, .hbm, .wav, .note, .idle] ⊆ M) :
    Keeps (State.Via M S) (execOpenWirePhaseEnd s) := by
  unfold execOpenWirePhaseEnd
  split
  · exact keeps_next hs
  · extract_lets s0
    have hs0 : State.Via M S s0 := by
      unfold s0
      exact State.holdNow_via (State.setTime_via hs (sub hk)) (sub hk)
    clear_value s0
    split
    · exact keeps_next hs0
    · split
      · exact keeps_next (State.askReadings_via hs0 (sub hk))
      · exact keeps_next (State.phaseOver_via hs0 (sub hk))

/-! ### WaveBlocks -/

theorem State.outageWrite_via {s : State} {keep : Bool} {time0 : Nat} {bs : List Byte} (hs : State.Via M S s)
    (hk : [.mem, .cnt, .wav] ⊆ M) : State.Via M S (State.outageWrite s keep time0 bs) := by
  unfold State.outageWrite
  extract_lets o0 s1 o4
  clear_value o0 o4
  have hs1 : State.Via M S s1 := by
    unfold s1
    exact State.writeB_via hs (sub hk)
  clear_value s1
  split
  · exact State.count_via hs (sub hk)
  · exact State.count_via (State.writeB_via (State.updWav_via hs1 (sub hk)) (sub hk)) (sub hk)

theorem State.outageStart_via {s : State} (hs : State.Via M S s) (hk : [.mem, .wav] ⊆ M) :
    State.Via M S (State.outageStart s) := by
  unfold State.outageStart
  extract_lets o0
  clear_value o0
  exact State.writeB_via (State.updWav_via hs (sub hk)) (sub hk)

theorem State.outageEnd_via {s : State} (hs : State.Via M S s) (hk : [.out, .ring, .cnt, .wav, .note] ⊆ M) :
    State.Via M S (State.outageEnd s) := by
  unfold State.outageEnd
  split
  · exact State.event_via (State.updWav_via hs (sub hk)) (sub hk)
  · exact hs

theorem State.dropBlock_via {s : State} {k : Fin 16} {seq : Nat} (hs : State.Via M S s) (hk : [.cnt, .wav] ⊆ M) :
    State.Via M S (State.dropBlock s k seq) := by
  unfold State.dropBlock
  exact State.count_via (State.updConv_via hs (sub hk)) (sub hk)

theorem State.takeBlock_via {s : State} {c : ConvCfg} {k : Fin 16} {seq : Nat} {bs : List Byte} {bad : Bool}
    (hs : State.Via M S s) (hk : [.freeCtr, .upsets, .mem, .poison, .wbQueue, .cnt, .facets, .wav, .note, .err] ⊆ M) :
    State.Via M S (State.takeBlock s c k seq bs bad) := by
  unfold State.takeBlock
  extract_lets e0 bads1 dma2 hist3 b4 s5 s6
  clear_value e0 bads1 dma2 hist3 b4
  have hs5 : State.Via M S s5 := by
    unfold s5
    exact State.updConv_via hs (sub hk)
  clear_value s5
  have hs6 : State.Via M S s6 := by
    unfold s6
    exact State.count_via hs5 (sub hk)
  clear_value s6
  split
  · split
    rename_i x7 ok8 s9 heq10
    have hs9 : State.Via M S s9 := by
      exact via2 heq10 (State.regionDeliver_via hs6 (sub hk))
    split
    · exact hs9
    · exact State.count_via hs9 (sub hk)
  · exact hs6

theorem State.finishBlock_via {s : State} {c : ConvCfg} {k : Fin 16} {bad : Bool} (hs : State.Via M S s)
    (hk : [.freeCtr, .upsets, .mem, .poison, .wbQueue, .cnt, .facets, .wav, .note, .err] ⊆ M) :
    State.Via M S (State.finishBlock s c k bad) := by
  unfold State.finishBlock
  extract_lets e0 v1 seq2 bs3 keep4 s4
  clear_value e0 v1 seq2 bs3 keep4
  have hs4 : State.Via M S s4 := by
    unfold s4
    split
    · exact State.outageWrite_via hs (sub hk)
    · exact hs
  clear_value s4
  split
  · exact State.dropBlock_via hs (sub hk)
  · split
    · split
      · exact State.count_via (State.updConv_via hs4 (sub hk)) (sub hk)
      · split
        · exact State.count_via (State.updConv_via hs4 (sub hk)) (sub hk)
        · exact State.dropBlock_via hs4 (sub hk)
    · split
      · exact State.tickFault_via (State.dropBlock_via hs (sub hk)) (sub hk)
      · exact State.takeBlock_via hs (sub hk)

theorem execBlockComplete_via {k : Fin 16} {bad : Bool} {s : State} (hs : State.Via M S s)
    (hk : [.freeCtr, .upsets, .mem, .poison, .wbQueue, .cnt, .facets, .wav, .note, .err] ⊆ M) :
    Keeps (State.Via M S) (execBlockComplete k bad s) := by
  unfold execBlockComplete
  split
  · exact keeps_next hs
  · split
    · exact keeps_next (State.finishBlock_via hs (sub hk))
    · exact keeps_next hs

theorem State.historyBlock_via {s : State} {k : Fin 16} (hs : State.Via M S s)
    (hk : [.out, .upsets, .mem, .ring, .poison, .wbQueue, .cnt, .hbm, .wav, .note] ⊆ M) :
    State.Via M S (State.historyBlock s k) := by
  unfold State.historyBlock
  split
  · exact hs
  · split
    · exact hs
    · split
      rename_i x0 ok1 s2 heq3
      have hs2 : State.Via M S s2 := by
        exact via2 heq3 (State.bucketPass_via hs (sub hk))
      split
      · exact hs2
      · extract_lets s4
        have hs4 : State.Via M S s4 := by
          unfold s4
          exact State.updConv_via (State.land_via hs2 (sub hk)) (sub hk)
        clear_value s4
        apply State.closeOld_via
        · unfold Option.elim
          split
          · exact State.closeWaves_via hs4 (sub hk)
          · exact hs4
        · exact sub hk

theorem execHistoryWrite_via {k : Fin 16} {s : State} (hs : State.Via M S s)
    (hk : [.out, .upsets, .mem, .ring, .poison, .wbQueue, .cnt, .hbm, .wav, .note] ⊆ M) :
    Keeps (State.Via M S) (execHistoryWrite k s) := by
  unfold execHistoryWrite
  exact keeps_next (State.historyBlock_via hs (sub hk))

theorem State.startConverters_via {s : State} {c : ConvCfg} {tick : Nat} {edge : Nat} (hs : State.Via M S s)
    (hk : [.wav] ⊆ M) : State.Via M S (State.startConverters s c tick edge) := by
  unfold State.startConverters
  extract_lets src0 conv1
  clear_value src0
  exact State.updWav_via hs (sub hk)

theorem State.finishBlocks_via {s : State} {c : ConvCfg} {k : Fin 16} {a : Nat} (hs : State.Via M S s)
    (hk : [.freeCtr, .upsets, .mem, .poison, .wbQueue, .cnt, .facets, .wav, .note, .err] ⊆ M) :
    State.Via M S (State.finishBlocks s c k a) := by
  fun_induction State.finishBlocks s c k a
  · rename_i s0
    exact hs
  · rename_i s1 n2 h3 ih4
    exact ih4 (State.finishBlock_via hs (sub hk))
  · rename_i s5 n6 h7
    exact hs

theorem State.closeConv_via {s : State} {c : ConvCfg} {k : Fin 16} (hs : State.Via M S s)
    (hk : [.freeCtr, .upsets, .mem, .poison, .wbQueue, .cnt, .facets, .wav, .note, .err] ⊆ M) :
    State.Via M S (State.closeConv s c k) := by
  unfold State.closeConv
  extract_lets v0 miss1 e2 s3
  clear_value v0 miss1 e2
  have hs3 : State.Via M S s3 := by
    unfold s3
    exact State.setConv_via hs (sub hk)
  clear_value s3
  exact State.finishBlocks_via hs3 (sub hk)

theorem State.stopConverters_via {s0 : State} (hs : State.Via M S s0)
    (hk : [.freeCtr, .out, .upsets, .mem, .ring, .poison, .wbQueue, .cnt, .facets, .wav, .note, .err] ⊆ M) :
    State.Via M S (State.stopConverters s0) := by
  unfold State.stopConverters
  extract_lets s0
  have hs0 : State.Via M S s0 := by
    unfold s0
    exact State.holdNow_via hs (sub hk)
  clear_value s0
  split
  · exact hs0
  · extract_lets s1 s2
    unfold s2
    have hs1 : State.Via M S s1 := by
      unfold s1
      apply foldl_via
      · exact hs0
      · intro u2 u3 hu4
        beta_reduce
        split
        · exact State.closeConv_via hu4 (sub hk)
        · exact hu4
    clear_value s1
    apply State.closeOld_via
    · exact State.updWav_via (foldl_via (State.closeWaves_via hs1 (sub hk))
        (fun u0 u1 hu2 => State.retireWave_via hu2 (sub hk))) (sub hk)
    · exact sub hk

theorem State.setAnalogRef_via {s : State} {b : List Byte} (hs : State.Via M S s)
    (hk : [.cnt, .wav, .note, .ready] ⊆ M) : State.Via M S (State.setAnalogRef s b).2 := by
  unfold State.setAnalogRef
  split
  · exact hs
  · split
    · split
      · exact hs
      · dsimp -zeta only
        exact State.updWav_via hs (sub hk)
    · split
      · exact hs
      · dsimp -zeta only
        exact State.setReady_via (State.setReady_via (State.updWav_via (State.holdNow_via hs (sub hk)) (sub hk)) (sub
          hk)) (sub hk)

theorem State.setWavePeriod_via {s : State} {b : List Byte} (hs : State.Via M S s) (hk : [.wav] ⊆ M) :
    State.Via M S (State.setWavePeriod s b).2 := by
  unfold State.setWavePeriod
  extract_lets p0
  clear_value p0
  split
  · exact hs
  · extract_lets fits1
    clear_value fits1
    split
    · dsimp -zeta only
      exact State.updWav_via hs (sub hk)
    · exact hs

theorem State.setWaveCal_via {s : State} {b : List Byte} (hs : State.Via M S s) (hk : [.cnt, .wav, .note] ⊆ M) :
    State.Via M S (State.setWaveCal s b).2 := by
  unfold State.setWaveCal
  extract_lets is0 ent1
  clear_value is0
  split
  · exact hs
  · split
    · dsimp -zeta only
      apply foldl_via
      · exact State.holdNow_via hs (sub hk)
      · intro u2 u3 hu4
        beta_reduce
        extract_lets i5 v6 x7
        clear_value v6 x7
        exact State.setInput_via hu4 (sub hk)
    · exact hs

theorem State.setOpenWire_via {s : State} {b : List Byte} (hs : State.Via M S s) (hk : [.cnt, .wav, .note] ⊆ M) :
    State.Via M S (State.setOpenWire s b).2 := by
  unfold State.setOpenWire
  split
  · exact hs
  · split
    · exact hs
    · dsimp -zeta only
      exact State.updWav_via (State.holdNow_via hs (sub hk)) (sub hk)

end Sys2Proof.Machine
end

