-- ==== Sys2Proof/Laws/ViaDma.lean ====
section
/-! SUPPORT. What each operation of the DMA engines can change (Via.lean), one lemma an operation. -/

set_option Elab.async false

namespace Sys2Proof.Machine

variable {M : List Change} {S : State}

/-! ### Dma -/

theorem State.descEgress_via {s : State} {d : DmaDesc} (hs : State.Via M S s) (hk : [.cnt, .note] ⊆ M) :
    State.Via M S (State.descEgress s d).2 := by
  unfold State.descEgress
  extract_lets path0 ok1
  clear_value path0 ok1
  split
  · exact hs
  · split
    · dsimp -zeta only
      exact State.judged_via hs (sub hk)
    · exact State.judgeTransfer_via hs (sub hk)

theorem State.checkDesc_via {s : State} {e : Fin 5} {c : Fin 8} {b : List Byte} (hs : State.Via M S s)
    (hk : [.cnt, .note] ⊆ M) : State.Via M S (State.checkDesc s e c b).2 := by
  unfold State.checkDesc
  extract_lets d0
  clear_value d0
  split
  · exact hs
  · split
    · exact hs
    · split
      · exact hs
      · split
        · exact hs
        · split
          · exact hs
          · split
            rename_i x1 ok2 s3 heq4
            have hs3 : State.Via M S s3 := by
              exact via2 heq4 (State.descEgress_via hs (sub hk))
            split
            · exact hs3
            · split
              · exact hs3
              · split <;> exact hs3

theorem State.armChan_via {s : State} {e : Fin 5} {c : Fin 8} {i : Nat} (hs : State.Via M S s) (hk : [.dma] ⊆ M) :
    State.Via M S (State.armChan s e c i) := by
  unfold State.armChan
  exact State.updChan_via hs (sub hk)

theorem State.armPreloads_via {s : State} (hs : State.Via M S s) (hk : [.sched, .dma] ⊆ M) :
    State.Via M S (State.armPreloads s) := by
  unfold State.armPreloads
  split
  · exact hs
  · apply foldl_via hs
    intro u i hu
    beta_reduce
    split
    · extract_lets e0 c1 free2
      clear_value e0 c1 free2
      split
      · exact State.armChan_via (State.updSched_via hu (sub hk)) (sub hk)
      · exact hu
    · exact hu

theorem State.preloadEnd_via {s : State} {e : Fin 5} {c : Fin 8} (hs : State.Via M S s) (hk : [.sched, .dma] ⊆ M) :
    State.Via M S (State.preloadEnd s e c) := by
  unfold State.preloadEnd
  split
  · exact hs
  · split
    · exact State.armPreloads_via (State.updSched_via hs (sub hk)) (sub hk)
    · exact hs

theorem State.tmplDone_via {s : State} {t : TmplStatus} (hs : State.Via M S s) (hk : [.tmplStatus] ⊆ M) :
    State.Via M S (State.tmplDone s t) := by
  unfold State.tmplDone
  exact hs.upd (State.via_tmplStatus rfl) (sub hk)

theorem State.writeBack_via {s : State} {e : Fin 5} {addr : Nat} {d : DmaDesc} {status residue time seq : Nat}
    (hs : State.Via M S s) (hk : [.freeCtr, .upsets, .mem, .poison, .wbQueue, .cnt, .hbm] ⊆ M) :
    State.Via M S (State.writeBack s e addr d status residue time seq) := by
  unfold State.writeBack
  extract_lets s0 s1
  have hs0 : State.Via M S s0 := by
    unfold s0
    split
    · exact State.egress_via hs (sub hk)
    · exact State.yieldsAt_via hs (sub hk)
  clear_value s0
  have hs1 : State.Via M S s1 := by
    unfold s1
    exact State.writeMerged_via (State.writeMerged_via hs0 (sub hk)) (sub hk)
  clear_value s1
  split
  · exact hs
  · split
    · exact State.countPages_via hs1 (sub hk)
    · exact hs1

theorem State.setLatch_via {s : State} {e : Fin 5} {c : Fin 8} (hs : State.Via M S s) (hk : [.cnt, .dma] ⊆ M) :
    State.Via M S (State.setLatch s e c) := by
  unfold State.setLatch
  split
  · exact State.count_via hs (sub hk)
  · exact State.updChan_via hs (sub hk)

theorem State.drained_via {s : State} (hs : State.Via M S s) (hk : [.cnt, .hbm] ⊆ M) :
    State.Via M S (State.drained s) := by
  unfold State.drained
  extract_lets busy0
  clear_value busy0
  split
  · exact State.count_via (State.updHbm_via hs (sub hk) (fun _ => rfl)) (sub hk)
  · exact hs

theorem State.unfull_via {s : State} {e : Fin 5} {c : Fin 8} (hs : State.Via M S s) (hk : [.dma] ⊆ M) :
    State.Via M S (State.unfull s e c) := by
  unfold State.unfull
  exact hs.upd (State.via_dma rfl) (sub hk)

theorem State.finishDesc_via {s : State} {e : Fin 5} {c : Fin 8} {status : Nat} {residue : Nat} {abortHalts : Bool}
    (hs : State.Via M S s)
    (hk : [.freeCtr, .out, .upsets, .mem, .ring, .poison, .wbQueue, .cnt, .sched, .hbm, .dma, .tmplStatus, .note] ⊆
      M) :
    State.Via M S (State.finishDesc s e c status residue abortHalts) := by
  unfold State.finishDesc
  extract_lets ch0 seq1 halts2 time3 s3 s4 s5 id6 s7 s8 nxt9 cc10 s11
  clear_value ch0 seq1 halts2 time3 id6 nxt9 cc10
  have hs3 : State.Via M S s3 := by
    unfold s3
    exact State.count_via (State.unfull_via hs (sub hk)) (sub hk)
  clear_value s3
  have hs4 : State.Via M S s4 := by
    unfold s4
    split
    · exact hs3
    · exact State.count_via hs3 (sub hk)
  clear_value s4
  have hs5 : State.Via M S s5 := by
    unfold s5
    split
    · exact State.writeBack_via hs4 (sub hk)
    · exact State.tmplDone_via hs4 (sub hk)
  clear_value s5
  have hs7 : State.Via M S s7 := by
    unfold s7
    split
    · exact State.event_via hs5 (sub hk)
    · exact hs5
  clear_value s7
  have hs8 : State.Via M S s8 := by
    unfold s8
    split
    · exact State.fault_via hs7 (sub hk)
    · exact hs7
  clear_value s8
  have hs11 : State.Via M S s11 := by
    unfold s11
    exact State.setLatch_via (State.updChan_via hs8 (sub hk)) (sub hk)
  clear_value s11
  apply State.drained_via
  · split
    · exact hs11
    · exact State.preloadEnd_via hs11 (sub hk)
  · exact sub hk

theorem State.endDesc_via {s : State} {e : Fin 5} {c : Fin 8} {status : Nat} {residue : Nat} {abortHalts : Bool}
    (hs : State.Via M S s)
    (hk : [.freeCtr, .out, .upsets, .mem, .ring, .poison, .wbQueue, .cnt, .sched, .hbm, .dma, .tmplStatus, .note] ⊆
      M) :
    State.Via M S (State.endDesc s e c status residue abortHalts) := by
  unfold State.endDesc
  extract_lets n0
  clear_value n0
  apply State.finishDesc_via
  · split
    · exact hs
    · exact State.takeBucket_via hs (sub hk)
  · exact sub hk

theorem State.takeDesc_via {s : State} {e : Fin 5} {c : Fin 8} {b : List Byte} (hs : State.Via M S s)
    (hk : [.freeCtr, .out, .upsets, .mem, .ring, .poison, .wbQueue, .cnt, .sched, .hbm, .dma, .tmplStatus, .note] ⊆
    M) :
    State.Via M S (State.takeDesc s e c b) := by
  unfold State.takeDesc
  extract_lets d0
  clear_value d0
  split
  rename_i x1 st2 s3 heq4
  have hs3 : State.Via M S s3 := by
    exact via2 heq4 (State.checkDesc_via hs (sub hk))
  extract_lets s5
  have hs5 : State.Via M S s5 := by
    unfold s5
    exact State.updChan_via hs3 (sub hk)
  clear_value s5
  split
  · exact hs5
  · exact State.endDesc_via hs5 (sub hk)

theorem State.readDesc_via {s : State} {e : Fin 5} {c : Fin 8} {a : Nat} (hs : State.Via M S s)
    (hk : [.freeCtr, .out, .upsets, .mem, .ring, .poison, .wbQueue, .cnt, .sched, .hbm, .dma, .tmplStatus, .img,
      .note, .err] ⊆ M) :
    State.Via M S (State.readDesc s e c a) := by
  unfold State.readDesc
  split
  rename_i x0 b1 fst2 s3 heq4
  have hs3 : State.Via M S s3 := by
    exact via3 heq4 (State.readDev_via (State.yieldsAt_via hs (sub hk)) (sub hk))
  extract_lets s5
  have hs5 : State.Via M S s5 := by
    unfold s5
    split
    · exact State.countPages_via hs3 (sub hk)
    · exact hs3
  clear_value s5
  split
  · exact State.takeDesc_via hs5 (sub hk)
  · split
    · exact State.updChan_via hs5 (sub hk)
    · exact State.endDesc_via (State.updChan_via hs5 (sub hk)) (sub hk)

theorem State.fetchDesc_via {s : State} {e : Fin 5} {c : Fin 8} (hs : State.Via M S s)
    (hk : [.freeCtr, .out, .upsets, .mem, .ring, .poison, .wbQueue, .cnt, .sched, .hbm, .dma, .tmplStatus, .img,
      .note, .err] ⊆ M) :
    State.Via M S (State.fetchDesc s e c) := by
  unfold State.fetchDesc
  split
  · split
    · exact State.takeDesc_via hs (sub hk)
    · exact State.preloadEnd_via (State.updChan_via hs (sub hk)) (sub hk)
  · split
    · exact State.endDesc_via (State.updChan_via hs (sub hk)) (sub hk)
    · split
      rename_i x0 ok1 s2 heq3
      have hs2 : State.Via M S s2 := by
        exact via2 heq3 (State.bucketPass_via hs (sub hk))
      split
      · exact State.readDesc_via hs2 (sub hk)
      · exact hs2

theorem State.fetchStep_via {s : State} {e : Fin 5} {c : Fin 8} (hs : State.Via M S s)
    (hk : [.freeCtr, .out, .upsets, .mem, .ring, .poison, .wbQueue, .cnt, .sched, .hbm, .dma, .tmplStatus, .img,
      .note, .err] ⊆ M) :
    State.Via M S (State.fetchStep s e c) := by
  unfold State.fetchStep
  split
  · exact State.fetchDesc_via hs (sub hk)
  · exact hs

theorem execHostChannelPoll_via {c : Fin 8} {s : State} (hs : State.Via M S s)
    (hk : [.freeCtr, .out, .upsets, .mem, .ring, .poison, .wbQueue, .cnt, .sched, .hbm, .dma, .tmplStatus, .img,
      .note, .err] ⊆ M) :
    Keeps (State.Via M S) (execHostChannelPoll c s) := by
  unfold execHostChannelPoll
  split
  · exact keeps_next (State.fetchDesc_via (State.count_via hs (sub hk)) (sub hk))
  · exact keeps_next hs

theorem State.reserveFor_via {s : State} {e : Fin 5} {c : Fin 8} (hs : State.Via M S s)
    (hk : [.cnt, .facets, .dma, .note, .err] ⊆ M) : State.Via M S (State.reserveFor s e c) := by
  unfold State.reserveFor
  extract_lets d0 k1
  clear_value d0 k1
  split
  · exact hs
  · split
    · exact hs
    · split
      · exact State.updChan_via (State.highWater_via (State.updRegion_via hs (sub hk)) (sub hk)) (sub hk)
      · exact State.updChan_via (State.regionOverrun_via hs (sub hk)) (sub hk)

theorem execDescriptorStart_via {e : Fin 5} {c : Fin 8} {s : State} (hs : State.Via M S s)
    (hk : [.cnt, .tk, .facets, .hbm, .dma, .note, .err, .idle] ⊆ M) :
    Keeps (State.Via M S) (execDescriptorStart e c s) := by
  unfold execDescriptorStart
  extract_lets ch0 s1 s2 s3
  clear_value ch0
  have hs1 : State.Via M S s1 := by
    unfold s1
    split
    · exact State.setTime_via hs (sub hk)
    · exact hs
  clear_value s1
  have hs2 : State.Via M S s2 := by
    unfold s2
    split
    · exact State.updChan_via hs1 (sub hk)
    · exact hs1
  clear_value s2
  have hs3 : State.Via M S s3 := by
    unfold s3
    exact State.count_via hs2 (sub hk)
  clear_value s3
  split
  · exact keeps_next (State.reserveFor_via (State.updChan_via hs3 (sub hk)) (sub hk))
  · exact keeps_next hs

theorem State.dmaMeet_via {s : State} {m : Meet} (hs : State.Via M S s) (hk : [.cnt, .file, .note, .err] ⊆ M) :
    State.Via M S (State.dmaMeet s m) := by
  unfold State.dmaMeet
  extract_lets f0
  clear_value f0
  split
  · exact State.count_via hs (sub hk)
  · apply foldl_via
    · exact hs
    · intro u1 u2 hu3
      beta_reduce
      split
      · extract_lets g4 s5
        clear_value g4
        have hs5 : State.Via M S s5 := by
          unfold s5
          exact State.count_via hu3 (sub hk)
        clear_value s5
        split
        · exact State.updFacet_file (State.facetError_via (State.count_via hs5 (sub hk)) (sub hk)) (sub hk) (fun _ =>
            rfl)
        · exact hs5
      · exact hu3

theorem State.readBurst_via {s : State} {e : Fin 5} {c : Fin 8} {b : Burst1} (hs : State.Via M S s)
    (hk : [.freeCtr, .out, .upsets, .mem, .ring, .poison, .wbQueue, .cnt, .hbm, .dma, .img, .wav, .note, .err] ⊆ M) :
    State.Via M S (State.readBurst s e c b).2.2 := by
  unfold State.readBurst
  extract_lets ch0 d1 k2 s3
  have hs3 : State.Via M S s3 := by
    unfold s3
    split
    · extract_lets g4
      clear_value g4
      split
      · exact State.updChan_via (State.updStream_via hs (sub hk)) (sub hk)
      · exact hs
    · exact hs
  clear_value s3
  split
  · split
    rename_i x5 blk6 bad7 s8 heq9
    have hs8 : State.Via M S s8 := by
      refine via3 heq9 ?_
      split
      · split
        · dsimp -zeta only
          exact State.updConv_via hs (sub hk)
        · exact hs
      · exact hs
    extract_lets s10
    have hs10 : State.Via M S s10 := by
      unfold s10
      exact State.updChan_via hs8 (sub hk)
    clear_value s10
    exact hs10
  · split
    rename_i x11 b12 fst13 s14 heq15
    have hs14 : State.Via M S s14 := by
      exact via3 heq15 (State.readDev_via hs3 (sub hk))
    extract_lets s16
    have hs16 : State.Via M S s16 := by
      unfold s16
      split
      · exact State.countPages_via hs14 (sub hk)
      · exact hs14
    clear_value s16
    exact hs16

theorem State.lastWrite_via {s : State} {e : Fin 5} {c : Fin 8} (hs : State.Via M S s) (hk : [.dma] ⊆ M) :
    State.Via M S (State.lastWrite s e c) := by
  unfold State.lastWrite
  exact State.updChan_via hs (sub hk)

theorem State.writeOut_via {s : State} {e : Fin 5} {c : Fin 8} {off : Nat} {bs : List Byte} {bads : List Nat}
    (hs : State.Via M S s) (hk : [.upsets, .mem, .poison, .wbQueue, .cnt, .hbm, .dma, .note] ⊆ M) :
    State.Via M S (State.writeOut s e c off bs bads) := by
  unfold State.writeOut
  extract_lets ch0 a2 s1
  clear_value ch0 a2
  have hs1 : State.Via M S s1 := by
    unfold s1
    exact State.lastWrite_via (State.count_via hs (sub hk)) (sub hk)
  clear_value s1
  split
  · exact State.updChan_via hs (sub hk)
  · split
    · exact State.writeRing_via hs1 (sub hk)
    · split
      rename_i x3 s4 lost5 heq6
      have hs4 : State.Via M S s4 := by
        exact via1 heq6 (State.writeDev_via hs1 (sub hk))
      extract_lets s7
      have hs7 : State.Via M S s7 := by
        unfold s7
        split
        · exact State.markWrite_via (State.countPages_via hs4 (sub hk)) (sub hk)
        · exact hs4
      clear_value s7
      split
      · exact State.tickFault_via (State.updChan_via hs7 (sub hk)) (sub hk)
      · exact hs7

theorem State.sendOut_via {s : State} {e : Fin 5} {c : Fin 8} {first : Bool} {frag : Nat} {bs : List Byte}
    {bads : List Nat} {last : Bool} (hs : State.Via M S s) (hk : [.cnt, .dma, .net, .beam] ⊆ M) :
    State.Via M S (State.sendOut s e c first frag bs bads last) := by
  unfold State.sendOut
  extract_lets d0 flags1 units2
  clear_value d0 flags1 units2
  split
  · exact State.updChan_via hs (sub hk)
  · exact State.beamData_via (State.count_via hs (sub hk)) (sub hk)

theorem State.feedExp_via {s : State} {e : Fin 5} {c : Fin 8} {bs : List Byte} {bad : Bool} (hs : State.Via M S s)
    (hk : [.cnt, .exp] ⊆ M) : State.Via M S (State.feedExp s e c bs bad) := by
  unfold State.feedExp
  extract_lets p0 q1 done2 old3 all4 unread5
  clear_value q1 done2 old3 all4 unread5
  exact State.count_via (hs.upd (State.via_exp rfl) (sub hk)) (sub hk)

theorem State.feedCnd_via {s : State} {e : Fin 5} {c : Fin 8} {bs : List Byte} {bads : List Nat} (hs : State.Via M S
      s)
    (hk : [.cnt, .cnd] ⊆ M) : State.Via M S (State.feedCnd s e c bs bads) := by
  unfold State.feedCnd
  extract_lets p0 old1 all2
  clear_value old1 all2
  exact State.count_via (hs.upd (State.via_cnd rfl) (sub hk)) (sub hk)

theorem State.doBurst_via {s : State} {e : Fin 5} {c : Fin 8} {b : Burst1} (hs : State.Via M S s)
    (hk : [.freeCtr, .out, .upsets, .mem, .ring, .poison, .wbQueue, .cnt, .hbm, .dma, .exp, .cnd, .img, .wav, .net,
      .beam, .note, .err] ⊆ M) :
    State.Via M S (State.doBurst s e c b) := by
  unfold State.doBurst
  extract_lets ch0 d1 s2
  clear_value ch0 d1
  have hs2 : State.Via M S s2 := by
    unfold s2
    exact State.count_via (State.count_via hs (sub hk)) (sub hk)
  clear_value s2
  split
  rename_i x3 b4 fst5 s6 heq7
  have hs6 : State.Via M S s6 := by
    exact via3 heq7 (State.readBurst_via hs2 (sub hk))
  extract_lets s8 s9 s10
  have hs8 : State.Via M S s8 := by
    unfold s8
    split
    · exact hs6
    · exact State.updChan_via (State.tickFaultK_via (State.count_via hs6 (sub hk)) (sub hk)) (sub hk)
  clear_value s8
  have hs9 : State.Via M S s9 := by
    unfold s9
    exact State.updChan_via hs8 (sub hk)
  clear_value s9
  have hs10 : State.Via M S s10 := by
    unfold s10
    split
    · exact State.sendOut_via hs9 (sub hk)
    · exact State.writeOut_via hs9 (sub hk)
  clear_value s10
  split
  · exact State.feedExp_via hs9 (sub hk)
  · split
    · exact State.feedCnd_via hs9 (sub hk)
    · split
      · split
        · exact State.updChan_via hs9 (sub hk)
        · exact State.updChan_via hs9 (sub hk)
      · exact State.updChan_via hs10 (sub hk)

theorem State.served_via {s : State} {e : Fin 5} {c : Fin 8} (hs : State.Via M S s) (hk : [.dma] ⊆ M) :
    State.Via M S (State.served s e c) := by
  unfold State.served
  extract_lets en0 l1
  clear_value en0
  exact hs.upd (State.via_dma rfl) (sub hk)

theorem State.dmaMeets_via {s : State} {ms : List Meet} (hs : State.Via M S s)
    (hk : [.cnt, .file, .note, .err] ⊆ M) : State.Via M S (State.dmaMeets s ms) := by
  unfold State.dmaMeets
  exact foldl_via hs (fun u0 u1 hu2 => State.dmaMeet_via hu2 (sub hk))

theorem State.issue_via {s : State} {e : Fin 5} {c : Fin 8} {b : Burst1} {ms : List Meet} (hs : State.Via M S s)
    (hk : [.freeCtr, .out, .upsets, .mem, .ring, .poison, .wbQueue, .cnt, .file, .hbm, .dma, .exp, .cnd, .img, .wav,
      .net, .beam, .note, .err] ⊆ M) :
    State.Via M S (State.issue s e c b ms) := by
  unfold State.issue
  split
  rename_i x1 ok2 s3 heq4
  have hs3 : State.Via M S s3 := by
    exact via2 heq4 (State.bucketPass_via hs (sub hk))
  split
  · exact State.doBurst_via (State.dmaMeets_via hs3 (sub hk)) (sub hk)
  · exact hs3

theorem State.markFull_via {s : State} {e : Fin 5} {cs : List (Fin 8)} (hs : State.Via M S s) (hk : [.dma] ⊆ M) :
    State.Via M S (State.markFull s e cs) := by
  unfold State.markFull
  exact hs.upd (State.via_dma rfl) (sub hk)

theorem execBurstIssue_via {e : Fin 5} {ms : List Meet} {s : State} (hs : State.Via M S s)
    (hk : [.freeCtr, .out, .upsets, .mem, .ring, .poison, .wbQueue, .cnt, .file, .hbm, .dma, .exp, .cnd, .img, .wav,
      .net, .beam, .note, .err] ⊆ M) :
    Keeps (State.Via M S) (execBurstIssue e ms s) := by
  unfold execBurstIssue
  split
  · exact keeps_next hs
  · extract_lets cs0 s1
    clear_value cs0
    have hs1 : State.Via M S s1 := by
      unfold s1
      exact State.markFull_via hs (sub hk)
    clear_value s1
    split
    · exact keeps_next hs1
    · split
      · exact keeps_next hs1
      · exact keeps_next (State.issue_via (State.served_via hs1 (sub hk)) (sub hk))

theorem State.countLanes_via {s : State} {src : Nat} {z : Nat} {lens : List Nat} (hs : State.Via M S s) (hk : [.cnt] ⊆
      M) :
    State.Via M S (State.countLanes s src z lens) := by
  unfold State.countLanes
  exact State.count_via (State.count_via (State.count_via hs (sub hk)) (sub hk)) (sub hk)

theorem State.setExp_via {s : State} {p : Fin 4} {v : List BlockSlot} (hs : State.Via M S s) (hk : [.exp] ⊆ M) :
    State.Via M S (State.setExp s p v) := by
  unfold State.setExp
  exact hs.upd (State.via_exp rfl) (sub hk)

theorem State.setCnd_via {s : State} {p : Fin 4} {v : Option BlockSlot} (hs : State.Via M S s) (hk : [.cnd] ⊆ M) :
    State.Via M S (State.setCnd s p v) := by
  unfold State.setCnd
  exact hs.upd (State.via_cnd rfl) (sub hk)

theorem State.blockFails_via {s : State} {p : Fin 4} {c : Fin 8} {b : BlockSlot} {st : Nat} {lanes : List Nat}
    (hs : State.Via M S s) (hk : [.cnt, .dma, .exp, .note] ⊆ M) :
    State.Via M S (State.blockFails s p c b st lanes) := by
  unfold State.blockFails
  extract_lets i0 s1
  clear_value i0
  have hs1 : State.Via M S s1 := by
    unfold s1
    exact State.countLanes_via (State.count_via (State.setExp_via hs (sub hk)) (sub hk)) (sub hk)
  clear_value s1
  exact State.updChan_via (State.tickFaultK_via hs1 (sub hk)) (sub hk)

theorem State.sendFrames_via {s : State} {e : Fin 5} {c : Fin 8} {last : Bool} {fs : List (Nat × List Byte)}
    (hs : State.Via M S s) (hk : [.cnt, .dma, .net, .beam] ⊆ M) :
    State.Via M S (State.sendFrames s e c last fs) := by
  induction fs generalizing s with
  | nil => exact hs
  | cons f fs ih => exact ih (State.updChan_via (State.sendOut_via hs (sub hk)) (sub hk))

theorem State.sendPiece_via {s : State} {e : Fin 5} {c : Fin 8} {off : Nat} {bs : List Byte} {last : Bool}
    (hs : State.Via M S s) (hk : [.cnt, .dma, .net, .beam] ⊆ M) :
    State.Via M S (State.sendPiece s e c off bs last) := by
  unfold State.sendPiece
  extract_lets r0
  clear_value r0
  exact State.sendFrames_via (State.updChan_via hs (sub hk)) (sub hk)

theorem State.expandOut_via {s : State} {e : Fin 5} {c : Fin 8} {h : BlockHdr} {data : List Byte}
    {trailer : List Byte} {last : Bool} (hs : State.Via M S s)
    (hk : [.upsets, .mem, .poison, .wbQueue, .cnt, .hbm, .dma, .net, .beam, .note] ⊆ M) :
    State.Via M S (State.expandOut s e c h data trailer last) := by
  unfold State.expandOut
  extract_lets ch0 s1 s2
  clear_value ch0
  have hs1 : State.Via M S s1 := by
    unfold s1
    exact State.sendPiece_via hs (sub hk)
  clear_value s1
  have hs2 : State.Via M S s2 := by
    unfold s2
    exact State.writeOut_via hs (sub hk)
  clear_value s2
  split
  · split
    · exact hs1
    · exact State.sendPiece_via hs1 (sub hk)
  · split
    · exact hs2
    · exact State.writeOut_via hs2 (sub hk)

theorem State.blockPasses_via {s : State} {p : Fin 4} {c : Fin 8} {b : BlockSlot} {h : BlockHdr} {data : List Byte}
    {trailer : List Byte} {ms : List Meet} (hs : State.Via M S s)
    (hk : [.upsets, .mem, .poison, .wbQueue, .cnt, .file, .hbm, .dma, .exp, .net, .beam, .note, .err] ⊆ M) :
    State.Via M S (State.blockPasses s p c b h data trailer ms) := by
  unfold State.blockPasses
  extract_lets e0 ch1 n2
  clear_value e0 ch1 n2
  split
  rename_i x3 ok4 s5 heq6
  have hs5 : State.Via M S s5 := by
    exact via2 heq6 (State.bucketPass_via hs (sub hk))
  split
  · exact hs5
  · extract_lets s7 s8 s9
    have hs7 : State.Via M S s7 := by
      unfold s7
      exact State.dmaMeets_via (State.setExp_via hs5 (sub hk)) (sub hk)
    clear_value s7
    have hs8 : State.Via M S s8 := by
      unfold s8
      exact State.expandOut_via hs7 (sub hk)
    clear_value s8
    have hs9 : State.Via M S s9 := by
      unfold s9
      exact State.countLanes_via (State.count_via (State.count_via hs8 (sub hk)) (sub hk)) (sub hk)
    clear_value s9
    exact State.updChan_via hs9 (sub hk)

theorem State.expandBlock_via {s : State} {p : Fin 4} {ms : List Meet} (hs : State.Via M S s)
    (hk : [.upsets, .mem, .poison, .wbQueue, .cnt, .file, .hbm, .dma, .exp, .net, .beam, .note, .err] ⊆ M) :
    State.Via M S (State.expandBlock s p ms) := by
  unfold State.expandBlock
  extract_lets e0
  clear_value e0
  split
  · exact hs
  · extract_lets c1 ch2 unread3 h4 decoded5
    clear_value c1 ch2 unread3 h4 decoded5
    split
    · exact hs
    · split
      · exact State.blockFails_via hs (sub hk)
      · exact State.blockPasses_via hs (sub hk)

theorem execExpanderBlock_via {p : Fin 4} {ms : List Meet} {s : State} (hs : State.Via M S s)
    (hk : [.upsets, .mem, .poison, .wbQueue, .cnt, .file, .hbm, .dma, .exp, .net, .beam, .note, .err] ⊆ M) :
    Keeps (State.Via M S) (execExpanderBlock p ms s) := by
  unfold execExpanderBlock
  exact keeps_next (State.expandBlock_via hs (sub hk))

theorem State.sendBlock_via {s : State} {e : Fin 5} {c : Fin 8} {frag : Nat} {bs : List Byte} {bads : List Nat}
    {last : Bool} (hs : State.Via M S s) (hk : [.cnt, .dma, .net, .beam] ⊆ M) :
    State.Via M S (State.sendBlock s e c frag bs bads last) := by
  unfold State.sendBlock
  split
  · exact State.sendOut_via hs (sub hk)
  · exact State.sendOut_via (State.sendOut_via hs (sub hk)) (sub hk)

theorem State.condenseBlock_via {s : State} {p : Fin 4} (hs : State.Via M S s)
    (hk : [.freeCtr, .upsets, .mem, .poison, .wbQueue, .cnt, .hbm, .dma, .cnd, .net, .beam, .note] ⊆ M) :
    State.Via M S (State.condenseBlock s p) := by
  unfold State.condenseBlock
  extract_lets e0
  clear_value e0
  split
  · exact hs
  · extract_lets c1 ch2 d3 bads4
    clear_value c1 ch2 d3 bads4
    split
    · exact hs
    · split
      split
      · exact State.updChan_via (State.count_via (State.setCnd_via hs (sub hk)) (sub hk)) (sub hk)
      · split
        rename_i x5 ok6 s7 heq8
        have hs7 : State.Via M S s7 := by
          exact via2 heq8 (State.bucketPass_via hs (sub hk))
        split
        · exact hs7
        · extract_lets s9 s10 s11 s12
          have hs9 : State.Via M S s9 := by
            unfold s9
            exact State.setCnd_via hs7 (sub hk)
          clear_value s9
          have hs10 : State.Via M S s10 := by
            unfold s10
            split
            · exact State.sendBlock_via hs9 (sub hk)
            · exact State.writeOut_via (State.yieldsAt_via hs9 (sub hk)) (sub hk)
          clear_value s10
          have hs11 : State.Via M S s11 := by
            unfold s11
            exact State.countLanes_via (State.count_via (State.count_via hs10 (sub hk)) (sub hk)) (sub hk)
          clear_value s11
          have hs12 : State.Via M S s12 := by
            unfold s12
            split
            · exact State.count_via hs11 (sub hk)
            · exact hs11
          clear_value s12
          exact State.updChan_via hs12 (sub hk)

theorem execCondenserBlock_via {p : Fin 4} {s : State} (hs : State.Via M S s)
    (hk : [.freeCtr, .upsets, .mem, .poison, .wbQueue, .cnt, .hbm, .dma, .cnd, .net, .beam, .note] ⊆ M) :
    Keeps (State.Via M S) (execCondenserBlock p s) := by
  unfold execCondenserBlock
  exact keeps_next (State.condenseBlock_via hs (sub hk))

theorem State.dropBlocks_via {s : State} {p : Fin 4} {n : Nat} (hs : State.Via M S s) (hk : [.hbm, .exp, .cnd] ⊆ M) :
    State.Via M S (State.dropBlocks s p n) := by
  unfold State.dropBlocks
  extract_lets s0 s1
  have hs0 : State.Via M S s0 := by
    unfold s0
    split
    · exact State.unwait_via hs (sub hk)
    · exact hs
  clear_value s0
  have hs1 : State.Via M S s1 := by
    unfold s1
    exact State.setExp_via hs0 (sub hk)
  clear_value s1
  split
  · exact State.setCnd_via (State.unwait_via hs1 (sub hk)) (sub hk)
  · exact hs1

theorem State.letGo_via {s : State} {e : Fin 5} {c : Fin 8} (hs : State.Via M S s)
    (hk : [.hbm, .dma, .exp, .cnd] ⊆ M) :
    State.Via M S (State.letGo s e c) := by
  unfold State.letGo
  extract_lets n0 s1
  clear_value n0
  have hs1 : State.Via M S s1 := by
    unfold s1
    exact State.unfull_via (State.unwait_via (State.unwait_via (State.unwait_via hs (sub hk)) (sub hk)) (sub hk)) (sub hk)
  clear_value s1
  split
  · exact State.dropBlocks_via hs1 (sub hk)
  · exact hs1

theorem State.endResv_via {s : State} {e : Fin 5} {c : Fin 8} {ok : Bool} (hs : State.Via M S s)
    (hk : [.cnt, .facets] ⊆ M) : State.Via M S (State.endResv s e c ok) := by
  unfold State.endResv
  extract_lets ch0
  clear_value ch0
  split
  · split
    · exact State.regionCommit_via hs (sub hk)
    · exact State.regionRelease_via hs (sub hk)
  · exact hs

theorem State.condFault_via {s : State} {e : Fin 5} {status : Nat} (hs : State.Via M S s)
    (hk : [.out, .ring, .cnt, .note] ⊆ M) : State.Via M S (State.condFault s e status) := by
  unfold State.condFault
  split
  · exact State.fault_via hs (sub hk)
  · exact hs

theorem State.backPass_via {s : State} {e : Fin 5} {c : Fin 8} (hs : State.Via M S s) (hk : [.cnt, .hbm] ⊆ M) :
    State.Via M S (State.backPass s e c).2 := by
  unfold State.backPass
  extract_lets ch0
  clear_value ch0
  exact State.bucketPass_via hs (sub hk)

theorem State.transferEnds_via {s : State} {e : Fin 5} {c : Fin 8} (hs : State.Via M S s)
    (hk : [.freeCtr, .out, .upsets, .mem, .ring, .poison, .wbQueue, .cnt, .facets, .sched, .hbm, .dma, .tmplStatus,
    .exp, .cnd, .note] ⊆ M) :
    State.Via M S (State.transferEnds s e c) := by
  unfold State.transferEnds
  extract_lets ch0 st1
  clear_value ch0 st1
  split
  · exact hs
  · split
    rename_i x2 ok3 s4 heq5
    have hs4 : State.Via M S s4 := by
      exact via2 heq5 (State.backPass_via hs (sub hk))
    split
    · exact hs4
    · exact State.finishDesc_via (State.condFault_via (State.endResv_via (State.letGo_via hs4 (sub hk)) (sub hk)) (sub
        hk)) (sub hk)

theorem State.bucketGranted_via {s : State} {u : BucketUser} {ms : List Meet} (hs : State.Via M S s)
    (hk : [.freeCtr, .out, .upsets, .mem, .ring, .poison, .wbQueue, .cnt, .facets, .file, .sched, .hbm, .dma,
      .tmplStatus, .exp, .cnd, .img, .wav, .net, .beam, .note, .err] ⊆ M) :
    State.Via M S (State.bucketGranted s u ms) := by
  unfold State.bucketGranted
  split
  · extract_lets e0 c1
    clear_value e0 c1
    split
    · exact State.unwait_via (State.issue_via hs (sub hk)) (sub hk)
    · exact State.unwait_via hs (sub hk)
  · apply State.unwait_via
    · split
      · exact hs
      · exact State.fetchDesc_via hs (sub hk)
    · exact sub hk
  · exact State.unwait_via (State.transferEnds_via hs (sub hk)) (sub hk)
  · exact State.unwait_via (State.expandBlock_via hs (sub hk)) (sub hk)
  · exact State.unwait_via (State.condenseBlock_via hs (sub hk)) (sub hk)
  · exact State.unwait_via (State.historyBlock_via hs (sub hk)) (sub hk)
  · split
    · exact State.unwait_via hs (sub hk)
    · exact State.landAll_via hs (sub hk)
  · split
    · exact State.unwait_via hs (sub hk)
    · exact State.landAll_via hs (sub hk)

theorem State.bucketStep_via {ms : List Meet} {s : State} (hs : State.Via M S s)
    (hk : [.freeCtr, .out, .upsets, .mem, .ring, .poison, .wbQueue, .cnt, .facets, .file, .sched, .hbm, .dma,
      .tmplStatus, .exp, .cnd, .img, .wav, .net, .beam, .note, .err] ⊆ M) :
    State.Via M S (State.bucketStep s ms) := by
  unfold State.bucketStep
  split
  · exact hs
  · split
    · exact hs
    · exact State.bucketGranted_via hs (sub hk)

theorem State.abortWaiting_via {s : State} {e : Fin 5} {c : Fin 8} {halts : Bool} (hs : State.Via M S s)
    (hk : [.freeCtr, .out, .upsets, .mem, .ring, .poison, .wbQueue, .cnt, .facets, .sched, .hbm, .dma, .tmplStatus,
    .exp, .cnd, .note] ⊆ M) :
    State.Via M S (State.abortWaiting s e c halts) := by
  unfold State.abortWaiting
  exact State.endDesc_via hs (sub hk)

theorem State.abortRunning_via {s : State} {e : Fin 5} {c : Fin 8} {halts : Bool} (hs : State.Via M S s)
    (hk : [.freeCtr, .out, .upsets, .mem, .ring, .poison, .wbQueue, .cnt, .facets, .sched, .hbm, .dma, .tmplStatus,
    .exp, .cnd, .note] ⊆ M) :
    State.Via M S (State.abortRunning s e c halts) := by
  unfold State.abortRunning
  extract_lets res0
  clear_value res0
  exact State.endDesc_via (State.endResv_via (State.letGo_via hs (sub hk)) (sub hk)) (sub hk)

theorem State.abortEnds_via {s : State} {e : Fin 5} {c : Fin 8} {halts started : Bool} (hs : State.Via M S s)
    (hk : [.freeCtr, .out, .upsets, .mem, .ring, .poison, .wbQueue, .cnt, .facets, .sched, .hbm, .dma, .tmplStatus,
    .exp, .cnd, .note] ⊆ M) :
    State.Via M S (State.abortEnds s e c halts started) := by
  unfold State.abortEnds
  split
  · exact State.abortRunning_via hs (sub hk)
  · exact State.abortWaiting_via hs (sub hk)

theorem State.abortDrained_via {s : State} {e : Fin 5} {c : Fin 8} (hs : State.Via M S s)
    (hk : [.freeCtr, .out, .upsets, .mem, .ring, .poison, .wbQueue, .cnt, .facets, .sched, .hbm, .dma, .tmplStatus,
    .exp, .cnd, .note] ⊆ M) :
    State.Via M S (State.abortDrained s e c) := by
  unfold State.abortDrained
  split
  · split
    · exact State.abortEnds_via hs (sub hk)
    · exact hs
  · exact hs

theorem State.toAbort_via {s : State} {e : Fin 5} {c : Fin 8} {halts started : Bool} (hs : State.Via M S s)
    (hk : [.hbm, .dma, .exp, .cnd] ⊆ M) : State.Via M S (State.toAbort s e c halts started) := by
  unfold State.toAbort
  exact State.updChan_via (State.letGo_via hs (sub hk)) (sub hk)

theorem State.askAbort_via {s : State} {e : Fin 5} {c : Fin 8} {halts : Bool} (hs : State.Via M S s)
    (hk : [.freeCtr, .out, .upsets, .mem, .ring, .poison, .wbQueue, .cnt, .facets, .sched, .hbm, .dma, .tmplStatus,
    .exp, .cnd, .note] ⊆ M) :
    State.Via M S (State.askAbort s e c halts) := by
  unfold State.askAbort
  split
  · exact State.abortDrained_via (State.toAbort_via hs (sub hk)) (sub hk)
  · exact State.toAbort_via hs (sub hk)
  · exact hs

theorem State.abortChannel_via {s : State} {e : Fin 5} {c : Fin 8} (hs : State.Via M S s)
    (hk : [.freeCtr, .out, .upsets, .mem, .ring, .poison, .wbQueue, .cnt, .facets, .sched, .hbm, .dma, .tmplStatus,
    .exp, .cnd, .note] ⊆ M) :
    State.Via M S (State.abortChannel s e c).2 := by
  unfold State.abortChannel
  split
  · exact hs
  · exact hs
  · dsimp -zeta only
    exact State.abortDrained_via (State.toAbort_via hs (sub hk)) (sub hk)
  · dsimp -zeta only
    exact State.abortDrained_via (State.toAbort_via hs (sub hk)) (sub hk)
  · dsimp -zeta only
    exact State.abortDrained_via (State.toAbort_via hs (sub hk)) (sub hk)
  · dsimp -zeta only
    exact State.preloadEnd_via (State.updChan_via (State.letGo_via hs (sub hk)) (sub hk)) (sub hk)
  · dsimp -zeta only
    exact State.updChan_via (State.letGo_via hs (sub hk)) (sub hk)

theorem State.setDmaChain_via {s : State} {b : List Byte} (hs : State.Via M S s) (hk : [.dma] ⊆ M) :
    State.Via M S (State.setDmaChain s b).2 := by
  unfold State.setDmaChain
  extract_lets c0 ch1
  clear_value c0 ch1
  split
  · exact hs
  · split
    · exact hs
    · split
      · dsimp -zeta only
        exact State.updChan_via hs (sub hk)
      · exact hs

end Sys2Proof.Machine
end

