-- ==== Sys2Proof/Laws/ViaReset.lean ====
section
/-! SUPPORT. What each operation of schedules, availability, counters, groups, reset and the fuses can change (Via.lean), one lemma an operation. -/

set_option Elab.async false

namespace Sys2Proof.Machine

variable {M : List Change} {S : State}

/-! ### Schedules -/

theorem State.fgEnd_via {s : State} {a : Accepted} (hs : State.Via M S s) (hk : [.host] ⊆ M)
    : State.Via M S (State.fgEnd s a) := by
  unfold State.fgEnd
  split
  · split
    · exact State.updHost_via hs (sub hk)
    · exact hs
  · exact hs

theorem State.deferStart_via {s : State} (hs : State.Via M S s) (hk : [.sched] ⊆ M)
    : State.Via M S (State.deferStart s) := by
  unfold State.deferStart
  split
  · split
    · split
      · exact State.updSched_via hs (sub hk)
      · exact hs
    · exact hs
  · exact hs

theorem State.completeLater_via {s : State} {a : Accepted} {status : Nat} {result : List Byte} {extra : List Byte}
    (hs : State.Via M S s) (hk : [.out, .ring, .cnt, .host, .note, .jnl] ⊆ M) :
    State.Via M S (State.completeLater s a status result extra) := by
  unfold State.completeLater
  exact State.complete_via (State.fgEnd_via (State.bgEnd_via hs (sub hk)) (sub hk)) (sub hk)

theorem State.readWhole_via {s : State} {a : Nat} {n : Nat} (hs : State.Via M S s)
    (hk : [.freeCtr, .out, .upsets, .mem, .ring, .poison, .wbQueue, .cnt, .hbm, .img, .note, .err] ⊆ M) :
    State.Via M S (State.readWhole s a n).2 := by
  unfold State.readWhole
  extract_lets lo0
  clear_value lo0
  exact State.readDev_via hs (sub hk)

theorem State.readControl_via {s : State} {a : Nat} {n : Nat} (hs : State.Via M S s)
    (hk : [.freeCtr, .out, .upsets, .mem, .ring, .poison, .wbQueue, .cnt, .hbm, .img, .note, .err] ⊆ M) :
    State.Via M S (State.readControl s a n).2 := by
  unfold State.readControl
  extract_lets r0
  have hr0 : State.Via M S r0.2 := by
    unfold r0
    exact State.readWhole_via hs (sub hk)
  clear_value r0
  dsimp only
  split
  · exact State.takeControl_via hr0 (sub hk)
  · exact hr0

theorem State.containerDigest_via {s : State} {a : Nat} {n : Nat} (hs : State.Via M S s)
    (hk : [.freeCtr, .out, .upsets, .mem, .ring, .poison, .wbQueue, .cnt, .hbm, .img, .note, .err] ⊆ M) :
    State.Via M S (State.containerDigest s a n).2 := by
  unfold State.containerDigest
  split
  · exact State.readControl_via hs (sub hk)
  · exact hs

theorem State.refuseContainer_via {s : State} {a : Accepted} {addr len status : Nat} (hs : State.Via M S s)
    (hk : [.freeCtr, .out, .upsets, .mem, .ring, .poison, .wbQueue, .cnt, .hbm, .img, .host, .note, .jnl, .err] ⊆
      M) :
    State.Via M S (State.refuseContainer s a addr len status) := by
  unfold State.refuseContainer
  exact State.completeLater_via (State.containerDigest_via hs (sub hk)) (sub hk)

theorem State.loadChecked_via {s : State} {a : Accepted} {addr : Nat} {len : Nat} (hs : State.Via M S s)
    (hk : [.freeCtr, .out, .upsets, .mem, .ring, .poison, .wbQueue, .cnt, .sched, .hbm, .img, .host, .note, .jnl,
      .err] ⊆ M) :
    State.Via M S (State.loadChecked s a addr len) := by
  unfold State.loadChecked
  split
  · exact State.refuseContainer_via hs (sub hk)
  · split
    rename_i x0 bs1 s2 heq3
    have hs2 : State.Via M S s2 := by
      exact via2 heq3 (State.readControl_via hs (sub hk))
    extract_lets m4 st5 dig6 im7 s8
    clear_value m4 st5 dig6 im7
    have hs8 : State.Via M S s8 := by
      unfold s8
      exact State.updSched_via hs2 (sub hk)
    clear_value s8
    split
    · exact State.completeLater_via hs8 (sub hk)
    · exact State.completeLater_via hs2 (sub hk)

theorem execLoadScheduleChecked_via {s : State} (hs : State.Via M S s)
    (hk : [.freeCtr, .out, .upsets, .mem, .ring, .poison, .wbQueue, .cnt, .idle, .sched, .hbm, .img, .host, .note,
    .jnl, .err] ⊆ M) :
    Keeps (State.Via M S) (execLoadScheduleChecked s) := by
  unfold execLoadScheduleChecked
  split
  · split
    · exact keeps_next (State.noteIdle_via (State.loadChecked_via hs (sub hk)) (sub hk))
    · exact keeps_next hs
  · exact keeps_next hs

theorem State.fixStart_via {s : State} (hs : State.Via M S s)
    (hk : [.out, .ring, .cnt, .sched, .host, .note, .jnl] ⊆ M) : State.Via M S (State.fixStart s) := by
  unfold State.fixStart
  split
  · split
    · exact hs
    · extract_lets s0
      have hs0 : State.Via M S s0 := by
        unfold s0
        exact State.updSched_via hs (sub hk)
      clear_value s0
      split
      · exact State.completeLater_via hs0 (sub hk)
      · exact hs0
  · exact hs

theorem State.cancelStart_via {s : State} (hs : State.Via M S s)
    (hk : [.out, .ring, .cnt, .sched, .host, .note, .jnl] ⊆ M) : State.Via M S (State.cancelStart s) := by
  unfold State.cancelStart
  split
  · extract_lets s0
    have hs0 : State.Via M S s0 := by
      unfold s0
      exact State.updSched_via hs (sub hk)
    clear_value s0
    split
    · split
      · exact hs0
      · exact State.completeLater_via hs0 (sub hk)
    · exact hs0
  · exact hs

theorem State.beginStart_via {s : State} {acc t : Nat} {by_ : Option Accepted} (hs : State.Via M S s)
    (hk : [.out, .ring, .cnt, .sched, .dma, .host, .note, .jnl] ⊆ M) :
    State.Via M S (State.beginStart s acc t by_) := by
  unfold State.beginStart
  split
  · extract_lets tick0
    clear_value tick0
    exact State.fixStart_via (State.deferStart_via (State.armPreloads_via (State.updSched_via
      (State.cancelStart_via hs (sub hk)) (sub hk)) (sub hk)) (sub hk)) (sub hk)
  · exact hs

theorem State.beginStop_via {s : State} {boundary : Bool} {discard : Bool} (hs : State.Via M S s)
    (hk : [.out, .ring, .cnt, .sched, .host, .note, .jnl] ⊆ M) :
    State.Via M S (State.beginStop s boundary discard) := by
  unfold State.beginStop
  extract_lets s0
  have hs0 : State.Via M S s0 := by
    unfold s0
    exact State.cancelStart_via hs (sub hk)
  clear_value s0
  split
  · exact State.updSched_via hs0 (sub hk)
  · exact hs0

/-! ### Gates -/

theorem State.updPwr_via {s : State} {g : Power → Power} (hs : State.Via M S s) (hk : [.pwr] ⊆ M) :
    State.Via M S (State.updPwr s g) := by
  unfold State.updPwr
  exact hs.upd (State.via_pwr rfl) (sub hk)

theorem State.updFuse_via {s : State} {g : FuseSt → FuseSt} (hs : State.Via M S s) (hk : [.fuse] ⊆ M) :
    State.Via M S (State.updFuse s g) := by
  unfold State.updFuse
  exact hs.upd (State.via_fuse rfl) (sub hk)

theorem State.updTrust_via {s : State} {g : Trust → Trust} (hs : State.Via M S s) (hk : [.trust] ⊆ M) :
    State.Via M S (State.updTrust s g) := by
  unfold State.updTrust
  exact hs.upd (State.via_trust rfl) (sub hk)

theorem State.powerRec_via {s : State} {status : Nat} {kind : Nat} {b1 : Nat} {b2 : Nat} {b3 : Nat} {b4 : Nat} {req :
      Nat}
    {time : Nat} (hs : State.Via M S s) (hk : [.out, .ring, .cnt, .note] ⊆ M) :
    State.Via M S (State.powerRec s status kind b1 b2 b3 b4 req time) := by
  unfold State.powerRec
  exact State.event_via hs (sub hk)

theorem State.setGate_via {s : State} {n : Nat} {v : Bool} (hs : State.Via M S s) (hk : [.pwr] ⊆ M) :
    State.Via M S (State.setGate s n v) := by
  unfold State.setGate
  exact State.updPwr_via hs (sub hk)

theorem State.gateOff_via {s : State} {n : Nat} {req : Nat} (hs : State.Via M S s)
    (hk : [.out, .ring, .cnt, .note, .pwr] ⊆ M) : State.Via M S (State.gateOff s n req) := by
  unfold State.gateOff
  split
  · exact State.powerRec_via hs (sub hk)
  · exact State.setGate_via hs (sub hk)

theorem State.gateOn_via {s : State} {n : Nat} {a : Nat} (hs : State.Via M S s) (hk : [.pwr] ⊆ M) :
    State.Via M S (State.gateOn s n a) := by
  fun_induction State.gateOn s n a
  · rename_i n0
    exact State.setGate_via hs (sub hk)
  · rename_i n1 k2 m3 x4 h5
    exact State.setGate_via hs (sub hk)
  · rename_i n6 k7 m8 x9 h10 ih11
    exact State.setGate_via ih11 (sub hk)
  · rename_i n12 k13 x14
    exact State.setGate_via hs (sub hk)

theorem State.syncGates_via {s : State} {req : Nat} (hs : State.Via M S s)
    (hk : [.out, .ring, .cnt, .note, .pwr] ⊆ M) : State.Via M S (State.syncGates s req) := by
  unfold State.syncGates
  extract_lets s0
  have hs0 : State.Via M S s0 := by
    unfold s0
    apply foldl_via
    · exact hs
    · intro u1 u2 hu3
      beta_reduce
      split
      · exact State.gateOff_via hu3 (sub hk)
      · exact hu3
  clear_value s0
  apply foldl_via
  · exact hs0
  · intro u4 u5 hu6
    beta_reduce
    split
    · exact State.gateOn_via hu6 (sub hk)
    · exact hu6

/-! ### Availability -/

theorem State.clearRange_via {s : State} {a n : Nat} (hs : State.Via M S s)
    (hk : [.upsets, .mem, .poison, .wbQueue] ⊆ M) : State.Via M S (s.clearRange a n) :=
  hs.upd (K := [.upsets, .mem, .poison, .wbQueue])
    ⟨fun f hf => by cases f <;> first | rfl | exact absurd (by decide) hf,
    fun h => ⟨SMap.wf_filter _ h.mem, SMap.wf_filter _ h.poison, h.cnt, h.bucket, h.control, h.table,
      h.errors, h.journal⟩,
    fun _ => ⟨rfl, .inl rfl, fun h => SMap.wf_filter _ h, fun _ _ _ hx => absurd (by decide) hx⟩,
    fun _ => (State.Book.refl s).congr rfl⟩ hk

theorem State.regionReport_via {s : State} {r : Nat} {block : Nat} {status : Nat} {action : Nat} {cause : Nat}
    (hs : State.Via M S s) (hk : [.out, .ring, .cnt, .note, .err] ⊆ M) :
    State.Via M S (State.regionReport s r block status action cause) := by
  unfold State.regionReport
  extract_lets s0
  have hs0 : State.Via M S s0 := by
    unfold s0
    exact State.errorRec_via hs (sub hk)
  clear_value s0
  exact State.fault_via hs0 (sub hk)

theorem State.abortRegion_via {s : State} {r : Nat} (hs : State.Via M S s)
    (hk : [.freeCtr, .out, .upsets, .mem, .ring, .poison, .wbQueue, .cnt, .facets, .sched, .hbm, .dma, .tmplStatus,
    .exp, .cnd, .note] ⊆ M) :
    State.Via M S (State.abortRegion s r) := by
  unfold State.abortRegion
  apply foldl_via
  · exact hs
  · intro u0 u1 hu2
    beta_reduce
    extract_lets e3 c4 own5
    clear_value e3 c4 own5
    split
    · exact State.askAbort_via hu2 (sub hk)
    · exact hu2

theorem State.stopFacet_via {s : State} {f : Fin 16} (hs : State.Via M S s) (hk : [.facets] ⊆ M) :
    State.Via M S (State.stopFacet s f) := by
  unfold State.stopFacet
  exact State.updFacet_via hs (sub hk)

theorem State.haltBlocks_via {s : State} {r : Nat} (hs : State.Via M S s)
    (hk : [.freeCtr, .out, .upsets, .mem, .ring, .poison, .wbQueue, .cnt, .facets, .ap, .img, .wav, .net, .beam,
      .host, .note, .err, .ready] ⊆ M) :
    State.Via M S (State.haltBlocks s r) := by
  unfold State.haltBlocks
  split
  · exact foldl_via hs (fun u0 u1 hu2 => State.stopFacet_via hu2 (sub hk))
  · split
    · exact State.sensorStandby_via hs (sub hk)
    · split
      · exact State.updWav_via (State.holdNow_via hs (sub hk)) (sub hk)
      · extract_lets src3 s4 s5
        have hs4 : State.Via M S s4 := by
          unfold s4
          exact hs.upd (State.via_ap rfl) (sub hk)
        clear_value s4
        have hs5 : State.Via M S s5 := by
          unfold s5
          apply foldl_via
          · exact hs4
          · intro u6 u7 hu8
            beta_reduce
            split
            · exact State.portDown_via hu8 (sub hk)
            · exact hu8
        clear_value s5
        exact State.updHost_via hs5 (sub hk)

theorem State.isolate_via {s : State} {r : Fin 7} {block : Nat} {cause : Nat} (hs : State.Via M S s)
    (hk : [.freeCtr, .out, .upsets, .mem, .ring, .poison, .wbQueue, .cnt, .facets, .sched, .ap, .hbm, .dma,
    .tmplStatus, .exp, .cnd, .img, .wav, .net, .beam, .host, .note, .err, .pwr, .ready] ⊆ M) :
    State.Via M S (State.isolate s r block cause) := by
  unfold State.isolate
  split
  · exact hs
  · extract_lets s0 s1 s2
    have hs0 : State.Via M S s0 := by
      unfold s0
      exact State.abortRegion_via hs (sub hk)
    clear_value s0
    have hs1 : State.Via M S s1 := by
      unfold s1
      exact State.updErr_via hs0 (sub hk) (fun _ => rfl)
    clear_value s1
    have hs2 : State.Via M S s2 := by
      unfold s2
      exact foldl_via (State.haltBlocks_via hs1 (sub hk)) (fun u3 u4 hu5 => State.setReady_via hu5 (sub hk))
    clear_value s2
    exact State.regionReport_via (State.syncGates_via hs2 (sub hk)) (sub hk)

theorem execRegionIsolation_via {r : Fin 7} {block : Byte} {cause : Half} {s : State} (hs : State.Via M S s)
    (hk : [.freeCtr, .out, .upsets, .mem, .ring, .poison, .wbQueue, .cnt, .facets, .sched, .ap, .hbm, .dma,
    .tmplStatus, .exp, .cnd, .img, .wav, .net, .beam, .host, .note, .err, .pwr, .ready] ⊆ M) :
    Keeps (State.Via M S) (execRegionIsolation r block cause s) := by
  unfold execRegionIsolation
  split
  · exact keeps_next hs
  · extract_lets s0
    have hs0 : State.Via M S s0 := by
      unfold s0
      exact State.isolate_via hs (sub hk)
    clear_value s0
    apply keeps_next
    split
    · exact State.updErr_via hs0 (sub hk) (fun _ => rfl)
    · exact hs0

theorem State.startClocks_via {s : State} {r : Nat} (hs : State.Via M S s)
    (hk : [.out, .ring, .cnt, .note, .pwr] ⊆ M) : State.Via M S (State.startClocks s r) := by
  unfold State.startClocks
  exact State.syncGates_via (State.updPwr_via hs (sub hk)) (sub hk)

theorem State.beginRestart_via {s : State} {r : Fin 7} (hs : State.Via M S s)
    (hk : [.freeCtr, .out, .upsets, .mem, .ring, .poison, .wbQueue, .cnt, .facets, .sched, .ap, .hbm, .dma,
      .tmplStatus, .exp, .cnd, .img, .wav, .net, .beam, .host, .note, .err, .pwr, .ready] ⊆ M) :
    State.Via M S (State.beginRestart s r) := by
  unfold State.beginRestart
  extract_lets held0 s1
  clear_value held0
  have hs1 : State.Via M S s1 := by
    unfold s1
    exact State.updErr_via (State.isolate_via hs (sub hk)) (sub hk) (fun _ => rfl)
  clear_value s1
  split
  · exact hs
  · split
    · exact hs1
    · exact State.startClocks_via hs1 (sub hk)

theorem State.releaseRestarts_via {s : State} (hs : State.Via M S s)
    (hk : [.out, .ring, .cnt, .note, .err, .pwr] ⊆ M) : State.Via M S (State.releaseRestarts s) := by
  unfold State.releaseRestarts
  apply foldl_via hs
  intro u r hu
  beta_reduce
  split
  · exact State.startClocks_via (State.updErr_via hu (sub hk) (fun _ => rfl)) (sub hk)
  · exact hu

theorem State.restartMask_via {s : State} {mask : Nat} (hs : State.Via M S s)
    (hk : [.freeCtr, .out, .upsets, .mem, .ring, .poison, .wbQueue, .cnt, .facets, .sched, .ap, .hbm, .dma,
    .tmplStatus, .exp, .cnd, .img, .wav, .net, .beam, .host, .note, .err, .pwr, .ready] ⊆ M) :
    State.Via M S (State.restartMask s mask) := by
  unfold State.restartMask
  apply foldl_via
  · exact hs
  · intro u0 u1 hu2
    beta_reduce
    split
    · exact State.beginRestart_via hu2 (sub hk)
    · exact hu2

theorem State.restartEnded_via {s : State} {r : Nat} {ok : Bool} (hs : State.Via M S s)
    (hk : [.out, .ring, .cnt, .host, .note, .jnl, .err] ⊆ M) : State.Via M S (State.restartEnded s r ok) := by
  unfold State.restartEnded
  split
  · exact hs
  · extract_lets s0
    have hs0 : State.Via M S s0 := by
      unfold s0
      exact State.updErr_via hs (sub hk) (fun _ => rfl)
    clear_value s0
    split
    · exact hs0
    · split
      · split
        · exact State.completeLater_via hs0 (sub hk)
        · exact hs0
      · exact hs0

theorem State.restartFails_via {s : State} {r : Fin 7} (hs : State.Via M S s)
    (hk : [.out, .ring, .cnt, .host, .note, .jnl, .err, .pwr] ⊆ M) : State.Via M S (State.restartFails s r) := by
  unfold State.restartFails
  extract_lets s0
  have hs0 : State.Via M S s0 := by
    unfold s0
    exact State.updErr_via hs (sub hk) (fun _ => rfl)
  clear_value s0
  exact State.restartEnded_via (State.regionReport_via (State.syncGates_via hs0 (sub hk)) (sub hk)) (sub hk)

theorem State.loadRegions_via {s : State} {im : Image} {p : Nat → Bool} (hs : State.Via M S s)
    (hk : [.cnt, .facets] ⊆ M) : State.Via M S (State.loadRegions s im p) := by
  unfold State.loadRegions
  apply foldl_via
  · exact hs
  · intro u0 u1 hu2
    beta_reduce
    split
    · exact State.emptyRegions_via (State.updFacet_via hu2 (sub hk)) (sub hk)
    · exact hu2

theorem State.resetEngine_via {s : State} {e : Fin 5} (hs : State.Via M S s)
    (hk : [.freeCtr, .out, .upsets, .mem, .ring, .poison, .wbQueue, .cnt, .facets, .sched, .hbm, .dma, .tmplStatus,
    .exp, .cnd, .note] ⊆ M) :
    State.Via M S (State.resetEngine s e) := by
  unfold State.resetEngine
  extract_lets s0 s1
  have hs0 : State.Via M S s0 := by
    unfold s0
    apply foldl_via
    · exact hs
    · intro u2 u3 hu4
      beta_reduce
      split
      · exact State.abortEnds_via hu4 (sub hk)
      · exact hu4
  clear_value s0
  have hs1 : State.Via M S s1 := by
    unfold s1
    exact State.updHbm_via hs0 (sub hk) (fun _ => rfl)
  clear_value s1
  exact hs1.upd (State.via_dma rfl) (sub hk)

theorem State.restartSteps_via {s : State} {r : Nat} (hs : State.Via M S s)
    (hk : [.freeCtr, .out, .upsets, .mem, .ring, .poison, .wbQueue, .cnt, .facets, .sched, .hbm, .dma, .tmplStatus,
    .exp, .cnd, .img, .wav, .note] ⊆ M) :
    State.Via M S (State.restartSteps s r) := by
  unfold State.restartSteps
  split
  · extract_lets s0 s1 s2
    have hs0 : State.Via M S s0 := by
      unfold s0
      exact State.resetEngine_via hs (sub hk)
    clear_value s0
    have hs1 : State.Via M S s1 := by
      unfold s1
      exact State.setCnd_via (State.setExp_via hs0 (sub hk)) (sub hk)
    clear_value s1
    have hs2 : State.Via M S s2 := by
      unfold s2
      apply foldl_via
      · exact hs1
      · intro u3 u4 hu5
        beta_reduce
        extract_lets f6
        clear_value f6
        exact State.clearRange_via (State.updFacet_via hu5 (sub hk)) (sub hk)
    clear_value s2
    split
    · exact State.loadRegions_via hs2 (sub hk)
    · exact hs2
  · split
    · extract_lets s7 c8 src9
      clear_value c8
      have hs7 : State.Via M S s7 := by
        unfold s7
        exact State.clearRange_via hs (sub hk)
      clear_value s7
      exact State.updImg_via hs7 (sub hk)
    · split
      · exact State.updWav_via hs (sub hk)
      · exact State.resetEngine_via hs (sub hk)

theorem State.spendBlocks_via {s : State} {k : Fin 16} {a : Nat} (hs : State.Via M S s) (hk : [.cnt, .wav] ⊆ M) :
    State.Via M S (State.spendBlocks s k a) := by
  fun_induction State.spendBlocks s k a
  · rename_i s0
    exact hs
  · rename_i s1 n2 c3 h4 ih5
    exact ih5 (State.dropBlock_via hs (sub hk))
  · rename_i s6 n7 c8 h9
    exact hs

theorem State.rejoinBlocks_via {s : State} {r : Nat} (hs : State.Via M S s)
    (hk : [.out, .ring, .cnt, .facets, .ap, .dma, .wav, .net, .beam, .host, .note, .jnl, .ready] ⊆ M) :
    State.Via M S (State.rejoinBlocks s r) := by
  unfold State.rejoinBlocks
  split
  · extract_lets s0
    have hs0 : State.Via M S s0 := by
      unfold s0
      split
      · exact State.loadRegions_via hs (sub hk)
      · exact hs
    clear_value s0
    exact State.setReady_via hs0 (sub hk)
  · split
    · exact State.setReady_via hs (sub hk)
    · split
      · extract_lets s1
        have hs1 : State.Via M S s1 := by
          unfold s1
          apply foldl_via
          · exact hs
          · intro u1 u2 hu3
            beta_reduce
            extract_lets c4
            clear_value c4
            exact State.spendBlocks_via hu3 (sub hk)
        clear_value s1
        split
        · exact State.setReady_via (State.setReady_via hs1 (sub hk)) (sub hk)
        · exact hs1
      · extract_lets s5 s6
        have hs5 : State.Via M S s5 := by
          unfold s5
          apply foldl_via
          · exact hs
          · intro u8 u9 hu10
            beta_reduce
            split
            · exact State.peerLost_via hu10 (sub hk)
            · exact hu10
        clear_value s5
        have hs6 : State.Via M S s6 := by
          unfold s6
          exact State.updBeam_via hs5 (sub hk)
        clear_value s6
        exact State.setReady_via (hs6.upd (State.via_ap rfl) (sub hk)) (sub hk)

theorem State.rejoin_via {s : State} {r : Fin 7} (hs : State.Via M S s)
    (hk : [.out, .ring, .cnt, .facets, .ap, .dma, .wav, .net, .beam, .host, .note, .jnl, .err, .ready] ⊆ M) :
    State.Via M S (State.rejoin s r) := by
  unfold State.rejoin
  extract_lets s0 s1
  have hs0 : State.Via M S s0 := by
    unfold s0
    exact State.rejoinBlocks_via hs (sub hk)
  clear_value s0
  have hs1 : State.Via M S s1 := by
    unfold s1
    exact State.updErr_via hs0 (sub hk) (fun _ => rfl)
  clear_value s1
  exact State.restartEnded_via (State.regionReport_via hs1 (sub hk)) (sub hk)

theorem State.rejoinBlock_via {s : State} {was : Nat} (hs : State.Via M S s)
    (hk : [.out, .ring, .cnt, .facets, .ap, .dma, .wav, .net, .beam, .host, .note, .jnl, .err, .ready] ⊆ M) :
    State.Via M S (State.rejoinBlock s was) := by
  unfold State.rejoinBlock
  split
  · split
    · exact State.rejoin_via hs (sub hk)
    · exact hs
  · exact hs

theorem State.rejoinAt_via {s : State} {tick : Nat} {time : Nat} (hs : State.Via M S s)
    (hk : [.out, .ring, .cnt, .facets, .ap, .dma, .wav, .net, .beam, .host, .note, .jnl, .err, .ready] ⊆ M) :
    State.Via M S (State.rejoinAt s tick time) := by
  unfold State.rejoinAt
  apply foldl_via
  · exact hs
  · intro u0 u1 hu2
    beta_reduce
    split
    · exact State.rejoin_via hu2 (sub hk)
    · exact hu2

/-! ### Counters -/

theorem State.restartExtremes_via {s : State} (hs : State.Via M S s) (hk : [.cnt, .hbm, .img] ⊆ M) :
    State.Via M S (State.restartExtremes s) := by
  unfold State.restartExtremes
  extract_lets s0 s1
  have hs0 : State.Via M S s0 := by
    unfold s0
    exact State.setCtr_via hs (sub hk)
  clear_value s0
  have hs1 : State.Via M S s1 := by
    unfold s1
    exact State.updHbm_via hs0 (sub hk) (fun _ => rfl)
  clear_value s1
  exact State.updImg_via hs1 (sub hk)

theorem State.takeSnapshot_via {s : State} {origin : Nat} (hs : State.Via M S s)
    (hk : [.out, .ring, .cnt, .hbm, .img, .host, .note, .err] ⊆ M) :
    State.Via M S (State.takeSnapshot s origin) := by
  unfold State.takeSnapshot
  extract_lets n0 sh1 s2 s3 s4
  clear_value n0 sh1
  have hs2 : State.Via M S s2 := by
    unfold s2
    exact State.restartExtremes_via hs (sub hk)
  clear_value s2
  have hs3 : State.Via M S s3 := by
    unfold s3
    exact State.updErr_via hs2 (sub hk) (fun _ => rfl)
  clear_value s3
  have hs4 : State.Via M S s4 := by
    unfold s4
    exact State.updHost_via hs3 (sub hk)
  clear_value s4
  exact State.event_via hs4 (sub hk)

theorem State.armSnapshot_via {s : State} {acc tick origin : Nat} (hs : State.Via M S s) (hk : [.err] ⊆ M) :
    State.Via M S (State.armSnapshot s acc tick origin).2 := by
  unfold State.armSnapshot
  split
  · exact hs
  · dsimp -zeta only
    exact State.updErr_via hs (sub hk) (fun _ => rfl)

theorem State.journalEntry_via {s : State} {i : Nat} (hs : State.Via M S s)
    (hk : [.freeCtr, .out, .upsets, .mem, .ring, .poison, .wbQueue, .cnt, .hbm, .img, .note, .err] ⊆ M) :
    State.Via M S (State.journalEntry s i).2.2 := by
  unfold State.journalEntry
  extract_lets a0
  clear_value a0
  split
  rename_i x1 b2 bads3 s4 heq5
  have hs4 : State.Via M S s4 := via3 heq5 (State.readDev_via hs (sub hk))
  dsimp only
  split
  · exact State.takeControl_via hs4 (sub hk)
  · exact hs4

theorem State.journalEntries_via {s : State} {i k n : Nat} (hs : State.Via M S s)
    (hk : [.freeCtr, .out, .upsets, .mem, .ring, .poison, .wbQueue, .cnt, .hbm, .img, .note, .err] ⊆ M) :
    State.Via M S (s.journalEntries i k n).2.2 := by
  induction n generalizing s i k with
  | zero => exact hs
  | succ n ih => exact ih (State.journalEntry_via hs (sub hk))

theorem State.writeControl_via {s : State} {a : Nat} {bs : List Byte} {bads : List Nat} (hs : State.Via M S s)
    (hk : [.upsets, .mem, .poison, .wbQueue, .cnt, .hbm, .note] ⊆ M) :
    State.Via M S (State.writeControl s a bs bads) := by
  unfold State.writeControl
  extract_lets s0 w1 s2
  have hs0 : State.Via M S s0 := by
    unfold s0
    exact State.writeMerged_via hs (sub hk)
  clear_value s0
  have hw1 : State.Via M S w1.1 := by
    unfold w1
    exact State.writeMergedBad_via hs (sub hk)
  clear_value w1
  have hs2 : State.Via M S s2 := by
    unfold s2
    split
    · exact State.markWrite_via (State.takeControl_via hw1 (sub hk)) (sub hk)
    · exact hw1
  clear_value s2
  split
  · split
    · exact State.markWrite_via (State.takeControl_via hs0 (sub hk)) (sub hk)
    · exact hs0
  · split
    · split
      · exact State.tickFault_via hs2 (sub hk)
      · exact hs2
    · exact State.writeMerged_via hs (sub hk)

theorem State.writeResult_via {s : State} {a : Nat} {bs : List Byte} {bads : List Nat} (hs : State.Via M S s)
    (hk : [.upsets, .mem, .poison, .wbQueue, .cnt, .hbm, .note] ⊆ M) :
    State.Via M S (State.writeResult s a bs bads).2 := by
  unfold State.writeResult
  split
  · exact hs
  · split
    · exact hs
    · split
      · extract_lets ok0 s1
        clear_value ok0
        have hs1 : State.Via M S s1 := by
          unfold s1
          exact State.judged_via hs (sub hk)
        clear_value s1
        split
        · dsimp -zeta only
          exact State.writeControl_via hs1 (sub hk)
        · exact hs1
      · dsimp -zeta only
        exact State.writeControl_via hs (sub hk)

theorem execBackgroundResultWritten_via {opcode : Half} {s : State} (hs : State.Via M S s)
    (hk : [.out, .upsets, .mem, .ring, .poison, .wbQueue, .cnt, .idle, .hbm, .host, .note, .jnl] ⊆ M) :
    Keeps (State.Via M S) (execBackgroundResultWritten opcode s) := by
  unfold execBackgroundResultWritten
  split
  · exact keeps_next hs
  · extract_lets done0
    split
    · unfold done0
      split
      rename_i x1 st2 s3 heq4
      have hs3 : State.Via M S s3 := by
        exact via2 heq4 (State.writeResult_via hs (sub hk))
      exact keeps_next (State.noteIdle_via (State.completeLater_via hs3 (sub hk)) (sub hk))
    · unfold done0
      split
      rename_i x5 st6 s7 heq8
      have hs7 : State.Via M S s7 := by
        exact via2 heq8 (State.writeResult_via hs (sub hk))
      exact keeps_next (State.noteIdle_via (State.completeLater_via hs7 (sub hk)) (sub hk))
    · unfold done0
      split
      rename_i x9 st10 s11 heq12
      have hs11 : State.Via M S s11 := by
        exact via2 heq12 (State.writeResult_via hs (sub hk))
      exact keeps_next (State.noteIdle_via (State.completeLater_via hs11 (sub hk)) (sub hk))
    · exact keeps_next hs

/-! ### Global -/

theorem State.announceHere_via {s : State} {kind : Nat} {opId : Nat} {tick : Nat} {arg : Nat} {root : Bool}
    (hs : State.Via M S s) (hk : [.out, .ring, .cnt, .sched, .dma, .net, .beam, .host, .note, .jnl] ⊆ M) :
    State.Via M S (State.announceHere s kind opId tick arg root) := by
  unfold State.announceHere
  extract_lets arms0 up1 s2 lost3 me4 s5 op6
  clear_value arms0 lost3 me4 op6
  have hs2 : State.Via M S s2 := by
    unfold s2
    apply foldl_via
    · exact hs
    · intro u7 u8 hu9
      beta_reduce
      split
      · exact State.beamControl_via hu9 (sub hk)
      · exact hu9
  clear_value s2
  have hs5 : State.Via M S s5 := by
    unfold s5
    split
    · exact State.beginStart_via hs2 (sub hk)
    · exact hs2
  clear_value s5
  exact State.answerCheck_via (State.putOp_via hs5 (sub hk)) (sub hk)

theorem State.readMessage_via {s : State} {a n : Nat} (hs : State.Via M S s)
    (hk : [.freeCtr, .out, .upsets, .mem, .ring, .poison, .wbQueue, .cnt, .hbm, .img, .note, .err] ⊆ M) :
    State.Via M S (State.readMessage s a n).2 := by
  unfold State.readMessage
  split
  rename_i x1 b2 bads3 s4 heq5
  have hs4 : State.Via M S s4 := via3 heq5 (State.readDev_via hs (sub hk))
  dsimp only
  split
  · exact State.countPages_via (State.takeBucket_via hs4 (sub hk)) (sub hk)
  · exact hs4

theorem State.broadcastFrames_via {s : State} {len : Nat} {off : Nat} {a : Nat} {a1 : List Byte} (hs : State.Via M S
      s)
    (hk : [.cnt, .net, .beam] ⊆ M) : State.Via M S (State.broadcastFrames s len off a a1) := by
  fun_induction State.broadcastFrames s len off a a1
  · rename_i s0 off1 x2
    exact hs
  · rename_i s3 off4 n5 bs6 pl7 last8 flags9 s10 h11
    have hs10 : State.Via M S s10 := by
      unfold s10
      apply foldl_via
      · exact hs
      · intro u12 u13 hu14
        beta_reduce
        split
        · exact State.beamData_via hu14 (sub hk)
        · exact hu14
    clear_value s10
    exact hs10
  · rename_i s15 off16 n17 bs18 pl19 last20 flags21 s22 h23 ih24
    have hs22 : State.Via M S s22 := by
      unfold s22
      apply foldl_via
      · exact hs
      · intro u25 u26 hu27
        beta_reduce
        split
        · exact State.beamData_via hu27 (sub hk)
        · exact hu27
    clear_value s22
    exact ih24 hs22

theorem State.beginGlobal_via {s : State} {a : Accepted} (hs : State.Via M S s)
    (hk : [.freeCtr, .out, .upsets, .mem, .ring, .poison, .wbQueue, .cnt, .sched, .hbm, .dma, .img, .net, .beam,
      .host, .note, .jnl, .err] ⊆ M) :
    State.Via M S (State.beginGlobal s a) := by
  unfold State.beginGlobal
  split
  · extract_lets kind0 st1 deadline2 root3 kids4 op5 op6 s7
    clear_value kind0 st1 deadline2 root3 kids4 op5 op6
    have hs7 : State.Via M S s7 := by
      unfold s7
      exact State.completeLater_via hs (sub hk)
    clear_value s7
    split
    · exact State.completeLater_via hs (sub hk)
    · split
      · exact State.barrierCheck_via (State.putOp_via hs (sub hk)) (sub hk)
      · split
        · split
          · split
            rename_i x8 ok9 s10 heq11
            have hs10 : State.Via M S s10 := by
              exact via2 heq11 (State.judgeTransfer_via hs (sub hk))
            split
            · exact State.completeLater_via hs10 (sub hk)
            · split
              rename_i x12 bs13 s14 heq15
              have hs14 : State.Via M S s14 := by
                exact via2 heq15 (State.readMessage_via hs10 (sub hk))
              exact State.broadcastCheck_via (State.broadcastFrames_via (State.putOp_via hs14 (sub hk)) (sub hk)) (sub
                hk)
          · exact State.putOp_via hs (sub hk)
        · exact State.announceHere_via hs7 (sub hk)
  · exact hs

theorem State.takeControlFrame_via {s : State} {from_ : Nat} {m : BeamCtl} (hs : State.Via M S s)
    (hk : [.out, .ring, .cnt, .facets, .sched, .dma, .net, .beam, .host, .note, .jnl] ⊆ M) :
    State.Via M S (State.takeControlFrame s from_ m) := by
  unfold State.takeControlFrame
  split
  · extract_lets s0
    have hs0 : State.Via M S s0 := by
      unfold s0
      exact State.updBeam_via hs (sub hk)
    clear_value s0
    apply foldl_via
    · exact hs0
    · intro u1 u2 hu3
      beta_reduce
      split
      · split
        · exact State.setTx_via hu3 (sub hk)
        · exact hu3
      · exact hu3
  · extract_lets s4 s5
    have hs4 : State.Via M S s4 := by
      unfold s4
      exact State.updBeam_via hs (sub hk)
    clear_value s4
    have hs5 : State.Via M S s5 := by
      unfold s5
      apply foldl_via
      · exact hs4
      · intro u6 u7 hu8
        beta_reduce
        split
        · split
          · exact State.setTx_via hu8 (sub hk)
          · exact hu8
        · exact hu8
    clear_value s5
    exact State.beamStop_via hs5 (sub hk)
  · split
    · split
      · exact State.dropRx_via hs (sub hk)
      · exact hs
    · exact hs
  · split
    · extract_lets op9
      clear_value op9
      exact State.barrierCheck_via (State.putOp_via hs (sub hk)) (sub hk)
    · exact hs
  · split
    · split
      · exact State.finishOp_via (foldl_via hs (fun u10 u11 hu12 => State.beamControl_via hu12 (sub hk))) (sub hk)
      · exact hs
    · exact hs
  · split
    · exact State.announceHere_via hs (sub hk)
    · exact hs
  · split
    · split
      · exact State.answerCheck_via hs (sub hk)
      · exact hs
    · exact hs

theorem execBeamControl_via {port : Fin 2} {eth : Eth} {hdr : List Byte} {m : BeamCtl} {s : State}
    (hs : State.Via M S s) (hk : [.out, .ring, .cnt, .facets, .sched, .dma, .net, .beam, .host, .note, .jnl] ⊆ M) :
    Keeps (State.Via M S) (execBeamControl port eth hdr m s) := by
  unfold execBeamControl
  apply keeps_next
  apply State.beamFrame_via
  · exact hs
  · intro u0 u1 hu2
    beta_reduce
    split
    rename_i x3 ok4 s5 heq6
    have hs5 : State.Via M S s5 := by
      exact via2 heq6 (State.inSequence_via hu2 (sub hk))
    split
    · exact State.beamPlain_via (State.takeControlFrame_via hs5 (sub hk)) (sub hk)
    · exact hs5
  · exact sub hk

theorem State.runGlobal_via {s : State} {op : GlobalOp} (hs : State.Via M S s)
    (hk : [.freeCtr, .out, .upsets, .mem, .ring, .poison, .wbQueue, .cnt, .facets, .sched, .ap, .hbm, .dma,
    .tmplStatus, .exp, .cnd, .img, .wav, .net, .beam, .host, .note, .jnl, .err, .pwr, .ready] ⊆ M) :
    State.Via M S (State.runGlobal s op).2 := by
  unfold State.runGlobal
  split
  · dsimp -zeta only
    exact State.takeSnapshot_via hs (sub hk)
  · split
    · split <;> exact hs
    · split
      · split
        · dsimp -zeta only
          exact State.beginStop_via hs (sub hk)
        · exact hs
      · dsimp -zeta only
        exact State.restartMask_via hs (sub hk)

theorem State.executeGlobal_via {s : State} {op : GlobalOp} (hs : State.Via M S s)
    (hk : [.freeCtr, .out, .upsets, .mem, .ring, .poison, .wbQueue, .cnt, .facets, .sched, .ap, .hbm, .dma,
    .tmplStatus, .exp, .cnd, .img, .wav, .net, .beam, .host, .note, .jnl, .err, .pwr, .ready] ⊆ M) :
    State.Via M S (State.executeGlobal s op) := by
  unfold State.executeGlobal
  extract_lets s0
  have hs0 : State.Via M S s0 := by
    unfold s0
    split
    · exact State.dropOp_via hs (sub hk)
    · exact State.putOp_via hs (sub hk)
  clear_value s0
  split
  rename_i x1 st2 s3 heq4
  have hs3 : State.Via M S s3 := by
    exact via2 heq4 (State.runGlobal_via hs0 (sub hk))
  extract_lets s5
  have hs5 : State.Via M S s5 := by
    unfold s5
    exact State.journal_via hs3 (sub hk)
  clear_value s5
  exact State.globalDone_via hs5 (sub hk)

theorem State.globalAt_via {s : State} {tick : Nat} (hs : State.Via M S s)
    (hk : [.freeCtr, .out, .upsets, .mem, .ring, .poison, .wbQueue, .cnt, .facets, .sched, .ap, .hbm, .dma,
    .tmplStatus, .exp, .cnd, .img, .wav, .net, .beam, .host, .note, .jnl, .err, .pwr, .ready] ⊆ M) :
    State.Via M S (State.globalAt s tick) := by
  unfold State.globalAt
  apply foldl_via
  · exact hs
  · intro u0 u1 hu2
    beta_reduce
    split
    · exact State.executeGlobal_via hu2 (sub hk)
    · exact hu2

/-! ### Reset -/

theorem State.fuseStart_via {s : State} {fromS3 : Bool} (hs : State.Via M S s)
    (hk : [.cnt, .pwr, .fuse, .ready] ⊆ M) : State.Via M S (State.fuseStart s fromS3) := by
  unfold State.fuseStart
  extract_lets src0 f1 f2 s3 held4
  clear_value f1 f2
  have hs3 : State.Via M S s3 := by
    unfold s3
    exact State.count_via (State.updFuse_via hs (sub hk)) (sub hk)
  clear_value s3
  split
  · apply State.updFuse_via
    · unfold held4
      exact State.updPwr_via hs3 (sub hk)
    · exact sub hk
  · split
    · unfold held4
      exact State.updPwr_via hs3 (sub hk)
    · exact State.setReady_via (State.updFuse_via hs3 (sub hk)) (sub hk)

theorem State.absentFaults_via {s : State} (hs : State.Via M S s) (hk : [.out, .ring, .cnt, .note] ⊆ M) :
    State.Via M S (State.absentFaults s) := by
  unfold State.absentFaults
  extract_lets bad0 rec1 s2 s3
  have hs2 : State.Via M S s2 := by
    unfold s2
    apply foldl_via
    · exact hs
    · intro u4 u5 hu6
      beta_reduce
      split
      · unfold rec1
        exact State.fault_via hu6 (sub hk)
      · exact hu6
  clear_value s2
  have hs3 : State.Via M S s3 := by
    unfold s3
    apply foldl_via
    · exact hs2
    · intro u7 u8 hu9
      beta_reduce
      split
      · unfold rec1
        exact State.fault_via hu9 (sub hk)
      · exact hu9
  clear_value s3
  apply foldl_via
  · exact hs3
  · intro u10 u11 hu12
    beta_reduce
    split
    · unfold rec1
      exact State.fault_via hu12 (sub hk)
    · exact hu12

/-- A reset keeps the invariant: only what lies in host memory stays of memory, and the journal's always-on store stays
as it is. -/
theorem State.keptOverReset_via {s : State} (hs : State.Via M S s)
    (hk : [.upsets, .mem, .poison, .wbQueue, .cnt, .tk, .facets, .sched, .ap, .hbm, .dma, .tmplStatus, .exp, .cnd,
      .img, .wav, .net, .beam, .host, .jnl, .err, .pwr, .fuse, .trust, .idle, .ready] ⊆ M) :
    State.Via M S s.keptOverReset :=
  hs.upd (K := [.upsets, .mem, .poison, .wbQueue, .cnt, .tk, .facets, .sched, .ap, .hbm, .dma, .tmplStatus, .exp, .cnd,
      .img, .wav, .net, .beam, .host, .jnl, .err, .pwr, .fuse, .trust, .idle, .ready])
    (.whole (fun f hf => by cases f <;> first | rfl | exact absurd (by decide) hf)
      (fun h => ⟨SMap.wf_filter _ h.mem, rfl, rfl, show State.reset.hbm.bucket ≤ 33554432 by decide,
        show State.reset.hbm.ctlBucket ≤ 1048576 by decide, show State.reset.hbm.poison.length ≤ 256 by decide,
        show State.reset.err.queue.length ≤ 255 by decide, h.journal⟩)) hk

theorem State.cutFuses_via {s : State} (hs : State.Via M S s) (hk : [.freeCtr, .fuse] ⊆ M) :
    State.Via M S (State.cutFuses s) := by
  unfold State.cutFuses
  split
  · exact State.drawn_via (State.updFuse_via hs (sub hk)) (sub hk)
  · exact hs

theorem State.internalReset_via {s : State} {cause : Nat} {status : Nat} {region : Nat} {block : Nat} {addr : Nat}
    (hs : State.Via M S s)
    (hk : [.freeCtr, .upsets, .mem, .poison, .wbQueue, .cnt, .tk, .facets, .sched, .ap, .hbm, .dma, .tmplStatus,
    .exp, .cnd, .img, .wav, .net, .beam, .host, .jnl, .err, .pwr, .fuse, .trust, .idle, .ready] ⊆ M) :
    State.Via M S (State.internalReset s cause status region block addr) := by
  unfold State.internalReset
  extract_lets s0 s1 s2 t3
  have hs0 : State.Via M S s0 := by
    unfold s0
    exact State.updErr_via hs (sub hk) (fun _ => rfl)
  clear_value s0
  have hs1 : State.Via M S s1 := by
    unfold s1
    exact State.updPwr_via hs0 (sub hk)
  clear_value s1
  have hs2 : State.Via M S s2 := by
    unfold s2
    exact State.cutFuses_via (State.updTrust_via hs1 (sub hk)) (sub hk)
  clear_value s2
  have ht3 : State.Via M S t3 := by
    unfold t3
    exact State.keptOverReset_via hs2 (sub hk)
  clear_value t3
  exact ht3.upd (State.via_pwr rfl) (sub hk)

theorem State.startUp_via {s : State} (hs : State.Via M S s) (hk : [.cnt, .pwr, .fuse, .ready] ⊆ M) :
    State.Via M S (State.startUp s) := by
  unfold State.startUp
  extract_lets s0 s1 s2
  have hs0 : State.Via M S s0 := by
    unfold s0
    exact State.setReady_via (State.updPwr_via hs (sub hk)) (sub hk)
  clear_value s0
  have hs1 : State.Via M S s1 := by
    unfold s1
    exact State.fuseStart_via hs0 (sub hk)
  clear_value s1
  have hs2 : State.Via M S s2 := by
    unfold s2
    exact State.updPwr_via hs1 (sub hk)
  clear_value s2
  split
  · exact hs2
  · exact hs1

theorem State.fatal_via {s : State} {status : Nat} {region : Nat} {block : Nat} {addr : Nat} (hs : State.Via M S s)
    (hk : [.freeCtr, .upsets, .mem, .poison, .wbQueue, .cnt, .tk, .facets, .sched, .ap, .hbm, .dma, .tmplStatus,
    .exp, .cnd, .img, .wav, .net, .beam, .host, .jnl, .err, .pwr, .fuse, .trust, .idle, .ready] ⊆ M) :
    State.Via M S (State.fatal s status region block addr) := by
  unfold State.fatal
  extract_lets src0 s1 s2
  have hs1 : State.Via M S s1 := by
    unfold s1
    exact hs.upd (State.via_ap rfl) (sub hk)
  clear_value s1
  have hs2 : State.Via M S s2 := by
    unfold s2
    exact State.internalReset_via hs1 (sub hk)
  clear_value s2
  split
  · exact State.updPwr_via hs2 (sub hk)
  · exact State.startUp_via hs2 (sub hk)

theorem State.supplyReset_via {s : State} (hs : State.Via M S s)
    (hk : [.freeCtr, .upsets, .mem, .poison, .wbQueue, .cnt, .tk, .facets, .sched, .ap, .hbm, .dma, .tmplStatus,
    .exp, .cnd, .img, .wav, .net, .beam, .host, .jnl, .err, .pwr, .fuse, .trust, .idle, .ready] ⊆ M) :
    State.Via M S (State.supplyReset s) := by
  unfold State.supplyReset
  exact State.internalReset_via hs (sub hk)

theorem execHbmParityError_via {c : Fin 16} {failed : Nat} {s : State} (hs : State.Via M S s)
    (hk : [.freeCtr, .upsets, .mem, .poison, .wbQueue, .cnt, .tk, .facets, .sched, .ap, .hbm, .dma, .tmplStatus,
    .exp, .cnd, .img, .wav, .net, .beam, .host, .jnl, .err, .pwr, .fuse, .trust, .idle, .ready] ⊆ M) :
    Keeps (State.Via M S) (execHbmParityError c failed s) := by
  unfold execHbmParityError
  split
  · exact keeps_next hs
  · extract_lets s0
    have hs0 : State.Via M S s0 := by
      unfold s0
      exact State.count_via hs (sub hk)
    clear_value s0
    apply keeps_next
    split
    · exact State.fatal_via hs0 (sub hk)
    · exact hs0

theorem execFatalError_via {status : Half} {region : Byte} {block : Byte} {addr : DWord} {s : State}
    (hs : State.Via M S s)
    (hk : [.freeCtr, .upsets, .mem, .poison, .wbQueue, .cnt, .tk, .facets, .sched, .ap, .hbm, .dma, .tmplStatus,
    .exp, .cnd, .img, .wav, .net, .beam, .host, .jnl, .err, .pwr, .fuse, .trust, .idle, .ready] ⊆ M) :
    Keeps (State.Via M S) (execFatalError status region block addr s) := by
  unfold execFatalError
  apply keeps_next
  split
  · exact State.fatal_via hs (sub hk)
  · exact hs

theorem execControlWatchdogExpiry_via {s : State} (hs : State.Via M S s)
    (hk : [.freeCtr, .upsets, .mem, .poison, .wbQueue, .cnt, .tk, .facets, .sched, .ap, .hbm, .dma, .tmplStatus,
    .exp, .cnd, .img, .wav, .net, .beam, .host, .jnl, .err, .pwr, .fuse, .trust, .idle, .ready] ⊆ M) :
    Keeps (State.Via M S) (execControlWatchdogExpiry s) := by
  unfold execControlWatchdogExpiry
  apply keeps_next
  split
  · exact State.fatal_via hs (sub hk)
  · exact hs

/-! ### FuseOps -/

theorem State.putOutcomes_via {s : State} {a : List (Nat × Nat × Nat)} (hs : State.Via M S s) (hk : [.cnt, .fuse] ⊆ M)
      :
    State.Via M S (State.putOutcomes s a) := by
  fun_induction State.putOutcomes s a
  · rename_i s0
    exact hs
  · rename_i s1 p2 n3 v4 rest5 s6 s7 s8 ih9
    have hs6 : State.Via M S s6 := by
      unfold s6
      exact State.updFuse_via hs (sub hk)
    clear_value s6
    have hs7 : State.Via M S s7 := by
      unfold s7
      exact State.count_via hs6 (sub hk)
    clear_value s7
    have hs8 : State.Via M S s8 := by
      unfold s8
      split
      · exact hs7
      · exact State.count_via hs7 (sub hk)
    clear_value s8
    exact ih9 hs8

theorem State.criticalCheck_via {s : State} {r : Nat} (hs : State.Via M S s)
    (hk : [.out, .ring, .cnt, .note, .fuse] ⊆ M) : State.Via M S (State.criticalCheck s r) := by
  unfold State.criticalCheck
  split
  · exact State.fault_via (State.updFuse_via hs (sub hk)) (sub hk)
  · exact hs

theorem State.rejudge_via {s : State} {r : Nat} (hs : State.Via M S s) (hk : [.out, .ring, .cnt, .note, .fuse] ⊆ M) :
    State.Via M S (State.rejudge s r) := by
  unfold State.rejudge
  extract_lets s0 old1 new2 rs3 s4 s5 s6
  clear_value old1 new2 rs3
  have hs0 : State.Via M S s0 := by
    unfold s0
    exact State.updFuse_via hs (sub hk)
  clear_value s0
  have hs4 : State.Via M S s4 := by
    unfold s4
    split
    · exact State.updFuse_via hs0 (sub hk)
    · exact hs0
  clear_value s4
  have hs5 : State.Via M S s5 := by
    unfold s5
    exact foldl_via hs4 (fun u6 u7 hu8 => State.updFuse_via hu8 (sub hk))
  clear_value s5
  have hs6 : State.Via M S s6 := by
    unfold s6
    exact State.updFuse_via hs5 (sub hk)
  clear_value s6
  exact foldl_via hs6 (fun u6 u7 hu8 => State.criticalCheck_via hu8 (sub hk))

theorem State.fuseCheck_via {s : State} (hs : State.Via M S s) (hk : [.fuse] ⊆ M) :
    State.Via M S (State.fuseCheck s) := by
  unfold State.fuseCheck
  split
  · split
    · exact hs
    · exact State.updFuse_via hs (sub hk)
  · exact hs

theorem State.jobDone_via {s : State} {j : FuseJob} {status : Nat} {result : List Byte} (hs : State.Via M S s)
    (hk : [.out, .ring, .cnt, .host, .note, .jnl] ⊆ M) : State.Via M S (State.jobDone s j status result) := by
  unfold State.jobDone
  split
  · exact State.completeLater_via hs (sub hk)
  · exact hs

theorem State.retire_via {s : State} (hs : State.Via M S s)
    (hk : [.out, .ring, .cnt, .sched, .host, .note, .jnl] ⊆ M) : State.Via M S (State.retire s) := by
  unfold State.retire
  extract_lets s0
  have hs0 : State.Via M S s0 := by
    unfold s0
    exact State.beginStop_via hs (sub hk)
  clear_value s0
  exact State.updSched_via hs0 (sub hk)

theorem State.jobTakesEffect_via {s : State} {j : FuseJob} (hs : State.Via M S s)
    (hk : [.out, .ring, .cnt, .sched, .host, .note, .jnl, .fuse] ⊆ M) :
    State.Via M S (State.jobTakesEffect s j) := by
  unfold State.jobTakesEffect
  extract_lets t0
  have ht0 : State.Via M S t0 := by
    unfold t0
    exact foldl_via hs (fun u4 u5 hu6 => State.rejudge_via hu6 (sub hk))
  clear_value t0
  split
  · exact State.retire_via ht0 (sub hk)
  · exact ht0

theorem State.endJob_via {s : State} {op : FuseOp} {all : List Nat} {pulsed : Nat} {cut : Bool} (hs : State.Via M S s)
    (hk : [.out, .ring, .cnt, .sched, .host, .note, .jnl, .fuse] ⊆ M) :
    State.Via M S (State.endJob s op all pulsed cut) := by
  unfold State.endJob
  extract_lets s1
  have hs1 : State.Via M S s1 := by
    unfold s1
    exact State.updFuse_via (State.jobTakesEffect_via hs (sub hk)) (sub hk)
  clear_value s1
  split
  exact State.jobDone_via hs1 (sub hk)

theorem State.stepDone_via {s : State} {op : FuseOp} {bs : List (List Nat)} (hs : State.Via M S s)
    (hk : [.out, .ring, .cnt, .sched, .host, .note, .jnl, .fuse] ⊆ M) :
    State.Via M S (State.stepDone s op bs) := by
  induction bs generalizing s op with
  | nil => exact State.endJob_via hs (sub hk)
  | cons b bs ih =>
    unfold State.stepDone
    extract_lets s1 op2
    have hs1 : State.Via M S s1 := by
      unfold s1
      exact State.jobTakesEffect_via hs (sub hk)
    clear_value s1 op2
    split
    · exact State.endJob_via hs (sub hk)
    · split
      · exact ih hs1
      · exact State.updFuse_via hs1 (sub hk)

theorem State.reread_via {s : State} {reads : List (Fin 528 × DWord × DWord)} (hs : State.Via M S s)
    (hk : [.out, .ring, .cnt, .note, .err, .fuse] ⊆ M) : State.Via M S (State.reread s reads) := by
  unfold State.reread
  extract_lets s0 bad1 n2 s3 s4 s5
  clear_value bad1 n2
  have hs0 : State.Via M S s0 := by
    unfold s0
    exact State.count_via hs (sub hk)
  clear_value s0
  have hs3 : State.Via M S s3 := by
    unfold s3
    exact State.count_via hs0 (sub hk)
  clear_value s3
  have hs4 : State.Via M S s4 := by
    unfold s4
    exact State.updFuse_via hs3 (sub hk)
  clear_value s4
  have hs5 : State.Via M S s5 := by
    unfold s5
    exact foldl_via hs4 (fun u6 u7 hu8 => State.errorRec_via hu8 (sub hk))
  clear_value s5
  split
  · exact hs0
  · exact State.eventAt_via hs5 (sub hk)

theorem State.startJob_via {s : State} {j : FuseJob} (hs : State.Via M S s)
    (hk : [.out, .ring, .cnt, .sched, .host, .note, .jnl, .err, .fuse] ⊆ M) :
    State.Via M S (State.startJob s j) := by
  unfold State.startJob
  split
  · exact State.updFuse_via hs (sub hk)
  · split
    · exact State.reread_via hs (sub hk)
    · split
      · exact State.jobDone_via hs (sub hk)
      · extract_lets op0
        clear_value op0
        split
        · exact State.stepDone_via hs (sub hk)
        · exact State.updFuse_via hs (sub hk)

theorem State.nextJobs_via {s : State} {a : Nat} (hs : State.Via M S s)
    (hk : [.out, .ring, .cnt, .sched, .host, .note, .jnl, .err, .fuse] ⊆ M) :
    State.Via M S (State.nextJobs s a) := by
  fun_induction State.nextJobs s a
  · rename_i s0
    exact hs
  · rename_i s1 n2 h3
    exact hs
  · rename_i s4 n5 h6 x7
    exact hs
  · rename_i s8 n9 h10 j11 js12 x13 ih14
    exact ih14 (State.startJob_via (State.updFuse_via hs (sub hk)) (sub hk))

theorem State.pulsesDone_via {s : State} {outs : List (Nat × Nat)} (hs : State.Via M S s)
    (hk : [.out, .ring, .cnt, .sched, .host, .note, .jnl, .err, .fuse] ⊆ M) :
    State.Via M S (State.pulsesDone s outs) := by
  unfold State.pulsesDone
  split
  · exact hs
  · extract_lets os2 os3 s5 op6
    clear_value os2 os3 op6
    have hs5 : State.Via M S s5 := by
      unfold s5
      exact State.putOutcomes_via hs (sub hk)
    clear_value s5
    apply State.nextJobs_via
    · split
      · exact State.endJob_via hs5 (sub hk)
      · exact State.stepDone_via hs5 (sub hk)
    · exact sub hk

end Sys2Proof.Machine
end

