-- ==== Sys2Proof/Laws/ViaHost.lean ====
section
/-! SUPPORT. What each operation of trust, the host commands, the levels and shedding can change (Via.lean), one lemma an operation. -/

set_option Elab.async false

namespace Sys2Proof.Machine

variable {M : List Change} {S : State}

/-! ### Trust -/

theorem State.slotRevoked_via {s : State} {k : Nat} (hs : State.Via M S s) (hk : [.fuse] ⊆ M) :
    State.Via M S (State.slotRevoked s k) := by
  unfold State.slotRevoked
  exact State.updFuse_via hs (sub hk)

theorem State.writeTable_via {s : State} {body : List Byte} {id : Nat} (hs : State.Via M S s)
    (hk : [.upsets, .mem, .poison, .wbQueue, .cnt, .hbm] ⊆ M) : State.Via M S (State.writeTable s body id) := by
  unfold State.writeTable
  split
  · exact State.writeMerged_via hs (sub hk)
  · exact hs

theorem State.loadCalibration_via {s : State} {body : List Byte} (hs : State.Via M S s)
    (hk : [.upsets, .mem, .poison, .wbQueue, .cnt, .hbm, .img, .wav, .trust, .ready] ⊆ M) :
    State.Via M S (State.loadCalibration s body) := by
  unfold State.loadCalibration
  extract_lets s0 s1 s2
  have hs0 : State.Via M S s0 := by
    unfold s0
    exact foldl_via hs (fun u3 u4 hu5 => State.writeTable_via hu5 (sub hk))
  clear_value s0
  have hs1 : State.Via M S s1 := by
    unfold s1
    exact State.updImg_via hs0 (sub hk)
  clear_value s1
  have hs2 : State.Via M S s2 := by
    unfold s2
    split
    · exact State.updWav_via hs1 (sub hk)
    · exact hs1
  clear_value s2
  exact State.setReady_via (State.updTrust_via hs2 (sub hk)) (sub hk)

theorem State.applyContainer_via {s : State} {a : Accepted} {b : List Byte} (hs : State.Via M S s)
    (hk : [.out, .upsets, .mem, .ring, .poison, .wbQueue, .cnt, .sched, .hbm, .img, .wav, .net, .host, .note, .jnl,
      .err, .fuse, .trust, .ready] ⊆ M) :
    State.Via M S (State.applyContainer s a b) := by
  unfold State.applyContainer
  extract_lets body0 done1 ws2
  clear_value body0 ws2
  split
  · split
    · unfold done1
      exact State.completeLater_via hs (sub hk)
    · exact State.startJob_via hs (sub hk)
  · split
    rename_i x3 st4 s5 heq6
    have hs5 : State.Via M S s5 := by
      exact via2 heq6 (State.installTemplate_via hs (sub hk))
    unfold done1
    exact State.completeLater_via hs5 (sub hk)
  · split
    · unfold done1
      exact State.completeLater_via (State.loadCalibration_via hs (sub hk)) (sub hk)
    · unfold done1
      exact State.completeLater_via hs (sub hk)
  · split
    · split
      · exact State.startJob_via hs (sub hk)
      · unfold done1
        exact State.completeLater_via hs (sub hk)
    · split
      · unfold done1
        exact State.completeLater_via (State.updTrust_via hs (sub hk)) (sub hk)
      · split
        · unfold done1
          exact State.completeLater_via hs (sub hk)
        · exact State.slotRevoked_via (State.startJob_via hs (sub hk)) (sub hk)
  · unfold done1
    exact State.completeLater_via hs (sub hk)

theorem State.containerChecked_via {s : State} {a : Accepted} (hs : State.Via M S s)
    (hk : [.freeCtr, .out, .upsets, .mem, .ring, .poison, .wbQueue, .cnt, .sched, .hbm, .img, .wav, .net, .host,
      .note, .jnl, .err, .fuse, .trust, .ready] ⊆ M) :
    State.Via M S (State.containerChecked s a) := by
  unfold State.containerChecked
  split
  split
  rename_i x0 b1 s2 heq3
  have hs2 : State.Via M S s2 := by
    exact via2 heq3 (State.readControl_via hs (sub hk))
  extract_lets dig4 a5 st6
  clear_value dig4 a5 st6
  split
  · exact State.applyContainer_via hs2 (sub hk)
  · exact State.completeLater_via hs2 (sub hk)

theorem State.beginContainer_via {s : State} {a : Accepted} (hs : State.Via M S s)
    (hk : [.freeCtr, .out, .upsets, .mem, .ring, .poison, .wbQueue, .cnt, .hbm, .img, .host, .note, .jnl, .err,
    .trust] ⊆ M) : State.Via M S (State.beginContainer s a) := by
  unfold State.beginContainer
  split
  extract_lets ok0
  clear_value ok0
  split
  · exact State.updTrust_via hs (sub hk)
  · exact State.refuseContainer_via hs (sub hk)

theorem State.writeFlash_via {s : State} {a : Nat} {bs : List Byte} (hs : State.Via M S s) (hk : [.trust] ⊆ M) :
    State.Via M S (State.writeFlash s a bs) := by
  unfold State.writeFlash
  exact State.updTrust_via hs (sub hk)

theorem State.eraseSlot_via {s : State} {k : Nat} (hs : State.Via M S s) (hk : [.trust] ⊆ M) :
    State.Via M S (State.eraseSlot s k) := by
  unfold State.eraseSlot
  exact State.updTrust_via hs (sub hk)

theorem State.burn_via {s : State} {ps : List Nat} (hs : State.Via M S s) (hk : [.cnt, .fuse] ⊆ M) :
    State.Via M S (State.burn s ps) := by
  unfold State.burn
  exact State.putOutcomes_via hs (sub hk)

theorem State.generateIdentity_via {s : State} (hs : State.Via M S s)
    (hk : [.freeCtr, .out, .ring, .cnt, .note, .fuse, .trust] ⊆ M) : State.Via M S (State.generateIdentity s) := by
  unfold State.generateIdentity
  split
  · extract_lets d0 ws1 priv1 nonce1 s2 s3 s4 s5 dig5 s6
    clear_value d0 ws1 priv1 nonce1 dig5
    have hs2 : State.Via M S s2 := by
      unfold s2
      exact State.drawn_via hs (sub hk)
    clear_value s2
    have hs3 : State.Via M S s3 := by
      unfold s3
      exact State.burn_via hs2 (sub hk)
    clear_value s3
    have hs4 : State.Via M S s4 := by
      unfold s4
      exact State.burn_via hs3 (sub hk)
    clear_value s4
    have hs5 : State.Via M S s5 := by
      unfold s5
      exact State.writeFlash_via hs4 (sub hk)
    clear_value s5
    have hs6 : State.Via M S s6 := by
      unfold s6
      split
      · exact State.burn_via hs5 (sub hk)
      · exact hs5
    clear_value s6
    exact foldl_via hs6 (fun u7 u8 hu9 => State.rejudge_via hu9 (sub hk))
  · exact hs

theorem State.writeRestored_via {s : State} {i : Nat} {a : List (List Byte)} (hs : State.Via M S s) (hk : [.mem] ⊆ M)
      :
    State.Via M S (State.writeRestored s i a) := by
  fun_induction State.writeRestored s i a
  · rename_i s0 i1
    exact hs
  · rename_i s2 i3 e4 es5 ih6
    exact ih6 (State.writeB_via hs (sub hk))

theorem State.restoreJournal_via {s : State} (hs : State.Via M S s) (hk : [.mem, .ring, .jnl] ⊆ M) :
    State.Via M S (State.restoreJournal s) := by
  unfold State.restoreJournal
  extract_lets j0 n1 s2 src3 s4
  clear_value j0 n1
  have hs2 : State.Via M S s2 := by
    unfold s2
    exact State.writeRestored_via hs (sub hk)
  clear_value s2
  have hs4 : State.Via M S s4 := by
    unfold s4
    exact hs2.upd (State.via_jnl rfl (by rfl)) (sub hk)
  clear_value s4
  split
  · exact State.journalDev_via hs4 (sub hk)
  · exact State.journalDev_via hs4 (sub hk)

theorem State.publishLastState_via {s : State} (hs : State.Via M S s) (hk : [.mem, .err] ⊆ M) :
    State.Via M S (State.publishLastState s) := by
  unfold State.publishLastState
  extract_lets rec0 s1
  clear_value rec0
  have hs1 : State.Via M S s1 := by
    unfold s1
    exact State.updErr_via hs (sub hk) (fun _ => rfl)
  clear_value s1
  split
  · exact hs1
  · exact State.writeB_via hs1 (sub hk)

theorem State.eraseLeft_via {s : State} (hs : State.Via M S s)
    (hk : [.out, .ring, .cnt, .sched, .host, .note, .jnl, .err, .fuse] ⊆ M) : State.Via M S (State.eraseLeft s) := by
  unfold State.eraseLeft
  split
  · exact State.startJob_via hs (sub hk)
  · exact hs

theorem State.startFirmware_via {s : State} {slot : Nat} {b : List Byte} (hs : State.Via M S s)
    (hk : [.freeCtr, .out, .mem, .ring, .cnt, .sched, .host, .note, .jnl, .err, .fuse, .trust, .ready] ⊆ M) :
    State.Via M S (State.startFirmware s slot b) := by
  unfold State.startFirmware
  extract_lets s0 s1 s2 s3 s4 s5
  have hs0 : State.Via M S s0 := by
    unfold s0
    exact State.updTrust_via hs (sub hk)
  clear_value s0
  have hs1 : State.Via M S s1 := by
    unfold s1
    exact State.writeB_via hs0 (sub hk)
  clear_value s1
  have hs2 : State.Via M S s2 := by
    unfold s2
    exact State.generateIdentity_via hs1 (sub hk)
  clear_value s2
  have hs3 : State.Via M S s3 := by
    unfold s3
    exact State.updTrust_via hs2 (sub hk)
  clear_value s3
  have hs4 : State.Via M S s4 := by
    unfold s4
    exact State.publishLastState_via hs3 (sub hk)
  clear_value s4
  have hs5 : State.Via M S s5 := by
    unfold s5
    split
    · exact hs4
    · exact State.restoreJournal_via hs4 (sub hk)
  clear_value s5
  exact State.eraseLeft_via (State.setReady_via (State.setReady_via hs5 (sub hk)) (sub hk)) (sub hk)

theorem State.bootFailed_via {s : State} {status : Nat} (hs : State.Via M S s) (hk : [.pwr] ⊆ M) :
    State.Via M S (State.bootFailed s status) := by
  unfold State.bootFailed
  exact State.updPwr_via hs (sub hk)

theorem State.bootRom_via {s : State} (hs : State.Via M S s)
    (hk : [.freeCtr, .out, .mem, .ring, .cnt, .sched, .host, .note, .jnl, .err, .pwr, .fuse, .trust, .ready] ⊆ M) :
    State.Via M S (State.bootRom s) := by
  unfold State.bootRom
  extract_lets strap0 k1 b2 st3 s4 b5 st6
  clear_value strap0 k1 b2 st3 b5 st6
  have hs4 : State.Via M S s4 := by
    unfold s4
    exact State.updTrust_via hs (sub hk)
  clear_value s4
  split
  · exact State.updTrust_via hs (sub hk)
  · split
    · exact State.startFirmware_via hs (sub hk)
    · split
      · exact State.startFirmware_via hs4 (sub hk)
      · exact State.updTrust_via (State.bootFailed_via hs4 (sub hk)) (sub hk)

theorem State.bootPush_via {s : State} (hs : State.Via M S s)
    (hk : [.freeCtr, .out, .mem, .ring, .cnt, .sched, .host, .note, .jnl, .err, .pwr, .fuse, .trust, .ready] ⊆ M) :
    State.Via M S (State.bootPush s) := by
  unfold State.bootPush
  split
  · extract_lets hd0 b1 st2
    clear_value hd0 b1 st2
    split
    · exact State.startFirmware_via hs (sub hk)
    · exact State.bootFailed_via hs (sub hk)
  · exact hs

theorem State.beginUpdate_via {s : State} {a : Accepted} (hs : State.Via M S s)
    (hk : [.freeCtr, .out, .upsets, .mem, .ring, .poison, .wbQueue, .cnt, .hbm, .img, .host, .note, .jnl, .err,
      .trust] ⊆ M) :
    State.Via M S (State.beginUpdate s a) := by
  unfold State.beginUpdate
  split
  split
  · exact State.completeLater_via hs (sub hk)
  · split
    rename_i x0 b1 s2 heq3
    have hs2 : State.Via M S s2 := by
      exact via2 heq3 (State.readControl_via hs (sub hk))
    extract_lets st4
    clear_value st4
    split
    · exact State.updTrust_via (State.eraseSlot_via hs2 (sub hk)) (sub hk)
    · exact State.completeLater_via hs2 (sub hk)

theorem State.updateWritten_via {s : State} {a : Accepted} {ok : Bool} (hs : State.Via M S s)
    (hk : [.freeCtr, .out, .ring, .cnt, .host, .note, .jnl, .trust] ⊆ M) :
    State.Via M S (State.updateWritten s a ok) := by
  unfold State.updateWritten
  extract_lets k0 s1 s2 s3
  clear_value k0
  have hs1 : State.Via M S s1 := by
    unfold s1
    exact State.updTrust_via hs (sub hk)
  clear_value s1
  have hs2 : State.Via M S s2 := by
    unfold s2
    exact State.writeFlash_via hs1 (sub hk)
  clear_value s2
  have hs3 : State.Via M S s3 := by
    unfold s3
    split
    · exact hs2
    · exact State.drawn_via hs2 (sub hk)
  clear_value s3
  exact State.completeLater_via hs3 (sub hk)

theorem execUpdateFirmwareWritten_via {ok : Bool} {s : State} (hs : State.Via M S s)
    (hk : [.freeCtr, .out, .ring, .cnt, .idle, .host, .note, .jnl, .trust] ⊆ M) :
    Keeps (State.Via M S) (execUpdateFirmwareWritten ok s) := by
  unfold execUpdateFirmwareWritten
  split
  · exact keeps_next (State.noteIdle_via (State.updateWritten_via hs (sub hk)) (sub hk))
  · exact keeps_next hs

theorem State.fixActivation_via {s : State} (hs : State.Via M S s)
    (hk : [.out, .ring, .cnt, .host, .note, .jnl, .trust] ⊆ M) : State.Via M S (State.fixActivation s) := by
  unfold State.fixActivation
  split
  · split
    · extract_lets t0
      clear_value t0
      exact State.completeLater_via (State.updTrust_via hs (sub hk)) (sub hk)
    · exact hs
  · exact hs

theorem State.beginActivate_via {s : State} {a : Accepted} {k : Nat} (hs : State.Via M S s)
    (hk : [.out, .ring, .cnt, .host, .note, .jnl, .trust] ⊆ M) : State.Via M S (State.beginActivate s a k) := by
  unfold State.beginActivate
  split
  · exact State.completeLater_via hs (sub hk)
  · split
    · exact State.completeLater_via hs (sub hk)
    · exact State.fixActivation_via (State.updTrust_via hs (sub hk)) (sub hk)

theorem State.activateNow_via {s : State} (hs : State.Via M S s)
    (hk : [.freeCtr, .upsets, .mem, .poison, .wbQueue, .cnt, .tk, .facets, .sched, .ap, .hbm, .dma, .tmplStatus,
    .exp, .cnd, .img, .wav, .net, .beam, .host, .jnl, .err, .pwr, .fuse, .trust, .idle, .ready] ⊆ M) :
    State.Via M S (State.activateNow s) := by
  unfold State.activateNow
  split
  · extract_lets s0
    have hs0 : State.Via M S s0 := by
      unfold s0
      exact State.updTrust_via hs (sub hk)
    clear_value s0
    exact State.startUp_via (State.internalReset_via hs0 (sub hk)) (sub hk)
  · exact hs

theorem State.programRollback_via {s : State} (hs : State.Via M S s)
    (hk : [.out, .ring, .cnt, .sched, .host, .note, .jnl, .err, .fuse, .trust] ⊆ M) :
    State.Via M S (State.programRollback s) := by
  unfold State.programRollback
  split
  · exact State.startJob_via (State.updTrust_via hs (sub hk)) (sub hk)
  · exact State.updTrust_via hs (sub hk)

theorem execTrialEnd_via {s : State} (hs : State.Via M S s)
    (hk : [.out, .ring, .cnt, .tk, .sched, .hbm, .host, .note, .jnl, .err, .fuse, .trust, .idle] ⊆ M) :
    Keeps (State.Via M S) (execTrialEnd s) := by
  unfold execTrialEnd
  split
  · exact keeps_next (State.programRollback_via
      (State.updTrust_via (State.setTime_via hs (sub hk)) (sub hk)) (sub hk))
  · exact keeps_next hs

theorem execRollbackRetry_via {s : State} (hs : State.Via M S s)
    (hk : [.out, .ring, .cnt, .sched, .host, .note, .jnl, .err, .fuse, .trust] ⊆ M) :
    Keeps (State.Via M S) (execRollbackRetry s) := by
  unfold execRollbackRetry
  apply keeps_next
  split
  · exact State.programRollback_via hs (sub hk)
  · exact hs

theorem State.beginAttest_via {s : State} {a : Accepted} {nonce : List Byte} {dst : Nat} {len : Nat}
    (hs : State.Via M S s) (hk : [.out, .ring, .cnt, .host, .note, .jnl] ⊆ M) :
    State.Via M S (State.beginAttest s a nonce dst len) := by
  unfold State.beginAttest
  extract_lets certs0
  clear_value certs0
  split
  · exact State.completeLater_via hs (sub hk)
  · split
    · exact State.completeLater_via hs (sub hk)
    · exact State.updHost_via hs (sub hk)

theorem execAttestSigned_via {s : State} (hs : State.Via M S s)
    (hk : [.out, .upsets, .mem, .ring, .poison, .wbQueue, .cnt, .idle, .hbm, .host, .note, .jnl] ⊆ M) :
    Keeps (State.Via M S) (execAttestSigned s) := by
  unfold execAttestSigned
  split
  · exact keeps_next hs
  · split
    · extract_lets r0
      clear_value r0
      split
      rename_i x1 st2 s3 heq4
      have hs3 : State.Via M S s3 := by
        exact via2 heq4 (State.writeResult_via hs (sub hk))
      exact keeps_next (State.noteIdle_via (State.completeLater_via hs3 (sub hk)) (sub hk))
    · exact keeps_next hs

/-! ### HostCmd -/

theorem State.setMirror_via {s : State} {b : List Byte} (hs : State.Via M S s) (hk : [.jnl] ⊆ M) :
    State.Via M S (State.setMirror s b).2 := by
  unfold State.setMirror
  extract_lets j0 base1 meets2 src3
  clear_value j0 base1
  split
  · exact hs
  · split
    · exact hs
    · split
      · exact hs
      · dsimp -zeta only
        exact hs.upd (State.via_jnl rfl (by rfl)) (sub hk)

theorem State.setEventData_via {s : State} {b : List Byte} (hs : State.Via M S s) (hk : [.host] ⊆ M) :
    State.Via M S (State.setEventData s b).2 := by
  unfold State.setEventData
  extract_lets base0 size1
  clear_value base0 size1
  split
  · exact hs
  · dsimp -zeta only
    exact State.updHost_via hs (sub hk)

theorem State.applySet_via {s : State} {set : Nat} {b : List Byte} (hs : State.Via M S s)
    (hk : [.out, .ring, .cnt, .dma, .wav, .net, .beam, .host, .note, .jnl, .ready] ⊆ M) :
    State.Via M S (State.applySet s set b).2 := by
  unfold State.applySet
  split
  · exact State.setDmaChain_via hs (sub hk)
  · split
    · exact State.setMirror_via hs (sub hk)
    · split
      · exact State.setEventData_via hs (sub hk)
      · split
        · exact State.setAnalogRef_via hs (sub hk)
        · split
          · exact State.setWavePeriod_via hs (sub hk)
          · split
            · exact State.setWaveCal_via hs (sub hk)
            · split
              · exact State.setOpenWire_via hs (sub hk)
              · split
                · exact State.setPortSet_via hs (sub hk)
                · split
                  · exact State.setPtpSet_via hs (sub hk)
                  · split
                    · exact State.setEtSet_via hs (sub hk)
                    · exact State.setBeamSystem_via hs (sub hk)

theorem State.setBytes_via {s : State} {flags : Nat} {len : Nat} {inl : List Byte} (hs : State.Via M S s)
    (hk : [.freeCtr, .out, .upsets, .mem, .ring, .poison, .wbQueue, .cnt, .hbm, .img, .note, .err] ⊆ M) :
    State.Via M S (State.setBytes s flags len inl).2 := by
  unfold State.setBytes
  split
  · extract_lets a0
    clear_value a0
    split
    · split
      rename_i x1 b2 s3 heq4
      have hs3 : State.Via M S s3 := by
        exact via2 heq4 (State.readControl_via hs (sub hk))
      exact hs3
    · exact hs
  · split <;> exact hs

theorem State.setParams_via {s : State} {flags : Nat} {set : Nat} {len : Nat} {inl : List Byte} (hs : State.Via M S s)
    (hk : [.freeCtr, .out, .upsets, .mem, .ring, .poison, .wbQueue, .cnt, .hbm, .dma, .img, .wav, .net, .beam, .host,
      .note, .jnl, .err, .ready] ⊆ M) :
    State.Via M S (State.setParams s flags set len inl).2 := by
  unfold State.setParams
  split
  · rename_i x0 b1 s2 heq3
    have hs2 : State.Via M S s2 := by
      exact via2 heq3 (State.setBytes_via hs (sub hk))
    split
    · exact State.applySet_via hs2 (sub hk)
    · exact hs2
  · rename_i x4 s5 heq6
    have hs5 : State.Via M S s5 := by
      exact via2 heq6 (State.setBytes_via hs (sub hk))
    exact hs5

theorem State.finish_via {s : State} {a : Accepted} {st : Nat} {result : List Byte} (hs : State.Via M S s)
    (hk : [.out, .ring, .cnt, .host, .note, .jnl] ⊆ M) : State.Via M S (State.finish s a st result) := by
  unfold State.finish
  exact State.completeLater_via hs (sub hk)

theorem State.beginFuse_via {s : State} {a : Accepted} {region : Nat} {j : FuseJob} (hs : State.Via M S s)
    (hk : [.out, .ring, .cnt, .sched, .host, .note, .jnl, .err, .fuse] ⊆ M) :
    State.Via M S (State.beginFuse s a region j) := by
  unfold State.beginFuse
  split
  · exact State.startJob_via hs (sub hk)
  · exact State.completeLater_via hs (sub hk)

theorem State.beginStopCmd_via {s : State} {a : Accepted} (hs : State.Via M S s)
    (hk : [.out, .ring, .cnt, .sched, .host, .note, .jnl] ⊆ M) : State.Via M S (State.beginStopCmd s a) := by
  unfold State.beginStopCmd
  extract_lets boundary0 t1
  clear_value boundary0 t1
  split
  · exact State.completeLater_via hs (sub hk)
  · exact State.beginStop_via (State.completeLater_via hs (sub hk)) (sub hk)

theorem State.beginAbort_via {s : State} {a : Accepted} {e : Nat} {c : Nat} (hs : State.Via M S s)
    (hk : [.freeCtr, .out, .upsets, .mem, .ring, .poison, .wbQueue, .cnt, .facets, .sched, .hbm, .dma, .tmplStatus,
    .exp, .cnd, .host, .note, .jnl] ⊆ M) :
    State.Via M S (State.beginAbort s a e c) := by
  unfold State.beginAbort
  split
  · exact State.completeLater_via hs (sub hk)
  · split
    rename_i x0 st1 s2 heq3
    have hs2 : State.Via M S s2 := by
      exact via2 heq3 (State.abortChannel_via hs (sub hk))
    exact State.finish_via hs2 (sub hk)

theorem State.beginRegionRestart_via {s : State} {a : Accepted} {mask : Nat} (hs : State.Via M S s)
    (hk : [.freeCtr, .out, .upsets, .mem, .ring, .poison, .wbQueue, .cnt, .facets, .sched, .ap, .hbm, .dma,
    .tmplStatus, .exp, .cnd, .img, .wav, .net, .beam, .host, .note, .jnl, .err, .pwr, .ready] ⊆ M) :
    State.Via M S (State.beginRegionRestart s a mask) := by
  unfold State.beginRegionRestart
  split
  · exact State.completeLater_via hs (sub hk)
  · exact State.restartMask_via (State.updErr_via hs (sub hk) (fun _ => rfl)) (sub hk)

theorem State.beginStartCmd_via {s : State} {a : Accepted} {t : Nat} (hs : State.Via M S s)
    (hk : [.out, .ring, .cnt, .sched, .dma, .host, .note, .jnl] ⊆ M) :
    State.Via M S (State.beginStartCmd s a t) := by
  unfold State.beginStartCmd
  extract_lets st0
  clear_value st0
  split
  · exact State.completeLater_via hs (sub hk)
  · exact State.beginStart_via hs (sub hk)

theorem State.runFg_via {s : State} {a : Accepted} (hs : State.Via M S s) (hk : [.freeCtr, .out, .upsets, .mem, .ring,
      .poison, .wbQueue, .cnt, .facets, .sched, .ap, .hbm, .dma, .tmplStatus, .exp, .cnd, .img, .wav, .net, .beam,
      .host, .note, .jnl, .err, .pwr, .fuse, .trust, .ready] ⊆ M) :
    State.Via M S (s.runFg a) := by
  unfold State.runFg
  split
  · exact State.completeLater_via hs (sub hk)
  cases a.desc.cmd <;> first
    | exact State.completeLater_via hs (sub hk)
    | exact State.beginStartCmd_via hs (sub hk)
    | exact State.beginStopCmd_via hs (sub hk)
    | exact State.finish_via (State.setParams_via hs (sub hk)) (sub hk)
    | exact State.finish_via (State.setSensorSet_via hs (sub hk)) (sub hk)
    | exact State.finish_via (State.openWindow_via hs (sub hk)) (sub hk)
    | exact State.finish_via (State.closeWindow_via hs (sub hk)) (sub hk)
    | exact State.finish_via (State.armSnapshot_via hs (sub hk)) (sub hk)
    | exact State.beginFuse_via hs (sub hk)
    | exact State.beginActivate_via hs (sub hk)
    | exact State.beginAbort_via hs (sub hk)
    | exact State.beginRegionRestart_via hs (sub hk)
    | exact State.beginContainer_via hs (sub hk)
    | exact State.beginGlobal_via hs (sub hk)

theorem State.holdResult_via {s : State} {a : Accepted} {bs : List Byte} {bads : List Nat} {num : Nat} {dst : Nat} {len : Nat}
    (hs : State.Via M S s) (hk : [.out, .ring, .cnt, .host, .note, .jnl] ⊆ M) :
    State.Via M S (State.holdResult s a bs bads num dst len) := by
  unfold State.holdResult
  split
  · exact State.completeLater_via hs (sub hk)
  · exact State.updHost_via hs (sub hk)

theorem State.beginReadJournal_via {s : State} {a : Accepted} {first : Nat} {n : Nat} {dst : Nat} (hs : State.Via M S
      s)
    (hk : [.freeCtr, .out, .upsets, .mem, .ring, .poison, .wbQueue, .cnt, .hbm, .img, .host, .note, .jnl, .err] ⊆ M) :
    State.Via M S (State.beginReadJournal s a first n dst) := by
  unfold State.beginReadJournal
  split
  · exact State.completeLater_via hs (sub hk)
  · split
    · exact State.completeLater_via hs (sub hk)
    · split
      rename_i x0 b1 bads2 s2 heq3
      have hs2 : State.Via M S s2 := by
        exact via3 heq3 (State.journalEntries_via hs (sub hk))
      exact State.holdResult_via hs2 (sub hk)

theorem State.runBg_via {s : State} {a : Accepted} (hs : State.Via M S s)
    (hk : [.freeCtr, .out, .upsets, .mem, .ring, .poison, .wbQueue, .cnt, .sched, .hbm, .dma, .img, .net, .beam,
      .host, .note, .jnl, .err, .fuse, .trust] ⊆ M) :
    State.Via M S (State.runBg s a) := by
  unfold State.runBg
  split
  · split
    · exact State.holdResult_via hs (sub hk)
    · exact State.completeLater_via hs (sub hk)
  · split
    · exact State.holdResult_via hs (sub hk)
    · exact State.completeLater_via hs (sub hk)
  · exact State.beginReadJournal_via hs (sub hk)
  · exact State.beginAttest_via hs (sub hk)
  · exact State.beginContainer_via hs (sub hk)
  · exact State.beginContainer_via hs (sub hk)
  · exact State.beginUpdate_via hs (sub hk)
  · split
    · exact State.completeLater_via hs (sub hk)
    · exact State.beginFuse_via hs (sub hk)
  · exact State.beginGlobal_via hs (sub hk)
  · exact hs

theorem State.refuseLoad_via {s : State} {a : Accepted} (hs : State.Via M S s)
    (hk : [.freeCtr, .out, .upsets, .mem, .ring, .poison, .wbQueue, .cnt, .hbm, .img, .host, .note, .jnl, .err] ⊆
      M) :
    State.Via M S (State.refuseLoad s a) := by
  unfold State.refuseLoad
  extract_lets at0
  clear_value at0
  exact State.refuseContainer_via hs (sub hk)

theorem State.beginCmd_via {s : State} {a : Accepted} (hs : State.Via M S s)
    (hk : [.freeCtr, .out, .upsets, .mem, .ring, .poison, .wbQueue, .cnt, .facets, .sched, .ap, .hbm, .dma,
    .tmplStatus, .exp, .cnd, .img, .wav, .net, .beam, .host, .note, .jnl, .err, .pwr, .fuse, .trust, .ready] ⊆ M) :
    State.Via M S (State.beginCmd s a) := by
  unfold State.beginCmd
  split
  · extract_lets busy0 s1
    clear_value busy0
    have hs1 : State.Via M S s1 := by
      unfold s1
      exact State.updHost_via hs (sub hk)
    clear_value s1
    split
    · exact State.refuseLoad_via hs1 (sub hk)
    · exact State.runBg_via hs1 (sub hk)
  · split
    · exact State.runFg_via (State.updHost_via hs (sub hk)) (sub hk)
    · exact State.updHost_via hs (sub hk)

theorem State.runDeferredN_via {s : State} {a : Nat} (hs : State.Via M S s)
    (hk : [.freeCtr, .out, .upsets, .mem, .ring, .poison, .wbQueue, .cnt, .facets, .sched, .ap, .hbm, .dma,
    .tmplStatus, .exp, .cnd, .img, .wav, .net, .beam, .host, .note, .jnl, .err, .pwr, .fuse, .trust, .ready] ⊆ M) :
    State.Via M S (State.runDeferredN s a) := by
  fun_induction State.runDeferredN s a
  · rename_i s0
    exact hs
  · rename_i s1 n2 a3 rest4 x5 x6 ih7
    exact ih7 (State.runFg_via (State.updHost_via hs (sub hk)) (sub hk))
  · rename_i s8 n9 x10
    exact hs

theorem State.runDeferred_via {s : State} (hs : State.Via M S s)
    (hk : [.freeCtr, .out, .upsets, .mem, .ring, .poison, .wbQueue, .cnt, .facets, .sched, .ap, .hbm, .dma,
    .tmplStatus, .exp, .cnd, .img, .wav, .net, .beam, .host, .note, .jnl, .err, .pwr, .fuse, .trust, .ready] ⊆ M) :
    State.Via M S (State.runDeferred s) := by
  unfold State.runDeferred
  exact State.runDeferredN_via hs (sub hk)

theorem State.settle_via {s : State} (hs : State.Via M S s)
    (hk : [.freeCtr, .out, .upsets, .mem, .ring, .poison, .wbQueue, .cnt, .facets, .sched, .ap, .hbm, .dma,
    .tmplStatus, .exp, .cnd, .img, .wav, .net, .beam, .host, .note, .jnl, .err, .pwr, .fuse, .trust, .ready] ⊆ M) :
    State.Via M S (State.settle s) := by
  unfold State.settle
  exact State.runDeferred_via (State.fixStart_via (State.armPreloads_via hs (sub hk)) (sub hk)) (sub hk)

theorem State.refuse_via {s : State} {seq : Nat} {opcode : Nat} {status : Nat} {result : List Byte} (hs : State.Via M
      S s)
    (hk : [.out, .ring, .cnt, .note] ⊆ M) : State.Via M S (State.refuse s seq opcode status result) := by
  unfold State.refuse
  exact State.cmdDone_via (State.count_via hs (sub hk)) (sub hk)

theorem State.takeCmd_via {s : State} {d : Desc} {b : List Byte} (hs : State.Via M S s)
    (hk : [.freeCtr, .out, .upsets, .mem, .ring, .poison, .wbQueue, .cnt, .facets, .sched, .ap, .hbm, .dma,
    .tmplStatus, .exp, .cnd, .img, .wav, .net, .beam, .host, .note, .jnl, .err, .pwr, .fuse, .trust, .ready] ⊆ M) :
    State.Via M S (State.takeCmd s d b) := by
  unfold State.takeCmd
  extract_lets st0 a1
  clear_value st0 a1
  split
  · exact State.refuse_via hs (sub hk)
  · exact State.beginCmd_via (State.updHost_via hs (sub hk)) (sub hk)

theorem State.takeBytes_via {s : State} {b : List Byte} (hs : State.Via M S s)
    (hk : [.freeCtr, .out, .upsets, .mem, .ring, .poison, .wbQueue, .cnt, .facets, .sched, .ap, .hbm, .dma,
    .tmplStatus, .exp, .cnd, .img, .wav, .net, .beam, .host, .note, .jnl, .err, .pwr, .fuse, .trust, .ready] ⊆ M) :
    State.Via M S (State.takeBytes s b) := by
  unfold State.takeBytes
  split
  · exact State.takeCmd_via hs (sub hk)
  · exact State.refuse_via hs (sub hk)

theorem State.writeSlot_via {s : State} {i : Nat} {b : List Byte} (hs : State.Via M S s) (hk : [.mem, .host] ⊆ M) :
    State.Via M S (State.writeSlot s i b) := by
  unfold State.writeSlot
  split
  · exact State.updHost_via hs (sub hk)
  · exact State.ringWrite_via hs (sub hk)

theorem State.advanceGet_via {s : State} (hs : State.Via M S s) (hk : [.out, .idle, .host, .note] ⊆ M) :
    State.Via M S (State.advanceGet s) := by
  unfold State.advanceGet
  exact State.irq_via (State.updHost_via (State.idleReset_via hs (sub hk)) (sub hk)) (sub hk)

theorem State.serveRing_via {s : State} {a : Nat} (hs : State.Via M S s)
    (hk : [.freeCtr, .out, .upsets, .mem, .ring, .poison, .wbQueue, .cnt, .idle, .facets, .sched, .ap, .hbm, .dma,
    .tmplStatus, .exp, .cnd, .img, .wav, .net, .beam, .host, .note, .jnl, .err, .pwr, .fuse, .trust, .ready] ⊆ M) :
    State.Via M S (State.serveRing s a) := by
  fun_induction State.serveRing s a
  · rename_i s0
    exact hs
  · rename_i s1 n2 h3
    exact hs
  · rename_i s4 n5 h6 b7 ih8
    exact ih8 (State.takeBytes_via (State.advanceGet_via hs (sub hk)) (sub hk))

theorem State.serveAll_via {s : State} (hs : State.Via M S s)
    (hk : [.freeCtr, .out, .upsets, .mem, .ring, .poison, .wbQueue, .cnt, .idle, .facets, .sched, .ap, .hbm, .dma,
    .tmplStatus, .exp, .cnd, .img, .wav, .net, .beam, .host, .note, .jnl, .err, .pwr, .fuse, .trust, .ready] ⊆ M) :
    State.Via M S (State.serveAll s) := by
  unfold State.serveAll
  exact State.serveRing_via hs (sub hk)

theorem State.submit_via {s : State} {d : Desc} (hs : State.Via M S s)
    (hk : [.freeCtr, .out, .upsets, .mem, .ring, .poison, .wbQueue, .cnt, .idle, .facets, .sched, .ap, .hbm, .dma,
    .tmplStatus, .exp, .cnd, .img, .wav, .net, .beam, .host, .note, .jnl, .err, .pwr, .fuse, .trust, .ready] ⊆ M) :
    State.Via M S (State.submit s d) := by
  unfold State.submit
  split
  · exact hs
  · extract_lets b0 i1 s2 s3 s4
    clear_value b0 i1
    have hs2 : State.Via M S s2 := by
      unfold s2
      exact State.writeSlot_via hs (sub hk)
    clear_value s2
    have hs3 : State.Via M S s3 := by
      unfold s3
      exact State.serveRing_via hs2 (sub hk)
    clear_value s3
    have hs4 : State.Via M S s4 := by
      unfold s4
      exact State.updHost_via hs3 (sub hk)
    clear_value s4
    split
    · exact State.updHost_via hs2 (sub hk)
    · exact State.takeCmd_via (State.advanceGet_via hs4 (sub hk)) (sub hk)

theorem execLoadSchedule_via {flags : Half} {seq : Word} {addr : DWord} {len : DWord} {s : State}
    (hs : State.Via M S s)
    (hk : [.freeCtr, .out, .upsets, .mem, .ring, .poison, .wbQueue, .cnt, .idle, .facets, .sched, .ap, .hbm, .dma,
    .tmplStatus, .exp, .cnd, .img, .wav, .net, .beam, .host, .note, .jnl, .err, .pwr, .fuse, .trust, .ready] ⊆ M) :
    Keeps (State.Via M S) (execLoadSchedule flags seq addr len s) := by
  unfold execLoadSchedule
  exact keeps_next (State.submit_via hs (sub hk))

theorem execStart_via {flags : Half} {seq : Word} {t : DWord} {s : State} (hs : State.Via M S s)
    (hk : [.freeCtr, .out, .upsets, .mem, .ring, .poison, .wbQueue, .cnt, .idle, .facets, .sched, .ap, .hbm, .dma,
    .tmplStatus, .exp, .cnd, .img, .wav, .net, .beam, .host, .note, .jnl, .err, .pwr, .fuse, .trust, .ready] ⊆ M) :
    Keeps (State.Via M S) (execStart flags seq t s) := by
  unfold execStart
  exact keeps_next (State.submit_via hs (sub hk))

theorem execStop_via {flags : Half} {seq : Word} {s : State} (hs : State.Via M S s)
    (hk : [.freeCtr, .out, .upsets, .mem, .ring, .poison, .wbQueue, .cnt, .idle, .facets, .sched, .ap, .hbm, .dma,
    .tmplStatus, .exp, .cnd, .img, .wav, .net, .beam, .host, .note, .jnl, .err, .pwr, .fuse, .trust, .ready] ⊆ M) :
    Keeps (State.Via M S) (execStop flags seq s) := by
  unfold execStop
  exact keeps_next (State.submit_via hs (sub hk))

theorem execStats_via {flags : Half} {seq : Word} {dst : DWord} {len : Word} {s : State} (hs : State.Via M S s)
    (hk : [.freeCtr, .out, .upsets, .mem, .ring, .poison, .wbQueue, .cnt, .idle, .facets, .sched, .ap, .hbm, .dma,
    .tmplStatus, .exp, .cnd, .img, .wav, .net, .beam, .host, .note, .jnl, .err, .pwr, .fuse, .trust, .ready] ⊆ M) :
    Keeps (State.Via M S) (execStats flags seq dst len s) := by
  unfold execStats
  exact keeps_next (State.submit_via hs (sub hk))

theorem execDmaChain_via {flags : Half} {seq : Word} {len : Half} {inl : List Byte} {s : State}
    (hs : State.Via M S s)
    (hk : [.freeCtr, .out, .upsets, .mem, .ring, .poison, .wbQueue, .cnt, .idle, .facets, .sched, .ap, .hbm, .dma,
    .tmplStatus, .exp, .cnd, .img, .wav, .net, .beam, .host, .note, .jnl, .err, .pwr, .fuse, .trust, .ready] ⊆ M) :
    Keeps (State.Via M S) (execDmaChain flags seq len inl s) := by
  unfold execDmaChain
  exact keeps_next (State.submit_via hs (sub hk))

theorem execJournalMirror_via {flags : Half} {seq : Word} {len : Half} {inl : List Byte} {s : State}
    (hs : State.Via M S s)
    (hk : [.freeCtr, .out, .upsets, .mem, .ring, .poison, .wbQueue, .cnt, .idle, .facets, .sched, .ap, .hbm, .dma,
    .tmplStatus, .exp, .cnd, .img, .wav, .net, .beam, .host, .note, .jnl, .err, .pwr, .fuse, .trust, .ready] ⊆ M) :
    Keeps (State.Via M S) (execJournalMirror flags seq len inl s) := by
  unfold execJournalMirror
  exact keeps_next (State.submit_via hs (sub hk))

theorem execEventData_via {flags : Half} {seq : Word} {len : Half} {inl : List Byte} {s : State}
    (hs : State.Via M S s)
    (hk : [.freeCtr, .out, .upsets, .mem, .ring, .poison, .wbQueue, .cnt, .idle, .facets, .sched, .ap, .hbm, .dma,
    .tmplStatus, .exp, .cnd, .img, .wav, .net, .beam, .host, .note, .jnl, .err, .pwr, .fuse, .trust, .ready] ⊆ M) :
    Keeps (State.Via M S) (execEventData flags seq len inl s) := by
  unfold execEventData
  exact keeps_next (State.submit_via hs (sub hk))

theorem execAnalogRef_via {flags : Half} {seq : Word} {len : Half} {inl : List Byte} {s : State}
    (hs : State.Via M S s)
    (hk : [.freeCtr, .out, .upsets, .mem, .ring, .poison, .wbQueue, .cnt, .idle, .facets, .sched, .ap, .hbm, .dma,
    .tmplStatus, .exp, .cnd, .img, .wav, .net, .beam, .host, .note, .jnl, .err, .pwr, .fuse, .trust, .ready] ⊆ M) :
    Keeps (State.Via M S) (execAnalogRef flags seq len inl s) := by
  unfold execAnalogRef
  exact keeps_next (State.submit_via hs (sub hk))

theorem execWavePeriod_via {flags : Half} {seq : Word} {len : Half} {inl : List Byte} {s : State}
    (hs : State.Via M S s)
    (hk : [.freeCtr, .out, .upsets, .mem, .ring, .poison, .wbQueue, .cnt, .idle, .facets, .sched, .ap, .hbm, .dma,
    .tmplStatus, .exp, .cnd, .img, .wav, .net, .beam, .host, .note, .jnl, .err, .pwr, .fuse, .trust, .ready] ⊆ M) :
    Keeps (State.Via M S) (execWavePeriod flags seq len inl s) := by
  unfold execWavePeriod
  exact keeps_next (State.submit_via hs (sub hk))

theorem execWaveCal_via {flags : Half} {seq : Word} {len : Half} {inl : List Byte} {s : State} (hs : State.Via M S s)
    (hk : [.freeCtr, .out, .upsets, .mem, .ring, .poison, .wbQueue, .cnt, .idle, .facets, .sched, .ap, .hbm, .dma,
    .tmplStatus, .exp, .cnd, .img, .wav, .net, .beam, .host, .note, .jnl, .err, .pwr, .fuse, .trust, .ready] ⊆ M) :
    Keeps (State.Via M S) (execWaveCal flags seq len inl s) := by
  unfold execWaveCal
  exact keeps_next (State.submit_via hs (sub hk))

theorem execOpenWire_via {flags : Half} {seq : Word} {len : Half} {inl : List Byte} {s : State}
    (hs : State.Via M S s)
    (hk : [.freeCtr, .out, .upsets, .mem, .ring, .poison, .wbQueue, .cnt, .idle, .facets, .sched, .ap, .hbm, .dma,
    .tmplStatus, .exp, .cnd, .img, .wav, .net, .beam, .host, .note, .jnl, .err, .pwr, .fuse, .trust, .ready] ⊆ M) :
    Keeps (State.Via M S) (execOpenWire flags seq len inl s) := by
  unfold execOpenWire
  exact keeps_next (State.submit_via hs (sub hk))

theorem execPort_via {flags : Half} {seq : Word} {len : Half} {inl : List Byte} {s : State} (hs : State.Via M S s)
    (hk : [.freeCtr, .out, .upsets, .mem, .ring, .poison, .wbQueue, .cnt, .idle, .facets, .sched, .ap, .hbm, .dma,
    .tmplStatus, .exp, .cnd, .img, .wav, .net, .beam, .host, .note, .jnl, .err, .pwr, .fuse, .trust, .ready] ⊆ M) :
    Keeps (State.Via M S) (execPort flags seq len inl s) := by
  unfold execPort
  exact keeps_next (State.submit_via hs (sub hk))

theorem execPtp_via {flags : Half} {seq : Word} {len : Half} {inl : List Byte} {s : State} (hs : State.Via M S s)
    (hk : [.freeCtr, .out, .upsets, .mem, .ring, .poison, .wbQueue, .cnt, .idle, .facets, .sched, .ap, .hbm, .dma,
    .tmplStatus, .exp, .cnd, .img, .wav, .net, .beam, .host, .note, .jnl, .err, .pwr, .fuse, .trust, .ready] ⊆ M) :
    Keeps (State.Via M S) (execPtp flags seq len inl s) := by
  unfold execPtp
  exact keeps_next (State.submit_via hs (sub hk))

theorem execEventTimer_via {flags : Half} {seq : Word} {len : Half} {inl : List Byte} {s : State}
    (hs : State.Via M S s)
    (hk : [.freeCtr, .out, .upsets, .mem, .ring, .poison, .wbQueue, .cnt, .idle, .facets, .sched, .ap, .hbm, .dma,
    .tmplStatus, .exp, .cnd, .img, .wav, .net, .beam, .host, .note, .jnl, .err, .pwr, .fuse, .trust, .ready] ⊆ M) :
    Keeps (State.Via M S) (execEventTimer flags seq len inl s) := by
  unfold execEventTimer
  exact keeps_next (State.submit_via hs (sub hk))

theorem execBeamSystem_via {flags : Half} {seq : Word} {len : Half} {inl : List Byte} {s : State}
    (hs : State.Via M S s)
    (hk : [.freeCtr, .out, .upsets, .mem, .ring, .poison, .wbQueue, .cnt, .idle, .facets, .sched, .ap, .hbm, .dma,
    .tmplStatus, .exp, .cnd, .img, .wav, .net, .beam, .host, .note, .jnl, .err, .pwr, .fuse, .trust, .ready] ⊆ M) :
    Keeps (State.Via M S) (execBeamSystem flags seq len inl s) := by
  unfold execBeamSystem
  exact keeps_next (State.submit_via hs (sub hk))

theorem execOpenWindow_via {flags : Half} {seq : Word} {dir : Byte} {window : Byte} {peer : Byte} {kind : Byte}
    {facet : Byte} {region : Byte} {base : DWord} {size : DWord} {s : State} (hs : State.Via M S s)
    (hk : [.freeCtr, .out, .upsets, .mem, .ring, .poison, .wbQueue, .cnt, .idle, .facets, .sched, .ap, .hbm, .dma,
    .tmplStatus, .exp, .cnd, .img, .wav, .net, .beam, .host, .note, .jnl, .err, .pwr, .fuse, .trust, .ready] ⊆ M) :
    Keeps (State.Via M S) (execOpenWindow flags seq dir window peer kind facet region base size s) := by
  unfold execOpenWindow
  exact keeps_next (State.submit_via hs (sub hk))

theorem execCloseWindow_via {flags : Half} {seq : Word} {dir : Byte} {window : Byte} {s : State}
    (hs : State.Via M S s)
    (hk : [.freeCtr, .out, .upsets, .mem, .ring, .poison, .wbQueue, .cnt, .idle, .facets, .sched, .ap, .hbm, .dma,
    .tmplStatus, .exp, .cnd, .img, .wav, .net, .beam, .host, .note, .jnl, .err, .pwr, .fuse, .trust, .ready] ⊆ M) :
    Keeps (State.Via M S) (execCloseWindow flags seq dir window s) := by
  unfold execCloseWindow
  exact keeps_next (State.submit_via hs (sub hk))

theorem execGlobalBarrier_via {flags : Half} {seq : Word} {window : Byte} {opId : Word} {tick : DWord} {arg : Word}
    {timeout : Word} {src : DWord} {len : Word} {s : State} (hs : State.Via M S s)
    (hk : [.freeCtr, .out, .upsets, .mem, .ring, .poison, .wbQueue, .cnt, .idle, .facets, .sched, .ap, .hbm, .dma,
    .tmplStatus, .exp, .cnd, .img, .wav, .net, .beam, .host, .note, .jnl, .err, .pwr, .fuse, .trust, .ready] ⊆ M) :
    Keeps (State.Via M S) (execGlobalBarrier flags seq window opId tick arg timeout src len s) := by
  unfold execGlobalBarrier
  exact keeps_next (State.submit_via hs (sub hk))

theorem execGlobalBroadcast_via {flags : Half} {seq : Word} {window : Byte} {opId : Word} {tick : DWord} {arg : Word}
    {timeout : Word} {src : DWord} {len : Word} {s : State} (hs : State.Via M S s)
    (hk : [.freeCtr, .out, .upsets, .mem, .ring, .poison, .wbQueue, .cnt, .idle, .facets, .sched, .ap, .hbm, .dma,
    .tmplStatus, .exp, .cnd, .img, .wav, .net, .beam, .host, .note, .jnl, .err, .pwr, .fuse, .trust, .ready] ⊆ M) :
    Keeps (State.Via M S) (execGlobalBroadcast flags seq window opId tick arg timeout src len s) := by
  unfold execGlobalBroadcast
  exact keeps_next (State.submit_via hs (sub hk))

theorem execGlobalSnapshot_via {flags : Half} {seq : Word} {window : Byte} {opId : Word} {tick : DWord} {arg : Word}
    {timeout : Word} {src : DWord} {len : Word} {s : State} (hs : State.Via M S s)
    (hk : [.freeCtr, .out, .upsets, .mem, .ring, .poison, .wbQueue, .cnt, .idle, .facets, .sched, .ap, .hbm, .dma,
    .tmplStatus, .exp, .cnd, .img, .wav, .net, .beam, .host, .note, .jnl, .err, .pwr, .fuse, .trust, .ready] ⊆ M) :
    Keeps (State.Via M S) (execGlobalSnapshot flags seq window opId tick arg timeout src len s) := by
  unfold execGlobalSnapshot
  exact keeps_next (State.submit_via hs (sub hk))

theorem execGlobalStart_via {flags : Half} {seq : Word} {window : Byte} {opId : Word} {tick : DWord} {arg : Word}
    {timeout : Word} {src : DWord} {len : Word} {s : State} (hs : State.Via M S s)
    (hk : [.freeCtr, .out, .upsets, .mem, .ring, .poison, .wbQueue, .cnt, .idle, .facets, .sched, .ap, .hbm, .dma,
    .tmplStatus, .exp, .cnd, .img, .wav, .net, .beam, .host, .note, .jnl, .err, .pwr, .fuse, .trust, .ready] ⊆ M) :
    Keeps (State.Via M S) (execGlobalStart flags seq window opId tick arg timeout src len s) := by
  unfold execGlobalStart
  exact keeps_next (State.submit_via hs (sub hk))

theorem execGlobalStop_via {flags : Half} {seq : Word} {window : Byte} {opId : Word} {tick : DWord} {arg : Word}
    {timeout : Word} {src : DWord} {len : Word} {s : State} (hs : State.Via M S s)
    (hk : [.freeCtr, .out, .upsets, .mem, .ring, .poison, .wbQueue, .cnt, .idle, .facets, .sched, .ap, .hbm, .dma,
    .tmplStatus, .exp, .cnd, .img, .wav, .net, .beam, .host, .note, .jnl, .err, .pwr, .fuse, .trust, .ready] ⊆ M) :
    Keeps (State.Via M S) (execGlobalStop flags seq window opId tick arg timeout src len s) := by
  unfold execGlobalStop
  exact keeps_next (State.submit_via hs (sub hk))

theorem execGlobalRestart_via {flags : Half} {seq : Word} {window : Byte} {opId : Word} {tick : DWord} {arg : Word}
    {timeout : Word} {src : DWord} {len : Word} {s : State} (hs : State.Via M S s)
    (hk : [.freeCtr, .out, .upsets, .mem, .ring, .poison, .wbQueue, .cnt, .idle, .facets, .sched, .ap, .hbm, .dma,
    .tmplStatus, .exp, .cnd, .img, .wav, .net, .beam, .host, .note, .jnl, .err, .pwr, .fuse, .trust, .ready] ⊆ M) :
    Keeps (State.Via M S) (execGlobalRestart flags seq window opId tick arg timeout src len s) := by
  unfold execGlobalRestart
  exact keeps_next (State.submit_via hs (sub hk))

theorem execSnapshot_via {flags : Half} {seq : Word} {tick : DWord} {s : State} (hs : State.Via M S s)
    (hk : [.freeCtr, .out, .upsets, .mem, .ring, .poison, .wbQueue, .cnt, .idle, .facets, .sched, .ap, .hbm, .dma,
    .tmplStatus, .exp, .cnd, .img, .wav, .net, .beam, .host, .note, .jnl, .err, .pwr, .fuse, .trust, .ready] ⊆ M) :
    Keeps (State.Via M S) (execSnapshot flags seq tick s) := by
  unfold execSnapshot
  exact keeps_next (State.submit_via hs (sub hk))

theorem execReadCounters_via {flags : Half} {seq : Word} {dst : DWord} {len : Word} {s : State}
    (hs : State.Via M S s)
    (hk : [.freeCtr, .out, .upsets, .mem, .ring, .poison, .wbQueue, .cnt, .idle, .facets, .sched, .ap, .hbm, .dma,
    .tmplStatus, .exp, .cnd, .img, .wav, .net, .beam, .host, .note, .jnl, .err, .pwr, .fuse, .trust, .ready] ⊆ M) :
    Keeps (State.Via M S) (execReadCounters flags seq dst len s) := by
  unfold execReadCounters
  exact keeps_next (State.submit_via hs (sub hk))

theorem execReadJournal_via {flags : Half} {seq : Word} {first : DWord} {count : Word} {dst : DWord} {s : State}
    (hs : State.Via M S s)
    (hk : [.freeCtr, .out, .upsets, .mem, .ring, .poison, .wbQueue, .cnt, .idle, .facets, .sched, .ap, .hbm, .dma,
    .tmplStatus, .exp, .cnd, .img, .wav, .net, .beam, .host, .note, .jnl, .err, .pwr, .fuse, .trust, .ready] ⊆ M) :
    Keeps (State.Via M S) (execReadJournal flags seq first count dst s) := by
  unfold execReadJournal
  exact keeps_next (State.submit_via hs (sub hk))

theorem execAttest_via {flags : Half} {seq : Word} {nonce : List Byte} {dst : DWord} {len : Word} {s : State}
    (hs : State.Via M S s)
    (hk : [.freeCtr, .out, .upsets, .mem, .ring, .poison, .wbQueue, .cnt, .idle, .facets, .sched, .ap, .hbm, .dma,
    .tmplStatus, .exp, .cnd, .img, .wav, .net, .beam, .host, .note, .jnl, .err, .pwr, .fuse, .trust, .ready] ⊆ M) :
    Keeps (State.Via M S) (execAttest flags seq nonce dst len s) := by
  unfold execAttest
  exact keeps_next (State.submit_via hs (sub hk))

theorem execEnroll_via {flags : Half} {seq : Word} {addr : DWord} {len : Word} {slot : Byte} {s : State}
    (hs : State.Via M S s)
    (hk : [.freeCtr, .out, .upsets, .mem, .ring, .poison, .wbQueue, .cnt, .idle, .facets, .sched, .ap, .hbm, .dma,
    .tmplStatus, .exp, .cnd, .img, .wav, .net, .beam, .host, .note, .jnl, .err, .pwr, .fuse, .trust, .ready] ⊆ M) :
    Keeps (State.Via M S) (execEnroll flags seq addr len slot s) := by
  unfold execEnroll
  exact keeps_next (State.submit_via hs (sub hk))

theorem execFuseProgram_via {flags : Half} {seq : Word} {region : Byte} {word : Byte} {source : Byte} {bits : DWord}
    {s : State} (hs : State.Via M S s)
    (hk : [.freeCtr, .out, .upsets, .mem, .ring, .poison, .wbQueue, .cnt, .idle, .facets, .sched, .ap, .hbm, .dma,
    .tmplStatus, .exp, .cnd, .img, .wav, .net, .beam, .host, .note, .jnl, .err, .pwr, .fuse, .trust, .ready] ⊆ M) :
    Keeps (State.Via M S) (execFuseProgram flags seq region word source bits s) := by
  unfold execFuseProgram
  exact keeps_next (State.submit_via hs (sub hk))

theorem execFuseSeal_via {flags : Half} {seq : Word} {region : Byte} {s : State} (hs : State.Via M S s)
    (hk : [.freeCtr, .out, .upsets, .mem, .ring, .poison, .wbQueue, .cnt, .idle, .facets, .sched, .ap, .hbm, .dma,
    .tmplStatus, .exp, .cnd, .img, .wav, .net, .beam, .host, .note, .jnl, .err, .pwr, .fuse, .trust, .ready] ⊆ M) :
    Keeps (State.Via M S) (execFuseSeal flags seq region s) := by
  unfold execFuseSeal
  exact keeps_next (State.submit_via hs (sub hk))

theorem execFuseLock_via {flags : Half} {seq : Word} {region : Byte} {kind : Byte} {s : State} (hs : State.Via M S s)
    (hk : [.freeCtr, .out, .upsets, .mem, .ring, .poison, .wbQueue, .cnt, .idle, .facets, .sched, .ap, .hbm, .dma,
    .tmplStatus, .exp, .cnd, .img, .wav, .net, .beam, .host, .note, .jnl, .err, .pwr, .fuse, .trust, .ready] ⊆ M) :
    Keeps (State.Via M S) (execFuseLock flags seq region kind s) := by
  unfold execFuseLock
  exact keeps_next (State.submit_via hs (sub hk))

theorem execUpdateFirmware_via {flags : Half} {seq : Word} {addr : DWord} {len : Word} {s : State}
    (hs : State.Via M S s)
    (hk : [.freeCtr, .out, .upsets, .mem, .ring, .poison, .wbQueue, .cnt, .idle, .facets, .sched, .ap, .hbm, .dma,
    .tmplStatus, .exp, .cnd, .img, .wav, .net, .beam, .host, .note, .jnl, .err, .pwr, .fuse, .trust, .ready] ⊆ M) :
    Keeps (State.Via M S) (execUpdateFirmware flags seq addr len s) := by
  unfold execUpdateFirmware
  exact keeps_next (State.submit_via hs (sub hk))

theorem execActivateFirmware_via {flags : Half} {seq : Word} {slot : Byte} {s : State} (hs : State.Via M S s)
    (hk : [.freeCtr, .out, .upsets, .mem, .ring, .poison, .wbQueue, .cnt, .idle, .facets, .sched, .ap, .hbm, .dma,
    .tmplStatus, .exp, .cnd, .img, .wav, .net, .beam, .host, .note, .jnl, .err, .pwr, .fuse, .trust, .ready] ⊆ M) :
    Keeps (State.Via M S) (execActivateFirmware flags seq slot s) := by
  unfold execActivateFirmware
  exact keeps_next (State.submit_via hs (sub hk))

theorem execSetTemplate_via {flags : Half} {seq : Word} {tmpl : Byte} {addr : DWord} {len : Word} {s : State}
    (hs : State.Via M S s)
    (hk : [.freeCtr, .out, .upsets, .mem, .ring, .poison, .wbQueue, .cnt, .idle, .facets, .sched, .ap, .hbm, .dma,
    .tmplStatus, .exp, .cnd, .img, .wav, .net, .beam, .host, .note, .jnl, .err, .pwr, .fuse, .trust, .ready] ⊆ M) :
    Keeps (State.Via M S) (execSetTemplate flags seq tmpl addr len s) := by
  unfold execSetTemplate
  exact keeps_next (State.submit_via hs (sub hk))

theorem execDmaAbort_via {flags : Half} {seq : Word} {engine : Byte} {channel : Byte} {s : State}
    (hs : State.Via M S s)
    (hk : [.freeCtr, .out, .upsets, .mem, .ring, .poison, .wbQueue, .cnt, .idle, .facets, .sched, .ap, .hbm, .dma,
    .tmplStatus, .exp, .cnd, .img, .wav, .net, .beam, .host, .note, .jnl, .err, .pwr, .fuse, .trust, .ready] ⊆ M) :
    Keeps (State.Via M S) (execDmaAbort flags seq engine channel s) := by
  unfold execDmaAbort
  exact keeps_next (State.submit_via hs (sub hk))

theorem execRegionRestart_via {flags : Half} {seq : Word} {mask : Half} {s : State} (hs : State.Via M S s)
    (hk : [.freeCtr, .out, .upsets, .mem, .ring, .poison, .wbQueue, .cnt, .idle, .facets, .sched, .ap, .hbm, .dma,
    .tmplStatus, .exp, .cnd, .img, .wav, .net, .beam, .host, .note, .jnl, .err, .pwr, .fuse, .trust, .ready] ⊆ M) :
    Keeps (State.Via M S) (execRegionRestart flags seq mask s) := by
  unfold execRegionRestart
  exact keeps_next (State.submit_via hs (sub hk))

theorem execCalibrationLoad_via {flags : Half} {seq : Word} {addr : DWord} {len : Word} {s : State}
    (hs : State.Via M S s)
    (hk : [.freeCtr, .out, .upsets, .mem, .ring, .poison, .wbQueue, .cnt, .idle, .facets, .sched, .ap, .hbm, .dma,
    .tmplStatus, .exp, .cnd, .img, .wav, .net, .beam, .host, .note, .jnl, .err, .pwr, .fuse, .trust, .ready] ⊆ M) :
    Keeps (State.Via M S) (execCalibrationLoad flags seq addr len s) := by
  unfold execCalibrationLoad
  exact keeps_next (State.submit_via hs (sub hk))

theorem execTransition_via {flags : Half} {seq : Word} {addr : DWord} {len : Word} {s : State} (hs : State.Via M S s)
    (hk : [.freeCtr, .out, .upsets, .mem, .ring, .poison, .wbQueue, .cnt, .idle, .facets, .sched, .ap, .hbm, .dma,
    .tmplStatus, .exp, .cnd, .img, .wav, .net, .beam, .host, .note, .jnl, .err, .pwr, .fuse, .trust, .ready] ⊆ M) :
    Keeps (State.Via M S) (execTransition flags seq addr len s) := by
  unfold execTransition
  exact keeps_next (State.submit_via hs (sub hk))

theorem execFuseGrant_via {flags : Half} {seq : Word} {addr : DWord} {len : Word} {s : State} (hs : State.Via M S s)
    (hk : [.freeCtr, .out, .upsets, .mem, .ring, .poison, .wbQueue, .cnt, .idle, .facets, .sched, .ap, .hbm, .dma,
    .tmplStatus, .exp, .cnd, .img, .wav, .net, .beam, .host, .note, .jnl, .err, .pwr, .fuse, .trust, .ready] ⊆ M) :
    Keeps (State.Via M S) (execFuseGrant flags seq addr len s) := by
  unfold execFuseGrant
  exact keeps_next (State.submit_via hs (sub hk))

theorem execRevokeSlot_via {flags : Half} {seq : Word} {addr : DWord} {len : Word} {s : State} (hs : State.Via M S s)
    (hk : [.freeCtr, .out, .upsets, .mem, .ring, .poison, .wbQueue, .cnt, .idle, .facets, .sched, .ap, .hbm, .dma,
    .tmplStatus, .exp, .cnd, .img, .wav, .net, .beam, .host, .note, .jnl, .err, .pwr, .fuse, .trust, .ready] ⊆ M) :
    Keeps (State.Via M S) (execRevokeSlot flags seq addr len s) := by
  unfold execRevokeSlot
  exact keeps_next (State.submit_via hs (sub hk))

theorem execSetSensor_via {flags : Half} {seq : Word} {set : List Byte} {s : State} (hs : State.Via M S s)
    (hk : [.freeCtr, .out, .upsets, .mem, .ring, .poison, .wbQueue, .cnt, .idle, .facets, .sched, .ap, .hbm, .dma,
    .tmplStatus, .exp, .cnd, .img, .wav, .net, .beam, .host, .note, .jnl, .err, .pwr, .fuse, .trust, .ready] ⊆ M) :
    Keeps (State.Via M S) (execSetSensor flags seq set s) := by
  unfold execSetSensor
  exact keeps_next (State.submit_via hs (sub hk))

/-! ### Levels -/

theorem State.retarget_via {s : State} (hs : State.Via M S s) (hk : [.out, .ring, .cnt, .note, .pwr] ⊆ M) :
    State.Via M S (State.retarget s) := by
  unfold State.retarget
  extract_lets t0 floor1
  clear_value t0 floor1
  split
  · exact State.powerRec_via hs (sub hk)
  · split
    · exact State.updPwr_via hs (sub hk)
    · exact hs

theorem State.levelDone_via {s : State} {prev : Nat} (hs : State.Via M S s)
    (hk : [.out, .ring, .cnt, .note, .pwr] ⊆ M) : State.Via M S (State.levelDone s prev) := by
  unfold State.levelDone
  extract_lets nxt0 s1 s2
  clear_value nxt0
  have hs1 : State.Via M S s1 := by
    unfold s1
    exact State.updPwr_via hs (sub hk)
  clear_value s1
  have hs2 : State.Via M S s2 := by
    unfold s2
    split
    · exact hs1
    · exact State.powerRec_via hs1 (sub hk)
  clear_value s2
  split
  · exact State.updPwr_via hs2 (sub hk)
  · exact hs2

theorem State.switchLevel_via {s : State} {t : Nat} (hs : State.Via M S s) (hk : [.pwr] ⊆ M) :
    State.Via M S (State.switchLevel s t) := by
  unfold State.switchLevel
  extract_lets prev0 s1
  clear_value prev0
  have hs1 : State.Via M S s1 := by
    unfold s1
    exact State.updPwr_via hs (sub hk)
  clear_value s1
  exact State.updPwr_via hs1 (sub hk)

theorem State.levelEdge_via {s : State} (hs : State.Via M S s) (hk : [.out, .ring, .cnt, .note, .pwr] ⊆ M) :
    State.Via M S (State.levelEdge s) := by
  unfold State.levelEdge
  extract_lets prev0
  clear_value prev0
  split
  · split
    · exact State.levelDone_via (State.switchLevel_via hs (sub hk)) (sub hk)
    · exact hs
  · split
    · exact State.updPwr_via (State.switchLevel_via hs (sub hk)) (sub hk)
    · exact hs
  · exact hs

theorem State.levelPgood_via {s : State} (hs : State.Via M S s) (hk : [.pwr] ⊆ M) :
    State.Via M S (State.levelPgood s) := by
  unfold State.levelPgood
  split
  · exact State.updPwr_via hs (sub hk)
  · exact State.updPwr_via hs (sub hk)
  · exact hs

theorem execVsetSettled_via {s : State} (hs : State.Via M S s) (hk : [.out, .ring, .cnt, .note, .pwr] ⊆ M) :
    Keeps (State.Via M S) (execVsetSettled s) := by
  unfold execVsetSettled
  apply keeps_next
  split
  · exact State.updPwr_via hs (sub hk)
  · exact State.levelDone_via hs (sub hk)
  · exact hs

theorem State.levelFails_via {s : State} (hs : State.Via M S s)
    (hk : [.freeCtr, .out, .upsets, .mem, .ring, .poison, .wbQueue, .cnt, .tk, .facets, .sched, .ap, .hbm, .dma,
    .tmplStatus, .exp, .cnd, .img, .wav, .net, .beam, .host, .note, .jnl, .err, .pwr, .fuse, .trust, .idle, .ready] ⊆
    M) :
    State.Via M S (State.levelFails s) := by
  unfold State.levelFails
  extract_lets fail0
  have hf : ∀ t v, State.Via M S (fail0 s t v) := by
    intro t v
    unfold fail0
    extract_lets s1 s2
    have hs1 : State.Via M S s1 := by
      unfold s1
      exact State.updPwr_via hs (sub hk)
    clear_value s1
    have hs2 : State.Via M S s2 := by
      unfold s2
      exact State.powerRec_via hs1 (sub hk)
    clear_value s2
    split
    · exact State.updPwr_via hs2 (sub hk)
    · exact hs2
  clear_value fail0
  split
  · exact hf _ _
  · exact hf _ _
  · split
    · exact State.supplyReset_via hs (sub hk)
    · exact hf _ _
  · exact State.supplyReset_via hs (sub hk)

theorem State.setLogic_via {s : State} {t : Int} (hs : State.Via M S s) (hk : [.pwr, .fuse] ⊆ M) :
    State.Via M S (State.setLogic s t) := by
  unfold State.setLogic
  exact State.fuseCheck_via (State.updPwr_via hs (sub hk)) (sub hk)

theorem execThermalCrossing_via {t : Int} {s : State} (hs : State.Via M S s)
    (hk : [.freeCtr, .out, .upsets, .mem, .ring, .poison, .wbQueue, .cnt, .tk, .facets, .sched, .ap, .hbm, .dma,
    .tmplStatus, .exp, .cnd, .img, .wav, .net, .beam, .host, .note, .jnl, .err, .pwr, .fuse, .trust, .idle, .ready] ⊆
    M) :
    Keeps (State.Via M S) (execThermalCrossing t s) := by
  unfold execThermalCrossing
  extract_lets s0 s1
  have hs0 : State.Via M S s0 := by
    unfold s0
    exact State.setLogic_via hs (sub hk)
  clear_value s0
  have hs1 : State.Via M S s1 := by
    unfold s1
    exact State.updPwr_via hs0 (sub hk)
  clear_value s1
  split
  · exact keeps_next (State.fatal_via hs0 (sub hk))
  · split
    · apply keeps_next
      split
      · exact State.powerRec_via hs1 (sub hk)
      · exact hs1
    · exact keeps_next hs0

theorem execThermalRearm_via {t : Int} {s : State} (hs : State.Via M S s) (hk : [.cnt, .pwr, .fuse, .ready] ⊆ M) :
    Keeps (State.Via M S) (execThermalRearm t s) := by
  unfold execThermalRearm
  extract_lets s0 s1
  have hs0 : State.Via M S s0 := by
    unfold s0
    exact State.setLogic_via hs (sub hk)
  clear_value s0
  have hs1 : State.Via M S s1 := by
    unfold s1
    exact State.updPwr_via hs0 (sub hk)
  clear_value s1
  split
  · exact keeps_next hs0
  · apply keeps_next
    split
    · exact State.startUp_via hs1 (sub hk)
    · exact hs1

/-! ### Shed -/

theorem State.measured_via {s : State} {i : Fin 5} {mv : Nat} (hs : State.Via M S s) (hk : [.pwr] ⊆ M) :
    State.Via M S (State.measured s i mv) := by
  unfold State.measured
  exact State.updPwr_via hs (sub hk)

theorem State.openJournal_via {s : State} (hs : State.Via M S s) (hk : [.mem, .ring, .jnl, .ready] ⊆ M) :
    State.Via M S (State.openJournal s) := by
  unfold State.openJournal
  split
  · exact hs
  · exact State.setReady_via (State.restoreJournal_via hs (sub hk)) (sub hk)

theorem State.mirrorTo_via {s : State} {i : Nat} (hs : State.Via M S s) (hk : [.jnl] ⊆ M) :
    State.Via M S (State.mirrorTo s i) := by
  unfold State.mirrorTo
  exact hs.upd (State.via_jnl rfl (by rfl)) (sub hk)

theorem State.mirrorEntries_via {s : State} {n : Nat} (hs : State.Via M S s)
    (hk : [.upsets, .mem, .poison, .wbQueue, .cnt, .hbm, .jnl] ⊆ M) : State.Via M S (s.mirrorEntries n) := by
  induction n generalizing s with
  | zero => exact hs
  | succ n ih =>
    unfold State.mirrorEntries
    split
    · exact hs
    · exact ih (State.mirrorTo_via (State.takeControl_via (State.writeDev_via hs (sub hk)) (sub hk)) (sub hk))

theorem State.mirrorAll_via {s : State} (hs : State.Via M S s)
    (hk : [.upsets, .mem, .poison, .wbQueue, .cnt, .hbm, .jnl] ⊆ M) : State.Via M S (State.mirrorAll s) := by
  unfold State.mirrorAll
  extract_lets s0
  have hs0 : State.Via M S s0 := by
    unfold s0
    exact State.mirrorTo_via hs (sub hk)
  clear_value s0
  split
  · exact State.mirrorEntries_via hs0 (sub hk)
  · exact hs0

theorem execJournalMirrorCopy_via {s : State} (hs : State.Via M S s)
    (hk : [.upsets, .mem, .poison, .wbQueue, .cnt, .hbm, .jnl] ⊆ M) :
    Keeps (State.Via M S) (execJournalMirrorCopy s) := by
  unfold execJournalMirrorCopy
  exact keeps_next (State.mirrorAll_via hs (sub hk))

theorem State.sealJournal_via {s : State} (hs : State.Via M S s)
    (hk : [.upsets, .mem, .ring, .poison, .wbQueue, .cnt, .hbm, .jnl, .ready] ⊆ M) :
    State.Via M S (State.sealJournal s) := by
  unfold State.sealJournal
  extract_lets s0 src1
  have hs0 : State.Via M S s0 := by
    unfold s0
    exact State.mirrorAll_via (State.journalDev_via (State.openJournal_via hs (sub hk)) (sub hk)) (sub hk)
  clear_value s0
  exact hs0.upd (State.via_jnl rfl (by rfl)) (sub hk)

theorem State.unsealJournal_via {s : State} (hs : State.Via M S s) (hk : [.mem, .ring, .jnl, .ready] ⊆ M) :
    State.Via M S (State.unsealJournal s) := by
  unfold State.unsealJournal
  extract_lets s0 src1
  have hs0 : State.Via M S s0 := by
    unfold s0
    exact State.journalDev_via (State.openJournal_via hs (sub hk)) (sub hk)
  clear_value s0
  exact hs0.upd (State.via_jnl rfl (by rfl)) (sub hk)

theorem State.shedRec_via {s : State} {status : Nat} {new : Nat} {prev : Nat} {input : Nat} {low : Nat} {time : Nat}
      {edge : Nat}
    (hs : State.Via M S s) (hk : [.out, .ring, .cnt, .note, .pwr] ⊆ M) :
    State.Via M S (State.shedRec s status new prev input low time edge) := by
  unfold State.shedRec
  extract_lets pl0 s1
  clear_value pl0
  have hs1 : State.Via M S s1 := by
    unfold s1
    exact State.updPwr_via hs (sub hk)
  clear_value s1
  split
  · exact State.eventAt_via hs1 (sub hk)
  · exact State.updPwr_via hs1 (sub hk)

theorem State.notReady_via {s : State} {bs : List Nat} (hs : State.Via M S s) (hk : [.ready] ⊆ M) :
    State.Via M S (State.notReady s bs) := by
  unfold State.notReady
  exact foldl_via hs (fun u0 u1 hu2 => State.setReady_via hu2 (sub hk))

theorem State.loseRegions_via {s : State} (hs : State.Via M S s) (hk : [.wbQueue, .cnt, .facets] ⊆ M) :
    State.Via M S (State.loseRegions s) := by
  unfold State.loseRegions
  apply foldl_via
  · exact hs.upd (State.Via.of (K := [.wbQueue, .facets]) (fun f hf => by
      cases f <;> first | rfl | exact absurd (by decide) hf) rfl (.inr rfl) (.inl (by decide))) (sub hk)
  · exact fun u a hu => State.emptyRegions_via hu (sub hk)

theorem State.selfRefresh_via {s : State} (hs : State.Via M S s) (hk : [.cnt, .hbm] ⊆ M) :
    State.Via M S (State.selfRefresh s) := by
  unfold State.selfRefresh
  split
  · exact State.drained_via (State.updHbm_via hs (sub hk) (fun _ => rfl)) (sub hk)
  · exact hs

theorem State.leaveRefresh_via {s : State} (hs : State.Via M S s)
    (hk : [.out, .upsets, .mem, .ring, .poison, .wbQueue, .cnt, .hbm, .img, .net, .beam, .note, .ready] ⊆ M) :
    State.Via M S (State.leaveRefresh s) := by
  unfold State.leaveRefresh
  extract_lets s0
  have hs0 : State.Via M S s0 := by
    unfold s0
    split
    · exact State.count_via hs (sub hk)
    · exact hs
  clear_value s0
  split
  · exact State.hbmReady_via hs0 (sub hk)
  · exact hs0

theorem State.stageActions_via {s : State} {k : Nat} {rows : List RawRow} (hs : State.Via M S s)
    (hk : [.freeCtr, .out, .upsets, .mem, .ring, .poison, .wbQueue, .cnt, .facets, .sched, .hbm, .dma, .tmplStatus,
      .exp, .cnd, .img, .wav, .net, .beam, .note, .jnl, .err, .pwr, .ready] ⊆ M) :
    State.Via M S (State.stageActions s k rows) := by
  unfold State.stageActions
  split
  · exact State.updPwr_via hs (sub hk)
  · split
    · exact State.notReady_via (State.sensorStandby_via hs (sub hk)) (sub hk)
    · extract_lets s0 s1 s2 s3 s4
      have hs0 : State.Via M S s0 := by
        unfold s0
        exact State.sealJournal_via hs (sub hk)
      clear_value s0
      have hs1 : State.Via M S s1 := by
        unfold s1
        apply foldl_via
        · exact hs0
        · intro u5 u6 hu7
          beta_reduce
          extract_lets e8 c9
          clear_value e8 c9
          split
          · exact State.askAbort_via hu7 (sub hk)
          · exact hu7
      clear_value s1
      have hs2 : State.Via M S s2 := by
        unfold s2
        exact State.notReady_via (State.selfRefresh_via hs1 (sub hk)) (sub hk)
      clear_value s2
      have hs3 : State.Via M S s3 := by
        unfold s3
        exact State.updPwr_via hs2 (sub hk)
      clear_value s3
      have hs4 : State.Via M S s4 := by
        unfold s4
        apply foldl_via
        · exact hs3
        · intro u10 u11 hu12
          beta_reduce
          split
          · exact State.portDown_via hu12 (sub hk)
          · exact hu12
      clear_value s4
      exact State.outageStart_via (State.loseRegions_via hs4 (sub hk)) (sub hk)

theorem State.enterStage_via {s : State} {k : Nat} {edge : Nat} {rows : List RawRow} (hs : State.Via M S s)
    (hk : [.freeCtr, .out, .upsets, .mem, .ring, .poison, .wbQueue, .cnt, .facets, .sched, .hbm, .dma, .tmplStatus,
    .exp, .cnd, .img, .wav, .net, .beam, .note, .jnl, .err, .pwr, .fuse, .ready] ⊆ M) :
    State.Via M S (State.enterStage s k edge rows) := by
  unfold State.enterStage
  extract_lets c2 s3
  clear_value c2
  have hs3 : State.Via M S s3 := by
    unfold s3
    exact State.fuseCheck_via (State.updPwr_via hs (sub hk)) (sub hk)
  clear_value s3
  exact State.stageActions_via (State.shedRec_via hs3 (sub hk)) (sub hk)

theorem State.prismsReady_via {s : State} {ps : List Nat} (hs : State.Via M S s) (hk : [.ready] ⊆ M) :
    State.Via M S (State.prismsReady s ps) := by
  unfold State.prismsReady
  apply foldl_via
  · exact hs
  · intro u0 u1 hu2
    beta_reduce
    split
    · exact hu2
    · exact State.setReady_via hu2 (sub hk)

theorem State.objectiveBack_via {s : State} (hs : State.Via M S s) (hk : [.ready] ⊆ M) :
    State.Via M S (State.objectiveBack s) := by
  unfold State.objectiveBack
  split
  · exact hs
  · exact State.setReady_via hs (sub hk)

theorem State.undoActions_via {s : State} {k : Nat} (hs : State.Via M S s)
    (hk : [.out, .upsets, .mem, .ring, .poison, .wbQueue, .cnt, .hbm, .img, .wav, .net, .beam, .note, .jnl, .pwr,
    .ready] ⊆ M) :
    State.Via M S (State.undoActions s k) := by
  unfold State.undoActions
  split
  · split
    · exact State.outageEnd_via (State.unsealJournal_via hs (sub hk)) (sub hk)
    · exact hs
  · split
    · extract_lets s0
      have hs0 : State.Via M S s0 := by
        unfold s0
        apply State.updPwr_via
        · split
          · exact State.leaveRefresh_via hs (sub hk)
          · exact hs
        · exact sub hk
      clear_value s0
      exact State.outageEnd_via (State.unsealJournal_via hs0 (sub hk)) (sub hk)
    · split
      · extract_lets s1
        have hs1 : State.Via M S s1 := by
          unfold s1
          exact State.objectiveBack_via hs (sub hk)
        clear_value s1
        split
        · exact hs1
        · exact State.prismsReady_via hs1 (sub hk)
      · exact State.retarget_via hs (sub hk)

theorem State.undoStage_via {s : State} {k : Nat} {edge : Nat} (hs : State.Via M S s)
    (hk : [.out, .upsets, .mem, .ring, .poison, .wbQueue, .cnt, .hbm, .img, .wav, .net, .beam, .note, .jnl, .err,
    .pwr, .ready] ⊆ M) :
    State.Via M S (State.undoStage s k edge) := by
  unfold State.undoStage
  extract_lets since0 s1
  clear_value since0
  have hs1 : State.Via M S s1 := by
    unfold s1
    exact State.updPwr_via hs (sub hk)
  clear_value s1
  exact State.releaseRestarts_via (State.undoActions_via (State.shedRec_via hs1 (sub hk)) (sub hk)) (sub hk)

theorem State.enterStages_via {s : State} {edge : Nat} {rows : List RawRow} {a : Nat} (hs : State.Via M S s)
    (hk : [.freeCtr, .out, .upsets, .mem, .ring, .poison, .wbQueue, .cnt, .facets, .sched, .hbm, .dma, .tmplStatus,
    .exp, .cnd, .img, .wav, .net, .beam, .note, .jnl, .err, .pwr, .fuse, .ready] ⊆ M) :
    State.Via M S (State.enterStages s edge rows a) := by
  fun_induction State.enterStages s edge rows a
  · rename_i s0 rows1
    exact hs
  · rename_i s2 rows3 n4 h5 ih6
    exact ih6 (State.enterStage_via hs (sub hk))
  · rename_i s7 rows8 n9 h10
    exact hs

theorem State.shedEdge_via {s : State} {edge : Nat} {rows : List RawRow} (hs : State.Via M S s)
    (hk : [.freeCtr, .out, .upsets, .mem, .ring, .poison, .wbQueue, .cnt, .facets, .sched, .hbm, .dma, .tmplStatus,
    .exp, .cnd, .img, .wav, .net, .beam, .note, .jnl, .err, .pwr, .fuse, .ready] ⊆ M) :
    State.Via M S (State.shedEdge s edge rows) := by
  unfold State.shedEdge
  split
  · exact State.enterStages_via hs (sub hk)
  · split
    · exact State.undoStage_via hs (sub hk)
    · exact hs

theorem State.shedAsleep_via {s : State} {n : Nat} (hs : State.Via M S s)
    (hk : [.out, .ring, .cnt, .note, .err, .pwr, .fuse] ⊆ M) : State.Via M S (State.shedAsleep s n) := by
  induction n generalizing s with
  | zero => exact hs
  | succ n ih =>
    unfold State.shedAsleep
    extract_lets k0 c1 s2 s3
    clear_value k0 c1
    have hs2 : State.Via M S s2 := by
      unfold s2
      exact State.fuseCheck_via (State.updPwr_via hs (sub hk)) (sub hk)
    clear_value s2
    have hs3 : State.Via M S s3 := by
      unfold s3
      exact State.updPwr_via hs (sub hk)
    clear_value s3
    split
    · exact ih (State.shedRec_via hs2 (sub hk))
    · split
      · exact ih (State.releaseRestarts_via (State.shedRec_via hs3 (sub hk)) (sub hk))
      · exact hs

theorem State.aonPass_via {s : State} (hs : State.Via M S s) (hk : [.freeCtr, .tk] ⊆ M) :
    State.Via M S (State.aonPass s) := by
  unfold State.aonPass
  exact State.drawn_via (hs.upd (State.via_tk rfl) (sub hk)) (sub hk)

theorem State.supplyValue_via {s : State} {i : Fin 5} {mv : Nat} (hs : State.Via M S s)
    (hk : [.freeCtr, .out, .ring, .cnt, .tk, .note, .err, .pwr, .fuse, .idle] ⊆ M) :
    State.Via M S (State.supplyValue s i mv) := by
  unfold State.supplyValue
  split
  · exact State.shedAsleep_via (State.measured_via (State.shedAsleep_via (State.aonPass_via hs (sub hk)) (sub hk))
      (sub hk)) (sub hk)
  · exact State.measured_via hs (sub hk)

theorem execSupplyWarningCrossing_via {i : Fin 4} {mv : Nat} {s : State} (hs : State.Via M S s)
    (hk : [.freeCtr, .out, .ring, .cnt, .tk, .note, .err, .pwr, .fuse, .idle] ⊆ M) : Keeps (State.Via M S)
    (execSupplyWarningCrossing i mv s) := by
  unfold execSupplyWarningCrossing
  split
  · exact trivial
  · exact keeps_next (State.supplyValue_via hs (sub hk))

theorem execSupplyRecovery_via {i : Fin 4} {mv : Nat} {s : State} (hs : State.Via M S s)
    (hk : [.freeCtr, .out, .ring, .cnt, .tk, .note, .err, .pwr, .fuse, .idle] ⊆ M) : Keeps (State.Via M S)
    (execSupplyRecovery i mv s) := by
  unfold execSupplyRecovery
  split
  · exact trivial
  · exact keeps_next (State.supplyValue_via hs (sub hk))

theorem execSupplyResetLevel_via {i : Fin 5} {mv : Nat} {s : State} (hs : State.Via M S s)
    (hk : [.freeCtr, .out, .upsets, .mem, .ring, .poison, .wbQueue, .cnt, .tk, .facets, .sched, .ap, .hbm, .dma,
    .tmplStatus, .exp, .cnd, .img, .wav, .net, .beam, .host, .note, .jnl, .err, .pwr, .fuse, .trust, .idle, .ready] ⊆
    M) :
    Keeps (State.Via M S) (execSupplyResetLevel i mv s) := by
  unfold execSupplyResetLevel
  split
  · exact trivial
  · extract_lets s0
    have hs0 : State.Via M S s0 := by
      unfold s0
      exact State.supplyValue_via hs (sub hk)
    clear_value s0
    apply keeps_next
    split
    · exact State.supplyReset_via hs0 (sub hk)
    · exact hs0

end Sys2Proof.Machine
end

