-- ==== Sys2Proof/Laws/ViaPower.lean ====
section
/-! SUPPORT. What each operation of the registers, power, and what completes later can change (Via.lean), one lemma an operation. -/

set_option Elab.async false

namespace Sys2Proof.Machine

variable {M : List Change} {S : State}

/-! ### Registers -/

theorem State.changeOwner_via {s : State} {new : Owner} (hs : State.Via M S s)
    (hk : [.out, .mem, .ring, .cnt, .host, .note, .jnl, .ready] ⊆ M) : State.Via M S (State.changeOwner s new) := by
  unfold State.changeOwner
  extract_lets old0 s1 s2
  clear_value old0
  have hs1 : State.Via M S s1 := by
    unfold s1
    exact State.updHost_via hs (sub hk)
  clear_value s1
  have hs2 : State.Via M S s2 := by
    unfold s2
    exact State.journalDev_via (State.openJournal_via hs1 (sub hk)) (sub hk)
  clear_value s2
  exact State.flushHeld_via (State.irq_via hs2 (sub hk)) (sub hk)

theorem State.writeOwner_via {s : State} {p : Path} {v : Nat} (hs : State.Via M S s)
    (hk : [.out, .mem, .ring, .cnt, .host, .note, .jnl, .ready] ⊆ M) : State.Via M S (State.writeOwner s p v) := by
  unfold State.writeOwner
  split
  · extract_lets new0 s1
    clear_value new0
    have hs1 : State.Via M S s1 := by
      unfold s1
      exact State.updHost_via hs (sub hk)
    clear_value s1
    split
    · exact hs1
    · exact State.changeOwner_via hs1 (sub hk)
  · exact State.updHost_via hs (sub hk)

theorem State.writeCmdSize_via {s : State} {v : Nat} (hs : State.Via M S s) (hk : [.host] ⊆ M) :
    State.Via M S (State.writeCmdSize s v) := by
  unfold State.writeCmdSize
  extract_lets n0
  clear_value n0
  split
  · exact State.updHost_via hs (sub hk)
  · split
    · exact State.updHost_via hs (sub hk)
    · exact hs

theorem State.writeEvtSize_via {s : State} {v : Nat} (hs : State.Via M S s)
    (hk : [.out, .ring, .cnt, .host, .note] ⊆ M) : State.Via M S (State.writeEvtSize s v) := by
  unfold State.writeEvtSize
  extract_lets n0
  clear_value n0
  split
  · exact State.updHost_via hs (sub hk)
  · split
    · exact State.flushHeld_via (State.updHost_via hs (sub hk)) (sub hk)
    · exact hs

theorem State.writeCmdPut_via {s : State} {v : Nat} (hs : State.Via M S s)
    (hk : [.freeCtr, .out, .upsets, .mem, .ring, .poison, .wbQueue, .cnt, .idle, .facets, .sched, .ap, .hbm, .dma,
    .tmplStatus, .exp, .cnd, .img, .wav, .net, .beam, .host, .note, .jnl, .err, .pwr, .fuse, .trust, .ready] ⊆ M) :
    State.Via M S (State.writeCmdPut s v) := by
  unfold State.writeCmdPut
  split
  · exact State.serveAll_via (State.updHost_via hs (sub hk)) (sub hk)
  · exact hs

theorem State.writeEvtGet_via {s : State} {v : Nat} (hs : State.Via M S s)
    (hk : [.out, .ring, .cnt, .host, .note] ⊆ M) : State.Via M S (State.writeEvtGet s v) := by
  unfold State.writeEvtGet
  extract_lets n0 g1 old2 gone3
  clear_value n0 g1 old2
  split
  · exact State.flushHeld_via (State.updHost_via hs (sub hk)) (sub hk)
  · exact hs

theorem State.mboxNext_via {s : State} (hs : State.Via M S s) (hk : [.host] ⊆ M) :
    State.Via M S (State.mboxNext s) := by
  unfold State.mboxNext
  split
  · exact State.updHost_via hs (sub hk)
  · exact hs

theorem State.writeMbox_via {s : State} {v : Nat} (hs : State.Via M S s) (hk : [.host] ⊆ M) :
    State.Via M S (State.writeMbox s v) := by
  unfold State.writeMbox
  extract_lets s0
  have hs0 : State.Via M S s0 := by
    unfold s0
    split
    · exact hs
    · exact State.updHost_via hs (sub hk)
  clear_value s0
  exact State.mboxNext_via hs0 (sub hk)

theorem State.writeForce_via {s : State} {v : Nat} (hs : State.Via M S s) (hk : [.out, .note] ⊆ M) :
    State.Via M S (State.writeForce s v) := by
  unfold State.writeForce
  apply foldl_via
  · exact hs
  · intro u0 u1 hu2
    beta_reduce
    split
    · exact State.irq_via hu2 (sub hk)
    · exact hu2

theorem State.popErr_via {s : State} {v : Nat} (hs : State.Via M S s) (hk : [.err] ⊆ M) :
    State.Via M S (s.popErr v) := by
  unfold State.popErr
  split
  · exact State.updErr_le hs (sub hk) fun h => by simp; omega
  · exact hs

theorem State.writePerf_via {s : State} {v : Nat} (hs : State.Via M S s)
    (hk : [.out, .ring, .cnt, .host, .note, .pwr] ⊆ M) : State.Via M S (State.writePerf s v) := by
  unfold State.writePerf
  exact State.retarget_via (State.updHost_via hs (sub hk)) (sub hk)

theorem State.writeTickCtl_via {s : State} {v : Nat} (hs : State.Via M S s)
    (hk : [.out, .ring, .cnt, .tk, .note] ⊆ M) : State.Via M S (State.writeTickCtl s v) := by
  unfold State.writeTickCtl
  extract_lets n0 src1
  clear_value n0
  split
  · exact hs
  · split
    · exact State.timeState_via hs (sub hk)
    · exact hs.upd (State.via_tk rfl) (sub hk)

theorem State.writeSnapCtl_via {s : State} {v : Nat} (hs : State.Via M S s) (hk : [.idle, .host, .err] ⊆ M) :
    State.Via M S (State.writeSnapCtl s v) := by
  unfold State.writeSnapCtl
  split
  · split
    rename_i x0 ok1 s2 heq3
    have hs2 : State.Via M S s2 := by
      exact via2 heq3 (State.armSnapshot_via hs (sub hk))
    exact State.noteIdle_via (State.updHost_via hs2 (sub hk)) (sub hk)
  · split
    · exact State.updErr_via hs (sub hk) (fun _ => rfl)
    · exact hs

theorem State.writeWdog_via {s : State} {v : Nat} (hs : State.Via M S s) (hk : [.host] ⊆ M) :
    State.Via M S (State.writeWdog s v) := by
  unfold State.writeWdog
  exact State.updHost_via hs (sub hk)

theorem State.kick_via {s : State} (hs : State.Via M S s) (hk : [.out, .ring, .cnt, .host, .note] ⊆ M) :
    State.Via M S (State.kick s) := by
  unfold State.kick
  extract_lets lost0 s1
  clear_value lost0
  have hs1 : State.Via M S s1 := by
    unfold s1
    exact State.updHost_via hs (sub hk)
  clear_value s1
  split
  · exact State.fault_via hs1 (sub hk)
  · exact hs1

theorem State.writeSpareA_via {s : State} {v : Word} (hs : State.Via M S s)
    (hk : [.freeCtr, .out, .upsets, .mem, .ring, .poison, .wbQueue, .cnt, .idle, .facets, .sched, .ap, .hbm, .dma,
    .tmplStatus, .exp, .cnd, .img, .wav, .net, .beam, .host, .note, .jnl, .err, .pwr, .fuse, .trust, .ready] ⊆ M) :
    State.Via M S (State.writeSpareA s v) := by
  unfold State.writeSpareA
  extract_lets s0
  have hs0 : State.Via M S s0 := by
    unfold s0
    exact State.updHost_via hs (sub hk)
  clear_value s0
  split
  · exact State.serveAll_via (State.bootPush_via hs0 (sub hk)) (sub hk)
  · exact hs0

theorem State.putReg_via {s : State} {i : Nat} {v : Word} (hs : State.Via M S s)
    (hk : [.freeCtr, .out, .upsets, .mem, .ring, .poison, .wbQueue, .cnt, .tk, .facets, .sched, .ap, .hbm, .dma,
    .tmplStatus, .exp, .cnd, .img, .wav, .net, .beam, .host, .note, .jnl, .err, .pwr, .fuse, .trust, .idle, .ready] ⊆
    M) :
    State.Via M S (State.putReg s i v) := by
  unfold State.putReg
  extract_lets n0
  clear_value n0
  split
  · split
    · exact State.updHost_via hs (sub hk)
    · exact hs
  · split
    · exact State.updHost_via hs (sub hk)
    · exact hs
  · exact State.writeCmdSize_via hs (sub hk)
  · exact State.writeCmdPut_via hs (sub hk)
  · split
    · exact State.updHost_via hs (sub hk)
    · exact hs
  · split
    · exact State.updHost_via hs (sub hk)
    · exact hs
  · exact State.writeEvtSize_via hs (sub hk)
  · exact State.writeEvtGet_via hs (sub hk)
  · exact State.updHost_via hs (sub hk)
  · exact State.writeMbox_via hs (sub hk)
  · exact State.updHost_note hs (sub hk) (fun _ => rfl)
  · exact State.updHost_via hs (sub hk)
  · exact State.writeForce_via hs (sub hk)
  · exact State.popErr_via hs (sub hk)
  · exact State.writePerf_via hs (sub hk)
  · exact State.updHost_via hs (sub hk)
  · exact State.writeTickCtl_via hs (sub hk)
  · exact State.writeSnapCtl_via hs (sub hk)
  · exact State.updHost_via hs (sub hk)
  · exact State.writeWdog_via hs (sub hk)
  · exact State.kick_via hs (sub hk)
  · exact State.updHost_via hs (sub hk)
  · exact State.writeSpareA_via hs (sub hk)
  · exact State.updHost_via hs (sub hk)
  · exact hs

theorem State.written_via {s : State} {p : Path} {i : Nat} {v : Word} (hs : State.Via M S s) (hk : [.host] ⊆ M) :
    State.Via M S (State.written s p i v).2 := by
  unfold State.written
  split
  · exact hs
  · extract_lets lo0
    clear_value lo0
    dsimp -zeta only
    exact State.updHost_via hs (sub hk)

theorem State.writeMsix_via {s : State} {k : Fin 16} {j : Nat} {v : Word} (hs : State.Via M S s)
    (hk : [.out, .host, .note] ⊆ M) : State.Via M S (State.writeMsix s k j v) := by
  unfold State.writeMsix
  extract_lets s0
  have hs0 : State.Via M S s0 := by
    unfold s0
    exact State.updHost_via hs (sub hk)
  clear_value s0
  split
  · exact State.sendMsix_via (State.updHost_note hs0 (sub hk) (fun _ => rfl)) (sub hk)
  · exact hs0

theorem State.writeReg_via {s : State} {p : Path} {i : Nat} {v : Word} (hs : State.Via M S s)
    (hk : [.freeCtr, .out, .upsets, .mem, .ring, .poison, .wbQueue, .cnt, .tk, .facets, .sched, .ap, .hbm, .dma,
    .tmplStatus, .exp, .cnd, .img, .wav, .net, .beam, .host, .note, .jnl, .err, .pwr, .fuse, .trust, .idle, .ready] ⊆
    M) :
    State.Via M S (State.writeReg s p i v) := by
  unfold State.writeReg
  split
  · exact hs
  · split
    rename_i x0 v1 s2 heq3
    have hs2 : State.Via M S s2 := by
      exact via2 heq3 (State.written_via hs (sub hk))
    split
    · split
      · exact State.writeMsix_via hs2 (sub hk)
      · exact hs2
    · split
      · exact State.writeOwner_via hs2 (sub hk)
      · split
        · exact State.count_via hs2 (sub hk)
        · exact State.putReg_via hs2 (sub hk)

theorem State.latchReads_via {s : State} {i : Nat} (hs : State.Via M S s) (hk : [.tk] ⊆ M) :
    State.Via M S (State.latchReads s i) := by
  unfold State.latchReads
  split
  · exact hs.upd (State.via_tk rfl) (sub hk)
  · split
    · exact hs.upd (State.via_tk rfl) (sub hk)
    · split
      · exact hs.upd (State.via_tk rfl) (sub hk)
      · split
        · exact hs.upd (State.via_tk rfl) (sub hk)
        · exact hs

theorem State.readReg_via {s : State} {i : Nat} (hs : State.Via M S s) (hk : [.out, .cnt, .tk] ⊆ M) :
    State.Via M S (State.readReg s i) := by
  unfold State.readReg
  exact State.emit_via (State.egress_via (State.latchReads_via hs (sub hk)) (sub hk)) (sub hk)

theorem State.readHalf_via {s : State} {i : Fin 64} {hi : Bool} (hs : State.Via M S s)
    (hk : [.out, .cnt, .tk, .host] ⊆ M) : State.Via M S (State.readHalf s i hi) := by
  unfold State.readHalf
  extract_lets v0 v1 s2 s3
  clear_value v0 v1
  have hs2 : State.Via M S s2 := by
    unfold s2
    exact State.updHost_via hs (sub hk)
  clear_value s2
  have hs3 : State.Via M S s3 := by
    unfold s3
    exact State.latchReads_via hs (sub hk)
  clear_value s3
  split
  · apply State.emit_via
    · apply State.egress_via
      · split
        · exact State.mboxNext_via hs2 (sub hk)
        · exact hs2
      · exact sub hk
    · exact sub hk
  · exact State.emit_via (State.egress_via (State.updHost_via hs3 (sub hk)) (sub hk)) (sub hk)

theorem State.readPair_via {s : State} {p : Path} {lo : Fin 63} {part : PairRead} (hs : State.Via M S s)
    (hk : [.out, .cnt, .tk, .host] ⊆ M) : State.Via M S (State.readPair s p lo part) := by
  unfold State.readPair
  split
  · exact hs
  · split
    · exact State.readReg_via hs (sub hk)
    · exact State.readReg_via hs (sub hk)
    · exact State.readReg_via (State.readReg_via hs (sub hk)) (sub hk)
    · exact State.readHalf_via hs (sub hk)
    · exact State.readHalf_via hs (sub hk)

theorem execCmdPutWrite_via {path : Path} {v : Word} {s : State} (hs : State.Via M S s)
    (hk : [.freeCtr, .out, .upsets, .mem, .ring, .poison, .wbQueue, .cnt, .tk, .facets, .sched, .ap, .hbm, .dma,
    .tmplStatus, .exp, .cnd, .img, .wav, .net, .beam, .host, .note, .jnl, .err, .pwr, .fuse, .trust, .idle, .ready] ⊆
    M) :
    Keeps (State.Via M S) (execCmdPutWrite path v s) := by
  unfold execCmdPutWrite
  exact keeps_next (State.writeReg_via hs (sub hk))

theorem execCmdSizeWrite_via {path : Path} {v : Word} {s : State} (hs : State.Via M S s)
    (hk : [.freeCtr, .out, .upsets, .mem, .ring, .poison, .wbQueue, .cnt, .tk, .facets, .sched, .ap, .hbm, .dma,
    .tmplStatus, .exp, .cnd, .img, .wav, .net, .beam, .host, .note, .jnl, .err, .pwr, .fuse, .trust, .idle, .ready] ⊆
    M) :
    Keeps (State.Via M S) (execCmdSizeWrite path v s) := by
  unfold execCmdSizeWrite
  exact keeps_next (State.writeReg_via hs (sub hk))

theorem execEvtSizeWrite_via {path : Path} {v : Word} {s : State} (hs : State.Via M S s)
    (hk : [.freeCtr, .out, .upsets, .mem, .ring, .poison, .wbQueue, .cnt, .tk, .facets, .sched, .ap, .hbm, .dma,
    .tmplStatus, .exp, .cnd, .img, .wav, .net, .beam, .host, .note, .jnl, .err, .pwr, .fuse, .trust, .idle, .ready] ⊆
    M) :
    Keeps (State.Via M S) (execEvtSizeWrite path v s) := by
  unfold execEvtSizeWrite
  exact keeps_next (State.writeReg_via hs (sub hk))

theorem execEvtGetWrite_via {path : Path} {v : Word} {s : State} (hs : State.Via M S s)
    (hk : [.freeCtr, .out, .upsets, .mem, .ring, .poison, .wbQueue, .cnt, .tk, .facets, .sched, .ap, .hbm, .dma,
    .tmplStatus, .exp, .cnd, .img, .wav, .net, .beam, .host, .note, .jnl, .err, .pwr, .fuse, .trust, .idle, .ready] ⊆
    M) :
    Keeps (State.Via M S) (execEvtGetWrite path v s) := by
  unfold execEvtGetWrite
  exact keeps_next (State.writeReg_via hs (sub hk))

theorem execOwnerWrite_via {path : Path} {v : Word} {s : State} (hs : State.Via M S s)
    (hk : [.freeCtr, .out, .upsets, .mem, .ring, .poison, .wbQueue, .cnt, .tk, .facets, .sched, .ap, .hbm, .dma,
    .tmplStatus, .exp, .cnd, .img, .wav, .net, .beam, .host, .note, .jnl, .err, .pwr, .fuse, .trust, .idle, .ready] ⊆
    M) :
    Keeps (State.Via M S) (execOwnerWrite path v s) := by
  unfold execOwnerWrite
  exact keeps_next (State.writeReg_via hs (sub hk))

theorem execMboxDataAccess_via {path : Path} {write : Option Word} {s : State} (hs : State.Via M S s)
    (hk : [.freeCtr, .out, .upsets, .mem, .ring, .poison, .wbQueue, .cnt, .tk, .facets, .sched, .ap, .hbm, .dma,
    .tmplStatus, .exp, .cnd, .img, .wav, .net, .beam, .host, .note, .jnl, .err, .pwr, .fuse, .trust, .idle, .ready] ⊆
    M) :
    Keeps (State.Via M S) (execMboxDataAccess path write s) := by
  unfold execMboxDataAccess
  split
  · exact keeps_next (State.writeReg_via hs (sub hk))
  · apply keeps_next
    split
    · exact State.emit_via (State.egress_via (State.mboxNext_via hs (sub hk)) (sub hk)) (sub hk)
    · exact hs

theorem execIrqStatusWrite_via {path : Path} {v : Word} {s : State} (hs : State.Via M S s)
    (hk : [.freeCtr, .out, .upsets, .mem, .ring, .poison, .wbQueue, .cnt, .tk, .facets, .sched, .ap, .hbm, .dma,
    .tmplStatus, .exp, .cnd, .img, .wav, .net, .beam, .host, .note, .jnl, .err, .pwr, .fuse, .trust, .idle, .ready] ⊆
    M) :
    Keeps (State.Via M S) (execIrqStatusWrite path v s) := by
  unfold execIrqStatusWrite
  exact keeps_next (State.writeReg_via hs (sub hk))

theorem execIrqForceWrite_via {path : Path} {v : Word} {s : State} (hs : State.Via M S s)
    (hk : [.freeCtr, .out, .upsets, .mem, .ring, .poison, .wbQueue, .cnt, .tk, .facets, .sched, .ap, .hbm, .dma,
    .tmplStatus, .exp, .cnd, .img, .wav, .net, .beam, .host, .note, .jnl, .err, .pwr, .fuse, .trust, .idle, .ready] ⊆
    M) :
    Keeps (State.Via M S) (execIrqForceWrite path v s) := by
  unfold execIrqForceWrite
  exact keeps_next (State.writeReg_via hs (sub hk))

theorem execErrSummaryPop_via {path : Path} {v : Word} {s : State} (hs : State.Via M S s)
    (hk : [.freeCtr, .out, .upsets, .mem, .ring, .poison, .wbQueue, .cnt, .tk, .facets, .sched, .ap, .hbm, .dma,
    .tmplStatus, .exp, .cnd, .img, .wav, .net, .beam, .host, .note, .jnl, .err, .pwr, .fuse, .trust, .idle, .ready] ⊆
    M) :
    Keeps (State.Via M S) (execErrSummaryPop path v s) := by
  unfold execErrSummaryPop
  exact keeps_next (State.writeReg_via hs (sub hk))

theorem execPerfReqWrite_via {path : Path} {v : Word} {s : State} (hs : State.Via M S s)
    (hk : [.freeCtr, .out, .upsets, .mem, .ring, .poison, .wbQueue, .cnt, .tk, .facets, .sched, .ap, .hbm, .dma,
    .tmplStatus, .exp, .cnd, .img, .wav, .net, .beam, .host, .note, .jnl, .err, .pwr, .fuse, .trust, .idle, .ready] ⊆
    M) :
    Keeps (State.Via M S) (execPerfReqWrite path v s) := by
  unfold execPerfReqWrite
  exact keeps_next (State.writeReg_via hs (sub hk))

theorem execTickCtlWrite_via {path : Path} {v : Word} {s : State} (hs : State.Via M S s)
    (hk : [.freeCtr, .out, .upsets, .mem, .ring, .poison, .wbQueue, .cnt, .tk, .facets, .sched, .ap, .hbm, .dma,
    .tmplStatus, .exp, .cnd, .img, .wav, .net, .beam, .host, .note, .jnl, .err, .pwr, .fuse, .trust, .idle, .ready] ⊆
    M) :
    Keeps (State.Via M S) (execTickCtlWrite path v s) := by
  unfold execTickCtlWrite
  exact keeps_next (State.writeReg_via hs (sub hk))

theorem execSnapCtlArm_via {path : Path} {v : Word} {s : State} (hs : State.Via M S s)
    (hk : [.freeCtr, .out, .upsets, .mem, .ring, .poison, .wbQueue, .cnt, .tk, .facets, .sched, .ap, .hbm, .dma,
    .tmplStatus, .exp, .cnd, .img, .wav, .net, .beam, .host, .note, .jnl, .err, .pwr, .fuse, .trust, .idle, .ready] ⊆
    M) :
    Keeps (State.Via M S) (execSnapCtlArm path v s) := by
  unfold execSnapCtlArm
  exact keeps_next (State.writeReg_via hs (sub hk))

theorem execSnapCtlDisarm_via {path : Path} {v : Word} {s : State} (hs : State.Via M S s)
    (hk : [.freeCtr, .out, .upsets, .mem, .ring, .poison, .wbQueue, .cnt, .tk, .facets, .sched, .ap, .hbm, .dma,
    .tmplStatus, .exp, .cnd, .img, .wav, .net, .beam, .host, .note, .jnl, .err, .pwr, .fuse, .trust, .idle, .ready] ⊆
    M) :
    Keeps (State.Via M S) (execSnapCtlDisarm path v s) := by
  unfold execSnapCtlDisarm
  exact keeps_next (State.writeReg_via hs (sub hk))

theorem execWdogCtlWrite_via {path : Path} {v : Word} {s : State} (hs : State.Via M S s)
    (hk : [.freeCtr, .out, .upsets, .mem, .ring, .poison, .wbQueue, .cnt, .tk, .facets, .sched, .ap, .hbm, .dma,
    .tmplStatus, .exp, .cnd, .img, .wav, .net, .beam, .host, .note, .jnl, .err, .pwr, .fuse, .trust, .idle, .ready] ⊆
    M) :
    Keeps (State.Via M S) (execWdogCtlWrite path v s) := by
  unfold execWdogCtlWrite
  exact keeps_next (State.writeReg_via hs (sub hk))

theorem execWdogKick_via {path : Path} {v : Word} {s : State} (hs : State.Via M S s)
    (hk : [.freeCtr, .out, .upsets, .mem, .ring, .poison, .wbQueue, .cnt, .tk, .facets, .sched, .ap, .hbm, .dma,
    .tmplStatus, .exp, .cnd, .img, .wav, .net, .beam, .host, .note, .jnl, .err, .pwr, .fuse, .trust, .idle, .ready] ⊆
    M) :
    Keeps (State.Via M S) (execWdogKick path v s) := by
  unfold execWdogKick
  exact keeps_next (State.writeReg_via hs (sub hk))

theorem execHostLost_via {s : State} (hs : State.Via M S s)
    (hk : [.out, .mem, .ring, .cnt, .tk, .hbm, .host, .note, .jnl, .idle, .ready] ⊆ M) :
    Keeps (State.Via M S) (execHostLost s) := by
  unfold execHostLost
  split
  · exact keeps_next hs
  · extract_lets t0 s1 s2 s3
    clear_value t0
    have hs1 : State.Via M S s1 := by
      unfold s1
      exact State.setTime_via hs (sub hk)
    clear_value s1
    have hs2 : State.Via M S s2 := by
      unfold s2
      exact State.irq_via (State.updHost_via hs1 (sub hk)) (sub hk)
    clear_value s2
    have hs3 : State.Via M S s3 := by
      unfold s3
      exact State.journalDev_via (State.openJournal_via hs2 (sub hk)) (sub hk)
    clear_value s3
    exact keeps_next (State.fault_via hs3 (sub hk))

theorem execTickLoRead_via {path : Path} {part : PairRead} {s : State} (hs : State.Via M S s)
    (hk : [.out, .cnt, .tk, .host] ⊆ M) : Keeps (State.Via M S) (execTickLoRead path part s) := by
  unfold execTickLoRead
  exact keeps_next (State.readPair_via hs (sub hk))

theorem execTimeLoRead_via {path : Path} {part : PairRead} {s : State} (hs : State.Via M S s)
    (hk : [.out, .cnt, .tk, .host] ⊆ M) : Keeps (State.Via M S) (execTimeLoRead path part s) := by
  unfold execTimeLoRead
  exact keeps_next (State.readPair_via hs (sub hk))

theorem execLowHalfWrite_via {reg : Fin 64} {v : Half} {s : State} (hs : State.Via M S s) (hk : [.cnt, .host] ⊆ M) :
    Keeps (State.Via M S) (execLowHalfWrite reg v s) := by
  unfold execLowHalfWrite
  split
  · exact keeps_next hs
  · split
    · exact keeps_next (State.updHost_via (State.count_via hs (sub hk)) (sub hk))
    · exact keeps_next (State.updHost_via hs (sub hk))

theorem execLowHalfRead_via {reg : Fin 64} {hi : Bool} {s : State} (hs : State.Via M S s)
    (hk : [.out, .cnt, .tk, .host] ⊆ M) : Keeps (State.Via M S) (execLowHalfRead reg hi s) := by
  unfold execLowHalfRead
  apply keeps_next
  split
  · exact State.readHalf_via hs (sub hk)
  · exact hs

theorem execRegisterWrite_via {path : Path} {reg : Fin 1024} {be : BitVec 4} {v : Word} {s : State}
    (hs : State.Via M S s)
    (hk : [.freeCtr, .out, .upsets, .mem, .ring, .poison, .wbQueue, .cnt, .tk, .facets, .sched, .ap, .hbm, .dma,
    .tmplStatus, .exp, .cnd, .img, .wav, .net, .beam, .host, .note, .jnl, .err, .pwr, .fuse, .trust, .idle, .ready] ⊆
    M) :
    Keeps (State.Via M S) (execRegisterWrite path reg be v s) := by
  unfold execRegisterWrite
  apply keeps_next
  split
  · exact hs
  · exact State.writeReg_via hs (sub hk)

theorem execFirmwarePush_via {path : Path} {v : Word} {s : State} (hs : State.Via M S s)
    (hk : [.freeCtr, .out, .upsets, .mem, .ring, .poison, .wbQueue, .cnt, .tk, .facets, .sched, .ap, .hbm, .dma,
    .tmplStatus, .exp, .cnd, .img, .wav, .net, .beam, .host, .note, .jnl, .err, .pwr, .fuse, .trust, .idle, .ready] ⊆
    M) :
    Keeps (State.Via M S) (execFirmwarePush path v s) := by
  unfold execFirmwarePush
  exact keeps_next (State.writeReg_via hs (sub hk))

theorem State.bar2Read_via {s : State} {a : Nat} {n : Nat} (hs : State.Via M S s)
    (hk : [.freeCtr, .out, .upsets, .mem, .ring, .poison, .wbQueue, .cnt, .hbm, .img, .note, .err] ⊆ M) :
    State.Via M S (State.bar2Read s a n) := by
  unfold State.bar2Read
  split
  · exact State.emit_via hs (sub hk)
  · split
    rename_i x0 ok1 s2 heq3
    have hs2 : State.Via M S s2 := by
      exact via2 heq3 (State.judgeTransfer_via hs (sub hk))
    split
    · extract_lets lo4
      clear_value lo4
      split
      rename_i x5 bs6 fst7 s8 heq9
      have hs8 : State.Via M S s8 := by
        exact via3 heq9 (State.readDev_via hs2 (sub hk))
      exact State.emit_via hs8 (sub hk)
    · exact State.emit_via hs2 (sub hk)

theorem State.bar2Write_via {s : State} {a : Nat} {bs : List Byte} (hs : State.Via M S s)
    (hk : [.upsets, .mem, .poison, .wbQueue, .cnt, .hbm] ⊆ M) : State.Via M S (State.bar2Write s a bs) := by
  unfold State.bar2Write
  split
  · exact State.writeMerged_via hs (sub hk)
  · exact hs

theorem execBar2Access_via {off : Word} {len : Nat} {write : Option (List Byte)} {s : State} (hs : State.Via M S s)
    (hk : [.freeCtr, .out, .upsets, .mem, .ring, .poison, .wbQueue, .cnt, .hbm, .img, .note, .err] ⊆ M) :
    Keeps (State.Via M S) (execBar2Access off len write s) := by
  unfold execBar2Access
  extract_lets a0
  clear_value a0
  split
  · exact keeps_next hs
  · split
    · exact keeps_next (State.bar2Read_via hs (sub hk))
    · split
      · exact keeps_next (State.count_via hs (sub hk))
      · apply keeps_next
        split
        · exact hs
        · exact State.bar2Write_via hs (sub hk)

theorem execFunctionLevelReset_via {perst : Bool} {s : State} (hs : State.Via M S s)
    (hk : [.freeCtr, .out, .upsets, .mem, .ring, .poison, .wbQueue, .cnt, .facets, .sched, .hbm, .dma, .tmplStatus,
    .exp, .cnd, .host, .note, .jnl, .ready] ⊆ M) :
    Keeps (State.Via M S) (execFunctionLevelReset perst s) := by
  unfold execFunctionLevelReset
  extract_lets s0 s1 s2
  have hs0 : State.Via M S s0 := by
    unfold s0
    apply foldl_via
    · exact hs
    · intro u3 u4 hu5
      beta_reduce
      extract_lets ch6
      clear_value ch6
      split
      · exact State.askAbort_via hu5 (sub hk)
      · exact hu5
  clear_value s0
  have hs1 : State.Via M S s1 := by
    unfold s1
    exact State.updHost_via hs0 (sub hk)
  clear_value s1
  have hs2 : State.Via M S s2 := by
    unfold s2
    split
    · exact State.setReady_via (State.updHost_via hs1 (sub hk)) (sub hk)
    · exact hs1
  clear_value s2
  apply keeps_next
  split
  · exact State.changeOwner_via hs2 (sub hk)
  · exact hs2

theorem execPcieLinkTrained_via {s : State} (hs : State.Via M S s)
    (hk : [.freeCtr, .out, .upsets, .mem, .ring, .poison, .wbQueue, .cnt, .idle, .facets, .sched, .ap, .hbm, .dma,
    .tmplStatus, .exp, .cnd, .img, .wav, .net, .beam, .host, .note, .jnl, .err, .pwr, .fuse, .trust, .ready] ⊆ M) :
    Keeps (State.Via M S) (execPcieLinkTrained s) := by
  unfold execPcieLinkTrained
  split
  · exact keeps_next (State.serveAll_via (State.setReady_via (State.updHost_via hs (sub hk)) (sub hk)) (sub hk))
  · exact keeps_next hs

/-! ### Power -/

theorem execVddAonPowerUp_via {pscAddr : Fin 4} {s : State} (hs : State.Via M S s) (hk : [.pwr] ⊆ M) :
    Keeps (State.Via M S) (execVddAonPowerUp pscAddr s) := by
  unfold execVddAonPowerUp
  apply keeps_next
  split
  · exact State.updPwr_via hs (sub hk)
  · exact hs

theorem execVddAonPowerLoss_via {s : State} (hs : State.Via M S s)
    (hk : [.freeCtr, .upsets, .mem, .poison, .wbQueue, .cnt, .tk, .facets, .sched, .ap, .hbm, .dma, .tmplStatus, .exp,
      .cnd, .img, .wav, .net, .beam, .host, .jnl, .err, .pwr, .fuse, .trust, .idle, .ready] ⊆ M) :
    Keeps (State.Via M S) (execVddAonPowerLoss s) := by
  unfold execVddAonPowerLoss
  extract_lets z0 s1
  have hs1 : State.Via M S s1 := by
    unfold s1
    exact State.cutFuses_via hs (sub hk)
  clear_value s1
  exact keeps_next (hs1.upd (K := [.upsets, .mem, .poison, .wbQueue, .cnt, .tk, .facets, .sched, .ap, .hbm, .dma,
      .tmplStatus, .exp, .cnd, .img, .wav, .net, .beam, .host, .jnl, .err, .pwr, .fuse, .trust, .idle, .ready])
    (.whole (fun f hf => by cases f <;> first | rfl | exact absurd (by decide) hf)
      (fun h => ⟨SMap.wf_filter _ h.mem, rfl, rfl, show State.reset.hbm.bucket ≤ 33554432 by decide,
        show State.reset.hbm.ctlBucket ≤ 1048576 by decide, show State.reset.hbm.poison.length ≤ 256 by decide,
        show State.reset.err.queue.length ≤ 255 by decide, show State.reset.jnl.aon.length ≤ 32 by decide⟩))
    (sub hk))

theorem execPorstRelease_via {bootSrc : Fin 4} {clkSrc : Fin 4} {s : State} (hs : State.Via M S s)
    (hk : [.cnt, .pwr, .fuse, .trust, .ready] ⊆ M) : Keeps (State.Via M S) (execPorstRelease bootSrc clkSrc s) := by
  unfold execPorstRelease
  apply keeps_next
  split
  · exact State.startUp_via (State.updPwr_via (State.updTrust_via hs (sub hk)) (sub hk)) (sub hk)
  · exact hs

theorem execPorstAssert_via {s : State} (hs : State.Via M S s)
    (hk : [.freeCtr, .upsets, .mem, .poison, .wbQueue, .cnt, .tk, .facets, .sched, .ap, .hbm, .dma, .tmplStatus,
    .exp, .cnd, .img, .wav, .net, .beam, .host, .jnl, .err, .pwr, .fuse, .trust, .idle, .ready] ⊆ M) :
    Keeps (State.Via M S) (execPorstAssert s) := by
  unfold execPorstAssert
  apply keeps_next
  split
  · exact hs
  · exact hs
  · exact State.updPwr_via (State.internalReset_via hs (sub hk)) (sub hk)

theorem execPgoodMainTimeout_via {s : State} (hs : State.Via M S s)
    (hk : [.freeCtr, .upsets, .mem, .poison, .wbQueue, .cnt, .tk, .facets, .sched, .ap, .hbm, .dma, .tmplStatus,
    .exp, .cnd, .img, .wav, .net, .beam, .host, .jnl, .err, .pwr, .fuse, .trust, .idle, .ready] ⊆ M) :
    Keeps (State.Via M S) (execPgoodMainTimeout s) := by
  unfold execPgoodMainTimeout
  apply keeps_next
  split
  · exact State.internalReset_via hs (sub hk)
  · exact hs

theorem execPgoodMainLow_via {s : State} (hs : State.Via M S s)
    (hk : [.freeCtr, .upsets, .mem, .poison, .wbQueue, .cnt, .tk, .facets, .sched, .ap, .hbm, .dma, .tmplStatus,
    .exp, .cnd, .img, .wav, .net, .beam, .host, .jnl, .err, .pwr, .fuse, .trust, .idle, .ready] ⊆ M) :
    Keeps (State.Via M S) (execPgoodMainLow s) := by
  unfold execPgoodMainLow
  apply keeps_next
  split
  · exact State.supplyReset_via hs (sub hk)
  · exact State.updPwr_via hs (sub hk)

theorem execEnMainRetry_via {s : State} (hs : State.Via M S s) (hk : [.cnt, .pwr, .fuse, .ready] ⊆ M) :
    Keeps (State.Via M S) (execEnMainRetry s) := by
  unfold execEnMainRetry
  apply keeps_next
  split
  · exact State.startUp_via hs (sub hk)
  · exact hs

theorem State.tryCore_via {s : State} (hs : State.Via M S s) (hk : [.pwr] ⊆ M) :
    State.Via M S (State.tryCore s) := by
  unfold State.tryCore
  split
  · exact State.updPwr_via hs (sub hk)
  · exact hs

theorem State.holdClock_via {s : State} {d : Nat} (hs : State.Via M S s) (hk : [.pwr] ⊆ M) :
    State.Via M S (State.holdClock s d) := by
  unfold State.holdClock
  exact State.updPwr_via hs (sub hk)

theorem execRefCountWindow_via {count : Nat} {s : State} (hs : State.Via M S s)
    (hk : [.freeCtr, .upsets, .mem, .poison, .wbQueue, .cnt, .tk, .facets, .sched, .ap, .hbm, .dma, .tmplStatus,
    .exp, .cnd, .img, .wav, .net, .beam, .host, .jnl, .err, .pwr, .fuse, .trust, .idle, .ready] ⊆ M) :
    Keeps (State.Via M S) (execRefCountWindow count s) := by
  unfold execRefCountWindow
  split
  · exact keeps_next hs
  · extract_lets ok0 s1
    clear_value ok0
    have hs1 : State.Via M S s1 := by
      unfold s1
      exact State.updPwr_via hs (sub hk)
    clear_value s1
    split
    · split
      · exact keeps_next (State.updPwr_via hs (sub hk))
      · split
        · exact keeps_next (State.updPwr_via hs (sub hk))
        · exact keeps_next (State.fatal_via hs (sub hk))
    · split
      · exact keeps_next (State.tryCore_via (State.updPwr_via hs1 (sub hk)) (sub hk))
      · split
        · exact keeps_next (State.holdClock_via hs1 (sub hk))
        · exact keeps_next hs1

theorem State.initPrism_via {s : State} {p : Nat} (hs : State.Via M S s)
    (hk : [.upsets, .mem, .poison, .wbQueue] ⊆ M) : State.Via M S (State.initPrism s p) := by
  unfold State.initPrism
  exact foldl_via hs (fun u0 u1 hu2 => State.clearRange_via hu2 (sub hk))

theorem State.facetsUp_via {s : State} (hs : State.Via M S s)
    (hk : [.upsets, .mem, .poison, .wbQueue, .pwr, .ready] ⊆ M) : State.Via M S (State.facetsUp s) := by
  unfold State.facetsUp
  split
  · split
    · exact State.prismsReady_via (State.updPwr_via hs (sub hk)) (sub hk)
    · apply foldl_via
      · exact hs
      · intro u0 u1 hu2
        beta_reduce
        split
        · exact hu2
        · exact State.setReady_via (State.initPrism_via hu2 (sub hk)) (sub hk)
  · exact hs

theorem State.domainUp_via {s : State} {d : Nat} (hs : State.Via M S s)
    (hk : [.out, .upsets, .mem, .ring, .poison, .wbQueue, .cnt, .hbm, .img, .note, .pwr, .ready] ⊆ M) :
    State.Via M S (State.domainUp s d) := by
  unfold State.domainUp
  extract_lets s0 s1
  have hs0 : State.Via M S s0 := by
    unfold s0
    exact State.updPwr_via (State.setReady_via (State.setReady_via hs (sub hk)) (sub hk)) (sub hk)
  clear_value s0
  have hs1 : State.Via M S s1 := by
    unfold s1
    exact State.updImg_via hs (sub hk)
  clear_value s1
  split
  · split
    · exact hs0
    · exact State.absentFaults_via hs0 (sub hk)
  · split
    · exact hs
    · split
      · exact State.facetsUp_via hs (sub hk)
      · split
        · exact State.updHbm_via hs (sub hk) (fun _ => rfl)
        · split
          · split
            · exact hs1
            · exact State.objectiveBack_via hs1 (sub hk)
          · exact hs

theorem State.setPll_via {s : State} {d : Fin 9} {x : PllPhase} (hs : State.Via M S s) (hk : [.pwr] ⊆ M) :
    State.Via M S (State.setPll s d x) := by
  unfold State.setPll
  exact State.updPwr_via hs (sub hk)

theorem State.pllFails_via {s : State} {d : Fin 9} (hs : State.Via M S s)
    (hk : [.out, .ring, .cnt, .note, .pwr] ⊆ M) : State.Via M S (State.pllFails s d) := by
  unfold State.pllFails
  split
  · exact State.holdClock_via hs (sub hk)
  · extract_lets s0
    have hs0 : State.Via M S s0 := by
      unfold s0
      exact State.updPwr_via (State.setPll_via hs (sub hk)) (sub hk)
    clear_value s0
    exact State.powerRec_via hs0 (sub hk)

theorem State.pllCounted_via {s : State} {d : Fin 9} {count : Nat} (hs : State.Via M S s) (hk : [.pwr] ⊆ M) :
    State.Via M S (State.pllCounted s d count) := by
  unfold State.pllCounted
  exact State.updPwr_via hs (sub hk)

theorem execPllCountCheck_via {counts : List Nat} {s : State} (hs : State.Via M S s)
    (hk : [.freeCtr, .upsets, .mem, .poison, .wbQueue, .cnt, .tk, .facets, .sched, .ap, .hbm, .dma, .tmplStatus,
    .exp, .cnd, .img, .wav, .net, .beam, .host, .jnl, .err, .pwr, .fuse, .trust, .idle, .ready] ⊆ M) :
    Keeps (State.Via M S) (execPllCountCheck counts s) := by
  unfold execPllCountCheck
  split
  · exact keeps_next hs
  · extract_lets s0
    have hs0 : State.Via M S s0 := by
      unfold s0
      apply foldl_via
      · exact hs
      · intro u1 u2 hu3
        beta_reduce
        split
        · exact State.pllCounted_via hu3 (sub hk)
        · exact hu3
    clear_value s0
    apply keeps_next
    split
    · exact State.fatal_via (State.errorRec_via hs0 (sub hk)) (sub hk)
    · exact hs0

theorem State.saveRegs_via {s : State} (hs : State.Via M S s) (hk : [.pwr] ⊆ M) :
    State.Via M S (State.saveRegs s) := by
  unfold State.saveRegs
  extract_lets v0
  clear_value v0
  exact State.updPwr_via hs (sub hk)

theorem State.enterS1_via {s : State} (hs : State.Via M S s)
    (hk : [.freeCtr, .out, .upsets, .mem, .ring, .poison, .wbQueue, .cnt, .facets, .hbm, .img, .wav, .note, .err,
      .ready] ⊆ M) :
    State.Via M S (State.enterS1 s) := by
  unfold State.enterS1
  exact State.notReady_via (State.selfRefresh_via (State.sensorStandby_via (State.holdNow_via hs (sub hk)) (sub hk))
    (sub hk)) (sub hk)

theorem State.pllsOff_via {s : State} {ds : List (Fin 9)} (hs : State.Via M S s) (hk : [.pwr] ⊆ M) :
    State.Via M S (State.pllsOff s ds) := by
  unfold State.pllsOff
  apply foldl_via hs
  intro u d hu
  beta_reduce
  split
  · exact hu
  · exact State.setPll_via hu (sub hk)

theorem State.enterS2_via {s : State} (hs : State.Via M S s)
    (hk : [.freeCtr, .out, .upsets, .mem, .ring, .poison, .wbQueue, .cnt, .facets, .hbm, .img, .wav, .note, .err,
      .pwr, .ready] ⊆ M) :
    State.Via M S (State.enterS2 s) := by
  unfold State.enterS2
  extract_lets s0 s1 s2 s3
  have hs0 : State.Via M S s0 := by
    unfold s0
    exact State.loseRegions_via (State.enterS1_via (State.saveRegs_via hs (sub hk)) (sub hk)) (sub hk)
  clear_value s0
  have hs1 : State.Via M S s1 := by
    unfold s1
    exact State.pllsOff_via hs0 (sub hk)
  clear_value s1
  have hs2 : State.Via M S s2 := by
    unfold s2
    exact State.notReady_via (State.updWav_via hs1 (sub hk)) (sub hk)
  clear_value s2
  have hs3 : State.Via M S s3 := by
    unfold s3
    exact State.updImg_via hs2 (sub hk)
  clear_value s3
  exact State.updPwr_via hs3 (sub hk)

theorem State.enterS3_via {s : State} (hs : State.Via M S s) (hk : [.freeCtr, .out, .upsets, .mem, .ring, .poison,
      .wbQueue, .cnt, .tk, .facets, .sched, .ap, .hbm, .dma, .tmplStatus, .exp, .cnd, .img, .wav, .net, .beam, .host,
      .note, .jnl, .err, .pwr, .trust, .ready] ⊆ M) : State.Via M S s.enterS3 := by
  unfold State.enterS3
  extract_lets s1 z s2 s3
  have h1 : State.Via M S s1 :=
    State.pllsOff_via (State.saveRegs_via (State.cancelStart_via hs (sub hk)) (sub hk)) (sub hk)
  have h2 : State.Via M S s2 := foldl_via h1 fun u p hu => State.portDown_via hu (sub hk)
  have h3 : State.Via M S s3 := State.notReady_via h2 (sub hk)
  clear_value s3
  exact h3.upd (K := [.upsets, .mem, .poison, .wbQueue, .cnt, .tk, .facets, .sched, .ap, .hbm, .dma, .tmplStatus, .exp,
    .cnd, .img, .wav, .net, .beam, .host, .jnl, .err, .pwr, .trust])
    (.whole (fun f hf => by cases f <;> first | rfl | exact absurd (by decide) hf)
    (fun h => ⟨SMap.wf_filter _ h.mem, rfl, rfl, show State.reset.hbm.bucket ≤ 33554432 by decide,
    show State.reset.hbm.ctlBucket ≤ 1048576 by decide, show State.reset.hbm.poison.length ≤ 256 by decide,
    h.errors, h.journal⟩)) (sub hk)

theorem State.gatesFor_via {s : State} {n : Nat} (hs : State.Via M S s) (hk : [.out, .ring, .cnt, .note, .pwr] ⊆ M) :
    State.Via M S (State.gatesFor s n) := by
  unfold State.gatesFor
  exact State.syncGates_via (State.updPwr_via hs (sub hk)) (sub hk)

theorem State.commitSleep_via {s : State} {n : Nat} (hs : State.Via M S s)
    (hk : [.freeCtr, .out, .upsets, .mem, .ring, .poison, .wbQueue, .cnt, .tk, .facets, .sched, .ap, .hbm, .dma,
      .tmplStatus, .exp, .cnd, .img, .wav, .net, .beam, .host, .note, .jnl, .err, .pwr, .fuse, .trust, .ready] ⊆ M) :
    State.Via M S (State.commitSleep s n) := by
  unfold State.commitSleep
  extract_lets t3
  have ht3 : State.Via M S t3 := by
    unfold t3
    split
    · exact State.enterS1_via hs (sub hk)
    · split
      · exact State.enterS2_via hs (sub hk)
      · exact State.enterS3_via hs (sub hk)
  clear_value t3
  exact State.syncGates_via (State.updPwr_via ht3 (sub hk)) (sub hk)

theorem execSleepEntry_via {s : State} (hs : State.Via M S s)
    (hk : [.freeCtr, .out, .upsets, .mem, .ring, .poison, .wbQueue, .cnt, .tk, .facets, .sched, .ap, .hbm, .dma,
    .tmplStatus, .exp, .cnd, .img, .wav, .net, .beam, .host, .note, .jnl, .err, .pwr, .fuse, .trust, .idle, .ready] ⊆
    M) :
    Keeps (State.Via M S) (execSleepEntry s) := by
  unfold execSleepEntry
  extract_lets awake0 s1 n2 g3 back4
  clear_value awake0 n2
  have hs1 : State.Via M S s1 := by
    unfold s1
    exact State.noteIdle_via hs (sub hk)
  clear_value s1
  have hg3 : State.Via M S g3 := by
    unfold g3
    exact State.gatesFor_via hs1 (sub hk)
  clear_value g3
  have hb4 : State.Via M S back4 := by
    unfold back4
    exact State.updPwr_via hg3 (sub hk)
  clear_value back4
  split
  · exact keeps_next hs
  · split
    · exact keeps_next hs1
    · apply keeps_next
      split
      · exact State.idleReset_via (State.syncGates_via hb4 (sub hk)) (sub hk)
      · exact State.commitSleep_via hb4 (sub hk)

theorem State.wakeBy_via {s : State} {src : Nat} (hs : State.Via M S s) (hk : [.idle, .pwr] ⊆ M) :
    State.Via M S (State.wakeBy s src) := by
  unfold State.wakeBy
  extract_lets s0
  have hs0 : State.Via M S s0 := by
    unfold s0
    exact State.idleReset_via hs (sub hk)
  clear_value s0
  split
  · exact hs0
  · exact State.updPwr_via hs0 (sub hk)

theorem execWake_via {level : Bool} {s : State} (hs : State.Via M S s) (hk : [.idle, .pwr] ⊆ M) :
    Keeps (State.Via M S) (execWake level s) := by
  unfold execWake
  extract_lets rises0 s1
  clear_value rises0
  have hs1 : State.Via M S s1 := by
    unfold s1
    exact State.updPwr_via hs (sub hk)
  clear_value s1
  apply keeps_next
  split
  · exact State.wakeBy_via hs1 (sub hk)
  · exact State.noteIdle_via hs1 (sub hk)

theorem State.pllsOn_via {s : State} {ds : List (Fin 9)} (hs : State.Via M S s) (hk : [.pwr] ⊆ M) :
    State.Via M S (State.pllsOn s ds) := by
  unfold State.pllsOn
  apply foldl_via hs
  intro u d hu
  beta_reduce
  split
  · exact State.setPll_via hu (sub hk)
  · exact hu

theorem State.coreBack_via {s : State} (hs : State.Via M S s) (hk : [.pwr] ⊆ M) :
    State.Via M S (State.coreBack s) := by
  unfold State.coreBack
  split
  split
  · exact hs
  · exact State.updPwr_via hs (sub hk)

theorem State.functionsBack_via {s : State} (hs : State.Via M S s)
    (hk : [.out, .upsets, .mem, .ring, .poison, .wbQueue, .cnt, .hbm, .img, .net, .beam, .note, .pwr, .ready] ⊆ M) :
    State.Via M S (State.functionsBack s) := by
  unfold State.functionsBack
  extract_lets s0 s1 s2
  have hs0 : State.Via M S s0 := by
    unfold s0
    split
    · exact State.leaveRefresh_via hs (sub hk)
    · exact hs
  clear_value s0
  have hs1 : State.Via M S s1 := by
    unfold s1
    split
    · exact hs0
    · exact State.objectiveBack_via hs0 (sub hk)
  clear_value s1
  have hs2 : State.Via M S s2 := by
    unfold s2
    exact State.updPwr_via hs1 (sub hk)
  clear_value s2
  split
  · exact hs1
  · split
    · exact State.prismsReady_via hs2 (sub hk)
    · split
      · exact State.prismsReady_via hs2 (sub hk)
      · exact hs2

theorem State.regionsBack_via {s : State} (hs : State.Via M S s) (hk : [.cnt, .facets] ⊆ M) :
    State.Via M S (State.regionsBack s) := by
  unfold State.regionsBack
  split
  · exact State.loadRegions_via hs (sub hk)
  · exact hs

theorem State.awake_via {s : State} {n : Nat} {src : Nat} {at_ : Nat} (hs : State.Via M S s)
    (hk : [.freeCtr, .out, .upsets, .mem, .ring, .poison, .wbQueue, .cnt, .idle, .facets, .sched, .ap, .hbm, .dma,
    .tmplStatus, .exp, .cnd, .img, .wav, .net, .beam, .host, .note, .jnl, .err, .pwr, .fuse, .trust, .ready] ⊆ M) :
    State.Via M S (State.awake s n src at_) := by
  unfold State.awake
  extract_lets held0 s1 s2 s3
  clear_value held0
  have hs1 : State.Via M S s1 := by
    unfold s1
    exact State.updPwr_via hs (sub hk)
  clear_value s1
  have hs2 : State.Via M S s2 := by
    unfold s2
    exact State.powerRec_via (State.idleReset_via hs1 (sub hk)) (sub hk)
  clear_value s2
  have hs3 : State.Via M S s3 := by
    unfold s3
    exact foldl_via hs2 (fun u4 u5 hu6 => State.eventAt_via hu6 (sub hk))
  clear_value s3
  exact State.serveAll_via (State.syncGates_via (State.retarget_via hs3 (sub hk)) (sub hk)) (sub hk)

theorem State.timeBack_via {s : State} {v : Saved} (hs : State.Via M S s)
    (hk : [.freeCtr, .cnt, .tk, .hbm, .net, .idle] ⊆ M) : State.Via M S (State.timeBack s v) := by
  unfold State.timeBack
  extract_lets s1 t2 tk3 s3 s4 s5
  clear_value t2
  have hs1 : State.Via M S s1 := by
    unfold s1
    exact State.aonPass_via hs (sub hk)
  clear_value s1
  have hs3 : State.Via M S s3 := by
    unfold s3
    exact hs1.upd (State.via_tk rfl) (sub hk)
  clear_value s3
  have hs4 : State.Via M S s4 := by
    unfold s4
    exact State.updHbm_via hs3 (sub hk) (fun _ => rfl)
  clear_value s4
  have hs5 : State.Via M S s5 := by
    unfold s5
    exact State.stepTime_via hs4 (sub hk)
  clear_value s5
  exact State.updPtp_via hs5 (sub hk)

theorem State.finishS2_via {s : State} (hs : State.Via M S s)
    (hk : [.freeCtr, .out, .upsets, .mem, .ring, .poison, .wbQueue, .cnt, .tk, .facets, .sched, .ap, .hbm, .dma,
      .tmplStatus, .exp, .cnd, .img, .wav, .net, .beam, .host, .note, .jnl, .err, .pwr, .fuse, .trust, .ready] ⊆ M) :
    State.Via M S (State.finishS2 s) := by
  unfold State.finishS2
  exact State.functionsBack_via (State.updImg_via (State.regionsBack_via hs (sub hk)) (sub hk)) (sub hk)

theorem State.finishS3_via {s : State} (hs : State.Via M S s)
    (hk : [.freeCtr, .out, .upsets, .mem, .ring, .poison, .wbQueue, .cnt, .tk, .facets, .sched, .ap, .hbm, .dma,
    .tmplStatus, .exp, .cnd, .img, .wav, .net, .beam, .host, .note, .jnl, .err, .pwr, .fuse, .trust, .idle, .ready] ⊆
    M) :
    State.Via M S (State.finishS3 s) := by
  unfold State.finishS3
  extract_lets v1 s2 s3 s4 s5 s6 s7
  clear_value v1
  have hs2 : State.Via M S s2 := by
    unfold s2
    exact foldl_via hs (fun u11 u12 hu13 => State.initPrism_via hu13 (sub hk))
  clear_value s2
  have hs3 : State.Via M S s3 := by
    unfold s3
    exact State.flushHeld_via (State.updHost_via (State.timeBack_via hs2 (sub hk)) (sub hk)) (sub hk)
  clear_value s3
  have hs4 : State.Via M S s4 := by
    unfold s4
    exact State.updHbm_via hs3 (sub hk) (fun _ => rfl)
  clear_value s4
  have hs5 : State.Via M S s5 := by
    unfold s5
    exact State.updImg_via hs4 (sub hk)
  clear_value s5
  have hs6 : State.Via M S s6 := by
    unfold s6
    exact State.functionsBack_via (State.absentFaults_via hs5 (sub hk)) (sub hk)
  clear_value s6
  have hs7 : State.Via M S s7 := by
    unfold s7
    split
    · exact State.setReady_via (State.setReady_via hs6 (sub hk)) (sub hk)
    · exact State.updTrust_via hs6 (sub hk)
  clear_value s7
  split
  · exact State.sealJournal_via hs7 (sub hk)
  · exact hs7

theorem State.exitDone_via {s : State} (hs : State.Via M S s)
    (hk : [.freeCtr, .out, .upsets, .mem, .ring, .poison, .wbQueue, .cnt, .tk, .facets, .sched, .ap, .hbm, .dma,
    .tmplStatus, .exp, .cnd, .img, .wav, .net, .beam, .host, .note, .jnl, .err, .pwr, .fuse, .trust, .idle, .ready] ⊆
    M) :
    State.Via M S (State.exitDone s) := by
  unfold State.exitDone
  extract_lets busy0 n1
  clear_value busy0 n1
  split
  · apply State.awake_via
    · split
      · exact State.finishS3_via hs (sub hk)
      · exact State.finishS2_via hs (sub hk)
    · exact sub hk
  · exact hs

theorem State.exitClocks_via {s : State} (hs : State.Via M S s)
    (hk : [.freeCtr, .out, .upsets, .mem, .ring, .poison, .wbQueue, .cnt, .tk, .facets, .sched, .ap, .hbm, .dma,
    .tmplStatus, .exp, .cnd, .img, .wav, .net, .beam, .host, .note, .jnl, .err, .pwr, .fuse, .trust, .idle, .ready] ⊆
    M) :
    State.Via M S (State.exitClocks s) := by
  unfold State.exitClocks
  extract_lets facet0 s1
  clear_value facet0
  have hs1 : State.Via M S s1 := by
    unfold s1
    exact State.fuseStart_via (State.shedAsleep_via (State.aonPass_via hs (sub hk)) (sub hk)) (sub hk)
  clear_value s1
  split
  · split
    · exact State.exitDone_via (State.pllsOn_via (State.updPwr_via hs1 (sub hk)) (sub hk)) (sub hk)
    · exact State.updPwr_via (State.setReady_via hs1 (sub hk)) (sub hk)
  · exact State.exitDone_via (State.pllsOn_via (State.updPwr_via hs (sub hk)) (sub hk)) (sub hk)

theorem State.exitSupply_via {s : State} (hs : State.Via M S s)
    (hk : [.freeCtr, .out, .upsets, .mem, .ring, .poison, .wbQueue, .cnt, .tk, .facets, .sched, .ap, .hbm, .dma,
    .tmplStatus, .exp, .cnd, .img, .wav, .net, .beam, .host, .note, .jnl, .err, .pwr, .fuse, .trust, .idle, .ready] ⊆
    M) :
    State.Via M S (State.exitSupply s) := by
  unfold State.exitSupply
  extract_lets s0
  have hs0 : State.Via M S s0 := by
    unfold s0
    exact State.coreBack_via hs (sub hk)
  clear_value s0
  split
  · exact State.updPwr_via hs0 (sub hk)
  · exact State.exitClocks_via hs0 (sub hk)

theorem State.exitCore_via {s : State} (hs : State.Via M S s)
    (hk : [.freeCtr, .out, .upsets, .mem, .ring, .poison, .wbQueue, .cnt, .tk, .facets, .sched, .ap, .hbm, .dma,
    .tmplStatus, .exp, .cnd, .img, .wav, .net, .beam, .host, .note, .jnl, .err, .pwr, .fuse, .trust, .idle, .ready] ⊆
    M) :
    State.Via M S (State.exitCore s) := by
  unfold State.exitCore
  split
  · exact State.exitClocks_via hs (sub hk)
  · exact hs

theorem State.exitMain_via {s : State} (hs : State.Via M S s)
    (hk : [.freeCtr, .out, .upsets, .mem, .ring, .poison, .wbQueue, .cnt, .tk, .facets, .sched, .ap, .hbm, .dma,
    .tmplStatus, .exp, .cnd, .img, .wav, .net, .beam, .host, .note, .jnl, .err, .pwr, .fuse, .trust, .idle, .ready] ⊆
    M) :
    State.Via M S (State.exitMain s) := by
  unfold State.exitMain
  split
  · exact State.exitSupply_via hs (sub hk)
  · exact hs

theorem execSleepExit_via {s : State} (hs : State.Via M S s)
    (hk : [.freeCtr, .out, .upsets, .mem, .ring, .poison, .wbQueue, .cnt, .tk, .facets, .sched, .ap, .hbm, .dma,
    .tmplStatus, .exp, .cnd, .img, .wav, .net, .beam, .host, .note, .jnl, .err, .pwr, .fuse, .trust, .idle, .ready] ⊆
    M) :
    Keeps (State.Via M S) (execSleepExit s) := by
  unfold execSleepExit
  split
  · exact keeps_next hs
  · split
    · exact keeps_next (State.awake_via (State.functionsBack_via hs (sub hk)) (sub hk))
    · exact keeps_next (State.exitSupply_via hs (sub hk))
    · exact keeps_next (State.updPwr_via hs (sub hk))
    · exact keeps_next hs

theorem execPgoodMainRise_via {s : State} (hs : State.Via M S s)
    (hk : [.freeCtr, .out, .upsets, .mem, .ring, .poison, .wbQueue, .cnt, .tk, .facets, .sched, .ap, .hbm, .dma,
    .tmplStatus, .exp, .cnd, .img, .wav, .net, .beam, .host, .note, .jnl, .err, .pwr, .fuse, .trust, .idle, .ready] ⊆
    M) :
    Keeps (State.Via M S) (execPgoodMainRise s) := by
  unfold execPgoodMainRise
  extract_lets s0
  have hs0 : State.Via M S s0 := by
    unfold s0
    exact State.updPwr_via hs (sub hk)
  clear_value s0
  apply keeps_next
  split
  · exact State.exitMain_via (State.tryCore_via (State.updPwr_via hs0 (sub hk)) (sub hk)) (sub hk)
  · exact hs0

theorem execPllJudged_via {d : Fin 9} {count : Nat} {s : State} (hs : State.Via M S s)
    (hk : [.freeCtr, .out, .upsets, .mem, .ring, .poison, .wbQueue, .cnt, .tk, .facets, .sched, .ap, .hbm, .dma,
    .tmplStatus, .exp, .cnd, .img, .wav, .net, .beam, .host, .note, .jnl, .err, .pwr, .fuse, .trust, .idle, .ready] ⊆
    M) :
    Keeps (State.Via M S) (execPllJudged d count s) := by
  unfold execPllJudged
  split
  · split
    · apply keeps_next
      apply State.exitDone_via
      · apply State.syncGates_via
        · apply State.domainUp_via
          · split
            · exact State.updPwr_via (State.setPll_via hs (sub hk)) (sub hk)
            · exact State.setPll_via hs (sub hk)
          · exact sub hk
        · exact sub hk
      · exact sub hk
    · split
      · exact keeps_next (State.setPll_via hs (sub hk))
      · exact keeps_next (State.exitDone_via (State.pllFails_via hs (sub hk)) (sub hk))
  · apply keeps_next
    split
    · exact State.updPwr_via hs (sub hk)
    · exact hs
  · exact keeps_next hs

theorem execPgoodCoreRise_via {s : State} (hs : State.Via M S s)
    (hk : [.freeCtr, .out, .upsets, .mem, .ring, .poison, .wbQueue, .cnt, .tk, .facets, .sched, .ap, .hbm, .dma,
    .tmplStatus, .exp, .cnd, .img, .wav, .net, .beam, .host, .note, .jnl, .err, .pwr, .fuse, .trust, .idle, .ready] ⊆
    M) :
    Keeps (State.Via M S) (execPgoodCoreRise s) := by
  unfold execPgoodCoreRise
  apply keeps_next
  split
  · exact State.exitCore_via (State.syncGates_via (State.facetsUp_via (State.levelPgood_via (State.updPwr_via hs
      (sub hk)) (sub hk)) (sub hk)) (sub hk)) (sub hk)
  · exact hs

theorem execPgoodCoreTimeout_via {s : State} (hs : State.Via M S s)
    (hk : [.freeCtr, .out, .upsets, .mem, .ring, .poison, .wbQueue, .cnt, .tk, .facets, .sched, .ap, .hbm, .dma,
    .tmplStatus, .exp, .cnd, .img, .wav, .net, .beam, .host, .note, .jnl, .err, .pwr, .fuse, .trust, .idle, .ready] ⊆
    M) :
    Keeps (State.Via M S) (execPgoodCoreTimeout s) := by
  unfold execPgoodCoreTimeout
  apply keeps_next
  split
  · exact State.levelFails_via hs (sub hk)
  · exact hs

theorem execPgoodCoreLow_via {s : State} (hs : State.Via M S s)
    (hk : [.freeCtr, .upsets, .mem, .poison, .wbQueue, .cnt, .tk, .facets, .sched, .ap, .hbm, .dma, .tmplStatus,
    .exp, .cnd, .img, .wav, .net, .beam, .host, .jnl, .err, .pwr, .fuse, .trust, .idle, .ready] ⊆ M) :
    Keeps (State.Via M S) (execPgoodCoreLow s) := by
  unfold execPgoodCoreLow
  apply keeps_next
  split
  · exact State.supplyReset_via hs (sub hk)
  · exact hs

theorem execPeriscopeTransaction_via {addr : BitVec 7} {write : Option (List Byte)} {count : Nat} {s : State}
    (hs : State.Via M S s) (hk : [.out, .idle, .pwr] ⊆ M) :
    Keeps (State.Via M S) (execPeriscopeTransaction addr write count s) := by
  unfold execPeriscopeTransaction
  split
  · exact keeps_next hs
  · extract_lets p0 blk1 s2 s3
    clear_value p0 blk1
    have hs2 : State.Via M S s2 := by
      unfold s2
      exact State.updPwr_via hs (sub hk)
    clear_value s2
    have hs3 : State.Via M S s3 := by
      unfold s3
      split
      · exact hs2
      · exact State.emit_via hs2 (sub hk)
    clear_value s3
    exact keeps_next (State.wakeBy_via hs3 (sub hk))

/-! ### Late -/

theorem execDescriptorFetch_via {e : Fin 5} {c : Fin 8} {s : State} (hs : State.Via M S s)
    (hk : [.freeCtr, .out, .upsets, .mem, .ring, .poison, .wbQueue, .cnt, .idle, .facets, .sched, .ap, .hbm, .dma,
    .tmplStatus, .exp, .cnd, .img, .wav, .net, .beam, .host, .note, .jnl, .err, .pwr, .fuse, .trust, .ready] ⊆ M) :
    Keeps (State.Via M S) (execDescriptorFetch e c s) := by
  unfold execDescriptorFetch
  exact keeps_next (State.settle_via (State.idleReset_via (State.fetchStep_via hs (sub hk)) (sub hk)) (sub hk))

theorem execTransferComplete_via {e : Fin 5} {c : Fin 8} {s : State} (hs : State.Via M S s)
    (hk : [.freeCtr, .out, .upsets, .mem, .ring, .poison, .wbQueue, .cnt, .facets, .sched, .ap, .hbm, .dma,
    .tmplStatus, .exp, .cnd, .img, .wav, .net, .beam, .host, .note, .jnl, .err, .pwr, .fuse, .trust, .ready] ⊆ M) :
    Keeps (State.Via M S) (execTransferComplete e c s) := by
  unfold execTransferComplete
  exact keeps_next (State.settle_via (State.transferEnds_via hs (sub hk)) (sub hk))

theorem execDescriptorAbort_via {e : Fin 5} {c : Fin 8} {s : State} (hs : State.Via M S s)
    (hk : [.freeCtr, .out, .upsets, .mem, .ring, .poison, .wbQueue, .cnt, .facets, .sched, .ap, .hbm, .dma,
    .tmplStatus, .exp, .cnd, .img, .wav, .net, .beam, .host, .note, .jnl, .err, .pwr, .fuse, .trust, .ready] ⊆ M) :
    Keeps (State.Via M S) (execDescriptorAbort e c s) := by
  unfold execDescriptorAbort
  exact keeps_next (State.settle_via (State.abortDrained_via hs (sub hk)) (sub hk))

theorem execBucketGrant_via {ms : List Meet} {s : State} (hs : State.Via M S s)
    (hk : [.freeCtr, .out, .upsets, .mem, .ring, .poison, .wbQueue, .cnt, .idle, .facets, .file, .sched, .ap, .hbm,
    .dma, .tmplStatus, .exp, .cnd, .img, .wav, .net, .beam, .host, .note, .jnl, .err, .pwr, .fuse, .trust, .ready] ⊆
    M) :
    Keeps (State.Via M S) (execBucketGrant ms s) := by
  unfold execBucketGrant
  exact keeps_next (State.settle_via (State.bucketStep_via hs (sub hk)) (sub hk))

theorem execHbmTraining_via {ok : Bool} {s : State} (hs : State.Via M S s)
    (hk : [.out, .upsets, .mem, .ring, .poison, .wbQueue, .cnt, .hbm, .img, .net, .beam, .note, .pwr, .ready] ⊆ M) :
    Keeps (State.Via M S) (execHbmTraining ok s) := by
  unfold execHbmTraining
  split
  · extract_lets awake0 s1 src2 s3
    clear_value awake0 src2
    have hs1 : State.Via M S s1 := by
      unfold s1
      exact State.updHbm_via hs (sub hk) (fun _ => rfl)
    clear_value s1
    have hs3 : State.Via M S s3 := by
      unfold s3
      exact hs1.upd (State.via_pwr rfl) (sub hk)
    clear_value s3
    split
    · apply keeps_next
      split
      · exact State.hbmReady_via hs (sub hk)
      · exact State.count_via (State.updHbm_via hs (sub hk) (fun _ => rfl)) (sub hk)
    · split
      · exact keeps_next (State.updHbm_via hs (sub hk) (fun _ => rfl))
      · exact keeps_next (State.stackFault_via hs3 (sub hk))
  · exact keeps_next hs

theorem execFirmwareBoot_via {s : State} (hs : State.Via M S s)
    (hk : [.freeCtr, .out, .upsets, .mem, .ring, .poison, .wbQueue, .cnt, .idle, .facets, .sched, .ap, .hbm, .dma,
    .tmplStatus, .exp, .cnd, .img, .wav, .net, .beam, .host, .note, .jnl, .err, .pwr, .fuse, .trust, .ready] ⊆ M) :
    Keeps (State.Via M S) (execFirmwareBoot s) := by
  unfold execFirmwareBoot
  apply keeps_next
  split
  · exact State.settle_via (State.serveAll_via (State.bootRom_via hs (sub hk)) (sub hk)) (sub hk)
  · exact hs

theorem execContainerChecked_via {s : State} (hs : State.Via M S s)
    (hk : [.freeCtr, .out, .upsets, .mem, .ring, .poison, .wbQueue, .cnt, .facets, .sched, .ap, .hbm, .dma,
    .tmplStatus, .exp, .cnd, .img, .wav, .net, .beam, .host, .note, .jnl, .err, .pwr, .fuse, .trust, .ready] ⊆ M) :
    Keeps (State.Via M S) (execContainerChecked s) := by
  unfold execContainerChecked
  split
  · exact keeps_next hs
  · exact keeps_next (State.settle_via (State.containerChecked_via (State.updTrust_via hs (sub hk)) (sub hk)) (sub
      hk))

theorem execFuseProgrammingDone_via {outcomes : List (Nat × Nat)} {s : State} (hs : State.Via M S s)
    (hk : [.freeCtr, .out, .upsets, .mem, .ring, .poison, .wbQueue, .cnt, .facets, .sched, .ap, .hbm, .dma,
    .tmplStatus, .exp, .cnd, .img, .wav, .net, .beam, .host, .note, .jnl, .err, .pwr, .fuse, .trust, .ready] ⊆ M) :
    Keeps (State.Via M S) (execFuseProgrammingDone outcomes s) := by
  unfold execFuseProgrammingDone
  exact keeps_next (State.settle_via (State.pulsesDone_via hs (sub hk)) (sub hk))

theorem execVppFusePresence_via {mv : Nat} {outcomes : List (Nat × Nat)} {s : State} (hs : State.Via M S s)
    (hk : [.freeCtr, .out, .upsets, .mem, .ring, .poison, .wbQueue, .cnt, .facets, .sched, .ap, .hbm, .dma,
    .tmplStatus, .exp, .cnd, .img, .wav, .net, .beam, .host, .note, .jnl, .err, .pwr, .fuse, .trust, .ready] ⊆ M) :
    Keeps (State.Via M S) (execVppFusePresence mv outcomes s) := by
  unfold execVppFusePresence
  split
  · exact trivial
  · extract_lets s0
    have hs0 : State.Via M S s0 := by
      unfold s0
      exact State.fuseCheck_via (State.updFuse_via hs (sub hk)) (sub hk)
    clear_value s0
    split
    · apply keeps_next
      split
      · exact State.settle_via (State.pulsesDone_via hs0 (sub hk)) (sub hk)
      · exact hs0
    · exact keeps_next hs0

theorem execFuseReread_via {reads : List (Fin 528 × DWord × DWord)} {s : State} (hs : State.Via M S s)
    (hk : [.out, .ring, .cnt, .sched, .host, .note, .jnl, .err, .fuse] ⊆ M) :
    Keeps (State.Via M S) (execFuseReread reads s) := by
  unfold execFuseReread
  apply keeps_next
  split
  · exact State.startJob_via hs (sub hk)
  · exact hs

theorem execSampleTrigger_via {s : State} (hs : State.Via M S s)
    (hk : [.freeCtr, .out, .upsets, .mem, .ring, .poison, .wbQueue, .cnt, .tk, .facets, .sched, .ap, .hbm, .dma,
    .tmplStatus, .exp, .cnd, .img, .wav, .net, .beam, .host, .note, .jnl, .err, .pwr, .fuse, .trust, .idle, .ready] ⊆
    M) :
    Keeps (State.Via M S) (execSampleTrigger s) := by
  unfold execSampleTrigger
  extract_lets t0
  have ht0 : State.Via M S t0 := by
    unfold t0
    exact State.rejoinBlock_via (State.sampleTrigger_via hs (sub hk)) (sub hk)
  clear_value t0
  apply keeps_next
  split
  · exact State.settle_via (State.syncGates_via ht0 (sub hk)) (sub hk)
  · exact ht0

theorem execAutoRestart_via {r : Fin 7} {s : State} (hs : State.Via M S s)
    (hk : [.freeCtr, .out, .upsets, .mem, .ring, .poison, .wbQueue, .cnt, .facets, .sched, .ap, .hbm, .dma,
    .tmplStatus, .exp, .cnd, .img, .wav, .net, .beam, .host, .note, .err, .pwr, .ready] ⊆ M) :
    Keeps (State.Via M S) (execAutoRestart r s) := by
  unfold execAutoRestart
  apply keeps_next
  split
  · exact State.beginRestart_via (State.updErr_via hs (sub hk) (fun _ => rfl)) (sub hk)
  · exact hs

theorem execRestartStepsDone_via {r : Fin 7} {ok : Bool} {s : State} (hs : State.Via M S s)
    (hk : [.freeCtr, .out, .upsets, .mem, .ring, .poison, .wbQueue, .cnt, .idle, .facets, .sched, .ap, .hbm, .dma,
      .tmplStatus, .exp, .cnd, .img, .wav, .net, .beam, .host, .note, .jnl, .err, .pwr, .fuse, .trust, .ready] ⊆ M) :
    Keeps (State.Via M S) (execRestartStepsDone r ok s) := by
  unfold execRestartStepsDone
  extract_lets s0 s1
  have hs0 : State.Via M S s0 := by
    unfold s0
    exact State.restartSteps_via hs (sub hk)
  clear_value s0
  have hs1 : State.Via M S s1 := by
    unfold s1
    split
    · exact State.rejoin_via hs0 (sub hk)
    · exact State.updErr_via hs0 (sub hk) (fun _ => rfl)
  clear_value s1
  split
  · exact keeps_next hs
  · split
    · exact keeps_next (State.settle_via (State.restartFails_via hs (sub hk)) (sub hk))
    · split
      · exact keeps_next hs
      · exact keeps_next (State.settle_via (State.syncGates_via hs1 (sub hk)) (sub hk))

end Sys2Proof.Machine
end

