-- ==== Sys2Proof/Laws/ViaFacet.lean ====
section
/-! SUPPORT. What each operation of the Facets can change (Via.lean), one lemma an operation. -/

set_option Elab.async false

namespace Sys2Proof.Machine

variable {M : List Change} {S : State}

/-! ### FacetControl -/

theorem State.invalidate_via {s : State} {f : Fin 16} (hs : State.Via M S s) (hk : [.file] ⊆ M) :
    State.Via M S (State.invalidate s f) := by
  unfold State.invalidate
  exact State.updFacet_file hs (sub hk) (fun _ => rfl)

theorem State.producerOverrun_via {s : State} {f : Fin 16} {g : Fin 16} {r : Fin 16} (hs : State.Via M S s)
    (hk : [.cnt, .file, .note, .err] ⊆ M) : State.Via M S (State.producerOverrun s f g r) := by
  unfold State.producerOverrun
  exact State.invalidate_via (State.facetError_via (State.count_via (State.updRegion_file hs (sub hk) (fun _ => rfl))
    (sub hk)) (sub hk)) (sub hk)

theorem pushBody_via {x : Ctx} {r : Rec} {w : Run} (hs : State.Via M S w.s)
    (hk : [.cnt, .facets, .file, .note, .err] ⊆ M) : State.Via M S (pushBody x r w).s := by
  unfold pushBody
  extract_lets pb0 g1 k2 u3 rg4
  clear_value u3 rg4
  split
  · dsimp -zeta only
    exact State.producerOverrun_via hs (sub hk)
  · dsimp -zeta only
    exact State.updRegion_via hs (sub hk)

theorem popBody_via {x : Ctx} {r : Rec} {w : Run} (hs : State.Via M S w.s)
    (hk : [.cnt, .facets, .file, .net, .beam, .note, .err] ⊆ M) : State.Via M S (popBody x r w).s := by
  unfold popBody
  extract_lets k0 u1 rg2 s3
  clear_value u1 rg2
  have hs3 : State.Via M S s3 := by
    unfold s3
    exact State.regrantRegion_via (State.updRegion_via hs (sub hk)) (sub hk)
  clear_value s3
  split
  · dsimp -zeta only
    exact State.invalidate_via (State.facetError_via (State.count_via hs3 (sub hk)) (sub hk)) (sub hk)
  · exact hs3

theorem Run.bufferUnits_via {w : Run} {x : Ctx} {ref : Ref} {a : Nat} {a1 : Nat} (hs : State.Via M S w.s) :
    State.Via M S (Run.bufferUnits w x ref a a1).2.s := by
  fun_induction Run.bufferUnits w x ref a a1
  · rename_i w0 x1
    exact hs
  · rename_i w2 n3 i4 h5 k6 g7 o8 past9 bad10 w11 us12 w13 x14 ih15
    have hw11 : State.Via M S w11.s := by
      unfold w11
      exact hs
    clear_value w11
    have hw13 : State.Via M S w13.s := by
      exact via2s x14 (ih15 hw11)
    exact hw13
  · rename_i w16 n17 i18 h19 us20 w21 x22 ih23
    have hw21 : State.Via M S w21.s := by
      exact via2s x22 (ih23 hs)
    exact hw21

theorem emitBody_via {x : Ctx} {r : Rec} {w : Run} (hs : State.Via M S w.s)
    (hk : [.upsets, .poison, .wbQueue, .cnt, .file, .note, .err] ⊆ M) : State.Via M S (emitBody x r w).s := by
  unfold emitBody
  split
  rename_i x0 pl1 w2 heq3
  have hw2 : State.Via M S w2.s := by
    exact via2s heq3 (Run.read_via hs (sub hk))
  extract_lets cap4 len5
  clear_value cap4 len5
  split
  rename_i x6 us7 w8 heq9
  have hw8 : State.Via M S w8.s := by
    exact via2s heq9 (Run.bufferUnits_via hw2)
  extract_lets w10 e11
  clear_value e11
  have hw10 : State.Via M S w10.s := by
    unfold w10
    exact Run.settleReads_via hw8 (sub hk)
  clear_value w10
  dsimp -zeta only
  exact State.updFacet_file hw10 (sub hk) (fun _ => rfl)

theorem checkFlagBody_via {x : Ctx} {r : Rec} {w : Run} (hs : State.Via M S w.s)
    (hk : [.out, .ring, .cnt, .file, .note, .err] ⊆ M) : State.Via M S (checkFlagBody x r w).s := by
  unfold checkFlagBody
  extract_lets g0 s1
  have hs1 : State.Via M S s1 := by
    unfold s1
    exact State.errorRec_via (State.count_via hs (sub hk)) (sub hk)
  clear_value s1
  split
  · exact hs
  · dsimp -zeta only
    exact State.invalidate_via (State.fault_via hs1 (sub hk)) (sub hk)

theorem execPush_via {f : Fin 16} {ms : List Meet} {s : State} (hs : State.Via M S s)
    (hk : [.freeCtr, .cnt, .facets, .file, .note, .err] ⊆ M) : Keeps (State.Via M S) (execPush f ms s) := by
  unfold execPush
  exact keeps_next (State.runRecord_via hs (fun u0 u1 u2 hu3 => pushBody_via hu3 (sub hk)) (sub hk))

theorem execPop_via {f : Fin 16} {ms : List Meet} {s : State} (hs : State.Via M S s)
    (hk : [.freeCtr, .cnt, .facets, .file, .net, .beam, .note, .err] ⊆ M) :
    Keeps (State.Via M S) (execPop f ms s) := by
  unfold execPop
  exact keeps_next (State.runRecord_via hs (fun u0 u1 u2 hu3 => popBody_via hu3 (sub hk)) (sub hk))

theorem execEmit_via {f : Fin 16} {ms : List Meet} {s : State} (hs : State.Via M S s)
    (hk : [.freeCtr, .upsets, .poison, .wbQueue, .cnt, .facets, .file, .note, .err] ⊆ M) :
    Keeps (State.Via M S) (execEmit f ms s) := by
  unfold execEmit
  exact keeps_next (State.runRecord_via hs (fun u0 u1 u2 hu3 => emitBody_via hu3 (sub hk)) (sub hk))

theorem execCheckFlag_via {f : Fin 16} {ms : List Meet} {s : State} (hs : State.Via M S s)
    (hk : [.freeCtr, .out, .ring, .cnt, .facets, .file, .note, .err] ⊆ M) :
    Keeps (State.Via M S) (execCheckFlag f ms s) := by
  unfold execCheckFlag
  exact keeps_next (State.runRecord_via hs (fun u0 u1 u2 hu3 => checkFlagBody_via hu3 (sub hk)) (sub hk))

theorem execWaitTick_via {f : Fin 16} {s : State} (hs : State.Via M S s) (hk : [.facets] ⊆ M) :
    Keeps (State.Via M S) (execWaitTick f s) := by
  unfold execWaitTick
  split
  · exact keeps_next hs
  · exact keeps_next (State.updFacet_via hs (sub hk))

theorem execWaitTickExpiry_via {f : Fin 16} {s : State} (hs : State.Via M S s) (hk : [.facets] ⊆ M) :
    Keeps (State.Via M S) (execWaitTickExpiry f s) := by
  unfold execWaitTickExpiry
  split
  · extract_lets c0 t1
    clear_value c0 t1
    exact keeps_next (State.endRecord_via (State.updFacet_via hs (sub hk)) (sub hk))
  · exact keeps_next hs

/-! ### FacetEnd -/

theorem State.readUnits_via {s : State} {a : List (Nat × Bool)} {a1 : Nat} (hs : State.Via M S s)
    (hk : [.freeCtr, .out, .upsets, .mem, .ring, .poison, .wbQueue, .cnt, .hbm, .img, .note, .err] ⊆ M) :
    State.Via M S (State.readUnits s a a1).2.2 := by
  fun_induction State.readUnits s a a1
  · rename_i s0 x1
    exact hs
  · rename_i s2 u3 bad4 us5 i6 bs7 rest8 s9 x10 bs11 rest12 s13 x14 ih15
    have hs9 : State.Via M S s9 := by
      exact via3 x10 (State.readDev_via hs (sub hk))
    have hs13 : State.Via M S s13 := by
      exact via3 x14 (ih15 hs9)
    exact hs13

theorem State.readBuffer_via {s : State} {e : EmitRec} (hs : State.Via M S s)
    (hk : [.freeCtr, .out, .upsets, .mem, .ring, .poison, .wbQueue, .cnt, .hbm, .img, .note, .err] ⊆ M) :
    State.Via M S (State.readBuffer s e).2.2 := by
  unfold State.readBuffer
  split
  rename_i x0 bs1 rest2 s3 heq4
  have hs3 : State.Via M S s3 := by
    exact via3 heq4 (State.readUnits_via hs (sub hk))
  exact hs3

theorem State.judgeBuffer_via {s : State} {p : EgressPath} {e : EmitRec} (hs : State.Via M S s)
    (hk : [.cnt, .ap, .note] ⊆ M) : State.Via M S (State.judgeBuffer s p e).2 := by
  unfold State.judgeBuffer
  extract_lets ok0 s1
  clear_value ok0
  have hs1 : State.Via M S s1 := by
    unfold s1
    exact State.judged_via hs (sub hk)
  clear_value s1
  dsimp -zeta only
  split
  · exact State.countCrop_via hs1 (sub hk)
  · exact hs1

theorem State.putBuffer_via {s : State} {e : EmitRec} (hs : State.Via M S s)
    (hk : [.freeCtr, .out, .upsets, .mem, .ring, .poison, .wbQueue, .cnt, .hbm, .img, .note, .err] ⊆ M) :
    State.Via M S (State.putBuffer s e).2 := by
  unfold State.putBuffer
  split
  rename_i x0 bs1 bad2 s3 heq4
  have hs3 : State.Via M S s3 := by
    exact via3 heq4 (State.readBuffer_via hs (sub hk))
  extract_lets h5 n6 at7 need8
  clear_value h5 n6 at7 need8
  dsimp -zeta only
  exact State.updHost_note (State.ringWrite_via hs3 (sub hk)) (sub hk) (fun _ => rfl)

theorem State.emitHost_via {s : State} {f : Fin 16} {seq : Nat} {inv : Nat} {e : EmitRec} (hs : State.Via M S s)
    (hk : [.freeCtr, .out, .upsets, .mem, .ring, .poison, .wbQueue, .cnt, .ap, .hbm, .img, .note, .err] ⊆ M) :
    State.Via M S (State.emitHost s f seq inv e) := by
  unfold State.emitHost
  split
  · exact State.judged_via hs (sub hk)
  · split
    · apply State.placeRec_via
      · split
        · exact State.judgeBuffer_via hs (sub hk)
        · exact hs
      · exact sub hk
    · split
      · split
        rename_i x0 bad1 s2 heq3
        have hs2 : State.Via M S s2 := by
          exact via2 heq3 (State.judgeBuffer_via hs (sub hk))
        split
        · split
          rename_i x4 bad5 s6 heq7
          have hs6 : State.Via M S s6 := by
            exact via2 heq7 (State.putBuffer_via hs2 (sub hk))
          exact State.placeRec_via hs6 (sub hk)
        · exact State.placeRec_via hs2 (sub hk)
      · exact State.placeRec_via hs (sub hk)

theorem State.emitFrames_via {s : State} {w : Fin 16} {off : Nat} {len : Nat} {a : Nat} {a1 : Nat} {a11 : List Byte}
    (hs : State.Via M S s) (hk : [.cnt, .net, .beam] ⊆ M) :
    State.Via M S (State.emitFrames s w off len a a1 a11) := by
  fun_induction State.emitFrames s w off len a a1 a11
  · rename_i s0 x1 x2
    exact hs
  · rename_i s3 n4 frag5 bs6 pl7 flags8 ih9
    exact ih9 (State.beamData_via hs (sub hk))

theorem State.emitBeam_via {s : State} {f : Fin 16} {seq : Nat} {e : EmitRec} (hs : State.Via M S s)
    (hk : [.freeCtr, .out, .upsets, .mem, .ring, .poison, .wbQueue, .cnt, .ap, .hbm, .img, .net, .beam, .note, .err] ⊆
      M) :
    State.Via M S (State.emitBeam s f seq e) := by
  unfold State.emitBeam
  extract_lets w0 n1
  clear_value n1
  split
  · exact hs
  · split
    · exact hs
    · split
      rename_i x2 bad3 s4 heq5
      have hs4 : State.Via M S s4 := by
        exact via2 heq5 (State.judgeBuffer_via hs (sub hk))
      split
      · exact hs4
      · split
        rename_i x6 bs7 bad8 s9 heq10
        have hs9 : State.Via M S s9 := by
          exact via3 heq10 (State.readBuffer_via hs4 (sub hk))
        extract_lets bs11 off12
        clear_value bs11 off12
        exact State.emitFrames_via (State.drawn_via hs9 (sub hk)) (sub hk)

theorem State.emitActs_via {s : State} {f : Fin 16} {e : EmitRec} (hs : State.Via M S s) (hk : [.img, .wav] ⊆ M) :
    State.Via M S (State.emitActs s f e) := by
  unfold State.emitActs
  split
  · exact State.updImg_via hs (sub hk)
  · split
    · exact State.updWav_via hs (sub hk)
    · exact hs

theorem State.emitTemplate_via {s : State} {e : EmitRec} (hs : State.Via M S s)
    (hk : [.freeCtr, .cnt, .net, .note] ⊆ M) : State.Via M S (State.emitTemplate s e) := by
  unfold State.emitTemplate
  split
  · split
    · exact State.fireTemplate_via hs (sub hk)
    · exact hs
  · exact hs

theorem State.releaseEmit_via {s : State} {f : Fin 16} {inv : Bool} {e : EmitRec} (hs : State.Via M S s)
    (hk : [.freeCtr, .out, .upsets, .mem, .ring, .poison, .wbQueue, .cnt, .ap, .hbm, .img, .wav, .net, .beam, .note,
      .err] ⊆ M) :
    State.Via M S (State.releaseEmit s f inv e) := by
  unfold State.releaseEmit
  split
  rename_i x0 q1 s2 heq3
  have hs2 : State.Via M S s2 := by
    exact via2 heq3 (State.nextSeq_via hs (sub hk))
  split
  · exact State.emitHost_via hs2 (sub hk)
  · extract_lets s4 s5 s6
    have hs4 : State.Via M S s4 := by
      unfold s4
      split
      · exact State.emitHost_via hs2 (sub hk)
      · exact hs2
    clear_value s4
    have hs5 : State.Via M S s5 := by
      unfold s5
      exact State.emitActs_via hs4 (sub hk)
    clear_value s5
    have hs6 : State.Via M S s6 := by
      unfold s6
      split
      · exact State.emitTemplate_via hs5 (sub hk)
      · exact hs5
    clear_value s6
    split
    · exact State.emitBeam_via hs6 (sub hk)
    · exact hs6

theorem State.releaseEmits_via {s : State} {f : Fin 16} (hs : State.Via M S s)
    (hk : [.freeCtr, .out, .upsets, .mem, .ring, .poison, .wbQueue, .cnt, .file, .ap, .hbm, .img, .wav, .net, .beam,
      .note, .err] ⊆ M) :
    State.Via M S (State.releaseEmits s f) := by
  unfold State.releaseEmits
  extract_lets es0 inv1
  clear_value es0 inv1
  exact foldl_via (State.updFacet_file hs (sub hk) (fun _ => rfl)) (fun u2 u3 hu4 => State.releaseEmit_via hu4 (sub
    hk))

theorem execEnd_via {f : Fin 16} {s : State} (hs : State.Via M S s)
    (hk : [.freeCtr, .out, .upsets, .mem, .ring, .poison, .wbQueue, .cnt, .facets, .file, .ap, .hbm, .img, .wav, .net,
      .beam, .note, .err] ⊆ M) :
    Keeps (State.Via M S) (execEnd f s) := by
  unfold execEnd
  split
  · exact keeps_next hs
  · extract_lets s0
    have hs0 : State.Via M S s0 := by
      unfold s0
      exact State.releaseEmits_via (State.publishAll_via (State.endRecord_via hs (sub hk)) (sub hk)) (sub hk)
    clear_value s0
    exact keeps_next (State.updFacet_via hs0 (sub hk))

/-! ### FacetArray -/

theorem readA_via {w : Run} {x : Ctx} {r : Rec} (hs : State.Via M S w.s)
    (hk : [.upsets, .poison, .wbQueue, .cnt, .note, .err] ⊆ M) : State.Via M S (readA w x r).2.s := by
  unfold readA
  extract_lets t0 tu1 n2 n3
  clear_value t0 tu1 n2 n3
  split
  · split
    rename_i x4 rows5 w6 heq7
    have hw6 : State.Via M S w6.s := by
      exact via2s heq7 (Run.readRows_via hs (sub hk))
    exact hw6
  · split
    rename_i x8 rows9 w10 heq11
    have hw10 : State.Via M S w10.s := by
      exact via2s heq11 (Run.readRows_via hs (sub hk))
    exact hw10

theorem Run.readAtAll_via {w : Run} {x : Ctx} {ref : Ref} {n : Nat} {a : List Nat} (hs : State.Via M S w.s)
    (hk : [.upsets, .poison, .wbQueue, .cnt, .note, .err] ⊆ M) : State.Via M S (Run.readAtAll w x ref n a).2.s := by
  fun_induction Run.readAtAll w x ref n a
  · rename_i w0
    exact hs
  · rename_i w1 o2 os3 bs4 w5 x6 bs7 w8 x9 ih10
    have hw5 : State.Via M S w5.s := by
      exact via2s x6 (Run.read_via hs (sub hk))
    have hw8 : State.Via M S w8.s := by
      exact via2s x9 (ih10 hw5)
    exact hw8

theorem readConvA_via {w : Run} {x : Ctx} {r : Rec} {a : Nat} {a1 : Nat} (hs : State.Via M S w.s)
    (hk : [.upsets, .poison, .wbQueue, .cnt, .note, .err] ⊆ M) : State.Via M S (readConvA w x r a a1).2.s := by
  fun_induction readConvA w x r a a1
  · rename_i w0 x1
    exact hs
  · rename_i w2 n3 j4 t5 tu6 bs7 w8 x9 bs10 w11 x12 ih13
    have hw8 : State.Via M S w8.s := by
      exact via2s x9 (Run.readAtAll_via hs (sub hk))
    have hw11 : State.Via M S w11.s := by
      exact via2s x12 (ih13 hw8)
    exact hw11

theorem readArray_via {w : Run} {x : Ctx} {r : Rec} (hs : State.Via M S w.s)
    (hk : [.upsets, .poison, .wbQueue, .cnt, .note, .err] ⊆ M) : State.Via M S (readArray w x r).2.s := by
  unfold readArray
  split
  rename_i x0 bs1 w2 heq3
  have hw2 : State.Via M S w2.s := by
    refine via2s heq3 ?_
    split
    · exact readConvA_via hs (sub hk)
    · exact readA_via hs (sub hk)
  extract_lets tw4 tiles5 g6 scaled7 su8
  clear_value tw4 tiles5 g6 scaled7 su8
  split
  rename_i x9 bs10 w11 heq12
  have hw11 : State.Via M S w11.s := by
    exact via2s heq12 (Run.read_via hw2 (sub hk))
  split
  rename_i x13 bs14 w15 heq16
  have hw15 : State.Via M S w15.s := by
    exact via2s heq16 (Run.read_via hw11 (sub hk))
  split
  rename_i x17 bs18 w19 heq20
  have hw19 : State.Via M S w19.s := by
    exact via2s heq20 (Run.read_via hw15 (sub hk))
  split
  rename_i x21 bs22 w23 heq24
  have hw23 : State.Via M S w23.s := by
    exact via2s heq24 (Run.read_via hw19 (sub hk))
  exact hw23

theorem readDw_via {w : Run} {x : Ctx} {r : Rec} (hs : State.Via M S w.s)
    (hk : [.upsets, .poison, .wbQueue, .cnt, .note, .err] ⊆ M) : State.Via M S (readDw w x r).2.s := by
  unfold readDw
  split
  rename_i x0 bs1 w2 heq3
  have hw2 : State.Via M S w2.s := by
    exact via2s heq3 (readConvA_via hs (sub hk))
  extract_lets tw4 tu5 scaled6
  clear_value tw4 tu5 scaled6
  split
  rename_i x7 bs8 w9 heq10
  have hw9 : State.Via M S w9.s := by
    exact via2s heq10 (Run.read_via hw2 (sub hk))
  split
  rename_i x11 bs12 w13 heq14
  have hw13 : State.Via M S w13.s := by
    exact via2s heq14 (Run.read_via hw9 (sub hk))
  split
  rename_i x15 bs16 w17 heq18
  have hw17 : State.Via M S w17.s := by
    exact via2s heq18 (Run.read_via hw13 (sub hk))
  exact hw17

theorem storeTotals_via {w : Run} {x : Ctx} {r : Rec} {rows : List (List FVal)} (hs : State.Via M S w.s)
    (hk : [.facets] ⊆ M) : State.Via M S (storeTotals w x r rows).s := by
  unfold storeTotals
  extract_lets g0 g1
  clear_value g0 g1
  dsimp -zeta only
  exact State.updFacet_via hs (sub hk)

theorem writeOut_via {w : Run} {x : Ctx} {r : Rec} {rows : List (List Nat)} (hs : State.Via M S w.s)
    (hk : [.upsets, .mem, .poison, .wbQueue, .cnt, .file, .note, .err] ⊆ M) :
    State.Via M S (writeOut w x r rows).s := by
  unfold writeOut
  split
  · exact hs
  · exact Run.write_via hs (sub hk)

theorem finishArray_via {w : Run} {x : Ctx} {r : Rec} {rows : List (List FVal)} (hs : State.Via M S w.s)
    (hk : [.upsets, .mem, .poison, .wbQueue, .cnt, .facets, .file, .note, .err] ⊆ M) :
    State.Via M S (finishArray w x r rows).s := by
  unfold finishArray
  extract_lets w0
  have hw0 : State.Via M S w0.s := by
    unfold w0
    exact storeTotals_via (Run.settleReads_via hs (sub hk)) (sub hk)
  clear_value w0
  exact writeOut_via hw0 (sub hk)

theorem State.chargeNorm_via {s : State} {f : Fin 16} {n : Nat} (hs : State.Via M S s)
    (hk : [.out, .ring, .cnt, .file, .note, .err] ⊆ M) : State.Via M S (State.chargeNorm s f n) := by
  unfold State.chargeNorm
  split
  · exact hs
  · extract_lets s0
    have hs0 : State.Via M S s0 := by
      unfold s0
      exact State.errorRecN_via (State.count_via hs (sub hk)) (sub hk)
    clear_value s0
    exact State.updFacet_file (State.faults_via hs0 (sub hk)) (sub hk) (fun _ => rfl)

theorem focusArray_via {w : Run} {x : Ctx} {r : Rec} {i : ArrayIn} (hs : State.Via M S w.s)
    (hk : [.out, .upsets, .mem, .ring, .poison, .wbQueue, .cnt, .facets, .file, .note, .err] ⊆ M) :
    State.Via M S (focusArray w x r i).s := by
  unfold focusArray
  extract_lets w0 w1 e2 outs3 all4 near5 s6 s7 s8 s9 w10
  clear_value e2 outs3 all4 near5
  have hw0 : State.Via M S w0.s := by
    unfold w0
    exact Run.settleReads_via hs (sub hk)
  clear_value w0
  have hw1 : State.Via M S w1.s := by
    unfold w1
    dsimp -zeta only
    exact State.chargeNorm_via hw0 (sub hk)
  clear_value w1
  have hs6 : State.Via M S s6 := by
    unfold s6
    exact State.count_via hw1 (sub hk)
  clear_value s6
  have hs7 : State.Via M S s7 := by
    unfold s7
    exact State.count_via hs6 (sub hk)
  clear_value s7
  have hs8 : State.Via M S s8 := by
    unfold s8
    exact State.count_via hs7 (sub hk)
  clear_value s8
  have hs9 : State.Via M S s9 := by
    unfold s9
    exact State.updFacet_file hs8 (sub hk) (fun _ => rfl)
  clear_value s9
  have hw10 : State.Via M S w10.s := by
    unfold w10
    exact storeTotals_via hs9 (sub hk)
  clear_value w10
  exact writeOut_via hw10 (sub hk)

theorem matrixBody_via {x : Ctx} {r : Rec} {w : Run} (hs : State.Via M S w.s)
    (hk : [.out, .upsets, .mem, .ring, .poison, .wbQueue, .cnt, .facets, .file, .note, .err] ⊆ M) :
    State.Via M S (matrixBody x r w).s := by
  unfold matrixBody
  split
  rename_i x0 i1 w2 heq3
  have hw2 : State.Via M S w2.s := by
    exact via2s heq3 (readArray_via hs (sub hk))
  split
  · exact focusArray_via hw2 (sub hk)
  · exact finishArray_via hw2 (sub hk)

theorem dwBody_via {x : Ctx} {r : Rec} {w : Run} (hs : State.Via M S w.s)
    (hk : [.upsets, .mem, .poison, .wbQueue, .cnt, .facets, .file, .note, .err] ⊆ M) :
    State.Via M S (dwBody x r w).s := by
  unfold dwBody
  split
  rename_i x0 i1 w2 heq3
  have hw2 : State.Via M S w2.s := by
    exact via2s heq3 (readDw_via hs (sub hk))
  exact finishArray_via hw2 (sub hk)

theorem execMm_via {f : Fin 16} {ms : List Meet} {s : State} (hs : State.Via M S s)
    (hk : [.freeCtr, .out, .upsets, .mem, .ring, .poison, .wbQueue, .cnt, .facets, .file, .note, .err] ⊆ M) :
    Keeps (State.Via M S) (execMm f ms s) := by
  unfold execMm
  exact keeps_next (State.runRecord_via hs (fun u0 u1 u2 hu3 => matrixBody_via hu3 (sub hk)) (sub hk))

theorem execMmt_via {f : Fin 16} {ms : List Meet} {s : State} (hs : State.Via M S s)
    (hk : [.freeCtr, .out, .upsets, .mem, .ring, .poison, .wbQueue, .cnt, .facets, .file, .note, .err] ⊆ M) :
    Keeps (State.Via M S) (execMmt f ms s) := by
  unfold execMmt
  exact keeps_next (State.runRecord_via hs (fun u0 u1 u2 hu3 => matrixBody_via hu3 (sub hk)) (sub hk))

theorem execConv_via {f : Fin 16} {ms : List Meet} {s : State} (hs : State.Via M S s)
    (hk : [.freeCtr, .out, .upsets, .mem, .ring, .poison, .wbQueue, .cnt, .facets, .file, .note, .err] ⊆ M) :
    Keeps (State.Via M S) (execConv f ms s) := by
  unfold execConv
  exact keeps_next (State.runRecord_via hs (fun u0 u1 u2 hu3 => matrixBody_via hu3 (sub hk)) (sub hk))

theorem execDwconv_via {f : Fin 16} {ms : List Meet} {s : State} (hs : State.Via M S s)
    (hk : [.freeCtr, .upsets, .mem, .poison, .wbQueue, .cnt, .facets, .file, .note, .err] ⊆ M) :
    Keeps (State.Via M S) (execDwconv f ms s) := by
  unfold execDwconv
  exact keeps_next (State.runRecord_via hs (fun u0 u1 u2 hu3 => dwBody_via hu3 (sub hk)) (sub hk))

/-! ### FacetVector -/

theorem readVec_via {w : Run} {x : Ctx} {r : Rec} {word : Nat} {t : Elt} (hs : State.Via M S w.s)
    (hk : [.upsets, .poison, .wbQueue, .cnt, .note, .err] ⊆ M) : State.Via M S (readVec w x r word t).2.s := by
  unfold readVec
  extract_lets ref0
  clear_value ref0
  split
  · exact hs
  · split
    rename_i x1 rows2 w3 heq4
    have hw3 : State.Via M S w3.s := by
      exact via2s heq4 (Run.readRows_via hs (sub hk))
    exact hw3

theorem writeVec_via {w : Run} {x : Ctx} {r : Rec} {rows : List (List FVal)} (hs : State.Via M S w.s)
    (hk : [.upsets, .mem, .poison, .wbQueue, .cnt, .facets, .file, .note, .err] ⊆ M) :
    State.Via M S (writeVec w x r rows).s := by
  unfold writeVec
  extract_lets ref0 td1
  clear_value ref0 td1
  split
  · dsimp -zeta only
    exact State.updFacet_via hs (sub hk)
  · exact Run.writeRows_via hs (sub hk)

theorem vecEwBody_via {x : Ctx} {r : Rec} {w : Run} (hs : State.Via M S w.s)
    (hk : [.upsets, .mem, .poison, .wbQueue, .cnt, .facets, .file, .note, .err] ⊆ M) :
    State.Via M S (vecEwBody x r w).s := by
  unfold vecEwBody
  extract_lets t0 sc1
  clear_value t0 sc1
  split
  rename_i x2 b3 w4 heq5
  have hw4 : State.Via M S w4.s := by
    exact via2s heq5 (readVec_via hs (sub hk))
  split
  rename_i x6 b7 w8 heq9
  have hw8 : State.Via M S w8.s := by
    refine via2s heq9 ?_
    split
    · exact readVec_via hw4 (sub hk)
    · exact hw4
  extract_lets w10
  have hw10 : State.Via M S w10.s := by
    unfold w10
    exact Run.settleReads_via hw8 (sub hk)
  clear_value w10
  exact writeVec_via hw10 (sub hk)

theorem actBody_via {x : Ctx} {r : Rec} {w : Run} (hs : State.Via M S w.s)
    (hk : [.upsets, .mem, .poison, .wbQueue, .cnt, .facets, .file, .note, .err] ⊆ M) :
    State.Via M S (actBody x r w).s := by
  unfold actBody
  split
  rename_i x0 b1 w2 heq3
  have hw2 : State.Via M S w2.s := by
    exact via2s heq3 (readVec_via hs (sub hk))
  extract_lets w4
  have hw4 : State.Via M S w4.s := by
    unfold w4
    exact Run.settleReads_via hw2 (sub hk)
  clear_value w4
  exact writeVec_via hw4 (sub hk)

theorem vecRedBody_via {x : Ctx} {r : Rec} {w : Run} (hs : State.Via M S w.s)
    (hk : [.upsets, .mem, .poison, .wbQueue, .cnt, .facets, .file, .note, .err] ⊆ M) :
    State.Via M S (vecRedBody x r w).s := by
  unfold vecRedBody
  extract_lets td0 op1 ref2
  clear_value td0 ref2
  split
  rename_i x3 b4 w5 heq6
  have hw5 : State.Via M S w5.s := by
    exact via2s heq6 (readVec_via hs (sub hk))
  extract_lets w7 a8 res9 res10
  clear_value a8 res9 res10
  have hw7 : State.Via M S w7.s := by
    unfold w7
    exact Run.settleReads_via hw5 (sub hk)
  clear_value w7
  split
  · split
    · dsimp -zeta only
      exact State.updFacet_file hw7 (sub hk) (fun _ => rfl)
    · exact Run.write_via hw7 (sub hk)
  · split
    · dsimp -zeta only
      exact State.updFacet_via hw7 (sub hk)
    · split
      · exact Run.write_via hw7 (sub hk)
      · exact Run.writeRows_via hw7 (sub hk)

theorem softmaxBody_via {x : Ctx} {r : Rec} {w : Run} (hs : State.Via M S w.s)
    (hk : [.upsets, .mem, .poison, .wbQueue, .cnt, .facets, .file, .note, .err] ⊆ M) :
    State.Via M S (softmaxBody x r w).s := by
  unfold softmaxBody
  split
  rename_i x0 b1 w2 heq3
  have hw2 : State.Via M S w2.s := by
    exact via2s heq3 (readVec_via hs (sub hk))
  extract_lets w4
  have hw4 : State.Via M S w4.s := by
    unfold w4
    exact Run.settleReads_via hw2 (sub hk)
  clear_value w4
  exact writeVec_via hw4 (sub hk)

theorem normBody_via {x : Ctx} {r : Rec} {w : Run} (hs : State.Via M S w.s)
    (hk : [.upsets, .mem, .poison, .wbQueue, .cnt, .facets, .file, .note, .err] ⊆ M) :
    State.Via M S (normBody x r w).s := by
  unfold normBody
  split
  rename_i x0 b1 w2 heq3
  have hw2 : State.Via M S w2.s := by
    exact via2s heq3 (readVec_via hs (sub hk))
  split
  rename_i x4 pb5 w6 heq7
  have hw6 : State.Via M S w6.s := by
    exact via2s heq7 (Run.read_via hw2 (sub hk))
  extract_lets w8 ps9
  clear_value ps9
  have hw8 : State.Via M S w8.s := by
    unfold w8
    exact Run.settleReads_via hw6 (sub hk)
  clear_value w8
  exact writeVec_via hw8 (sub hk)

theorem execVecEw_via {f : Fin 16} {ms : List Meet} {s : State} (hs : State.Via M S s)
    (hk : [.freeCtr, .upsets, .mem, .poison, .wbQueue, .cnt, .facets, .file, .note, .err] ⊆ M) :
    Keeps (State.Via M S) (execVecEw f ms s) := by
  unfold execVecEw
  exact keeps_next (State.runRecord_via hs (fun u0 u1 u2 hu3 => vecEwBody_via hu3 (sub hk)) (sub hk))

theorem execVecRed_via {f : Fin 16} {ms : List Meet} {s : State} (hs : State.Via M S s)
    (hk : [.freeCtr, .upsets, .mem, .poison, .wbQueue, .cnt, .facets, .file, .note, .err] ⊆ M) :
    Keeps (State.Via M S) (execVecRed f ms s) := by
  unfold execVecRed
  exact keeps_next (State.runRecord_via hs (fun u0 u1 u2 hu3 => vecRedBody_via hu3 (sub hk)) (sub hk))

theorem execSoftmax_via {f : Fin 16} {ms : List Meet} {s : State} (hs : State.Via M S s)
    (hk : [.freeCtr, .upsets, .mem, .poison, .wbQueue, .cnt, .facets, .file, .note, .err] ⊆ M) :
    Keeps (State.Via M S) (execSoftmax f ms s) := by
  unfold execSoftmax
  exact keeps_next (State.runRecord_via hs (fun u0 u1 u2 hu3 => softmaxBody_via hu3 (sub hk)) (sub hk))

theorem execNorm_via {f : Fin 16} {ms : List Meet} {s : State} (hs : State.Via M S s)
    (hk : [.freeCtr, .upsets, .mem, .poison, .wbQueue, .cnt, .facets, .file, .note, .err] ⊆ M) :
    Keeps (State.Via M S) (execNorm f ms s) := by
  unfold execNorm
  exact keeps_next (State.runRecord_via hs (fun u0 u1 u2 hu3 => normBody_via hu3 (sub hk)) (sub hk))

theorem execAct_via {f : Fin 16} {ms : List Meet} {s : State} (hs : State.Via M S s)
    (hk : [.freeCtr, .upsets, .mem, .poison, .wbQueue, .cnt, .facets, .file, .note, .err] ⊆ M) :
    Keeps (State.Via M S) (execAct f ms s) := by
  unfold execAct
  exact keeps_next (State.runRecord_via hs (fun u0 u1 u2 hu3 => actBody_via hu3 (sub hk)) (sub hk))

/-! ### FacetSelect -/

theorem decideBody_via {x : Ctx} {r : Rec} {w : Run} (hs : State.Via M S w.s)
    (hk : [.upsets, .mem, .poison, .wbQueue, .cnt, .file, .note, .err] ⊆ M) :
    State.Via M S (decideBody x r w).s := by
  unfold decideBody
  split
  rename_i x0 a1 w2 heq3
  have hw2 : State.Via M S w2.s := by
    exact via2s heq3 (readVec_via hs (sub hk))
  extract_lets w4 t5 w6
  clear_value t5
  have hw4 : State.Via M S w4.s := by
    unfold w4
    exact Run.settleReads_via hw2 (sub hk)
  clear_value w4
  have hw6 : State.Via M S w6.s := by
    unfold w6
    exact Run.write_via hw4 (sub hk)
  clear_value w6
  split
  · exact hw6
  · exact Run.write_via hw6 (sub hk)

theorem topkBody_via {x : Ctx} {r : Rec} {w : Run} (hs : State.Via M S w.s)
    (hk : [.upsets, .mem, .poison, .wbQueue, .cnt, .file, .note, .err] ⊆ M) : State.Via M S (topkBody x r w).s := by
  unfold topkBody
  split
  rename_i x0 a1 w2 heq3
  have hw2 : State.Via M S w2.s := by
    exact via2s heq3 (readVec_via hs (sub hk))
  extract_lets w4
  have hw4 : State.Via M S w4.s := by
    unfold w4
    exact Run.settleReads_via hw2 (sub hk)
  clear_value w4
  exact Run.write_via hw4 (sub hk)

theorem nmsBody_via {x : Ctx} {r : Rec} {w : Run} (hs : State.Via M S w.s)
    (hk : [.upsets, .mem, .poison, .wbQueue, .cnt, .file, .note, .err] ⊆ M) : State.Via M S (nmsBody x r w).s := by
  unfold nmsBody
  extract_lets n0
  clear_value n0
  split
  rename_i x1 b2 w3 heq4
  have hw3 : State.Via M S w3.s := by
    exact via2s heq4 (Run.read_via hs (sub hk))
  extract_lets w5 a6 boxes7 keep8 w9
  clear_value a6 boxes7 keep8
  have hw5 : State.Via M S w5.s := by
    unfold w5
    exact Run.settleReads_via hw3 (sub hk)
  clear_value w5
  have hw9 : State.Via M S w9.s := by
    unfold w9
    exact Run.write_via hw5 (sub hk)
  clear_value w9
  exact Run.write_via hw9 (sub hk)

theorem execDecide_via {f : Fin 16} {ms : List Meet} {s : State} (hs : State.Via M S s)
    (hk : [.freeCtr, .upsets, .mem, .poison, .wbQueue, .cnt, .facets, .file, .note, .err] ⊆ M) :
    Keeps (State.Via M S) (execDecide f ms s) := by
  unfold execDecide
  exact keeps_next (State.runRecord_via hs (fun u0 u1 u2 hu3 => decideBody_via hu3 (sub hk)) (sub hk))

theorem execTopk_via {f : Fin 16} {ms : List Meet} {s : State} (hs : State.Via M S s)
    (hk : [.freeCtr, .upsets, .mem, .poison, .wbQueue, .cnt, .facets, .file, .note, .err] ⊆ M) :
    Keeps (State.Via M S) (execTopk f ms s) := by
  unfold execTopk
  exact keeps_next (State.runRecord_via hs (fun u0 u1 u2 hu3 => topkBody_via hu3 (sub hk)) (sub hk))

theorem execNms_via {f : Fin 16} {ms : List Meet} {s : State} (hs : State.Via M S s)
    (hk : [.freeCtr, .upsets, .mem, .poison, .wbQueue, .cnt, .facets, .file, .note, .err] ⊆ M) :
    Keeps (State.Via M S) (execNms f ms s) := by
  unfold execNms
  exact keeps_next (State.runRecord_via hs (fun u0 u1 u2 hu3 => nmsBody_via hu3 (sub hk)) (sub hk))

/-! ### FacetMove -/

theorem State.chargeIndex_via {s : State} {f : Fin 16} {n : Nat} (hs : State.Via M S s)
    (hk : [.out, .ring, .cnt, .file, .note, .err] ⊆ M) : State.Via M S (State.chargeIndex s f n) := by
  unfold State.chargeIndex
  split
  · exact hs
  · extract_lets s0
    have hs0 : State.Via M S s0 := by
      unfold s0
      exact State.errorRecN_via (State.count_via hs (sub hk)) (sub hk)
    clear_value s0
    exact State.updFacet_file (State.faults_via hs0 (sub hk)) (sub hk) (fun _ => rfl)

theorem readIndices_via {w : Run} {x : Ctx} {r : Rec} (hs : State.Via M S w.s)
    (hk : [.upsets, .poison, .wbQueue, .cnt, .note, .err] ⊆ M) : State.Via M S (readIndices w x r).2.s := by
  unfold readIndices
  extract_lets n0
  clear_value n0
  split
  rename_i x1 b2 w3 heq4
  have hw3 : State.Via M S w3.s := by
    exact via2s heq4 (Run.read_via hs (sub hk))
  exact hw3

theorem gatherRows_via {w : Run} {x : Ctx} {ref : Ref} {units : Nat} {tableRows : Nat} {a : List Nat}
    (hs : State.Via M S w.s) (hk : [.upsets, .poison, .wbQueue, .cnt, .note, .err] ⊆ M) :
    State.Via M S (gatherRows w x ref units tableRows a).2.s := by
  fun_induction gatherRows w x ref units tableRows a
  · rename_i w0
    exact hs
  · rename_i w1 i2 is3 h4 b5 w6 x7 bs8 w9 x10 ih11
    have hw6 : State.Via M S w6.s := by
      exact via2s x7 (Run.read_via hs (sub hk))
    have hw9 : State.Via M S w9.s := by
      exact via2s x10 (ih11 hw6)
    exact hw9
  · rename_i w12 i13 is14 h15 bs16 w17 x18 ih19
    have hw17 : State.Via M S w17.s := by
      exact via2s x18 (ih19 hs)
    exact hw17

theorem gatherWrite_via {w : Run} {x : Ctx} {ref : Ref} {units : Nat} {a : List (Option (List Byte))} {a1 : Nat}
    (hs : State.Via M S w.s) (hk : [.upsets, .mem, .poison, .wbQueue, .cnt, .file, .note, .err] ⊆ M) :
    State.Via M S (gatherWrite w x ref units a a1).s := by
  fun_induction gatherWrite w x ref units a a1
  · rename_i w0 x1
    exact hs
  · rename_i w2 b3 rs4 off5 ih6
    exact ih6 (Run.write_via hs (sub hk))
  · rename_i w7 rs8 off9 w10 ih11
    have hw10 : State.Via M S w10.s := by
      unfold w10
      exact Run.writeBad_via hs (sub hk)
    clear_value w10
    apply ih11
    dsimp -zeta only
    exact State.updFacet_file hw10 (sub hk) (fun _ => rfl)

theorem gatherBody_via {x : Ctx} {r : Rec} {w : Run} (hs : State.Via M S w.s)
    (hk : [.out, .upsets, .mem, .ring, .poison, .wbQueue, .cnt, .file, .note, .err] ⊆ M) :
    State.Via M S (gatherBody x r w).s := by
  unfold gatherBody
  extract_lets units0
  clear_value units0
  split
  rename_i x1 is2 w3 heq4
  have hw3 : State.Via M S w3.s := by
    exact via2s heq4 (readIndices_via hs (sub hk))
  split
  rename_i x5 bs6 w7 heq8
  have hw7 : State.Via M S w7.s := by
    exact via2s heq8 (gatherRows_via hw3 (sub hk))
  extract_lets w9 w10
  have hw9 : State.Via M S w9.s := by
    unfold w9
    exact Run.settleReads_via hw7 (sub hk)
  clear_value w9
  have hw10 : State.Via M S w10.s := by
    unfold w10
    exact gatherWrite_via hw9 (sub hk)
  clear_value w10
  dsimp -zeta only
  exact State.chargeIndex_via hw10 (sub hk)

theorem Run.readDst_via {w : Run} {x : Ctx} {ref : Ref} {off : Nat} (hs : State.Via M S w.s)
    (hk : [.upsets, .poison, .wbQueue, .cnt, .note, .err] ⊆ M) : State.Via M S (Run.readDst w x ref off).2.s := by
  unfold Run.readDst
  extract_lets g0
  clear_value g0
  split
  · exact Run.readAt_via hs (sub hk)
  · exact Run.readAt_via hs (sub hk)

theorem Run.accumUnit_via {w : Run} {x : Ctx} {ref : Ref} {kind : Nat} {off : Nat} {bs : List Byte}
    (hs : State.Via M S w.s) (hk : [.upsets, .mem, .poison, .wbQueue, .cnt, .file, .note, .err] ⊆ M) :
    State.Via M S (Run.accumUnit w x ref kind off bs).s := by
  unfold Run.accumUnit
  split
  · exact Run.write_via hs (sub hk)
  · split
    rename_i x0 b1 w2 heq3
    have hw2 : State.Via M S w2.s := by
      exact via2s heq3 (Run.readDst_via hs (sub hk))
    extract_lets t4 n5 sum6 w7 w8
    clear_value t4 n5 sum6
    have hw7 : State.Via M S w7.s := by
      unfold w7
      split
      · exact Run.settleReads_via hw2 (sub hk)
      · exact hw2
    clear_value w7
    have hw8 : State.Via M S w8.s := by
      unfold w8
      exact hw7
    clear_value w8
    exact Run.write_via hw8 (sub hk)

theorem Run.accumRun_via {w : Run} {x : Ctx} {ref : Ref} {kind : Nat} {a : Nat} {a1 : Nat} {a11 : List Byte}
    (hs : State.Via M S w.s) (hk : [.upsets, .mem, .poison, .wbQueue, .cnt, .file, .note, .err] ⊆ M) :
    State.Via M S (Run.accumRun w x ref kind a a1 a11).s := by
  fun_induction Run.accumRun w x ref kind a a1 a11
  · rename_i w0 x1 x2
    exact hs
  · rename_i w3 n4 off5 bs6 ih7
    exact ih7 (Run.accumUnit_via hs (sub hk))

theorem scatterWrite_via {w : Run} {x : Ctx} {ref : Ref} {units tableRows : Nat} {accum : Option Nat} {rs : List (Nat
    × List Byte)} (hs : State.Via M S w.s) (hk : [.upsets, .mem, .poison, .wbQueue, .cnt, .file, .note, .err] ⊆ M) :
    State.Via M S (scatterWrite w x ref units tableRows accum rs).s := by
  induction rs generalizing w with
  | nil => exact hs
  | cons p rs ih =>
    by_cases h : p.1 < tableRows
    · cases accum <;> simp only [scatterWrite, h, if_true]
      · exact ih (Run.write_via hs (sub hk))
      · exact ih (Run.accumRun_via hs (sub hk))
    · simp only [scatterWrite, h, if_false]
      refine ih ?_
      dsimp only
      exact State.updFacet_file hs (sub hk) fun _ => rfl

theorem scatterBody_via {x : Ctx} {r : Rec} {w : Run} (hs : State.Via M S w.s)
    (hk : [.out, .upsets, .mem, .ring, .poison, .wbQueue, .cnt, .file, .note, .err] ⊆ M) :
    State.Via M S (scatterBody x r w).s := by
  unfold scatterBody
  extract_lets units0 kind1
  clear_value units0 kind1
  split
  rename_i x2 is3 w4 heq5
  have hw4 : State.Via M S w4.s := by
    exact via2s heq5 (readIndices_via hs (sub hk))
  split
  rename_i x6 rows7 w8 heq9
  have hw8 : State.Via M S w8.s := by
    exact via2s heq9 (Run.readRows_via hw4 (sub hk))
  extract_lets w10 n11 w12
  clear_value n11
  have hw10 : State.Via M S w10.s := by
    unfold w10
    exact Run.settleReads_via hw8 (sub hk)
  clear_value w10
  have hw12 : State.Via M S w12.s := by
    unfold w12
    exact scatterWrite_via hw10 (sub hk)
  clear_value w12
  dsimp -zeta only
  exact State.chargeIndex_via hw12 (sub hk)

theorem cropRows_via {w : Run} {x : Ctx} {ref : Ref} {pitch : Nat} {eb : Nat} {q : Rect} {a : Nat} {a1 : Nat}
    (hs : State.Via M S w.s) (hk : [.upsets, .poison, .wbQueue, .cnt, .note, .err] ⊆ M) :
    State.Via M S (cropRows w x ref pitch eb q a a1).2.s := by
  fun_induction cropRows w x ref pitch eb q a a1
  · rename_i w0 x1
    exact hs
  · rename_i w2 n3 y4 lo5 hi6 u7 b8 w9 x10 rows11 w12 x13 ih14
    have hw9 : State.Via M S w9.s := by
      exact via2s x10 (Run.read_via hs (sub hk))
    have hw12 : State.Via M S w12.s := by
      exact via2s x13 (ih14 hw9)
    exact hw12

theorem cropBody_via {x : Ctx} {r : Rec} {w : Run} (hs : State.Via M S w.s)
    (hk : [.upsets, .mem, .poison, .wbQueue, .cnt, .file, .note, .err] ⊆ M) : State.Via M S (cropBody x r w).s := by
  unfold cropBody
  split
  rename_i x0 b1 w2 heq3
  have hw2 : State.Via M S w2.s := by
    exact via2s heq3 (Run.read_via hs (sub hk))
  extract_lets q4 e5 eb6
  clear_value q4 e5 eb6
  split
  rename_i x7 rows8 w9 heq10
  have hw9 : State.Via M S w9.s := by
    exact via2s heq10 (cropRows_via hw2 (sub hk))
  extract_lets w11 w12
  have hw11 : State.Via M S w11.s := by
    unfold w11
    exact Run.settleReads_via hw9 (sub hk)
  clear_value w11
  have hw12 : State.Via M S w12.s := by
    unfold w12
    exact Run.writeRows_via hw11 (sub hk)
  clear_value w12
  exact Run.write_via hw12 (sub hk)

theorem resampleBody_via {x : Ctx} {r : Rec} {w : Run} (hs : State.Via M S w.s)
    (hk : [.upsets, .mem, .poison, .wbQueue, .cnt, .file, .note, .err] ⊆ M) :
    State.Via M S (resampleBody x r w).s := by
  unfold resampleBody
  extract_lets t0 sw1 sh2 dw3 dh4 mode5
  clear_value t0 sw1 sh2 dw3 dh4 mode5
  split
  rename_i x6 rows7 w8 heq9
  have hw8 : State.Via M S w8.s := by
    exact via2s heq9 (Run.readRows_via hs (sub hk))
  extract_lets w10 a11 out12
  clear_value a11 out12
  have hw10 : State.Via M S w10.s := by
    unfold w10
    exact Run.settleReads_via hw8 (sub hk)
  clear_value w10
  exact Run.writeRows_via hw10 (sub hk)

theorem copyBody_via {x : Ctx} {r : Rec} {w : Run} (hs : State.Via M S w.s)
    (hk : [.upsets, .mem, .poison, .wbQueue, .cnt, .file, .note, .err] ⊆ M) : State.Via M S (copyBody x r w).s := by
  unfold copyBody
  extract_lets n0 u1 ss2
  clear_value n0 u1 ss2
  split
  rename_i x3 rows4 w5 heq6
  have hw5 : State.Via M S w5.s := by
    exact via2s heq6 (Run.readRows_via hs (sub hk))
  extract_lets w7 a8 out9
  clear_value a8 out9
  have hw7 : State.Via M S w7.s := by
    unfold w7
    exact Run.settleReads_via hw5 (sub hk)
  clear_value w7
  split
  · exact Run.writeRows_via hw7 (sub hk)
  · exact Run.writeRows_via hw7 (sub hk)

theorem Run.accumRows_via {w : Run} {x : Ctx} {ref : Ref} {kind : Nat} {units : Nat} {stride : Nat} {a : Nat}
    {a1 : List (List Byte)} (hs : State.Via M S w.s)
    (hk : [.upsets, .mem, .poison, .wbQueue, .cnt, .file, .note, .err] ⊆ M) :
    State.Via M S (Run.accumRows w x ref kind units stride a a1).s := by
  fun_induction Run.accumRows w x ref kind units stride a a1
  · rename_i w0 x1
    exact hs
  · rename_i w2 off3 b4 bs5 ih6
    exact ih6 (Run.accumRun_via hs (sub hk))

theorem accWriteRows_via {w : Run} {x : Ctx} {r : Rec} (hs : State.Via M S w.s)
    (hk : [.upsets, .poison, .wbQueue, .cnt, .note, .err] ⊆ M) : State.Via M S (accWriteRows w x r).2.s := by
  unfold accWriteRows
  extract_lets n0 u1 ref2 t3
  clear_value n0 u1 ref2 t3
  split
  · exact hs
  · exact Run.readRows_via hs (sub hk)

theorem accWriteBody_via {x : Ctx} {r : Rec} {w : Run} (hs : State.Via M S w.s)
    (hk : [.upsets, .mem, .poison, .wbQueue, .cnt, .file, .note, .err] ⊆ M) :
    State.Via M S (accWriteBody x r w).s := by
  unfold accWriteBody
  extract_lets u0
  clear_value u0
  split
  rename_i x1 rows2 w3 heq4
  have hw3 : State.Via M S w3.s := by
    exact via2s heq4 (accWriteRows_via hs (sub hk))
  extract_lets w5
  have hw5 : State.Via M S w5.s := by
    unfold w5
    exact Run.settleReads_via hw3 (sub hk)
  clear_value w5
  exact Run.accumRows_via hw5 (sub hk)

theorem execGather_via {f : Fin 16} {ms : List Meet} {s : State} (hs : State.Via M S s)
    (hk : [.freeCtr, .out, .upsets, .mem, .ring, .poison, .wbQueue, .cnt, .facets, .file, .note, .err] ⊆ M) :
    Keeps (State.Via M S) (execGather f ms s) := by
  unfold execGather
  exact keeps_next (State.runRecord_via hs (fun u0 u1 u2 hu3 => gatherBody_via hu3 (sub hk)) (sub hk))

theorem execScatter_via {f : Fin 16} {ms : List Meet} {s : State} (hs : State.Via M S s)
    (hk : [.freeCtr, .out, .upsets, .mem, .ring, .poison, .wbQueue, .cnt, .facets, .file, .note, .err] ⊆ M) :
    Keeps (State.Via M S) (execScatter f ms s) := by
  unfold execScatter
  exact keeps_next (State.runRecord_via hs (fun u0 u1 u2 hu3 => scatterBody_via hu3 (sub hk)) (sub hk))

theorem execCrop_via {f : Fin 16} {ms : List Meet} {s : State} (hs : State.Via M S s)
    (hk : [.freeCtr, .upsets, .mem, .poison, .wbQueue, .cnt, .facets, .file, .note, .err] ⊆ M) :
    Keeps (State.Via M S) (execCrop f ms s) := by
  unfold execCrop
  exact keeps_next (State.runRecord_via hs (fun u0 u1 u2 hu3 => cropBody_via hu3 (sub hk)) (sub hk))

theorem execResample_via {f : Fin 16} {ms : List Meet} {s : State} (hs : State.Via M S s)
    (hk : [.freeCtr, .upsets, .mem, .poison, .wbQueue, .cnt, .facets, .file, .note, .err] ⊆ M) :
    Keeps (State.Via M S) (execResample f ms s) := by
  unfold execResample
  exact keeps_next (State.runRecord_via hs (fun u0 u1 u2 hu3 => resampleBody_via hu3 (sub hk)) (sub hk))

theorem execCopy2d_via {f : Fin 16} {ms : List Meet} {s : State} (hs : State.Via M S s)
    (hk : [.freeCtr, .upsets, .mem, .poison, .wbQueue, .cnt, .facets, .file, .note, .err] ⊆ M) :
    Keeps (State.Via M S) (execCopy2d f ms s) := by
  unfold execCopy2d
  exact keeps_next (State.runRecord_via hs (fun u0 u1 u2 hu3 => copyBody_via hu3 (sub hk)) (sub hk))

theorem execAccWrite_via {f : Fin 16} {ms : List Meet} {s : State} (hs : State.Via M S s)
    (hk : [.freeCtr, .upsets, .mem, .poison, .wbQueue, .cnt, .facets, .file, .note, .err] ⊆ M) :
    Keeps (State.Via M S) (execAccWrite f ms s) := by
  unfold execAccWrite
  exact keeps_next (State.runRecord_via hs (fun u0 u1 u2 hu3 => accWriteBody_via hu3 (sub hk)) (sub hk))

end Sys2Proof.Machine
end

