-- ==== Sys2Proof/Laws/Stores.lean ====
section
/-! SUPPORT. Where the write operations of macro-ops store: each changes memory at the units of its destination
alone. `X` holds the addresses that may change, `S` is the state before the record. -/

set_option Elab.async false

namespace Sys2Proof.Machine

variable {X : Nat → Prop} {S : State} {w : Run} {x : Ctx} {ref : Ref}

/-- The 32 bytes of a destination unit may change. -/
def Covers (X : Nat → Prop) (a : Nat) : Prop := ∀ i, i < 32 → X (a + i)

/-- Told through an operation that writes neither host control nor memory but records. -/
theorem State.Told.via {s t : State} {K : List Change} (h : State.Told X S s) (v : State.Via K s t)
    (h1 : .host ∉ K := by decide) (h2 : .mem ∉ K := by decide) : State.Told X S t :=
  h.trans ((v.quietly h1 h2).mono fun _ p => p.elim)

theorem State.Book.via {s t : State} {K : List Change} (h : State.Book S s) (v : State.Via K s t)
    (h1 : .facets ∉ K := by decide) : State.Book S t := h.trans (v.book h1)

theorem State.Book.region {s : State} (h : State.Book S s) (g r : Fin 16) :
    { s.facets[g].regions[r] with overran := false } = { S.facets[g].regions[r] with overran := false } := by
  have e := congrArg Facet.regions (h g)
  simp only [Facet.shape] at e
  have := congrArg (fun v => v[r]) e
  simpa using this

theorem State.destAddr_book {s : State} (h : State.Book S s) (f : Fin 16) (ref : Ref) (o : Nat) :
    s.destAddr f ref o = S.destAddr f ref o := by
  have e := h.region (ref.facet f) (fin16 ref.region)
  simp only [RegionSt.mk.injEq] at e
  obtain ⟨_, e1, e2, _, _, _, e3, _, _, _, _, e4, _⟩ := e
  simp only [State.destAddr]
  rw [e1, e2, e3, e4]

theorem padUnits_length (bs : List Byte) : (padUnits bs).length = unitsOf bs.length * 32 := by
  simp only [padUnits, zeroBytes, List.length_append, List.length_replicate, unitsOf]
  omega

theorem Run.writeAt_stored {g : Fin 16} {u : Nat} {bs : List Byte} {bad : Bool} (h : State.Told X S w.s)
    (hx : Covers X (unitAddr g u)) : State.Told X S (w.writeAt x g u bs bad).s := by
  unfold Run.writeAt
  extract_lets a
  split
  · exact h.via (State.mark_via (.refl _ _) (List.Subset.refl _))
  · refine State.writeUnits_told h fun i hi => ?_
    rw [fitBytes_length] at hi
    exact hx i hi

theorem Run.writeCirc_stored {o : Nat} {bs : List Byte} {bad : Bool} (h : State.Told X S w.s)
    (hx : Covers X (w.s.destAddr x.f ref o)) (hc : ref.circ = true) :
    State.Told X S (w.writeCirc x (ref.facet x.f) (fin16 ref.region) (ref.unit + o) bs bad).s := by
  unfold Run.writeCirc
  extract_lets s1 s2
  split
  · have v : State.Via [.cnt, .file, .note, .err] w.s s2 := State.updFacet_file (State.facetError_via (State.count_via
      (State.updRegion_file (.refl _ _) (by decide) fun _ => rfl) (by decide)) (by decide)) (by decide) fun _ => rfl
    exact h.via v
  · apply Run.writeAt_stored h
    simp only [State.destAddr, hc, if_true] at hx
    exact hx

theorem Run.writeEach_stored {bad : Bool} {n off : Nat} {bs : List Byte} (h : State.Told X S w.s)
    (hb : State.Book S w.s) (hx : ∀ k, k < n → Covers X (S.destAddr x.f ref (off + k))) :
    State.Told X S (w.writeEach x ref bad n off bs).s := by
  induction n generalizing w off bs with
  | zero => exact h
  | succ n ih =>
    unfold Run.writeEach
    extract_lets g w1
    have h1 : State.Told X S w1.s ∧ State.Book S w1.s := by
      have h0 := hx 0 (Nat.succ_pos n)
      unfold w1
      split
      next hc =>
        refine ⟨Run.writeCirc_stored h ?_ hc, hb.via (Run.writeCirc_via (.refl _ _) (List.Subset.refl _))⟩
        rw [State.destAddr_book hb]
        exact h0
      next hc =>
        refine ⟨Run.writeAt_stored h ?_, hb.via (Run.writeAt_via (.refl _ _) (List.Subset.refl _))⟩
        simp only [State.destAddr, hc] at h0
        exact h0
    refine ih h1.1 h1.2 fun k hk => ?_
    rw [show off + 1 + k = off + (k + 1) by omega]
    exact hx (k + 1) (by omega)

theorem Run.writeBad_stored {off : Nat} {bs : List Byte} {bad : Bool} (h : State.Told X S w.s)
    (hb : State.Book S w.s) (hx : ∀ k, k < unitsOf bs.length → Covers X (S.destAddr x.f ref (off + k))) :
    State.Told X S (w.writeBad x ref off bs bad).s := by
  unfold Run.writeBad
  extract_lets bs' bad'
  have hl : bs'.length = unitsOf bs.length * 32 := padUnits_length bs
  split
  next hc =>
    refine State.writeUnits_told h fun i hi => ?_
    have hc' : ref.circ = false := by
      simp only [Bool.and_eq_true, Bool.not_eq_true'] at hc
      exact hc.1
    have := hx (i / 32) (by omega) (i % 32) (by omega)
    simp only [State.destAddr, hc'] at this
    unfold unitAddr at this ⊢
    convert this using 1
    simp only [Bool.false_eq_true, if_false]
    omega
  next =>
    refine Run.writeEach_stored h hb fun k hk => hx k ?_
    omega

theorem Run.write_stored {off : Nat} {bs : List Byte} (h : State.Told X S w.s) (hb : State.Book S w.s)
    (hx : ∀ k, k < unitsOf bs.length → Covers X (S.destAddr x.f ref (off + k))) :
    State.Told X S (w.write x ref off bs).s := Run.writeBad_stored h hb hx

/-- Rows at a stride, each of at most `width` units. -/
theorem Run.writeRows_stored {stride width off : Nat} {rows : List (List Byte)} (h : State.Told X S w.s)
    (hb : State.Book S w.s) (hl : ∀ r ∈ rows, unitsOf r.length ≤ width)
    (hx : ∀ i, i < rows.length → ∀ k, k < width → Covers X (S.destAddr x.f ref (off + (i * stride + k)))) :
    State.Told X S (w.writeRows x ref stride off rows).s := by
  induction rows generalizing w off with
  | nil => exact h
  | cons r rs ih =>
    unfold Run.writeRows
    refine ih (Run.write_stored h hb fun k hk => ?_) (hb.via (Run.write_via (.refl _ _) (List.Subset.refl _)))
      (fun q hq => hl q (List.mem_cons_of_mem _ hq)) fun i hi k hk => ?_
    · have := hx 0 (by simp) k (Nat.lt_of_lt_of_le hk (hl r List.mem_cons_self))
      rwa [show off + (0 * stride + k) = off + k by omega] at this
    · have := hx (i + 1) (by simp only [List.length_cons]; omega) k hk
      rwa [show off + ((i + 1) * stride + k) = off + stride + (i * stride + k) by
        rw [Nat.add_mul]; omega] at this

theorem leBytes_flat (n : Nat) (l : List Nat) : (l.flatMap (leBytes n)).length = n * l.length := by
  induction l with
  | nil => simp
  | cons a l ih =>
    rw [List.flatMap_cons, List.length_append, ih, leBytes_length, List.length_cons, Nat.mul_add]
    omega

theorem packSub_go_length (k w : Nat) (hk : 0 < k) (vs : List Nat) (left pos b : Nat) (hp : pos ≠ 0) (hl : left < k) :
    (packSub.go k w vs left pos b).length = 1 + ceilDiv (vs.length - left) k := by
  induction vs generalizing left pos b with
  | nil =>
    cases pos with
    | zero => exact absurd rfl hp
    | succ p => simp [packSub.go, ceilDiv, Nat.div_eq_of_lt (show k - 1 < k by omega)]
  | cons v vs ih =>
    unfold packSub.go
    cases left with
    | zero =>
      simp only
      rw [List.length_cons, ih _ _ _ (by omega) (by omega), List.length_cons]
      have e : ceilDiv (vs.length + 1 - 0) k = 1 + ceilDiv (vs.length - (k - 1)) k := by
        unfold ceilDiv
        by_cases hv : k - 1 ≤ vs.length
        · rw [show vs.length + 1 - 0 + k - 1 = (vs.length - (k - 1) + k - 1) + k by omega, Nat.add_div_right _ hk]
          omega
        · rw [show vs.length - (k - 1) = 0 by omega, Nat.zero_add, Nat.div_eq_of_lt (show k - 1 < k by omega),
            show vs.length + 1 - 0 + k - 1 = vs.length + k by omega, Nat.add_div_right _ hk,
            Nat.div_eq_of_lt (by omega)]
      rw [e, Nat.add_comm]
    | succ l =>
      simp only
      rw [ih _ _ _ (by omega) (by omega), List.length_cons]
      congr 2
      omega

theorem packSub_length (k w : Nat) (hk : 0 < k) (vs : List Nat) : (packSub k w vs).length = ceilDiv vs.length k := by
  cases vs with
  | nil => simp [packSub, ceilDiv, Nat.div_eq_of_lt (show k - 1 < k by omega)]
  | cons v vs =>
    obtain ⟨k, rfl⟩ : ∃ j, k = j + 1 := ⟨k - 1, by omega⟩
    unfold packSub packSub.go
    simp only
    rw [packSub_go_length _ _ hk _ _ _ _ (by omega) (by omega), List.length_cons]
    unfold ceilDiv
    by_cases hv : k ≤ vs.length
    · rw [show vs.length + 1 + (k + 1) - 1 = (vs.length - k + (k + 1) - 1) + (k + 1) by omega,
        Nat.add_div_right _ hk]
      omega
    · rw [show vs.length - k = 0 by omega, show vs.length + 1 + (k + 1) - 1 = vs.length + (k + 1) by omega,
        Nat.add_div_right _ hk, Nat.div_eq_of_lt (show vs.length < k + 1 by omega),
        Nat.div_eq_of_lt (show 0 + (k + 1) - 1 < k + 1 by omega)]

/-- The bytes of packed elements (03 R73). -/
theorem packElts_length (t : Elt) (vs : List Nat) : (packElts t vs).length = ceilDiv (vs.length * t.bits) 8 := by
  cases t <;> simp only [packElts, Elt.bits, leBytes_flat] <;>
    first
    | (rw [packSub_length _ _ (by omega)]; unfold ceilDiv; omega)
    | (unfold ceilDiv; omega)

/-- The units of packed elements. -/
theorem packElts_units (t : Elt) (vs : List Nat) :
    unitsOf (packElts t vs).length = ceilDiv (vs.length * t.bits) 256 := by
  rw [packElts_length]
  unfold unitsOf ceilDiv
  omega

theorem unpackElts_length (t : Elt) (n : Nat) (bs : List Byte) : (unpackElts t n bs).length = n := by
  simp only [unpackElts, List.length_map, List.length_range]

theorem Run.accumUnit_stored {kind off : Nat} {bs : List Byte} (h : State.Told X S w.s) (hb : State.Book S w.s)
    (hl : unitsOf bs.length ≤ 1) (hx : Covers X (S.destAddr x.f ref off)) :
    State.Told X S (w.accumUnit x ref kind off bs).s := by
  have h0 : ∀ k, k < 1 → Covers X (S.destAddr x.f ref (off + k)) := fun k hk => by
    rw [show off + k = off by omega]
    exact hx
  unfold Run.accumUnit
  split
  · exact Run.write_stored h hb fun k hk => h0 k (Nat.lt_of_lt_of_le hk hl)
  · have v1 := Run.readDst_via (w := { w with bad := false }) (x := x) (ref := ref) (off := off) (.refl _ _)
      (List.Subset.refl _)
    rcases hq : ({ w with bad := false } : Run).readDst x ref off with ⟨old, w1⟩
    rw [hq] at v1
    have h1 : State.Told X S w1.s := h.via v1
    have b1 : State.Book S w1.s := hb.via v1
    dsimp only
    have h2 : State.Told X S (if w1.bad = true then w1.settleReads x else w1).s ∧
        State.Book S (if w1.bad = true then w1.settleReads x else w1).s := by
      split
      · have v2 := Run.settleReads_via (w := w1) (x := x) (.refl _ _) (List.Subset.refl _)
        exact ⟨h1.via v2, b1.via v2⟩
      · exact ⟨h1, b1⟩
    refine Run.write_stored h2.1 h2.2 fun k hk => h0 k ?_
    rw [packElts_units, List.length_zipWith, unpackElts_length, unpackElts_length, Nat.min_self] at hk
    have e : 256 / (accumElt kind).bits * (accumElt kind).bits = 256 := by
      unfold accumElt
      split
      · rfl
      · split <;> rfl
    rw [e] at hk
    have : ceilDiv 256 256 = 1 := rfl
    omega

theorem Run.accumRun_stored {kind n off : Nat} {bs : List Byte} (h : State.Told X S w.s) (hb : State.Book S w.s)
    (hx : ∀ k, k < n → Covers X (S.destAddr x.f ref (off + k))) :
    State.Told X S (w.accumRun x ref kind n off bs).s := by
  induction n generalizing w off bs with
  | zero => exact h
  | succ n ih =>
    unfold Run.accumRun
    have hl : unitsOf (bs.take 32).length ≤ 1 := by
      have := List.length_take_le 32 bs
      unfold unitsOf
      omega
    refine ih (Run.accumUnit_stored h hb hl (hx 0 (Nat.succ_pos n)))
      (hb.via (Run.accumUnit_via (.refl _ _) (List.Subset.refl _))) fun k hk => ?_
    rw [show off + 1 + k = off + (k + 1) by omega]
    exact hx (k + 1) (by omega)

theorem Run.accumRows_stored {kind units stride off : Nat} {rows : List (List Byte)} (h : State.Told X S w.s)
    (hb : State.Book S w.s)
    (hx : ∀ i, i < rows.length → ∀ k, k < units → Covers X (S.destAddr x.f ref (off + (i * stride + k)))) :
    State.Told X S (w.accumRows x ref kind units stride off rows).s := by
  induction rows generalizing w off with
  | nil => exact h
  | cons r rs ih =>
    unfold Run.accumRows
    refine ih (Run.accumRun_stored h hb fun k hk => ?_) (hb.via (Run.accumRun_via (.refl _ _) (List.Subset.refl _))) fun i hi k hk => ?_
    · have := hx 0 (by simp) k hk
      rwa [show off + (0 * stride + k) = off + k by omega] at this
    · have := hx (i + 1) (by simp only [List.length_cons]; omega) k hk
      rwa [show off + ((i + 1) * stride + k) = off + stride + (i * stride + k) by
        rw [Nat.add_mul]; omega] at this

/-- Scattered rows lie in the table. -/
theorem scatterWrite_stored {units tableRows : Nat} {accum : Option Nat} {rows : List (Nat × List Byte)}
    (h : State.Told X S w.s) (hb : State.Book S w.s) (hl : ∀ p ∈ rows, unitsOf p.2.length ≤ units)
    (hx : ∀ k, k < tableRows * units → Covers X (S.destAddr x.f ref k)) :
    State.Told X S (scatterWrite w x ref units tableRows accum rows).s := by
  induction rows generalizing w with
  | nil => exact h
  | cons p rs ih =>
    obtain ⟨i, b⟩ := p
    have hl' : ∀ p ∈ rs, unitsOf p.2.length ≤ units := fun q hq => hl q (List.mem_cons_of_mem _ hq)
    have hc : i < tableRows → ∀ k, k < units → Covers X (S.destAddr x.f ref (i * units + k)) := fun hi k hk =>
      hx _ (by
        have : (i + 1) * units ≤ tableRows * units := Nat.mul_le_mul_right _ hi
        rw [Nat.add_mul] at this
        omega)
    rw [scatterWrite.eq_def]
    dsimp only
    split
    next hi =>
      split
      · exact ih (Run.accumRun_stored h hb (hc hi)) (hb.via (Run.accumRun_via (.refl _ _) (List.Subset.refl _))) hl'
      · refine ih (Run.write_stored h hb fun k hk => hc hi k (Nat.lt_of_lt_of_le hk ?_)) (hb.via (Run.write_via (.refl _ _) (List.Subset.refl _))) hl'
        exact hl _ List.mem_cons_self
    next =>
      apply ih _ _ hl'
      · dsimp only
        exact h.via (State.updFacet_file (.refl _ _) (List.Subset.refl _) fun _ => rfl)
      · dsimp only
        exact State.updFacet_book hb fun _ => rfl

/-- Gathered rows stand one after another. -/
theorem gatherWrite_stored {units off : Nat} {rows : List (Option (List Byte))} (h : State.Told X S w.s)
    (hb : State.Book S w.s) (hl : ∀ p ∈ rows, ∀ b, p = some b → unitsOf b.length ≤ units)
    (hx : ∀ k, k < rows.length * units → Covers X (S.destAddr x.f ref (off + k))) :
    State.Told X S (gatherWrite w x ref units rows off).s := by
  induction rows generalizing w off with
  | nil => exact h
  | cons p rs ih =>
    have hl' : ∀ p ∈ rs, ∀ b, p = some b → unitsOf b.length ≤ units :=
      fun q hq => hl q (List.mem_cons_of_mem _ hq)
    have h0 : ∀ k, k < units → Covers X (S.destAddr x.f ref (off + k)) := fun k hk => hx k (by
      rw [List.length_cons, Nat.add_mul]; omega)
    have h1 : ∀ k, k < rs.length * units → Covers X (S.destAddr x.f ref (off + units + k)) := fun k hk => by
      have := hx (units + k) (by rw [List.length_cons, Nat.add_mul]; omega)
      rwa [← Nat.add_assoc] at this
    cases p with
    | some b =>
      exact ih (Run.write_stored h hb fun k hk => h0 k (Nat.lt_of_lt_of_le hk (hl _ List.mem_cons_self b rfl)))
        (hb.via (Run.write_via (.refl _ _) (List.Subset.refl _))) hl' h1
    | none =>
      rw [gatherWrite]
      refine ih ?_ ?_ hl' h1
      · dsimp only
        refine State.Told.via (Run.writeBad_stored h hb fun k hk => h0 k ?_)
          (State.updFacet_file (.refl _ _) (List.Subset.refl _) fun _ => rfl)
        simp only [zeroBytes, List.length_replicate, unitsOf] at hk
        omega
      · dsimp only
        exact State.updFacet_book (hb.via (Run.writeBad_via (.refl _ _) (List.Subset.refl _))) fun _ => rfl

/-! ### Destinations of a record -/

variable {s : State} {r : Rec}

/-- A unit of a destination is a place that the record may store at. -/
theorem covers_of {f : Fin 16} {r : Rec} {st : Store} (h : st ∈ r.stores) {i j : Nat} (hi : i < st.rows) (hj : j < st.width) :
    Covers (s.storedBy f r) (s.destAddr f (Ref.ofWord st.word) (i * st.stride + j)) := fun k hk =>
  ⟨st, h, i, hi, j, hj, by omega, by omega⟩

/-- One run of bytes. -/
theorem write_one {f : Fin 16} {word units : Nat} {bs : List Byte} (h : State.Told (S.storedBy f r) S w.s) (hb : State.Book S w.s)
    (hf : x.f = f) (hs : (⟨word, 1, units, 0⟩ : Store) ∈ r.stores) (hl : unitsOf bs.length ≤ units) :
    State.Told (S.storedBy f r) S (w.write x (Ref.ofWord word) 0 bs).s := by
  refine Run.write_stored h hb fun k hk => ?_
  have := covers_of (s := S) (f := f) hs (i := 0) (j := k) (by show 0 < 1; omega) (by show k < units; omega)
  rw [hf]
  simpa using this

/-- Rows at a stride. -/
theorem write_rows {f : Fin 16} {word n width stride : Nat} {rows : List (List Byte)}
    (h : State.Told (S.storedBy f r) S w.s) (hb : State.Book S w.s)
    (hf : x.f = f) (hs : (⟨word, n, width, stride⟩ : Store) ∈ r.stores) (hn : rows.length ≤ n)
    (hl : ∀ r ∈ rows, unitsOf r.length ≤ width) :
    State.Told (S.storedBy f r) S (w.writeRows x (Ref.ofWord word) stride 0 rows).s := by
  refine Run.writeRows_stored h hb hl fun i hi k hk => ?_
  have := covers_of (s := S) (f := f) hs (i := i) (j := k) (by show i < n; omega) (by show k < width; omega)
  rw [hf]
  simpa using this

/-- As many rows are read as asked for. -/
theorem readRows_length {w : Run} {x : Ctx} {ref : Ref} {stride n m off : Nat} : (w.readRows x ref stride n m off).1.length = m := by
  induction m generalizing w off with
  | zero => rfl
  | succ m ih =>
    unfold Run.readRows
    rcases w.read x ref off n with ⟨b, w1⟩
    dsimp only
    have := ih (w := w1) (off := off + stride)
    rcases hq : w1.readRows x ref stride n m (off + stride) with ⟨bs, w2⟩
    rw [hq] at this
    simpa using this

end Sys2Proof.Machine
end

