-- ==== Sys2Proof/Laws/ViaEdge.lean ====
section
/-! SUPPORT. What each operation of the tick edge can change (Via.lean), one lemma an operation. -/

set_option Elab.async false

namespace Sys2Proof.Machine

variable {M : List Change} {S : State}

/-! ### Edge -/

theorem State.overrunFacet_via {s : State} {f : Fin 16} (hs : State.Via M S s)
    (hk : [.freeCtr, .out, .upsets, .mem, .ring, .poison, .wbQueue, .cnt, .facets, .file, .ap, .hbm, .img, .wav, .net,
      .beam, .note, .jnl, .err, .ready] ⊆ M) :
    State.Via M S (State.overrunFacet s f) := by
  unfold State.overrunFacet
  extract_lets x0 late1 sec2 s3 s4 s5 s6
  clear_value x0 late1 sec2
  have hs3 : State.Via M S s3 := by
    unfold s3
    exact State.updFacet_via hs (sub hk)
  clear_value s3
  have hs4 : State.Via M S s4 := by
    unfold s4
    exact State.errorRec_via (State.count_via hs3 (sub hk)) (sub hk)
  clear_value s4
  have hs5 : State.Via M S s5 := by
    unfold s5
    exact State.fault_via hs4 (sub hk)
  clear_value s5
  have hs6 : State.Via M S s6 := by
    unfold s6
    split
    · exact hs5
    · exact State.journalDev_via (State.openJournal_via hs5 (sub hk)) (sub hk)
  clear_value s6
  split
  · exact hs
  · exact State.releaseEmits_via (State.publishAll_via hs6 (sub hk)) (sub hk)

theorem State.countTick_via {s : State} (hs : State.Via M S s) (hk : [.facets, .sched] ⊆ M) :
    State.Via M S (State.countTick s) := by
  unfold State.countTick
  split
  · exact hs
  · extract_lets fs0 bad1 main2 s3
    clear_value fs0 bad1 main2
    have hs3 : State.Via M S s3 := by
      unfold s3
      exact foldl_via hs (fun u4 u5 hu6 => State.updFacet_via hu6 (sub hk))
    clear_value s3
    exact State.updSched_via hs3 (sub hk)

theorem State.snapEdge_via {s : State} (hs : State.Via M S s)
    (hk : [.out, .ring, .cnt, .hbm, .img, .host, .note, .err] ⊆ M) : State.Via M S (State.snapEdge s) := by
  unfold State.snapEdge
  split
  · split
    · exact State.takeSnapshot_via hs (sub hk)
    · exact hs
  · exact hs

theorem State.stopChan_via {s : State} {e : Fin 5} {c : Fin 8} (hs : State.Via M S s)
    (hk : [.freeCtr, .out, .upsets, .mem, .ring, .poison, .wbQueue, .cnt, .facets, .sched, .hbm, .dma, .tmplStatus,
    .exp, .cnd, .note] ⊆ M) :
    State.Via M S (State.stopChan s e c) := by
  unfold State.stopChan
  split
  · exact hs
  · split
    · exact State.abortDrained_via (State.toAbort_via (State.updChan_via hs (sub hk)) (sub hk)) (sub hk)
    · exact State.updChan_via hs (sub hk)
    · exact hs
    · exact hs
    · exact hs
    · exact State.updChan_via hs (sub hk)

theorem State.stopObjective_via {s : State} (hs : State.Via M S s) (hk : [.img] ⊆ M) :
    State.Via M S (State.stopObjective s) := by
  unfold State.stopObjective
  split
  · exact State.updImg_via hs (sub hk)
  · split
    · exact State.updImg_via hs (sub hk)
    · exact State.updImg_via hs (sub hk)

theorem State.autoLevel_via {s : State} (hs : State.Via M S s) (hk : [.out, .ring, .cnt, .note, .pwr] ⊆ M) :
    State.Via M S (State.autoLevel s) := by
  unfold State.autoLevel
  split
  · exact State.retarget_via hs (sub hk)
  · exact hs

theorem State.stopRunning_via {s : State} (hs : State.Via M S s)
    (hk : [.freeCtr, .out, .upsets, .mem, .ring, .poison, .wbQueue, .cnt, .facets, .sched, .hbm, .dma, .tmplStatus,
    .exp, .cnd, .img, .wav, .note, .err, .pwr] ⊆ M) :
    State.Via M S (State.stopRunning s) := by
  unfold State.stopRunning
  extract_lets s0 s1 s2
  have hs0 : State.Via M S s0 := by
    unfold s0
    exact hs.upd (State.via_facets rfl) (sub hk)
  clear_value s0
  have hs1 : State.Via M S s1 := by
    unfold s1
    exact State.updSched_via hs0 (sub hk)
  clear_value s1
  have hs2 : State.Via M S s2 := by
    unfold s2
    exact foldl_via hs1 (fun u3 u4 hu5 => State.stopChan_via hu5 (sub hk))
  clear_value s2
  exact State.autoLevel_via (State.stopConverters_via (State.stopObjective_via hs2 (sub hk)) (sub hk)) (sub hk)

theorem State.discardActive_via {s : State} {im : Image} {kept : List Partition} (hs : State.Via M S s)
    (hk : [.out, .ring, .cnt, .facets, .sched, .hbm, .tmplStatus, .net, .beam, .note] ⊆ M) :
    State.Via M S (State.discardActive s im kept) := by
  unfold State.discardActive
  extract_lets s0 s1
  have hs0 : State.Via M S s0 := by
    unfold s0
    exact State.autoCloseFor_via hs (sub hk)
  clear_value s0
  have hs1 : State.Via M S s1 := by
    unfold s1
    exact hs0.upd (State.via_tmplStatus rfl) (sub hk)
  clear_value s1
  exact State.updSched_via hs1 (sub hk)

theorem State.stopEdge_via {s : State} (hs : State.Via M S s)
    (hk : [.freeCtr, .out, .upsets, .mem, .ring, .poison, .wbQueue, .cnt, .facets, .sched, .hbm, .dma, .tmplStatus,
    .exp, .cnd, .img, .wav, .net, .beam, .note, .err, .pwr] ⊆ M) :
    State.Via M S (State.stopEdge s) := by
  unfold State.stopEdge
  split
  · exact hs
  · split
    · exact State.updSched_via hs (sub hk)
    · split
      · exact hs
      · extract_lets s0 s1
        have hs0 : State.Via M S s0 := by
          unfold s0
          split
          · exact State.stopRunning_via hs (sub hk)
          · exact hs
        clear_value s0
        have hs1 : State.Via M S s1 := by
          unfold s1
          exact State.updSched_via hs0 (sub hk)
        clear_value s1
        split
        · exact State.discardActive_via hs1 (sub hk)
        · exact hs1

theorem State.markStart_via {s : State} {im : Image} {kept : List Partition} (hs : State.Via M S s)
    (hk : [.hbm] ⊆ M) : State.Via M S (State.markStart s im kept) := by
  unfold State.markStart
  extract_lets hist0 keeps1 ms2 s3
  clear_value hist0 keeps1 ms2
  have hs3 : State.Via M S s3 := by
    unfold s3
    exact State.updHbm_via hs (sub hk) (fun _ => rfl)
  clear_value s3
  apply foldl_via
  · exact hs3
  · intro u4 u5 hu6
    beta_reduce
    split
    · exact hu6
    · split
      · exact State.setMark_via hu6 (sub hk)
      · exact hu6

theorem State.frameCut_via {s : State} (hs : State.Via M S s)
    (hk : [.freeCtr, .out, .upsets, .mem, .ring, .poison, .wbQueue, .cnt, .facets, .img, .note, .err] ⊆ M) :
    State.Via M S (State.frameCut s) := by
  unfold State.frameCut
  split
  · exact State.endFrame_via hs (sub hk)
  · exact hs

theorem State.objectiveAt_via {s : State} {c : Option ObjCfg} (hs : State.Via M S s)
    (hk : [.freeCtr, .out, .upsets, .mem, .ring, .poison, .wbQueue, .cnt, .facets, .img, .note, .err] ⊆ M) :
    State.Via M S (State.objectiveAt s c) := by
  unfold State.objectiveAt
  extract_lets s0
  have hs0 : State.Via M S s0 := by
    unfold s0
    exact State.objectiveStart_via (State.frameCut_via hs (sub hk)) (sub hk)
  clear_value s0
  split
  · exact hs0
  · exact hs0
  · exact State.updImg_via hs0 (sub hk)

theorem State.startNow_via {s : State} {staged : Bool} {im : Image} (hs : State.Via M S s)
    (hk : [.freeCtr, .out, .upsets, .mem, .ring, .poison, .wbQueue, .cnt, .facets, .sched, .hbm, .tmplStatus, .img,
      .wav, .net, .beam, .note, .err, .pwr] ⊆ M) :
    State.Via M S (State.startNow s staged im) := by
  unfold State.startNow
  extract_lets old0 kept1 s2 s3 s4 s5 s6 s7 s8 s9
  clear_value old0 kept1
  have hs2 : State.Via M S s2 := by
    unfold s2
    split
    · rename_i staged10 old11 o12
      exact State.autoCloseFor_via hs (sub hk)
    · exact hs
  clear_value s2
  have hs3 : State.Via M S s3 := by
    unfold s3
    split
    · exact hs2.upd (State.via_tmplStatus rfl) (sub hk)
    · exact hs2
  clear_value s3
  have hs4 : State.Via M S s4 := by
    unfold s4
    exact State.markStart_via hs3 (sub hk)
  clear_value s4
  have hs5 : State.Via M S s5 := by
    unfold s5
    exact hs4.upd (State.via_facets rfl) (sub hk)
  clear_value s5
  have hs6 : State.Via M S s6 := by
    unfold s6
    exact State.stopConverters_via hs5 (sub hk)
  clear_value s6
  have hs7 : State.Via M S s7 := by
    unfold s7
    exact State.updSched_via hs6 (sub hk)
  clear_value s7
  have hs8 : State.Via M S s8 := by
    unfold s8
    exact State.objectiveAt_via (State.loadRegions_via hs7 (sub hk)) (sub hk)
  clear_value s8
  have hs9 : State.Via M S s9 := by
    unfold s9
    split
    · exact State.startConverters_via hs8 (sub hk)
    · exact hs8
  clear_value s9
  exact State.autoLevel_via hs9 (sub hk)

theorem State.startEdge_via {s : State} (hs : State.Via M S s)
    (hk : [.freeCtr, .out, .upsets, .mem, .ring, .poison, .wbQueue, .cnt, .facets, .sched, .hbm, .tmplStatus, .img,
      .wav, .net, .beam, .note, .err, .pwr] ⊆ M) :
    State.Via M S (State.startEdge s) := by
  unfold State.startEdge
  split
  · split
    · split
      · exact State.startNow_via hs (sub hk)
      · exact hs
    · exact hs
  · exact hs

theorem State.modeEdge_via {s : State} (hs : State.Via M S s) (hk : [.cnt, .facets, .sched] ⊆ M) :
    State.Via M S (State.modeEdge s) := by
  unfold State.modeEdge
  split
  · exact hs
  · split
    · split
      · exact hs
      · split
        · exact foldl_via (State.updSched_via hs (sub hk)) (fun u0 u1 hu2 => State.emptyRegions_via hu2 (sub hk))
        · exact State.updSched_via hs (sub hk)
    · exact State.updSched_via hs (sub hk)

theorem State.slotFacet_via {s : State} {im : Image} {f : Fin 16} (hs : State.Via M S s) (hk : [.facets] ⊆ M) :
    State.Via M S (State.slotFacet s im f) := by
  unfold State.slotFacet
  extract_lets slot0 p1 main2 runs3
  clear_value slot0 p1 main2 runs3
  exact State.updFacet_via hs (sub hk)

theorem State.slotEdge_via {s : State} (hs : State.Via M S s) (hk : [.facets] ⊆ M) :
    State.Via M S (State.slotEdge s) := by
  unfold State.slotEdge
  split
  · exact foldl_via hs (fun u0 u1 hu2 => State.slotFacet_via hu2 (sub hk))
  · exact hs

theorem State.armSlot_via {s : State} {i : Nat} {t : Tmpl} (hs : State.Via M S s) (hk : [.cnt, .dma, .note] ⊆ M) :
    State.Via M S (State.armSlot s i t) := by
  unfold State.armSlot
  extract_lets e0 c1
  clear_value e0 c1
  split
  · exact hs
  · split
    · exact State.armChan_via hs (sub hk)
    · exact State.armChan_via hs (sub hk)
    · exact State.tickFault_via (State.count_via hs (sub hk)) (sub hk)

theorem State.armEdge_via {s : State} (hs : State.Via M S s) (hk : [.cnt, .dma, .note] ⊆ M) :
    State.Via M S (State.armEdge s) := by
  unfold State.armEdge
  split
  · split
    · apply foldl_via
      · exact hs
      · intro u0 u1 hu2
        beta_reduce
        split
        · split
          · exact State.armSlot_via hu2 (sub hk)
          · exact hu2
        · exact hu2
    · exact hs
  · exact hs

theorem State.waitEdge_via {s : State} (hs : State.Via M S s) (hk : [.dma] ⊆ M) :
    State.Via M S (State.waitEdge s) := by
  unfold State.waitEdge
  exact hs.upd (State.via_dma rfl) (sub hk)

theorem State.apertureEdge_via {s : State} (hs : State.Via M S s) (hk : [.ap] ⊆ M) :
    State.Via M S (State.apertureEdge s) := by
  unfold State.apertureEdge
  exact hs.upd (State.via_ap rfl) (sub hk)

theorem State.rateEdge_via {s : State} (hs : State.Via M S s) (hk : [.hbm] ⊆ M) :
    State.Via M S (State.rateEdge s) := by
  unfold State.rateEdge
  extract_lets cap0 r1
  clear_value cap0 r1
  exact State.updHbm_via hs (sub hk) (fun _ => rfl)

theorem State.endTick_via {s : State} (hs : State.Via M S s)
    (hk : [.freeCtr, .out, .upsets, .mem, .ring, .poison, .wbQueue, .cnt, .facets, .file, .sched, .ap, .hbm, .img,
      .wav, .net, .beam, .note, .jnl, .err, .ready] ⊆ M) :
    State.Via M S (State.endTick s) := by
  unfold State.endTick
  extract_lets s0
  have hs0 : State.Via M S s0 := by
    unfold s0
    exact foldl_via hs (fun u1 u2 hu3 => State.overrunFacet_via hu3 (sub hk))
  clear_value s0
  exact State.updErr_via (State.flushFaults_via (State.countTick_via hs0 (sub hk)) (sub hk)) (sub hk) (fun _ => rfl)

theorem State.newTick_via {s : State} {pixel : Int} {rows : List RawRow} (hs : State.Via M S s)
    (hk : [.freeCtr, .out, .upsets, .mem, .ring, .poison, .wbQueue, .cnt, .tk, .facets, .sched, .ap, .hbm, .dma,
    .tmplStatus, .exp, .cnd, .img, .wav, .net, .beam, .host, .note, .jnl, .err, .pwr, .fuse, .trust, .idle, .ready] ⊆
    M) :
    State.Via M S (State.newTick s pixel rows) := by
  unfold State.newTick
  extract_lets s0 s1 s2 s3
  have hs0 : State.Via M S s0 := by
    unfold s0
    exact State.startEdge_via (State.stopEdge_via (State.globalAt_via (State.snapEdge_via hs (sub hk)) (sub hk)) (sub
      hk)) (sub hk)
  clear_value s0
  have hs1 : State.Via M S s1 := by
    unfold s1
    exact State.rejoinAt_via (State.levelEdge_via (State.shedEdge_via hs0 (sub hk)) (sub hk)) (sub hk)
  clear_value s1
  have hs2 : State.Via M S s2 := by
    unfold s2
    exact State.waitEdge_via (State.armEdge_via (State.slotEdge_via (State.modeEdge_via (State.apertureEdge_via
      (State.fixActivation_via hs1 (sub hk)) (sub hk)) (sub hk)) (sub hk)) (sub hk)) (sub hk)
  clear_value s2
  have hs3 : State.Via M S s3 := by
    unfold s3
    exact State.rateEdge_via (State.frameEdge_via hs2 (sub hk)) (sub hk)
  clear_value s3
  exact State.syncGates_via (State.noteIdle_via (State.applyStep_via (State.settle_via (State.deferStart_via hs3 (sub
    hk)) (sub hk)) (sub hk)) (sub hk)) (sub hk)

theorem execTickEdge_via {pixel : Int} {rows : List RawRow} {s : State} (hs : State.Via M S s)
    (hk : [.freeCtr, .out, .upsets, .mem, .ring, .poison, .wbQueue, .cnt, .tk, .facets, .file, .sched, .ap, .hbm,
    .dma, .tmplStatus, .exp, .cnd, .img, .wav, .net, .beam, .host, .note, .jnl, .err, .pwr, .fuse, .trust, .idle,
    .ready] ⊆ M) :
    Keeps (State.Via M S) (execTickEdge pixel rows s) := by
  unfold execTickEdge
  split
  · exact keeps_next hs
  · extract_lets n0 s1 src2 s3
    clear_value n0
    have hs1 : State.Via M S s1 := by
      unfold s1
      exact State.endTick_via (State.setTime_via hs (sub hk)) (sub hk)
    clear_value s1
    have hs3 : State.Via M S s3 := by
      unfold s3
      exact hs1.upd (State.via_tk rfl) (sub hk)
    clear_value s3
    apply keeps_next
    split
    · exact State.activateNow_via hs3 (sub hk)
    · exact State.newTick_via hs3 (sub hk)

end Sys2Proof.Machine
end

