-- ==== Sys2Proof/Tests/Slice0.lean ====
section
/-! SUPPORT. Small tests of single commands, ill-formed terms, and for each statement a state and operands that
meet its hypotheses. -/

set_option Elab.async false

namespace Sys2Proof.Tests

open Sys2Proof.Machine

/-! ### States -/

/-- A running device in lifecycle state 2 that PCIe owns: every function ready, a command ring of 16 slots and an event
ring of 64 in host memory. -/
def rig : State := { State.reset with
  ready := 0x7FFFF
  tk := { TimeSt.reset with now := 5000000, tick := 3, k := 3, edge := 5000000 }
  hbm := { Hbm.reset with phase := .ready, credited := 5000000 }
  img := { Img.reset with mode := .standby }
  host := { HostCtl.reset with
    owner := .pcie, pcieUp := true, cmdBaseHi := 0x8000, cmdSize := 16, evtBaseLo := 0x1000, evtBaseHi := 0x8000
    evtSize := 64, expSeq := some 7 }
  pwr := { Power.reset with
    phase := .running, pscUp := true, enCore := true, enMain := true, pgoodCore := true, pgoodMain := true
    mainSeen := true, refStable := true, pll := Vector.replicate 9 .good, gates := BitVec.allOnes 36 }
  fuse := { FuseSt.reset with valid := true, shadow := [(0, 3)] }
  trust := { Trust.reset with boot := .running } }

/-- `rig` with another power state. -/
def pw (f : Power → Power) : State := { rig with pwr := f rig.pwr }

/-- `rig` owned through the local bus. -/
def rigL : State := { rig with host := { rig.host with owner := .localbus } }

/-! ### Witnesses: the queue, reset, registers -/

/-- A cycle within TIME's range, in an idle device and one that is not, and one past its end. -/
theorem wit_EmptyQueueIdles : rig.pending = [] ∧ rig.idle = true ∧ rig.tk.now ≤ rig.tk.now + 4 ∧
    ({ rig with pwr := { rig.pwr with shed := 1 } } : State).idle = false ∧ (2 ^ 64 - 1 + 4) % 2 ^ 64 < 2 ^ 64 - 1 := by
  decide

theorem wit_StepKeepsInvariant : rig.Inv ∧ (match step rig with | .next _ => True | _ => False) :=
  ⟨by constructor <;> decide, by trivial⟩

theorem wit_NonOwnerWriteIgnored :
    rigL.pathOpen .pcie = true ∧ rigL.host.owner ≠ pathOwner .pcie ∧ (5 : Fin 1024).val < 0x30 ∧
    (5 : Fin 1024).val ≠ 4 ∧ (3 : BitVec 4) ≠ 15 ∧ 0x30 ≤ (0x30 : Fin 1024).val ∧ (0x30 : Fin 1024).val < 0x200 ∧
    0x240 ≤ (0x240 : Fin 1024).val ∧
    ({ rig with ready := 0 } : State).pathOpen .pcie = false := by decide

/-- A record. -/
def rec1 : EventRec := ⟨1, srcHost, 5, 4000000, 2, 0, 0, []⟩

/-- `rig` with its event ring full: two records held, the oldest released one's slot is still to be passed. -/
def fullRing : State := { rig with host := { rig.host with evtPut := 63, held := [rec1, rec1] } }

/-- The owner's writes: indexes below and at the ring's size; held records that an EVT_GET of 5 makes room for. -/
theorem wit_RingRegistersWritten : rig.pathOpen .pcie = true ∧ rig.host.owner = pathOwner .pcie ∧
    (rig.written .pcie 0x0E 5).1.toNat % 65536 < rig.evtRingSize ∧ rig.host.held = [] ∧
    rig.evtRingSize ≤ (rig.written .pcie 0x0E 64).1.toNat % 65536 ∧
    (let s : State := { fullRing with host := { fullRing.host with held := [rec1] } }
     s.evtRoom = false ∧ ({ s with host := { s.host with evtGet := 5 } } : State).evtRoom = true ∧
      s.host.lostBefore = false ∧ rangeAll ringWrites (s.evtSlot s.host.evtPut) 64 = true ∧ Memory.wf s.mem = true) := by
  decide +kernel

theorem wit_RegistersWritten : rig.pathOpen .pcie = true ∧ rig.host.owner = pathOwner .pcie ∧
    rig.sched.running = false ∧ rig.sched.start = none ∧
    (rig.written .pcie 0x20 10000).1.toNat % 16384 = 10000 ∧ (rig.written .pcie 0x20 0).1.toNat % 16384 = 0 ∧
    (rig.written .pcie 0x20 10001).1.toNat % 16384 = 10001 ∧
    (rig.written .pcie 0x25 1).1.getLsbD 0 = true ∧ rig.snapPending = false ∧
    (0x200 + 4 * (15 : Fin 16).val + (3 : Fin 4).val) = (0x23F : Fin 1024).val := by decide

theorem wit_RegistersWritten_disarm :
    let s : State := { rig with err := { rig.err with snap := some (9, 0) } }
    (s.written .pcie 0x25 0).1.getLsbD 0 = false ∧ s.err.snap = some (9, 0) ∧ s.pathOpen .pcie = true ∧
      s.host.owner = pathOwner .pcie := by decide

theorem wit_HostPathKept :
    let s : State := { rig with host := { rig.host with wdogPeriod := 5, wdogRuns := true } }
    s.host.wdogPeriod ≠ 0 ∧ s.host.wdogRuns = true ∧ s.isReady 17 = true ∧ s.host.owner = .pcie ∧
      rig.host.wdogRuns = false ∧ Memory.wf s.mem = true ∧ rigL.host.owner ≠ .pcie := by decide

theorem wit_HostPathKept_train :
    let s : State := { rig with host := { rig.host with cmdSize := 0, pcieUp := false } }
    s.isReady 3 = true ∧ s.pllOf dPcie = .good ∧ s.err.isolated.getLsbD 6 = false ∧ s.pwr.sleep ≤ 1 ∧
      s.cmdEntries = 0 := by decide

/-- A release, a claim of what the other path lost, a claim the other path still holds, and a write of 3. -/
theorem wit_OwnershipClaims :
    let s : State := { rigL with host := { rigL.host with hostLost := true } }
    (rig.pathOpen .pcie = true ∧ rig.isReady 17 = true ∧ (rig.written .pcie 4 0).1.toNat % 4 = 0 ∧
      rig.host.owner = pathOwner .pcie) ∧
    (s.pathOpen .pcie = true ∧ s.isReady 17 = true ∧
      (s.written .pcie 4 1).1.toNat % 4 = ownerCode (pathOwner .pcie) ∧ s.host.owner ≠ .none ∧
      s.host.owner ≠ pathOwner .pcie ∧ s.host.hostLost = true) ∧
    (rigL.host.owner ≠ pathOwner .pcie ∧ rigL.host.hostLost = false ∧ rigL.isReady 17 = true) ∧
    ((rig.written .pcie 4 3).1.toNat % 4 = 3 ∧ ownerCode (pathOwner .pcie) ≠ 3) := by decide

theorem wit_MailboxAndBar2 : rig.pathOpen .pcie = true ∧ rig.host.owner = pathOwner .pcie ∧
    SMap.wf 0 rig.host.mailbox = true ∧ rig.host.mboxSpace = false ∧
    otherBase ≤ ctlBase + (0x700000 : Word).toNat ∧ ctlBase + (0x700000 : Word).toNat + 1 ≤ otherBase + 0x100000 ∧
    rigL.host.owner ≠ .pcie ∧ rigL.awaitsPush = false ∧ rigL.pathOpen .pcie = true ∧
    readOnlyOther (ctlBase + (0x700000 : Word).toNat) = false := by decide

/-- Reads: outside the window, of the journal, of bytes that the Aperture blocks; a read-only byte. -/
theorem wit_MailboxAndBar2_reads : rangeAll bar2Reads (ctlBase + (0xFFFFFFF0 : Word).toNat) 4 = false ∧
    (let a := ctlBase + (BitVec.ofNat 32 (journalBase - ctlBase)).toNat
     journalBase ≤ a ∧ a + 64 ≤ outageBase ∧ rig.ap.sealed = false ∧
      (let s : State := { rig with ap := { rig.ap with sealed := true } }
       rangeAll bar2Reads a 64 = true ∧ s.classPasses (s.dataClass a 64) 64 = false)) ∧
    (let a := ctlBase + (BitVec.ofNat 32 (lastStateAddr - ctlBase)).toNat
     otherBase ≤ a ∧ a + 1 ≤ otherBase + 0x100000 ∧ readOnlyOther a = true) := by decide +kernel

theorem wit_MailboxAndBar2_clean : rig.clean := ⟨rfl, rfl⟩

theorem wit_HalvesReadWhole : rig.pathOpen .pcie = true ∧ rigL.pathOpen .localbus = true ∧
    rigL.host.owner = .localbus ∧ (5 : Fin 64).val ≠ 4 ∧ (5 : Fin 64).val ≠ 0x22 ∧ (5 : Fin 64).val ≠ 0x24 ∧
    rig.host.owner ≠ .localbus ∧ rig.pathOpen .localbus = true := by decide

/-! ### Witnesses: macro-ops -/

/-- `rig` with Facet 1 at a record. -/
def atRec (r : Rec) : State := { rig with facets := rig.facets.set 1 { Facet.reset with phase := .running, prog := [r] } }

/-- A region of Facet 1 of 8 units, 3 of them committed, that Facet 1 produces. -/
def ring8 : RegionSt := { RegionSt.vacant with
  declared := true, base := 100, size := 8, head := 5, tail := 2, level := 3, pindex := 1 }

/-- `atRec r` with `ring8` in slot 2. -/
def atRing (r : Rec) : State :=
  { atRec r with facets := (atRec r).facets.set 1 { (atRec r).facets[(1 : Fin 16)] with
    regions := Facet.reset.regions.set 2 ring8 } }

/-- COPY_2D of 2 rows of 3 units from unit 0 to unit 64, dense. -/
def copyRec : Rec := ⟨opCopy2d, 0, 0, 0, 0, 0, 64, 0, 0x30002⟩

/-- VEC_EW ADD of two INT8 vectors of 2 rows of 40 elements at units 0 and 8, to unit 64. -/
def ewRec : Rec := ⟨opVecEw, 0, 0, 0, 0, 8, 64, 0, 0x280002 * 65536⟩

/-- MM of one row of 64 INT8 by 64 columns in groups of 64, to unit 200. -/
def mmRec : Rec := ⟨opMM, 0, 0, 0, 0, 16, 200, 0, 1 + 0x10000 + 64 * 2 ^ 32 + 0x13 * 2 ^ 40⟩

/-- PUSH or POP of `u` units of region 2, and END. -/
def ringRec (op u : Nat) : Rec := ⟨op, 0, 0, 0, 0, 0, 0, 0, 2 + u * 2 ^ 32⟩

theorem clean_atRec (r : Rec) : (atRec r).clean ∧ Memory.wf (atRec r).mem = true :=
  ⟨⟨rfl, rfl⟩, rfl⟩

theorem wit_RecordsPass : recordOf (.copy2d 1 []) = some (1, opCopy2d, []) ∧
    (atRec copyRec).headRec 1 opCopy2d = some copyRec ∧ (atRec copyRec).headRec 2 opCopy2d = none := by decide

theorem wit_CopyMovesRows : (atRec copyRec).headRec 1 opCopy2d = some copyRec ∧ (Ref.ofWord copyRec.op0).plain ∧
    (Ref.ofWord copyRec.op2).plain ∧ copyRec.flagBit 4 = false ∧ copyRec.p 0x1A 2 = 0 ∧ copyRec.p 0x14 2 = 2 :=
  ⟨by decide, ⟨by decide, by decide⟩, ⟨by decide, by decide⟩, by decide, by decide, by decide⟩

theorem wit_VectorElementWise : (atRec ewRec).headRec 1 opVecEw = some ewRec ∧ (Ref.ofWord ewRec.op0).plain ∧
    (Ref.ofWord ewRec.op1).plain ∧ (Ref.ofWord ewRec.op2).plain ∧ ewRec.hasSrc2 = true ∧ ewRec.vstride = 0 ∧
    ewRec.rows = 2 ∧ ewRec.cols = 40 :=
  ⟨by decide, ⟨by decide, by decide⟩, ⟨by decide, by decide⟩, ⟨by decide, by decide⟩, by decide, by decide, by decide,
    by decide⟩

theorem wit_MatrixProduct : (atRec mmRec).headRec 1 opMM = some mmRec ∧ (Ref.ofWord mmRec.op0).plain ∧
    (Ref.ofWord mmRec.op1).plain ∧ (Ref.ofWord mmRec.op2).plain ∧ mmRec.focus = false ∧ mmRec.accIn = false ∧
    mmRec.accKeep = false ∧ mmRec.op3 = 0 ∧ mmRec.m = 1 ∧ mmRec.kt = 1 ∧ mmRec.ncols = 64 ∧ mmRec.groups = 1 :=
  ⟨by decide, ⟨by decide, by decide⟩, ⟨by decide, by decide⟩, ⟨by decide, by decide⟩, by decide, by decide, by decide,
    by decide, by decide, by decide, by decide, by decide⟩

/-- Pushes that fill the region and that go beyond it; a record that emits, and one that checks a flag. -/
theorem wit_ControlRecords :
    (∀ u ∈ [5, 6], (atRing (ringRec opPush u)).headRec 1 opPush = some (ringRec opPush u)) ∧
    ring8.level + ring8.localPush + (ringRec opPush 5).p 0x18 4 ≤ ring8.size ∧
    ring8.size < ring8.level + ring8.localPush + (ringRec opPush 6).p 0x18 4 ∧
    (atRec (ringRec opEmit 0)).headRec 1 opEmit = some (ringRec opEmit 0) ∧
    (atRec (ringRec opCheckFlag 0)).headRec 1 opCheckFlag = some (ringRec opCheckFlag 0) := by decide

/-- A POP of what the region holds, and of one unit more. -/
theorem wit_PopUnderruns : SMap.wf 0 (atRing (ringRec opPop 3)).cnt = true ∧
    (∀ u ∈ [3, 4], (atRing (ringRec opPop u)).headRec 1 opPop = some (ringRec opPop u)) ∧
    (ringRec opPop 3).p 0x18 4 ≤ ring8.level ∧ ring8.level < (ringRec opPop 4).p 0x18 4 := by decide

theorem wit_WaitAndEnd :
    (atRec (ringRec opWaitTick 9)).headRec 1 opWaitTick = some (ringRec opWaitTick 9) ∧
    (let s := (atRec (ringRec opWaitTick 9)).updFacet 1 (fun x => { x with phase := .waiting })
     s.facets[(1 : Fin 16)].phase = .waiting ∧ s.facets[(1 : Fin 16)].prog.head? = some (ringRec opWaitTick 9)) ∧
    (atRing (ringRec opEnd 0)).headRec 1 opEnd = some (ringRec opEnd 0) ∧
    (atRing (ringRec opEnd 0)).facets[(1 : Fin 16)].regions[(2 : Fin 16)].pindex = (1 : Fin 16).val := by decide

/-- What a region of Facet 1 may hold at END: nothing pushed, units pushed, an OVERRUN. -/
theorem wit_WaitAndEnd_regions : (1 : Fin 16).val / 4 = (1 : Fin 16).val / 4 ∧ ring8.declared = true ∧ ring8.producer = 0 ∧
    ring8.localPush = 0 ∧ ring8.overran = false ∧ ({ ring8 with localPush := 2 } : RegionSt).localPush ≠ 0 ∧
    ({ ring8 with localPush := 2, overran := true } : RegionSt).overran = true ∧ ring8.debt = 0 := by decide

/-- A record of a type with a buffer of 32 bytes from the units of an internal, or of a result's region. -/
def emit1 (bytes : Nat) : EmitRec := ⟨0x0010, 1, 0, [], [(unitAddr 1 100 / 32, false)], bytes, 3, 5000000⟩

/-- `rig` with a data ring of 4,096 bytes, and Facet 1's region of units 100 to 107 of an egress class. -/
def dataRing (egress : Nat) : State :=
  { rig.updFacet 1 (fun x => { x with regions := x.regions.set 2 { ring8 with egress := egress } }) with
    host := { rig.host with dataBase := 0x820000000000, dataSize := 4096 } }

/-- Records that leave, with and without a buffer, that are blocked, whose buffer has no way, and is blocked. -/
theorem wit_WaitAndEnd_records :
    (emit1 32).route = 1 ∧ (emit1 32).type ≠ 0x0022 ∧ (emit1 32).type ≠ 0x0084 ∧ (emit1 32).type ≠ 0x0012 ∧
    (let s : State := { rig with ap := { rig.ap with sealed := true } }
     s.recordPasses 0x0010 [] 32 = false) ∧
    rig.recordPasses 0x0010 [] 32 = true ∧ (emit1 0).bufLen = 0 ∧ (emit1 32).bufLen ≠ 0 ∧
    rig.bufferWay (emit1 32) = false ∧
    (dataRing 0).bufferWay (emit1 32) = true ∧
    (emit1 32).bufUnits.all (fun u => (dataRing 0).bufferPasses 0x0010 ((dataRing 0).dataClass (u.1 * 32) 32) 32) = false ∧
    (dataRing 3).bufferWay (emit1 32) = true ∧
    (emit1 32).bufUnits.all (fun u => (dataRing 3).bufferPasses 0x0010 ((dataRing 3).dataClass (u.1 * 32) 32) 32) = true ∧
    (∀ u ∈ (emit1 32).bufUnits, u.2 = false) ∧ Memory.wf (dataRing 3).mem = true ∧
    rangeAll ringWrites ((dataRing 3).host.dataBase + 0) 32 = true := by decide +kernel

theorem wit_WaitAndEnd_clean : (dataRing 3).clean := ⟨rfl, rfl⟩

/-! ### Witnesses: memories and DMA -/

/-- The 64 bytes of a descriptor. -/
def dmaBytes (ctrl src dst len next : Nat) : List Byte :=
  leBytes 4 ctrl ++ leBytes 4 0 ++ leBytes 8 src ++ leBytes 8 dst ++ leBytes 4 len ++ leBytes 4 0 ++ leBytes 8 next ++
    List.replicate 24 0

/-- The bucket of a ready stack grants what it holds when nothing waits. -/
theorem grants_of {s : State} {u : BucketUser} {n prio : Nat}
    (h : s.hbm.phase = .ready ∧ s.hbm.waiting = [] ∧ n ≤ s.hbm.bucket) : s.grants u n prio :=
  .inr ⟨h.1, by rw [State.heldBack, h.2.1]; rfl, h.2.2, by rw [h.2.1]; intro w hw; cases hw⟩

/-- `s` with another channel 6 of the Edge engine. -/
def onChan (s : State) (x : Channel) : State := s.updChan 4 6 (fun _ => x)

/-- A host channel that fetches the descriptor with a CTRL from an address: 128 bytes of HBM to HBM. -/
def fetchingAt (a ctrl : Nat) : State :=
  (onChan rig { Channel.reset with phase := .fetching, at_ := .mem a }).writeB a (dmaBytes ctrl 0x100000 0x200000 128 0)

/-- The same from host memory. -/
def fetching (ctrl : Nat) : State := fetchingAt 0x810000000000 ctrl

/-- A copy of 128 bytes within HBM that runs. -/
def copying : Channel := { Channel.reset with
  phase := .running, at_ := .mem 0x400000, desc := ⟨2 ^ 31, 0x100000, 0x200000, 128, 0, 0⟩ }

/-- A copy to host memory, running or waiting with its descriptor there, and one within HBM. -/
theorem wit_HostPathKept_edge :
    let d : DmaDesc := ⟨2 ^ 31, 0x100000, 0x820000000000, 128, 0, 0⟩
    let s := onChan rig { copying with desc := d, at_ := .mem 0x810000000000, phase := .waiting }
    d.touchesHost = true ∧ copying.desc.touchesHost = false ∧ (s.chan 4 6).phase = .waiting ∧
      (s.chan 4 6).at_ = .mem 0x810000000000 ∧ placeOf 0x810000000000 = .host ∧ s.beamOpen (chanNo 4 6) = false ∧
      ((onChan rig { copying with desc := d }).chan 4 6).phase = .running := by decide +kernel

/-- Two units of Facet 1, the older of which waits to be written back. -/
theorem wit_MemoriesKept_facets : rig.facetOut 1 = false ∧ rig.clean ∧ rig.wbOf 1 = [] ∧
    ({ rig with wbQueue := [unitAddr 1 5 / 32, unitAddr 2 5 / 32] } : State).wbOf 1 = [unitAddr 1 5 / 32] ∧
    SMap.wf 0 rig.poison = true ∧
    ({ rig with upsets := [(unitAddr 1 5 / 32, 3)] } : State).severity (unitAddr 1 5) = 3 :=
  ⟨by decide, ⟨rfl, rfl⟩, by decide, by decide, by decide, by decide⟩

theorem wit_MemoriesKept_stack :
    (let s : State := { rig with hbm := { rig.hbm with phase := .training 2 } }
     s.hbm.phase = .training 2 ∧ s.pwr.shed < 3 ∧ s.pwr.phase = .running ∧ s.hbm.stalled = []) ∧
    3 ≤ ({ rig with pwr := { rig.pwr with shed := 3 } } : State).pwr.shed ∧
    rig.hbm.phase ≠ .off ∧ rig.hbm.phase = .ready ∧ SMap.wf 0 rig.cnt = true ∧
    (let s : State := { rig with hbm := { rig.hbm with below90 := some 1 }, tk := { rig.tk with now := 2000000001 } }
     s.hbm.below90 = some 1 ∧ 1 + 1000000000 ≤ s.tk.now) := by decide

/-- A good descriptor, one without OWN, and one whose WAIT_KIND is not defined. -/
theorem wit_DescriptorsTaken : isHostChan 4 6 = true ∧ 0x810000000000 % 64 = 0 ∧
    (∀ ctrl ∈ [2 ^ 31, 0, 2 ^ 31 + 0x7000],
      ((fetching ctrl).chan 4 6).at_ = .mem 0x810000000000 ∧ ((fetching ctrl).chan 4 6).phase = .fetching ∧
      (fetching ctrl).canFetch 4 0x810000000000 = true ∧ (fetching ctrl).engineOut 4 = false) ∧
    placeOf 0x810000000000 = .host ∧
    (let w := (fetching (2 ^ 31)).readDev 0x810000000000 64
     bitOf (fieldLe w.1 0 4) 31 = true ∧ (w.2.2.checkDesc 4 6 w.1).1 = 0) ∧
    bitOf (fieldLe ((fetching 0).readDev 0x810000000000 64).1 0 4) 31 = false ∧
    (let s := fetching (2 ^ 31 + 0x7000)
     bitOf (s.readLe 0x810000000000 4) 31 = true ∧ s.ap.sealed = false ∧ Memory.wf s.mem = true ∧
     (s.checkDesc 4 6 (s.readB 0x810000000000 64)).1 = 0x0104) := by decide +kernel

/-- A good descriptor that the Aperture blocks: bytes of no class from HBM to host memory. -/
theorem wit_DescriptorsTaken_blocked :
    let s : State := (onChan rig { Channel.reset with phase := .fetching, at_ := .mem 0x810000000000 }).writeB
      0x810000000000 (dmaBytes (2 ^ 31) 0x100000 0x820000000000 128 0)
    bitOf (s.readLe 0x810000000000 4) 31 = true ∧ s.ap.sealed = false ∧ Memory.wf s.mem = true ∧
      (s.checkDesc 4 6 (s.readB 0x810000000000 64)).1 = 0x0103 := by decide +kernel

/-- A descriptor in HBM that the bucket grants. -/
theorem wit_DescriptorsTaken_hbm : (fetchingAt 0x400000 (2 ^ 31)).grants (.fetch (chanNo 4 6)) 64 3 ∧
    placeOf 0x400000 = .hbm ∧ (fetchingAt 0x400000 (2 ^ 31)).quiet ∧
    (fetchingAt 0x400000 (2 ^ 31)).canFetch 4 0x400000 = true ∧
    (let w := ((fetchingAt 0x400000 (2 ^ 31)).takeBucket 64).readDev 0x400000 64
     bitOf (fieldLe w.1 0 4) 31 = true ∧ ((w.2.2.countPages hRead 0x400000 64).checkDesc 4 6 w.1).1 = 0) :=
  ⟨grants_of (by decide +kernel), by decide, ⟨rfl, rfl⟩, by decide +kernel, by decide +kernel⟩

theorem wit_DescriptorsTaken_state : (fetching (2 ^ 31)).quiet ∧ (fetching (2 ^ 31)).clean ∧
    (∀ k < 64, ¬ (fetching (2 ^ 31)).recordByte (0x810000000000 + k)) ∧
    (fetching (2 ^ 31)).grants (.fetch (chanNo 4 6)) 0 3 := by
  refine ⟨⟨rfl, rfl⟩, ⟨rfl, rfl⟩, fun k _ h => ?_, .inl rfl⟩
  rcases h with h | ⟨i, hi, h⟩
  · have : journalBase + 0x100000 ≤ 0x810000000000 := by decide
    omega
  · have e : (fetching (2 ^ 31)).evtSlot i = 0x800000001000 + i * 64 := rfl
    have n : (fetching (2 ^ 31)).evtRingSize = 64 := rfl
    have p : (fetching (2 ^ 31)).host.evtPut = 0 := rfl
    omega

theorem wit_DescriptorsTaken_poll :
    let s := (fetching (2 ^ 31)).updChan 4 6 (fun x => { x with phase := .polling })
    (s.chan 4 6).phase = .polling ∧ bitOf (s.readLe 0x810000000000 4) 31 = true ∧
      ((s.count (srcDma 4 6) dPolls 1).checkDesc 4 6 (s.readB 0x810000000000 64)).1 = 0 := by decide +kernel

theorem wit_DescriptorStarts :
    let s := onChan rig { copying with phase := .waiting }
    (s.chan 4 6).phase = .waiting ∧ s.startMet 4 (s.chan 4 6) = true ∧
      s.queueTaken (chanNo 4 6) (s.chan 4 6).desc = false ∧ s.regionFull (s.chan 4 6).desc = false ∧
      s.engineOut 4 = false ∧ (s.chan 4 6).desc.circ = false ∧ s.hbm.phase ≠ .draining := by decide +kernel

/-- A transfer into a region that DMA channel 38 produces, with room and without. -/
theorem wit_DescriptorStarts_circ :
    (∀ n ∈ [128, 192],
      let r : RegionSt := { ring8 with producer := 1, pindex := 38 }
      let s := (onChan (rig.updFacet 1 (fun x => { x with regions := x.regions.set 2 r }))
        { copying with phase := .waiting, desc := ⟨2 ^ 31 + 2 ^ 28, 0x100000, scratchBase + 0x1000000 + 128, n, 0, 0⟩ })
      let d := (s.chan 4 6).desc
      d.circ = true ∧ d.region = some (1, 2) ∧ s.startMet 4 (s.chan 4 6) = true ∧ s.regionFull d = false ∧
        d.outBytes / 32 = n / 32) ∧
    ring8.level + ring8.reserved + 128 / 32 ≤ ring8.size ∧ ring8.size < ring8.level + ring8.reserved + 192 / 32 := by
  decide +kernel

theorem wit_BurstsMove : (onChan rig copying).engineOut 4 = false ∧
    ((onChan rig copying).serveOrder 4).find? (fun i => (onChan rig copying).hasSpace 4 i) = some 6 ∧
    (∃ b, (onChan rig copying).burstOf 4 6 = some b ∧ 0 < b.hbm ∧ b.hbm ≤ (onChan rig copying).hbm.bucket ∧
      b.n % 32 = 0 ∧ placeOf b.src = .hbm) ∧
    placeOf (copying.desc.dst + copying.writtenN) = .hbm ∧ (onChan rig copying).heldBack copying.desc.prio = false ∧
    copying.desc.transform = 0 ∧ copying.desc.srcKind = 0 ∧ copying.resv = none ∧ isBeam copying.desc.dst = false ∧
    (onChan rig copying).queueStream copying.desc = none :=
  ⟨by decide +kernel, by decide +kernel, ⟨((onChan rig copying).burstOf 4 6).get (by decide +kernel), by simp,
    by decide +kernel, by decide +kernel, by decide +kernel, by decide +kernel⟩, by decide +kernel, by decide +kernel,
    by decide, by decide, by decide, by decide +kernel, by decide +kernel⟩

theorem wit_BurstsMove_grants (b : Burst1) (h : b.hbm ≤ (onChan rig copying).hbm.bucket) :
    (onChan rig copying).grants (.chan (chanNo 4 6)) b.hbm copying.desc.prio ∧ (onChan rig copying).clean :=
  ⟨grants_of ⟨by decide, by decide, h⟩, ⟨rfl, rfl⟩⟩

/-- On the way into self-refresh a write into HISTORY has begun. -/
theorem wit_BurstsMove_draining :
    let s : State := { onChan rig { copying with history := true } with hbm := { rig.hbm with phase := .draining } }
    s.hbm.phase = .draining ∧ (s.serveOrder 4).find? (fun i => s.hasSpace 4 i) = some 6 ∧ (s.burstOf 4 6).isSome = true := by
  decide +kernel

/-- A destination that the mirror has come to cover since the descriptor was taken; a burst that has HBM to itself. -/
theorem wit_BurstsMove_protected :
    let s : State := { onChan rig { copying with desc := ⟨2 ^ 31, 0x100000, hbmSize - 128, 128, 0, 0⟩ } with
      jnl := { rig.jnl with mirrorJ := 1 } }
    ∃ b, s.burstOf 4 6 = some b ∧ inHbm (hbmSize - 128 + 0) = true ∧ s.hbmWritable (hbmSize - 128 + 0) b.n = false ∧
      Memory.wf s.mem = true ∧ (onChan rig copying).hbmWritable (copying.desc.dst + 0) b.n = true :=
  ⟨_, rfl, by decide +kernel⟩

/-- A channel with 64 KiB of frames that wait for acknowledgements finds no space. -/
theorem wit_BurstsMove_full :
    let f : BeamFrame := ⟨⟨1, 0, 0, 0, 1, 3, 0, 0, 0, 65536, 0, 8192⟩, List.replicate 8192 0, none, some (chanNo 4 6)⟩
    let s : State := { onChan rig copying with beam := { rig.beam with
      peers := [⟨1, [], 0, 1, true, 0, 6, 20, 30, [], List.replicate 8 f, 200, 0⟩] } }
    s.serveOrder 4 = [6] ∧ s.hasSpace 4 6 = false := by decide +kernel

/-- The bucket empty: a burst waits, and one that waits is granted when the bucket holds it. -/
theorem wit_BurstsMove_bucket :
    let s : State := { onChan rig copying with hbm := { rig.hbm with bucket := 10 } }
    let u : State := { onChan rig copying with hbm := { rig.hbm with waiting := [⟨.chan (chanNo 4 6), 256, 0⟩] } }
    (∃ b, s.burstOf 4 6 = some b ∧ 0 < b.hbm ∧ s.hbm.bucket < b.hbm) ∧ s.hbm.phase = .ready ∧
    firstWait u.hbm.waiting = some ⟨.chan (chanNo 4 6), 256, 0⟩ ∧ 256 ≤ u.hbm.bucket ∧ u.hbm.phase = .ready ∧
    (∀ v ∈ u.hbm.waiting, v.user = .chan (chanNo 4 6) → v = ⟨.chan (chanNo 4 6), 256, 0⟩) ∧
    (∃ b, (u.unwait (.chan (chanNo 4 6))).burstOf 4 6 = some b ∧ 0 < b.hbm) :=
  ⟨⟨_, rfl, by decide +kernel, by decide +kernel⟩, by decide +kernel, by decide +kernel, by decide +kernel,
    by decide +kernel, by decide +kernel, ⟨_, rfl, by decide +kernel⟩⟩

theorem wit_TransfersComplete :
    let s := onChan rig { copying with readN := 128, writtenN := 128 }
    s.quiet ∧ (s.chan 4 6).phase = .running ∧ (s.chan 4 6).stop = none ∧ s.moved 4 6 = true ∧
      placeOf 0x400000 = .hbm ∧ Memory.wf s.mem = true ∧ s.beamOpen (chanNo 4 6) = false ∧
      s.canFetch 4 0x400000 = true ∧ s.hbmWritable 0x400000 64 = true :=
  ⟨⟨rfl, rfl⟩, by decide +kernel, by decide +kernel, by decide +kernel, by decide +kernel, by decide +kernel,
    by decide +kernel, by decide +kernel, by decide +kernel⟩

/-- The bucket grants the completion; one whose outcome is fixed, one being aborted, and no event slot in HBM. -/
theorem wit_TransfersComplete_ends :
    (onChan rig copying).grants (.back (chanNo 4 6)) ((onChan rig copying).backCost 4 copying.at_) copying.desc.prio ∧
    ((onChan rig { copying with stop := some 0x0520 }).chan 4 6).stop = some 0x0520 ∧
    ((onChan rig { copying with phase := .aborting true true }).chan 4 6).phase = .aborting true true ∧
    (onChan rig copying).hbm.phase = .ready ∧ (∀ k < 64, ¬ (onChan rig copying).recordByte (0x400000 + k)) := by
  refine ⟨grants_of (by decide +kernel), by decide +kernel, by decide +kernel, by decide +kernel, fun k _ h => ?_⟩
  rcases h with h | ⟨i, _, h⟩
  · have : 0x400000 + 64 ≤ journalBase := by decide
    omega
  · have e : (onChan rig copying).evtSlot i = 0x800000001000 + i * 64 := rfl
    omega

/-! ### Witnesses: coded blocks and the sensor -/

/-- The coded block of 8,192 zero bytes. -/
def zeroBlock : List Byte := (codeBlock 0x10 false (List.replicate 8192 0)).1

/-- An expand transfer of channel 2 of Prism 0's engine into HBM, and its block. -/
def expanding (bs : List Byte) : State := { rig.updChan 0 2 (fun _ => { Channel.reset with
    phase := .running, desc := ⟨2 ^ 31 + 2 ^ 24, 0x100000, 0x200000, 64, 8192, 0⟩ }) with
  exp := rig.exp.set 0 [⟨2, bs, false, true, []⟩] }

/-- A condense transfer of that channel with an output of `n` bytes, and its 8,192 buffered bytes. -/
def condensing (n : Nat) : State := { rig.updChan 0 2 (fun _ => { Channel.reset with
    phase := .running, desc := ⟨2 ^ 31 + 2 ^ 25, 0x100000, 0x200000, 8192, n, 0⟩ }) with
  cnd := rig.cnd.set 0 (some ⟨2, List.replicate 8192 0, false, true, []⟩) }

/-- A coded block whose lanes are all zero, of which 32 bytes are wanted, with a CRC. -/
def zeroCoded (k : Nat) : List Byte :=
  [1, 0x10, 0, 0, 64, 0, 0, 0] ++ leBytes 4 k ++ [32, 0] ++ List.replicate 50 0

theorem crcBit_lt (c : Nat) (h : c < 2 ^ 32) : crcBit c < 2 ^ 32 := by
  unfold crcBit; split
  · exact Nat.xor_lt_two_pow (by omega) (by decide)
  · omega

theorem crcRun_lt (bs : List Byte) : ∀ c, c < 2 ^ 32 → crcRun c bs < 2 ^ 32 := by
  induction bs with
  | nil => intro c h; exact h
  | cons b bs ih =>
    intro c h
    refine ih _ ?_
    unfold crcByte
    iterate 8 apply crcBit_lt
    exact Nat.xor_lt_two_pow h (by have := b.isLt; omega)

theorem crc32c_lt (bs : List Byte) : crc32c bs < 2 ^ 32 :=
  Nat.xor_lt_two_pow (crcRun_lt bs _ (by decide)) (by decide)

theorem zeroCoded_parse (k : Nat) : BlockHdr.parse (zeroCoded k) =
    ⟨1, 0x10, 0, 64, k % 2 ^ 32, 32, 0, List.replicate 16 0, true⟩ := by
  have h : leNat [BitVec.ofNat 8 (k % 256), BitVec.ofNat 8 (k / 256 % 256), BitVec.ofNat 8 (k / 256 / 256 % 256),
      BitVec.ofNat 8 (k / 256 / 256 / 256 % 256)] = k % 2 ^ 32 := by
    simp [leNat]; omega
  rw [← h]; rfl

/-- What its lanes decode to. -/
def zeros8k : List Byte := (List.replicate 16 (List.replicate 512 0)).flatten

/-- A block that is judged good. -/
theorem judge_zeroCoded : ∃ k, judgeBlock (zeroCoded k) false 64 0 8192 = .good (BlockHdr.parse (zeroCoded k)) (zeros8k.take 32) [] := by
  obtain ⟨k, hk⟩ : ∃ k, crc32c zeros8k = k := ⟨_, rfl⟩
  have hl : k < 2 ^ 32 := hk ▸ crc32c_lt _
  have h3 : decodeLanes 0x10 (cutLanes (List.replicate 16 0) ((zeroCoded k).drop 64)) = some zeros8k := rfl
  have h1 : (⟨1, 0x10, 0, 64, k, 32, 0, List.replicate 16 0, true⟩ : BlockHdr).wellFormed 64 = true := by
    simp [BlockHdr.wellFormed, BlockHdr.formulaLen, BlockHdr.trailerAt, BlockHdr.laneSum, blockDtypes]
  refine ⟨k, ?_⟩
  unfold judgeBlock
  rw [zeroCoded_parse, Nat.mod_eq_of_lt hl]
  simp only [h1, h3, hk]
  rfl

theorem wit_BlocksCoded_bad :
    (expanding (List.replicate 64 0)).engineOut (fin5 0) = false ∧
    (expanding (List.replicate 64 0)).exp[(0 : Fin 4)] = [⟨2, List.replicate 64 0, false, true, []⟩] ∧
    judgeBlock (List.replicate 64 0) false 64 0 8192 = .bad 0x0140 := by decide +kernel

theorem wit_BlocksCoded_good : ∃ k data,
    judgeBlock (zeroCoded k) false 64 0 8192 = .good (BlockHdr.parse (zeroCoded k)) data [] ∧ data.length = 32 ∧
    (expanding (zeroCoded k)).exp[(0 : Fin 4)] = [⟨2, zeroCoded k, false, true, []⟩] ∧
    (expanding (zeroCoded k)).hbm = rig.hbm ∧ (expanding (zeroCoded k)).chan 0 2 = (expanding []).chan 0 2 := by
  obtain ⟨k, hk⟩ := judge_zeroCoded
  exact ⟨k, _, hk, rfl, rfl, rfl, rfl⟩

theorem wit_BlocksCoded_room : (expanding []).grants (.expander 0) (((expanding []).chan 0 2).desc.hbmBytes 32)
      ((expanding []).chan 0 2).desc.prio ∧ rig.hbm.poison = [] ∧ placeOf (0x200000 + 0) = .hbm ∧
    ((expanding []).chan 0 2).resv = none ∧ isBeam ((expanding []).chan 0 2).desc.dst = false ∧
    ((expanding []).chan 0 2).phase = .running ∧ ((expanding []).chan 0 2).stop = none ∧
    (expanding []).engineOut (fin5 0) = false ∧ (expanding []).hbmWritable (0x200000 + 0) 32 = true ∧
    (⟨2, [], false, true, []⟩ : BlockSlot).whole = true ∧ (fin8 2).val = 2 :=
  ⟨grants_of (by decide +kernel), by decide, by decide, by decide +kernel, by decide +kernel, by decide +kernel,
    by decide +kernel, by decide +kernel, by decide +kernel, by decide, by decide⟩

theorem wit_BlocksCoded_condense :
    (∀ n ∈ [0, 8192], ((condensing n).cnd[(0 : Fin 4)]).map (·.bytes.length) = some 8192 ∧
      (condensing n).engineOut (fin5 0) = false) ∧
    zeroBlock.length ≤ 8192 ∧ 0 < zeroBlock.length ∧
    isBeam ((condensing 8192).chan 0 2).desc.dst = false ∧ (condensing 8192).hbm.phase = .ready ∧
    (condensing 8192).hbm.waiting = [] ∧
    ((condensing 8192).chan 0 2).desc.hbmBytes zeroBlock.length ≤ (condensing 8192).hbm.bucket ∧
    (condensing 8192).hbmWritable (0x200000 + 0) zeroBlock.length = true := by decide +kernel

/-- Stream 0: a RAW tap of 64 by 64 pixels, 8 lines to a group, 2 groups of ring, into the line store alone. -/
def tapStream : StreamCfg := ⟨1, 0, 8, 0, 0, 0, 64, 64, 0, 0, 2048, 2, 0, 0⟩

def objC : ObjCfg where
  mode := 0
  flags := 0x18
  frameTicks := 20
  exposure := 100
  again := 0
  dgain := 0
  black := 0
  dynThresh := 0
  wb := [1024, 1024, 1024, 1024]
  ccm := [1024, 0, 0, 0, 1024, 0, 0, 0, 1024]
  burstFrames := 8
  burstTap := 0
  pinTrigger := 0xFF
  burstExposure := 10
  burstAgain := 0
  originX := 0
  originY := 0
  envelopeMask := 0
  partition := 7
  histX := 0
  histY := 0
  histW := 2
  histH := 2
  flickerCh := 0xFF
  flickerMin := 0
  streams := [tapStream]
  tone := [[], [], []]

/-- A frame in readout of which `n` rows have come. -/
def frameC (n : Nat) : FrameSt := ⟨3, 5000000, 4, Settings.zero, 0, false, false, false, true, false, false, 0,
  List.replicate n ⟨[], [], false⟩⟩

/-- `rig` with the sensor in normal mode and a frame of which 120 rows have come. -/
def filming : State := { rig with img := { rig.img with mode := .normal, cfg := some objC, frame := some (frameC 120) } }

/-- `filming` in a burst of which one frame of two has been read. -/
def bursting (done : Nat) : State := { filming with
  img := { filming.img with frame := none, mode := .burst ⟨⟨1, 0, 5000000, 0, 0, 2⟩, 0, done, 0, 6000000, 0, []⟩ }
  sched := { rig.sched with active := some ⟨0, 0, 3, false, 600, 4, 0, [], 0, 1, 1, [], [], [], [], [], [],
    [⟨0x1000000, 0x1000000, 3, 4, 0, false, false, 7⟩], [], ⟨0, 0, 0, 0⟩, [], [], some objC, none⟩ } }

theorem wit_FramesRead : filming.img.cfg = some objC ∧ filming.img.frame = some (frameC 120) ∧
    (objC.stream 0).kind ≠ 0 ∧ (filming.img.streams[(0 : Fin 5)]).trunc = none ∧
    (let sc := objC.stream 0
     let hi := min (0 + sc.lpg) sc.lines
     0 < hi ∧ min (modeH objC.mode) ((groupRows sc 0 hi).2 + sc.margin) ≤ (frameC 120).activeRows objC ∧
      sc.dest ≠ 1 ∧ filming.img.streams[(0 : Fin 5)].held.length < sc.ringGroups) ∧
    Memory.wf filming.mem = true ∧ filming.img.stopping = false ∧ bitOf objC.flags 3 = true := by decide +kernel

/-- The event ring full, so that the FRAME_STATUS record of stream 0 is held; a STOP; no event slot in the statistics. -/
theorem wit_FramesRead_end :
    (let s : State := { filming with host := fullRing.host }
     s.evtRoom = false ∧ s.host.held.length ≤ 4000 ∧ s.img.cfg = some objC ∧ s.img.frame = some (frameC 120)) ∧
    ({ filming with img := { filming.img with stopping := true } } : State).img.stopping = true ∧
    (∀ k < 16, ¬ filming.recordByte (otherBase + (frameC 120).seq % 4 * 16384 + k)) := by
  refine ⟨by decide +kernel, rfl, fun k _ h => ?_⟩
  rcases h with h | ⟨i, _, h⟩
  · have : journalBase + 0x100000 ≤ otherBase := by decide
    omega
  · have e : filming.evtSlot i = 0x800000001000 + i * 64 := rfl
    have : otherBase + 0x100000 ≤ 0x800000001000 := by decide
    have : (frameC 120).seq % 4 < 4 := Nat.mod_lt _ (by decide)
    omega

theorem wit_FramesRead_full :
    let x : StreamSt := ⟨0, [0, 1], 16, none, false, 0⟩
    let s : State := { filming with img := { filming.img with
      cfg := some { objC with streams := [{ tapStream with dest := 0 }] }, streams := filming.img.streams.set 0 x } }
    s.streamDma { objC with streams := [{ tapStream with dest := 0 }] } 0 = true ∧
      tapStream.ringGroups ≤ x.held.length ∧ x.lines < min (x.lines + tapStream.lpg) tapStream.lines := by decide +kernel

theorem wit_BurstsRun_trigger :
    let s : State := { filming with img := { filming.img with trigs := [⟨1, 0, 5000000, 0, 0, 2⟩] } }
    s.img.trigs = [⟨1, 0, 5000000, 0, 0, 2⟩] ∧ s.img.cfg = some objC ∧ bitOf objC.flags 4 = true ∧ s.img.mode = .normal ∧
      s.img.burstOut = none := by decide +kernel

theorem wit_BurstsRun : (bursting 1).img.cfg = some objC ∧ ((bursting 1).burstPart objC).isSome = true ∧
    (bursting 1).img.mode = .burst ⟨⟨1, 0, 5000000, 0, 0, 2⟩, 0, 1, 0, 6000000, 0, []⟩ ∧
    (bursting 2).img.mode = .burst ⟨⟨1, 0, 5000000, 0, 0, 2⟩, 0, 2, 0, 6000000, 0, []⟩ ∧
    (bursting 1).hbm.stalled = [] ∧ (bursting 1).hbm.phase = .ready ∧ (bursting 1).hbm.waiting = [] ∧
    1024 * 2048 ≤ (bursting 1).hbm.bucket ∧
    (let s : State := { bursting 0 with img := { (bursting 0).img with mode := .standby }
                                        sched := { (bursting 0).sched with running := true } }
     s.img.mode = .standby ∧ s.sensorWanted = true) := by decide +kernel

/-! ### Witnesses: the waveform inputs -/

/-- Converters 0 and 1 active, converter 1 at every second trigger; blocks of both go to DMA and the history. -/
def convC : ConvCfg where
  source := 0
  etChannel := 0
  outage := true
  keepFirst := false
  period := 128000
  spt := 0
  histPart := 7
  ringBlocks := 16
  outageMask := 3
  activeMask := 3
  conv := [⟨1, 0, 2, 6, 0, 0, 0, 0⟩, ⟨2, 0, 0, 6, 3, 0, 0, 0⟩]
  inputs := []
  windows := []

/-- Converters run from TIME 5 ms on. -/
def sampling (v : Conv) : State := { rig with wav := { rig.wav with
  refOn := true, cfg := some convC, startTime := 5000000, seg := (0, 1280000000, 128000), trig := 4, conv := rig.wav.conv.set 0 v } }

/-- Sample 9 of input 2 of a converter, held at TIME 5 ms. -/
def hold9 (k : Nat) : Held := ⟨k, 9, 2, 1280000000, 1280000000, false, false, false, 0⟩

/-- `sampling` with a slice of converter 0 that holds values. -/
def holding (js : List CoreJob) : State := sampling { Conv.reset with core := ⟨js, 0⟩ }

/-- A converter whose 256 samples of block 3 are there. -/
def fullConv : Conv := { Conv.reset with seq := 3, words := (List.range 256).map (fun i => (768 + i, i)) }

/-- An urgent request for input 2, of converter 0. -/
def urgent2 : Urgent := ⟨2, 1, 0, 4000000, 4999900, 0, false, 0⟩

theorem no_pend (v : Conv) (h : v.pend = []) : ∀ k : Fin 16, (sampling v).wav.conv[k].pend = [] := by
  intro k
  have e : (sampling v).wav.conv[k] = if k = 0 then v else rig.wav.conv[k] := by
    show (rig.wav.conv.set 0 v)[k.val] = _
    rw [Vector.getElem_set]
    by_cases z : k = 0
    · subst z; simp
    · rw [if_neg (fun c => z (Fin.ext c.symm)), if_neg z]; rfl
  rw [e]; split
  · exact h
  · exact (by decide : ∀ k : Fin 16, rig.wav.conv[k].pend = []) k

/-- A trigger that finds a free capacitor of the converter's own slice, one whose slice holds two values, one for a
converter that the spare slice serves, and one whose delay puts its hold off. -/
theorem wit_TriggersHoldSamples :
    (∀ k : Fin 16, (sampling Conv.reset).wav.conv[k].pend = []) ∧
    (let s := sampling Conv.reset
     s.wav.cfg = some convC ∧ s.nextTrigger convC = some (1280000000 + 4 * 128000) ∧ s.wav.handover = none ∧
      bitOf convC.activeMask 0 = true ∧ s.wav.trig % (convC.ent 0).div = 0 ∧ s.wav.trig % (convC.ent 1).div = 0 ∧
      bitOf convC.activeMask 2 = false ∧ s.convOff = false ∧ s.err.rejoin.getLsbD 5 = false ∧ s.wav.standing ≠ some 0 ∧
      (convC.ent 0).delay = 0 ∧ s.wav.conv[(0 : Fin 16)].core.free 1280512000 = true ∧ bitOf convC.activeMask 1 = true ∧ (convC.ent 1).delay ≠ 0) ∧
    (holding [.stream { hold9 0 with hold := 1280500000 }, .stream { hold9 0 with hold := 1280511000 }]).wav.conv[
      (0 : Fin 16)].core.free 1280512000 = false ∧
    ({ sampling Conv.reset with ready := 0 } : State).convOff = true ∧
    (let s : State := { sampling Conv.reset with wav := { (sampling Conv.reset).wav with standing := some 0 } }
     s.wav.standing = some (0 : Fin 16).val ∧ s.wav.spare.free 1280512000 = true) :=
  ⟨no_pend _ rfl, by decide +kernel⟩

/-- A held sample, with a correction that waits for a later one; an urgent input with a sample abandoned for it, on the
converter's slice and on the spare one; a slice that holds nothing. -/
theorem wit_ConversionsTakeTheirPlace :
    (∀ k : Fin 16, (holding [.stream (hold9 0)]).wav.conv[k].pend = []) ∧
    ((holding [.stream (hold9 0)]).slice (0 : Fin 17).val).jobs = [.stream (hold9 0)] ∧
    (hold9 0).conv = (0 : Fin 16).val ∧ (hold9 0).pair = 0 ∧
    (holding [.stream (hold9 0)]).wav.inputs[fin64 2].next = (none : Option (Int × Nat × Nat)).toList ∧
    ((holding [.urgent urgent2, .again (hold9 0)]).slice (0 : Fin 17).val).jobs = [.urgent urgent2, .again (hold9 0)] ∧
    (({ sampling Conv.reset with wav := { (sampling Conv.reset).wav with spare := ⟨[.urgent urgent2], 0⟩ } } : State).slice
      (16 : Fin 17).val).jobs = [.urgent urgent2] ∧
    ((sampling Conv.reset).slice (0 : Fin 17).val).jobs = [] :=
  ⟨no_pend _ rfl, by decide +kernel⟩

/-- The earliest of two requests, with a free spare slice, with an idle one, with a running conversion, and with an
urgent input before it. -/
theorem wit_AnalogKept_urgent :
    let s (js : List CoreJob) (free : Bool) : State := { holding js with wav := { (holding js).wav with
      reqs := [{ urgent2 with req := 4000001 }, urgent2], selfCal := !free } }
    (∀ k : Fin 16, (holding []).wav.conv[k].pend = []) ∧
    firstReq (s [] true).wav.reqs = some urgent2 ∧ (s [] true).convOff = false ∧
    ({ s [] true with ready := 0 } : State).convOff = true ∧ (s [] true).wav.cfg ≠ none ∧
    (s [] true).wav.spareFree = true ∧ (s [] false).wav.spareFree = false ∧
    (s [] false).streamSlice (urgent2.input / 4) = 0 ∧ ((s [] false).slice 0).jobs = [] ∧
    (let x := s [.stream (hold9 0)] false
     let a := adcEdge (max (hold9 0).hold (x.slice 0).freeAt)
     (x.slice 0).jobs = [.stream (hold9 0)] ∧ a ≤ x.tk.now * 256 ∧ x.tk.now * 256 < a + convTime) ∧
    (let x := s [.urgent urgent2] false
     (x.slice 0).jobs = [.urgent urgent2] ∧
      x.tk.now * 256 < adcEdge (max (urgent2.hold * 256) (x.slice 0).freeAt) + convTime) :=
  ⟨no_pend _ rfl, by decide +kernel⟩

/-- An open-wire test with an input still to be read, with its reading, and with a sample of it that still converts. -/
theorem wit_AnalogKept :
    let s := sampling Conv.reset
    let o (sums : List (Nat × Int × Nat)) : OpenWire := ⟨4, 0, 100, true, 4000000, sums, []⟩
    s.convOff = false ∧ s.analogOut = false ∧ s.pwr.pll[5] = .good ∧ s.wav.halted = false ∧ s.wav.refOn = true ∧
    s.wav.cfg ≠ none ∧
    ({ s with err := { s.err with isolated := 0x20, restarting := 0x20 } } : State).err.restarting.getLsbD 5 = true ∧
    s.phaseHolds (o []) = false ∧
    (holding [.stream { hold9 0 with hold := 4160000 * 256 }]).phaseHolds (o []) = true ∧
    (o []).unread ≠ [] ∧ (o [(2, 5, 1)]).unread = [] ∧ (o [(2, 5, 1)]).down = true ∧
    (rig.wav.inputs[(3 : Fin 64)]).holdoff = none ∧
    ({ rig.wav.inputs[(3 : Fin 64)] with holdoff := some 9 } : Input).holdoff = some 9 := by decide +kernel

/-- A full block with room in the queue, with the queue full, in an outage, and one that waits for the history. -/
theorem wit_BlocksReachReaders :
    (let s := sampling fullConv
     s.wav.cfg = some convC ∧ bitOf convC.activeMask 0 = true ∧
      s.wav.conv[(0 : Fin 16)].full s.wav.conv[(0 : Fin 16)].seq = true ∧ s.analogOut = false ∧
      s.wav.outage.on = false ∧ s.wav.conv[(0 : Fin 16)].queue.length < 30 ∧ bitOf (convC.ent 0).readers 0 = false ∧
      s.wav.conv[(1 : Fin 16)].full s.wav.conv[(1 : Fin 16)].seq = false) ∧
    30 ≤ (sampling { fullConv with queue := List.replicate 30 ⟨0, [], false, true, some 5, false⟩ }).wav.conv[(0 : Fin 16)].queue.length ∧
    (let s : State := { sampling fullConv with wav := { (sampling fullConv).wav with outage := ⟨true, 0, 0, [], 0⟩ } }
     s.wav.outage.on = true ∧ convC.outage = true ∧ bitOf convC.outageMask 0 = true ∧ convC.keepFirst = false ∧
      Memory.wf s.mem = true ∧ s.drainsConv 0 = false ∧ bitOf ({ convC with outageMask := 2 } : ConvCfg).outageMask 0 = false) ∧
    (let s : State := { sampling fullConv with err := { rig.err with isolated := 0x20 } }
     s.analogOut = true) := by decide +kernel

theorem wit_BlocksReachReaders_history :
    let b : Block := ⟨3, List.replicate 1088 7, false, false, some 0x1000000, false⟩
    let s : State := sampling { fullConv with queue := [b] }
    ((s.wav.conv[(0 : Fin 16)].queue.find? (·.hist.isSome)) = some b ∧ b.hist = some 0x1000000 ∧ s.wav.outage.on = false ∧
      s.isReady 4 = true ∧ s.edgeOut = false) ∧ s.grants (.history (0 : Fin 16).val) 1088 3 ∧
    placeOf 0x1000000 = .hbm ∧ s.hbmWritable 0x1000000 1088 = true ∧ s.clean :=
  ⟨by decide +kernel, grants_of (by decide +kernel), by decide, by decide +kernel, ⟨rfl, rfl⟩⟩

/-- Window 0 over converter 0, whose blocks 2 and 3 have begun: it ends within block 2, which the write of block 3 leaves
behind, within block 4, which has still to be written, or in none yet begun; the event ring is full. -/
theorem wit_BlocksReachReaders_window :
    let c : ConvCfg := { convC with windows := [⟨1, 1, 0, 0⟩] }
    let b : Block := ⟨3, List.replicate 1088 7, false, false, some 0x1000000, false⟩
    let s : State := { sampling { fullConv with
        queue := [b], histNext := 3, starts := [(5, 5000 * 256), (4, 4000 * 256), (3, 3000 * 256), (2, 2000 * 256)] } with
      host := fullRing.host }
    let v (stop : Nat) : State := { s with wav := { s.wav with
      cfg := some c, windows := s.wav.windows.set 0 (some ⟨2500, stop, 2, 2, false⟩) } }
    let ks := (List.range 16).filter (bitOf (c.win 0).convMask)
    ks = [0] ∧ (v 2900).waveLast ks (2900 * 256) = some 2 ∧ 2 < b.seq + 1 ∧ (v 4900).waveLast ks (4900 * 256) = some 4 ∧
      b.seq + 1 ≤ 4 ∧ (v 5900).waveLast ks (5900 * 256) = none ∧ (v 0).evtRoom = false ∧ (v 0).host.held.length ≤ 4000 ∧
      (v 0).wav.oldWindows = [] ∧ b.old = false := by decide +kernel

/-! ### Witnesses: time, network and Beam -/

/-- Port 0 up, the clock LOCKED to its master, a two-step Sync waiting; event timer 0 periodic and 1 capturing falling
edges; template 0 in its repeats. -/
def netS : State := { rig with net := { rig.net with
  port := rig.net.port.set 0 { rig.net.port[(0 : Fin 2)] with
    mode := 1, up := true, txq := (Vector.replicate 8 []).set 4 [.pdelayReq 254 3] }
  ptp := { rig.net.ptp with state := .locked, slave := some 0, master := some 9, syncWait := some (0, 9, 5, 4000000, 0) }
  et := (rig.net.et.set 0 ⟨1, 3, 100, 5000000, 256000, 2, none⟩).set 1 ⟨3, 5, 0, 0, 0, 0, some 1000⟩
  tmpl := rig.net.tmpl.set 0 (some ⟨1, 5, 2, false, false, 0, 0, [], [1000, 2000], List.replicate 64 1, [], none,
    some ⟨4000000, 2, []⟩, 1, 0, [], false⟩) } }

/-- The headers of a PTP frame and of a Beam frame for port 0, and of another frame. -/
def ptpEth : Eth := ⟨beBytes 6 0x011B19000000, none, 0x88F7⟩
def beamEth : Eth := ⟨zeroBytes 6, some 0, 0x88B5⟩

/-- A grandmaster. -/
def gm1 : Announce := ⟨1, 6, 0x21, 0, 1, 77, 0, none⟩

theorem wit_ClockServo : netS.portHears 0 = true ∧ netS.portHears 1 = false ∧ netS.ptpClass 0 ptpEth = true ∧
    netS.ptpClass 0 beamEth = false ∧ netS.net.ptp.domain ≠ 0 ∧ netS.net.ptp.slave = some (0 : Fin 2).val ∧
    netS.net.ptp.master = some 9 ∧ netS.net.ptp.syncWait = some ((0 : Fin 2).val, 9, 5, 4000000, 0) ∧
    netS.net.ptp.state = .locked ∧ (netS.updPtp (fun p => { p with state := .holdover })).net.ptp.state = .holdover := by
  decide +kernel

/-- An exchange under way, with a two-step answer that waits; offsets within and beyond 1 ms. -/
theorem wit_ClockServo_delay :
    let p : Ptp := { netS.net.ptp with
      reqAt := netS.net.ptp.reqAt.set 0 (some (3, 4000000)), respWait := netS.net.ptp.respWait.set 0 (some (3, 4000900, 500)) }
    p.reqAt[(0 : Fin 2)] = some (3, 4000000) ∧ p.respWait[(0 : Fin 2)] = some (3, 4000900, 500) ∧ 500 ≤ 600 ∧
      (1000000 : Int).natAbs ≤ 1000000 ∧ 1000000 < (1000001 : Int).natAbs ∧ netS.runningImage = none := by decide +kernel

/-- The silent master leaves no other, and one on the other port. -/
theorem wit_ClockServo_silent :
    let p : Ptp := { netS.net.ptp with masters := netS.net.ptp.masters.set 1 [(8, gm1)] }
    netS.net.ptp.best = none ∧ p.best = some (1, 8, gm1) := by decide +kernel

theorem wit_NetworkRuns_ports : netS.net.port[(0 : Fin 2)].up = true ∧ netS.edgeOut = false ∧
    netS.net.port[(0 : Fin 2)].txq[(4 : Fin 8)] = [.pdelayReq 254 3] ∧
    (∀ r : Fin 8, 4 < r → netS.net.port[(0 : Fin 2)].txq[r] = []) ∧ netS.net.port[(0 : Fin 2)].mode ≠ 0 ∧
    netS.pwr.shed ≠ 3 ∧ netS.pwr.pll[7] = .good := by decide

/-- A frame of template 0, the first one sent of a transmission, and a two-step answer, at the head of a queue. -/
theorem wit_NetworkRuns_frames :
    let q (f : Frame) : State := { netS with net := { netS.net with port := netS.net.port.set 0 {
      netS.net.port[(0 : Fin 2)] with txq := (Vector.replicate 8 []).set 2 [f] } } }
    let x (s : State) : Bool := match s.net.tmpl[fin32 0] with
      | some x => x.waiting.isEmpty
      | none => false
    (q (.template 0 false [1])).net.port[(0 : Fin 2)].txq[(2 : Fin 8)] = [.template 0 false [1]] ∧
      x (q (.template 0 false [1])) = true ∧
      (q (.pdelayResp 0 3 4000000 false 0)).net.port[(0 : Fin 2)].txq[(2 : Fin 8)] = [.pdelayResp 0 3 4000000 false 0] ∧
      (2 : Fin 8) ≠ 6 := by decide +kernel

theorem wit_NetworkRuns_timers : netS.net.et[(0 : Fin 8)].mode = 1 ∧ netS.net.et[(1 : Fin 8)].mode = 3 ∧
    netS.pwr.sleep ≠ 3 ∧ (pw (fun p => { p with phase := .asleep 3 })).pwr.sleep = 3 ∧
    bitOf netS.net.et[(1 : Fin 8)].pin 0 = true ∧ bitOf netS.net.et[(0 : Fin 8)].pin 0 = true ∧
    bitsOf netS.net.et[(1 : Fin 8)].pin 2 2 = 1 ∧ netS.net.et[(1 : Fin 8)].last = some 1000 ∧
    1000 + 400 ≤ netS.tk.now / 4 * 4 ∧
    (match netS.net.tmpl[(0 : Fin 32)] with
      | some x => x.firing.isSome && x.waiting.isEmpty && x.inQueue == 0 && decide (1 ≤ x.sent) && decide (x.sent ≤ x.repeats)
      | none => false) = true ∧
    netS.ap.sealed = false := by decide +kernel

/-- A peer, device 1 of four. -/
def peer1 : Peer := ⟨1, [0, 1, 2, 3, 4, 5], 0, 1, true, 0, 6, 20, 30,
  [⟨⟨1, 3, 0, 0, 1, 0, 19, 30, 0, 0, 0, 0⟩, [], some (.windowOpen 2 4096), none⟩], [], 200, 2⟩

/-- The root of a tree of four with peer 1 up, a receive window 2 from it into HBM, a send window 3 to it. -/
def beamS (p : Peer) : State := { netS with beam := { netS.beam with
  n := 4, index := 0, ethertype := 0x88B5, peers := [p], rx := netS.beam.rx.set 2 (some ⟨1, .hbm 0x2000000 65536, 16, 1, 0, none⟩)
  tx := netS.beam.tx.set 3 (some ⟨1, 5, false, 0, 0, 0⟩)
  ops := [⟨0, 77, 0, 0, true, true, [], 0, 0, false, 6000000, 0, 0⟩] } }

/-- A header from peer 1. -/
def hdr1 (kind flags seq ack off len plen : Nat) : BeamHdr := ⟨1, kind, flags, 1, 0, 2, seq, ack, off, len, 0, plen⟩
def hdrB (kind flags seq ack off len plen : Nat) : List Byte := hdrBytes (hdr1 kind flags seq ack off len plen)

/-- DATA of a whole message within the credit, DATA out of sequence, and CONTROL; a reserved byte that is not 0, and a
frame for another device. -/
theorem wit_BeamFramesInSequence : (beamS peer1).portHears 0 = true ∧ (beamS peer1).beamClass 0 beamEth = true ∧
    (beamS peer1).beamClass 0 ptpEth = false ∧ beamHdrOf (hdrB 0 3 30 20 128 64 64) = hdr1 0 3 30 20 128 64 64 ∧
    beamHdrOf (hdrB 0 3 31 20 128 64 64) = hdr1 0 3 31 20 128 64 64 ∧ (beamS peer1).beam.peer 1 = some peer1 ∧
    peer1.up = true ∧ (beamS peer1).beamOk 0 (hdrB 0 3 30 20 128 64 64) = true ∧
    (beamS peer1).beamOk 0 ((hdrB 0 3 30 20 128 64 64).set 7 1) = false ∧
    (hdr1 0 3 30 20 128 64 64).seq = peer1.rxSeq ∧ (hdr1 0 3 31 20 128 64 64).seq ≠ peer1.rxSeq ∧
    bitOf (hdr1 0 3 30 20 128 64 64).flags 0 = true ∧ bitOf (hdr1 0 3 30 20 128 64 64).flags 1 = true ∧
    (beamS peer1).beam.rx[fin16 2] = some ⟨1, .hbm 0x2000000 65536, 16, 1, 0, none⟩ ∧ 1 + creditUnits 64 ≤ 16 ∧
    128 + 64 ≤ 65536 ∧ placeOf (0x2000000 + 128) = .hbm ∧ (beamS peer1).beamOk 3 (hdrB 3 0 30 20 0 0 0) = true ∧
    (beamS peer1).beamOk 3 (hdrB 0 3 30 20 128 64 64) = false ∧ (beamS peer1).hbm.stalled = [] ∧
    SMap.wf 0 (beamS peer1).cnt = true ∧ (hdr1 0 3 30 20 128 64 64).frag = 0 ∧
    seqBefore (hdr1 0 3 29 20 128 64 64).seq peer1.rxSeq = true := by decide +kernel

theorem wit_BeamFramesInSequence_grants : (beamS peer1).grants .beam 64 3 ∧ (beamS peer1).clean ∧
    (beamS peer1).hbmWritable (0x2000000 + 128) 64 = true ∧
    (∀ i < 64, ¬ (beamS peer1).recordByte (0x2000000 + 128 + i)) := by
  refine ⟨grants_of (by decide +kernel), ⟨rfl, rfl⟩, by decide +kernel, fun i _ h => ?_⟩
  rcases h with h | ⟨i, _, h⟩
  · have : 0x2000000 + 128 + 64 ≤ journalBase := by decide
    omega
  · have e : (beamS peer1).evtSlot i = 0x800000001000 + i * 64 := rfl
    omega

theorem wit_BeamKeepsPeers_frames :
    (beamS peer1).beamOk 1 (hdrB 1 0 0 20 0 0 0) = true ∧ peer1.waiting = [] ∧
    peer1.unacked.any (fun f => seqBefore f.hdr.seq (beamHdrOf (hdrB 1 0 0 20 0 0 0)).ack) = true ∧
    (beamS peer1).beamOk 2 (hdrB 2 0 0 20 32 0 0) = true ∧ (beamS peer1).beamOk 4 (hdrB 4 0 0 20 7 0 0) = true ∧
    seqBefore (hdr1 4 0 0 20 7 0 0).off peer1.epoch = false ∧ seqBefore peer1.epoch (hdr1 4 0 0 20 7 0 0).off = true ∧
    beamHdrOf (hdrB 4 0 0 20 7 0 0) = hdr1 4 0 0 20 7 0 0 ∧ beamHdrOf (hdrB 4 0 0 20 6 0 0) = hdr1 4 0 0 20 6 0 0 ∧
    (beamS { peer1 with up := false }).beam.peer 1 = some { peer1 with up := false } ∧
    (hdr1 4 0 0 20 6 0 0).off = peer1.epoch ∧ ({ peer1 with unacked := [] } : Peer).unacked = [] := by decide +kernel

theorem wit_BeamKeepsPeers_timers :
    (∀ p ∈ (beamS peer1).beam.peers, (beamS peer1).beam.peer p.index = some p ∧
      (beamS peer1).portHears (fin2 p.port) = true) ∧
    (beamS peer1).beam.rx[(2 : Fin 16)] = some ⟨1, .hbm 0x2000000 65536, 16, 1, 0, none⟩ ∧
    (beamS peer1).beam.peer (1 : Byte).toNat = some peer1 ∧ peer1.up = true ∧ peer1.unacked ≠ [] ∧ peer1.expiries < 7 ∧
    (beamS { peer1 with expiries := 7 }).beam.peer (1 : Byte).toNat = some { peer1 with expiries := 7 } ∧
    (beamS { peer1 with up := false }).beam.peer (1 : Byte).toNat = some { peer1 with up := false } ∧
    ((beamS peer1).beam.ops.find? (fun o => o.kind == (0 : Fin 2).val && o.deadline != 0)).isSome = true := by
  decide +kernel

/-! ### Witnesses: host commands -/

theorem takes_of {s : State} {d : Desc} (h : (s.canSubmit = true ∧ s.serving = true ∧ s.host.cmdGet = s.host.cmdPut) ∧
    (s.offered d).refuseDesc d (descBytes d) = 0 ∧ (s.host.fg = none ∧ s.host.deferred = []) ∧ s.host.bg = []) :
    s.Takes d :=
  { room := h.1.1, serving := h.1.2.1, level := h.1.2.2, passes := h.2.1, free := fun _ => h.2.2.1
    fresh := by rw [h.2.2.2]; intro b hb; cases hb }

/-- SET_PARAMS of a set with inline bytes. -/
def setD (set len : Half) (inl : List Byte) : Desc := ⟨.setParams set len (fitBytes 48 inl), 0, 7⟩

/-- An image of hyperperiod 4 at 600 ticks a second with the given templates. -/
def imageT (ts : List Tmpl) : Image := ⟨0x8000000, 8192, 3, false, 600, 4, 2, [], 0, 1, 1, List.replicate 32 0, [], [], [],
  [], [], [], [], ⟨0, 0, 0, 0⟩, [], ts, none, none⟩

/-- A template that is preloaded. -/
def preT : Tmpl := ⟨⟨2 ^ 31, 0x100000, 0x200000, 128, 0, 0⟩, 4, 2, 0xFFFF, 0xFFFF⟩

/-- `rig` with an image staged, active, or active and running. -/
def stagedS (im : Image) : State := { rig with sched := { rig.sched with staged := some im } }
def activeS (im : Image) : State := { rig with sched := { rig.sched with active := some im } }
def runS (im : Image) : State := { rig with sched := { rig.sched with active := some im, running := true } }

/-- One that passes, and one whose SEQUENCE is not the next. -/
theorem wit_HostCommandsTaken : rig.Open ∧ hostDesc (.stop 0 7) = some ⟨.stop, 0, 7⟩ ∧
    (rig.offered ⟨.stop, 0, 7⟩).refuseDesc ⟨.stop, 0, 7⟩ (descBytes ⟨.stop, 0, 7⟩) = 0 ∧
    (rig.offered ⟨.stop, 0, 8⟩).refuseDesc ⟨.stop, 0, 8⟩ (descBytes ⟨.stop, 0, 8⟩) = 2 :=
  ⟨⟨by decide, by decide, by decide⟩, rfl, by decide +kernel, by decide +kernel⟩

theorem wit_CommandsJournalled :
    let s : State := { rig with jnl := { rig.jnl with mirrorJ := 1, head := 3, ringFrom := 0, mirrorNext := 1 } }
    s.jnl.mirrorJ = 1 ∧ s.isReady 4 = true ∧ s.jnl.mirrorNext ≤ s.jnl.head ∧ s.jnl.ringFrom ≤ s.jnl.head ∧
      s.jnl.head ≤ s.jnl.ringFrom + 16384 ∧ Memory.wf s.mem = true ∧ rig.jnl.mirrorJ = 0 := by decide

/-- The sets of the control side. -/
def chainB : List Byte := [6, 0, 0, 0, 0, 0, 0, 0] ++ leBytes 8 0x810000000000
def dataB : List Byte := leBytes 8 0x820000000000 ++ leBytes 4 4096 ++ zeroBytes 4
def etB : List Byte := [0, 1, 0, 0, 0, 0, 0, 0] ++ leBytes 8 6000000 ++ leBytes 8 256000
def beamB : List Byte := [2, 0, 0, 0, 0, 0, 4, 4, 1, 0, 0, 0, 0, 0, 0, 0, 1, 0, 1, 0, 2, 0, 0, 0, 0, 1, 0, 0, 0, 0, 0, 0]

theorem wit_ControlParameterSets :
    rig.Takes (setD 1 16 chainB) ∧ rig.Takes (setD 2 8 [1]) ∧ rig.Takes (setD 3 16 dataB) ∧
    rig.Takes (setD 0x20 8 [0, 1, 0xFF, 0x0F]) ∧ rig.Takes (setD 0x21 8 [254, 1, 10]) ∧ rig.Takes (setD 0x22 24 etB) ∧
    rig.Takes (setD 0x23 32 beamB) :=
  ⟨takes_of (by decide +kernel), takes_of (by decide +kernel), takes_of (by decide +kernel), takes_of (by decide +kernel),
    takes_of (by decide +kernel), takes_of (by decide +kernel), takes_of (by decide +kernel)⟩

theorem wit_ControlParameterSets_values :
    (byteAt chainB 0 = 6 ∧ allZero ((chainB.drop 1).take 7) = true ∧ (rig.chan 4 (fin8 6)).phase = .idle) ∧
    (fieldLe dataB 8 4 % 4096 = 0 ∧ fieldLe dataB 0 8 % 4096 = 0 ∧ allZero (dataB.drop 12) = true ∧
      hostBase ≤ fieldLe dataB 0 8 ∧ fieldLe dataB 0 8 + fieldLe dataB 8 4 ≤ 0x1000000000000) ∧
    fieldLe ([0, 1, 0xFF, 0x0F] : List Byte) 2 2 = 0xFFF ∧ fieldLe ([254, 1, 10] : List Byte) 2 2 = 10 ∧
    rig.engineOut 4 = false ∧ ({ rig with err := { rig.err with isolated := 0x40 } } : State).engineOut 4 = true ∧
    (rig.setEtSet etB).1 = 0 ∧ setLength 0x23 beamB = some 32 ∧ (rig.setBeamSystem beamB).1 = 0 := by decide +kernel

/-- The sets of the waveform inputs and a parameter set of the sensor. -/
def calB : List Byte := leBytes 8 4 ++ leBytes 4 5 ++ leBytes 4 0x400000
def wireB : List Byte := leBytes 8 4 ++ [1, 0, 0, 0] ++ leBytes 4 100
def sensorB : List Byte := zeroBytes 8 ++ leBytes 2 1 ++ leBytes 2 1 ++ leBytes 4 100 ++ zeroBytes 16

theorem wit_InputParameterSets :
    rig.Takes (setD 0x10 8 [1]) ∧ rig.Takes (setD 0x10 8 [0]) ∧
    (sampling Conv.reset).Takes (setD 0x11 8 (leBytes 4 256000)) ∧ (sampling Conv.reset).Takes (setD 0x12 16 calB) ∧
    rig.Takes (setD 0x13 16 wireB) ∧
    ({ filming with sched := { rig.sched with active := some (imageT []), running := true } } : State).Takes
      ⟨.setSensor sensorB, 0, 7⟩ :=
  ⟨takes_of (by decide +kernel), takes_of (by decide +kernel), takes_of (by decide +kernel), takes_of (by decide +kernel),
    takes_of (by decide +kernel), takes_of (by decide +kernel)⟩

theorem wit_InputParameterSets_pend : (∀ k : Fin 16, rig.wav.conv[k].pend = []) ∧
    (∀ k : Fin 16, (sampling Conv.reset).wav.conv[k].pend = []) ∧ filming.wav = rig.wav :=
  ⟨by decide, no_pend _ rfl, rfl⟩

/-- A target in time, and one that comes too late. -/
theorem wit_InputParameterSets_time : filming.tk.now + 200000 ≤ filming.tickTime (60 - 1 * objC.frameTicks) ∧
    ¬ filming.tk.now + 200000 ≤ filming.tickTime (20 - 1 * objC.frameTicks) := by decide +kernel

theorem wit_InputParameterSets_values :
    rig.convRunning = false ∧ (sampling Conv.reset).wav.cfg = some convC ∧ convC.source = 0 ∧ rig.analogOut = false ∧
    ({ rig with err := { rig.err with isolated := 0x20 } } : State).analogOut = true ∧
    ({ rig with err := { rig.err with isolated := 0x10 } } : State).err.isolated.getLsbD 4 = true ∧
    (∀ k < 16, 256000 * (convC.ent k).div < 2 ^ 32) ∧
    waveCalLen calB = 16 ∧ maskInputs (fieldLe calB 0 8) = [2] ∧ -131072 ≤ fieldI32 calB 8 ∧ fieldI32 calB 8 ≤ 131071 ∧
    fieldLe calB 12 4 ≤ 0xFFFFFF ∧ byteAt wireB 8 ≤ 1 ∧ allZero ((wireB.drop 9).take 3) = true ∧
    rig.wav.openWire = none ∧
    (let s : State := { filming with sched := { rig.sched with active := some (imageT []), running := true } }
     s.img.cfg = some objC ∧ (s.setSensorSet s.tk.now sensorB).1 = 0) := by decide +kernel

theorem wit_WindowsOpenAndClose :
    (beamS peer1).Takes ⟨.openWindow 0 1 1 1 0 0 0x3000000 65536, 0, 7⟩ ∧
    (beamS peer1).Takes ⟨.openWindow 1 1 1 5 0 0 0 0, 0, 7⟩ ∧ (beamS peer1).Takes ⟨.closeWindow 0 2, 0, 7⟩ ∧
    (beamS peer1).Takes ⟨.closeWindow 1 3, 0, 7⟩ :=
  ⟨takes_of (by decide +kernel), takes_of (by decide +kernel), takes_of (by decide +kernel), takes_of (by decide +kernel)⟩

/-- A peer that a frame may be queued to, and a transfer that sends to window 5 of it. -/
theorem wit_WindowsOpenAndClose_sends : peer1.up = true ∧ peer1.unacked.length < 64 ∧ peer1.waiting = [] ∧
    (let s := onChan (beamS peer1) { copying with desc := ⟨2 ^ 31, 0x100000, 0x10150000000, 128, 0, 0⟩ }
     (s.chan 4 6).desc.sendsTo 1 (some 5) = true ∧ (s.chan 4 6).phase = .running ∧ (s.chan 4 6).stop = none) := by decide +kernel

theorem wit_WindowsOpenAndClose_values : (beamS peer1).beam.n ≠ 0 ∧ (beamS peer1).beam.rx[(1 : Fin 16)] = none ∧
    (beamS peer1).beam.tx[(1 : Fin 16)] = none ∧ ((beamS peer1).beam.peer 1).isSome = true ∧
    (beamS peer1).rxRangeOk 0x3000000 65536 = true ∧ (beamS peer1).beam.rx[(2 : Fin 16)].isSome = true ∧
    (beamS peer1).beam.tx[(3 : Fin 16)] = some ⟨1, 5, false, 0, 0, 0⟩ := by decide +kernel

theorem wit_ControlCommands :
    (stagedS (imageT [])).Takes ⟨.start 8, 0, 7⟩ ∧ (stagedS (imageT [preT])).Takes ⟨.start 0, 0, 7⟩ ∧
    (activeS (imageT [])).Takes ⟨.stop, 0, 7⟩ ∧ rig.Takes ⟨.snapshot 9, 0, 7⟩ ∧
    (onChan rig copying).Takes ⟨.dmaAbort 4 6, 0, 7⟩ ∧ rig.Takes ⟨.dmaAbort 4 6, 0, 7⟩ ∧ rig.Takes ⟨.regionRestart 1, 0, 7⟩ :=
  ⟨takes_of (by decide +kernel), takes_of (by decide +kernel), takes_of (by decide +kernel), takes_of (by decide +kernel),
    takes_of (by decide +kernel), takes_of (by decide +kernel), takes_of (by decide +kernel)⟩

theorem wit_ControlCommands_values :
    (stagedS (imageT [])).refuseStart false 3 8 = 0 ∧ (stagedS (imageT [])).startImage = some (true, imageT []) ∧
    (imageT []).preloads = [] ∧ (stagedS (imageT [preT])).refuseStart false 3 0 = 0 ∧ (imageT [preT]).preloads = [0] ∧
    (activeS (imageT [])).sched.active.isSome = true ∧ rig.tk.tick + 2 ≤ 9 ∧ rig.snapPending = false ∧
    0 < (stagedS (imageT [])).startStep (imageT []) ∧ (stagedS (imageT [])).sched.start = none ∧
    (∃ p : StartPend, p.fixed = true ∧ p.acc ≠ none) ∧
    (onChan rig copying).mayEnd (fin5 4) (fin8 6) = true ∧
    (let f : BeamFrame := ⟨⟨1, 0, 0, 0, 1, 3, 0, 0, 0, 64, 0, 64⟩, List.replicate 64 0, none, some (chanNo 4 6)⟩
     let s : State := { onChan rig copying with beam := { rig.beam with
       peers := [⟨1, [], 0, 1, true, 0, 6, 20, 30, [f], [], 200, 0⟩] } }
     s.mayEnd (fin5 4) (fin8 6) = false) :=
  ⟨by decide +kernel, by decide +kernel, by decide +kernel, by decide +kernel, by decide +kernel, by decide +kernel,
    by decide +kernel, by decide +kernel, by decide +kernel, by decide +kernel,
    ⟨⟨4, true, [], [], false, true, some ⟨⟨.stop, 0, 6⟩, [], 1, 0, 0, [], [], 0⟩⟩, by decide, by decide⟩, by decide +kernel,
    by decide +kernel⟩

/-- `rig` with an accepted command in the background. -/
def acc (c : Cmd) (data : List Byte) (num : Nat) : Accepted := ⟨⟨c, 0, 6⟩, descBytes ⟨c, 0, 6⟩, 1, 4000000, 2, data, [], num⟩
def bgS (a : Accepted) : State := { rig with host := { rig.host with bg := [a] } }

/-- `rig` with a counter shadow of 2 counters, a journal of three entries and an identity. -/
def bookS : State := { activeS (imageT []) with
  err := { rig.err with shadow := some ⟨3, 4000000, 1, 0, [], 0, 0, [], [], []⟩ }
  jnl := { rig.jnl with head := 3 }
  trust := { rig.trust with identityOk := true } }

theorem wit_BackgroundCommands :
    bookS.Takes ⟨.stats 0x810000000000 0x10000, 0, 7⟩ ∧ bookS.Takes ⟨.readCounters 0x810000000000 0x100000, 0, 7⟩ ∧
    bookS.Takes ⟨.readJournal 0 3 0x810000000000, 0, 7⟩ ∧
    bookS.Takes ⟨.attest (fitBytes 32 []) 0x810000000000 0x4300, 0, 7⟩ ∧ rig.Takes ⟨.loadSchedule 0x8000000 8192, 0, 7⟩ :=
  ⟨takes_of (by decide +kernel), takes_of (by decide +kernel), takes_of (by decide +kernel), takes_of (by decide +kernel),
    takes_of (by decide +kernel)⟩

theorem wit_BackgroundCommands_values : bookS.sched.active = some (imageT []) ∧
    (bookS.figures (imageT [])).length ≤ 0x10000 ∧
    bookS.dstOk 0x810000000000 (bookS.figures (imageT [])).length = true ∧
    (bookS.err.shadow.map (fun h => decide (h.dump.length ≤ 0x100000) && bookS.dstOk 0x810000000000 h.dump.length)) =
      some true ∧
    bookS.jnl.ringFrom ≤ 0 ∧ 0 + 3 ≤ bookS.jnl.head ∧ bookS.dstOk 0x810000000000 (64 * 3) = true ∧
    bookS.dstOk 0x810000000000 0x4300 = true ∧ bookS.identityLost = false ∧ rig.loadBusy = false ∧
    (∀ i < 3, bookS.plainRange (journalBase + (0 + i) % 16384 * 64) 64 = true) ∧ bookS.certBytes false = [] := by
  decide +kernel

theorem wit_BackgroundCommands_end :
    (let a := acc (.loadSchedule 0x8000000 8192) [] 0
     (bgS a).bgOf 0x01 = some a ∧ (bgS a).imageRangeOk 0x8000000 8192 = true) ∧
    (let a := acc (.stats 0x810000000000 64) (List.replicate 64 5) 0
     (bgS a).bgOf (4 : Half).toNat = some a ∧ a.data ≠ [] ∧ (bgS a).classPasses .status a.data.length = true ∧
      (bgS a).dstOk 0x810000000000 a.data.length = true ∧ a.bads = [] ∧
      (let s : State := { bgS a with jnl := { rig.jnl with mirrorJ := 1 } }
       s.dstOk (hbmSize - 64) a.data.length = false) ∧
      placeOf 0x810000000000 = .host ∧ 0x810000000000 % 32 = 0 ∧ a.data.length % 32 = 0) ∧
    (let a := acc (.attest [] 0x810000000000 0x4300) [] 0
     (bgS a).bgOf 0x0D = some a ∧ (bgS a).dstOk 0x810000000000 0x4300 = true ∧ (bgS a).classPasses .status 0x4300 = true) ∧
    (let s : State := { rig with trust := { rig.trust with update := some (acc (.updateFirmware 0 0) [1] 0) } }
     s.trust.update = some (acc (.updateFirmware 0 0) [1] 0) ∧ SMap.wf 0xFF s.trust.flash = true) := by decide +kernel

/-- A container that fails its checks. The clauses of an accepted one rest on a signature that Config leaves open. -/
theorem wit_ContainersChecked :
    rig.Takes ⟨.enroll 0x8000000 1024 1, 0, 7⟩ ∧ rig.Takes ⟨.setTemplate 1 0x8000000 1024, 0, 7⟩ ∧
    rig.Takes ⟨.calibrationLoad 0x8000000 1024, 0, 7⟩ ∧ rig.Takes ⟨.setPolicy 0x8000000 1024, 0, 7⟩ :=
  ⟨takes_of (by decide +kernel), takes_of (by decide +kernel), takes_of (by decide +kernel), takes_of (by decide +kernel)⟩

theorem wit_ContainersChecked_end :
    let a := acc (.setPolicy 0x8000000 64) [] 0
    let s : State := { rig with trust := { rig.trust with checks := [a] } }
    let w := State.readControl { s with trust := { s.trust with checks := [] } } 0x8000000 64
    s.trust.checks = [a] ∧ w.2.checkContainer a.desc.cmd a.num w.1 ≠ 0 ∧ s.sched.start = none ∧ s.host.deferred = [] := by
  decide +kernel

/-- `rig` with a fuse grant of regions 1 and 10, and firmware that waits in slot 1. -/
def grantS : State := { rig with trust := { rig.trust with grant := 0x402, pending := some 1 } }

theorem wit_FuseAndFirmwareCommands :
    grantS.Takes ⟨.fuseProgram 10 0 1 5, 0, 7⟩ ∧ grantS.Takes ⟨.fuseSeal 10, 0, 7⟩ ∧ grantS.Takes ⟨.fuseLock 10 1, 0, 7⟩ ∧
    rig.Takes ⟨.updateFirmware 0x8000000 0x5000, 0, 7⟩ ∧ grantS.Takes ⟨.activateFirmware 1, 0, 7⟩ :=
  ⟨takes_of (by decide +kernel), takes_of (by decide +kernel), takes_of (by decide +kernel), takes_of (by decide +kernel),
    takes_of (by decide +kernel)⟩

theorem wit_FuseAndFirmwareCommands_values : grantS.granted 10 = true ∧ grantS.fuse.op = none ∧
    programArgsOk 10 0 5 = true ∧ grantS.writeLocked 10 = false ∧ grantS.regionState 10 = 0 ∧
    grantS.fuseReady false = true ∧ grantS.fuse.needed (grantS.fuse.wordBits (32 * 10) 5) ≠ [] ∧
    sealable 10 = true ∧ grantS.freshMarginal 10 = false ∧ grantS.fuseReady grantS.fuse.vpp = true ∧
    grantS.fuse.needed (grantS.fuse.wordBits (32 * 10 + 31) (grantS.freshSeal 10)) ≠ [] ∧
    lockable 10 1 = true ∧ bitOf (grantS.shadowWord 1) (16 + 10) = false ∧
    grantS.fuse.needed (grantS.fuse.logicalBits 0 1 (2 ^ (16 + 10))) ≠ [] ∧
    (let s : State := { grantS with fuse := { grantS.fuse with shadow := [(0, 3), (1, 2 ^ (16 + 10))] } }
     bitOf (s.shadowWord 1) (16 + 10) = true ∧ s.fuse.op = none ∧ s.granted 10 = true) ∧
    (let s : State := { grantS with pwr := { rig.pwr with shed := 1 } }
     s.fuseReady s.fuse.vpp = false) ∧
    grantS.trust.pending = some 1 ∧ grantS.pwr.shed = 0 := by decide +kernel

theorem wit_FuseProgrammingEnds :
    let op : FuseOp := ⟨.program (acc (.fuseProgram 10 0 1 5) [] 0), [20480, 20482], [], false, 0, false⟩
    let s : State := { rig with fuse := { rig.fuse with op := some op } }
    s.fuse.op = some op ∧ s.fuse.waiting = [] ∧ s.fuseReady op.external = true ∧ SMap.wf 0 s.fuse.firm = true ∧
      SMap.wf 0 s.fuse.marg = true ∧ op.job.acc.isSome = true ∧ op.cut = false ∧ op.steps = [] := by
  decide +kernel

theorem wit_FuseProgrammingEnds_quiet : rig.quiet := ⟨rfl, rfl⟩

/-- A first step with another behind it, whose outcomes verify or not, and an operation cut short after one bit. -/
theorem wit_FuseProgrammingEnds_steps :
    let op (cut : Bool) : FuseOp :=
      ⟨.transition (acc (.setPolicy 0 0) [] 0) 3, [20480, 20482], [[20484]], false, 0, cut⟩
    let s : State := { rig with fuse := { rig.fuse with op := some (op false) } }
    (op false).cut = false ∧ (op false).steps = [20484] :: [] ∧ (∀ i < 2, (([(20480, 0), (20482, 0)] : List (Nat × Nat)).getD i (1, 0)).2 = 0) ∧
      (s.fuse.needed [20484]).filter (fun p => !(op false).todo.contains p) ≠ [] ∧
      (([(20480, 0), (20482, 1)] : List (Nat × Nat)).getD 1 (1, 0)).2 ≠ 0 ∧
      (∀ k < 2, (op false).todo.getD k 0 = (op false).todo.getD 1 0 → k = 1) ∧
      (∀ p ∈ (op false).todo, s.fuse.isFirm p = false) ∧ (op true).cut = true ∧
      min ([(20480, 0)] : List (Nat × Nat)).length (op true).todo.length = 1 ∧ s.lifecycle ≠ 4 := by decide +kernel

/-- The root of a tree of two with no operation, and one below the root. -/
def treeS (n index : Nat) (kid : Peer) : State := { netS with beam := { netS.beam with
  n := n, index := index, peers := [kid], tx := netS.beam.tx.set 3 (some ⟨1, 5, true, 65536, 16, 0⟩)
  rx := netS.beam.rx.set 2 (some ⟨0, .hbm 0x2000000 65536, 16, 0, 0, none⟩) } }

/-- GLOBAL_OP of a kind. -/
def gop (kind : Byte) (tick : DWord) (arg : Word) (src : DWord) (n : Word) : Desc :=
  ⟨.globalOp kind 2 77 tick arg 5 src n, 0, 7⟩

theorem wit_GlobalOperations :
    (treeS 2 0 peer1).Takes (gop 0 0 0 0 0) ∧ (treeS 2 0 peer1).Takes (gop 1 0 0 0x4000000 128) ∧
    (treeS 2 1 { peer1 with index := 0 }).Takes (gop 1 0 0 0 128) ∧ (treeS 2 0 peer1).Takes (gop 2 600 0 0 0) ∧
    (treeS 2 0 peer1).Takes (gop 5 600 1 0 0) :=
  ⟨takes_of (by decide +kernel), takes_of (by decide +kernel), takes_of (by decide +kernel), takes_of (by decide +kernel),
    takes_of (by decide +kernel)⟩

theorem wit_GlobalOperations_values :
    (let s := treeS 2 0 peer1
     (s.begun (gop 0 0 0 0 0)).refuseGlobal 0 77 0 0 2 0 0 = 0 ∧ s.beam.kids = [1] ∧
      (s.begun (gop 1 0 0 0x4000000 128)).refuseGlobal 1 77 0 0 2 0x4000000 128 = 0 ∧
      (s.begun (gop 2 600 0 0 0)).refuseGlobal 2 77 600 0 2 0 0 = 0 ∧
      (s.begun (gop 5 600 1 0 0)).refuseGlobal 5 77 600 1 2 0 0 = 0 ∧
      (((s.begun (gop 2 600 0 0 0)).completeLater (s.accepted (gop 2 600 0 0 0)) 0 [] []).mayArm 2 600 0) = true) ∧
    (let s := treeS 2 1 { peer1 with index := 0 }
     (s.begun (gop 1 0 0 0 128)).refuseGlobal 1 77 0 0 2 0 128 = 0 ∧ s.beam.kids = [] ∧ s.beam.index ≠ 0) := by
  decide +kernel

/-- A START that arms beside one that is fixed, and one that arms alone. -/
theorem wit_GlobalOperations_start :
    let s : State := { treeS 2 0 peer1 with sched := { rig.sched with staged := some (imageT []) } }
    s.Takes (gop 3 600 0 0 0) ∧ (s.begun (gop 3 600 0 0 0)).refuseGlobal 3 77 600 0 2 0 0 = 0 ∧
      (((s.begun (gop 3 600 0 0 0)).completeLater (s.accepted (gop 3 600 0 0 0)) 0 [] []).mayArm 3 600 0) = true ∧
      s.sched.start = none :=
  ⟨takes_of (by decide +kernel), by decide +kernel, by decide +kernel, by decide +kernel⟩

/-- A broadcast that the Aperture passes. -/
theorem wit_GlobalOperations_broadcast :
    let s : State := { treeS 2 0 peer1 with ap := { rig.ap with full := true } }
    s.beam.index = 0 ∧ (s.begun (gop 1 0 0 0x4000000 128)).refuseGlobal 1 77 0 0 2 0x4000000 128 = 0 ∧
      (State.judgeTransfer (s.begun (gop 1 0 0 0x4000000 128)) .beam 0x4000000 128 128).1 = true := by decide +kernel

/-! ### Witnesses: power, clocks, sleep -/

theorem wit_PowerUpAndLoss : State.reset.pwr.phase = .off ∧
    (pw (fun p => { p with phase := .porst })).pwr.phase = .porst ∧
    (match exec (.porstRelease 1 2) (pw (fun p => { p with phase := .porst })) with
      | .next t => t.fuse.startFailure.isNone
      | _ => false) = true ∧
    rig.pwr.phase ≠ .off ∧ rig.pwr.phase ≠ .porst := by decide +kernel

/-- Start-up with a failing fuse read. -/
theorem wit_PowerUpAndLoss_held :
    let s : State := { pw (fun p => { p with phase := .porst }) with
      fuse := { rig.fuse with marg := [(32, 1)] } }
    (match exec (.porstRelease 1 2) s with
      | .next t => t.fuse.startFailure.isSome
      | _ => false) = true := by decide +kernel

theorem wit_FailuresReset :
    (let s := pw (fun p => { p with mainSeen := false })
     s.pwr.enMain = true ∧ s.pwr.mainSeen = false) ∧
    (rig.pwr.enMain = true ∧ rig.pwr.mainSeen = true) ∧ (pw (fun p => { p with enMain := false })).pwr.enMain = false ∧
    rig.pwr.underReset (1 : Fin 5).val 800 = false ∧ (pw (fun p => { p with phase := .held })).alive = false ∧
    rig.pwr.phase ≠ .held ∧
    (500 ≤ maxMv (1 : Fin 5).val ∧ rig.alive = true ∧ rig.pwr.underReset (1 : Fin 5).val 500 = true ∧
      rig.pwr.enCore = true) ∧ maxMv (1 : Fin 5).val < 901 ∧ maxMv (3 : Fin 4).val < 2101 ∧
    (let s := pw (fun p => { p with phase := .held })
     s.pwr.phase = .held ∧ s.pwr.startStatus = 0) := by decide +kernel

theorem wit_FailuresReset_fatal : rig.alive = true ∧ rig.isReady 1 = true ∧ rig.pwr.refStable = true ∧
    rig.refGoodCount 0 = false ∧ (pw (fun p => { p with refBad := 1 })).pwr.refBad ≠ 0 ∧ rig.isReady 3 = true ∧
    rig.pwr.pll[(1 : Fin 9)] = .good ∧ rig.pllInRange 1 0 = false ∧
    1 ≤ (pw (fun p => { p with pllBad := Vector.replicate 9 1 })).pwr.pllBad[(1 : Fin 9)] ∧
    fatalCodes.contains (0x0803 : Half).toNat = true ∧ fatalCodes.contains (0x0001 : Half).toNat = false ∧
    (0x0705 : Nat) ≠ 0x0704 := by decide +kernel

theorem wit_ThermalLimits : (1600 : Int) ≤ 1600 ∧ (1600 : Int) < 1840 ∧ rig.isReady 3 = true ∧ rig.pwr.hotArmed = true ∧
    rig.pwr.phase ≠ .tripped ∧ (1840 : Int) ≤ 1840 ∧ ¬ (1840 : Int) ≤ 1600 ∧ rig.alive = true ∧ (1519 : Int) < 1520 ∧
    (pw (fun p => { p with phase := .tripped })).pwr.phase = .tripped ∧
    (pw (fun p => { p with hotArmed := false })).pwr.hotArmed = false ∧
    ¬ ((1840 : Int) ≤ 1600 ∧ rig.alive = true) := by decide +kernel

theorem wit_WakePins : rig.pwr.pscUp = true ∧ (0x4A : BitVec 7).toNat = 0x4A + rig.pwr.pscAddr ∧
    rig.pwr.wakePin = false ∧ (pw (fun p => { p with wakePin := true })).pwr.wakePin = true ∧
    (pw (fun p => { p with pscUp := false })).pwr.pscUp = false := by decide

/-- REF: a bad window of a stable clock, the fourth good one, one more, the 64th without success. -/
theorem wit_ClocksComeUp_ref :
    let s (good windows : Nat) : State := pw (fun p => { p with
      phase := .starting, refStable := false, refGood := good, refWindows := windows, enCore := false })
    failedState (rig.regionState 7) = false ∧ rig.pwr.enMain = true ∧ rig.isReady 1 = true ∧ rig.alive = true ∧
      rig.pwr.refStable = true ∧ rig.pwr.refBad = 0 ∧ (s 3 9).isReady 1 = true ∧ (s 3 9).alive = true ∧
      (s 3 9).pwr.refStable = false ∧ (s 3 9).refGoodCount 781250 = true ∧ 4 ≤ (s 3 9).pwr.refGood + 1 ∧
      (s 1 9).pwr.refGood + 1 < 4 ∧ (s 1 9).pwr.refWindows + 1 < 64 ∧ 64 ≤ (s 1 63).pwr.refWindows + 1 := by
  decide +kernel

theorem wit_ClocksComeUp_pll :
    let s (k : Nat) : State := pw (fun p => { p with pll := p.pll.set 1 (.judging k) })
    (s 0).pwr.pll[(1 : Fin 9)] = .judging 0 ∧ (∃ n, pllAccepts (1 : Fin 9).val n = true) ∧
      pllAccepts (1 : Fin 9).val 0 = false ∧ 0 + 1 < 64 ∧ (s 63).pwr.pll[(1 : Fin 9)] = .judging 63 ∧ 64 ≤ 63 + 1 ∧
      rig.isReady 3 = true ∧ (∀ d : Fin 9, rig.pwr.pllBad[d] = 0) ∧ rig.pwr.exit ≠ some .clocks ∧
      rig.pwr.exit ≠ some .main :=
  ⟨by decide +kernel, ⟨20480, by decide +kernel⟩, by decide +kernel, by decide, by decide +kernel, by decide,
    by decide +kernel, by decide +kernel, by decide, by decide⟩

theorem wit_CoreSupplyFollows : rig.pwr.enCore = true ∧ rig.pwr.change = none ∧ rig.pwr.exit ≠ some .core ∧
    (pw (fun p => { p with change := some (.up 1 14) })).pwr.change = some (.up 1 14) ∧
    (pw (fun p => { p with change := some (.downWait 14) })).pwr.change = some (.downWait 14) ∧
    (pw (fun p => { p with change := some (.upSettle 1 14) })).pwr.change = some (.upSettle 1 14) ∧
    (pw (fun p => { p with change := some (.downSettle 14) })).pwr.change = some (.downSettle 14) ∧
    (pw (fun p => { p with change := some (.downSettle 14), nextTarget := some 2 })).pwr.nextTarget = some 2 ∧
    (pw (fun p => { p with enCore := false })).pwr.enCore = false ∧
    rig.pwr.nextTarget = none ∧ rig.pwr.pll[2] = .good ∧ rig.pwr.sleep = 0 := by decide +kernel

/-- Values of VIN_SENSE below a warning level, within its hysteresis and above. -/
theorem wit_CoreSupplyFollows_supply :
    899 ≤ maxMv 0 ∧ rig.pwr.underW 0 1 899 false = true ∧ rig.pwr.underW 0 1 905 false = false ∧
    rig.pwr.underW 0 1 905 true = true ∧ rig.pwr.underW 0 1 920 true = false ∧ 920 ≤ maxMv 0 ∧ rig.pwr.sleep ≠ 3 ∧
    (pw (fun p => { p with phase := .asleep 3 })).pwr.sleep = 3 := by decide +kernel

theorem wit_CoreSupplyFails :
    (let s := pw (fun p => { p with pgoodCore := false, change := some (.up 1 14) })
     s.pwr.enCore = true ∧ s.pwr.pgoodCore = false ∧ s.pwr.change = some (.up 1 14) ∧ s.pwr.nextTarget = none) ∧
    (pw (fun p => { p with pgoodCore := false, change := some (.downWait 14), nextTarget := some 2 })).pwr.nextTarget =
      some 2 ∧
    rig.pwr.enCore = true ∧ rig.pwr.pgoodCore = true := by decide +kernel

/-- A fall that waits for its switch while VID_CORE is raised, and no change: PGOOD_CORE low since EN_CORE. -/
theorem wit_CoreSupplyFails_rest :
    (let s := pw (fun p => { p with pgoodCore := false, change := some (.down 2), level := 1, vid := 56 })
     s.pwr.enCore = true ∧ s.pwr.pgoodCore = false ∧ s.pwr.change = some (.down 2) ∧ s.pwr.vid ≠ levelVid s.pwr.level) ∧
    (let s := pw (fun p => { p with pgoodCore := false })
     s.pwr.enCore = true ∧ s.pwr.pgoodCore = false ∧ s.pwr.change = none) := by decide +kernel

/-- Idle long enough for S1, S2 and S3, not idle, and asleep after a wake. -/
theorem wit_SleepEnteredAndLeft :
    let s (ctl : Word) : State := { rig with
      idleNs := 100000000000
      host := { rig.host with sleepCtl := ctl } }
    (rig.pwr.phase = .running ∧ rig.isReady 3 = true) ∧ rig.noteIdle.sleepTarget = 0 ∧
    ((pw (fun p => { p with phase := .held })).pwr.phase ≠ .running ∧
      ∀ k < 4, (pw (fun p => { p with phase := .held })).pwr.phase ≠ .asleep k) ∧ rig.pwr.wakeLatched = false ∧
    (∀ p ∈ [(1, 1), (0x100, 2), (0x10000, 3)], (s p.1).noteIdle.sleepTarget = p.2 ∧ (s p.1).idle = true ∧
      (s p.1).pwr.sleep < p.2 ∧ ((s p.1).gatesFor p.2).gateHeld = false) ∧
    (s 0x100).pwr.saved = none ∧ (s 0x100).sched.start = none := by decide +kernel

theorem wit_SleepEnteredAndLeft_exit :
    let s (n : Nat) : State := { pw (fun p => { p with
      phase := .asleep n, wakeLatched := true
      saved := some ⟨rig.host, 600, 5000000, 0, 5000000, 3, 14, 3⟩ }) with hbm := { rig.hbm with phase := .selfRefresh } }
    (∀ n ∈ [1, 2, 3], (s n).pwr.wakeLatched = true ∧ (s n).pwr.phase = .asleep n ∧ (s n).pwr.exit = none) ∧
      (s 2).pwr.saved.isSome = true ∧ (s 2).hbm.phase = .selfRefresh ∧ (s 2).pwr.shed < 3 ∧ (s 1).facetClock = true ∧
      (s 1).pwr.facetsWait = false := by decide +kernel

/-- The steps of an exit: PGOOD_MAIN awaited, PGOOD_CORE awaited, at stage 3 with VDD_CORE off, the last PLL judged. -/
theorem wit_SleepEnteredAndLeft_steps :
    let s (n shed : Nat) (e : ExitStep) : State := pw (fun p => { p with
      phase := .asleep n, wakeLatched := true, exit := some e, shed := shed, enCore := shed < 3, change := none
      pll := p.pll.set 4 (.judging 2)
      saved := some ⟨rig.host, 600, 5000000, 0, 5000000, 3, 14, 3⟩ })
    (s 3 0 .main).pwr.exit = some .main ∧ (s 3 0 .main).pwr.enMain = true ∧ (s 3 0 .main).pwr.shed < 3 ∧
      3 ≤ (s 3 3 .main).pwr.shed ∧ (s 3 3 .main).pwr.enCore = false ∧
      (s 2 0 .core).pwr.sleep ≠ 0 ∧ (s 2 0 .core).pwr.enCore = true ∧ (s 2 0 .core).pwr.change = none ∧
      (s 2 0 .clocks).pwr.exit = some .clocks ∧ (s 2 0 .clocks).pwr.pll[(4 : Fin 9)] = .judging 2 ∧
      (∀ e : Fin 9, e ≠ 4 → (s 2 0 .clocks).pwr.pll[e] = .good) ∧ pllAccepts (4 : Fin 9).val 24564 = true ∧
      (s 3 0 .clocks).pwr.saved.isSome = true := by decide +kernel

/-! ### Witnesses: regions, firmware, the tick edge -/

theorem wit_RegionsRestart :
    rig.err.isolated.getLsbD (1 : Fin 7).val = false ∧ statusCodes.contains (0x0251 : Half).toNat = true ∧
    statusCodes.contains (0x0BAD : Half).toNat = false ∧
    (let s : State := { rig with err := { rig.err with isolated := 2, autoTimes := [(1, 1), (2, 1), (3, 1)] } }
     s.err.isolated.getLsbD (1 : Fin 7).val = true ∧ 3 ≤ s.autoCount (1 : Fin 7).val) ∧
    (let s : State := { rig with err := { rig.err with isolated := 2 }, host := { rig.host with regionAuto := 2 } }
     s.err.isolated.getLsbD (1 : Fin 7).val = true ∧ s.err.restarting.getLsbD (1 : Fin 7).val = false ∧
      s.host.regionAuto.getLsbD (1 : Fin 7).val = true ∧ s.err.manual.getLsbD (1 : Fin 7).val = false) ∧
    (∀ r : Fin 7, r.val = 1 ∨ r.val = 6 →
      let s : State := { rig with err := { rig.err with isolated := 0x42, restarting := 0x42 } }
      s.err.restarting.getLsbD r.val = true ∧ s.err.heldRestart.getLsbD r.val = false ∧
        s.err.rejoin.getLsbD r.val = false ∧ s.sched.start = none ∧ s.host.deferred = []) ∧
    (∀ r : Fin 7, r.val = 1 ∨ r.val = 6 → ∀ d ∈ regionPlls r.val, rig.pwr.pll[d] ≠ .stopped ∧ rig.pwr.pll[d] = .good) ∧
    (∃ d ∈ regionPlls 6, (pw (fun p => { p with pll := Vector.replicate 9 .stopped })).pwr.pll[d] = .stopped) ∧
    (∃ d ∈ regionPlls 6, (pw (fun p => { p with pll := Vector.replicate 9 (.judging 0) })).pwr.pll[d] = .judging 0) := by
  decide +kernel

/-- A device with an erased flash before its firmware has started. A slot that passes rests on signatures that Config
leaves open. -/
def bootS (src : Nat) : State := { rig with
  ready := 0x7FFFB, trust := { rig.trust with boot := .none, bootSrc := src } }

theorem wit_FirmwareBoots : (bootS 0).isReady 3 = true ∧ (bootS 0).isReady 2 = false ∧
    (bootS 0).pwr.phase = .running ∧ (bootS 0).lifecycle ≠ 0 ∧ (bootS 0).trust.boot ≠ .waitPush ∧
    (bootS 1).bootStrap = 1 ∧ (bootS 0).bootStrap ≠ 1 ∧ (bootS 2).bootStrap = 2 ∧
    (bootS 0).sched.start = none ∧ (bootS 0).host.deferred = [] := by decide +kernel

theorem wit_FirmwareBoots_fails : (bootS 0).checkFirmware ((bootS 0).slotImage 0) ≠ 0 ∧
    (bootS 0).checkFirmware ((bootS 0).slotImage 1) ≠ 0 := by decide +kernel

/-- A trial of firmware whose ROLLBACK is 3, with fuses that can and cannot be programmed. -/
def trialS (shed : Nat) : State := { pw (fun p => { p with shed := shed }) with
  trust := { rig.trust with trial := some 1, rollbackDue := true, fw := ⟨1, 3, 0, []⟩ } }

theorem wit_FuseUpkeep : rig.isReady 2 = true ∧ (trialS 0).trust.trial ≠ none ∧ (trialS 0).trust.rollbackDue = true ∧
    rig.trust.fw.rollback ≤ rig.rollback ∧ (trialS 0).rollback < (trialS 0).trust.fw.rollback ∧
    (trialS 0).fuse.op = none ∧ (trialS 0).fuseReady (trialS 0).fuse.vpp = true ∧
    (trialS 1).fuseReady (trialS 1).fuse.vpp = false ∧
    (trialS 0).fuse.needed ((List.range 3).map (fun i => (trialS 0).fuse.bitAt (288 + i / 64) (i % 64))) ≠ [] ∧
    (let op : FuseOp := ⟨.program (acc (.fuseProgram 10 0 0 5) [] 0), [20480], [], true, 0, false⟩
     ({ trialS 0 with fuse := { (trialS 0).fuse with op := some op } } : State).fuse.op ≠ none ∧
      rig.trust.trial = none ∧ rig.trust.rollbackDue = false) ∧
    rig.pwr.sleep ≠ 3 ∧ rig.rereadBad [(5, 1, 0)] ≠ [] ∧
    ({ rig with fuse := { rig.fuse with firm := [(0, 3), (16, 3)] } } : State).rereadBad [] = [] := by decide +kernel

theorem wit_FuseUpkeep_vpp :
    let op : FuseOp := ⟨.program (acc (.fuseProgram 10 0 0 5) [] 0), [20480, 20482], [], true, 0, false⟩
    let s : State := { rig with fuse := { rig.fuse with op := some op, vpp := true } }
    6000 < 6001 ∧ s.fuse.op = some op ∧ op.external = true ∧ s.fuseReady false = true ∧ s.fuse.waiting = [] ∧
      op.cut = false ∧
      (decide (5200 ≤ 5000) && decide (5000 ≤ 5800)) = false ∧ (decide (5200 ≤ 5500) && decide (5500 ≤ 5800)) = true := by
  decide +kernel

theorem settled_rig (s : State) (h : s.pwr.pll[8] = .good ∧ (s.sched.start = none ∧ s.host.deferred = []) ∧
    s.sched.stop = none ∧ s.beam.ops = [] ∧ s.err.snap = none ∧ s.pwr.shed = s.pwr.target ∧ s.pwr.change = none ∧
    s.err.rejoin = 0 ∧ s.trust.activate = none ∧ s.tk.stepPending = none ∧ s.img.cfg = none ∧ s.img.frame = none) :
    s.Settled :=
  ⟨h.1, ⟨⟨h.2.1.1, h.2.1.2⟩, h.2.2.1⟩, h.2.2.2.1, h.2.2.2.2.1, h.2.2.2.2.2.1, h.2.2.2.2.2.2.1, h.2.2.2.2.2.2.2.1,
    h.2.2.2.2.2.2.2.2.1, h.2.2.2.2.2.2.2.2.2.1, h.2.2.2.2.2.2.2.2.2.2⟩

/-- An image of one Facet whose program of slot 0 is one END, with a template for slot 0. -/
def runI : Image := { imageT [{ preT with slot := 0 }] with ops := [ringRec opEnd 0], slots := (List.range 64).map (fun i =>
  if i = 4 then ⟨0, 1, 1⟩ else ⟨0, 0, 0⟩) }

/-- Within a second and at its end, with a schedule running. -/
theorem wit_TicksRun : (runS runI).Settled ∧ (runS runI).tk.k + 1 < (runS runI).tk.rate ∧
    (runS runI).runningImage = some runI ∧ (runS runI).sched.mode = .main ∧ (runS runI).pwr.shed = 0 ∧
    bitOf runI.mask 1 = true ∧ (runS runI).isReady (5 + 1 / 4) = true ∧
    runI.templates = [{ preT with slot := 0 }] ∧ (runS runI).tk.nextEdge.tick % runI.h = 0 ∧
    (runS runI).engineOut (fin5 4) = false ∧ ((runS runI).chan (fin5 4) (fin8 2)).phase = .idle ∧
    (let t : TimeSt := { rig.tk with k := 599, tick := 599 }
     t.rate ≤ t.k + 1) :=
  ⟨settled_rig _ (by decide), by decide, by decide, by decide, by decide, by decide, by decide, by decide, by decide,
    by decide +kernel, by decide +kernel, by decide⟩

theorem wit_EdgesTakeEffect_start :
    let p : StartPend := ⟨4, true, [], [], false, true, none⟩
    let s : State := { stagedS (imageT []) with sched := { (stagedS (imageT [])).sched with start := some p } }
    ({ s with sched := { s.sched with start := none, stop := none } } : State).Settled ∧ s.sched.start = some p ∧
      s.sched.stop = none ∧ p.fixed = true ∧ p.t = s.tk.nextEdge.tick ∧ s.sched.staged = some (imageT []) ∧
      (imageT []).objective = none :=
  ⟨settled_rig _ (by decide), by decide, by decide, by decide, by decide, by decide, by decide⟩

/-- A STOP at the hyperperiod's boundary, and one that has to wait for it. -/
theorem wit_EdgesTakeEffect_stop :
    let s (tick : Nat) : State := { runS (imageT []) with
      sched := { (runS (imageT [])).sched with stop := some (true, true) }, tk := { rig.tk with tick := tick } }
    ({ s 3 with sched := { (s 3).sched with start := none, stop := none } } : State).Settled ∧
      ({ s 2 with sched := { (s 2).sched with start := none, stop := none } } : State).Settled ∧
      (s 3).sched.stop = some (true, true) ∧ (s 3).sched.running = true ∧ (s 3).tk.nextEdge.tick % (imageT []).h = 0 ∧
      (s 2).tk.nextEdge.tick % (imageT []).h ≠ 0 :=
  ⟨settled_rig _ (by decide), settled_rig _ (by decide), by decide, by decide, by decide, by decide⟩

/-- Shedding that goes down, one that may come up and one that may not yet; a level that is ready; a snapshot that is
due; a Prism that rejoins; firmware that is activated. -/
theorem wit_EdgesTakeEffect :
    (let s := pw (fun p => { p with target := 2 })
     ({ s with pwr := { s.pwr with shed := s.pwr.target, change := none } } : State).Settled ∧ s.pwr.change = none ∧
      s.pwr.shed < s.pwr.target ∧ s.pwr.target ≤ 3) ∧
    (∀ above, above = 0 ∨ above = 6000000 →
      let s : State := { pw (fun p => { p with
          shed := 1, supply := Vector.replicate 5 ⟨0, 0, 0, [0, 0, 0], [above, 0, 0]⟩ }) with
        tk := { rig.tk with k := 8, tick := 8 } }
      s.pwr.target < s.pwr.shed ∧ s.pwr.mayUndo s.pwr.shed s.tk.nextEdge.edge = (above == 0)) ∧
    (let s := pw (fun p => { p with change := some (.upReady 1 14), idleJudged := true, idleLevel := 1 })
     ({ s with pwr := { s.pwr with shed := s.pwr.target, change := none } } : State).Settled ∧
      s.pwr.shed = s.pwr.target ∧ s.pwr.change = some (.upReady 1 14) ∧ s.pwr.idleJudged = true ∧ s.pwr.idleLevel = 1 ∧
      s.pwr.nextTarget = none) :=
  ⟨⟨settled_rig _ (by decide), by decide, by decide, by decide⟩,
    fun above h => by rcases h with h | h <;> subst h <;> exact ⟨by decide, by decide +kernel⟩,
    ⟨settled_rig _ (by decide), by decide, by decide, by decide, by decide, by decide⟩⟩

theorem wit_EdgesTakeEffect_rest :
    (let s : State := { rig with err := { rig.err with snap := some (4, 1) } }
     ({ s with err := { s.err with snap := none } } : State).Settled ∧ s.err.snap = some (4, 1) ∧ 4 ≤ s.tk.nextEdge.tick) ∧
    (let s : State := { runS (imageT []) with err := { rig.err with rejoin := 2, isolated := 2, restarting := 2 } }
     ({ s with err := { s.err with rejoin := 0 } } : State).Settled ∧ s.err.rejoin = BitVec.ofNat 7 (2 ^ 1) ∧
      s.runningImage = some (imageT []) ∧ s.tk.nextEdge.tick % (imageT []).h = 0) ∧
    (let a := acc (.activateFirmware 1) [] 0
     let s : State := { rig with trust := { rig.trust with activate := some (a, 1, some 4) } }
     s.pwr.pll[8] = .good ∧ s.trust.activate = some (a, 1, some 4) ∧ 4 ≤ s.tk.nextEdge.tick) :=
  ⟨⟨settled_rig _ (by decide), by decide, by decide⟩, ⟨settled_rig _ (by decide), by decide, by decide, by decide⟩,
    ⟨by decide, by decide, by decide⟩⟩

/-! ### Ill-formed terms -/

/-- A sensor row with a code beyond 12 bits. -/
def badRow : RawRow := ⟨[4095, 4096], [], false⟩

/-- Ethernet headers whose fields do, and do not, fit. -/
def okEth : Eth := ⟨zeroBytes 6, some 4095, 65535⟩
def badEths : List Eth := [⟨zeroBytes 5, none, 0⟩, ⟨zeroBytes 6, some 4096, 0⟩, ⟨zeroBytes 6, none, 65536⟩]

theorem test_illformed_tickEdge : (Instr.tickEdge 0 [badRow]).wellFormed = false := by decide
theorem test_illformed_lineGroupComplete : (Instr.lineGroupComplete 0 [badRow]).wellFormed = false := by decide
theorem test_illformed_frameEnd : (Instr.frameEnd [badRow]).wellFormed = false := by decide
theorem test_illformed_burstTrigger : (Instr.burstTrigger 0 [⟨[], [4096], false⟩]).wellFormed = false := by decide
theorem test_illformed_burstFrameStart : (Instr.burstFrameStart [badRow] 16).wellFormed = false ∧
    (Instr.burstFrameStart [] 1025).wellFormed = false := by decide
theorem test_illformed_setSensor : (Instr.setSensor 0 0 (List.replicate 31 0)).wellFormed = false := by decide
theorem test_illformed_hostChannelPoll : (Instr.hostChannelPoll 5).wellFormed = false := by decide
theorem test_illformed_ecsRead : (Instr.ecsRead (List.replicate 15 0)).wellFormed = false := by decide
theorem test_illformed_hbmParityError : (Instr.hbmParityError 0 0).wellFormed = false ∧
    (Instr.hbmParityError 0 4).wellFormed = false := by decide
theorem test_illformed_pllCountCheck : (Instr.pllCountCheck (List.replicate 8 0)).wellFormed = false := by decide
theorem test_illformed_beam : ∀ p ∈ badEths.map (fun e => (e, zeroBytes 32)) ++ [(okEth, zeroBytes 31)],
    ∀ i ∈ [Instr.beamData 0 p.1 p.2 [], .beamAck 0 p.1 p.2, .beamCredit 0 p.1 p.2, .beamControl 0 p.1 p.2 (.arrive 0),
      .beamHello 0 p.1 p.2], i.wellFormed = false := by decide
theorem test_illformed_beamData : (Instr.beamData 0 okEth (zeroBytes 32) (zeroBytes 9217)).wellFormed = false := by
  decide +kernel
theorem test_illformed_ptpMessage : (∀ e ∈ badEths, (Instr.ptpMessage 0 e 0 (.pdelayReq 0)).wellFormed = false) ∧
    (Instr.ptpMessage 0 okEth 256 (.pdelayReq 0)).wellFormed = false := by decide
theorem test_illformed_discardedFrame :
    ∀ e ∈ badEths, (Instr.discardedFrame 0 e 64 false).wellFormed = false := by decide

/-- Every SET_PARAMS row with 47 inline bytes. -/
theorem test_illformed_parameters :
    let b : List Byte := List.replicate 47 0
    ∀ i ∈ [Instr.dmaChain 0 0 47 b, .journalMirror 0 0 47 b, .eventData 0 0 47 b, .analogRef 0 0 47 b,
      .wavePeriod 0 0 47 b, .waveCal 0 0 47 b, .openWire 0 0 47 b, .port 0 0 47 b, .ptp 0 0 47 b,
      .eventTimer 0 0 47 b, .beamSystem 0 0 47 b], i.wellFormed = false := by decide

theorem test_illformed_attest : (Instr.attest 0 0 (List.replicate 33 0) 0 0).wellFormed = false := by decide
theorem test_illformed_halves : (Instr.tickLoRead .localbus .wide).wellFormed = false ∧
    (Instr.timeLoRead .localbus .wide).wellFormed = false := by decide
theorem test_illformed_registerWrite : (Instr.registerWrite .localbus 64 15 0).wellFormed = false := by decide
theorem test_illformed_bar2Access : (Instr.bar2Access 0x3FFFFFF 2 none).wellFormed = false ∧
    (Instr.bar2Access 0 4 (some [1, 2, 3])).wellFormed = false := by decide

/-! ### Values from the spec's own examples -/

/-- 00, the example of byte order. -/
theorem test_byte_order : leBytes 4 0x2000 = [0x00, 0x20, 0x00, 0x00] := by decide

/-- 02 R32, R33 and their example: edges at n = 600 and the tick number of the edge at 3,333,333 ns. -/
theorem test_tick_edges : [0, 1, 2, 3].map (edgeOff 600) = [0, 1666667, 3333333, 5000000] ∧
    edgeAt 600 1020000000002 = 1700000000003333333 := by decide

/-- 02, the examples of checks 7 and 10. -/
theorem test_admission_budget : Img0.budget 600 1 * 98 / 100 = 1306666 ∧ Img0.budget 600 2 * 98 / 100 = 980000 := by decide
theorem test_admission_traffic : allowance 9300000 600 = 48 ∧
    energyFits 9300000 600 1000 [100000000, 60000000, 60000000, 60000000] = true ∧
    energyFits 9300000 600 1000 [120000000, 60000000, 60000000, 60000000] = false := by decide +kernel

/-- 06 R161, the example of 6,666,667 nJ. -/
theorem test_allowance : allowance 6666667 600 = 96 := by decide

/-- 03, the example address of unit 0x1000 of Facet 5; 05, the banks of 0x0010_0504_8860 and of the units 0x0123
and 0x01A1 of Facet 9. -/
theorem test_unit_address : unitAddr 5 0x1000 = 0x1005020000 := by decide
theorem test_banks : bankOf (0x1005048860 / 32) = 20 ∧ bankOf (unitAddr 9 0x0123 / 32) = 39 ∧
    bankOf (unitAddr 9 0x01A1 / 32) = 39 := by decide

/-- 03 R88, the focus record of 2,418 cycles; R85, its weight loads were they REMOTE in groups of 32; the head layer's
gradient (1,162), accumulate (520), update (268) and conversion (140). -/
def focusRec : Rec := ⟨opMM, 1, 0, 0, 0x1000, 0x2000, 0x2500, 0x2440, 256 + 8 * 2 ^ 16 + 64 * 2 ^ 32 + 0x50 * 2 ^ 40⟩
def gradRec : Rec := ⟨opMMT, 0x14, 0x44, 0, 0, 4096, 0, 0, 256 + 2 ^ 16 + 16 * 2 ^ 32 + 5 * 2 ^ 40⟩
theorem test_cycles_focus : recCycles focusRec false = 2418 := by decide
theorem test_cycles_remote : ({ focusRec with
    op1 := 2 ^ 20, params := 256 + 8 * 2 ^ 16 + 64 * 2 ^ 32 + 0x40 * 2 ^ 40 } : Rec).wp = 72 := by decide
theorem test_cycles_gradient : recCycles gradRec false = 1162 := by decide
theorem test_cycles_update :
    recCycles ⟨opVecEw, 0, 0x55, 0, 0, 4096, 0, 0, 6 + 2 ^ 16 + 4096 * 2 ^ 32⟩ false = 268 ∧
    recCycles ⟨opVecEw, 0, 0x45, 0, 0, 0, 0, 0, 7 + 2 ^ 16 + 4096 * 2 ^ 32⟩ false = 140 := by decide

/-- 04 R107, the example of a closing group. -/
theorem test_group_close : toFp32 (closeGroup (fp32 0xBFC00000) (.ofInt 1000003) (Elt.bf16.decode 0x3EAA)
    (Elt.bf16.decode 0x3DCD)) = 0x4701D226 := by decide +kernel

/-- 04 R112 to R115, the example of ReLU outputs: weights and scales of one column. -/
def reluRec : Rec := ⟨opMM, 1, 0, 0, 0, 16, 200, 1, 1 + 2 ^ 16 + 2 ^ 32 + 0x40 * 2 ^ 40 + 0x3E800000 * 2 ^ 64⟩
def reluW : List Nat := List.replicate 32 10 ++ List.replicate 16 236 ++ List.replicate 16 4
def reluIn : ArrayIn := ⟨[], [reluW], #[fp32 0x3F000000, fp32 0x3E800000], #[fp32 0x3E000000, fp32 0x3D800000], 2, 1,
  #[320, 384]⟩
theorem test_focus_near :
    let o := focusOut reluRec reluIn (.ofInt 390) 0 0 (List.replicate 20 255 ++ List.replicate 12 0 ++
      List.replicate 16 5 ++ List.replicate 15 0x50 ++ [0]) reluW
    o.near = true ∧ o.forced = false ∧ o.out = 9 ∧ toFp32 o.acc = 0x42160000 ∧ toFp32 o.eb = 0x43C30000 := by
  decide +kernel
theorem test_focus_far_below :
    let o := focusOut reluRec reluIn (.ofInt 390) 0 0 (List.replicate 20 0xE0 ++ List.replicate 28 0 ++
      List.replicate 5 0xB0 ++ List.replicate 11 0) reluW
    o.near = false ∧ o.out = 0 := by decide +kernel
theorem test_focus_far_above :
    let o := focusOut reluRec reluIn (.ofInt 390) 0 0 (List.replicate 20 0x20 ++ List.replicate 28 0 ++
      List.replicate 2 0x50 ++ List.replicate 14 0) reluW
    o.near = false ∧ o.out = 102 ∧ toFp32 o.acc = 0x43CD0000 := by decide +kernel

/-- 04, the example of a threshold exactly on the boundary. -/
theorem test_focus_boundary :
    let w := List.replicate 64 224 ++ List.replicate 64 240
    let r : Rec := ⟨opCONV, 1, 0, 0, 0, 16, 200, 1, 1 + 2 ^ 32 + 0xD7 * 2 ^ 40 + 0x41A00000 * 2 ^ 64⟩
    let i : ArrayIn := ⟨[], [w], #[fp32 0x3D800000, fp32 0x3D800000], #[fp32 0x3D000000, fp32 0x3C800000], 2, 1,
      #[2048, 1024]⟩
    let o := focusOut r i (.ofInt 80) 0 0 (List.replicate 45 0xEF ++ List.replicate 19 0x0F ++
      List.replicate 20 0xFF ++ List.replicate 44 0x0F) w
    o.near = true ∧ o.out = 0 ∧ toFp32 o.eb = 0x42960000 ∧ toFp32 o.acc = 0x41A00000 := by decide +kernel

/-- 07 R183, the check value of nine bytes; R181, the example chunk of a weight lane. -/
theorem test_crc : crc32c [0x31, 0x32, 0x33, 0x34, 0x35, 0x36, 0x37, 0x38, 0x39] = 0xE3069283 := by decide +kernel
theorem test_chunk : decodeChunk 1 (leNat [0x04, 0x12, 0x54, 0x0A, 0x80, 0x23, 0xB0, 0x06, 0x02, 0x10, 0xE4, 0x07, 0x42,
    0x10, 0x60, 0x29, 0x00]) 17 0 = some ([0, 1, 255, 2, 253, 5, 0, 0, 4, 254, 1, 0, 250, 3, 0, 1, 0, 0, 255, 2, 7, 252,
    0, 1, 2, 0, 255, 0, 3, 251, 1, 0], 132) := by decide +kernel

/-- 09 R237, the example's column offset. -/
theorem test_column_offset : Int.tdiv (colInterp ⟨[40, 55], [[80], [112]]⟩ 760 0) 16 = 6 := by decide

/-- 11, the depth of 64 devices. -/
theorem test_tree_depth : treeDepth 64 = 3 := by decide

/-- 13 R363, the example of POLICY's two copies (bits 0 to 2), and the redirection entry 0x4D4B's eight bits. -/
theorem test_fuse_copies : fuseCombine (1, 6) (2, 0) = (3, 4) ∧ (onesOf 0x4D4B).length = 8 := by decide

/-- A property of the next state that a command answers. -/
def nextHas (c : Instr) (s : State) (p : State → Bool) : Bool :=
  match exec c s with
  | .next t => p t
  | _ => false

/-- 03 R90, 04 R110: INT8 ADD saturates, here at units 0 and 8 of Facet 1 into unit 64. -/
theorem test_vec_add :
    let s : State := { atRec ewRec with mem := [(0x1001000000, 100), (0x1001000001, 3), (0x1001000100, 100),
      (0x1001000101, 0xFE)] }
    nextHas (.vecEw 1 []) s (fun t => t.readB 0x1001000800 3 == [127, 1, 0]) = true := by decide +kernel

/-- 12 R325: a claim of OWNER where none holds it, and a claim over the holder's. -/
theorem test_owner_claim :
    nextHas (.ownerWrite .pcie 1) { rig with host := { rig.host with owner := .none } }
      (fun t => t.host.owner == .pcie) = true ∧
    nextHas (.ownerWrite .localbus 2) rig (fun t => t.host.owner == .pcie) = true := by decide +kernel

/-- RESET_OUT_N is low at reset (17 R476). -/
theorem test_reset_out_low : State.reset.resetOutLow = true := by decide

/-- A re-read that falls due follows the operation that runs at once (13 R386). -/
theorem test_reread_first : (FuseJob.reread []).queued [.rollback, .erase] = [.reread [], .rollback, .erase] := by decide

/-- LIFECYCLE before locks before POLICY as the failing word after S3 (13 R374, R387; log 145). -/
theorem test_kept_differs : keptDiffers (1, 2, 3) (1, 5, 4) = some (0, 1) ∧ keptDiffers (1, 2, 3) (1, 2, 4) = some (8, 256) := by
  decide

/-- A faster target whose VID_CORE is set already settles at once (15 R428; log 147). -/
theorem test_level_settles_at_once :
    ({ State.reset.pwr with level := 2, vid := 56, pgoodCore := true }.beginLevel 0).change = some (.upSettle 0 26) := by
  decide

end Sys2Proof.Tests
end

section
namespace Sys2Proof.Machine

/-! ### Frames as equations -/

section
variable {s t : State} {l : List Field}

/-- A frame read as an equation: outside of the host's control, of memory, of the way out and of IDLE_TIME two states
are one and the same. -/
theorem State.eq_of_only_host (h : State.Only [.out, .mem, .host, .idle] s t) :
    t = { s with out := t.out, mem := t.mem, host := t.host, idleNs := t.idleNs } := by
  have same (f : Field) (hf : f ∉ [.out, .mem, .host, .idle] := by decide) : f.same s t := h f hf
  have e1 := same .pending; have e2 := same .freeCtr; have e3 := same .upsets; have e4 := same .poison
  have e5 := same .wbQueue; have e6 := same .cnt; have e7 := same .tk; have e8 := same .facets
  have e9 := same .sched; have e10 := same .ap; have e11 := same .hbm; have e12 := same .dma
  have e13 := same .tmplStatus; have e14 := same .exp; have e15 := same .cnd; have e16 := same .img
  have e17 := same .wav; have e18 := same .net; have e19 := same .beam; have e20 := same .jnl
  have e21 := same .err; have e22 := same .pwr; have e23 := same .fuse; have e24 := same .trust
  have e25 := same .ready
  cases s
  cases t
  simp only [Field.same] at *
  subst_vars
  rfl

end

/-! ### A descriptor is taken (12 R335 to R339) -/

/-- What taking a descriptor leaves of host control. -/
def HostCtl.work (h : HostCtl) := (h.owner, h.bg, h.fg, h.deferred)

section
variable {s : State} {d : Desc}

theorem HostCtl.work_of_mute {h k : HostCtl} (e : h.mute = k.mute) : h.work = k.work := by
  show h.mute.work = k.mute.work
  rw [e]

theorem State.irq_work (s : State) (b : Nat) : (s.irq b).host.work = s.host.work :=
  HostCtl.work_of_mute ((State.irq_via (M := [.out, .note]) (.refl _ s) (by decide)).told (by decide)).host

theorem State.writeSlot_host (s : State) (i : Nat) (b : List Byte) :
    ∃ m, (s.writeSlot i b).host = { s.host with mailbox := m } := by
  unfold State.writeSlot State.ringWrite
  split
  · exact ⟨_, rfl⟩
  · split <;> exact ⟨s.host.mailbox, rfl⟩

theorem State.offered_work (s : State) (d : Desc) : (s.offered d).host.work = s.host.work := by
  obtain ⟨m, hm⟩ := State.writeSlot_host s s.host.cmdPut (descBytes d)
  unfold State.offered State.advanceGet
  rw [State.irq_work]
  simp only [HostCtl.work, State.updHost_host, State.idleReset, hm]

theorem State.offered_only (s : State) (d : Desc) : State.Only [.out, .mem, .host, .idle] s (s.offered d) :=
  (State.advanceGet_via (M := [.out, .mem, .host, .note, .idle]) (State.updHost_via
    (State.writeSlot_via (.refl _ s) (by decide)) (by decide)) (by decide)).frame

theorem State.begun_only (s : State) (d : Desc) : State.Only [.out, .mem, .host, .idle] s (s.begun d) :=
  (State.offered_only s d).trans (State.updHost_via (M := [.host]) (State.updHost_via (.refl _ _) (by decide))
    (by decide)).frame

/-- Where a command begins, host control, the slot's memory, the interrupt that left and IDLE_TIME alone differ. -/
theorem State.begun_eq (s : State) (d : Desc) : s.begun d = { s with
    out := (s.begun d).out, mem := (s.begun d).mem, host := (s.begun d).host, idleNs := (s.begun d).idleNs } :=
  State.eq_of_only_host (State.begun_only s d)

theorem State.begun_work (s : State) (d : Desc) : (s.begun d).host.work = (s.host.owner,
    if isBackground d.cmd then s.host.bg ++ [s.accepted d] else s.host.bg,
    if isBackground d.cmd then s.host.fg else some (s.accepted d), s.host.deferred) := by
  have h := State.offered_work s d
  simp only [HostCtl.work, Prod.mk.injEq] at h
  obtain ⟨h1, h2, h3, h4⟩ := h
  unfold State.begun State.admitted
  split <;> simp [HostCtl.work, h1, h2, h3, h4]

theorem State.accepted_eq (s : State) (d : Desc) : (⟨d, descBytes d, ownerPath (s.offered d).host.owner,
    (s.offered d).tk.now, (s.offered d).tk.tick, [], [], (s.offered d).acceptNum d.cmd⟩ : Accepted) = s.accepted d := by
  have h := State.offered_work s d
  simp only [HostCtl.work, Prod.mk.injEq] at h
  have e : (s.offered d).acceptNum d.cmd = s.acceptNum d.cmd := by
    unfold State.acceptNum State.bgOf
    rw [h.2.1]
  rw [e, h.1, State.offered_only s d .tk (by decide)]
  rfl

/-- A descriptor that passes is taken at once (12 R335 to R339). -/
theorem State.submit_takes (h : s.Takes d) : s.submit d = (s.admitted d).beginCmd (s.accepted d) := by
  obtain ⟨m, hm⟩ := State.writeSlot_host s s.host.cmdPut (descBytes d)
  have hs : (s.writeSlot s.host.cmdPut (descBytes d)).serving = true := by
    rw [← h.serving]
    have v := State.writeSlot_via (M := [.mem, .host]) (i := s.host.cmdPut) (b := descBytes d) (.refl _ s) (by decide)
    unfold State.serving State.isReady
    rw [v.only .ready (by decide), v.only .pwr (by decide)]
  have hl : (s.writeSlot s.host.cmdPut (descBytes d)).serveRing 4096 = s.writeSlot s.host.cmdPut (descBytes d) := by
    unfold State.serveRing
    rw [hm]
    simp [h.level]
  have ho : (s.writeSlot s.host.cmdPut (descBytes d)).cmdEntries = s.cmdEntries := by
    unfold State.cmdEntries
    rw [hm]
  unfold State.submit
  simp only [h.room, hs, hl, ho, Bool.not_true, Bool.false_eq_true, if_false]
  show (s.offered d).takeCmd d (descBytes d) = _
  unfold State.takeCmd
  simp only [h.passes, ne_eq, not_true_eq_false, if_false, State.accepted_eq]
  rfl

/-- A foreground command runs at once. -/
theorem State.submit_fg (h : s.Takes d) (hd : isBackground d.cmd = false) :
    s.submit d = (s.begun d).runFg (s.accepted d) := by
  have hw := State.offered_work s d
  simp only [HostCtl.work, Prod.mk.injEq] at hw
  obtain ⟨hfg, hdef⟩ := h.free hd
  rw [State.submit_takes h]
  unfold State.beginCmd State.begun State.admitted
  simp [State.accepted, hd, hw, hfg, hdef]

/-- A background command runs at once, unless it is a LOAD_SCHEDULE beside another (02 R55). -/
theorem State.submit_bg (h : s.Takes d) (hd : isBackground d.cmd = true)
    (hb : (s.loadBusy && cmdOpcode d.cmd == 1) = false) : s.submit d = (s.begun d).runBg (s.accepted d) := by
  have hw := State.offered_work s d
  simp only [HostCtl.work, Prod.mk.injEq] at hw
  have hl : (s.admitted d).loadBusy = s.loadBusy := by
    unfold State.loadBusy State.bgOf State.admitted
    rw [State.updHost_host, State.updHost_sched, hw.2.1, State.offered_only s d .sched (by decide)]
  rw [State.submit_takes h]
  unfold State.beginCmd
  have hc : (s.accepted d).desc = d := rfl
  rw [hc, hl, hb]
  simp [State.begun, hd]

end
end Sys2Proof.Machine
end

section
namespace Sys2Proof.Machine

/-! ### What a step is known to keep, at a step that completes -/

/-- What every next state keeps, the next state of a step that completes keeps. -/
theorem Keeps.of_next {P : State → Prop} {o : Host.Outcome State Fault Refusal} (hk : Keeps P o)
    (h : ∃ t, o = .next t) : ∃ t, o = .next t ∧ P t := by
  obtain ⟨t, rfl⟩ := h
  exact ⟨t, rfl, hk⟩

theorem execLoadScheduleChecked_next (s : State) : ∃ t, execLoadScheduleChecked s = .next t := by
  unfold execLoadScheduleChecked
  split
  · split
    · exact ⟨_, rfl⟩
    · exact ⟨_, rfl⟩
  · exact ⟨_, rfl⟩

theorem execBackgroundResultWritten_next (op : Half) (s : State) :
    ∃ t, execBackgroundResultWritten op s = .next t := by
  unfold execBackgroundResultWritten
  split
  · exact ⟨_, rfl⟩
  · split
    · exact ⟨_, rfl⟩
    · exact ⟨_, rfl⟩
    · exact ⟨_, rfl⟩
    · exact ⟨_, rfl⟩

theorem execAttestSigned_next (s : State) : ∃ t, execAttestSigned s = .next t := by
  unfold execAttestSigned
  split
  · exact ⟨_, rfl⟩
  · split
    · exact ⟨_, rfl⟩
    · exact ⟨_, rfl⟩

theorem execUpdateFirmwareWritten_next (ok : Bool) (s : State) : ∃ t, execUpdateFirmwareWritten ok s = .next t := by
  unfold execUpdateFirmwareWritten
  split
  · exact ⟨_, rfl⟩
  · exact ⟨_, rfl⟩

/-! ### Background commands hold what they will write (12 R339) -/

section
variable {s : State} {d : Desc}

theorem map_hold_append (bg : List Accepted) (a : Accepted) (g : Accepted → Accepted)
    (h : ∀ b ∈ bg, b.desc.seq ≠ a.desc.seq) :
    (bg ++ [a]).map (fun b => if b.desc.seq = a.desc.seq then g b else b) = bg ++ [g a] := by
  have e : bg.map (fun b => if b.desc.seq = a.desc.seq then g b else b) = bg :=
    List.map_congr_left (fun b hb => if_neg (h b hb)) |>.trans (List.map_id bg)
  simp [e]

theorem State.admitted_bg (s : State) (d : Desc) : (s.admitted d).host.bg = s.host.bg := by
  have h := State.offered_work s d
  simp only [HostCtl.work, Prod.mk.injEq] at h
  exact h.2.1

/-- The entry of the command that has begun in the background, rewritten: no other entry has its sequence. -/
theorem State.begun_hold (h : s.Takes d) (hd : isBackground d.cmd = true) (g : Accepted → Accepted) :
    (s.begun d).updHost (fun x => { x with
      bg := x.bg.map (fun b => if b.desc.seq = (s.accepted d).desc.seq then g b else b) }) =
    (s.admitted d).updHost (fun x => { x with bg := x.bg ++ [g (s.accepted d)] }) := by
  have e := map_hold_append (s.admitted d).host.bg (s.accepted d) g (by
    rw [State.admitted_bg]
    exact h.fresh)
  unfold State.begun State.updHost
  simp only [hd, if_true]
  rw [e]

/-- A background read whose result fits and may go to its DST holds it. -/
theorem State.holdResult_begun (h : s.Takes d) (hd : isBackground d.cmd = true) {bs : List Byte} {num dst len : Nat}
    (hl : bs.length ≤ len) (ok : (s.begun d).dstOk dst bs.length = true) :
    (s.begun d).holdResult (s.accepted d) bs [] num dst len = s.holding d bs num := by
  unfold State.holdResult
  rw [ok, if_neg (by simp; omega)]
  exact State.begun_hold h hd _

theorem State.begun_figures (im : Image) : (s.begun d).figures im = s.figures im := by
  rw [State.begun_eq]
  rfl

/-- STATS takes the figures as they stand (16 R465). -/
theorem exec_stats {flags : Half} {seq len : Word} {dst : DWord} {im : Image}
    (h : s.Takes ⟨.stats dst len, flags, seq⟩) (ha : s.sched.active = some im)
    (hl : (s.figures im).length ≤ len.toNat)
    (ok : (s.begun ⟨.stats dst len, flags, seq⟩).dstOk dst.toNat (s.figures im).length = true) :
    exec (.stats flags seq dst len) s = .next (s.holding ⟨.stats dst len, flags, seq⟩ (s.figures im) 0) := by
  have ha' : (s.begun ⟨.stats dst len, flags, seq⟩).sched.active = some im := by
    rw [State.begun_only s _ .sched (by decide)]
    exact ha
  show Host.Outcome.next (s.submit _) = _
  rw [State.submit_bg h rfl (by simp [cmdOpcode])]
  unfold State.runBg
  simp only [State.accepted, ha', State.begun_figures]
  exact congrArg _ (State.holdResult_begun h rfl hl ok)

/-- READ_COUNTERS takes the shadow of the last snapshot (16 R462). -/
theorem exec_readCounters {flags : Half} {seq len : Word} {dst : DWord} {sh : Shadow}
    (h : s.Takes ⟨.readCounters dst len, flags, seq⟩) (hs : s.err.shadow = some sh)
    (hl : sh.dump.length ≤ len.toNat)
    (ok : (s.begun ⟨.readCounters dst len, flags, seq⟩).dstOk dst.toNat sh.dump.length = true) :
    exec (.readCounters flags seq dst len) s =
      .next (s.holding ⟨.readCounters dst len, flags, seq⟩ sh.dump sh.tick) := by
  have hs' : (s.begun ⟨.readCounters dst len, flags, seq⟩).err.shadow = some sh := by
    rw [State.begun_only s _ .err (by decide)]
    exact hs
  show Host.Outcome.next (s.submit _) = _
  rw [State.submit_bg h rfl (by simp [cmdOpcode])]
  unfold State.runBg
  simp only [State.accepted, hs']
  exact congrArg _ (State.holdResult_begun h rfl hl ok)

/-- Addresses of the journal's ring stand in the place of the journal. -/
theorem placeOf_journal {i : Nat} (h : i < 16384) : placeOf (journalBase + i * 64) = .journal := by
  unfold placeOf hbmSize scratchBase lineBase ctlBase journalBase outageBase
  rw [if_neg (by omega), if_neg (by omega), if_neg (by omega), if_neg (by omega), if_neg (by omega), if_neg (by omega),
    if_pos (by omega)]

/-- An entry of the ring that needs no look at single granules reads as it stands. -/
theorem State.journalEntry_ring {i : Nat} (hi : s.jnl.ringFrom ≤ i)
    (hp : s.plainRange (journalBase + i % 16384 * 64) 64 = true) :
    s.journalEntry i = (s.readB (journalBase + i % 16384 * 64) 64, [], s) := by
  have hb : inHbm (journalBase + i % 16384 * 64) = false := by
    unfold inHbm
    rw [placeOf_journal (Nat.mod_lt _ (by decide))]
    rfl
  unfold State.journalEntry State.readDev
  simp [hi, hp, hb]

theorem State.journalEntries_ring (n : Nat) : ∀ {i : Nat}, s.jnl.ringFrom ≤ i →
    (∀ j < n, s.plainRange (journalBase + (i + j) % 16384 * 64) 64 = true) → ∀ k, s.journalEntries i k n =
      ((List.range n).flatMap (fun j => s.readB (journalBase + (i + j) % 16384 * 64) 64), [], s) := by
  induction n with
  | zero => intros; rfl
  | succ n ih =>
    intro i hi hp k
    have h0 := State.journalEntry_ring hi (by simpa using hp 0 (by omega))
    have hr := ih (i := i + 1) (by omega) (fun j hj => by
      have := hp (j + 1) (by omega)
      rwa [show i + (j + 1) = i + 1 + j by omega] at this) (k + 2)
    unfold State.journalEntries
    rw [h0]
    simp only [hr, List.map_nil, List.nil_append]
    rw [List.range_succ_eq_map, List.flatMap_cons, List.flatMap_map]
    simp [Nat.add_assoc, Nat.add_comm 1]

/-- READ_JOURNAL reads its entries at once (12 R359). -/
theorem exec_readJournal {flags : Half} {seq len : Word} {first dst : DWord}
    (h : s.Takes ⟨.readJournal first len dst, flags, seq⟩) (h1 : 1 ≤ len.toNat) (h2 : len.toNat ≤ 65536)
    (h3 : s.jnl.ringFrom ≤ first.toNat) (h4 : first.toNat + len.toNat ≤ s.jnl.head)
    (ok : (s.begun ⟨.readJournal first len dst, flags, seq⟩).dstOk dst.toNat (64 * len.toNat) = true)
    (hp : ∀ i < len.toNat, s.plainRange (journalBase + (first.toNat + i) % 16384 * 64) 64 = true) :
    exec (.readJournal flags seq first len dst) s = .next (s.holding ⟨.readJournal first len dst, flags, seq⟩
      ((List.range len.toNat).flatMap (fun i => (s.admitted ⟨.readJournal first len dst, flags, seq⟩).readB
        (journalBase + (first.toNat + i) % 16384 * 64) 64)) s.jnl.head) := by
  have hj : (s.begun ⟨.readJournal first len dst, flags, seq⟩).jnl = s.jnl :=
    State.begun_only s _ .jnl (by decide)
  have ht : s.jnl.tail ≤ s.jnl.ringFrom := Nat.min_le_left _ _
  have hr := State.journalEntries_ring (s := s.begun ⟨.readJournal first len dst, flags, seq⟩) len.toNat
    (i := first.toNat) (by rw [hj]; exact h3) (fun j hj => by
      rw [State.begun_eq]
      exact hp j hj) 0
  show Host.Outcome.next (s.submit _) = _
  rw [State.submit_bg h rfl (by simp [cmdOpcode])]
  show Host.Outcome.next (State.beginReadJournal _ _ _ _ _) = _
  unfold State.beginReadJournal
  rw [hj, if_neg (by simp; omega), if_neg (by simp; omega), hr]
  dsimp only
  rw [hj]
  refine congrArg _ (State.holdResult_begun h rfl le_rfl ?_)
  rw [← ok]
  congr 1
  simp [State.readB, SMap.getRange, Nat.mul_comm]

/-- ATTEST fixes the head of its report (14 R413). -/
theorem exec_attest {flags : Half} {seq len : Word} {dst : DWord} {nonce : List Byte}
    (h : s.Takes ⟨.attest (fitBytes 32 nonce) dst len, flags, seq⟩)
    (hl : 0x4300 + (s.certBytes (bitOf flags.toNat 0)).length ≤ len.toNat)
    (ok : (s.begun ⟨.attest (fitBytes 32 nonce) dst len, flags, seq⟩).dstOk dst.toNat
      (0x4300 + (s.certBytes (bitOf flags.toNat 0)).length) = true)
    (hi : s.identityLost = false) :
    exec (.attest flags seq nonce dst len) s = .next (s.holding ⟨.attest (fitBytes 32 nonce) dst len, flags, seq⟩
      (s.reportHead (s.accepted ⟨.attest (fitBytes 32 nonce) dst len, flags, seq⟩) (fitBytes 32 nonce)) 0) := by
  generalize hd : (⟨.attest (fitBytes 32 nonce) dst len, flags, seq⟩ : Desc) = d at *
  have hc : (s.begun d).certBytes (bitOf flags.toNat 0) = s.certBytes (bitOf flags.toNat 0) := by
    rw [State.begun_eq]
    rfl
  have hi' : (s.begun d).identityLost = s.identityLost := by
    rw [State.begun_eq]
    rfl
  have hh (a : Accepted) (x : List Byte) : (s.begun d).reportHead a x = s.reportHead a x := by
    rw [State.begun_eq]
    rfl
  show Host.Outcome.next (s.submit ⟨.attest (fitBytes 32 nonce) dst len, flags, seq⟩) = _
  rw [hd, State.submit_bg h (by rw [← hd]; rfl) (by rw [← hd]; simp [cmdOpcode])]
  have hr : (s.begun d).runBg (s.accepted d) =
      (s.begun d).beginAttest (s.accepted d) (fitBytes 32 nonce) dst.toNat len.toNat := by
    unfold State.runBg
    simp only [State.accepted, ← hd]
  have hf : (s.accepted d).desc.flags = flags := by rw [← hd]; rfl
  rw [hr]
  unfold State.beginAttest
  simp only [hf, hc, ok, hi', hi, hh, Bool.not_true, Bool.or_false, decide_eq_true_eq, Bool.false_eq_true, if_false]
  rw [if_neg (by omega), State.begun_hold h (by rw [← hd]; rfl)]
  unfold State.holding
  rw [show (0 : Nat) = (s.accepted d).num by rw [← hd]; rfl]

/-- LOAD_SCHEDULE begins its check (02 R55). -/
theorem exec_loadSchedule {flags : Half} {seq : Word} {addr size : DWord}
    (h : s.Takes ⟨.loadSchedule addr size, flags, seq⟩) (hb : s.loadBusy = false) :
    exec (.loadSchedule flags seq addr size) s = .next (s.begun ⟨.loadSchedule addr size, flags, seq⟩) := by
  show Host.Outcome.next (s.submit _) = _
  rw [State.submit_bg h rfl (by simp [hb])]
  rfl

end
end Sys2Proof.Machine
end

section
namespace Sys2Proof.Machine

/-! ### Bytes written and read again -/

namespace SMap
variable {α : Type} [DecidableEq α] {d : α} {m : SMap α}

omit [DecidableEq α] in
/-- A filter by keys leaves what a key that passes reads as. -/
theorem get_filter_key {k : Nat} {f : Nat → Bool} (hw : m.Pairwise (fun p q => p.1 < q.1)) (h : f k = true) :
    get d (m.filter (fun p => f p.1)) k = get d m k := by
  induction m with
  | nil => rfl
  | cons p m ih =>
    obtain ⟨j, v⟩ := p
    obtain ⟨hj, hm⟩ := List.pairwise_cons.1 hw
    by_cases hf : f j = true
    · simp only [List.filter_cons, hf, if_true, get_cons, ih hm]
    · have hne : k ≠ j := by rintro rfl; exact hf h
      simp only [List.filter_cons, hf, Bool.false_eq_true, if_false, get_cons, ih hm, hne]
      by_cases hlt : k < j
      · rw [if_pos hlt]
        exact get_below (fun p hp => lt_trans hlt (hj p hp))
      · rw [if_neg hlt]

/-- A run reads as its keys do one by one. -/
theorem getRange_eq (hw : wf d m = true) (a n : Nat) :
    getRange d m a n = (List.range n).map (fun i => get d m (a + i)) := by
  unfold getRange
  refine List.map_congr_left (fun i hi => ?_)
  have hi := List.mem_range.1 hi
  exact get_filter_key (f := fun k => a ≤ k && k < a + n) (wf_iff.1 hw).1 (by simp; omega)

/-- A run written reads back. -/
theorem getRange_setRange (hw : wf d m = true) (a : Nat) (vs : List α) :
    getRange d (setRange d m a vs) a vs.length = vs := by
  rw [getRange_eq (wf_setRange a vs hw)]
  refine List.ext_getElem (by simp) (fun i h1 h2 => ?_)
  rw [List.getElem_map, List.getElem_range, get_setRange hw, if_pos (by omega)]
  simp [h2]

end SMap

theorem pieces32_flatten (n : Nat) : ∀ bs : List Byte, bs.length = 32 * n → (pieces32 n bs).flatten = bs := by
  induction n with
  | zero => exact fun bs h => (List.length_eq_zero_iff.1 h).symm
  | succ n ih =>
    intro bs h
    unfold pieces32
    rw [List.flatten_cons, ih _ (by rw [List.length_drop]; omega), List.take_append_drop]

/-- Without poisoned pieces whole pieces are written as they are. -/
theorem zeroBad_nil {bs : List Byte} (h : bs.length % 32 = 0) : zeroBad [] bs = bs := by
  have e (gs : List (List Byte)) : (List.range gs.length).flatMap (fun i => gs.getD i []) = gs.flatten := by
    rw [List.flatMap_def]
    congr 1
    refine List.ext_getElem (by simp) (fun i h1 h2 => ?_)
    simp [h2]
  unfold zeroBad
  simp only [List.any_nil, Bool.false_eq_true, if_false]
  rw [e, pieces32_flatten _ _ (by omega)]

/-! ### Results go to their DST (12 R341) -/

section
variable {s : State} {a : Nat} {bs : List Byte} {bads : List Nat}

/-- Whole units go to host memory as they are. -/
theorem State.writeControl_host (hp : placeOf a = .host) (ha : a % 32 = 0) (hb : bs.length % 32 = 0) :
    s.writeControl a bs [] = s.writeB a bs := by
  have e1 : a / 32 * 32 = a := by omega
  have e2 : (a + bs.length + 31) / 32 * 32 = a + bs.length := by omega
  unfold State.writeControl State.writeMerged State.writeMergedBad State.writeDev inHbm
  simp [e1, e2, hp, State.readB, SMap.getRange, zeroBad_nil hb]

/-- A result that may go to its DST and passes the Aperture is written. -/
theorem State.writeResult_ok (hd : s.dstOk a bs.length = true) (hc : s.classPasses .status bs.length = true) :
    (s.writeResult a bs bads).1 = 0 := by
  unfold State.writeResult
  rw [hd, hc]
  split
  · rfl
  · simp only [Bool.not_true, Bool.false_eq_true, if_false, if_true]
    split <;> rfl

theorem State.writeResult_protected (hb : bs ≠ []) (hd : s.dstOk a bs.length = false) :
    s.writeResult a bs bads = (0x0010, s) := by
  unfold State.writeResult
  simp [hb, hd]

theorem State.writeResult_host (hb : bs ≠ []) (hd : s.dstOk a bs.length = true)
    (hc : s.classPasses .status bs.length = true) (hp : placeOf a = .host) (ha : a % 32 = 0)
    (hl : bs.length % 32 = 0) : (s.writeResult a bs []).2.mem = SMap.setRange 0 s.mem a bs := by
  unfold State.writeResult
  simp only [hd, hc, hp, Bool.not_true, Bool.false_eq_true, if_false, if_true]
  rw [if_neg (by simpa using hb), State.writeControl_host hp ha hl]
  rfl

theorem State.writeResult_only :
    State.Only [.upsets, .mem, .poison, .wbQueue, .cnt, .hbm, .host] s (s.writeResult a bs bads).2 :=
  (State.writeResult_via (M := [.upsets, .mem, .poison, .wbQueue, .cnt, .hbm, .note]) (.refl _ s) (by decide)).frame

end
end Sys2Proof.Machine
end

section
namespace Sys2Proof.Machine

/-! ### Background commands end (02 R57; 12 R339; 14 R401, R413) -/

section
variable {s : State} {a : Accepted}

/-- LOAD_SCHEDULE_CHECKED of a range that may hold an image. -/
theorem execLoadScheduleChecked_of_range {addr len : DWord} (hb : s.bgOf 0x01 = some a)
    (hc : a.desc.cmd = .loadSchedule addr len) (hr : s.imageRangeOk addr.toNat len.toNat = true) :
    execLoadScheduleChecked s = .next (s.loadChecked a addr.toNat len.toNat).noteIdle ∧
    (let w := s.readControl addr.toNat len.toNat
     let m := img0Of addr.toNat w.1
     let st := w.2.admitImage m
     s.loadChecked a addr.toNat len.toNat = if st = 0 then
       State.completeLater { w.2 with sched := { w.2.sched with staged := some m.image } } a 0
         (leBytes 4 m.image.id ++ leBytes 4 m.image.version ++ (sha384 w.1).take 8) (sha384 w.1)
       else w.2.completeLater a st [] (sha384 w.1)) := by
  constructor
  · unfold execLoadScheduleChecked
    simp only [hb, hc]
  · unfold State.loadChecked
    rw [hr]
    rfl

/-- What the rows of a background read have in common: the result goes to its DST, and the command completes. -/
theorem execBackgroundResultWritten_eq {op : Half} {dst : DWord} {len : Word} (hb : s.bgOf op.toNat = some a)
    (hc : a.desc.cmd = .stats dst len ∨ a.desc.cmd = .readCounters dst len ∨
      ∃ first, a.desc.cmd = .readJournal first len dst) :
    ∃ res, execBackgroundResultWritten op s = .next ((s.writeResult dst.toNat a.data a.bads).2.completeLater a
        (s.writeResult dst.toNat a.data a.bads).1
        (if (s.writeResult dst.toNat a.data a.bads).1 = 0 then res else []) []).noteIdle ∧
      ∀ n, a.desc.cmd = .stats dst n → res = leBytes 4 a.data.length := by
  unfold execBackgroundResultWritten
  obtain hc | hc | ⟨first, hc⟩ := hc
  · simp only [hb, hc]
    exact ⟨_, rfl, fun _ _ => rfl⟩
  · simp only [hb, hc]
    exact ⟨_, rfl, fun _ h => by cases h⟩
  · simp only [hb, hc]
    exact ⟨_, rfl, fun _ h => by cases h⟩

theorem execAttestSigned_eq {nonce : List Byte} {dst : DWord} {len : Word} (hb : s.bgOf 0x0D = some a)
    (hc : a.desc.cmd = .attest nonce dst len) (hd : s.dstOk dst.toNat (s.attestReport a).length = true)
    (hp : s.classPasses .status (s.attestReport a).length = true) :
    execAttestSigned s = .next ((s.writeResult dst.toNat (s.attestReport a) []).2.completeLater a 0
      (leBytes 4 (s.attestReport a).length) (sha384 (s.attestReport a))).noteIdle := by
  unfold execAttestSigned
  simp only [hb, hc]
  rw [State.writeResult_ok hd hp]
  rfl

/-- The other slot when the write of its image has ended (14 R401). -/
def State.slotWritten (s : State) (a : Accepted) (ok : Bool) : State :=
  let k := 1 - s.trust.slot
  let v := (s.updTrust (fun t => { t with update := none, pending := if ok then some k else t.pending })).writeFlash
    (slotBase k) (if ok then a.data else (freeBytes s.freeCtr a.data.length).take a.data.length)
  if ok then v else v.drawn 1

theorem execUpdateFirmwareWritten_eq {ok : Bool} (hu : s.trust.update = some a) :
    execUpdateFirmwareWritten ok s = .next ((s.slotWritten a ok).completeLater a (if ok then 0 else 0x0616)
      (if ok then leBytes 1 (1 - s.trust.slot) else []) (sha384 a.data)).noteIdle := by
  unfold execUpdateFirmwareWritten
  rw [hu]
  rfl

theorem State.slotWritten_trust (ok : Bool) : (s.slotWritten a ok).trust.update = none ∧
    (s.slotWritten a ok).trust.pending = (if ok then some (1 - s.trust.slot) else s.trust.pending) := by
  cases ok <;> exact ⟨rfl, rfl⟩

theorem State.slotWritten_flash (hw : SMap.wf 0xFF s.trust.flash = true) :
    (s.slotWritten a true).flashBytes (slotBase (1 - s.trust.slot)) a.data.length = a.data :=
  SMap.getRange_setRange hw _ _

theorem State.slotWritten_only (ok : Bool) : State.Only [.freeCtr, .trust] s (s.slotWritten a ok) := by
  unfold State.slotWritten
  extract_lets k v
  have h : State.Via [.freeCtr, .trust] s v :=
    State.writeFlash_via (State.updTrust_via (.refl _ s) (by decide)) (by decide)
  cases ok
  · exact (State.drawn_via h (by decide)).frame
  · exact h.frame

end
end Sys2Proof.Machine

open Sys2Proof Sys2Proof.Machine

/-- Settles O43: what the commands hold when they begin is read before the state that the framing of the descriptor
changed can differ; the rows that end them are their own equations. -/
theorem backgroundCommands : Obligations.BackgroundCommands := by
  unfold Obligations.BackgroundCommands
  refine ⟨fun flags seq dst len s => ⟨fun im h => exec_stats h, fun sh h => exec_readCounters h,
      fun first h => exec_readJournal h, fun nonce h => exec_attest h, fun size h => exec_loadSchedule h⟩,
    fun op ok s => ⟨?_, ?_, ?_, ?_⟩, fun a s => ⟨?_, ?_, ?_, ?_⟩⟩
  · obtain ⟨t, ht, hv⟩ := (execLoadScheduleChecked_via (M := [.freeCtr, .out, .upsets, .mem, .ring, .poison, .wbQueue,
      .cnt, .idle, .sched, .hbm, .img, .host, .note, .jnl, .err]) (.refl _ s) (by decide)).of_next
      (execLoadScheduleChecked_next s)
    exact ⟨t, ht, hv.frame⟩
  · obtain ⟨t, ht, hv⟩ := (execBackgroundResultWritten_via (M := [.out, .upsets, .mem, .ring, .poison, .wbQueue, .cnt,
      .idle, .hbm, .host, .note, .jnl]) (opcode := op) (.refl _ s) (by decide)).of_next
      (execBackgroundResultWritten_next op s)
    exact ⟨t, ht, hv.frame⟩
  · obtain ⟨t, ht, hv⟩ := (execAttestSigned_via (M := [.out, .upsets, .mem, .ring, .poison, .wbQueue, .cnt,
      .idle, .hbm, .host, .note, .jnl]) (.refl _ s) (by decide)).of_next (execAttestSigned_next s)
    exact ⟨t, ht, hv.frame⟩
  · obtain ⟨t, ht, hv⟩ := (execUpdateFirmwareWritten_via (M := [.freeCtr, .out, .ring, .cnt, .idle, .host, .note, .jnl,
      .trust]) (ok := ok) (.refl _ s) (by decide)).of_next (execUpdateFirmwareWritten_next ok s)
    exact ⟨t, ht, hv.frame⟩
  · intro addr len hb hc hr
    obtain ⟨h1, h2⟩ := execLoadScheduleChecked_of_range hb hc hr
    exact h1.trans (congrArg (fun t => Host.Outcome.next (State.noteIdle t)) h2)
  · intro op dst len hb hc hn
    obtain ⟨res, he, hres⟩ := execBackgroundResultWritten_eq hb hc
    refine ⟨fun hd => he.trans ?_, fun hd hp => ⟨(s.writeResult dst.toNat a.data a.bads).2, res,
      he.trans ?_, fun hh hw ha hl hbads => ?_, hres,
      State.writeResult_only⟩⟩
    · rw [State.writeResult_protected hn hd]
      rfl
    · rw [State.writeResult_ok hd hp]
      rfl
    · rw [hbads]
      have hm := State.writeResult_host hn hd hp hh ha hl
      refine ⟨?_, fun x hx => ?_⟩
      · unfold State.readB
        rw [hm]
        exact SMap.getRange_setRange hw _ _
      · rw [hm, SMap.get_setRange hw, if_neg (by omega)]
  · intro nonce dst len hb hc r hd hp
    exact ⟨_, execAttestSigned_eq hb hc hd hp, State.writeResult_only⟩
  · intro ok hu
    exact ⟨_, execUpdateFirmwareWritten_eq hu, (State.slotWritten_trust ok).1, (State.slotWritten_trust ok).2,
      fun h hw => by subst h; exact State.slotWritten_flash hw, State.slotWritten_only ok⟩
end

section
namespace Sys2Proof.Machine

/-! ### START, STOP and SNAPSHOT (02 R60 to R62; 16 R463) -/

section
variable {s : State} {d : Desc}

theorem State.completeLater_only (s : State) (a : Accepted) (st : Nat) (r x : List Byte) :
    State.Only [.out, .mem, .cnt, .host, .jnl] s (s.completeLater a st r x) :=
  (State.completeLater_via (M := [.out, .ring, .cnt, .host, .note, .jnl]) (.refl _ s) (by decide)).frame

theorem State.cancelStart_start (s : State) : s.cancelStart.sched = { s.sched with start := none } := by
  unfold State.cancelStart
  split
  · extract_lets s'
    split
    · split
      · rfl
      · exact State.completeLater_only _ _ _ _ _ .sched (by decide)
    · rfl
  · next h => simp [← h]

/-- Cancelling a START that owes no completion only forgets it. -/
theorem State.cancelStart_quiet (h : ∀ p, s.sched.start = some p → p.fixed = true ∨ p.acc = none) :
    s.cancelStart = { s with sched := { s.sched with start := none } } := by
  unfold State.cancelStart
  split
  · next p hp =>
    extract_lets s'
    split
    · next a ha =>
      obtain hf | hn := h p hp
      · rw [if_pos hf]
        rfl
      · simp [hn] at ha
    · rfl
  · next hn => rw [← hn]

/-- A START whose tick is at least two after the current one is not deferred. -/
theorem State.deferStart_later {p : StartPend} (hp : s.sched.start = some p) (ht : s.tk.tick + 2 ≤ p.t) :
    s.deferStart = s := by
  unfold State.deferStart
  rw [hp]
  dsimp only
  split
  · rw [if_neg (by simp; omega)]
  · rfl

theorem roundUp_le (n m : Nat) (hm : 0 < m) : n ≤ roundUp n m := by
  have := Nat.div_add_mod (n + m - 1) m
  have := Nat.mod_lt (n + m - 1) hm
  rw [Nat.mul_comm] at *
  unfold roundUp
  omega

/-- A START that is not refused names a tick two ticks on or later, or none. -/
theorem State.refuseStart_late {busy : Bool} {acc t : Nat} (h : s.refuseStart busy acc t = 0) :
    t = 0 ∨ acc + 2 ≤ t := by
  unfold State.refuseStart at h
  split at h
  · cases h
  · split at h
    · cases h
    · split at h
      · cases h
      · split at h
        · cases h
        · next h1 =>
          simp at h1
          omega

/-- A pending START after preload templates have been armed: the same START, the same preloads. -/
def StartPend.Arms (p q : StartPend) : Prop :=
  q.t = p.t ∧ q.fixed = p.fixed ∧ q.acc = p.acc ∧
    q.running.map (·.2) ++ q.preloads = p.running.map (·.2) ++ p.preloads

theorem StartPend.Arms.trans {p q r : StartPend} (h : p.Arms q) (h' : q.Arms r) : p.Arms r := by
  obtain ⟨h1, h2, h3, h4⟩ := h
  obtain ⟨g1, g2, g3, g4⟩ := h'
  exact ⟨g1.trans h1, g2.trans h2, g3.trans h3, g4.trans h4⟩

/-- The template at the head of the preloads goes to those that run. -/
theorem StartPend.arms_head {p : StartPend} {n i : Nat} (h : p.preloads.head? = some i) :
    p.Arms { p with preloads := p.preloads.tail, running := p.running ++ [(n, i)] } := by
  obtain ⟨l, hl⟩ := List.head?_eq_some_iff.1 h
  exact ⟨rfl, rfl, rfl, by simp [hl]⟩

/-- Arming preloads keeps the pending START and every preload of it. -/
theorem State.armPreloads_arms {p : StartPend} (hp : s.sched.start = some p) :
    ∃ q, s.armPreloads.sched.start = some q ∧ p.Arms q := by
  unfold State.armPreloads
  rw [hp]
  dsimp -zeta only
  refine List.foldlRecOn (motive := fun v : State => ∃ q, v.sched.start = some q ∧ p.Arms q) _ _
    ⟨p, hp, rfl, rfl, rfl, rfl⟩ (fun v hv i _ => ?_)
  obtain ⟨q, hq, hpq⟩ := hv
  split
  · next t q' _ hq' =>
    obtain rfl : q = q' := Option.some.inj (hq.symm.trans hq')
    extract_lets e c free
    split
    · next h =>
      simp only [Bool.and_eq_true, beq_iff_eq] at h
      exact ⟨_, rfl, hpq.trans (StartPend.arms_head h.1.1)⟩
    · exact ⟨q, hq, hpq⟩
  · exact ⟨q, hq, hpq⟩

theorem State.armPreloads_only (s : State) : State.Only [.sched, .dma] s s.armPreloads :=
  (State.armPreloads_via (M := [.sched, .dma]) (.refl _ s) (by decide)).frame

theorem State.armPreloads_none {p : StartPend} (hp : s.sched.start = some p) (h : p.preloads = []) :
    s.armPreloads = s := by
  unfold State.armPreloads
  rw [hp]
  simp [h]

/-- A START whose preloads are not all complete is not fixed. -/
theorem State.fixStart_preloads {p : StartPend} (hp : s.sched.start = some p)
    (h : p.running.map (·.2) ++ p.preloads ≠ []) : s.fixStart = s := by
  have h' : (p.fixed || !p.preloads.isEmpty || !p.running.isEmpty) = true := by
    simp only [ne_eq, List.append_eq_nil_iff, List.map_eq_nil_iff, not_and_or] at h
    obtain h | h := h <;> simp [h]
  unfold State.fixStart
  rw [hp]
  dsimp only
  rw [if_pos h']

/-- A START without preloads is fixed at once, and its command completes. -/
theorem State.fixStart_ready {p : StartPend} {a : Accepted} (hp : s.sched.start = some p) (hf : p.fixed = false)
    (hd : p.deferred = false) (h1 : p.preloads = []) (h2 : p.running = []) (ha : p.acc = some a) :
    s.fixStart = State.completeLater { s with sched := { s.sched with start := some { p with fixed := true } } }
      a 0 (leBytes 8 p.t) [] := by
  unfold State.fixStart
  rw [hp]
  dsimp only
  rw [if_neg (by simp [hf, h1, h2])]
  simp only [ha, hd]
  rfl

/-- The tick of a START (02 R60). -/
def State.startTick (s : State) (im : Image) (t : DWord) : Nat :=
  if t = 0 then s.firstStart im s.tk.tick else t.toNat

/-- A START that is not refused, as it waits for its preloads. -/
def State.startWaits (s : State) (d : Desc) (tick : Nat) (staged : Bool) (im : Image) : State :=
  (s.begun d).updSched (fun x => { x with
    start := some ⟨tick, staged, im.preloads, [], false, false, some (s.accepted d)⟩ })

/-- START, not refused, waits for its preloads and is fixed where it has none. -/
theorem exec_start {flags : Half} {seq : Word} {t : DWord} {staged : Bool} {im : Image}
    (h : s.Takes ⟨.start t, flags, seq⟩) (hr : s.refuseStart (s.bgOf 0x01).isSome s.tk.tick t.toNat = 0)
    (hi : s.startImage = some (staged, im))
    (hq : ∀ p, s.sched.start = some p → p.fixed = true ∨ p.acc = none) :
    exec (.start flags seq t) s = .next (s.startWaits ⟨.start t, flags, seq⟩ (s.startTick im t) staged im
      |>.armPreloads.deferStart.fixStart) := by
  generalize hd : (⟨.start t, flags, seq⟩ : Desc) = d at *
  have e1 : (s.begun d).refuseStart (s.bgOf 0x01).isSome s.tk.tick t.toNat = 0 := by
    rw [State.begun_eq]
    exact hr
  have e2 : (s.begun d).startImage = some (staged, im) := by
    rw [State.begun_eq]
    exact hi
  have e3 : (s.begun d).firstStart im s.tk.tick = s.firstStart im s.tk.tick := by
    rw [State.begun_eq]
    rfl
  have e4 : (s.accepted d).num = if (s.bgOf 0x01).isSome then 1 else 0 := by rw [← hd]; rfl
  have e5 : ((s.accepted d).num == 1) = (s.bgOf 0x01).isSome := by
    rw [e4]
    cases (s.bgOf 0x01).isSome <;> rfl
  have e6 : (t.toNat = 0) = (t = 0) := propext ⟨fun e => BitVec.eq_of_toNat_eq e, fun e => by rw [e]; rfl⟩
  have e7 : ∀ p, (s.begun d).sched.start = some p → p.fixed = true ∨ p.acc = none := by
    rw [State.begun_only s d .sched (by decide)]
    exact hq
  show Host.Outcome.next (s.submit ⟨.start t, flags, seq⟩) = _
  rw [hd, State.submit_fg h (by rw [← hd]; rfl)]
  have hrun : (s.begun d).runFg (s.accepted d) = (s.begun d).beginStartCmd (s.accepted d) t.toNat := by
    unfold State.runFg State.workOut
    simp only [State.accepted, ← hd]
    rfl
  rw [hrun]
  unfold State.beginStartCmd
  have e8 : (s.accepted d).tick = s.tk.tick := rfl
  rw [e5, e8, e1]
  unfold State.beginStart
  simp only [ne_eq, not_true_eq_false, if_false, e2, e3, e6, State.cancelStart_quiet e7]
  rfl

section
variable {tick : Nat} {staged : Bool} {im : Image}

theorem State.startWaits_tk (s : State) (d : Desc) : (s.startWaits d tick staged im).tk = s.tk :=
  State.begun_only s d .tk (by decide)

/-- A START without preloads is fixed at its acceptance (02 R61). -/
theorem State.startWaits_ready (ht : s.tk.tick + 2 ≤ tick) (hp : im.preloads = []) :
    (s.startWaits d tick staged im).armPreloads.deferStart.fixStart = State.completeLater { s.begun d with
      sched := { (s.begun d).sched with start := some ⟨tick, staged, [], [], false, true, some (s.accepted d)⟩ } }
      (s.accepted d) 0 (leBytes 8 tick) [] := by
  rw [State.armPreloads_none rfl hp, State.deferStart_later rfl (by rw [State.startWaits_tk]; exact ht),
    State.fixStart_ready rfl rfl rfl hp rfl rfl]
  unfold State.startWaits State.updSched
  rw [hp]

/-- A START with preloads waits for them: each is armed or waits to be (02 R61). -/
theorem State.startWaits_preloads (ht : s.tk.tick + 2 ≤ tick) (hp : im.preloads ≠ []) :
    ∃ v p, (s.startWaits d tick staged im).armPreloads.deferStart.fixStart = v ∧ v.sched.start = some p ∧
      p.t = tick ∧ p.fixed = false ∧ p.acc = some (s.accepted d) ∧
      p.running.map (·.2) ++ p.preloads = im.preloads ∧ State.Only [.sched, .dma] (s.begun d) v := by
  obtain ⟨q, hq, h1, h2, h3, h4⟩ := State.armPreloads_arms (s := s.startWaits d tick staged im) rfl
  have hk : (s.startWaits d tick staged im).armPreloads.tk = s.tk :=
    (State.armPreloads_only _ .tk (by decide)).trans (State.startWaits_tk s d)
  have hd := State.deferStart_later hq (by rw [hk, h1]; exact ht)
  have hf := State.fixStart_preloads hq (by rw [h4]; exact hp)
  refine ⟨_, q, by rw [hd, hf], hq, h1, h2, h3, h4, ?_⟩
  have hs : State.Only [.sched] (s.begun d) (s.startWaits d tick staged im) :=
    (State.updSched_via (M := [.sched]) (.refl _ _) (by decide)).frame
  exact (hs.mono (by decide)).trans (State.armPreloads_only _)

end

/-- The tick of a START that is not refused lies two ticks on or later (02 R60). -/
theorem State.startTick_late {busy : Bool} {im : Image} {t : DWord} (hm : 0 < s.startStep im)
    (h : s.refuseStart busy s.tk.tick t.toNat = 0) : s.tk.tick + 2 ≤ s.startTick im t := by
  unfold State.startTick State.firstStart
  split
  · exact roundUp_le _ _ hm
  · next hne =>
    obtain h0 | h2 := State.refuseStart_late h
    · exact absurd (BitVec.eq_of_toNat_eq h0) hne
    · exact h2

/-- STOP cancels a pending START and asks for the stop where an image is active (02 R62). -/
theorem exec_stop {flags : Half} {seq : Word} (h : s.Takes ⟨.stop, flags, seq⟩)
    (ha : s.sched.active.isSome = true ∨ s.sched.start.isSome = true) : exec (.stop flags seq) s =
      .next (((s.begun ⟨.stop, flags, seq⟩).completeLater (s.accepted ⟨.stop, flags, seq⟩) 0
        (leBytes 8 (s.stopTick (bitOf flags.toNat 0))) []).beginStop (bitOf flags.toNat 0) (bitOf flags.toNat 1)) := by
  have e1 : (s.begun ⟨.stop, flags, seq⟩).sched = s.sched := State.begun_only s _ .sched (by decide)
  have e2 (b : Bool) : (s.begun ⟨.stop, flags, seq⟩).stopTick b = s.stopTick b := by
    rw [State.begun_eq]
    rfl
  show Host.Outcome.next (s.submit _) = _
  rw [State.submit_fg h rfl]
  show Host.Outcome.next (State.beginStopCmd _ _) = _
  unfold State.beginStopCmd
  rw [e1, if_neg (by cases hx : s.sched.active <;> cases hy : s.sched.start <;> simp_all)]
  simp only [e2]
  rfl

theorem State.beginStop_start (b x : Bool) : (s.beginStop b x).sched.start = none := by
  unfold State.beginStop
  extract_lets s'
  have h : s'.sched.start = none := by rw [State.cancelStart_start]
  split
  · exact h
  · exact h

theorem State.beginStop_stop (b x : Bool) (h : s.sched.active.isSome = true) :
    (s.beginStop b x).sched.stop = some (b, x) := by
  unfold State.beginStop
  extract_lets s'
  rw [if_pos (by rw [State.cancelStart_start]; exact h)]
  rfl

/-- Without a pending START only the stop is noted. -/
theorem State.beginStop_alone (b x : Bool) (h : s.sched.active.isSome = true) (hs : s.sched.start = none) :
    s.beginStop b x = s.updSched (fun y => { y with stop := some (b, x) }) := by
  have e : s.cancelStart = s := by
    unfold State.cancelStart
    rw [hs]
  unfold State.beginStop
  simp only [e, h, if_true]

/-- SNAPSHOT arms a snapshot (16 R463). -/
theorem exec_snapshot {flags : Half} {seq : Word} {t : DWord} (h : s.Takes ⟨.snapshot t, flags, seq⟩)
    (ht : s.tk.tick + 2 ≤ t.toNat) (hs : s.snapPending = false) : exec (.snapshot flags seq t) s =
      .next (((s.begun ⟨.snapshot t, flags, seq⟩).updErr (fun e => { e with snap := some (t.toNat, 1) })).completeLater
        (s.accepted ⟨.snapshot t, flags, seq⟩) 0 (leBytes 8 t.toNat) []) := by
  have e1 : (s.begun ⟨.snapshot t, flags, seq⟩).tk = s.tk := State.begun_only s _ .tk (by decide)
  have e2 : (s.begun ⟨.snapshot t, flags, seq⟩).snapPending = false := by
    rw [State.begun_eq]
    exact hs
  have e3 : (s.begun ⟨.snapshot t, flags, seq⟩).armSnapshot s.tk.tick t.toNat 1 =
      (true, (s.begun ⟨.snapshot t, flags, seq⟩).updErr (fun e => { e with snap := some (t.toNat, 1) })) := by
    unfold State.armSnapshot
    rw [e1, e2, if_neg (by simp; omega)]
  show Host.Outcome.next (s.submit _) = _
  rw [State.submit_fg h rfl]
  show Host.Outcome.next (State.finish (State.armSnapshot _ s.tk.tick t.toNat 1).2 _
    (if (State.armSnapshot _ s.tk.tick t.toNat 1).1 then 0 else 0x0804) _) = _
  rw [e3]
  rfl

end
end Sys2Proof.Machine
end

section
namespace Sys2Proof.Machine

/-! ### A channel after an operation on it -/

section
variable {s : State} {e : Fin 5} {c : Fin 8}

@[simp] theorem State.updChan_chan (s : State) (e : Fin 5) (c : Fin 8) (g : Channel → Channel) :
    (s.updChan e c g).chan e c = g (s.chan e c) := by
  simp [State.chan, State.updChan]

@[simp] theorem State.unfull_chan (s : State) (e : Fin 5) (c : Fin 8) : (s.unfull e c).chan e c = s.chan e c := by
  simp [State.chan, State.unfull]

@[simp] theorem State.setLatch_phase (s : State) (e : Fin 5) (c : Fin 8) :
    ((s.setLatch e c).chan e c).phase = (s.chan e c).phase ∧ ((s.setLatch e c).chan e c).seq = (s.chan e c).seq := by
  unfold State.setLatch
  split
  · exact ⟨rfl, rfl⟩
  · rw [State.updChan_chan]
    exact ⟨rfl, rfl⟩

theorem State.chan_of_dma {t : State} (h : t.dma = s.dma) : t.chan e c = s.chan e c := by
  unfold State.chan
  rw [h]

/-- No preloads end where no START is pending. -/
theorem State.preloadEnd_none (h : s.sched.start = none) : s.preloadEnd e c = s := by
  unfold State.preloadEnd
  rw [h]

/-- A descriptor that ends with a status that halts leaves its channel halted, its sequence number one on (08 R208,
R214). -/
theorem State.finishDesc_halted {status residue : Nat} {halts : Bool} (hh : haltingStatus status halts = true)
    (hs : s.sched.start = none) : ((s.finishDesc e c status residue halts).chan e c).phase = .halted ∧
      ((s.finishDesc e c status residue halts).chan e c).seq = ((s.chan e c).seq + 1) % 2 ^ 32 := by
  let M : List Change := [.freeCtr, .out, .upsets, .mem, .ring, .poison, .wbQueue, .cnt, .hbm, .tmplStatus, .note]
  unfold State.finishDesc
  extract_lets ch seq hl time s3 s4 s5 id s7 s8 nxt c10 s11
  have h3 : State.Via M (s.unfull e c) s3 := State.count_via (.refl _ _) (by decide)
  have h4 : State.Via M (s.unfull e c) s4 := by
    unfold s4
    split
    · exact h3
    · exact State.count_via h3 (by decide)
  have h5 : State.Via M (s.unfull e c) s5 := by
    unfold s5
    split
    · exact State.writeBack_via h4 (by decide)
    · exact State.tmplDone_via h4 (by decide)
  have h7 : State.Via M (s.unfull e c) s7 := by
    unfold s7
    split
    · exact State.event_via h5 (by decide)
    · exact h5
  have h8 : State.Via M (s.unfull e c) s8 := by
    unfold s8
    rw [if_pos hh]
    exact State.fault_via h7 (by decide)
  have h11 : State.Only [.cnt, .dma] s8 s11 :=
    (State.setLatch_via (M := [.cnt, .dma]) (State.updChan_via (.refl _ s8) (by decide)) (by decide)).frame
  have hn : nxt = none := if_pos hh
  have hst : s11.sched.start = none := by
    rw [h11 .sched (by decide), h8.only .sched (by decide)]
    exact hs
  rw [hn, if_neg (by simp), State.preloadEnd_none hst, State.chan_of_dma
    ((State.drained_via (M := [.cnt, .hbm]) (.refl _ s11) (by decide)).only .dma (by decide))]
  obtain ⟨hp, hq⟩ := State.setLatch_phase (s8.updChan e c (fun x => { Channel.reset with
    phase := if hl then .halted else if nxt.isSome then .fetching else .idle
    at_ := nxt.getD x.at_, store := x.store, latch := x.latch, seq := seq })) e c
  rw [hp, hq, State.updChan_chan]
  exact ⟨if_pos hh, rfl⟩

theorem State.endDesc_halted {status residue : Nat} {halts : Bool} (hh : haltingStatus status halts = true)
    (hs : s.sched.start = none) : ((s.endDesc e c status residue halts).chan e c).phase = .halted ∧
      ((s.endDesc e c status residue halts).chan e c).seq = ((s.chan e c).seq + 1) % 2 ^ 32 := by
  unfold State.endDesc
  extract_lets n
  split
  · exact State.finishDesc_halted hh hs
  · have h : State.Only [.cnt, .hbm] s (s.takeBucket n) :=
      (State.takeBucket_via (M := [.cnt, .hbm]) (.refl _ s) (by decide)).frame
    rw [← State.chan_of_dma (h .dma (by decide))]
    exact State.finishDesc_halted hh (by rw [h .sched (by decide)]; exact hs)

/-! ### DMA_ABORT (08 R219, R220) -/

theorem State.letGo_chan (s : State) (e : Fin 5) (c : Fin 8) : (s.letGo e c).chan e c = s.chan e c := by
  unfold State.letGo
  extract_lets n s1
  have h1 : s1.chan e c = s.chan e c := State.unfull_chan _ e c
  split
  · rw [← h1]
    exact State.chan_of_dma ((State.dropBlocks_via (M := [.hbm, .exp, .cnd]) (.refl _ s1) (by decide)).only .dma
      (by decide))
  · exact h1

theorem State.dropBlocks_phase (s : State) (p : Fin 4) (n : Nat) :
    (s.dropBlocks p n).hbm.phase = s.hbm.phase := by
  unfold State.dropBlocks
  extract_lets s0 s1
  have h0 : s0.hbm.phase = s.hbm.phase := by
    unfold s0
    split
    · rfl
    · rfl
  split
  · exact h0
  · exact h0

theorem State.letGo_phase (s : State) (e : Fin 5) (c : Fin 8) : (s.letGo e c).hbm.phase = s.hbm.phase := by
  unfold State.letGo
  extract_lets n s1
  split
  · exact State.dropBlocks_phase s1 _ _
  · rfl

theorem State.letGo_only (s : State) (e : Fin 5) (c : Fin 8) : State.Only [.hbm, .dma, .exp, .cnd] s (s.letGo e c) :=
  (State.letGo_via (M := [.hbm, .dma, .exp, .cnd]) (.refl _ s) (by decide)).frame

/-- What `mayEnd` looks at. -/
theorem State.mayEnd_congr {t : State} (hd : (t.chan e c).at_ = (s.chan e c).at_) (hp : t.hbm.phase = s.hbm.phase)
    (ho : State.Only [.hbm, .dma, .exp, .cnd] s t) : t.mayEnd e c = s.mayEnd e c := by
  have e1 := ho .beam (by decide)
  have e2 := ho .ap (by decide)
  have e3 := ho .sched (by decide)
  have e4 := ho .jnl (by decide)
  have e5 := ho .host (by decide)
  simp only [Field.same] at e1 e2 e3 e4 e5
  unfold State.mayEnd State.beamOpen State.backCost State.backOk State.canFetch State.hbmMapped State.localReach
    State.partitions State.hbmWritable State.mirrorBase State.protectedRange State.hbmMapped State.hbmOpen
  rw [hd, hp, e1, e2, e3, e4, e5]

theorem State.toAbort_chan (halts started : Bool) :
    (s.toAbort e c halts started).chan e c = { s.chan e c with phase := .aborting halts started } := by
  unfold State.toAbort
  rw [State.updChan_chan, State.letGo_chan]

theorem State.toAbort_only (halts started : Bool) :
    State.Only [.hbm, .dma, .exp, .cnd] s (s.toAbort e c halts started) :=
  (State.letGo_only s e c).trans (State.updChan_via (M := [.dma]) (.refl _ _) (by decide)).frame

theorem State.toAbort_mayEnd (halts started : Bool) : (s.toAbort e c halts started).mayEnd e c = s.mayEnd e c :=
  State.mayEnd_congr (by rw [State.toAbort_chan]) (State.letGo_phase s e c) (State.toAbort_only _ _)

/-- What is left of an aborted descriptor ends: its channel halts. -/
theorem State.abortEnds_halted (started : Bool) (hs : s.sched.start = none) :
    ((s.abortEnds e c true started).chan e c).phase = .halted ∧
      ((s.abortEnds e c true started).chan e c).seq = ((s.chan e c).seq + 1) % 2 ^ 32 := by
  unfold State.abortEnds
  split
  · unfold State.abortRunning
    extract_lets res
    have h : State.Only [.cnt, .facets] (s.letGo e c) ((s.letGo e c).endResv e c false) :=
      (State.endResv_via (M := [.cnt, .facets]) (.refl _ _) (by decide)).frame
    have hc : ((s.letGo e c).endResv e c false).chan e c = s.chan e c :=
      (State.chan_of_dma (h .dma (by decide))).trans (State.letGo_chan s e c)
    rw [← hc]
    refine State.endDesc_halted rfl ?_
    rw [h .sched (by decide), State.letGo_only s e c .sched (by decide)]
    exact hs
  · exact State.endDesc_halted rfl hs

/-- The two outcomes of an abort by DMA_ABORT: the descriptor ends at once, or it waits for what it still owes. -/
theorem State.toAbort_drained (started : Bool) :
    (s.mayEnd e c = true → s.sched.start = none →
      ((((s.toAbort e c true started).abortDrained e c).chan e c).phase = .halted ∧
        (((s.toAbort e c true started).abortDrained e c).chan e c).seq = ((s.chan e c).seq + 1) % 2 ^ 32)) ∧
    (s.mayEnd e c = false →
      (((s.toAbort e c true started).abortDrained e c).chan e c).phase = .aborting true started) := by
  have hp : ((s.toAbort e c true started).chan e c).phase = .aborting true started := by rw [State.toAbort_chan]
  unfold State.abortDrained
  rw [hp]
  dsimp only
  rw [State.toAbort_mayEnd]
  refine ⟨fun hm hs => ?_, fun hm => ?_⟩
  · have h := State.abortEnds_halted (s := s.toAbort e c true started) (e := e) (c := c) started (by
      rw [State.toAbort_only _ _ .sched (by decide)]
      exact hs)
    rw [if_pos hm]
    rw [State.toAbort_chan] at h
    exact h
  · rw [if_neg (by simp [hm]), hp]

/-- What DMA_ABORT does to its channel, by the phase it finds. -/
theorem State.abortChannel_cases (s : State) (e : Fin 5) (c : Fin 8) :
    ((s.chan e c).phase = .idle ∨ (s.chan e c).phase = .halted → s.abortChannel e c = (0, s)) ∧
    ((s.chan e c).phase = .fetching ∨ (s.chan e c).phase = .polling → (s.abortChannel e c).1 = 0 ∧
      (s.sched.start = none → ((s.abortChannel e c).2.chan e c).phase = .halted)) ∧
    ((s.chan e c).phase = .waiting ∨ (s.chan e c).phase = .running ∨ (∃ h b, (s.chan e c).phase = .aborting h b) →
      ∃ b, s.abortChannel e c = (0x0100, (s.toAbort e c true b).abortDrained e c)) := by
  unfold State.abortChannel
  refine ⟨fun h => ?_, fun h => ?_, fun h => ?_⟩
  · obtain h | h := h <;> rw [h]
  · have hh : ((State.updChan (s.letGo e c) e c (fun x => { x with phase := .halted })).chan e c).phase = .halted := by
      rw [State.updChan_chan]
    obtain h | h := h <;> rw [h] <;> refine ⟨rfl, fun hs => ?_⟩
    · dsimp only
      rw [State.preloadEnd_none]
      · exact hh
      · show (s.letGo e c).sched.start = none
        rw [State.letGo_only s e c .sched (by decide)]
        exact hs
    · exact hh
  · obtain h | h | ⟨x, b, h⟩ := h <;> rw [h] <;> exact ⟨_, rfl⟩

/-- DMA_ABORT acts on its channel and completes with what it found (08 R220). -/
theorem exec_dmaAbort {flags : Half} {seq : Word} {i j : Byte} (h : s.Takes ⟨.dmaAbort i j, flags, seq⟩)
    (hi : i.toNat ≤ 4) (hj : j.toNat ≤ 7) : exec (.dmaAbort flags seq i j) s =
      .next (((s.begun ⟨.dmaAbort i j, flags, seq⟩).abortChannel (fin5 i.toNat) (fin8 j.toNat)).2.completeLater
        (s.accepted ⟨.dmaAbort i j, flags, seq⟩) 0
        (leBytes 4 ((s.begun ⟨.dmaAbort i j, flags, seq⟩).abortChannel (fin5 i.toNat) (fin8 j.toNat)).1) []) := by
  show Host.Outcome.next (s.submit _) = _
  rw [State.submit_fg h rfl]
  show Host.Outcome.next (State.beginAbort _ _ i.toNat j.toNat) = _
  unfold State.beginAbort
  rw [if_neg (by omega)]
  rfl

end
end Sys2Proof.Machine
end

section
namespace Sys2Proof.Machine

/-! ### What an error report leaves (16 R450, R451) -/

/-- The part of the error state that reports do not change. -/
def Errors.rest (e : Errors) : Errors := { e with queue := [], index := 0, made := [] }

section
variable {s t : State}

@[simp] theorem State.errorRecN_rest (s : State) (status region block addr level action n : Nat) (detail : List Byte) :
    (s.errorRecN status region block addr level action n detail).err.rest = s.err.rest := by
  unfold State.errorRecN
  split
  · rfl
  · split
    · rfl
    · extract_lets s1
      split
      · rfl
      · rfl

@[simp] theorem State.errorRec_rest (s : State) (status region block addr level action : Nat) (detail : List Byte) :
    (s.errorRec status region block addr level action detail).err.rest = s.err.rest :=
  State.errorRecN_rest _ _ _ _ _ _ _ _ _

@[simp] theorem State.regionReport_rest (s : State) (r block status action cause : Nat) :
    (s.regionReport r block status action cause).err.rest = s.err.rest := by
  unfold State.regionReport
  extract_lets s1
  have h := (State.fault_via (M := [.out, .ring, .cnt, .note]) (status := status) (src := blockSource r block)
    (region := r) (block := block) (addr := 0) (detail := leBytes 2 cause) (.refl _ s1) (by decide)).only .err
    (by decide)
  rw [show _ = s1.err from h]
  exact State.errorRec_rest _ _ _ _ _ _ _ _

end

theorem State.updErr_only (s : State) (g : Errors → Errors) : State.Only [.err] s (s.updErr g) := by
  intro f hf
  cases f
  case err => exact absurd (by decide) hf
  all_goals rfl

/-! ### A frame that ends reports no error (09 R247 to R254) -/

/-- What the delivery of lines changes. -/
abbrev frameKinds : List Change :=
  [.freeCtr, .out, .upsets, .mem, .ring, .poison, .wbQueue, .cnt, .facets, .img, .note]

section
variable {M : List Change} {S s : State} {c : ObjCfg} {e : PixEnv} {fr : FrameSt}

theorem State.deliverGroup_lines {i : Fin 5} {lo hi : Nat} (hs : State.Via frameKinds S s) :
    State.Via frameKinds S (s.deliverGroup c e fr i lo hi) := by
  unfold State.deliverGroup
  extract_lets sc st bs rows bad bads dma s1
  have h1 : State.Via frameKinds S s1 := State.writeMarked_via hs (by decide)
  split
  · exact State.truncate_via hs (by decide)
  · split
    next x ok s2 heq =>
    have h2 : State.Via frameKinds S s2 := by
      refine via2 heq ?_
      split
      · exact State.regionDeliver_via h1 (by decide)
      · exact h1
    split
    · exact State.truncate_via h2 (by decide)
    · extract_lets s3
      have h3 : State.Via frameKinds S s3 := State.count_via (State.updStream_via h2 (by decide)) (by decide)
      split
      · exact State.poisonedGroup_via h3 (by decide)
      · exact h3

theorem State.deliverLines_lines {i : Fin 5} {n a : Nat} (hs : State.Via frameKinds S s) :
    State.Via frameKinds S (s.deliverLines c e fr i n a) := by
  fun_induction State.deliverLines s c e fr i n a with
  | case1 s => exact hs
  | case2 s k lo hi h => exact hs
  | case3 s k lo hi h ih => exact ih (State.deliverGroup_lines hs)

theorem State.finishStreams_lines {n : Nat} (hs : State.Via frameKinds S s) :
    State.Via frameKinds S (s.finishStreams c fr n) := by
  unfold State.finishStreams
  extract_lets e
  refine foldl_via hs fun u k hu => ?_
  dsimp only
  split
  · exact hu
  · exact State.deliverLines_lines hu

theorem State.endFrame_lines {n : Nat} {cause : Option Nat} (hs : State.Via frameKinds S s) :
    State.Via frameKinds S (s.endFrame c fr n cause) := by
  unfold State.endFrame
  extract_lets s1 e dyn s2 s3 s4
  have h2 : State.Via frameKinds S s2 := State.countDefects_via (State.finishStreams_lines hs) (by decide)
  have h3 : State.Via frameKinds S s3 := by
    refine foldl_via h2 fun u k hu => ?_
    extract_lets i sc v st w
    have hv : State.Via frameKinds S v := by
      unfold v
      split
      · exact State.truncate_via hu (by decide)
      · split
        · exact State.truncate_via hu (by decide)
        · exact hu
    split
    · exact hu
    · exact State.updStream_via (State.eventAt_via hv (by decide)) (by decide)
  have h4 : State.Via frameKinds S s4 := by
    unfold s4
    split
    · exact State.statsBlock_via h3 (by decide)
    · exact State.drawn_via h3 (by decide)
  exact State.updImg_via h4 (by decide)

theorem State.sensorStandby_lines {rows : List RawRow} (hs : State.Via frameKinds S s) :
    State.Via frameKinds S (s.sensorStandby rows) := by
  have hc : State.Via frameKinds S (s.cutFrame rows 2) := by
    unfold State.cutFrame
    split
    · exact State.endFrame_lines hs
    · exact hs
  unfold State.sensorStandby
  split
  · exact hs
  · exact hs
  · exact State.updImg_via hc (by decide)

end

/-! ### Isolation and restart keep what waits (16 R453 to R457) -/

/-- What has run since host control may keep its work: the running commands, those that wait, the owner. -/
theorem State.Via.work {K : List Change} {s t : State} (h : State.Via K s t) (hk : .host ∉ K := by decide) :
    t.host.work = s.host.work := HostCtl.work_of_mute (h.told hk).host

section
variable {s : State} {r : Fin 7}

/-- The blocks of an isolated region stop without an error report. -/
theorem State.haltBlocks_kept (s : State) (r : Nat) :
    (s.haltBlocks r).err = s.err ∧ (s.haltBlocks r).host.work = s.host.work := by
  unfold State.haltBlocks
  split
  · have h : State.Via [.facets] s ((List.range 4).foldl (fun u i => u.stopFacet (fin16 (4 * r + i))) s) :=
      foldl_via (.refl _ s) fun u i hu => State.stopFacet_via hu (by decide)
    exact ⟨h.only .err (by decide), h.work⟩
  · split
    · have h : State.Via frameKinds s (s.sensorStandby []) := State.sensorStandby_lines (.refl _ s)
      exact ⟨h.only .err (by decide), h.work⟩
    · split
      · have h := State.holdNow_via (M := [.cnt, .wav, .note]) (.refl _ s) (by decide)
        rw [State.updWav_err, State.updWav_host]
        exact ⟨h.only .err (by decide), h.work⟩
      · extract_lets ap s1 s2
        have h : State.Via [.freeCtr, .out, .ring, .cnt, .net, .beam, .note, .ready] s1 s2 := by
          refine foldl_via (.refl _ s1) fun u p hu => ?_
          split
          · exact State.portDown_via hu (by decide)
          · exact hu
        exact ⟨h.only .err (by decide), h.work⟩

/-- A bit vector with a bit set. -/
theorem getLsbD_or_bit {x : BitVec 7} {i : Nat} (hi : i < 7) (j : Nat) :
    (x ||| BitVec.ofNat 7 (2 ^ i)).getLsbD j = (x.getLsbD j || decide (i = j)) := by
  rw [BitVec.getLsbD_or, BitVec.getLsbD_ofNat, Nat.testBit_two_pow]
  by_cases h : i = j
  · subst h; simp [hi]
  · simp [h]

/-- The part of the error state that isolation leaves: all but the isolated regions and what reports change. -/
def Errors.others (e : Errors) : Errors := { e.rest with isolated := 0 }

theorem State.setReady_fold_via {M : List Change} {S s : State} (l : List Nat) (v : Bool) (hs : State.Via M S s)
    (hk : [.ready] ⊆ M) : State.Via M S (l.foldl (fun s b => s.setReady b v) s) :=
  foldl_via hs fun _ _ hu => State.setReady_via hu hk

/-- Isolation of a region: its bit is set, no other is cleared, and what waits for it goes on waiting. -/
theorem State.isolate_kept (s : State) (r : Fin 7) (block cause : Nat) :
    (s.isolate r block cause).host.work = s.host.work ∧
    (s.isolate r block cause).err.others = s.err.others ∧
    ∀ i, (s.isolate r block cause).err.isolated.getLsbD i = (s.err.isolated.getLsbD i || decide (r.val = i)) := by
  unfold State.isolate
  split
  · next h =>
    refine ⟨rfl, rfl, fun i => ?_⟩
    by_cases hi : r.val = i
    · simp [← hi, h]
    · simp [hi]
  · extract_lets s1 s2 s3
    have h1 : State.Via [.freeCtr, .out, .upsets, .mem, .ring, .poison, .wbQueue, .cnt, .facets, .sched, .hbm, .dma,
      .tmplStatus, .exp, .cnd, .note] s s1 := State.abortRegion_via (.refl _ s) (by decide)
    have he1 : s1.err = s.err := h1.only .err (by decide)
    obtain ⟨he, hw⟩ := State.haltBlocks_kept s2 r.val
    have h3 : State.Via [.ready] (s2.haltBlocks r.val) s3 := State.setReady_fold_via _ _ (.refl _ _) (by decide)
    have h4 := State.syncGates_via (M := [.out, .ring, .cnt, .note, .pwr]) (req := srcPower) (.refl _ s3) (by decide)
    have hr := State.regionReport_rest (s3.syncGates srcPower) r.val block 0x0800 2 cause
    have hrw : State.Via [.out, .ring, .cnt, .note, .err] (s3.syncGates srcPower)
      ((s3.syncGates srcPower).regionReport r.val block 0x0800 2 cause) :=
      State.regionReport_via (.refl _ _) (by decide)
    have hfin : (s3.syncGates srcPower).err = s2.err := (h4.only .err (by decide)).trans
      ((h3.only .err (by decide)).trans he)
    rw [hfin] at hr
    have h2 : s2.err = { s.err with isolated := s.err.isolated ||| BitVec.ofNat 7 (2 ^ r.val) } := by
      rw [← he1]
      rfl
    refine ⟨?_, ?_, fun i => ?_⟩
    · rw [hrw.work, h4.work, h3.work, hw]
      exact h1.work
    · unfold Errors.others
      rw [hr, h2]
      rfl
    · have hi := congrArg (fun e : Errors => e.isolated.getLsbD i) hr
      dsimp only [Errors.rest] at hi
      rw [hi, h2]
      exact getLsbD_or_bit r.isLt i

/-- What the begin of restarts keeps: the work that waits, the marks of the REGION_RESTART that waits, and the regions
that are isolated or restart. -/
structure State.RestartKeeps (s t : State) : Prop where
  work : t.host.work = s.host.work
  wait : t.err.restartWait = s.err.restartWait
  done : t.err.restartDone = s.err.restartDone
  isolated : ∀ i, s.err.isolated.getLsbD i = true → t.err.isolated.getLsbD i = true
  restarting : ∀ i, s.err.restarting.getLsbD i = true → t.err.restarting.getLsbD i = true

theorem State.RestartKeeps.refl (s : State) : s.RestartKeeps s := ⟨rfl, rfl, rfl, fun _ => id, fun _ => id⟩

theorem State.RestartKeeps.trans {s t u : State} (h : s.RestartKeeps t) (h' : t.RestartKeeps u) : s.RestartKeeps u :=
  ⟨h'.work.trans h.work, h'.wait.trans h.wait, h'.done.trans h.done, fun i hi => h'.isolated i (h.isolated i hi),
    fun i hi => h'.restarting i (h.restarting i hi)⟩

/-- A restart that begins, or joins the one in progress: its region is isolated and restarts. -/
theorem State.beginRestart_kept (s : State) (r : Fin 7) : s.RestartKeeps (s.beginRestart r) ∧
    (s.beginRestart r).err.restarting.getLsbD r.val = true ∧
    (s.err.restarting.getLsbD r.val = false → (s.beginRestart r).err.isolated.getLsbD r.val = true) ∧
    ∀ i, r.val ≠ i → (s.beginRestart r).err.restarting.getLsbD i = s.err.restarting.getLsbD i := by
  unfold State.beginRestart
  split
  · next h => exact ⟨.refl s, h, fun h' => absurd (h'.symm.trans h) Bool.false_ne_true, fun _ _ => rfl⟩
  · extract_lets held s1
    obtain ⟨hw, ho, hi⟩ := State.isolate_kept s r 0 0
    have h2 : ∃ t, (if held then s1 else s1.startClocks r.val) = t ∧ t.host.work = s1.host.work ∧ t.err = s1.err := by
      split
      · exact ⟨_, rfl, rfl, rfl⟩
      · have h := State.startClocks_via (M := [.out, .ring, .cnt, .note, .pwr]) (r := r.val) (.refl _ s1) (by decide)
        exact ⟨_, rfl, h.work, h.only .err (by decide)⟩
    obtain ⟨t, rfl, htw, hte⟩ := h2
    have hrest := congrArg Errors.restarting ho
    have hwait := congrArg Errors.restartWait ho
    have hdone := congrArg Errors.restartDone ho
    have hr : s1.err.restarting = s.err.restarting ||| BitVec.ofNat 7 (2 ^ r.val) :=
      congrArg (· ||| BitVec.ofNat 7 (2 ^ r.val)) hrest
    have hiso (i : Nat) : s1.err.isolated.getLsbD i = (s.err.isolated.getLsbD i || decide (r.val = i)) := hi i
    rw [hte, hr]
    simp only [getLsbD_or_bit r.isLt, hiso]
    refine ⟨⟨htw.trans hw, ?_, ?_, fun i h => ?_, fun i h => ?_⟩, by simp, by simp, fun i hne => by simp [hne]⟩
    · rw [hte]
      exact hwait
    · rw [hte]
      exact hdone
    · rw [hte, hiso, h, Bool.true_or]
    · rw [hte, hr, getLsbD_or_bit r.isLt, h, Bool.true_or]

/-- Restarts of the regions of a list that a mask names. -/
theorem State.restart_fold (mask : Nat) (l : List Nat) (hl : ∀ r ∈ l, r < 7) : ∀ s : State,
    let v := l.foldl (fun s r => if bitOf mask r then s.beginRestart ⟨r % 7, Nat.mod_lt _ (by decide)⟩ else s) s
    s.RestartKeeps v ∧ ∀ r ∈ l, bitOf mask r = true → v.err.restarting.getLsbD r = true ∧
      (s.err.restarting.getLsbD r = false → v.err.isolated.getLsbD r = true) := by
  induction l with
  | nil => exact fun s => ⟨.refl s, fun r hr => absurd hr (by simp)⟩
  | cons q l ih =>
    intro s
    have hq : q % 7 = q := Nat.mod_eq_of_lt (hl q (by simp))
    rw [List.foldl_cons]
    obtain ⟨hk, hr⟩ := ih (fun r hr => hl r (by simp [hr])) (if bitOf mask q then
      s.beginRestart ⟨q % 7, Nat.mod_lt _ (by decide)⟩ else s)
    by_cases hb : bitOf mask q = true
    · rw [if_pos hb] at hk hr ⊢
      obtain ⟨b1, b2, b3, b4⟩ := State.beginRestart_kept s ⟨q % 7, Nat.mod_lt _ (by decide)⟩
      simp only [hq] at hk hr b1 b2 b3 b4 ⊢
      refine ⟨b1.trans hk, fun r hm hbr => ?_⟩
      by_cases he : q = r
      · subst he
        exact ⟨hk.restarting _ b2, fun h0 => hk.isolated _ (b3 h0)⟩
      · obtain ⟨h1, h2⟩ := hr r (by simpa [Ne.symm he] using hm) hbr
        exact ⟨h1, fun h0 => h2 (by rw [b4 r he]; exact h0)⟩
    · rw [if_neg hb] at hk hr ⊢
      refine ⟨hk, fun r hm hbr => ?_⟩
      have he : r ≠ q := by rintro rfl; exact hb hbr
      exact hr r (by simpa [he] using hm) hbr

theorem State.restartMask_kept (s : State) (mask : Nat) : s.RestartKeeps (s.restartMask mask) ∧
    ∀ r < 7, bitOf mask r = true → (s.restartMask mask).err.restarting.getLsbD r = true ∧
      (s.err.restarting.getLsbD r = false → (s.restartMask mask).err.isolated.getLsbD r = true) := by
  obtain ⟨hk, hr⟩ := State.restart_fold mask (List.range 7) (fun r hr => List.mem_range.1 hr) s
  exact ⟨hk, fun r h => hr r (List.mem_range.2 h)⟩

theorem State.restartMask_only (s : State) (mask : Nat) : State.Only [.freeCtr, .out, .upsets, .mem, .poison,
    .wbQueue, .cnt, .facets, .sched, .ap, .hbm, .dma, .tmplStatus, .exp, .cnd, .img, .wav, .net, .beam, .host, .err,
    .pwr, .ready] s (s.restartMask mask) :=
  (State.restartMask_via (M := [.freeCtr, .out, .upsets, .mem, .ring, .poison, .wbQueue, .cnt, .facets, .sched, .ap,
    .hbm, .dma, .tmplStatus, .exp, .cnd, .img, .wav, .net, .beam, .host, .note, .err, .pwr, .ready]) (.refl _ s)
    (by decide)).frame

/-- REGION_RESTART begins the restarts of its mask and waits for the last (16 R455). -/
theorem exec_regionRestart {s : State} {flags : Half} {seq : Word} {m : Half}
    (h : s.Takes ⟨.regionRestart m, flags, seq⟩) (h0 : m.toNat ≠ 0) (h1 : m.toNat < 128) :
    exec (.regionRestart flags seq m) s = .next (((s.begun ⟨.regionRestart m, flags, seq⟩).updErr (fun e => { e with
      restartWait := BitVec.ofNat 7 m.toNat, restartDone := 0 })).restartMask m.toNat) := by
  show Host.Outcome.next (s.submit _) = _
  rw [State.submit_fg h rfl]
  show Host.Outcome.next (State.beginRegionRestart _ _ m.toNat) = _
  unfold State.beginRegionRestart
  rw [if_neg (by simp [maskOk, h0, h1])]

end
end Sys2Proof.Machine

open Sys2Proof Sys2Proof.Machine

/-- Settles O42: each command's row is the state in which it begins, changed as its rule says. -/
theorem controlCommands : Obligations.ControlCommands := by
  unfold Obligations.ControlCommands
  intro flags seq s
  refine ⟨?_, ?_, ?_, ?_, ?_⟩
  · intro t staged im d u tick h hr hi hm hq
    have ht : s.tk.tick + 2 ≤ tick := State.startTick_late hm hr
    refine ⟨fun hp => ?_, fun hp => ?_⟩
    · rw [exec_start h hr hi hq]
      exact congrArg _ (State.startWaits_ready ht hp)
    · obtain ⟨v, p, hv, hrest⟩ := State.startWaits_preloads (s := s) (d := d) (staged := staged) ht hp
      exact ⟨v, p, (exec_start h hr hi hq).trans (congrArg _ hv), hrest⟩
  · intro d u h ha
    have hc : (State.completeLater (s.begun ⟨.stop, flags, seq⟩) (s.accepted ⟨.stop, flags, seq⟩) 0
        (leBytes 8 (s.stopTick (bitOf flags.toNat 0))) []).sched = s.sched := by
      rw [State.completeLater_only _ _ _ _ _ .sched (by decide), State.begun_only s _ .sched (by decide)]
    refine ⟨_, exec_stop h ha, State.beginStop_start _ _, fun hs => State.beginStop_stop _ _ (by rw [hc]; exact hs),
      fun hn => State.beginStop_alone _ _ ?_ (by rw [hc]; exact hn), ?_⟩
    · rw [hc]
      simpa [hn] using ha
    · exact (State.completeLater_only _ _ _ _ _ |>.mono (by decide)).trans (State.beginStop_via
        (M := [.out, .ring, .cnt, .sched, .host, .note, .jnl]) (.refl _ _) (by decide)).frame
  · intro t d u h ht hs
    exact exec_snapshot h ht hs
  · intro i j d u x h hi hj
    have hd : u.chan (fin5 i.toNat) (fin8 j.toNat) = x := State.chan_of_dma (State.begun_only s d .dma (by decide))
    have hst : s.sched.start = none → u.sched.start = none := fun e => by
      rw [State.begun_only s d .sched (by decide)]
      exact e
    obtain ⟨c1, c2, c3⟩ := State.abortChannel_cases u (fin5 i.toNat) (fin8 j.toNat)
    rw [hd] at c1 c2 c3
    refine ⟨_, _, exec_dmaAbort h hi hj, fun hp => ?_, fun hp => ?_, fun hp => ?_, ?_⟩
    · rw [c1 hp]
      exact ⟨rfl, rfl⟩
    · obtain ⟨h1, h2⟩ := c2 hp
      exact ⟨h1, fun e => h2 (hst e)⟩
    · obtain ⟨b, hb⟩ := c3 hp
      obtain ⟨h1, h2⟩ := State.toAbort_drained (s := u) (e := fin5 i.toNat) (c := fin8 j.toNat) b
      rw [hd] at h1
      rw [hb]
      exact ⟨rfl, fun hm => ⟨fun e => (h1 hm (hst e)).1, fun e => (h1 hm (hst e)).2⟩, fun hm => ⟨b, h2 hm⟩⟩
    · exact (State.abortChannel_via (M := [.freeCtr, .out, .upsets, .mem, .ring, .poison, .wbQueue, .cnt, .facets,
        .sched, .hbm, .dma, .tmplStatus, .exp, .cnd, .note]) (.refl _ u) (by decide)).frame
  · intro m d h h0 h1
    have hm : m.toNat < 2 ^ 7 := h1
    obtain ⟨hk, hr⟩ := State.restartMask_kept ((s.begun d).updErr (fun e => { e with
      restartWait := BitVec.ofNat 7 m.toNat, restartDone := 0 })) m.toNat
    have hw := State.begun_work s d
    have hfg := congrArg (fun w => w.2.2.1) (hk.work.trans hw)
    have he : (s.begun d).err = s.err := State.begun_only s d .err (by decide)
    refine ⟨_, exec_regionRestart h h0 h1, hfg, ?_, hk.done, fun r hr7 hb => ?_, ?_⟩
    · rw [hk.wait]
      exact Nat.mod_eq_of_lt hm
    · obtain ⟨g1, g2⟩ := hr r hr7 hb
      exact ⟨g1, fun e => g2 (by rw [State.updErr_err, he]; exact e)⟩
    · have h2 := State.restartMask_only ((s.begun d).updErr (fun e => { e with
        restartWait := BitVec.ofNat 7 m.toNat, restartDone := 0 })) m.toNat
      exact ((State.updErr_only _ _).mono (by decide)).trans (h2.mono (by decide))
end

section
namespace Sys2Proof.Machine

/-! ### What the end of a tick leaves (02 R64 to R66)

A Facet that overran publishes its pushes and releases its held records at the edge. Whatever they read and send, the
reports that change in the error state are records alone, the sensor keeps its configuration and its frame, and no
global operation comes or goes. -/

/-- The error state but for reports, the sensor's configuration and frame, the global operations. -/
def State.calm (s : State) := (s.err.rest, s.img.cfg, s.img.frame, s.beam.ops)

section
variable {s t : State}

theorem State.calm_of_only {l : List Field} (h : State.Only l s t) (he : .err ∉ l := by decide)
    (hi : .img ∉ l := by decide) (hb : .beam ∉ l := by decide) : t.calm = s.calm := by
  unfold State.calm
  rw [h .err he, h .img hi, h .beam hb]

theorem State.calm_of_via {K : List Change} (h : State.Via K s t) (he : .err ∉ K.map Change.field := by decide)
    (hi : .img ∉ K.map Change.field := by decide) (hb : .beam ∉ K.map Change.field := by decide) : t.calm = s.calm :=
  State.calm_of_only h.only he hi hb

/-! Updates -/

@[simp] theorem State.count_calm (s : State) (a i n : Nat) : (s.count a i n).calm = s.calm :=
  State.calm_of_via (State.count_via (M := [.cnt]) (.refl _ s) (by decide))

@[simp] theorem State.drawn_calm (s : State) (n : Nat) : (s.drawn n).calm = s.calm := rfl

@[simp] theorem State.clearUpset_calm (s : State) (a : Nat) : (s.clearUpset a).calm = s.calm := rfl

@[simp] theorem State.mark_calm (s : State) (a : Nat) : (s.mark a).calm = s.calm := rfl

@[simp] theorem State.writeUnits_calm (s : State) (a : Nat) (bs : List Byte) (bad : Bool) :
    (s.writeUnits a bs bad).calm = s.calm := rfl

@[simp] theorem State.updHbm_calm (s : State) (g : Hbm → Hbm) : (s.updHbm g).calm = s.calm := rfl

@[simp] theorem State.updHost_calm (s : State) (g : HostCtl → HostCtl) : (s.updHost g).calm = s.calm := rfl

@[simp] theorem State.updFacet_calm (s : State) (f : Fin 16) (g : Facet → Facet) : (s.updFacet f g).calm = s.calm := rfl

@[simp] theorem State.updSched_calm (s : State) (g : Sched → Sched) : (s.updSched g).calm = s.calm := rfl

@[simp] theorem State.updWav_calm (s : State) (g : Wav → Wav) : (s.updWav g).calm = s.calm := rfl

@[simp] theorem State.updStream_calm (s : State) (i : Fin 5) (g : StreamSt → StreamSt) :
    (s.updStream i g).calm = s.calm := rfl

@[simp] theorem State.updPeer_calm (s : State) (i : Nat) (g : Peer → Peer) : (s.updPeer i g).calm = s.calm := rfl

@[simp] theorem State.setTx_calm (s : State) (w : Fin 16) (v : Option TxWin) : (s.setTx w v).calm = s.calm := rfl

@[simp] theorem State.fault_calm (s : State) (a b c d e : Nat) (x : List Byte) : (s.fault a b c d e x).calm = s.calm :=
  State.calm_of_via (State.fault_via (M := [.out, .ring, .cnt, .note]) (.refl _ s) (by decide))

@[simp] theorem State.tickFaultK_calm (s : State) (a b c d e x n : Nat) (y : List Byte) :
    (s.tickFaultK a b c d e x n y).calm = s.calm :=
  State.calm_of_via (State.tickFaultK_via (M := [.note]) (.refl _ s) (by decide))

@[simp] theorem State.errorRec_calm (s : State) (a b c d e x : Nat) (y : List Byte) :
    (s.errorRec a b c d e x y).calm = s.calm := by
  have h := State.errorRec_via (M := [.cnt, .err]) (status := a) (region := b) (block := c) (addr := d) (level := e)
    (action := x) (detail := y) (.refl _ s) (by decide)
  unfold State.calm
  rw [State.errorRec_rest, h.only .img (by decide), h.only .beam (by decide)]

@[simp] theorem State.facetReport_calm (s : State) (f : Fin 16) (a b c : Nat) :
    (s.facetReport f a b c).calm = s.calm := by
  unfold State.facetReport State.tickFault
  simp

/-! Reads of the device -/

@[simp] theorem State.readUnit_calm (s : State) (g : Fin 16) (u : Nat) : (s.readUnit g u).2.2.calm = s.calm := by
  unfold State.readUnit
  extract_lets a s1 s2
  split
  · simp
  · split
    · rfl
    · simp [s1, State.facetError]
    · dsimp only
      split
      · simp [s2]
      · split
        · exact State.count_calm _ _ _ _
        · simp [s2]

@[simp] theorem State.readGranule_calm (s : State) (a : Nat) : (s.readGranule a).2.2.calm = s.calm := by
  unfold State.readGranule
  extract_lets c s1
  split
  · simp
  · split
    · rfl
    · simp
    · simp
    · simp [s1]

@[simp] theorem State.poisonedGroup_calm (s : State) (i : Fin 5) : (s.poisonedGroup i).calm = s.calm := by
  unfold State.poisonedGroup
  extract_lets was s1
  split
  · simp [s1]
  · simp [s1]

@[simp] theorem State.lineParity_calm (s : State) (a : Nat) : (s.lineParity a).calm = s.calm := by
  unfold State.lineParity
  split
  · simp
  · simp

@[simp] theorem State.readPiece_calm (s : State) (a : Nat) : (s.readPiece a).2.2.calm = s.calm := by
  have sram : (s.sramError a).calm = s.calm := State.errorRec_calm _ _ _ _ _ _ _ _
  unfold State.readPiece
  split
  case h_1 => simp
  case h_2 => simp
  case h_3 =>
    split
    · rfl
    · split
      · simp
      · rfl
  case h_8 => rfl
  all_goals
    split
    · exact sram
    · split
      · rfl
      · split
        · rfl
        · split <;> rfl

@[simp] theorem State.readPieces_calm (n : Nat) : ∀ (s : State) (a : Nat), (s.readPieces a n).2.2.calm = s.calm := by
  induction n with
  | zero => exact fun s a => rfl
  | succ n ih =>
    intro s a
    unfold State.readPieces
    exact (ih _ _).trans (State.readPiece_calm s a)

@[simp] theorem State.readDev_calm (s : State) (a n : Nat) : (s.readDev a n).2.2.calm = s.calm := by
  unfold State.readDev
  extract_lets s1
  have h1 : s1.calm = s.calm := by
    unfold s1
    split
    · rfl
    · rfl
  split
  · exact h1
  · exact (State.readPieces_calm _ s1 a).trans h1

@[simp] theorem State.readUnits_calm (us : List (Nat × Bool)) : ∀ (s : State) (i : Nat),
    (s.readUnits us i).2.2.calm = s.calm := by
  induction us with
  | nil => exact fun s i => rfl
  | cons u us ih =>
    intro s i
    unfold State.readUnits
    exact (ih _ _).trans (State.readDev_calm s _ _)

@[simp] theorem State.readBuffer_calm (s : State) (e : EmitRec) : (s.readBuffer e).2.2.calm = s.calm :=
  State.readUnits_calm _ s 0

/-! Records released (02 R41) -/

@[simp] theorem State.judged_calm (s : State) (p : EgressPath) (ok : Bool) : (s.judged p ok).calm = s.calm :=
  State.calm_of_via (State.judged_via (M := [.cnt, .note]) (.refl _ s) (by decide))

@[simp] theorem State.placeRec_calm (s : State) (r : EventRec) : (s.placeRec r).calm = s.calm :=
  State.calm_of_via (State.placeRec_via (M := [.out, .ring, .cnt, .note]) (.refl _ s) (by decide))

@[simp] theorem State.judgeBuffer_calm (s : State) (p : EgressPath) (e : EmitRec) :
    (s.judgeBuffer p e).2.calm = s.calm :=
  State.calm_of_via (State.judgeBuffer_via (M := [.cnt, .ap, .note]) (.refl _ s) (by decide))

@[simp] theorem State.putBuffer_calm (s : State) (e : EmitRec) : (s.putBuffer e).2.calm = s.calm := by
  have h (u : State) (a : Nat) (bs : List Byte) : (u.ringWrite a bs).calm = u.calm :=
    State.calm_of_via (State.ringWrite_via (M := [.mem]) (.refl _ u) (by decide))
  unfold State.putBuffer
  exact (h _ _ _).trans (State.readBuffer_calm s e)

@[simp] theorem State.emitHost_calm (s : State) (f : Fin 16) (q inv : Nat) (e : EmitRec) :
    (s.emitHost f q inv e).calm = s.calm := by
  unfold State.emitHost
  split
  · simp
  · split
    · split <;> simp
    · split
      · dsimp only
        split <;> simp
      · simp

@[simp] theorem State.beamSend_calm (s : State) (i : Nat) (f : BeamFrame) : (s.beamSend i f).calm = s.calm := by
  have h (u : State) (g : BeamFrame) : (u.beamQueue i g).calm = u.calm :=
    State.calm_of_via (State.beamQueue_via (M := [.net]) (.refl _ u) (by decide))
  unfold State.beamSend
  split
  · rfl
  · extract_lets p f s1
    rw [h, State.updPeer_calm]
    unfold s1
    split <;> simp

@[simp] theorem State.beamData_calm (s : State) (w : Fin 16) (flags units off len frag : Nat) (pl : List Byte)
    (chan : Nat) : (s.beamData w flags units off len frag pl chan).calm = s.calm := by
  have h (u : State) (i kind win : Nat) (ctl : Option BeamCtl) (ch : Option Nat) :
      (u.beamSeq i kind flags win off len frag pl ctl ch).calm = u.calm := by
    unfold State.beamSeq
    split
    · rfl
    · extract_lets f
      split <;> simp
  unfold State.beamData
  split
  · rfl
  · extract_lets s1
    rw [h]
    unfold s1
    split <;> simp

@[simp] theorem State.emitFrames_calm (w : Fin 16) (off len n : Nat) : ∀ (s : State) (frag : Nat) (bs : List Byte),
    (s.emitFrames w off len n frag bs).calm = s.calm := by
  induction n with
  | zero => exact fun s frag bs => rfl
  | succ n ih =>
    intro s frag bs
    unfold State.emitFrames
    exact (ih _ _ _).trans (State.beamData_calm _ _ _ _ _ _ _ _ _)

@[simp] theorem State.emitBeam_calm (s : State) (f : Fin 16) (q : Nat) (e : EmitRec) :
    (s.emitBeam f q e).calm = s.calm := by
  unfold State.emitBeam
  extract_lets w n
  split
  · rfl
  · split
    · rfl
    · dsimp only
      split
      · simp
      · simp

@[simp] theorem State.emitActs_calm (s : State) (f : Fin 16) (e : EmitRec) : (s.emitActs f e).calm = s.calm := by
  unfold State.emitActs
  split
  · rfl
  · split
    · rfl
    · rfl

@[simp] theorem State.releaseEmit_calm (s : State) (f : Fin 16) (inv : Bool) (e : EmitRec) :
    (s.releaseEmit f inv e).calm = s.calm := by
  have ht (u : State) : (u.emitTemplate e).calm = u.calm :=
    State.calm_of_via (State.emitTemplate_via (M := [.freeCtr, .cnt, .net, .note]) (.refl _ u) (by decide))
  have hq : (s.nextSeq (srcFacet f)).2.calm = s.calm :=
    State.calm_of_via (State.nextSeq_via (M := [.note]) (.refl _ s) (by decide))
  unfold State.releaseEmit
  dsimp only
  split
  · simp [hq]
  · split <;> split <;> split <;> simp [ht, hq]

@[simp] theorem State.releaseEmits_calm (s : State) (f : Fin 16) : (s.releaseEmits f).calm = s.calm := by
  unfold State.releaseEmits
  extract_lets es inv
  exact List.foldlRecOn (motive := fun u : State => u.calm = s.calm) es _ rfl
    (fun u hu e _ => (State.releaseEmit_calm u f inv e).trans hu)

/-! The edge -/

@[simp] theorem State.overrunFacet_calm (s : State) (f : Fin 16) : (s.overrunFacet f).calm = s.calm := by
  have hj (u : State) (d : List Byte) : (u.openJournal.journalDev 0xFF02 0x0220 d).calm = u.calm :=
    State.calm_of_via (State.journalDev_via (M := [.mem, .ring, .jnl, .ready])
      (State.openJournal_via (.refl _ u) (by decide)) (by decide))
  have hp (u : State) : (u.publishAll f).calm = u.calm :=
    State.calm_of_via (State.publishAll_via (M := [.cnt, .facets]) (.refl _ u) (by decide))
  unfold State.overrunFacet
  extract_lets x late sec s1 s2 s3 s4
  split
  · rfl
  · rw [State.releaseEmits_calm, hp]
    unfold s4
    split <;> simp [hj, s3, s2, s1]

end
end Sys2Proof.Machine
end

section
namespace Sys2Proof.Machine

/-! ### Facets, one after the other -/

/-- A fold that does its part for each of several Facets once: what is seen of a Facet afterwards. -/
theorem fold_once {β : Type} {O : State → Fin 16 → β} {F : State → Nat → State} {G : Nat → β → β} {P : State → Prop}
    (hP : ∀ u k, P u → P (F u k))
    (hF : ∀ u k (h : Fin 16), P u → k < 16 → O (F u k) h = if h.val = k then G k (O u h) else O u h)
    (h : Fin 16) (l : List Nat) (hl : l.Nodup) (hb : ∀ k ∈ l, k < 16) : ∀ s, P s →
    O (l.foldl F s) h = if h.val ∈ l then G h.val (O s h) else O s h := by
  induction l with
  | nil => exact fun s _ => by simp
  | cons k l ih =>
    intro s hs
    obtain ⟨hk, hl⟩ := List.nodup_cons.1 hl
    rw [List.foldl_cons, ih hl (fun j hj => hb j (by simp [hj])) _ (hP s k hs), hF s k h hs (hb k (by simp))]
    by_cases he : h.val = k
    · simp [he, hk]
    · simp [he]

theorem fin16_val {k : Nat} (h : k < 16) (g : Fin 16) : fin16 k = g ↔ g.val = k := by
  constructor
  · rintro rfl
    exact Nat.mod_eq_of_lt h
  · intro e
    exact Fin.ext ((Nat.mod_eq_of_lt h).trans e.symm)

/-! ### A Facet but for its regions and held records -/

/-- A Facet without its circular regions and its held records. -/
def Facet.bare (x : Facet) : Facet := { x with regions := Facet.reset.regions, emits := [] }

/-- A Facet still executes. -/
def Facet.late (x : Facet) : Bool :=
  match x.phase with
  | .running => true
  | .waiting => true
  | _ => false

/-- A Facet at the end of a tick, in a second of TIME: one that still executes has overrun it (02 R65). -/
def Facet.closed (sec : Nat) (x : Facet) : Facet :=
  if x.late then
    { x with invalid := true, overruns := x.overruns + 1, overrunSec := some sec, phase := .ended, prog := [] }
  else x

theorem Facet.closed_late {sec : Nat} {x : Facet} (h : x.late = true) : x.closed sec =
    { x with invalid := true, overruns := x.overruns + 1, overrunSec := some sec, phase := .ended, prog := [] } :=
  if_pos h

theorem Facet.closed_done {sec : Nat} {x : Facet} (h : x.late = false) : x.closed sec = x := by
  unfold Facet.closed
  rw [h]
  rfl

section
variable {s : State}

theorem State.updRegion_bare (s : State) (f r h : Fin 16) (g : RegionSt → RegionSt) :
    ((s.updRegion f r g).facets[h]).bare = (s.facets[h]).bare := by
  unfold State.updRegion
  rw [State.updFacet_get]
  split
  · rfl
  · rfl

theorem State.regionTo_bare (s : State) (f r h : Fin 16) (x : RegionSt × Nat) :
    ((s.regionTo f r x).facets[h]).bare = (s.facets[h]).bare := by
  have hv : State.Via [.cnt] (s.updRegion f r (fun _ => x.1)) (s.regionTo f r x) :=
    State.highWater_via (State.count_via (.refl _ _) (by decide)) (by decide)
  rw [show (s.regionTo f r x).facets = _ from hv.only .facets (by decide), State.updRegion_bare]

theorem State.publishPushes_bare (s : State) (p g r h : Fin 16) :
    ((s.publishPushes p g r).facets[h]).bare = (s.facets[h]).bare := by
  unfold State.publishPushes
  extract_lets x y
  split
  · split
    · exact State.updRegion_bare _ _ _ _ _
    · split
      · rfl
      · exact State.regionTo_bare _ _ _ _ _
  · rfl

theorem State.publishAll_bare (s : State) (p h : Fin 16) :
    ((s.publishAll p).facets[h]).bare = (s.facets[h]).bare := by
  unfold State.publishAll
  refine List.foldlRecOn (motive := fun u : State => (u.facets[h]).bare = (s.facets[h]).bare) _ _ rfl
    fun u hu g _ => ?_
  refine List.foldlRecOn (motive := fun u : State => (u.facets[h]).bare = (s.facets[h]).bare) _ _ hu
    fun v hv r _ => ?_
  exact (State.publishPushes_bare _ _ _ _ _).trans hv

theorem State.releaseEmits_bare (s : State) (f h : Fin 16) :
    ((s.releaseEmits f).facets[h]).bare = (s.facets[h]).bare := by
  unfold State.releaseEmits
  extract_lets es inv
  have hr := foldl_via (l := es) (f := fun u e => u.releaseEmit f inv e)
    (M := [.freeCtr, .out, .upsets, .mem, .ring, .poison, .wbQueue, .cnt, .ap, .hbm, .img, .wav, .net, .beam, .note,
      .err]) (.refl _ (s.updFacet f (fun x => { x with emits := [] })))
    (fun u e hu => State.releaseEmit_via hu (by decide))
  rw [show _ = _ from hr.only .facets (by decide), State.updFacet_get]
  split
  · rfl
  · rfl

/-! ### The end of a tick (02 R64 to R66) -/

/-- What an overrun can change. -/
abbrev overrunKinds : List Change := [.freeCtr, .out, .upsets, .mem, .ring, .poison, .wbQueue, .cnt, .facets, .file,
  .ap, .hbm, .img, .wav, .net, .beam, .note, .jnl, .err, .ready]

theorem State.overrunFacet_bare (s : State) (f h : Fin 16) : ((s.overrunFacet f).facets[h]).bare =
    if h = f then (s.facets[h]).bare.closed (s.tk.now / 1000000000) else (s.facets[h]).bare := by
  unfold State.overrunFacet
  extract_lets x late sec s1 s2 s3 s4
  have hl : (s.facets[f]).bare.late = late := rfl
  split
  · next hn =>
    split
    · next e =>
      subst e
      exact (Facet.closed_done (hl.trans (by simpa using hn))).symm
    · rfl
  · next hn =>
    have h4 : State.Via [.mem, .out, .ring, .cnt, .note, .err, .jnl, .ready] s1 s4 := by
      have h3 : State.Via [.mem, .out, .ring, .cnt, .note, .err, .jnl, .ready] s1 s3 :=
        State.fault_via (State.errorRec_via (State.count_via (.refl _ s1) (by decide)) (by decide)) (by decide)
      unfold s4
      split
      · exact h3
      · exact State.journalDev_via (State.openJournal_via h3 (by decide)) (by decide)
    rw [State.releaseEmits_bare, State.publishAll_bare, h4.only .facets (by decide)]
    unfold s1
    rw [State.updFacet_get]
    by_cases e : f = h
    · subst e
      rw [if_pos rfl, if_pos rfl, Facet.closed_late (hl.trans (by simpa using hn))]
      rfl
    · rw [if_neg e, if_neg (Ne.symm e)]

/-- Every Facet's part of the end of a tick. -/
def State.overrunAll (s : State) : State := (List.range 16).foldl (fun s f => s.overrunFacet (fin16 f)) s

theorem State.overrunAll_via (s : State) : State.Via overrunKinds s s.overrunAll :=
  foldl_via (.refl _ s) fun _ _ hu => State.overrunFacet_via hu (by decide)

theorem State.overrunAll_bare (s : State) (h : Fin 16) :
    (s.overrunAll.facets[h]).bare = (s.facets[h]).bare.closed (s.tk.now / 1000000000) := by
  have := fold_once (O := fun u h => (u.facets[h]).bare) (F := fun u k => u.overrunFacet (fin16 k))
    (G := fun _ => Facet.closed (s.tk.now / 1000000000)) (P := fun u => u.tk = s.tk)
    (fun u k hu => ((State.overrunFacet_via (M := overrunKinds) (.refl _ u) (by decide)).only .tk (by decide)).trans hu)
    (fun u k h hu hk => by
      rw [State.overrunFacet_bare, hu]
      simp only [eq_comm (a := h), fin16_val hk])
    h (List.range 16) List.nodup_range (fun k hk => List.mem_range.1 hk) s rfl
  rw [if_pos (List.mem_range.2 h.isLt)] at this
  exact this

/-- The schedule but for its figures. -/
def Sched.plan (x : Sched) : Sched := { x with validTicks := 0, invalidTicks := 0, suspendedTicks := 0 }

theorem State.countTick_plan (s : State) : s.countTick.sched.plan = s.sched.plan := by
  unfold State.countTick
  split
  · rfl
  · next im him =>
    extract_lets fs bad main s1
    have h1 : State.Via [.facets] s s1 := foldl_via (.refl _ s) fun _ _ hu => State.updFacet_via hu (by decide)
    rw [State.updSched_sched]
    show Sched.plan s1.sched = _
    rw [h1.only .sched (by decide)]

/-- A Facet of the running image's mask has its figures counted. -/
theorem State.countTick_bare {im : Image} (hr : s.runningImage = some im) {h : Fin 16}
    (hm : bitOf im.mask h.val = true) :
    (s.countTick.facets[h]).bare = (s.facets[h]).bare.counted := by
  have hf := fold_once (O := fun u h => (u.facets[h]).bare) (F := fun u k => u.updFacet (fin16 k) Facet.counted)
    (G := fun _ => Facet.counted) (P := fun _ => True) (fun _ _ _ => trivial)
    (fun u k h _ hk => by
      rw [State.updFacet_get]
      simp only [fin16_val hk]
      split
      · rfl
      · rfl)
    h ((List.range 16).filter (bitOf im.mask)) (List.nodup_range.filter _)
    (fun k hk => List.mem_range.1 (List.mem_filter.1 hk).1) s trivial
  rw [if_pos (List.mem_filter.2 ⟨List.mem_range.2 h.isLt, hm⟩)] at hf
  unfold State.countTick
  rw [hr]
  exact hf

theorem State.endTick_eq (s : State) :
    s.endTick = s.overrunAll.countTick.flushFaults.updErr (fun e => { e with made := [] }) := rfl

/-- The reports and figures that end a tick, after its overruns. -/
theorem State.endTick_tail_via (s : State) :
    State.Via [.out, .ring, .cnt, .note, .err] s.overrunAll.countTick s.endTick := by
  rw [State.endTick_eq]
  exact State.updErr_via (State.flushFaults_via (.refl _ _) (by decide)) (by decide) (fun _ => rfl)

theorem State.endTick_only (s : State) : State.Only [.freeCtr, .out, .upsets, .mem, .poison, .wbQueue, .cnt, .facets,
    .sched, .ap, .hbm, .img, .wav, .net, .beam, .host, .jnl, .err, .ready] s s.endTick :=
  (State.endTick_via (M := [.freeCtr, .out, .upsets, .mem, .ring, .poison, .wbQueue, .cnt, .facets, .file, .sched,
    .ap, .hbm, .img, .wav, .net, .beam, .note, .jnl, .err, .ready]) (.refl _ s) (by decide)).frame

theorem State.endTick_work (s : State) : s.endTick.host.mute = s.host.mute :=
  ((State.endTick_via (M := [.freeCtr, .out, .upsets, .mem, .ring, .poison, .wbQueue, .cnt, .facets, .file, .sched,
    .ap, .hbm, .img, .wav, .net, .beam, .note, .jnl, .err, .ready]) (.refl _ s) (by decide)).told (by decide)).host

theorem State.endTick_plan (s : State) : s.endTick.sched.plan = s.sched.plan := by
  rw [s.endTick_tail_via.only .sched (by decide), State.countTick_plan, s.overrunAll_via.only .sched (by decide)]

theorem State.clearMade_calm (s : State) : (s.updErr (fun e => { e with made := [] })).calm = s.calm := rfl

theorem State.endTick_calm (s : State) : s.endTick.calm = s.calm := by
  have h1 : s.overrunAll.calm = s.calm :=
    List.foldlRecOn (motive := fun u : State => u.calm = s.calm) (List.range 16) _ rfl
      (fun u hu f _ => (State.overrunFacet_calm u (fin16 f)).trans hu)
  have h2 : s.overrunAll.countTick.calm = s.overrunAll.calm :=
    State.calm_of_via (State.countTick_via (M := [.facets, .sched]) (.refl _ _) (by decide))
  have h3 : s.overrunAll.countTick.flushFaults.calm = s.overrunAll.countTick.calm :=
    State.calm_of_via (State.flushFaults_via (M := [.out, .ring, .cnt, .note]) (.refl _ _) (by decide))
  rw [State.endTick_eq, State.clearMade_calm]
  exact h3.trans (h2.trans h1)

/-- READY.JOURNAL alone can come on at the end of a tick, when an overrun is journalled (16 R449). -/
theorem State.openJournal_isReady (s : State) {b : Nat} (hb : b ≠ 17) : s.openJournal.isReady b = s.isReady b := by
  have h := (State.restoreJournal_via (M := [.mem, .ring, .jnl]) (.refl _ s) (by decide)).only .ready (by decide)
  unfold State.openJournal
  split
  · rfl
  · unfold State.isReady State.setReady
    rw [if_pos rfl, BitVec.getLsbD_or, BitVec.getLsbD_ofNat, Nat.testBit_two_pow, h]
    simp [Ne.symm hb]

theorem State.isReady_of_only {s t : State} {l : List Field} (h : State.Only l s t) (hl : .ready ∉ l := by decide)
    {b : Nat} : t.isReady b = s.isReady b := by
  unfold State.isReady
  rw [h .ready hl]

theorem State.overrunFacet_isReady (s : State) (f : Fin 16) {b : Nat} (hb : b ≠ 17) :
    (s.overrunFacet f).isReady b = s.isReady b := by
  unfold State.overrunFacet
  extract_lets x late sec s1 s2 s3 s4
  split
  · rfl
  · have h3 : State.Via [.facets, .out, .ring, .cnt, .note, .err] s s3 :=
      State.fault_via (State.errorRec_via (State.count_via (State.updFacet_via (.refl _ s) (by decide)) (by decide))
        (by decide)) (by decide)
    have h4 : s4.isReady b = s.isReady b := by
      unfold s4
      split
      · exact State.isReady_of_only h3.only
      · rw [State.isReady_of_only (State.journalDev_via (M := [.ring, .jnl]) (.refl _ _) (by decide)).only,
          State.openJournal_isReady _ hb]
        exact State.isReady_of_only h3.only
    rw [← h4]
    exact State.isReady_of_only (State.releaseEmits_via (M := [.freeCtr, .out, .upsets, .mem, .ring, .poison, .wbQueue,
      .cnt, .facets, .file, .ap, .hbm, .img, .wav, .net, .beam, .note, .err])
      (State.publishAll_via (.refl _ s4) (by decide)) (by decide)).only

theorem State.endTick_isReady (s : State) {b : Nat} (hb : b ≠ 17) : s.endTick.isReady b = s.isReady b := by
  have h1 : s.overrunAll.isReady b = s.isReady b :=
    List.foldlRecOn (motive := fun u : State => u.isReady b = s.isReady b) (List.range 16) _ rfl
      (fun u hu f _ => (State.overrunFacet_isReady u (fin16 f) hb).trans hu)
  rw [State.isReady_of_only s.endTick_tail_via.only, ← h1]
  exact State.isReady_of_only (State.countTick_via (M := [.facets, .sched]) (.refl _ _) (by decide)).only

/-- The figures of a Facet of the running image at the end of a tick. -/
theorem State.endTick_bare {im : Image} (hr : s.runningImage = some im) {h : Fin 16} (hm : bitOf im.mask h.val = true) :
    (s.endTick.facets[h]).bare = ((s.facets[h]).bare.closed (s.tk.now / 1000000000)).counted := by
  have hr' : s.overrunAll.runningImage = some im := by
    unfold State.runningImage
    rw [s.overrunAll_via.only .sched (by decide)]
    exact hr
  rw [s.endTick_tail_via.only .facets (by decide), State.countTick_bare hr' hm, State.overrunAll_bare]

end
end Sys2Proof.Machine
end

section
namespace Sys2Proof.Machine

/-! ### The state in which the next tick is in force (02 R32 to R34) -/

section
variable {s t v : State}

theorem State.creditBucket_tk (s : State) : s.creditBucket.tk = s.tk :=
  (State.creditBucket_via (M := [.cnt, .hbm]) (.refl _ s) (by decide)).only .tk (by decide)

theorem State.setTime_tk (s : State) (t0 : Nat) : (s.setTime t0).tk = { s.tk with now := t0 % 2 ^ 64 } := by
  unfold State.setTime
  extract_lets t
  split
  · rw [State.creditBucket_tk]
  · rfl

/-- The number of a tick put in force. -/
def State.inForce (s : State) (n : TimeSt) : State :=
  { s with tk := { s.tk with
    tick := n.tick, sec := n.sec, k := n.k, edge := n.edge, rate := n.rate, pendingRate := n.pendingRate } }

theorem State.inForce_only (s : State) (n : TimeSt) : State.Only [.tk] s (s.inForce n) :=
  (State.via_tk rfl : State.Via [.tk] s (s.inForce n)).only

/-- TIME at the edge to come. -/
def State.atEdge (s : State) : State := s.setTime (max s.tk.now s.tk.nextEdge.edge)

/-- The tick has ended and the number of the next is in force. -/
def State.ticked (s : State) : State := s.atEdge.endTick.inForce s.tk.nextEdge

theorem execTickEdge_eq (h : s.pwr.pll[8] = .good) (px : Int) (rows : List RawRow) : execTickEdge px rows s =
    .next (if s.ticked.activationDue s.ticked.tk.tick then s.ticked.activateNow else s.ticked.newTick px rows) := by
  have hp : s.pllOf dTime = .good := by
    simp [State.pllOf, dTime, h]
  unfold execTickEdge
  rw [if_neg (by simp [hp])]
  unfold State.ticked State.inForce State.atEdge
  rfl

theorem State.atEdge_only (s : State) : State.Only [.cnt, .tk, .hbm, .idle] s s.atEdge :=
  (State.setTime_via (M := [.cnt, .tk, .hbm, .idle]) (.refl _ s) (by decide)).frame

theorem State.ticked_tk (s : State) :
    s.ticked.tk = { s.tk.nextEdge with now := max s.tk.now s.tk.nextEdge.edge % 2 ^ 64 } := by
  have hu : s.atEdge.endTick.tk = { s.tk with now := max s.tk.now s.tk.nextEdge.edge % 2 ^ 64 } :=
    (State.endTick_only _ .tk (by decide)).trans (State.setTime_tk _ _)
  unfold State.ticked State.inForce
  dsimp only
  rw [hu]
  unfold TimeSt.nextEdge
  split
  · rfl
  · rfl

theorem State.ticked_only (s : State) : State.Only [.freeCtr, .out, .upsets, .mem, .poison, .wbQueue, .cnt, .tk,
    .facets, .sched, .ap, .hbm, .img, .wav, .net, .beam, .host, .jnl, .err, .idle, .ready] s s.ticked :=
  (s.atEdge_only.mono (by decide)).trans
    ((s.atEdge.endTick_only.mono (by decide)).trans ((State.inForce_only _ _).mono (by decide)))

theorem State.ticked_mute (s : State) : s.ticked.host.mute = s.host.mute := by
  unfold State.ticked
  rw [State.inForce_only _ _ .host (by decide), State.endTick_work, s.atEdge_only .host (by decide)]

theorem State.ticked_plan (s : State) : s.ticked.sched.plan = s.sched.plan := by
  unfold State.ticked
  rw [State.inForce_only _ _ .sched (by decide), State.endTick_plan, s.atEdge_only .sched (by decide)]

theorem State.ticked_calm (s : State) : s.ticked.calm = s.calm :=
  (State.calm_of_only (State.inForce_only _ _)).trans
    ((State.endTick_calm _).trans (State.calm_of_only s.atEdge_only))

theorem State.ticked_isReady (s : State) {b : Nat} (hb : b ≠ 17) : s.ticked.isReady b = s.isReady b :=
  (State.isReady_of_only (State.inForce_only _ _)).trans
    ((State.endTick_isReady _ hb).trans (State.isReady_of_only s.atEdge_only))

/-- The figures of a Facet of the running image when its tick has ended. -/
theorem State.ticked_bare {im : Image} (hr : s.runningImage = some im) {h : Fin 16} (hm : bitOf im.mask h.val = true) :
    ∃ sec, (s.ticked.facets[h]).bare = ((s.facets[h]).bare.closed sec).counted := by
  have hr' : s.atEdge.runningImage = some im := by
    unfold State.runningImage
    rw [s.atEdge_only .sched (by decide)]
    exact hr
  have hf := State.endTick_bare hr' hm
  rw [s.atEdge_only .facets (by decide)] at hf
  unfold State.ticked
  rw [State.inForce_only _ _ .facets (by decide)]
  exact ⟨_, hf⟩

/-! ### Steps of the edge that find nothing to do -/

theorem State.snapEdge_none (h : s.err.snap = none) : s.snapEdge = s := by
  unfold State.snapEdge
  rw [h]

theorem State.globalAt_nil {tick : Nat} (h : s.beam.ops = []) : s.globalAt tick = s := by
  unfold State.globalAt
  rw [h]
  rfl

theorem State.stopEdge_none (h : s.sched.stop = none) : s.stopEdge = s := by
  unfold State.stopEdge
  rw [h]

theorem State.startEdge_none (h : s.sched.start = none) : s.startEdge = s := by
  unfold State.startEdge
  rw [h]

theorem State.shedEdge_level {edge : Nat} {rows : List RawRow} (h : s.pwr.shed = s.pwr.target) :
    s.shedEdge edge rows = s := by
  unfold State.shedEdge
  rw [h]
  simp

theorem State.levelEdge_none (h : s.pwr.change = none) : s.levelEdge = s := by
  unfold State.levelEdge
  rw [h]

theorem State.rejoinAt_zero {tick time : Nat} (h : s.err.rejoin = 0) : s.rejoinAt tick time = s := by
  unfold State.rejoinAt
  refine List.foldlRecOn (motive := fun u : State => u = s) _ _ rfl fun u hu r _ => ?_
  subst hu
  rw [h]
  simp

theorem State.fixActivation_none (h : s.trust.activate = none) : s.fixActivation = s := by
  unfold State.fixActivation
  rw [h]

theorem State.frameEdge_none {t time : Nat} {theta : Int} (h : s.img.cfg = none) : s.frameEdge t time theta = s := by
  unfold State.frameEdge
  rw [h]

theorem State.deferStart_none (h : s.sched.start = none) : s.deferStart = s := by
  unfold State.deferStart
  rw [h]

theorem State.settle_quiet (h : s.quiet) : s.settle = s := by
  obtain ⟨hs, hd⟩ := h
  unfold State.settle State.armPreloads
  rw [hs]
  dsimp only
  unfold State.fixStart
  rw [hs]
  dsimp only
  unfold State.runDeferred
  rw [hd]
  unfold State.runDeferredN
  rw [hd]
  cases s.host.fg <;> rfl

theorem State.applyStep_none (h : s.tk.stepPending = none) : s.applyStep = s := by
  unfold State.applyStep
  rw [h]

/-! ### What follows shedding and level changes at an edge -/

/-- What takes effect at an edge up to the rejoining of regions. -/
def State.edgeHead (s : State) (rows : List RawRow) : State :=
  let s := (s.snapEdge.globalAt s.tk.tick).stopEdge.startEdge
  ((s.shedEdge s.tk.edge rows).levelEdge).rejoinAt s.tk.tick s.tk.edge

/-- The programs, templates and waits of the tick, the activation being fixed. -/
def State.edgePrograms (s : State) : State :=
  s.fixActivation.apertureEdge.modeEdge.slotEdge.armEdge.waitEdge

/-- The sensor's frame and the allowance of the tick. -/
def State.edgeFrame (s : State) (pixel : Int) : State := (s.frameEdge s.tk.tick s.tk.edge pixel).rateEdge

/-- The rest of an edge. -/
def State.edgeTail (s : State) (pixel : Int) : State :=
  ((s.edgePrograms.edgeFrame pixel).deferStart.settle.applyStep.noteIdle).syncGates srcPower

theorem State.newTick_eq (s : State) (px : Int) (rows : List RawRow) :
    s.newTick px rows = (s.edgeHead rows).edgeTail px := rfl

/-- Nothing is left for the rest of an edge: no activation, no START, no command that waits, no step of TIME. -/
structure State.Rests (s : State) : Prop where
  activate : s.trust.activate = none
  quiet : s.quiet
  step : s.tk.stepPending = none

end
end Sys2Proof.Machine
end

section
namespace Sys2Proof.Machine

/-! ### The clock gates change nothing else of power (15 R424, R425) -/

/-- Power but for its clock gates. -/
def Power.ungated (p : Power) : Power := { p with gates := 0 }

section
variable {s t v : State}

theorem State.gateOff_ungated (s : State) (n req : Nat) : (s.gateOff n req).pwr.ungated = s.pwr.ungated := by
  unfold State.gateOff
  split
  · rw [(State.powerRec_via (M := [.out, .ring, .cnt, .note]) (.refl _ s) (by decide)).only .pwr (by decide)]
  · rfl

theorem State.gateOn_ungated (s : State) (n k : Nat) : (s.gateOn n k).pwr.ungated = s.pwr.ungated := by
  induction k generalizing n with
  | zero => rfl
  | succ k ih =>
    unfold State.gateOn
    split
    · split
      · rfl
      · exact ih _
    · rfl

theorem State.syncGates_ungated (s : State) (req : Nat) : (s.syncGates req).pwr.ungated = s.pwr.ungated := by
  unfold State.syncGates
  extract_lets s1
  have h1 : s1.pwr.ungated = s.pwr.ungated :=
    List.foldlRecOn (motive := fun u : State => u.pwr.ungated = s.pwr.ungated) _ _ rfl fun u hu n _ => by
      split
      · exact (State.gateOff_ungated _ _ _).trans hu
      · exact hu
  exact List.foldlRecOn (motive := fun u : State => u.pwr.ungated = s.pwr.ungated) _ _ h1 fun u hu n _ => by
    split
    · exact (State.gateOn_ungated _ _ _).trans hu
    · exact hu

/-! ### The rest of an edge -/

/-- A frame that starts or ends at the edge reports no error. -/
theorem State.frameEdge_lines {n time : Nat} {theta : Int} (hs : State.Via frameKinds v s) :
    State.Via frameKinds v (s.frameEdge n time theta) := by
  unfold State.frameEdge
  split
  · split
    · extract_lets s1
      have h1 : State.Via frameKinds v s1 := by
        unfold s1
        split
        · exact State.endFrame_lines hs
        · exact hs
      split
      · exact State.startFrame_via h1 (by decide)
      · exact State.skipSlot_via h1 (by decide)
    · exact hs
  · exact hs

/-- What runs from an edge on changes in the schedule alone whether the main program does. -/
theorem State.modeEdge_sched (s : State) : ∃ m r, s.modeEdge.sched = { s.sched with mode := m, resume := r } := by
  unfold State.modeEdge
  split
  · exact ⟨_, _, rfl⟩
  · split
    · split
      · exact ⟨_, _, rfl⟩
      · split
        · have h := foldl_via (l := List.range 16) (f := fun u f => u.emptyRegions (fin16 f)) (M := [.cnt, .facets])
            (.refl _ (s.updSched (fun x => { x with mode := .main, resume := false })))
            (fun u f hu => State.emptyRegions_via hu (by decide))
          exact ⟨.main, false, h.only .sched (by decide)⟩
        · exact ⟨_, _, rfl⟩
    · exact ⟨_, _, rfl⟩

theorem State.modeEdge_main {im : Image} (hr : s.runningImage = some im) (hm : s.sched.mode = .main)
    (hs : s.pwr.shed = 0) : s.modeEdge = s := by
  unfold State.modeEdge
  rw [hr]
  simp [mainAllowed, hs, hm]

theorem State.modeEdge_stopped (hr : s.runningImage = none) : s.modeEdge = s := by
  unfold State.modeEdge
  rw [hr]

theorem State.slotEdge_stopped (hr : s.runningImage = none) : s.slotEdge = s := by
  unfold State.slotEdge
  rw [hr]

/-- The programs of a tick, no activation being fixed: the Aperture's rules, what runs, the programs of the slot, the
templates, the waits. -/
theorem State.edgePrograms_eq (h : s.trust.activate = none) :
    s.edgePrograms = s.apertureEdge.modeEdge.slotEdge.armEdge.waitEdge := by
  unfold State.edgePrograms
  rw [State.fixActivation_none h]

theorem State.edgePrograms_via (h : s.trust.activate = none) :
    State.Via [.cnt, .facets, .sched, .ap, .dma, .note] s s.edgePrograms := by
  rw [State.edgePrograms_eq h]
  exact State.waitEdge_via (State.armEdge_via (State.slotEdge_via (State.modeEdge_via (State.apertureEdge_via
    (.refl _ s) (by decide)) (by decide)) (by decide)) (by decide)) (by decide)

theorem State.edgePrograms_after_mode (h : s.trust.activate = none) :
    State.Via [.cnt, .facets, .dma, .note] s.apertureEdge.modeEdge s.edgePrograms := by
  rw [State.edgePrograms_eq h]
  exact State.waitEdge_via (State.armEdge_via (State.slotEdge_via (.refl _ _) (by decide)) (by decide)) (by decide)

theorem State.edgePrograms_sched (h : s.trust.activate = none) :
    ∃ m r, s.edgePrograms.sched = { s.sched with mode := m, resume := r } := by
  rw [(State.edgePrograms_after_mode h).only .sched (by decide)]
  exact State.modeEdge_sched s.apertureEdge

theorem State.edgePrograms_ap (h : s.trust.activate = none) :
    s.edgePrograms.ap.crop = s.sched.active.map (·.crop) ∧ s.edgePrograms.ap.full = s.fullEgress := by
  rw [(State.edgePrograms_after_mode h).only .ap (by decide),
    (State.modeEdge_via (M := [.cnt, .facets, .sched]) (.refl _ s.apertureEdge) (by decide)).only .ap (by decide)]
  exact ⟨rfl, rfl⟩

/-- What a frame at an edge and the allowance can change. -/
abbrev tailKinds : List Change :=
  [.freeCtr, .out, .upsets, .mem, .ring, .poison, .wbQueue, .cnt, .facets, .hbm, .img, .note]

theorem State.edgeFrame_via (s : State) (px : Int) : State.Via tailKinds s (s.edgeFrame px) :=
  State.rateEdge_via ((State.frameEdge_lines (.refl _ s)).mono (by decide)) (by decide)

/-- The rest of an edge that finds nothing left. -/
theorem State.edgeTail_eq (h : s.Rests) (px : Int) :
    s.edgeTail px = (s.edgePrograms.edgeFrame px).noteIdle.syncGates srcPower := by
  have h1 := State.edgePrograms_via h.activate
  have h2 := s.edgePrograms.edgeFrame_via px
  obtain ⟨hs, hd⟩ := h.quiet
  have hs' : (s.edgePrograms.edgeFrame px).sched.start = none := by
    obtain ⟨m, r, e⟩ := State.edgePrograms_sched h.activate
    rw [h2.only .sched (by decide), e]
    exact hs
  have hd' : (s.edgePrograms.edgeFrame px).host.deferred = [] := by
    have := congrArg (fun w => w.2.2.2) (h2.work.trans h1.work)
    exact Eq.trans this hd
  have ht : (s.edgePrograms.edgeFrame px).tk.stepPending = none := by
    rw [h2.only .tk (by decide), h1.only .tk (by decide)]
    exact h.step
  unfold State.edgeTail
  rw [State.deferStart_none hs', State.settle_quiet ⟨hs', hd'⟩, State.applyStep_none ht]

/-- What the rest of an edge leaves. -/
structure State.TailKeeps (v t : State) : Prop where
  only : State.Only [.freeCtr, .out, .upsets, .mem, .poison, .wbQueue, .cnt, .facets, .sched, .ap, .hbm, .dma, .img,
    .host, .pwr, .idle] v t
  mute : t.host.mute = v.host.mute
  sched : ∃ m r, t.sched = { v.sched with mode := m, resume := r }
  crop : t.ap.crop = v.sched.active.map (·.crop)
  full : t.ap.full = v.fullEgress
  pwr : t.pwr.ungated = v.pwr.ungated
  dma : t.dma = v.edgePrograms.dma
  facets : v.img.cfg = none → t.facets = v.edgePrograms.facets

theorem State.edgeTail_keeps (h : v.Rests) (px : Int) : v.TailKeeps (v.edgeTail px) := by
  have h1 := State.edgePrograms_via h.activate
  have h2 := v.edgePrograms.edgeFrame_via px
  have h3 : State.Via [.idle] (v.edgePrograms.edgeFrame px) (v.edgePrograms.edgeFrame px).noteIdle :=
    State.noteIdle_via (.refl _ _) (by decide)
  have h4 : State.Via [.out, .ring, .cnt, .note, .pwr] (v.edgePrograms.edgeFrame px).noteIdle
      ((v.edgePrograms.edgeFrame px).noteIdle.syncGates srcPower) := State.syncGates_via (.refl _ _) (by decide)
  have ho := (h1.frame (l := [.freeCtr, .out, .upsets, .mem, .poison, .wbQueue, .cnt, .facets, .sched, .ap, .hbm, .dma,
    .img, .host, .pwr, .idle])).trans (h2.frame.trans (h3.frame.trans h4.frame))
  obtain ⟨m, r, hs⟩ := State.edgePrograms_sched h.activate
  obtain ⟨hc, hf⟩ := State.edgePrograms_ap h.activate
  rw [State.edgeTail_eq h]
  refine ⟨ho, ?_, ⟨m, r, ?_⟩, ?_, ?_, ?_, ?_, fun hn => ?_⟩
  · rw [(h4.told (by decide)).host, (h3.told (by decide)).host, (h2.told (by decide)).host, (h1.told (by decide)).host]
  · rw [h4.only .sched (by decide), h3.only .sched (by decide), h2.only .sched (by decide), hs]
  · rw [h4.only .ap (by decide), h3.only .ap (by decide), h2.only .ap (by decide), hc]
  · rw [h4.only .ap (by decide), h3.only .ap (by decide), h2.only .ap (by decide), hf]
  · rw [State.syncGates_ungated, h3.only .pwr (by decide), h2.only .pwr (by decide), h1.only .pwr (by decide)]
  · rw [h4.only .dma (by decide), h3.only .dma (by decide), h2.only .dma (by decide)]
  · rw [h4.only .facets (by decide), h3.only .facets (by decide)]
    unfold State.edgeFrame
    rw [State.frameEdge_none (by rw [h1.only .img (by decide)]; exact hn)]
    rfl

/-! ### Slot programs (02 R38) -/

/-- A Facet at the edge, by the state of the edge. -/
def State.slotted (s : State) (im : Image) (f : Fin 16) (x : Facet) : Facet :=
  let slot := s.tk.tick % im.h
  let p := f.val / 4
  let main := s.sched.mode == .main
  let runs := s.isReady (5 + p) && (main || (s.sched.mode == .holdover && decide (f.val < 4)))
  if !bitOf im.mask f.val then x.idled true
  else if s.err.isolated.getLsbD p then { x.idled true with phase := .ended, invalid := true }
  else if runs then x.begin im.ops (im.program main f.val slot) slot main
  else x.idled false

theorem State.slotFacet_eq (s : State) (im : Image) (f : Fin 16) : s.slotFacet im f = s.updFacet f (s.slotted im f) :=
  rfl

theorem State.slotted_congr {im : Image} {f : Fin 16} (h : State.Only [.facets] s t) :
    t.slotted im f = s.slotted im f := by
  unfold State.slotted State.isReady
  rw [h .tk (by decide), h .sched (by decide), h .err (by decide), h .ready (by decide)]

/-- Each Facet begins its program of the slot. -/
theorem State.slotEdge_facet {im : Image} (hr : s.runningImage = some im) (h : Fin 16) :
    s.slotEdge.facets[h] = s.slotted im h s.facets[h] := by
  have hf := fold_once (O := fun u h => u.facets[h]) (F := fun u k => u.slotFacet im (fin16 k))
    (G := fun k => s.slotted im (fin16 k)) (P := fun u => State.Only [.facets] s u)
    (fun u k hu => hu.trans (State.slotFacet_via (M := [.facets]) (.refl _ u) (by decide)).only)
    (fun u k h hu hk => by
      rw [State.slotFacet_eq, State.updFacet_get, State.slotted_congr hu]
      simp only [fin16_val hk])
    h (List.range 16) List.nodup_range (fun k hk => List.mem_range.1 hk) s (.refl _ s)
  rw [if_pos (List.mem_range.2 h.isLt), show fin16 h.val = h from (fin16_val h.isLt h).2 rfl] at hf
  unfold State.slotEdge
  rw [hr]
  exact hf

/-- The figures of a Facet do not change where it begins a slot. -/
theorem State.slotted_counts (s : State) (im : Image) (f : Fin 16) (x : Facet) :
    (s.slotted im f x).validTicks = x.validTicks ∧ (s.slotted im f x).invalidTicks = x.invalidTicks ∧
      (s.slotted im f x).overruns = x.overruns := by
  unfold State.slotted
  extract_lets slot p main runs
  split
  · exact ⟨rfl, rfl, rfl⟩
  · split
    · exact ⟨rfl, rfl, rfl⟩
    · split
      · exact ⟨rfl, rfl, rfl⟩
      · exact ⟨rfl, rfl, rfl⟩

/-- A Facet of the mask, its Prism ready and not isolated, begins the main program. -/
theorem State.slotted_main {im : Image} {f : Fin 16} (hm : bitOf im.mask f.val = true)
    (hi : s.err.isolated.getLsbD (f.val / 4) = false) (hr : s.isReady (5 + f.val / 4) = true)
    (hs : s.sched.mode = .main) (x : Facet) : s.slotted im f x =
      x.begin im.ops (im.program true f.val (s.tk.tick % im.h)) (s.tk.tick % im.h) true := by
  unfold State.slotted
  simp [hm, hi, hr, hs]

/-- The Facets at an edge at which the main program runs. -/
theorem State.edgePrograms_facet {im : Image} (h : s.trust.activate = none) (hr : s.runningImage = some im)
    (hm : s.sched.mode = .main) (hs : s.pwr.shed = 0) (f : Fin 16) :
    s.edgePrograms.facets[f] = s.slotted im f s.facets[f] := by
  have ha : State.Only [.ap] s s.apertureEdge := (State.apertureEdge_via (M := [.ap]) (.refl _ s) (by decide)).only
  have hv : State.Via [.cnt, .dma, .note] s.apertureEdge.slotEdge s.apertureEdge.slotEdge.armEdge.waitEdge :=
    State.waitEdge_via (State.armEdge_via (.refl _ _) (by decide)) (by decide)
  rw [State.edgePrograms_eq h, State.modeEdge_main (s := s.apertureEdge) (im := im) hr hm hs,
    hv.only .facets (by decide), State.slotEdge_facet (s := s.apertureEdge) (im := im) hr]
  rfl

/-! ### Templates of a slot (08 R217) -/

section
variable {e e' : Fin 5} {c c' : Fin 8}

theorem State.updChan_other (s : State) (g : Channel → Channel) (h : ¬ (e' = e ∧ c' = c)) :
    (s.updChan e' c' g).chan e c = s.chan e c := by
  unfold State.chan State.updChan
  simp only [Fin.getElem_fin, Vector.getElem_set]
  by_cases he : e' = e
  · subst he
    have hc : c'.val ≠ c.val := fun q => h ⟨rfl, Fin.ext q⟩
    simp [hc]
  · have he : e'.val ≠ e.val := fun q => he (Fin.ext q)
    simp [he]

/-- A template leaves the channels of others as they are. -/
theorem State.armSlot_other (s : State) (i : Nat) (x : Tmpl) (h : ¬ (fin5 x.engine = e ∧ fin8 x.channel = c)) :
    (s.armSlot i x).chan e c = s.chan e c := by
  unfold State.armSlot
  extract_lets e1 c1
  split
  · rfl
  · split
    · exact State.updChan_other s _ h
    · exact State.updChan_other s _ h
    · exact State.chan_of_dma ((State.tickFault_via (M := [.cnt, .note]) (State.count_via (.refl _ s) (by decide))
        (by decide)).only .dma (by decide))

/-- A template armed: its channel fetches from the chain of templates. -/
def armedChan (ts : List Tmpl) (i : Nat) (x : Channel) : Channel :=
  { Channel.reset with
    phase := .fetching, at_ := .tmpl i, store := tmplChain ts (ts.length + 1) i [], latch := x.latch, seq := x.seq }

theorem State.armSlot_idle (i : Nat) (x : Tmpl) (ho : s.engineOut (fin5 x.engine) = false)
    (hp : (s.chan (fin5 x.engine) (fin8 x.channel)).phase = .idle) :
    (s.armSlot i x).chan (fin5 x.engine) (fin8 x.channel) =
      armedChan s.tmplSource i (s.chan (fin5 x.engine) (fin8 x.channel)) := by
  unfold State.armSlot
  extract_lets e1 c1
  rw [ho, if_neg Bool.false_ne_true]
  split
  · exact State.updChan_chan _ _ _ _
  · next h => rw [hp] at h; cases h
  · next h _ => exact absurd hp h

/-- What the arming of one of the tick's templates does. -/
def State.armStep (s : State) (im : Image) (i : Nat) : State :=
  match im.templates[i]? with
  | some t => if t.slot = s.tk.tick % im.h then s.armSlot i t else s
  | none => s

theorem State.armEdge_eq {im : Image} (hr : s.runningImage = some im) (hm : s.sched.mode = .main) :
    s.armEdge = (List.range im.templates.length).foldl (fun u i => u.armStep im i) s := by
  unfold State.armEdge
  rw [hr]
  dsimp only
  rw [if_pos hm]
  rfl

theorem State.armStep_via {M : List Change} {S : State} {im : Image} {i : Nat} (hs : State.Via M S s)
    (hk : [.cnt, .dma, .note] ⊆ M) : State.Via M S (s.armStep im i) := by
  unfold State.armStep
  split
  · split
    · exact State.armSlot_via hs hk
    · exact hs
  · exact hs

/-- A template of the tick's slot, the only one of its channel there, is armed where its channel is idle. -/
theorem State.armEdge_template {im : Image} {i : Nat} {x : Tmpl} (hr : s.runningImage = some im)
    (hm : s.sched.mode = .main) (hst : s.sched.start = none) (hi : im.templates[i]? = some x)
    (hx : x.slot = s.tk.tick % im.h)
    (hu : ∀ (j : Nat) (y : Tmpl), im.templates[j]? = some y → y.slot = x.slot → fin5 y.engine = fin5 x.engine →
      fin8 y.channel = fin8 x.channel → j = i)
    (ho : s.engineOut (fin5 x.engine) = false) (hp : (s.chan (fin5 x.engine) (fin8 x.channel)).phase = .idle) :
    s.armEdge.chan (fin5 x.engine) (fin8 x.channel) =
      armedChan im.templates i (s.chan (fin5 x.engine) (fin8 x.channel)) := by
  have ha : s.sched.active = some im := by
    unfold State.runningImage at hr
    split at hr
    · exact hr
    · cases hr
  have hfold (n : Nat) : State.Via [.cnt, .dma, .note] s ((List.range n).foldl (fun u i => u.armStep im i) s) ∧
      ((List.range n).foldl (fun u i => u.armStep im i) s).chan (fin5 x.engine) (fin8 x.channel) =
        if i < n then armedChan im.templates i (s.chan (fin5 x.engine) (fin8 x.channel))
        else s.chan (fin5 x.engine) (fin8 x.channel) := by
    induction n with
    | zero => exact ⟨.refl _ s, rfl⟩
    | succ n ih =>
      obtain ⟨hv, hc⟩ := ih
      rw [List.range_succ, List.foldl_append]
      generalize (List.range n).foldl (fun u i => u.armStep im i) s = u at hv hc
      refine ⟨State.armStep_via hv (by decide), ?_⟩
      show (u.armStep im n).chan _ _ = _
      by_cases hn : n = i
      · subst hn
        have ht : u.tmplSource = im.templates := by
          unfold State.tmplSource
          rw [hv.only .sched (by decide), hst, ha]
        rw [if_neg (lt_irrefl n)] at hc
        unfold State.armStep
        rw [hi, if_pos (Nat.lt_succ_self n)]
        dsimp only
        rw [if_pos (by rw [hv.only .tk (by decide)]; exact hx), State.armSlot_idle n x
          (by unfold State.engineOut; rw [hv.only .err (by decide)]; exact ho) (by rw [hc]; exact hp), hc, ht]
      · have hkeep : (u.armStep im n).chan (fin5 x.engine) (fin8 x.channel) =
            u.chan (fin5 x.engine) (fin8 x.channel) := by
          unfold State.armStep
          split
          · next y hy =>
            split
            · next hs =>
              rw [hv.only .tk (by decide)] at hs
              exact State.armSlot_other u n y fun q => hn (hu n y hy (hs.trans hx.symm) q.1 q.2)
            · rfl
          · rfl
        rw [hkeep, hc]
        have : (i < n + 1) = (i < n) := propext ⟨fun h => by omega, fun h => by omega⟩
        simp only [this]
  have hlt : i < im.templates.length := (List.getElem?_eq_some_iff.1 hi).1
  rw [State.armEdge_eq hr hm, (hfold _).2, if_pos hlt]

/-- A wait for a tick edge is not seen at a channel that does not wait. -/
theorem State.waitEdge_chan {e : Fin 5} {c : Fin 8} (h : (s.chan e c).phase ≠ .waiting) :
    s.waitEdge.chan e c = s.chan e c := by
  have hc : s.waitEdge.chan e c = (s.chan e c).atEdge s.tk.edge s.tk.rate := by
    unfold State.waitEdge State.chan
    simp
  rw [hc]
  unfold Channel.atEdge
  rw [if_neg (fun q => h q.1)]

/-- The template of a slot is armed at the edge of its tick. -/
theorem State.edgePrograms_template {im : Image} {i : Nat} {x : Tmpl} (h : s.trust.activate = none)
    (hr : s.runningImage = some im) (hm : s.sched.mode = .main) (hsh : s.pwr.shed = 0) (hst : s.sched.start = none)
    (hi : im.templates[i]? = some x) (hx : x.slot = s.tk.tick % im.h)
    (hu : ∀ (j : Nat) (y : Tmpl), im.templates[j]? = some y → y.slot = x.slot → fin5 y.engine = fin5 x.engine →
      fin8 y.channel = fin8 x.channel → j = i)
    (ho : s.engineOut (fin5 x.engine) = false) (hp : (s.chan (fin5 x.engine) (fin8 x.channel)).phase = .idle) :
    s.edgePrograms.chan (fin5 x.engine) (fin8 x.channel) =
      armedChan im.templates i (s.chan (fin5 x.engine) (fin8 x.channel)) := by
  have hv : State.Via [.ap, .facets] s s.apertureEdge.slotEdge :=
    State.slotEdge_via (State.apertureEdge_via (.refl _ s) (by decide)) (by decide)
  have hd : s.apertureEdge.slotEdge.chan (fin5 x.engine) (fin8 x.channel) =
      s.chan (fin5 x.engine) (fin8 x.channel) := State.chan_of_dma (hv.only .dma (by decide))
  have ha := State.armEdge_template (s := s.apertureEdge.slotEdge) (im := im) (i := i) (x := x)
    (by unfold State.runningImage; rw [hv.only .sched (by decide)]; exact hr)
    (by rw [hv.only .sched (by decide)]; exact hm) (by rw [hv.only .sched (by decide)]; exact hst) hi
    (by rw [hv.only .tk (by decide)]; exact hx) hu
    (by unfold State.engineOut; rw [hv.only .err (by decide)]; exact ho) (by rw [hd]; exact hp)
  rw [State.edgePrograms_eq h, State.modeEdge_main (s := s.apertureEdge) (im := im) hr hm hsh, State.waitEdge_chan,
    ha, hd]
  rw [ha]
  exact nofun

end

end
end Sys2Proof.Machine
end

section
namespace Sys2Proof.Machine

/-! ### The next tick runs (02 R32 to R40, R64 to R66) -/

section
variable {s t v : State}

/-- A schedule is another's but for its figures. -/
theorem Sched.eq_of_plan {x y : Sched} (h : x.plan = y.plan) : x = { y with
    validTicks := x.validTicks, invalidTicks := x.invalidTicks, suspendedTicks := x.suspendedTicks } := by
  cases x
  cases y
  simp only [Sched.plan, Sched.mk.injEq] at h ⊢
  simpa using h

theorem State.ticked_sched (s : State) : ∃ a b c, s.ticked.sched = { s.sched with
    validTicks := a, invalidTicks := b, suspendedTicks := c } :=
  ⟨_, _, _, Sched.eq_of_plan s.ticked_plan⟩

theorem State.ticked_running (s : State) : s.ticked.runningImage = s.runningImage := by
  obtain ⟨a, b, c, h⟩ := s.ticked_sched
  unfold State.runningImage
  rw [h]

theorem Errors.eq_of_rest {x y : Errors} (h : x.rest = y.rest) :
    x = { y with queue := x.queue, index := x.index, made := x.made } := by
  cases x
  cases y
  simp only [Errors.rest, Errors.mk.injEq] at h ⊢
  simpa using h

theorem Power.eq_of_ungated {x y : Power} (h : x.ungated = y.ungated) : x = { y with gates := x.gates } := by
  cases x
  cases y
  simp only [Power.ungated, Power.mk.injEq] at h ⊢
  simpa using h

theorem Facet.figures_of_bare {x y : Facet} (h : x.bare = y) : x.overruns = y.overruns ∧
    x.invalidTicks = y.invalidTicks ∧ x.validTicks = y.validTicks := by
  subst h
  exact ⟨rfl, rfl, rfl⟩

theorem State.ticked_err (s : State) : ∃ q i m, s.ticked.err = { s.err with queue := q, index := i, made := m } :=
  ⟨_, _, _, Errors.eq_of_rest (congrArg Prod.fst s.ticked_calm)⟩

theorem HostCtl.deferred_of_mute {h k : HostCtl} (e : h.mute = k.mute) : h.deferred = k.deferred :=
  congrArg (fun w => w.2.2.2) (HostCtl.work_of_mute e)

/-- The sensor and the global operations when the tick has ended. -/
theorem State.ticked_units (s : State) : s.ticked.img.cfg = s.img.cfg ∧
    s.ticked.img.frame = s.img.frame ∧ s.ticked.beam.ops = s.beam.ops := by
  have h := s.ticked_calm
  simp only [State.calm, Prod.mk.injEq] at h
  exact h.2

/-- What the end of a tick leaves for the rest of its edge. -/
theorem State.ticked_rests (ha : s.trust.activate = none) (hq : s.quiet) (hs : s.tk.stepPending = none) :
    s.ticked.Rests := by
  obtain ⟨hst, hd⟩ := hq
  obtain ⟨a, b, c, h⟩ := s.ticked_sched
  refine ⟨?_, ⟨?_, (HostCtl.deferred_of_mute s.ticked_mute).trans hd⟩, ?_⟩
  · rw [s.ticked_only .trust (by decide)]
    exact ha
  · rw [h]
    exact hst
  · rw [State.ticked_tk]
    unfold TimeSt.nextEdge
    split
    · exact hs
    · exact hs

theorem State.fullEgress_of_fuse (h : t.fuse = s.fuse) : t.fullEgress = s.fullEgress := by
  unfold State.fullEgress State.policy State.lifecycle State.shadowWord
  rw [h]

/-- No activation is due where none waits. -/
theorem execTickEdge_idle (hp : s.pwr.pll[8] = .good) (ha : s.trust.activate = none) (px : Int) (rows : List RawRow) :
    execTickEdge px rows s = .next ((s.ticked.edgeHead rows).edgeTail px) := by
  have hd : s.ticked.activationDue s.ticked.tk.tick = false := by
    unfold State.activationDue
    rw [s.ticked_only .trust (by decide), ha]
  rw [execTickEdge_eq hp, hd, if_neg Bool.false_ne_true, State.newTick_eq]

/-- In a settled state the edge has nothing to do before the programs of the tick. -/
theorem State.edgeHead_settled (h : s.Settled) (rows : List RawRow) : s.ticked.edgeHead rows = s.ticked := by
  obtain ⟨hc, hf, ho⟩ := s.ticked_units
  obtain ⟨q, i, m, he⟩ := s.ticked_err
  obtain ⟨a, b, c, hs⟩ := s.ticked_sched
  have hp := s.ticked_only .pwr (by decide)
  simp only [Field.same] at hp
  unfold State.edgeHead
  rw [State.snapEdge_none (by rw [he]; exact h.snap), State.globalAt_nil (ho.trans h.ops),
    State.stopEdge_none (by rw [hs]; exact h.sched.2), State.startEdge_none (by rw [hs]; exact h.sched.1.1)]
  dsimp only
  rw [State.shedEdge_level (by rw [hp]; exact h.shed), State.levelEdge_none (by rw [hp]; exact h.level),
    State.rejoinAt_zero (by rw [he]; exact h.rejoin)]

theorem execTickEdge_settled (h : s.Settled) (px : Int) (rows : List RawRow) :
    execTickEdge px rows s = .next (s.ticked.edgeTail px) := by
  rw [execTickEdge_idle h.time h.activate, State.edgeHead_settled h]

/-- The figures that a tick leaves with a Facet of the mask (02 R64 to R66). -/
theorem Facet.counted_closed (x : Facet) (sec : Nat) :
    (x.bare.closed sec).counted.overruns = x.overruns + (if x.late then 1 else 0) ∧
    (x.bare.closed sec).counted.invalidTicks = x.invalidTicks + (if x.late ∨ x.invalid = true then 1 else 0) ∧
    (x.bare.closed sec).counted.validTicks =
      x.validTicks + (if ¬ x.late ∧ x.invalid = false ∧ x.mainProg = true then 1 else 0) := by
  cases hl : x.late
  · rw [Facet.closed_done (show x.bare.late = false from hl)]
    cases hi : x.invalid <;> cases hm : x.mainProg <;> simp [Facet.counted, Facet.bare, hi, hm]
  · rw [Facet.closed_late (show x.bare.late = true from hl)]
    cases hi : x.invalid <;> cases hm : x.mainProg <;> simp [Facet.counted, Facet.bare]

theorem Facet.late_iff (x : Facet) : x.late = true ↔ x.phase = .running ∨ x.phase = .waiting := by
  unfold Facet.late
  cases x.phase <;> simp

/-- The figures of a Facet of the mask when a settled tick has begun. -/
theorem State.edgeTail_figures {im : Image} {f : Fin 16} (h : s.Settled) (px : Int) (hr : s.runningImage = some im)
    (hm : s.sched.mode = .main) (hs : s.pwr.shed = 0) :
    (s.ticked.edgeTail px).facets[f] = s.ticked.slotted im f s.ticked.facets[f] := by
  have hk := State.edgeTail_keeps (State.ticked_rests h.activate h.sched.1 h.step) px
  obtain ⟨a, b, c, he⟩ := s.ticked_sched
  rw [hk.facets (s.ticked_units.1.trans h.sensor.1), State.edgePrograms_facet
    (by rw [s.ticked_only .trust (by decide)]; exact h.activate) (s.ticked_running.trans hr) (by rw [he]; exact hm)
    (by rw [s.ticked_only .pwr (by decide)]; exact hs)]

end
end Sys2Proof.Machine

open Sys2Proof Sys2Proof.Machine

/-- Settles O59: in a settled state the edge ends the tick, puts the next in force, and begins its programs. -/
theorem ticksRun : Obligations.TicksRun := by
  unfold Obligations.TicksRun
  refine ⟨fun px rows s => ⟨fun h => ?_, ?_⟩, ?_⟩
  · have hp : s.pllOf dTime ≠ .good := by
      simpa [State.pllOf, dTime] using h
    exact if_pos hp
  · have hv := execTickEdge_via (M := [.freeCtr, .out, .upsets, .mem, .ring, .poison, .wbQueue, .cnt, .tk, .facets,
      .file, .sched, .ap, .hbm, .dma, .tmplStatus, .exp, .cnd, .img, .wav, .net, .beam, .host, .note, .jnl, .err, .pwr,
      .fuse, .trust, .idle, .ready]) (pixel := px) (rows := rows) (.refl _ s) (by decide)
    obtain ⟨t, ht, hk⟩ := hv.of_next (by
      unfold execTickEdge
      split
      · exact ⟨_, rfl⟩
      · exact ⟨_, rfl⟩)
    exact ⟨t, ht, hk.only .pending (by decide)⟩
  · intro px rows s h n
    have hk := State.edgeTail_keeps (State.ticked_rests h.activate h.sched.1 h.step) px
    obtain ⟨a, b, c, hs⟩ := s.ticked_sched
    obtain ⟨q, j, w, he⟩ := s.ticked_err
    obtain ⟨m, r, hsched⟩ := hk.sched
    have ho := s.ticked_only
    have hpw := Power.eq_of_ungated hk.pwr
    rw [ho .pwr (by decide)] at hpw
    refine ⟨fun hlt => if_pos hlt, fun hge => if_neg (by omega), _, execTickEdge_settled h px rows, ?_, ?_, ?_, ?_, ?_,
      ?_, by rw [hpw], by rw [hpw], ?_, ?_, ?_, ?_⟩
    · rw [hk.only .tk (by decide), State.ticked_tk]
    · rw [hsched, hs]
      exact h.sched.1.1
    · rw [hk.crop, hs]
    · rw [hk.full, State.fullEgress_of_fuse (ho .fuse (by decide))]
    · rw [hsched, hs]
    · rw [hsched, hs]
    · rw [hk.only .fuse (by decide), ho .fuse (by decide)]
    · rw [hk.only .trust (by decide), ho .trust (by decide)]
    · intro im f hr hm hsh hb x y late
      have hy : y = s.ticked.slotted im f s.ticked.facets[f] := State.edgeTail_figures h px hr hm hsh
      obtain ⟨sec, hbare⟩ := State.ticked_bare hr hb
      obtain ⟨h1, h2, h3⟩ := State.slotted_counts s.ticked im f s.ticked.facets[f]
      obtain ⟨g1, g2, g3⟩ := Facet.counted_closed x sec
      obtain ⟨b1, b2, b3⟩ := Facet.figures_of_bare hbare
      have hl := x.late_iff
      refine ⟨?_, ?_, ?_, fun hrd hi => ?_⟩
      · rw [hy, h3, b1]
        simpa only [hl] using g1
      · rw [hy, h2, b2]
        simpa only [hl] using g2
      · rw [hy, h1, b3]
        simpa only [hl] using g3
      · rw [hy, State.slotted_main hb (by rw [he]; exact hi) (by rw [State.ticked_isReady _ (by omega)]; exact hrd)
          (by rw [hs]; exact hm), State.ticked_tk]
        exact ⟨rfl, rfl, rfl, rfl, rfl, rfl, rfl, rfl, rfl⟩
    · intro im i x hr hm hsh hi hx hu ho' hp
      have hd : s.ticked.chan (fin5 x.engine) (fin8 x.channel) = s.chan (fin5 x.engine) (fin8 x.channel) :=
        State.chan_of_dma (ho .dma (by decide))
      rw [State.chan_of_dma hk.dma, State.edgePrograms_template (i := i) (im := im)
        (by rw [ho .trust (by decide)]; exact h.activate) (s.ticked_running.trans hr) (by rw [hs]; exact hm)
        (by rw [ho .pwr (by decide)]; exact hsh) (by rw [hs]; exact h.sched.1.1) hi
        (by rw [State.ticked_tk]; exact hx) hu (by unfold State.engineOut; rw [he]; exact ho')
        (by rw [hd]; exact hp), hd]
      rfl
end

section
namespace Sys2Proof.Machine

/-! ### Operations that change of the Facets their regions and held records alone -/

/-- Changes of the kinds of `K` that keep each Facet but for its regions and held records. -/
structure State.Aside (K : List Change) (s t : State) : Prop where
  via : State.Via K s t
  bare : ∀ h : Fin 16, (t.facets[h]).bare = (s.facets[h]).bare

section
variable {K M : List Change} {S s t : State}

theorem State.Aside.refl (K : List Change) (s : State) : State.Aside K s s := ⟨.refl K s, fun _ => rfl⟩

/-- What does not change the Facets, on top of what does. -/
theorem State.Aside.next (h : State.Aside M S s) (h' : State.Via K s t) (hk : K ⊆ M := by decide)
    (hf : .facets ∉ K.map Change.field := by decide) : State.Aside M S t :=
  ⟨h.via.upd h' hk, fun g => by rw [h'.only .facets hf]; exact h.bare g⟩

theorem State.Aside.trans (h : State.Aside M S s) (h' : State.Aside K s t) (hk : K ⊆ M := by decide) :
    State.Aside M S t :=
  ⟨h.via.upd h'.via hk, fun g => (h'.bare g).trans (h.bare g)⟩

theorem foldl_aside {α : Type} {f : State → α → State} (l : List α) (hf : ∀ u a, State.Aside M u (f u a)) (s : State) :
    State.Aside M s (l.foldl f s) :=
  List.foldlRecOn (motive := fun u => State.Aside M s u) l f (.refl M s)
    fun u hu a _ => hu.trans (hf u a) (List.Subset.refl M)

/-! #### Circular regions (05 R145 to R149) -/

theorem State.updRegion_aside (s : State) (f r : Fin 16) (g : RegionSt → RegionSt) :
    State.Aside [.facets] s (s.updRegion f r g) :=
  ⟨State.updRegion_via (.refl _ s) (by decide), fun h => State.updRegion_bare s f r h g⟩

theorem State.regionTo_aside (s : State) (f r : Fin 16) (x : RegionSt × Nat) :
    State.Aside [.cnt, .facets] s (s.regionTo f r x) :=
  ⟨State.regionTo_via (.refl _ s) (by decide), fun h => State.regionTo_bare s f r h x⟩

theorem State.regionCommit_aside (s : State) (f r : Fin 16) (tag n : Nat) :
    State.Aside [.cnt, .facets] s (s.regionCommit f r tag n) := by
  unfold State.regionCommit
  extract_lets x
  split
  · exact State.regionTo_aside s f r _
  · exact (State.Aside.refl _ s).next (State.count_via (M := [.cnt]) (.refl _ s) (by decide))

theorem State.regionRelease_aside (s : State) (f r : Fin 16) (tag : Nat) :
    State.Aside [.cnt, .facets] s (s.regionRelease f r tag) := State.regionTo_aside s f r _

theorem State.regionDeliver_aside (s : State) (f r : Fin 16) (tag : Nat) (bs : List Byte) (bads : List Nat) :
    State.Aside [.freeCtr, .upsets, .mem, .poison, .wbQueue, .cnt, .facets] s
      (s.regionDeliver f r tag bs bads).2 := by
  unfold State.regionDeliver
  extract_lets k g at_ s1
  split
  · have h1 : State.Via [.freeCtr, .cnt] (s.updRegion f r (fun x => x.reserve tag k)) s1 :=
      State.yields_via (State.highWater_via (.refl _ _) (by decide)) (by decide)
    have h2 : State.Via [.upsets, .mem, .poison, .wbQueue] s1 (s1.writeRing at_ 0 bs bads) :=
      State.writeRing_via (.refl _ _) (by decide)
    exact ((((State.Aside.refl _ s).trans (State.updRegion_aside s f r _)).next h1).next h2).trans
      (State.regionCommit_aside _ f r tag k)
  · exact (State.Aside.refl _ s).next
      (State.regionOverrun_via (M := [.cnt]) (f := f) (r := r) (.refl _ s) (by decide))

theorem State.emptyRegions_aside (s : State) (f : Fin 16) : State.Aside [.cnt, .facets] s (s.emptyRegions f) := by
  refine ⟨State.emptyRegions_via (.refl _ s) (by decide), fun h => ?_⟩
  unfold State.emptyRegions
  extract_lets u
  have hv : State.Via [.cnt] u ((List.range 16).foldl (fun s r => s.setCtr (srcFacet f) (cHigh r) 0) u) :=
    foldl_via (.refl _ u) fun _ _ hw => State.setCtr_via hw (by decide)
  rw [hv.only .facets (by decide)]
  unfold u
  rw [State.updFacet_get]
  split
  · rfl
  · rfl

theorem State.loadRegions_aside (s : State) (im : Image) (p : Nat → Bool) :
    State.Aside [.cnt, .facets] s (s.loadRegions im p) := by
  refine foldl_aside _ (fun u f => ?_) s
  split
  · refine State.Aside.trans (s := u.updFacet (fin16 f) (fun x => { x with regions := im.facetRegions f }))
      ⟨State.updFacet_via (.refl _ u) (by decide), fun h => ?_⟩ (State.emptyRegions_aside _ _)
    rw [State.updFacet_get]
    split
    · rfl
    · rfl
  · exact .refl _ u

/-! #### Converter blocks (10 R279 to R282) -/

/-- What the converters' blocks change. -/
abbrev blockKinds : List Change :=
  [.freeCtr, .out, .upsets, .mem, .ring, .poison, .wbQueue, .cnt, .facets, .wav, .note]

theorem State.takeBlock_aside (s : State) (c : ConvCfg) (k : Fin 16) (seq : Nat) (bs : List Byte) (bad : Bool) :
    State.Aside blockKinds s (s.takeBlock c k seq bs bad) := by
  unfold State.takeBlock
  extract_lets e bads dma hist b s1 s2
  have h2 : State.Aside blockKinds s s2 :=
    (State.Aside.refl _ s).next
      (State.count_via (M := [.cnt, .wav]) (State.updConv_via (.refl _ s) (by decide)) (by decide))
  split
  · split
    next ok u heq =>
    have hu : State.Aside blockKinds s u := by
      have := State.regionDeliver_aside s2 (fin16 e.facet) (fin16 e.region) (1000 + k.val) bs bads
      rw [heq] at this
      exact h2.trans this
    split
    · exact hu
    · exact hu.next (State.count_via (M := [.cnt]) (.refl _ u) (by decide))
  · exact h2

theorem State.finishBlock_aside (s : State) (c : ConvCfg) (k : Fin 16) (bad : Bool) :
    State.Aside blockKinds s (s.finishBlock c k bad) := by
  unfold State.finishBlock
  extract_lets e v seq bs keep s1
  have hd (u : State) : State.Via [.cnt, .wav] u (u.dropBlock k seq) := State.dropBlock_via (.refl _ u) (by decide)
  have h1 : State.Aside blockKinds s s1 := by
    unfold s1
    split
    · exact (State.Aside.refl _ s).next (State.outageWrite_via (M := [.mem, .cnt, .wav]) (.refl _ s) (by decide))
    · exact .refl _ s
  split
  · exact (State.Aside.refl _ s).next (hd s)
  · split
    · split
      · exact h1.next (State.count_via (M := [.cnt, .wav]) (State.updConv_via (.refl _ s1) (by decide)) (by decide))
      · split
        · exact h1.next (State.count_via (M := [.cnt, .wav]) (State.updConv_via (.refl _ s1) (by decide)) (by decide))
        · exact h1.next (hd s1)
    · split
      · exact ((State.Aside.refl _ s).next (hd s)).next (State.tickFault_via (M := [.note]) (.refl _ _) (by decide))
      · exact State.takeBlock_aside s c k seq bs bad

theorem State.finishBlocks_aside (s : State) (c : ConvCfg) (k : Fin 16) (n : Nat) :
    State.Aside blockKinds s (s.finishBlocks c k n) := by
  fun_induction State.finishBlocks s c k n with
  | case1 s => exact .refl _ s
  | case2 s n h ih => exact (State.finishBlock_aside s c k false).trans ih
  | case3 s n h => exact .refl _ s

theorem State.closeConv_aside (s : State) (c : ConvCfg) (k : Fin 16) :
    State.Aside blockKinds s (s.closeConv c k) := by
  unfold State.closeConv
  extract_lets v miss e s1
  exact ((State.Aside.refl _ s).next (State.setConv_via (M := [.wav]) (.refl _ s) (by decide))).trans
    (State.finishBlocks_aside s1 c k _)

/-- The converters stop without an error report. -/
theorem State.stopConverters_aside (s : State) : State.Aside blockKinds s s.stopConverters := by
  unfold State.stopConverters
  extract_lets s1
  have h1 : State.Aside blockKinds s s1 :=
    (State.Aside.refl _ s).next (State.holdNow_via (M := [.cnt, .wav, .note]) (.refl _ s) (by decide))
  split
  · exact h1
  · next c _ =>
    extract_lets s2 s3
    have h2 : State.Aside blockKinds s1 s2 := foldl_aside _ (fun u k => by
      split
      · exact State.closeConv_aside u c (fin16 k)
      · exact .refl _ u) s1
    have h3 : State.Via [.out, .ring, .cnt, .wav, .note] s2 s3 :=
      foldl_via (State.closeWaves_via (.refl _ s2) (by decide)) fun _ _ hu => State.retireWave_via hu (by decide)
    exact ((h1.trans h2).next h3).next (State.closeOld_via (M := [.out, .ring, .cnt, .wav, .note])
      (State.updWav_via (.refl _ s3) (by decide)) (by decide))

/-! #### Channels at a STOP (08 R218, R219) -/

/-- What the end of a descriptor changes where no START is pending. -/
abbrev descKinds : List Change :=
  [.freeCtr, .out, .upsets, .mem, .ring, .poison, .wbQueue, .cnt, .hbm, .dma, .tmplStatus, .note]

theorem State.finishDesc_stopped {e : Fin 5} {c : Fin 8} {status residue : Nat} {halts : Bool}
    (hs : s.sched.start = none) : State.Via descKinds s (s.finishDesc e c status residue halts) := by
  unfold State.finishDesc
  extract_lets ch seq hl time s3 s4 s5 id s7 s8 nxt blank s11
  have h3 : State.Via descKinds s s3 := State.count_via (State.unfull_via (.refl _ s) (by decide)) (by decide)
  have h4 : State.Via descKinds s s4 := by
    unfold s4
    split
    · exact h3
    · exact State.count_via h3 (by decide)
  have h5 : State.Via descKinds s s5 := by
    unfold s5
    split
    · exact State.writeBack_via h4 (by decide)
    · exact State.tmplDone_via h4 (by decide)
  have h7 : State.Via descKinds s s7 := by
    unfold s7
    split
    · exact State.event_via h5 (by decide)
    · exact h5
  have h8 : State.Via descKinds s s8 := by
    unfold s8
    split
    · exact State.fault_via h7 (by decide)
    · exact h7
  have h11 : State.Via descKinds s s11 := State.setLatch_via (State.updChan_via h8 (by decide)) (by decide)
  have hst : s11.sched.start = none := by
    rw [h11.only .sched (by decide)]
    exact hs
  rw [State.preloadEnd_none hst, ite_self]
  exact State.drained_via h11 (by decide)

theorem State.endDesc_stopped {e : Fin 5} {c : Fin 8} {status residue : Nat} {halts : Bool}
    (hs : s.sched.start = none) : State.Via descKinds s (s.endDesc e c status residue halts) := by
  unfold State.endDesc
  extract_lets n
  split
  · exact State.finishDesc_stopped hs
  · have h : State.Via [.cnt, .hbm] s (s.takeBucket n) := State.takeBucket_via (.refl _ s) (by decide)
    exact (h.mono (by decide)).upd
      (State.finishDesc_stopped (by rw [h.only .sched (by decide)]; exact hs)) (by decide)

/-- What the stop of a channel changes where no START is pending. -/
abbrev stopKinds : List Change := .facets :: .exp :: .cnd :: descKinds

theorem State.endResv_aside (s : State) (e : Fin 5) (c : Fin 8) (ok : Bool) :
    State.Aside [.cnt, .facets] s (s.endResv e c ok) := by
  unfold State.endResv
  extract_lets ch
  split
  · split
    · exact State.regionCommit_aside s _ _ _ _
    · exact State.regionRelease_aside s _ _ _
  · exact .refl _ s

theorem State.abortDrained_stopped (hs : s.sched.start = none) (e : Fin 5) (c : Fin 8) :
    State.Aside stopKinds s (s.abortDrained e c) := by
  unfold State.abortDrained
  split
  · split
    · unfold State.abortEnds
      split
      · unfold State.abortRunning
        extract_lets res
        have h : State.Aside stopKinds s ((s.letGo e c).endResv e c false) :=
          ((State.Aside.refl _ s).next (State.letGo_via (M := [.hbm, .dma, .exp, .cnd]) (.refl _ s) (by decide))).trans
            (State.endResv_aside _ e c false)
        exact h.next (State.endDesc_stopped (by rw [h.via.only .sched (by decide)]; exact hs))
      · exact (State.Aside.refl _ s).next (State.endDesc_stopped hs)
    · exact .refl _ s
  · exact .refl _ s

theorem State.stopChan_aside (hs : s.sched.start = none) (e : Fin 5) (c : Fin 8) :
    State.Aside stopKinds s (s.stopChan e c) := by
  have hu (g : Channel → Channel) : State.Aside stopKinds s (s.updChan e c g) :=
    (State.Aside.refl _ s).next (State.updChan_via (M := [.dma]) (.refl _ s) (by decide))
  unfold State.stopChan
  split
  · exact .refl _ s
  · split
    · have h := (hu (fun x => { x with noNext := true })).next
        (State.toAbort_via (M := [.hbm, .dma, .exp, .cnd]) (e := e) (c := c) (halts := false) (started := false)
          (.refl _ _) (by decide))
      exact h.trans (State.abortDrained_stopped (by rw [h.via.only .sched (by decide)]; exact hs) e c)
    · exact hu _
    · exact .refl _ s
    · exact .refl _ s
    · exact .refl _ s
    · exact hu _

/-- The schedule's channels stop. -/
theorem State.stopChans_aside (hs : s.sched.start = none) (l : List Nat) : State.Aside stopKinds s
    (l.foldl (fun u n => u.stopChan (fin5 (n / 8)) (fin8 n)) s) :=
  List.foldlRecOn (motive := fun u => State.Aside stopKinds s u) l _ (.refl _ s) fun u hu n _ =>
    hu.trans (State.stopChan_aside (by rw [hu.via.only .sched (by decide)]; exact hs) _ _)

/-! #### Receive windows that close (11 R312) -/

/-- What the close of a receive window changes. -/
abbrev closeKinds : List Change := [.out, .ring, .cnt, .facets, .hbm, .net, .beam, .note]

theorem State.dropRx_aside (s : State) (w : Fin 16) : State.Aside closeKinds s (s.dropRx w) := by
  unfold State.dropRx
  split
  · next peer dest granted used returned m heq =>
    extract_lets s1 s2
    have h1 : State.Aside closeKinds s s1 :=
      (State.Aside.refl _ s).next (State.setRx_via (M := [.beam]) (.refl _ s) (by decide))
    have h2 : State.Aside closeKinds s s2 := by
      unfold s2
      split
      · split
        · exact h1
        · exact h1.trans (State.regionRelease_aside s1 _ _ _)
      · exact h1
    exact h2.next (State.regrant_via (M := [.net, .beam, .cnt]) (.refl _ s2) (by decide))
  · exact .refl _ s

theorem State.autoClose_aside (s : State) (w : Fin 16) : State.Aside closeKinds s (s.autoClose w) := by
  have hc : State.Aside closeKinds s (s.closeRx w) := by
    unfold State.closeRx
    split
    · exact ((State.dropRx_aside s w).next (State.dropEnds_via (M := [.hbm]) (.refl _ _) (by decide))).next
        (State.setRx_via (M := [.net, .beam, .cnt]) (State.beamControl_via (.refl _ _) (by decide)) (by decide))
    · exact .refl _ s
  unfold State.autoClose
  split
  · exact hc.next (State.fault_via (M := [.out, .ring, .cnt, .note]) (.refl _ _) (by decide))
  · exact .refl _ s

theorem State.autoCloseFor_aside (s : State) (im : Image) (kept : List Partition) :
    State.Aside closeKinds s (s.autoCloseFor im kept) := by
  refine foldl_aside _ (fun u w => ?_) s
  split
  · extract_lets gone
    split
    · exact State.autoClose_aside u (fin16 w)
    · exact .refl _ u
  · exact .refl _ u

end
end Sys2Proof.Machine
end

section
namespace Sys2Proof.Machine

/-! ### Level changes leave the stage (15 R426 to R430, R442) -/

/-- The stage in force, its target, the stages counted, and the supply of the Facets. -/
def Power.shedding (p : Power) : Nat × Nat × Nat × Bool := (p.shed, p.target, p.shedCount, p.enCore)

section
variable {s t : State}

theorem Power.shedding_iff {p q : Power} : p.shedding = q.shedding ↔
    p.shed = q.shed ∧ p.target = q.target ∧ p.shedCount = q.shedCount ∧ p.enCore = q.enCore := by
  simp [Power.shedding]

@[simp] theorem Power.setIdle_shedding (p : Power) (l : Nat) : (p.setIdle l).shedding = p.shedding := by
  unfold Power.setIdle
  split
  · rfl
  · rfl

@[simp] theorem Power.setVid_shedding (p : Power) (v : Nat) : (p.setVid v).shedding = p.shedding := by
  unfold Power.setVid
  split
  · rfl
  · rfl

@[simp] theorem Power.beginLevel_shedding (p : Power) (l : Nat) : (p.beginLevel l).shedding = p.shedding := by
  unfold Power.beginLevel
  split
  · exact (Power.setVid_shedding _ _).trans (Power.setIdle_shedding _ _)
  · split
    · exact Power.setIdle_shedding _ _
    · split
      · exact Power.setIdle_shedding _ _
      · exact (Power.setVid_shedding _ _).trans (Power.setIdle_shedding _ _)

@[simp] theorem Power.newTarget_shedding (p : Power) (l : Nat) : (p.newTarget l).shedding = p.shedding := by
  unfold Power.newTarget
  split
  · split <;> simp
  · split <;> simp
  · split <;> simp
  · split <;> simp
  · split <;> simp
  · rfl
  · rfl

theorem State.powerRec_pwr (s : State) (status kind b1 b2 b3 b4 req time : Nat) :
    (s.powerRec status kind b1 b2 b3 b4 req time).pwr = s.pwr :=
  (State.powerRec_via (M := [.out, .ring, .cnt, .note]) (.refl _ s) (by decide)).only .pwr (by decide)

@[simp] theorem State.retarget_shedding (s : State) : s.retarget.pwr.shedding = s.pwr.shedding := by
  unfold State.retarget
  extract_lets l floor
  split
  · rw [State.powerRec_pwr]
  · split
    · exact Power.newTarget_shedding _ _
    · rfl

@[simp] theorem State.autoLevel_shedding (s : State) : s.autoLevel.pwr.shedding = s.pwr.shedding := by
  unfold State.autoLevel
  split
  · exact State.retarget_shedding s
  · rfl

@[simp] theorem State.switchLevel_shedding (s : State) (l : Nat) :
    (s.switchLevel l).pwr.shedding = s.pwr.shedding := by
  unfold State.switchLevel
  exact Power.setIdle_shedding _ _

@[simp] theorem State.levelDone_shedding (s : State) (prev : Nat) :
    (s.levelDone prev).pwr.shedding = s.pwr.shedding := by
  unfold State.levelDone
  extract_lets nxt s1 s2
  have h2 : s2.pwr.shedding = s.pwr.shedding := by
    unfold s2
    split
    · rfl
    · rw [State.powerRec_pwr]
      rfl
  clear_value nxt
  cases nxt with
  | none => exact h2
  | some l => exact (Power.newTarget_shedding _ _).trans h2

@[simp] theorem State.levelEdge_shedding (s : State) : s.levelEdge.pwr.shedding = s.pwr.shedding := by
  unfold State.levelEdge
  extract_lets prev
  split
  · split
    · rw [State.levelDone_shedding, State.switchLevel_shedding]
    · rfl
  · next l _ =>
    split
    · exact (Power.setVid_shedding _ _).trans (State.switchLevel_shedding s l)
    · rfl
  · rfl

/-- A change to a faster level whose PLL is judged is complete at the edge: VID_CORE stays (15 R428). -/
theorem State.levelEdge_upReady {l v : Nat} (hc : s.pwr.change = some (.upReady l v)) (hj : s.pwr.idleJudged = true)
    (hl : s.pwr.idleLevel = l) (hn : s.pwr.nextTarget = none) :
    s.levelEdge.pwr.level = l ∧ s.levelEdge.pwr.change = none ∧ s.levelEdge.pwr.vid = s.pwr.vid := by
  have hd (u : State) (prev : Nat) (hu : u.pwr.nextTarget = none) : (u.levelDone prev).pwr.level = u.pwr.level ∧
      (u.levelDone prev).pwr.change = none ∧ (u.levelDone prev).pwr.vid = u.pwr.vid := by
    unfold State.levelDone
    extract_lets nxt s1 s2
    have hx : nxt = none := hu
    rw [hx]
    dsimp only
    unfold s2
    split
    · exact ⟨rfl, rfl, rfl⟩
    · rw [State.powerRec_pwr]
      exact ⟨rfl, rfl, rfl⟩
  have hi (p : Power) : (p.setIdle 3).level = p.level ∧ (p.setIdle 3).nextTarget = p.nextTarget ∧
      (p.setIdle 3).vid = p.vid := by
    unfold Power.setIdle
    split
    · exact ⟨rfl, rfl, rfl⟩
    · exact ⟨rfl, rfl, rfl⟩
  have he : s.levelEdge = (s.switchLevel l).levelDone s.pwr.level := by
    unfold State.levelEdge
    rw [hc]
    exact if_pos (by simp [hj, hl])
  obtain ⟨h1, h2, h3⟩ := hi { s.pwr with level := l, idleLevel := s.pwr.level, idleJudged := true }
  obtain ⟨d1, d2, d3⟩ := hd (s.switchLevel l) s.pwr.level (h2.trans hn)
  rw [he]
  exact ⟨d1.trans h1, d2, d3.trans h3⟩

end
end Sys2Proof.Machine
end

section
namespace Sys2Proof.Machine

/-! ### START at its edge (02 R61) -/

section
variable {s t : State}

theorem State.frameCut_none (h : s.img.cfg = none) : s.frameCut = s := by
  unfold State.frameCut
  rw [h]

theorem State.objectiveStart_cfg (s : State) (c : Option ObjCfg) : (s.objectiveStart c).img.cfg = c := by
  unfold State.objectiveStart
  split
  · rfl
  · extract_lets a u
    split
    · rw [(State.fault_via (M := [.out, .ring, .cnt, .note]) (.refl _ u) (by decide)).only .img (by decide)]
      rfl
    · rfl

/-- The sensor at a start that finds it without a configuration. -/
theorem State.objectiveAt_idle (h : s.img.cfg = none) (c : Option ObjCfg) :
    State.Via [.out, .ring, .cnt, .img, .note] s (s.objectiveAt c) ∧ (s.objectiveAt c).img.cfg = c := by
  have hv : State.Via [.out, .ring, .cnt, .img, .note] s (s.objectiveStart c) :=
    State.objectiveStart_via (.refl _ s) (by decide)
  have hc := State.objectiveStart_cfg s c
  unfold State.objectiveAt
  rw [State.frameCut_none h]
  dsimp only
  split
  · exact ⟨hv, hc⟩
  · exact ⟨hv, hc⟩
  · exact ⟨State.updImg_via hv (by decide), hc⟩

/-- What the start of an image changes where the sensor has no configuration. -/
abbrev startKinds : List Change := [.freeCtr, .out, .upsets, .mem, .ring, .poison, .wbQueue, .cnt, .facets, .sched,
  .hbm, .tmplStatus, .img, .wav, .net, .beam, .note, .pwr]

/-- What a start changes before it puts its image in force. -/
abbrev beginKinds : List Change := [.freeCtr, .out, .upsets, .mem, .ring, .poison, .wbQueue, .cnt, .facets, .hbm,
  .tmplStatus, .wav, .net, .beam, .note]

/-- What the configuration of an image changes that starts. -/
abbrev loadKinds : List Change := [.out, .ring, .cnt, .facets, .img, .wav, .note]

/-- The schedule from the start of an image on. -/
def Sched.started (x : Sched) (staged : Bool) (im : Image) (tick : Nat) : Sched :=
  { x with
    active := some im, staged := if staged then none else x.staged, running := true, mode := .main
    startTick := tick, start := none, resume := false, validTicks := 0, invalidTicks := 0, suspendedTicks := 0 }

/-- The start of an image: what it changes, the schedule, the stage, the sensor, and the Facets' overruns. -/
structure State.Starts (s : State) (staged : Bool) (im : Image) (t : State) : Prop where
  via : State.Via startKinds s t
  sched : t.sched = s.sched.started staged im s.tk.tick
  shedding : t.pwr.shedding = s.pwr.shedding
  cfg : t.img.cfg = im.objective
  overruns : ∀ h : Fin 16, (t.facets[h]).overruns = 0

theorem State.startNow_starts (hc : s.img.cfg = none) (staged : Bool) (im : Image) :
    s.Starts staged im (s.startNow staged im) := by
  unfold State.startNow
  extract_lets old kept s2 s3 s4 s5 s6 s7 s8 s9
  have h2 : State.Via beginKinds s s2 := by
    unfold s2
    clear_value old
    split
    · exact State.autoCloseFor_via (.refl _ s) (by decide)
    · exact .refl _ s
  have h3 : State.Via beginKinds s s3 := by
    unfold s3
    split
    · exact h2.upd (State.via_tmplStatus rfl) (by decide)
    · exact h2
  have h5 : State.Via beginKinds s s5 := (State.markStart_via h3 (by decide)).upd (State.via_facets rfl) (by decide)
  have h56 := State.stopConverters_aside s5
  have h6 : State.Via beginKinds s s6 := h5.upd h56.via (by decide)
  have h67 : State.Via [.sched] s6 s7 := State.updSched_via (.refl _ s6) (by decide)
  have hl := State.loadRegions_aside s7 im (fun _ => true)
  obtain ⟨hob, hcf⟩ := State.objectiveAt_idle (s := s7.loadRegions im (fun _ => true)) (by
    rw [hl.via.only .img (by decide), h67.only .img (by decide), h6.only .img (by decide)]
    exact hc) im.objective
  have h89 : State.Via [.wav] s8 s9 := by
    unfold s9
    split
    · exact State.startConverters_via (.refl _ s8) (by decide)
    · exact .refl _ s8
  have h79 : State.Aside loadKinds s7 s9 := (((State.Aside.refl _ s7).trans hl).next hob).next h89
  have h9t : State.Via [.out, .ring, .cnt, .note, .pwr] s9 s9.autoLevel := State.autoLevel_via (.refl _ s9) (by decide)
  refine ⟨(((h6.mono (by decide)).upd h67 (by decide)).upd h79.via (by decide)).upd h9t (by decide), ?_, ?_, ?_,
    fun h => ?_⟩
  · have hs6 : s6.sched = s.sched := h6.only .sched (by decide)
    have ht6 : s6.tk = s.tk := h6.only .tk (by decide)
    rw [h9t.only .sched (by decide), h79.via.only .sched (by decide), ← hs6, ← ht6]
    rfl
  · rw [State.autoLevel_shedding, h79.via.only .pwr (by decide), h67.only .pwr (by decide), h6.only .pwr (by decide)]
  · rw [h9t.only .img (by decide), h89.only .img (by decide)]
    exact hcf
  · have hm : s5.facets[h] = (s4.facets[h]).fresh := Vector.getElem_map _ _
    have hb : (s9.facets[h]).bare = (s5.facets[h]).bare := by
      rw [h79.bare, h67.only .facets (by decide), h56.bare]
    rw [h9t.only .facets (by decide), (Facet.figures_of_bare hb).1]
    show (s5.facets[h]).overruns = 0
    rw [hm]
    rfl

end
end Sys2Proof.Machine
end

section
namespace Sys2Proof.Machine

/-! ### START takes effect at the edge of its tick (02 R61) -/

section
variable {s u v : State} {K : List Change}

theorem State.levelEdge_frame (s : State) : State.Via [.out, .ring, .cnt, .note, .pwr] s s.levelEdge :=
  State.levelEdge_via (.refl _ s) (by decide)

/-- An edge at which a schedule starts or stops and nothing else waits but a level change. -/
theorem State.edgeHead_quiet (hn : s.err.snap = none) (ho : s.beam.ops = []) (hu : s.stopEdge.startEdge = u)
    (hs : u.pwr.shed = u.pwr.target) (hr : u.err.rejoin = 0) (rows : List RawRow) :
    s.edgeHead rows = u.levelEdge := by
  unfold State.edgeHead
  rw [State.snapEdge_none hn, State.globalAt_nil ho, hu]
  dsimp only
  rw [State.shedEdge_level hs, State.rejoinAt_zero (by rw [u.levelEdge_frame.only .err (by decide)]; exact hr)]

theorem State.ticked_step (h : s.tk.stepPending = none) : s.ticked.tk.stepPending = none := by
  rw [State.ticked_tk]
  unfold TimeSt.nextEdge
  split
  · exact h
  · exact h

/-- After an edge's head that leaves host control, TIME and the firmware alone, nothing is left for the rest. -/
theorem State.rests_after (hv : State.Via K s.ticked v) (ha : s.trust.activate = none) (hd : s.host.deferred = [])
    (ht : s.tk.stepPending = none) (hs : v.sched.start = none) (hk : .host ∉ K := by decide)
    (hf : .trust ∉ K.map Change.field := by decide) (hk' : .tk ∉ K.map Change.field := by decide) : v.Rests := by
  refine ⟨?_, ⟨hs, ?_⟩, ?_⟩
  · rw [hv.only .trust hf, s.ticked_only .trust (by decide)]
    exact ha
  · exact (HostCtl.deferred_of_mute ((hv.told hk).host.trans s.ticked_mute)).trans hd
  · rw [hv.only .tk hk']
    exact State.ticked_step ht

theorem State.ticked_tick (s : State) : s.ticked.tk.tick = s.tk.nextEdge.tick := by
  rw [State.ticked_tk]

theorem State.ticked_rejoin (s : State) : s.ticked.err.rejoin = s.err.rejoin ∧ s.ticked.err.snap = s.err.snap ∧
    s.ticked.err.isolated = s.err.isolated := by
  obtain ⟨q, i, m, he⟩ := s.ticked_err
  rw [he]
  exact ⟨rfl, rfl, rfl⟩

/-- The state in which a pending START whose tick is in force has started its image. -/
theorem State.startEdge_due {p : StartPend} {im : Image} (hp : s.sched.start = some p) (hf : p.fixed = true)
    (ht : p.t = s.tk.tick) (hi : s.pendingImage p = some im) : s.startEdge = s.startNow p.staged im := by
  unfold State.startEdge
  rw [hp]
  dsimp only
  rw [hi]
  exact if_pos (by simp [hf, ht])

variable {p : StartPend} {im : Image}

/-- What the head of the edge of a START leaves. -/
theorem State.edgeHead_starts
    (h : State.Settled { s with sched := { s.sched with start := none, stop := none } })
    (hp : s.sched.start = some p) (hs : s.sched.stop = none) (hf : p.fixed = true) (ht : p.t = s.tk.nextEdge.tick)
    (hi : (if p.staged then s.sched.staged else s.sched.active) = some im) (rows : List RawRow) :
    s.ticked.Starts p.staged im (s.ticked.edgeHead rows) := by
  obtain ⟨hc, -, ho⟩ := s.ticked_units
  obtain ⟨hrj, hsn, -⟩ := s.ticked_rejoin
  obtain ⟨a, b, c, he⟩ := s.ticked_sched
  have hw := State.startNow_starts (s := s.ticked) (hc.trans h.sensor.1) p.staged im
  have hu : s.ticked.stopEdge.startEdge = s.ticked.startNow p.staged im := by
    rw [State.stopEdge_none (by rw [he]; exact hs)]
    exact State.startEdge_due (by rw [he]; exact hp) hf (ht.trans s.ticked_tick.symm) (by
      unfold State.pendingImage
      rw [he]
      exact hi)
  obtain ⟨hsh, htg, -, -⟩ := Power.shedding_iff.1 hw.shedding
  have hpw : s.ticked.pwr = s.pwr := s.ticked_only .pwr (by decide)
  rw [State.edgeHead_quiet (hsn.trans h.snap) (ho.trans h.ops) hu
    (by rw [hsh, htg, hpw]; exact h.shed)
    (by rw [hw.via.only .err (by decide)]; exact hrj.trans h.rejoin)]
  have hl := (s.ticked.startNow p.staged im).levelEdge_frame
  refine ⟨hw.via.upd hl (by decide), ?_, ?_, ?_, fun g => ?_⟩
  · rw [hl.only .sched (by decide)]
    exact hw.sched
  · rw [State.levelEdge_shedding]
    exact hw.shedding
  · rw [hl.only .img (by decide)]
    exact hw.cfg
  · rw [hl.only .facets (by decide)]
    exact hw.overruns g

/-- START at the edge of its tick. -/
theorem State.tickEdge_starts (px : Int) (rows : List RawRow)
    (h : State.Settled { s with sched := { s.sched with start := none, stop := none } })
    (hp : s.sched.start = some p) (hs : s.sched.stop = none) (hf : p.fixed = true) (ht : p.t = s.tk.nextEdge.tick)
    (hi : (if p.staged then s.sched.staged else s.sched.active) = some im) :
    ∃ t, exec (.tickEdge px rows) s = .next t ∧ t.sched.start = none ∧ t.sched.active = some im ∧
      t.sched.staged = (if p.staged then none else s.sched.staged) ∧ t.sched.running = true ∧
      t.sched.startTick = s.tk.nextEdge.tick ∧ t.tk.tick = s.tk.nextEdge.tick ∧ t.ap.crop = some im.crop ∧
      (t.sched.validTicks, t.sched.invalidTicks, t.sched.suspendedTicks) = (0, 0, 0) ∧
      (∀ f : Fin 16, im.objective = none → s.pwr.shed = 0 → bitOf im.mask f.val = true →
        s.isReady (5 + f.val / 4) = true → s.err.isolated.getLsbD (f.val / 4) = false →
        let e := im.program true f.val (s.tk.nextEdge.tick % im.h)
        (t.facets[f]).prog = (im.ops.drop e.first).take e.count ∧ (t.facets[f]).overruns = 0) := by
  have hw := State.edgeHead_starts h hp hs hf ht hi rows
  have hr := State.rests_after (s := s) hw.via h.activate h.sched.1.2 h.step (by rw [hw.sched]; rfl)
  have hk := State.edgeTail_keeps hr px
  obtain ⟨a, b, c, he⟩ := s.ticked_sched
  obtain ⟨m, r, hsched⟩ := hk.sched
  have htk : (s.ticked.edgeHead rows).tk.tick = s.tk.nextEdge.tick := by
    rw [hw.via.only .tk (by decide), s.ticked_tick]
  refine ⟨_, execTickEdge_idle (s := s) h.time h.activate px rows, ?_⟩
  rw [hsched, hw.sched, he, s.ticked_tick]
  refine ⟨rfl, rfl, rfl, rfl, rfl, ?_, ?_, rfl, fun f hob hsh hm hrd hiso => ?_⟩
  · rw [hk.only .tk (by decide)]
    exact htk
  · rw [hk.crop, hw.sched]
    rfl
  · have hrun : (s.ticked.edgeHead rows).runningImage = some im := by
      unfold State.runningImage
      rw [hw.sched]
      rfl
    have hmode : (s.ticked.edgeHead rows).sched.mode = .main := by
      rw [hw.sched]
      rfl
    have hshed : (s.ticked.edgeHead rows).pwr.shed = 0 := by
      rw [(Power.shedding_iff.1 hw.shedding).1, s.ticked_only .pwr (by decide)]
      exact hsh
    rw [hk.facets (hw.cfg.trans hob), State.edgePrograms_facet hr.activate hrun hmode hshed]
    refine ⟨?_, ((State.slotted_counts _ _ _ _).2.2).trans (hw.overruns f)⟩
    rw [State.slotted_main hm
      (by rw [hw.via.only .err (by decide), s.ticked_rejoin.2.2]; exact hiso)
      (by rw [State.isReady_of_only hw.via.only, s.ticked_isReady (by omega)]; exact hrd) hmode, htk]
    rfl

end
end Sys2Proof.Machine
end

section
namespace Sys2Proof.Machine

/-! ### STOP takes effect at an edge (02 R62) -/

section
variable {s t u v : State} {im : Image} {boundary discard : Bool}

/-- What a STOP changes. -/
abbrev haltKinds : List Change := [.freeCtr, .out, .upsets, .mem, .ring, .poison, .wbQueue, .cnt, .facets, .sched, .hbm,
  .dma, .tmplStatus, .exp, .cnd, .img, .wav, .net, .beam, .note, .pwr]

/-- A stop of what runs: what it changes, the schedule, the stage, the sensor, and that every Facet idles. -/
structure State.Stops (s : State) (x : Sched) (t : State) : Prop where
  via : State.Via haltKinds s t
  sched : t.sched = x
  shedding : t.pwr.shedding = s.pwr.shedding
  cfg : t.img.cfg = none
  idle : ∀ h : Fin 16, (t.facets[h]).phase = .idle ∧ (t.facets[h]).prog = []

theorem Facet.idle_of_bare {x y : Facet} (h : x.bare = y.bare) : x.phase = y.phase ∧ x.prog = y.prog :=
  ⟨show x.bare.phase = y.phase by rw [h]; rfl, show x.bare.prog = y.prog by rw [h]; rfl⟩

/-- A STOP goes on with what leaves the schedule, power and the sensor alone. -/
theorem State.Stops.next {x y : Sched} {K : List Change} (h : s.Stops x u) (h' : State.Aside K u t) (hs : t.sched = y)
    (hk : K ⊆ haltKinds := by decide) (hp : .pwr ∉ K.map Change.field := by decide)
    (hi : .img ∉ K.map Change.field := by decide) : s.Stops y t := by
  refine ⟨h.via.upd h'.via hk, hs, ?_, ?_, fun g => ?_⟩
  · rw [h'.via.only .pwr hp]
    exact h.shedding
  · rw [h'.via.only .img hi]
    exact h.cfg
  · obtain ⟨h1, h2⟩ := Facet.idle_of_bare (h'.bare g)
    rw [h1, h2]
    exact h.idle g

theorem State.stopObjective_idle (h : s.img.frame = none) : s.stopObjective.img.cfg = none := by
  unfold State.stopObjective
  split
  · rfl
  · rw [h, if_neg (by simp)]
    rfl

/-- The schedule when its image has stopped. -/
def Sched.halted (x : Sched) : Sched := { x with running := false, mode := .main, resume := false }

theorem State.stopRunning_stops (hs : s.sched.start = none) (hf : s.img.frame = none) :
    s.Stops s.sched.halted s.stopRunning := by
  unfold State.stopRunning
  extract_lets s1 s2 s3
  have h2 : State.Via [.facets, .sched] s s2 :=
    State.updSched_via ((State.via_facets rfl : State.Via [.facets] s s1).mono (by decide)) (by decide)
  have h23 : State.Aside stopKinds s2 s3 := State.stopChans_aside (s := s2) hs (List.range 40)
  have h4 : State.Via [.img] s3 s3.stopObjective := State.stopObjective_via (.refl _ s3) (by decide)
  have h5 := State.stopConverters_aside s3.stopObjective
  have h6 : State.Via [.out, .ring, .cnt, .note, .pwr] _ s3.stopObjective.stopConverters.autoLevel :=
    State.autoLevel_via (.refl _ _) (by decide)
  have hf3 : s3.img.frame = none := by
    rw [h23.via.only .img (by decide), h2.only .img (by decide)]
    exact hf
  refine ⟨((((h2.mono (by decide)).upd h23.via (by decide)).upd h4 (by decide)).upd h5.via (by decide)).upd h6
    (by decide), ?_, ?_, ?_, fun h => ?_⟩
  · rw [h6.only .sched (by decide), h5.via.only .sched (by decide), h4.only .sched (by decide),
      h23.via.only .sched (by decide)]
    rfl
  · rw [State.autoLevel_shedding, h5.via.only .pwr (by decide), h4.only .pwr (by decide),
      h23.via.only .pwr (by decide), h2.only .pwr (by decide)]
  · rw [h6.only .img (by decide), h5.via.only .img (by decide)]
    exact State.stopObjective_idle hf3
  · have hb : (s3.stopObjective.stopConverters.facets[h]).bare = (s2.facets[h]).bare := by
      rw [h5.bare, h4.only .facets (by decide), h23.bare]
    have hm : s2.facets[h] = (s.facets[h]).idled true := Vector.getElem_map _ _
    obtain ⟨h1, h2⟩ := Facet.idle_of_bare hb
    rw [h6.only .facets (by decide), h1, h2, hm]
    exact ⟨rfl, rfl⟩

/-- The schedule without its active image. -/
def Sched.discarded (x : Sched) : Sched := { x with active := none }

/-- The active image is discarded: its windows close. -/
theorem State.discardActive_aside (s : State) (im : Image) : State.Aside (.sched :: .tmplStatus :: closeKinds) s
    (s.discardActive im []) ∧ (s.discardActive im []).sched = s.sched.discarded := by
  have h := State.autoCloseFor_aside s im []
  unfold State.discardActive
  extract_lets s1 s2
  have h2 : State.Via [.tmplStatus] s1 s2 := State.via_tmplStatus rfl
  refine ⟨(((State.Aside.refl _ s).trans h).next h2).next
    (State.updSched_via (M := [.sched]) (.refl _ s2) (by decide)), ?_⟩
  rw [State.updSched_sched, h2.only .sched (by decide), h.via.only .sched (by decide)]
  rfl

/-- The schedule from a STOP on. -/
def Sched.stopped (x : Sched) (discard : Bool) : Sched :=
  { x.halted with stop := none, active := if discard then none else x.active }

/-- A STOP that is due. -/
theorem State.stopEdge_due (hs : s.sched.start = none) (hf : s.img.frame = none)
    (hp : s.sched.stop = some (boundary, discard)) (ha : s.sched.active = some im) (hr : s.sched.running = true)
    (hb : boundary = true → s.tk.tick % im.h = 0) : s.Stops (s.sched.stopped discard) s.stopEdge := by
  have hn : ¬ (boundary && s.sched.running && s.tk.tick % im.h != 0) = true := by
    cases boundary
    · simp
    · simp [hb rfl]
  have h1 := State.stopRunning_stops hs hf
  have he : s.stopEdge = if discard then
      (s.stopRunning.updSched (fun x => { x with stop := none })).discardActive im []
      else s.stopRunning.updSched (fun x => { x with stop := none }) := by
    unfold State.stopEdge
    rw [hp]
    dsimp only
    rw [ha]
    dsimp only
    rw [if_neg hn, if_pos hr]
  have h2 := h1.next (t := s.stopRunning.updSched (fun x => { x with stop := none }))
    (y := { s.sched.halted with stop := none })
    ((State.Aside.refl [.sched] _).next (State.updSched_via (M := [.sched]) (.refl _ _) (by decide)))
    (by rw [State.updSched_sched, h1.sched])
  rw [he]
  cases discard
  · exact h2
  · obtain ⟨hd, hds⟩ := State.discardActive_aside (s.stopRunning.updSched (fun x => { x with stop := none })) im
    refine h2.next hd ?_
    rw [if_pos rfl, hds, h2.sched]
    rfl

/-- Where nothing runs the edge gives the Facets no programs. -/
theorem State.edgePrograms_stopped (h : s.trust.activate = none) (hr : s.runningImage = none) :
    s.edgePrograms.facets = s.facets := by
  have hv : State.Via [.cnt, .dma, .note] s.apertureEdge s.apertureEdge.armEdge.waitEdge :=
    State.waitEdge_via (State.armEdge_via (.refl _ _) (by decide)) (by decide)
  rw [State.edgePrograms_eq h, State.modeEdge_stopped (s := s.apertureEdge) hr,
    State.slotEdge_stopped (s := s.apertureEdge) hr, hv.only .facets (by decide)]
  rfl

/-- What the head of the edge of a STOP leaves. -/
theorem State.edgeHead_stops (h : State.Settled { s with sched := { s.sched with start := none, stop := none } })
    (hs : s.sched.start = none) (hp : s.sched.stop = some (boundary, discard)) (ha : s.sched.active = some im)
    (hr : s.sched.running = true) (hb : boundary = true → s.tk.nextEdge.tick % im.h = 0) (rows : List RawRow) :
    s.ticked.Stops (s.ticked.sched.stopped discard) (s.ticked.edgeHead rows) := by
  obtain ⟨-, hfr, ho⟩ := s.ticked_units
  obtain ⟨hrj, hsn, -⟩ := s.ticked_rejoin
  obtain ⟨a, b, c, he⟩ := s.ticked_sched
  have hw := State.stopEdge_due (s := s.ticked) (boundary := boundary) (discard := discard) (im := im)
    (by rw [he]; exact hs) (hfr.trans h.sensor.2) (by rw [he]; exact hp) (by rw [he]; exact ha)
    (by rw [he]; exact hr) (by rw [s.ticked_tick]; exact hb)
  have hu : s.ticked.stopEdge.startEdge = s.ticked.stopEdge :=
    State.startEdge_none (by rw [hw.sched, he]; exact hs)
  obtain ⟨hsh, htg, -, -⟩ := Power.shedding_iff.1 hw.shedding
  have hpw : s.ticked.pwr = s.pwr := s.ticked_only .pwr (by decide)
  rw [State.edgeHead_quiet (hsn.trans h.snap) (ho.trans h.ops) hu
    (by rw [hsh, htg, hpw]; exact h.shed)
    (by rw [hw.via.only .err (by decide)]; exact hrj.trans h.rejoin)]
  have hl := s.ticked.stopEdge.levelEdge_frame
  refine ⟨hw.via.upd hl (by decide), ?_, ?_, ?_, fun g => ?_⟩
  · rw [hl.only .sched (by decide)]
    exact hw.sched
  · rw [State.levelEdge_shedding]
    exact hw.shedding
  · rw [hl.only .img (by decide)]
    exact hw.cfg
  · rw [hl.only .facets (by decide)]
    exact hw.idle g

/-- STOP at its edge. -/
theorem State.tickEdge_stops (px : Int) (rows : List RawRow)
    (h : State.Settled { s with sched := { s.sched with start := none, stop := none } })
    (hs : s.sched.start = none) (hp : s.sched.stop = some (boundary, discard)) (ha : s.sched.active = some im)
    (hr : s.sched.running = true) (hb : boundary = true → s.tk.nextEdge.tick % im.h = 0) :
    ∃ t, exec (.tickEdge px rows) s = .next t ∧ t.sched.stop = none ∧ t.sched.running = false ∧
      t.sched.active = (if discard then none else some im) ∧ t.tk.tick = s.tk.nextEdge.tick ∧
      t.ap.crop = (if discard then none else some im.crop) ∧
      (∀ f : Fin 16, (t.facets[f]).phase = .idle ∧ (t.facets[f]).prog = []) := by
  have hw := State.edgeHead_stops h hs hp ha hr hb rows
  obtain ⟨a, b, c, he⟩ := s.ticked_sched
  have hre := State.rests_after (s := s) hw.via h.activate h.sched.1.2 h.step (by rw [hw.sched, he]; exact hs)
  have hk := State.edgeTail_keeps hre px
  obtain ⟨m, r, hsched⟩ := hk.sched
  refine ⟨_, execTickEdge_idle (s := s) h.time h.activate px rows, ?_⟩
  have hact : (s.ticked.edgeHead rows).sched.active = if discard then none else some im := by
    rw [hw.sched, he]
    show (if discard then none else s.sched.active) = _
    rw [ha]
  rw [hsched]
  refine ⟨?_, ?_, hact, ?_, ?_, fun f => ?_⟩
  · rw [hw.sched]
    rfl
  · rw [hw.sched]
    rfl
  · rw [hk.only .tk (by decide), hw.via.only .tk (by decide), s.ticked_tick]
  · rw [hk.crop, hact]
    cases discard <;> rfl
  · rw [hk.facets hw.cfg, State.edgePrograms_stopped hre.activate]
    · exact hw.idle f
    · unfold State.runningImage
      rw [hw.sched]
      rfl

/-- A STOP that waits for the boundary of the hyperperiod. -/
theorem State.tickEdge_waits (px : Int) (rows : List RawRow)
    (h : State.Settled { s with sched := { s.sched with start := none, stop := none } })
    (hs : s.sched.start = none) (hp : s.sched.stop = some (true, discard)) (ha : s.sched.active = some im)
    (hr : s.sched.running = true) (hb : s.tk.nextEdge.tick % im.h ≠ 0) :
    ∃ t, exec (.tickEdge px rows) s = .next t ∧ t.sched.stop = some (true, discard) ∧ t.sched.running = true ∧
      t.sched.active = some im := by
  obtain ⟨-, -, ho⟩ := s.ticked_units
  obtain ⟨hrj, hsn, -⟩ := s.ticked_rejoin
  obtain ⟨a, b, c, he⟩ := s.ticked_sched
  have hpw : s.ticked.pwr = s.pwr := s.ticked_only .pwr (by decide)
  have hst : s.ticked.stopEdge = s.ticked := by
    unfold State.stopEdge
    rw [he]
    dsimp only
    rw [hp, ha, hr, s.ticked_tick]
    exact if_pos (by simp [hb])
  have hv := State.edgeHead_quiet (hsn.trans h.snap) (ho.trans h.ops)
    (hst.symm ▸ State.startEdge_none (by rw [he]; exact hs)) (by rw [hpw]; exact h.shed) (hrj.trans h.rejoin) rows
  have hl := s.ticked.levelEdge_frame
  have hsc : s.ticked.levelEdge.sched = s.ticked.sched := hl.only .sched (by decide)
  have hk := State.edgeTail_keeps (State.rests_after (s := s) hl h.activate h.sched.1.2 h.step
    (by rw [hsc, he]; exact hs)) px
  obtain ⟨m, r, hsched⟩ := hk.sched
  refine ⟨_, execTickEdge_idle (s := s) h.time h.activate px rows, ?_⟩
  rw [hv, hsched, hsc, he]
  exact ⟨hp, hr, ha⟩

end
end Sys2Proof.Machine
end

section
namespace Sys2Proof.Machine

/-! ### Level changes and snapshots at an edge (15 R428; 16 R463) -/

section
variable {s u t : State} {rows : List RawRow} {K : List Change}

/-- Power with its stage at the target and no level change. -/
def Power.calm (p : Power) : Power := { p with shed := p.target, change := none }

theorem Power.fields_of_ungated {p q : Power} (h : p.ungated = q.ungated) : p.level = q.level ∧
    p.change = q.change ∧ p.vid = q.vid ∧ p.shedding = q.shedding := by
  rw [Power.eq_of_ungated h]
  exact ⟨rfl, rfl, rfl, rfl⟩

theorem State.ticked_pwr (s : State) : s.ticked.pwr = s.pwr := s.ticked_only .pwr (by decide)

/-- No schedule starts or stops at the edge. -/
theorem State.ticked_plans (h : s.sched.start = none) (hs : s.sched.stop = none) :
    s.ticked.stopEdge.startEdge = s.ticked ∧ s.ticked.sched.start = none := by
  obtain ⟨a, b, c, he⟩ := s.ticked_sched
  have h1 : s.ticked.sched.start = none := by rw [he]; exact h
  rw [State.stopEdge_none (by rw [he]; exact hs), State.startEdge_none h1]
  exact ⟨rfl, h1⟩

/-- An edge at which the stage moves and nothing else waits but a level change. -/
theorem State.edgeHead_sheds (h : State.Settled { s with pwr := s.pwr.calm })
    (hu : s.ticked.shedEdge s.tk.nextEdge.edge rows = u) (hr : u.err.rejoin = 0) :
    s.ticked.edgeHead rows = u.levelEdge := by
  obtain ⟨-, -, ho⟩ := s.ticked_units
  obtain ⟨hrj, hsn, -⟩ := s.ticked_rejoin
  obtain ⟨hp, hst⟩ := State.ticked_plans (s := s) h.sched.1.1 h.sched.2
  have hedge : s.ticked.tk.edge = s.tk.nextEdge.edge := by rw [State.ticked_tk]
  unfold State.edgeHead
  rw [State.snapEdge_none (hsn.trans h.snap), State.globalAt_nil (ho.trans h.ops), hp]
  dsimp only
  rw [hedge, hu, State.rejoinAt_zero (by rw [u.levelEdge_frame.only .err (by decide)]; exact hr)]

/-- The edge with its head as far as shedding: the rest runs on, and the stage stays as it is. -/
theorem State.tickEdge_shed (px : Int) (h : State.Settled { s with pwr := s.pwr.calm })
    (hu : s.ticked.shedEdge s.tk.nextEdge.edge rows = u) (hv : State.Via K s.ticked u) (hr : u.err.rejoin = 0)
    (hk : [.out, .ring, .cnt, .note, .pwr] ⊆ K := by decide) (hh : .host ∉ K := by decide)
    (hf : .trust ∉ K.map Change.field := by decide) (ht : .tk ∉ K.map Change.field := by decide)
    (hs : .sched ∉ K.map Change.field := by decide) :
    exec (.tickEdge px rows) s = .next (u.levelEdge.edgeTail px) ∧ u.levelEdge.Rests ∧
      (u.levelEdge.edgeTail px).pwr.shedding = u.pwr.shedding := by
  obtain ⟨-, hst⟩ := State.ticked_plans (s := s) h.sched.1.1 h.sched.2
  have he := execTickEdge_idle (s := s) h.time h.activate px rows
  rw [State.edgeHead_sheds h hu hr] at he
  have hw : State.Via K s.ticked u.levelEdge := hv.upd u.levelEdge_frame hk
  have hre := State.rests_after hw h.activate h.sched.1.2 h.step (by rw [hw.only .sched hs]; exact hst) hh hf ht
  obtain ⟨-, -, -, hq⟩ := Power.fields_of_ungated (State.edgeTail_keeps hre px).pwr
  exact ⟨he, hre, hq.trans u.levelEdge_shedding⟩

/-- A change to a faster level that is ready switches at the edge. -/
theorem State.tickEdge_levels (px : Int) (rows : List RawRow) {l v : Nat}
    (h : State.Settled { s with pwr := s.pwr.calm }) (hs : s.pwr.shed = s.pwr.target)
    (hc : s.pwr.change = some (.upReady l v)) (hj : s.pwr.idleJudged = true) (hl : s.pwr.idleLevel = l)
    (hn : s.pwr.nextTarget = none) :
    ∃ t, exec (.tickEdge px rows) s = .next t ∧ t.pwr.level = l ∧ t.pwr.change = none ∧ t.pwr.vid = s.pwr.vid := by
  obtain ⟨he, hr, -⟩ := State.tickEdge_shed (rows := rows) px h
    (State.shedEdge_level (by rw [s.ticked_pwr]; exact hs)) (.refl [.out, .ring, .cnt, .note, .pwr] s.ticked)
    (s.ticked_rejoin.1.trans h.rejoin)
  obtain ⟨q1, q2, q3, -⟩ := Power.fields_of_ungated (State.edgeTail_keeps hr px).pwr
  rw [← s.ticked_pwr] at hc hj hl hn ⊢
  obtain ⟨h1, h2, h3⟩ := State.levelEdge_upReady hc hj hl hn
  exact ⟨_, he, q1.trans h1, q2.trans h2, q3.trans h3⟩

theorem HostCtl.snapDone_of_mute {h k : HostCtl} (e : h.mute = k.mute) : h.snapDone = k.snapDone := by
  show h.mute.snapDone = k.mute.snapDone
  rw [e]

/-- What a snapshot leaves, and what it takes down. -/
theorem State.takeSnapshot_taken (s : State) (o : Nat) :
    State.Only [.out, .mem, .cnt, .hbm, .img, .host, .err] s (s.takeSnapshot o) ∧
    (s.takeSnapshot o).host.deferred = s.host.deferred ∧ (s.takeSnapshot o).host.snapDone = true ∧
    ∃ sh : Shadow, sh.tick = s.tk.tick ∧ sh.count = s.err.snapCount + 1 ∧ sh.origin = o ∧
      (s.takeSnapshot o).err = { s.err with snap := none, shadow := some sh, snapCount := s.err.snapCount + 1 } := by
  refine ⟨(State.takeSnapshot_via (M := [.out, .ring, .cnt, .hbm, .img, .host, .note, .err]) (.refl _ s)
    (by decide)).frame, ?_⟩
  unfold State.takeSnapshot
  extract_lets n sh s1 s2 s3
  have h1 : State.Via [.cnt, .hbm, .img] s s1 := State.restartExtremes_via (.refl _ s) (by decide)
  have h4 : State.Via [.out, .ring, .cnt, .note] s3
      (s3.event 0x0050 0x0505 0 (leBytes 8 sh.tick ++ leBytes 4 n ++ leBytes 1 o)) :=
    State.event_via (.refl _ s3) (by decide)
  have hh : s1.host = s.host := h1.only .host (by decide)
  refine ⟨?_, HostCtl.snapDone_of_mute (h4.told (by decide)).host, sh, rfl, rfl, rfl, ?_⟩
  · rw [HostCtl.deferred_of_mute (h4.told (by decide)).host, ← hh]
    rfl
  · rw [h4.only .err (by decide)]
    have he : s1.err = s.err := h1.only .err (by decide)
    show ({ s1.err with snap := none, shadow := some sh, snapCount := n } : Errors) = _
    rw [he]

/-- The snapshot of a tick that has come. -/
theorem State.tickEdge_snaps (px : Int) (rows : List RawRow) {T o : Nat}
    (h : State.Settled { s with err := { s.err with snap := none } }) (hp : s.err.snap = some (T, o))
    (hT : T ≤ s.tk.nextEdge.tick) :
    ∃ t, exec (.tickEdge px rows) s = .next t ∧ t.err.snap = none ∧ t.host.snapDone = true ∧
      t.err.shadow.map (fun x => (x.tick, x.count, x.origin)) = some (s.tk.nextEdge.tick, s.err.snapCount + 1, o) := by
  obtain ⟨-, -, hops⟩ := s.ticked_units
  obtain ⟨q, i, m, he⟩ := s.ticked_err
  obtain ⟨hpl, hst⟩ := State.ticked_plans (s := s) h.sched.1.1 h.sched.2
  have hsn : s.ticked.snapEdge = s.ticked.takeSnapshot o := by
    unfold State.snapEdge
    rw [he]
    dsimp only
    rw [hp, s.ticked_tick]
    exact if_pos hT
  have hw := State.takeSnapshot_taken s.ticked o
  generalize s.ticked.takeSnapshot o = w at hsn hw
  obtain ⟨hv, hd, hdone, sh, h1, h2, h3, herr⟩ := hw
  have hpw : w.pwr = s.pwr := (hv .pwr (by decide)).trans s.ticked_pwr
  have hsc : w.sched = s.ticked.sched := hv .sched (by decide)
  have hhead : s.ticked.edgeHead rows = w := by
    have hp1 : w.stopEdge.startEdge = w := by
      obtain ⟨a, b, c, hs⟩ := s.ticked_sched
      rw [State.stopEdge_none (by rw [hsc, hs]; exact h.sched.2), State.startEdge_none (by rw [hsc]; exact hst)]
    unfold State.edgeHead
    rw [hsn, State.globalAt_nil (by rw [hv .beam (by decide)]; exact hops.trans h.ops), hp1]
    dsimp only
    rw [State.shedEdge_level (by rw [hpw]; exact h.shed), State.levelEdge_none (by rw [hpw]; exact h.level),
      State.rejoinAt_zero (by rw [herr, he]; exact h.rejoin)]
  have hr : w.Rests := by
    refine ⟨?_, ⟨?_, ?_⟩, ?_⟩
    · rw [hv .trust (by decide), s.ticked_only .trust (by decide)]
      exact h.activate
    · rw [hsc]
      exact hst
    · exact (hd.trans (HostCtl.deferred_of_mute s.ticked_mute)).trans h.sched.1.2
    · rw [hv .tk (by decide)]
      exact State.ticked_step h.step
  have hk := State.edgeTail_keeps hr px
  have hterr : (w.edgeTail px).err = w.err := hk.only .err (by decide)
  refine ⟨_, execTickEdge_idle (s := s) h.time h.activate px rows, ?_⟩
  rw [hhead, hterr, herr]
  refine ⟨rfl, (HostCtl.snapDone_of_mute hk.mute).trans hdone, ?_⟩
  rw [Option.map_some, h1, h2, h3, s.ticked_tick, he]

end
end Sys2Proof.Machine
end

section
namespace Sys2Proof.Machine

/-! ### Shedding comes up one stage (15 R445) -/

section
variable {s : State}

theorem State.startClocks_shed (s : State) (r : Nat) : (s.startClocks r).pwr.shed = s.pwr.shed := by
  unfold State.startClocks
  obtain ⟨-, -, -, h⟩ := Power.fields_of_ungated (State.syncGates_ungated (s.updPwr (fun p => { p with
    pll := (regionPlls r).foldl (fun v (d : Fin 9) => if v[d] = .good then v.set d (.judging 0) else v) p.pll }))
    srcPower)
  exact (Power.shedding_iff.1 h).1

/-- Restarts that shedding has held begin: the stage stays, and no region rejoins sooner. -/
theorem State.releaseRestarts_kept (s : State) : s.releaseRestarts.pwr.shed = s.pwr.shed ∧
    s.releaseRestarts.err.rejoin = s.err.rejoin := by
  refine List.foldlRecOn (motive := fun u : State => u.pwr.shed = s.pwr.shed ∧ u.err.rejoin = s.err.rejoin)
    (List.range 7) _ ⟨rfl, rfl⟩ fun u hu r _ => ?_
  split
  · rw [State.startClocks_shed, (State.startClocks_via (M := [.out, .ring, .cnt, .note, .pwr]) (.refl _ _)
      (by decide)).only .err (by decide)]
    exact hu
  · exact hu

theorem State.shedRec_shedding (s : State) (status new prev input low time edge : Nat) :
    (s.shedRec status new prev input low time edge).pwr.shedding = s.pwr.shedding := by
  unfold State.shedRec
  extract_lets pl u
  split
  · rw [(State.eventAt_via (M := [.out, .ring, .cnt, .note]) (.refl _ u) (by decide)).only .pwr (by decide)]
    rfl
  · rfl

theorem State.undoActions_shed (s : State) (k : Nat) : (s.undoActions k).pwr.shed = s.pwr.shed := by
  have hj (u : State) : u.unsealJournal.outageEnd.pwr = u.pwr :=
    (State.outageEnd_via (M := [.mem, .out, .ring, .cnt, .wav, .note, .jnl, .ready])
      (State.unsealJournal_via (.refl _ u) (by decide)) (by decide)).only .pwr (by decide)
  unfold State.undoActions
  split
  · split
    · rw [hj]
    · rfl
  · split
    · extract_lets u
      rw [hj]
      show (if s.pwr.sleep = 0 then s.leaveRefresh else s).pwr.shed = _
      split
      · rw [(State.leaveRefresh_via (M := [.out, .upsets, .mem, .ring, .poison, .wbQueue, .cnt, .hbm, .img, .net,
          .beam, .note, .ready]) (.refl _ s) (by decide)).only .pwr (by decide)]
      · rfl
    · split
      · extract_lets u
        have hu : State.Via [.ready] s u := State.objectiveBack_via (.refl _ s) (by decide)
        split
        · rw [hu.only .pwr (by decide)]
        · rw [(State.prismsReady_via hu (by decide)).only .pwr (by decide)]
      · exact (Power.shedding_iff.1 s.retarget_shedding).1

/-- What the undoing of a stage changes. -/
abbrev undoKinds : List Change :=
  [.out, .upsets, .mem, .ring, .poison, .wbQueue, .cnt, .hbm, .img, .wav, .net, .beam, .note, .jnl, .err, .pwr, .ready]

theorem State.undoStage_undone (s : State) (k edge : Nat) : State.Via undoKinds s (s.undoStage k edge) ∧
    (s.undoStage k edge).pwr.shed = k - 1 ∧ (s.undoStage k edge).err.rejoin = s.err.rejoin := by
  refine ⟨State.undoStage_via (.refl _ s) (by decide), ?_⟩
  unfold State.undoStage
  extract_lets since s1
  have h2 : State.Via [.out, .ring, .cnt, .note, .pwr] s1 (s1.shedRec 0x0703 (k - 1) k 0xFF 0 since edge) :=
    State.shedRec_via (.refl _ s1) (by decide)
  have h3 := State.undoActions_via (M := [.out, .upsets, .mem, .ring, .poison, .wbQueue, .cnt, .hbm, .img, .wav, .net,
    .beam, .note, .jnl, .pwr, .ready]) (k := k) (.refl _ (s1.shedRec 0x0703 (k - 1) k 0xFF 0 since edge)) (by decide)
  obtain ⟨hs, hr⟩ := State.releaseRestarts_kept ((s1.shedRec 0x0703 (k - 1) k 0xFF 0 since edge).undoActions k)
  refine ⟨?_, ?_⟩
  · rw [hs, State.undoActions_shed, (Power.shedding_iff.1 (State.shedRec_shedding _ _ _ _ _ _ _ _)).1]
    rfl
  · rw [hr, h3.only .err (by decide), h2.only .err (by decide)]
    rfl

/-- A stage that may be undone is. -/
theorem State.tickEdge_undoes (px : Int) (rows : List RawRow) (h : State.Settled { s with pwr := s.pwr.calm })
    (hlt : s.pwr.target < s.pwr.shed) (hm : s.pwr.mayUndo s.pwr.shed s.tk.nextEdge.edge = true) :
    ∃ t, exec (.tickEdge px rows) s = .next t ∧ t.pwr.shed = s.pwr.shed - 1 := by
  obtain ⟨hv, hs, hr⟩ := State.undoStage_undone s.ticked s.pwr.shed s.tk.nextEdge.edge
  have hu : s.ticked.shedEdge s.tk.nextEdge.edge rows = s.ticked.undoStage s.pwr.shed s.tk.nextEdge.edge := by
    unfold State.shedEdge
    rw [s.ticked_pwr, if_neg (by omega), if_pos (by simp [hlt, hm]; omega)]
  obtain ⟨he, -, hq⟩ := State.tickEdge_shed px h hu hv (hr.trans (s.ticked_rejoin.1.trans h.rejoin))
  exact ⟨_, he, (Power.shedding_iff.1 hq).1.trans hs⟩

/-- A stage that may not be undone stays. -/
theorem State.tickEdge_stays (px : Int) (rows : List RawRow) (h : State.Settled { s with pwr := s.pwr.calm })
    (hlt : s.pwr.target < s.pwr.shed) (hm : s.pwr.mayUndo s.pwr.shed s.tk.nextEdge.edge = false) :
    ∃ t, exec (.tickEdge px rows) s = .next t ∧ t.pwr.shed = s.pwr.shed := by
  have hu : s.ticked.shedEdge s.tk.nextEdge.edge rows = s.ticked := by
    unfold State.shedEdge
    rw [s.ticked_pwr, if_neg (by omega), if_neg (by simp [hm])]
  obtain ⟨he, -, hq⟩ := State.tickEdge_shed px h hu (.refl [.out, .ring, .cnt, .note, .pwr] s.ticked)
    (s.ticked_rejoin.1.trans h.rejoin)
  rw [s.ticked_pwr] at hq
  exact ⟨_, he, (Power.shedding_iff.1 hq).1⟩

end
end Sys2Proof.Machine
end

section
namespace Sys2Proof.Machine

/-! ### READY bits below the ports' only go out (15 R443, R447) -/

section
variable {s u t : State} {b c : Nat}

theorem State.setReady_isReady_ne (s : State) (v : Bool) (h : b ≠ c) : (s.setReady c v).isReady b = s.isReady b := by
  unfold State.setReady State.isReady
  cases v
  · simp only [Bool.false_eq_true, if_false, BitVec.getLsbD_and, BitVec.getLsbD_not, BitVec.getLsbD_ofNat,
      Nat.testBit_two_pow]
    by_cases hb : b < 19
    · simp [hb, h.symm]
    · rw [BitVec.getLsbD_of_ge _ _ (by omega), Bool.false_and]
  · simp only [if_true, BitVec.getLsbD_or, BitVec.getLsbD_ofNat, Nat.testBit_two_pow]
    simp [h.symm]

theorem State.setReady_false (s : State) (b : Nat) : (s.setReady b false).isReady b = false := by
  unfold State.setReady State.isReady
  by_cases hb : b < 19
  · simp only [Bool.false_eq_true, if_false, BitVec.getLsbD_and, BitVec.getLsbD_not, BitVec.getLsbD_ofNat,
      Nat.testBit_two_pow]
    simp [hb]
  · exact BitVec.getLsbD_of_ge _ _ (by omega)

/-- No READY bit of HBM, a Prism, Objective or the converters comes on. -/
def State.Dims (s t : State) : Prop := ∀ b < 12, s.isReady b = false → t.isReady b = false

theorem State.Dims.trans (h : s.Dims u) (h' : u.Dims t) : s.Dims t := fun b hb q => h' b hb (h b hb q)

theorem State.Dims.of_eq (h : ∀ b < 12, t.isReady b = s.isReady b) : s.Dims t := fun b hb q => (h b hb).trans q

theorem State.Dims.of_via {K : List Change} (h : State.Via K s t) (hk : .ready ∉ K.map Change.field := by decide) :
    s.Dims t := .of_eq fun _ _ => State.isReady_of_only h.only hk

theorem State.notReady_off (s : State) (bs : List Nat) : ∀ b, (b ∈ bs ∨ s.isReady b = false) →
    (s.notReady bs).isReady b = false := by
  induction bs generalizing s with
  | nil => exact fun b h => h.resolve_left (List.not_mem_nil)
  | cons a bs ih =>
    refine fun b h => ih (s.setReady a false) b ?_
    by_cases hb : b = a
    · subst hb
      exact .inr (s.setReady_false b)
    · obtain h | h := h
      · exact .inl ((List.mem_cons.1 h).resolve_left hb)
      · exact .inr ((s.setReady_isReady_ne false hb).trans h)

theorem State.notReady_dims (s : State) (bs : List Nat) : s.Dims (s.notReady bs) :=
  fun b _ h => s.notReady_off bs b (.inr h)

theorem State.toPtp_isReady (s : State) (st : PtpState) (status : Nat) (h : b < 12) :
    (s.toPtp st status).isReady b = s.isReady b := by
  unfold State.toPtp
  split
  · rfl
  · extract_lets s1 s2
    have hv : State.Via [.out, .ring, .cnt, .note] s2 ((s2.count srcTime tmChanges 1).timeState status) :=
      State.timeState_via (State.count_via (.refl _ s2) (by decide)) (by decide)
    rw [State.isReady_of_only hv.only]
    exact s1.setReady_isReady_ne _ (by omega)

theorem State.selectMaster_isReady (s : State) (h : b < 12) : s.selectMaster.isReady b = s.isReady b := by
  unfold State.selectMaster
  split
  · rfl
  · extract_lets p changed s1
    split
    · exact State.toPtp_isReady s1 _ _ h
    · split
      · exact State.isReady_of_only
          (State.timeState_via (M := [.out, .ring, .cnt, .note]) (.refl _ s1) (by decide)).only
      · rfl

theorem State.masterLost_isReady (s : State) (port : Nat) (h : b < 12) :
    (s.masterLost port).isReady b = s.isReady b := by
  unfold State.masterLost
  extract_lets s1 s2 s3
  have h3 : s3.isReady b = s.isReady b := by
    unfold s3
    split
    · exact State.toPtp_isReady s2 _ _ h
    · rfl
  split
  · exact (State.selectMaster_isReady s3 h).trans h3
  · exact h3

theorem State.portDown_isReady (s : State) (port : Fin 2) (h : b < 12) :
    (s.portDown port).isReady b = s.isReady b := by
  unfold State.portDown
  extract_lets s1 s2 slave s3
  have h1 : State.Via [.net] s s1 := State.updPort_via (.refl _ s) (by decide)
  have h2 : State.Via [.freeCtr, .cnt, .net, .beam, .note] (s1.setReady (12 + port.val) false) s3 :=
    State.updPtp_via (State.movePeers_via (State.clearPort_via (.refl _ _) (by decide)) (by decide)) (by decide)
  have h3 : s3.isReady b = s.isReady b := (State.isReady_of_only h2.only).trans
    ((s1.setReady_isReady_ne false (by omega)).trans (State.isReady_of_only h1.only))
  split
  · exact h3
  · split
    · exact (State.selectMaster_isReady s3 h).trans h3
    · exact (State.masterLost_isReady s3 _ h).trans h3

theorem State.sealJournal_sealed (s : State) : State.Via [.upsets, .mem, .ring, .poison, .wbQueue, .cnt, .hbm, .jnl,
    .ready] s s.sealJournal ∧ s.Dims s.sealJournal ∧ s.sealJournal.jnl.sealed = true := by
  refine ⟨State.sealJournal_via (.refl _ s) (by decide), .of_eq fun b hb => ?_, rfl⟩
  unfold State.sealJournal
  extract_lets u
  have hu : State.Via [.upsets, .mem, .ring, .poison, .wbQueue, .cnt, .hbm, .jnl] s.openJournal u :=
    State.mirrorAll_via (State.journalDev_via (.refl _ _) (by decide)) (by decide)
  exact (State.isReady_of_only hu.only).trans (s.openJournal_isReady (by omega))

/-! ### The stages go down (15 R442, R443) -/

/-- What the entry of a stage changes where no START is pending. -/
abbrev stageKinds : List Change := [.freeCtr, .out, .upsets, .mem, .ring, .poison, .wbQueue, .cnt, .facets, .hbm, .dma,
  .tmplStatus, .exp, .cnd, .img, .wav, .net, .beam, .note, .jnl, .pwr, .fuse, .ready]

theorem Power.deepest_le (p : Power) : p.deepest ≤ 3 := by
  unfold Power.deepest
  extract_lets m
  split
  · omega
  · split
    · omega
    · split <;> omega

theorem Power.coreOff_off (p : Power) (now : Nat) (x : Vector PllPhase 9) :
    let q := { p.coreOff now with pll := x }
    q.shed = p.shed ∧ q.shedCount = p.shedCount ∧ q.enCore = false ∧ q.target ≤ 3 := by
  unfold Power.coreOff Power.aim
  exact ⟨rfl, rfl, rfl, Power.deepest_le _⟩

/-- The descriptors that self-refresh aborts. -/
theorem State.stage3Aborts_fold (hs : s.sched.start = none) (l : List Nat) : State.Aside stopKinds s
    (l.foldl (fun u n => if u.stage3Aborts (fin5 (n / 8)) (fin8 n) then u.askAbort (fin5 (n / 8)) (fin8 n) false
      else u) s) := by
  refine List.foldlRecOn (motive := fun u => State.Aside stopKinds s u) l _ (.refl _ s) fun u hu n _ => ?_
  split
  · have ha := State.toAbort_via (M := [.hbm, .dma, .exp, .cnd]) (e := fin5 (n / 8)) (c := fin8 n) (halts := false)
      (started := false) (.refl _ u) (by decide)
    refine hu.trans (?_ : State.Aside stopKinds u _)
    unfold State.askAbort
    split
    · exact ((State.Aside.refl stopKinds u).next ha).trans (State.abortDrained_stopped
        (by rw [ha.only .sched (by decide), hu.via.only .sched (by decide)]; exact hs) _ _)
    · exact (State.Aside.refl stopKinds u).next
        (State.toAbort_via (M := [.hbm, .dma, .exp, .cnd]) (.refl _ u) (by decide))
    · exact .refl _ u
  · exact hu

/-- What stage 3 does at its edge: HBM and the Prisms are off, EN_CORE is low, and the journal is sealed. -/
structure State.Darkens (s t : State) : Prop where
  via : State.Via stageKinds s t
  dims : s.Dims t
  off : t.isReady 4 = false ∧ t.isReady 5 = false ∧ t.pwr.enCore = false ∧ t.jnl.sealed = true
  pwr : t.pwr.shed = s.pwr.shed ∧ t.pwr.shedCount = s.pwr.shedCount ∧ t.pwr.target ≤ 3

theorem State.stageActions_darkens (hs : s.sched.start = none) (rows : List RawRow) :
    s.Darkens (s.stageActions 3 rows) := by
  obtain ⟨v1, d1, hj⟩ := s.sealJournal_sealed
  unfold State.stageActions
  rw [if_neg (by decide), if_neg (by decide)]
  extract_lets s1 s2 s3 s4 s5
  have v2 : State.Via stopKinds s1 s2 :=
    (State.stage3Aborts_fold (by rw [v1.only .sched (by decide)]; exact hs) (List.range 40)).via
  have v3 : State.Via [.cnt, .hbm, .ready] s2 s3 :=
    State.notReady_via (State.selfRefresh_via (.refl _ s2) (by decide)) (by decide)
  have d3 : s2.Dims s3 := (State.Dims.of_via (State.selfRefresh_via (M := [.cnt, .hbm]) (.refl _ s2) (by decide))).trans
    (State.notReady_dims _ _)
  have o3 (b : Nat) (hb : b ∈ [4, 5, 12, 13]) : s3.isReady b = false := State.notReady_off _ _ b (.inl hb)
  have v4 : State.Via [.pwr] s3 s4 := State.updPwr_via (.refl _ s3) (by decide)
  have v5 : State.Via [.freeCtr, .out, .ring, .cnt, .net, .beam, .note, .ready] s4 s5 ∧ s4.Dims s5 := by
    refine List.foldlRecOn (motive := fun u =>
      State.Via [.freeCtr, .out, .ring, .cnt, .net, .beam, .note, .ready] s4 u ∧ s4.Dims u) (List.range 2) _ ⟨.refl _ s4, fun _ _ h => h⟩ fun u hu p _ => ?_
    split
    · exact ⟨State.portDown_via hu.1 (by decide), hu.2.trans (.of_eq fun b hb => State.portDown_isReady u _ hb)⟩
    · exact hu
  have v6 : State.Via [.wbQueue, .cnt, .facets, .mem, .wav] s5 s5.loseRegions.outageStart :=
    State.outageStart_via (State.loseRegions_via (.refl _ s5) (by decide)) (by decide)
  have d6 : s4.Dims s5.loseRegions.outageStart := v5.2.trans (.of_via v6)
  have d4 : s3.Dims s5.loseRegions.outageStart := (State.Dims.of_via v4).trans d6
  obtain ⟨p1, p2, p3, p4⟩ := Power.coreOff_off s3.pwr s3.tk.now (s3.pwr.pll.set 2 .off)
  have hp : s5.loseRegions.outageStart.pwr = { s3.pwr.coreOff s3.tk.now with pll := s3.pwr.pll.set 2 .off } :=
    (v6.only .pwr (by decide)).trans ((v5.1.only .pwr (by decide)).trans (State.updPwr_pwr _ _))
  have hps : s3.pwr = s.pwr := (v3.only .pwr (by decide)).trans
    ((v2.only .pwr (by decide)).trans (v1.only .pwr (by decide)))
  refine ⟨?_, (d1.trans (State.Dims.of_via v2)).trans (d3.trans d4), ⟨d4 4 (by omega) (o3 4 (by simp)),
    d4 5 (by omega) (o3 5 (by simp)), ?_, ?_⟩, ?_⟩
  · exact (((((v1.mono (by decide)).upd v2 (by decide)).upd v3 (by decide)).upd v4 (by decide)).upd v5.1
      (by decide)).upd v6 (by decide)
  · rw [hp]
    exact p3
  · rw [v6.only .jnl (by decide), v5.1.only .jnl (by decide), v4.only .jnl (by decide), v3.only .jnl (by decide),
      v2.only .jnl (by decide)]
    exact hj
  · rw [hp, ← hps]
    exact ⟨p1, p2, p4⟩

end
end Sys2Proof.Machine
end

section
namespace Sys2Proof.Machine

/-! ### Stages entered one after the other (15 R442) -/

section
variable {s u t : State} {k : Nat}

/-- A stage that takes effect. -/
structure State.Staged (k : Nat) (s t : State) : Prop where
  via : State.Via stageKinds s t
  dims : s.Dims t
  shed : t.pwr.shed = k
  count : t.pwr.shedCount = s.pwr.shedCount + 1
  target : if k = 3 then t.pwr.target ≤ 3 else t.pwr.target = s.pwr.target
  two : k = 2 → ∀ b, 6 ≤ b → b ≤ 9 → t.isReady b = false
  three : k = 3 → t.isReady 4 = false ∧ t.isReady 5 = false ∧ t.pwr.enCore = false ∧ t.jnl.sealed = true

theorem State.enterStage_staged (hs : s.sched.start = none) (hk : k = 1 ∨ k = 2 ∨ k = 3) (edge : Nat)
    (rows : List RawRow) : s.Staged k (s.enterStage k edge rows) := by
  unfold State.enterStage
  extract_lets c s1
  have v1 : State.Via [.pwr, .fuse] s s1 := State.fuseCheck_via (State.updPwr_via (.refl _ s) (by decide)) (by decide)
  have hp1 : s1.pwr = { s.pwr with shed := k, shedCount := s.pwr.shedCount + 1 } :=
    ((State.fuseCheck_via (M := [.fuse]) (.refl _ _) (by decide)).only .pwr (by decide)).trans (State.updPwr_pwr _ _)
  have v2 : State.Via [.out, .ring, .cnt, .note, .pwr] s1 (s1.shedRec 0x0702 k (k - 1) c.1 c.2.1 c.2.2 edge) :=
    State.shedRec_via (.refl _ s1) (by decide)
  have hp2 := State.shedRec_shedding s1 0x0702 k (k - 1) c.1 c.2.1 c.2.2 edge
  generalize s1.shedRec 0x0702 k (k - 1) c.1 c.2.1 c.2.2 edge = s2 at v2 hp2
  rw [hp1] at hp2
  obtain ⟨q1, q2, q3, -⟩ := Power.shedding_iff.1 hp2
  have vs : State.Via stageKinds s s2 := (v1.mono (by decide)).upd v2 (by decide)
  have ds : s.Dims s2 := (State.Dims.of_via v1).trans (State.Dims.of_via v2)
  obtain rfl | rfl | rfl := hk
  · have v3 : State.Via [.pwr] s2 (s2.stageActions 1 rows) :=
      State.updPwr_via (M := [.pwr]) (g := fun p => p.newTarget 3) (.refl _ s2) (by decide)
    obtain ⟨r1, r2, r3, -⟩ := Power.shedding_iff.1 (Power.newTarget_shedding s2.pwr 3)
    exact ⟨vs.upd v3 (by decide), ds.trans (.of_via v3), r1.trans q1, r3.trans q3, r2.trans q2, nofun, nofun⟩
  · have v3 : State.Via frameKinds s2 (s2.sensorStandby rows) := State.sensorStandby_lines (.refl _ s2)
    have v4 : State.Via [.ready] (s2.sensorStandby rows) (s2.stageActions 2 rows) :=
      State.notReady_via (.refl _ _) (by decide)
    have hp : (s2.stageActions 2 rows).pwr = s2.pwr := (v4.only .pwr (by decide)).trans (v3.only .pwr (by decide))
    refine ⟨(vs.upd v3 (by decide)).upd v4 (by decide),
      ds.trans ((State.Dims.of_via v3).trans (State.notReady_dims _ _)), ?_, ?_, ?_, fun _ b hb hb' => State.notReady_off _ _ b (.inl ?_), nofun⟩
    · rw [hp]
      exact q1
    · rw [hp]
      exact q3
    · rw [hp]
      exact q2
    · simp only [List.mem_cons, List.not_mem_nil]
      omega
  · have hd := State.stageActions_darkens (s := s2) (by rw [vs.only .sched (by decide)]; exact hs) rows
    obtain ⟨d1, d2, d3⟩ := hd.pwr
    exact ⟨vs.upd hd.via (by decide), ds.trans hd.dims, d1.trans q1, d2.trans q3, d3, nofun, fun _ => hd.off⟩

theorem State.enterStages_done (h : ¬ s.pwr.shed < s.pwr.target) (edge : Nat) (rows : List RawRow) (n : Nat) :
    s.enterStages edge rows n = s := by
  cases n with
  | zero => rfl
  | succ n => exact if_neg h

/-- Shedding that has gone down from one stage to another. -/
structure State.Sheds (s t : State) : Prop where
  via : State.Via stageKinds s t
  dims : s.Dims t
  shed : t.pwr.shed = s.pwr.target
  count : t.pwr.shedCount = s.pwr.shedCount + (s.pwr.target - s.pwr.shed)
  two : 2 ≤ s.pwr.target → s.pwr.shed < 2 → ∀ b, 6 ≤ b → b ≤ 9 → t.isReady b = false
  three : s.pwr.target = 3 → t.isReady 4 = false ∧ t.isReady 5 = false ∧ t.pwr.enCore = false ∧ t.jnl.sealed = true

/-- The stages from the one in force to the target are entered, one after the other. -/
theorem State.enterStages_sheds (edge n : Nat) : ∀ (s : State) (rows : List RawRow), s.sched.start = none →
    s.pwr.shed < s.pwr.target → s.pwr.target ≤ 3 → s.pwr.target ≤ s.pwr.shed + n →
    s.Sheds (s.enterStages edge rows n) := by
  induction n with
  | zero => exact fun s _ _ hlt _ hn => absurd hn (by omega)
  | succ n ih =>
    intro s rows hs hlt h3 hn
    have h := State.enterStage_staged (s := s) (k := s.pwr.shed + 1) hs (by omega) edge rows
    have he : s.enterStages edge rows (n + 1) =
        (s.enterStage (s.pwr.shed + 1) edge rows).enterStages edge [] n := if_pos hlt
    rw [he]
    generalize s.enterStage (s.pwr.shed + 1) edge rows = u at h
    obtain ⟨hv, hd, hsh, hc, ht, h2, hthree⟩ := h
    by_cases hl : s.pwr.shed + 1 = s.pwr.target
    · have hnot : ¬ u.pwr.shed < u.pwr.target := by
        split at ht
        · omega
        · omega
      rw [State.enterStages_done hnot]
      exact ⟨hv, hd, by omega, by omega, fun _ _ => h2 (by omega), fun _ => hthree (by omega)⟩
    · rw [if_neg (by omega)] at ht
      have hi := ih u [] (by rw [hv.only .sched (by decide)]; exact hs) (by omega) (by omega) (by omega)
      obtain ⟨iv, id, ish, ic, i2, i3⟩ := hi
      refine ⟨hv.upd iv (by decide), hd.trans id, by omega, by omega, fun ht2 hs2 b hb hb' => ?_,
        fun hT => i3 (by omega)⟩
      by_cases hk : s.pwr.shed + 1 = 2
      · exact id b (by omega) (h2 hk b hb hb')
      · exact i2 (by omega) (by omega) b hb hb'

/-! ### Shedding at an edge -/

/-- The schedule after the rest of an edge is that of its programs. -/
theorem State.edgeTail_sched (h : s.Rests) (px : Int) : (s.edgeTail px).sched = s.edgePrograms.sched := by
  have h2 := s.edgePrograms.edgeFrame_via px
  have h3 : State.Via [.idle] (s.edgePrograms.edgeFrame px) (s.edgePrograms.edgeFrame px).noteIdle :=
    State.noteIdle_via (.refl _ _) (by decide)
  have h4 : State.Via [.out, .ring, .cnt, .note, .pwr] (s.edgePrograms.edgeFrame px).noteIdle
      ((s.edgePrograms.edgeFrame px).noteIdle.syncGates srcPower) := State.syncGates_via (.refl _ _) (by decide)
  rw [State.edgeTail_eq h, h4.only .sched (by decide), h3.only .sched (by decide), h2.only .sched (by decide)]

/-- From stage 2 on the main program does not run (02 R67). -/
theorem State.edgePrograms_shed (h : s.trust.activate = none) (hr : s.runningImage ≠ none) (hs : 2 ≤ s.pwr.shed) :
    s.edgePrograms.sched.mode ≠ .main := by
  obtain ⟨im, him⟩ := Option.ne_none_iff_exists'.1 hr
  have hn : mainAllowed s.pwr.shed im.floor = false := by
    unfold mainAllowed
    simp only [Bool.or_eq_false_iff, beq_eq_false_iff_ne, Bool.and_eq_false_iff]
    omega
  have hm : s.apertureEdge.modeEdge.sched.mode =
      if s.pwr.shed = 2 ∧ im.holdover = true then .holdover else .suspended := by
    unfold State.modeEdge
    rw [show s.apertureEdge.runningImage = some im from him]
    dsimp only
    rw [if_neg (show ¬ mainAllowed s.apertureEdge.pwr.shed im.floor = true by
      rw [show s.apertureEdge.pwr = s.pwr from rfl, hn]; simp)]
    rfl
  rw [(State.edgePrograms_after_mode h).only .sched (by decide), hm]
  split
  · exact nofun
  · exact nofun

/-- Shedding goes down to its target at the edge. -/
theorem State.tickEdge_sheds (px : Int) (rows : List RawRow) (h : State.Settled { s with pwr := s.pwr.calm })
    (hlt : s.pwr.shed < s.pwr.target) (h3 : s.pwr.target ≤ 3) :
    ∃ t, exec (.tickEdge px rows) s = .next t ∧ t.pwr.shed = s.pwr.target ∧
      t.pwr.shedCount = s.pwr.shedCount + (s.pwr.target - s.pwr.shed) ∧
      (2 ≤ s.pwr.target → s.pwr.shed < 2 → ∀ b, 6 ≤ b → b ≤ 9 → t.isReady b = false) ∧
      (s.pwr.target = 3 → t.isReady 4 = false ∧ t.isReady 5 = false ∧ t.pwr.enCore = false ∧ t.jnl.sealed = true) ∧
      (2 ≤ s.pwr.target → s.runningImage ≠ none → t.sched.mode ≠ .main) := by
  obtain ⟨-, hst⟩ := State.ticked_plans (s := s) h.sched.1.1 h.sched.2
  have hw := State.enterStages_sheds s.tk.nextEdge.edge 3 s.ticked rows hst (by rw [s.ticked_pwr]; exact hlt)
    (by rw [s.ticked_pwr]; exact h3) (by rw [s.ticked_pwr]; omega)
  have hu : s.ticked.shedEdge s.tk.nextEdge.edge rows = s.ticked.enterStages s.tk.nextEdge.edge rows 3 := by
    unfold State.shedEdge
    rw [if_pos (by rw [s.ticked_pwr]; exact hlt)]
  generalize s.ticked.enterStages s.tk.nextEdge.edge rows 3 = w at hw hu
  obtain ⟨hv, -, hsh, hcnt, h2, hthree⟩ := hw
  rw [s.ticked_pwr] at hsh hcnt h2 hthree
  obtain ⟨he, hr, hq⟩ := State.tickEdge_shed px h hu hv
    (by rw [hv.only .err (by decide)]; exact s.ticked_rejoin.1.trans h.rejoin)
  have hk := State.edgeTail_keeps hr px
  have hf := w.levelEdge_frame
  obtain ⟨e1, -, e2, e3⟩ := Power.shedding_iff.1 hq
  have hrd (b : Nat) : (w.levelEdge.edgeTail px).isReady b = w.isReady b :=
    (State.isReady_of_only hk.only).trans (State.isReady_of_only hf.only)
  refine ⟨_, he, e1.trans hsh, e2.trans hcnt, fun a c b hb hb' => (hrd b).trans (h2 a c b hb hb'), fun hT => ?_,
    fun hT hrun => ?_⟩
  · obtain ⟨r1, r2, r3, r4⟩ := hthree hT
    refine ⟨(hrd 4).trans r1, (hrd 5).trans r2, e3.trans r3, ?_⟩
    rw [hk.only .jnl (by decide), hf.only .jnl (by decide)]
    exact r4
  · rw [State.edgeTail_sched hr]
    refine State.edgePrograms_shed hr.activate ?_ ?_
    · rw [← s.ticked_running] at hrun
      unfold State.runningImage at hrun ⊢
      rw [hf.only .sched (by decide), hv.only .sched (by decide)]
      exact hrun
    · rw [(Power.shedding_iff.1 w.levelEdge_shedding).1, hsh]
      exact hT

end
end Sys2Proof.Machine
end

section
namespace Sys2Proof.Machine

/-! ### A restarted Prism rejoins (16 R456) -/

section
variable {s t : State}

theorem State.completeLater_deferred (s : State) (a : Accepted) (st : Nat) (r x : List Byte) :
    (s.completeLater a st r x).host.deferred = s.host.deferred := by
  have hf (u : State) : (u.fgEnd a).host.deferred = u.host.deferred := by
    unfold State.fgEnd
    split
    · split
      · rfl
      · rfl
    · rfl
  have hv := State.complete_via (M := [.out, .ring, .cnt, .note, .jnl]) (a := a) (status := st) (result := r)
    (extra := x) (.refl _ ((s.bgEnd a).fgEnd a)) (by decide)
  unfold State.completeLater
  rw [HostCtl.deferred_of_mute (hv.told (by decide)).host, hf]
  rfl

/-- What an ended restart leaves of the regions' marks, and of the commands that wait. -/
theorem State.restartEnded_kept (s : State) (r : Nat) (ok : Bool) :
    (s.restartEnded r ok).err.isolated = s.err.isolated ∧ (s.restartEnded r ok).err.restarting = s.err.restarting ∧
    (s.restartEnded r ok).err.rejoin = s.err.rejoin ∧
    (s.restartEnded r ok).host.deferred = s.host.deferred := by
  unfold State.restartEnded
  split
  · exact ⟨rfl, rfl, rfl, rfl⟩
  · extract_lets u
    split
    · exact ⟨rfl, rfl, rfl, rfl⟩
    · split
      · next a _ =>
        split
        · rw [State.completeLater_only u a _ _ _ .err (by decide), State.completeLater_deferred]
          exact ⟨rfl, rfl, rfl, rfl⟩
        · exact ⟨rfl, rfl, rfl, rfl⟩
      · exact ⟨rfl, rfl, rfl, rfl⟩

theorem and_not_bit (x : BitVec 7) {r : Nat} (h : r < 7) : (x &&& ~~~(regionBit r)).getLsbD r = false := by
  unfold regionBit
  rw [BitVec.getLsbD_and, BitVec.getLsbD_not, BitVec.getLsbD_ofNat, Nat.testBit_two_pow]
  simp [h]

theorem Errors.marks_of_rest {x y : Errors} (h : x.rest = y.rest) :
    x.isolated = y.isolated ∧ x.restarting = y.restarting ∧ x.rejoin = y.rejoin := by
  rw [Errors.eq_of_rest h]
  exact ⟨rfl, rfl, rfl⟩

/-- What rejoining can change. -/
abbrev rejoinFields : List Field := [.out, .mem, .cnt, .facets, .ap, .dma, .wav, .net, .beam, .host, .jnl, .err, .ready]

/-- A Prism that rejoins is in service, with its READY bit. -/
structure State.Rejoins (r : Nat) (s t : State) : Prop where
  only : State.Only rejoinFields s t
  isolated : t.err.isolated.getLsbD r = false
  restarting : t.err.restarting.getLsbD r = false
  rejoin : t.err.rejoin = s.err.rejoin &&& ~~~(regionBit r)
  deferred : t.host.deferred = s.host.deferred
  ready : t.isReady (5 + r) = true

theorem State.setReady_true (s : State) {b : Nat} (h : b < 19) : (s.setReady b true).isReady b = true := by
  unfold State.setReady State.isReady
  rw [if_pos rfl, BitVec.getLsbD_or, BitVec.getLsbD_ofNat, Nat.testBit_two_pow]
  simp [h]

theorem State.rejoinBlocks_ready {r : Nat} (h : r < 4) : (s.rejoinBlocks r).isReady (5 + r) = true := by
  unfold State.rejoinBlocks
  rw [if_pos h]
  exact State.setReady_true _ (by omega)

theorem State.rejoinBlocks_prism {r : Nat} (h : r < 4) :
    State.Via [.cnt, .facets, .ready] s (s.rejoinBlocks r) := by
  unfold State.rejoinBlocks
  rw [if_pos h]
  refine State.setReady_via ?_ (by decide)
  split
  · exact State.loadRegions_via (.refl _ s) (by decide)
  · exact .refl _ s

theorem State.rejoin_rejoins (s : State) (r : Fin 7) (h : r.val < 4) : State.Rejoins r.val s (s.rejoin r) := by
  have ho : State.Only rejoinFields s (s.rejoin r) :=
    (State.rejoin_via (M := [.out, .ring, .cnt, .facets, .ap, .dma, .wav, .net, .beam, .host, .note, .jnl, .err,
      .ready]) (.refl _ s) (by decide)).frame
  unfold State.rejoin
  extract_lets s1 s2
  have h1 : State.Via [.cnt, .facets, .ready] s s1 := State.rejoinBlocks_prism h
  have he1 : s1.err = s.err := h1.only .err (by decide)
  have h2 : State.Only [.err] s1 s2 := State.updErr_only s1 _
  have h3 : State.Via [.out, .ring, .cnt, .note, .err] s2 (s2.regionReport r.val 0 0x0801 3 0) :=
    State.regionReport_via (.refl _ s2) (by decide)
  obtain ⟨m1, m2, m3⟩ := Errors.marks_of_rest (State.regionReport_rest s2 r.val 0 0x0801 3 0)
  have h4 : State.Via [.out, .ring, .cnt, .host, .note, .jnl, .err] (s2.regionReport r.val 0 0x0801 3 0)
      ((s2.regionReport r.val 0 0x0801 3 0).restartEnded r.val true) := State.restartEnded_via (.refl _ _) (by decide)
  obtain ⟨k1, k2, k3, k4⟩ := State.restartEnded_kept (s2.regionReport r.val 0 0x0801 3 0) r.val true
  refine ⟨ho, ?_, ?_, ?_, ?_, ?_⟩
  · rw [k1, m1]
    exact and_not_bit _ r.isLt
  · rw [k2, m2]
    exact and_not_bit _ r.isLt
  · rw [k3, m3, ← he1]
    rfl
  · rw [k4, HostCtl.deferred_of_mute (h3.told (by decide)).host, h2 .host (by decide), h1.only .host (by decide)]
  · rw [State.isReady_of_only h4.only, State.isReady_of_only h3.only, State.isReady_of_only h2]
    exact State.rejoinBlocks_ready h

/-- The regions of a list rejoin where Prism r alone waits and may. -/
theorem State.rejoin_single {r : Fin 7} {tick time : Nat} (h : r.val < 4) (l : List Nat) (hr : r.val ∈ l)
    (hl : ∀ i ∈ l, i < 7) (he : s.err.rejoin = BitVec.ofNat 7 (2 ^ r.val)) (hn : s.rejoinNow r.val tick time = true) :
    l.foldl (fun s r => if s.err.rejoin.getLsbD r && s.rejoinNow r tick time then
      s.rejoin ⟨r % 7, Nat.mod_lt _ (by decide)⟩ else s) s = s.rejoin r := by
  have hbit (i : Nat) (hi : i < 7) : s.err.rejoin.getLsbD i = decide (r.val = i) := by
    rw [he, BitVec.getLsbD_ofNat, Nat.testBit_two_pow, decide_eq_true hi, Bool.true_and]
  induction l with
  | nil => exact absurd hr (by simp)
  | cons i l ih =>
    have hi : i < 7 := hl i (by simp)
    rw [List.foldl_cons, hbit i hi]
    by_cases hri : r.val = i
    · subst hri
      rw [if_pos (by simp [hn]), show (⟨r.val % 7, Nat.mod_lt _ (by decide)⟩ : Fin 7) = r from
        Fin.ext (Nat.mod_eq_of_lt r.isLt)]
      have hz : (s.rejoin r).err.rejoin = 0 := by
        rw [(State.rejoin_rejoins s r h).rejoin, he]
        exact BitVec.and_not_self _
      refine List.foldlRecOn (motive := fun u : State => u = s.rejoin r) l _ rfl fun u hu j _ => ?_
      subst hu
      rw [hz]
      simp
    · rw [if_neg (by simp [hri])]
      exact ih ((List.mem_cons.1 hr).resolve_left hri) fun j hj => hl j (by simp [hj])

/-- A Prism whose restart is done rejoins at the edge of a hyperperiod. -/
theorem State.tickEdge_rejoins (px : Int) (rows : List RawRow) {r : Fin 4} {im : Image}
    (h : State.Settled { s with err := { s.err with rejoin := 0 } })
    (he : s.err.rejoin = BitVec.ofNat 7 (2 ^ r.val)) (hr : s.runningImage = some im)
    (hb : s.tk.nextEdge.tick % im.h = 0) :
    ∃ t, exec (.tickEdge px rows) s = .next t ∧ t.err.isolated.getLsbD r.val = false ∧
      t.err.restarting.getLsbD r.val = false ∧ t.isReady (5 + r.val) = true := by
  obtain ⟨-, -, ho⟩ := s.ticked_units
  obtain ⟨hrj, hsn, -⟩ := s.ticked_rejoin
  obtain ⟨hp, hst⟩ := State.ticked_plans (s := s) h.sched.1.1 h.sched.2
  let q : Fin 7 := ⟨r.val, by omega⟩
  have hnow : s.ticked.rejoinNow r.val s.ticked.tk.tick s.ticked.tk.edge = true := by
    unfold State.rejoinNow
    rw [s.ticked_running, hr, s.ticked_tick]
    simp [r.isLt, hb]
  have hw := State.rejoin_rejoins s.ticked q r.isLt
  have hhead : s.ticked.edgeHead rows = s.ticked.rejoin q := by
    unfold State.edgeHead
    rw [State.snapEdge_none (hsn.trans h.snap), State.globalAt_nil (ho.trans h.ops), hp]
    dsimp only
    rw [State.shedEdge_level (by rw [s.ticked_pwr]; exact h.shed),
      State.levelEdge_none (by rw [s.ticked_pwr]; exact h.level)]
    exact State.rejoin_single (r := q) r.isLt (List.range 7) (List.mem_range.2 q.isLt)
      (fun i hi => List.mem_range.1 hi) (hrj.trans he) hnow
  have hrest : (s.ticked.rejoin q).Rests := by
    refine ⟨?_, ⟨?_, ?_⟩, ?_⟩
    · rw [hw.only .trust (by decide), s.ticked_only .trust (by decide)]
      exact h.activate
    · rw [hw.only .sched (by decide)]
      exact hst
    · exact (hw.deferred.trans (HostCtl.deferred_of_mute s.ticked_mute)).trans h.sched.1.2
    · rw [hw.only .tk (by decide)]
      exact State.ticked_step h.step
  have hk := State.edgeTail_keeps hrest px
  refine ⟨_, execTickEdge_idle (s := s) h.time h.activate px rows, ?_⟩
  rw [hhead, State.isReady_of_only hk.only, hk.only .err (by decide)]
  exact ⟨hw.isolated, hw.restarting, hw.ready⟩

end
end Sys2Proof.Machine
end

section
namespace Sys2Proof.Machine

/-! ### The fuse array over a reset (13 R380) -/

section
variable {m : NMap} {f g : FuseSt} {p q : Nat}

theorem NMap.get_set (hw : SMap.wf 0 m = true) (k v a : Nat) :
    (m.set k v).get a = if a = k then v else m.get a := SMap.get_set hw k a v

theorem bitOf_testBit (v i : Nat) : bitOf v i = v.testBit i := by
  rw [Nat.testBit_eq_decide_div_mod_eq]
  rfl

/-- The bit of the array at a place. -/
def NMap.bitAt (m : NMap) (p : Nat) : Bool := bitOf (m.get (p / 64)) (p % 64)

theorem place_eq_iff (h : p / 64 = q / 64) : p % 64 = q % 64 ↔ p = q := by omega

/-- A bit set in the array. -/
theorem NMap.bitAt_or (hw : SMap.wf 0 m = true) (p q : Nat) :
    (m.set (q / 64) (Nat.lor (m.get (q / 64)) (2 ^ (q % 64)))).bitAt p = (m.bitAt p || decide (q = p)) := by
  unfold NMap.bitAt
  rw [NMap.get_set hw]
  by_cases h : p / 64 = q / 64
  · rw [if_pos h, bitOf_testBit, bitOf_testBit, ← h, show Nat.lor _ _ = (m.get (p / 64) ||| 2 ^ (q % 64)) from rfl,
      Nat.testBit_or, Nat.testBit_two_pow]
    simp only [eq_comm (a := q % 64), place_eq_iff h, eq_comm (a := q)]
  · rw [if_neg h, decide_eq_false (by rintro rfl; exact h rfl), Bool.or_false]

/-- A bit cleared in the array. -/
theorem NMap.bitAt_and (hw : SMap.wf 0 m = true) (p q : Nat) :
    (m.set (q / 64) (Nat.land (m.get (q / 64)) (not64 (2 ^ (q % 64))))).bitAt p = (m.bitAt p && !decide (q = p)) := by
  unfold NMap.bitAt
  rw [NMap.get_set hw]
  by_cases h : p / 64 = q / 64
  · rw [if_pos h, bitOf_testBit, bitOf_testBit, ← h, not64,
      show Nat.land _ (Nat.xor _ _) = (m.get (p / 64) &&& (2 ^ (q % 64) ^^^ (2 ^ 64 - 1))) from rfl,
      Nat.testBit_and, Nat.testBit_xor, Nat.testBit_two_pow, Nat.testBit_two_pow_sub_one,
      decide_eq_true (show p % 64 < 64 by omega)]
    simp only [eq_comm (a := q % 64), place_eq_iff h, eq_comm (a := q), Bool.xor_true]
  · rw [if_neg h, decide_eq_false (by rintro rfl; exact h rfl), Bool.not_false, Bool.and_true]

/-- Bits of a list of places pulsed: no firm bit is lost, and every other bit is as it was. -/
structure FuseSt.Pulsed (todo : List Nat) (f g : FuseSt) : Prop where
  wf : SMap.wf 0 g.firm = true ∧ SMap.wf 0 g.marg = true
  firm : ∀ p, f.isFirm p = true → g.isFirm p = true
  others : ∀ p, p ∉ todo → g.isFirm p = f.isFirm p ∧ g.marg.bitAt p = f.marg.bitAt p

theorem FuseSt.isFirm_eq (f : FuseSt) (p : Nat) : f.isFirm p = f.firm.bitAt p := rfl

theorem FuseSt.putBit_pulsed {todo : List Nat} (hf : SMap.wf 0 f.firm = true) (hm : SMap.wf 0 f.marg = true)
    (hq : q ∈ todo) (verdict : Nat) : f.Pulsed todo (f.putBit q verdict) := by
  unfold FuseSt.putBit
  extract_lets w m
  have hne {p : Nat} (hp : p ∉ todo) : decide (q = p) = false := decide_eq_false (by rintro rfl; exact hp hq)
  split
  · refine ⟨⟨SMap.wf_set _ _ hf, SMap.wf_set _ _ hm⟩, fun p h => ?_, fun p hp => ⟨?_, ?_⟩⟩
    · exact (NMap.bitAt_or hf p q).trans (by rw [← FuseSt.isFirm_eq, h]; rfl)
    · exact (NMap.bitAt_or hf p q).trans (by rw [hne hp, Bool.or_false]; rfl)
    · exact (NMap.bitAt_and hm p q).trans (by rw [hne hp, Bool.not_false, Bool.and_true])
  · split
    · exact ⟨⟨hf, SMap.wf_set _ _ hm⟩, fun _ h => h, fun p hp => ⟨rfl,
        (NMap.bitAt_or hm p q).trans (by rw [hne hp, Bool.or_false])⟩⟩
    · exact ⟨⟨hf, hm⟩, fun _ h => h, fun _ _ => ⟨rfl, rfl⟩⟩

theorem FuseSt.cutAt_pulsed {todo : List Nat} (hf : SMap.wf 0 f.firm = true) (hm : SMap.wf 0 f.marg = true)
    (n ctr : Nat) : f.Pulsed todo (f.cutAt todo n ctr) := by
  unfold FuseSt.cutAt
  refine List.foldlRecOn (motive := fun u : FuseSt => f.Pulsed todo u) _ _
    ⟨⟨hf, hm⟩, fun _ h => h, fun _ _ => ⟨rfl, rfl⟩⟩ fun u hu i hi => ?_
  have hlt : i < todo.length := by
    have h1 := List.mem_range.1 hi
    have h2 := Nat.mod_lt n (show 0 < todo.length + 1 by omega)
    omega
  have hq : todo.getD i 0 ∈ todo := by
    rw [List.getD_eq_getElem _ _ hlt]
    exact List.getElem_mem hlt
  obtain ⟨w, h1, h2⟩ := FuseSt.putBit_pulsed hu.wf.1 hu.wf.2 hq (byteAt (freeUnit ctr (i / 32)) (i % 32) % 3)
  exact ⟨w, fun p h => h1 p (hu.firm p h), fun p hp =>
    ⟨(h2 p hp).1.trans (hu.others p hp).1, (h2 p hp).2.trans (hu.others p hp).2⟩⟩

/-- A reset ends an operation of the fuse controller where it stands. -/
theorem State.cutFuses_cutBy (s : State) (hg : g.firm = s.cutFuses.fuse.firm ∧ g.marg = s.cutFuses.fuse.marg) :
    s.fuse.cutBy g := by
  obtain ⟨h1, h2⟩ := hg
  unfold State.cutFuses at h1 h2
  refine ⟨fun ho => ?_, fun op ho hf hm p => ?_⟩
  · rw [ho] at h1 h2
    exact ⟨h1, h2⟩
  · rw [ho] at h1 h2
    obtain ⟨-, c1, c2⟩ := FuseSt.cutAt_pulsed (todo := op.todo) hf hm s.free.toNat s.freeCtr
    have e1 (p : Nat) : g.isFirm p = (s.fuse.cutAt op.todo s.free.toNat s.freeCtr).isFirm p := by
      unfold FuseSt.isFirm
      rw [h1]
      rfl
    have e2 : g.marg.bitAt p = (s.fuse.cutAt op.todo s.free.toNat s.freeCtr).marg.bitAt p := by
      rw [h2]
      rfl
    rw [e1]
    exact ⟨c1 p, fun hp => ⟨(c2 p hp).1, e2.trans (c2 p hp).2⟩⟩

end
end Sys2Proof.Machine
end

section
namespace Sys2Proof.Machine

/-! ### Firmware is activated by a reset (14 R402; 16 R459) -/

section
variable {s t : State} {f : FuseSt}

theorem FuseSt.judge_array (f : FuseSt) (rd : Nat → FuseRead) (r : Nat) :
    (f.judge rd r).firm = f.firm ∧ (f.judge rd r).marg = f.marg := by
  unfold FuseSt.judge
  extract_lets wlock j g a b
  split
  · exact ⟨rfl, rfl⟩
  · exact ⟨rfl, rfl⟩

/-- The start-up read leaves the array as it is. -/
theorem FuseSt.judgeAll_array (f : FuseSt) (rd : Nat → FuseRead) :
    (f.judgeAll rd).firm = f.firm ∧ (f.judgeAll rd).marg = f.marg :=
  List.foldlRecOn (motive := fun g : FuseSt => g.firm = f.firm ∧ g.marg = f.marg) (List.range 16) _ ⟨rfl, rfl⟩
    fun g hg r _ => ⟨(g.judge_array rd r).1.trans hg.1, (g.judge_array rd r).2.trans hg.2⟩

theorem FuseSt.flagged_array (f : FuseSt) : f.flagged.firm = f.firm ∧ f.flagged.marg = f.marg := ⟨rfl, rfl⟩

/-- The start-up read judged: the array stays, and a failure holds the device. -/
structure State.FuseStarts (s t : State) : Prop where
  firm : t.fuse.firm = s.fuse.firm
  marg : t.fuse.marg = s.fuse.marg
  phase : t.pwr.phase = if t.fuse.startFailure = none then s.pwr.phase else .held
  cause : t.pwr.resetCause = s.pwr.resetCause
  count : t.pwr.resetCount = s.pwr.resetCount

theorem State.fuseStart_starts (s : State) : s.FuseStarts (s.fuseStart false) := by
  unfold State.fuseStart
  extract_lets old judged read u held
  have hg : read.firm = s.fuse.firm ∧ read.marg = s.fuse.marg := by
    unfold read judged
    rw [(FuseSt.flagged_array _).1, (FuseSt.flagged_array _).2, (FuseSt.judgeAll_array _ _).1,
      (FuseSt.judgeAll_array _ _).2]
    exact ⟨rfl, rfl⟩
  clear_value read
  have hu : State.Via [.cnt] (s.updFuse (fun _ => { read with valid := false, critical := false })) u :=
    State.count_via (.refl _ _) (by decide)
  have hf : u.fuse = { read with valid := false, critical := false } := hu.only .fuse (by decide)
  have hp : u.pwr = s.pwr := hu.only .pwr (by decide)
  have hfirm : u.fuse.firm = s.fuse.firm ∧ u.fuse.marg = s.fuse.marg := by
    rw [hf]
    exact hg
  have hfail : u.fuse.startFailure = read.startFailure := by
    rw [hf]
    rfl
  have hc : u.pwr.phase = s.pwr.phase ∧ u.pwr.resetCause = s.pwr.resetCause ∧ u.pwr.resetCount = s.pwr.resetCount := by
    rw [hp]
    exact ⟨rfl, rfl, rfl⟩
  obtain ⟨hph, hcause, hcount⟩ := hc
  split
  · next st r w hn =>
    exact ⟨hfirm.1, hfirm.2, (if_neg (fun q => by cases (hfail.trans hn).symm.trans q)).symm, hcause, hcount⟩
  · next hn =>
    rw [if_neg Bool.false_ne_true]
    exact ⟨hfirm.1, hfirm.2, hph.trans (if_pos (hfail.trans hn)).symm, hcause, hcount⟩

theorem State.startUp_starts (s : State) : State.Via [.cnt, .pwr, .fuse, .ready] s s.startUp ∧
    s.startUp.fuse.firm = s.fuse.firm ∧ s.startUp.fuse.marg = s.fuse.marg ∧
    s.startUp.pwr.phase = (if s.startUp.fuse.startFailure = none then .starting else .held) ∧
    s.startUp.pwr.resetCause = s.pwr.resetCause ∧ s.startUp.pwr.resetCount = s.pwr.resetCount := by
  refine ⟨State.startUp_via (.refl _ s) (by decide), ?_⟩
  unfold State.startUp
  extract_lets s1 s2 s3
  obtain ⟨h1, h2, h3, h4, h5⟩ := s1.fuseStart_starts
  split
  · exact ⟨h1, h2, h3, h4, h5⟩
  · exact ⟨h1, h2, h3, h4, h5⟩

/-- A reset with cause 4 is no failed trial's (14 R402). -/
theorem Trust.afterReset_activation (x : Trust) : x.afterReset 4 = x := by
  unfold Trust.afterReset
  split
  · exact if_neg (by decide)
  · rfl

/-- The device before its fuses are cut at an activation: the last-state record and RESET_CAUSE are written. -/
def State.marked (s : State) : State :=
  (s.updErr (fun e => { e with lastState := s.lastStateRec 4 0 0xFF 0 0 })).updPwr (fun p => { p with
    resetCause := 4, resetCount := min 255 (p.resetCount + 1), resetStatus := 0 })

/-- The device in reset, its fuse operation cut. -/
def State.heldReset (s : State) : State :=
  { s.cutFuses.keptOverReset with
    pwr := { s.cutFuses.keptOverReset.pwr with phase := .held, startStatus := 0 } }

/-- What lies in always-on memory and outside the device over a reset; TIME begins again. -/
theorem State.heldReset_kept (s : State) : s.heldReset.fuse.firm = s.cutFuses.fuse.firm ∧
    s.heldReset.fuse.marg = s.cutFuses.fuse.marg ∧ s.heldReset.tk = TimeSt.reset ∧
    s.heldReset.pwr.resetCause = s.pwr.resetCause ∧ s.heldReset.pwr.resetCount = s.pwr.resetCount ∧
    s.heldReset.trust.preferred = s.trust.preferred ∧ s.heldReset.trust.trial = s.trust.trial ∧
    s.heldReset.trust.flash = s.trust.flash := by
  have hc : State.Via [.freeCtr, .fuse] s s.cutFuses := State.cutFuses_via (.refl _ s) (by decide)
  have htr : s.cutFuses.trust = s.trust := hc.only .trust (by decide)
  have hpw : s.cutFuses.pwr = s.pwr := hc.only .pwr (by decide)
  rw [← htr, ← hpw]
  exact ⟨rfl, rfl, rfl, rfl, rfl, rfl, rfl, rfl⟩

theorem State.internalReset_activation (s : State) : s.internalReset 4 0 0xFF 0 0 = s.marked.heldReset := by
  have h : s.marked.updTrust (fun t => t.afterReset 4) = s.marked := by
    rw [show (fun t : Trust => t.afterReset 4) = fun t => t from funext Trust.afterReset_activation]
    rfl
  calc s.internalReset 4 0 0xFF 0 0 = (s.marked.updTrust (fun t => t.afterReset 4)).heldReset := rfl
    _ = s.marked.heldReset := by rw [h]

/-- A reset with cause 4 lies between two states, and the device starts again. -/
structure State.Restarts (s t : State) : Prop where
  preferred : t.trust.preferred = s.trust.preferred
  trial : t.trust.trial = s.trust.trial
  flash : t.trust.flash = s.trust.flash
  cause : t.pwr.resetCause = 4
  count : t.pwr.resetCount = min 255 (s.pwr.resetCount + 1)
  tk : t.tk = TimeSt.reset
  phase : t.pwr.phase = if t.fuse.startFailure = none then .starting else .held
  fuse : s.fuse.cutBy t.fuse

theorem State.marked_kept (s : State) : s.marked.trust = s.trust ∧ s.marked.fuse = s.fuse ∧
    s.marked.pwr.resetCause = 4 ∧ s.marked.pwr.resetCount = min 255 (s.pwr.resetCount + 1) := by
  unfold State.marked
  rw [State.updPwr_trust, State.updErr_trust, State.updPwr_fuse, State.updErr_fuse, State.updPwr_pwr, State.updErr_pwr]
  exact ⟨rfl, rfl, rfl, rfl⟩

theorem State.internalReset_restarts (s : State) : s.Restarts (s.internalReset 4 0 0xFF 0 0).startUp := by
  rw [State.internalReset_activation]
  obtain ⟨m1, m2, m3, m4⟩ := s.marked_kept
  generalize s.marked = m at m1 m2 m3 m4 ⊢
  obtain ⟨k1, k2, k3, k4, k5, k6, k7, k8⟩ := m.heldReset_kept
  have hcut (g : FuseSt) (h1 : g.firm = m.heldReset.fuse.firm) (h2 : g.marg = m.heldReset.fuse.marg) :
      s.fuse.cutBy g := by
    rw [← m2]
    exact State.cutFuses_cutBy m ⟨h1.trans k1, h2.trans k2⟩
  rw [m1] at k6 k7 k8
  rw [m3] at k4
  rw [m4] at k5
  generalize m.heldReset = r at k3 k4 k5 k6 k7 k8 hcut ⊢
  obtain ⟨hv, h1, h2, h3, h4, h5⟩ := r.startUp_starts
  have htr : r.startUp.trust = r.trust := hv.only .trust (by decide)
  have htk : r.startUp.tk = r.tk := hv.only .tk (by decide)
  refine ⟨?_, ?_, ?_, h4.trans k4, h5.trans k5, htk.trans k3, h3, hcut _ h1 h2⟩
  · rw [htr]
    exact k6
  · rw [htr]
    exact k7
  · rw [htr]
    exact k8

/-- Firmware that waits for a tick that has come is activated at the edge. -/
theorem State.tickEdge_activates (px : Int) (rows : List RawRow) {a : Accepted} {k T : Nat}
    (hp : s.pwr.pll[8] = .good) (h : s.trust.activate = some (a, k, some T)) (hT : T ≤ s.tk.nextEdge.tick) :
    ∃ t, exec (.tickEdge px rows) s = .next t ∧ t.trust.preferred = k ∧ t.trust.trial = some s.trust.preferred ∧
      t.pwr.resetCause = 4 ∧ t.pwr.resetCount = min 255 (s.pwr.resetCount + 1) ∧ t.tk = TimeSt.reset ∧
      t.pwr.phase = (if t.fuse.startFailure = none then .starting else .held) ∧
      s.fuse.cutBy t.fuse ∧ t.trust.flash = s.trust.flash := by
  have htr : s.ticked.trust = s.trust := s.ticked_only .trust (by decide)
  have hfu : s.ticked.fuse = s.fuse := s.ticked_only .fuse (by decide)
  have hd : s.ticked.activationDue s.ticked.tk.tick = true := by
    unfold State.activationDue
    rw [htr, h, s.ticked_tick]
    exact decide_eq_true hT
  have hw := (s.ticked.updTrust (fun t => { t with trial := some t.preferred, preferred := k })).internalReset_restarts
  have he : exec (.tickEdge px rows) s = .next ((s.ticked.updTrust (fun t => { t with
      trial := some t.preferred, preferred := k })).internalReset 4 0 0xFF 0 0).startUp := by
    show execTickEdge px rows s = _
    rw [execTickEdge_eq hp, if_pos hd]
    unfold State.activateNow
    rw [htr, h]
  refine ⟨_, he, ?_, ?_, hw.cause, ?_, hw.tk, hw.phase, ?_, ?_⟩
  · rw [hw.preferred, State.updTrust_trust]
  · rw [hw.trial, State.updTrust_trust, htr]
  · rw [hw.count, State.updTrust_pwr, s.ticked_pwr]
  · have hcut := hw.fuse
    rw [State.updTrust_fuse, hfu] at hcut
    exact hcut
  · rw [hw.flash, State.updTrust_trust, htr]

end
end Sys2Proof.Machine

open Sys2Proof Sys2Proof.Machine

/-- Settles O60: what waits for the edge takes effect before its programs begin, which leave it as it is. -/
theorem edgesTakeEffect : Obligations.EdgesTakeEffect := by
  unfold Obligations.EdgesTakeEffect
  refine ⟨fun px rows s h => ⟨fun p im hp hs hf ht hi => State.tickEdge_starts px rows h hp hs hf ht hi,
    fun b d im hs hp ha hr hb => State.tickEdge_stops px rows h hs hp ha hr hb,
    fun d im hs hp ha hr hb => State.tickEdge_waits px rows h hs hp ha hr hb⟩,
    fun px rows s => ⟨fun h hc => ⟨State.tickEdge_sheds px rows h, State.tickEdge_undoes px rows h,
      State.tickEdge_stays px rows h⟩, fun l v h => State.tickEdge_levels px rows h,
      fun T o h => State.tickEdge_snaps px rows h, fun r im h => State.tickEdge_rejoins px rows h,
      fun a k T => State.tickEdge_activates px rows⟩⟩
end

section
namespace Sys2Proof.Machine

/-! ### A record runs (03 R77 to R79) -/

section
variable {s t : State} {f : Fin 16} {op : Nat} {ms : List Meet} {r : Rec} {array : Bool} {cycles : Rec → Bool → Nat}
  {body : Ctx → Rec → Run → Run}

/-- The state in which a record's body begins: its meetings are charged. -/
def State.metBy (s : State) (f : Fin 16) (ms : List Meet) : State := ms.foldl (fun s m => s.chargeMeet f m) s

theorem State.metBy_via (s : State) (f : Fin 16) (ms : List Meet) : State.Via [.cnt, .file, .note, .err] s (s.metBy f ms) :=
  foldl_via (.refl _ s) fun _ _ h => State.chargeMeet_via h (List.Subset.refl _)

/-- The record's body, from its meetings on. -/
def State.recordRun (s : State) (f : Fin 16) (r : Rec) (ms : List Meet) (body : Ctx → Rec → Run → Run) : Run :=
  body (ctxOf f ms) r ⟨s.metBy f ms, false, []⟩

theorem State.headRec_op (h : s.headRec f op = some r) : r.op = op := by
  unfold State.headRec at h
  split at h
  · split at h
    · split at h
      next ho => exact Option.some.inj h ▸ ho
      next => cases h
    · cases h
  · cases h

theorem State.runRecord_none (h : s.headRec f op = none) : s.runRecord f op ms array cycles body = s := by
  unfold State.runRecord
  rw [h]

theorem State.runRecord_some (h : s.headRec f op = some r) : s.runRecord f op ms array cycles body =
    ((s.recordRun f r ms body).s.endRecord f r (cycles r s.facets[f].prevArray) array).drawn 1 := by
  unfold State.runRecord
  rw [h]
  rfl

/-- Cycle formulas that agree on the opcode's records run them alike. -/
theorem State.runRecord_cycles {c : Rec → Bool → Nat} (h : ∀ r p, r.op = op → cycles r p = c r p) :
    s.runRecord f op ms array cycles body = s.runRecord f op ms array c body := by
  cases hr : s.headRec f op with
  | none => rw [State.runRecord_none hr, State.runRecord_none hr]
  | some r => rw [State.runRecord_some hr, State.runRecord_some hr, h r _ (State.headRec_op hr)]

end

/-! ### The rows that execute a record (03 R78) -/

/-- The opcodes of these rows. -/
def recordOps : List Nat :=
  [opMM, opMMT, opCONV, opDWCONV, opVecEw, opVecRed, opSoftmax, opNorm, opAct, opGather, opScatter, opDecide, opTopk,
   opNms, opCrop, opResample, opCopy2d, opAccWrite, opPush, opPop, opEmit, opCheckFlag]

/-- The body of each, MM, MMT and CONV sharing one. -/
def recordBody (op : Nat) : Ctx → Rec → Run → Run :=
  if op = opDWCONV then dwBody
  else if op = opVecEw then vecEwBody
  else if op = opVecRed then vecRedBody
  else if op = opSoftmax then softmaxBody
  else if op = opNorm then normBody
  else if op = opAct then actBody
  else if op = opGather then gatherBody
  else if op = opScatter then scatterBody
  else if op = opDecide then decideBody
  else if op = opTopk then topkBody
  else if op = opNms then nmsBody
  else if op = opCrop then cropBody
  else if op = opResample then resampleBody
  else if op = opCopy2d then copyBody
  else if op = opAccWrite then accWriteBody
  else if op = opPush then pushBody
  else if op = opPop then popBody
  else if op = opEmit then emitBody
  else if op = opCheckFlag then checkFlagBody
  else matrixBody

/-- Every one of these rows runs the record at the front of its Facet's program, with the cycles of 03 R79. -/
theorem exec_record {c : Instr} {f : Fin 16} {op : Nat} {ms : List Meet} (h : recordOf c = some (f, op, ms))
    (s : State) : op ∈ recordOps ∧
      exec c s = .next (s.runRecord f op ms (isArrayOp op) recCycles (recordBody op)) := by
  unfold recordOf at h
  split at h
  case h_23 => cases h
  all_goals
    cases h
    exact ⟨by decide, congrArg Host.Outcome.next (State.runRecord_cycles fun r p e => by
      unfold recCycles
      rw [e]
      rfl)⟩

end Sys2Proof.Machine
end

section
namespace Sys2Proof.Machine

/-! ### What a body keeps of the state before its record -/

section
variable {X : Nat → Prop} {S s t : State} {K : List Change} {f : Fin 16} {r : Rec} {n : Nat} {array : Bool}

/-- Host control changes by records alone, memory at `X` and at the addresses of records alone, and every Facet keeps
its shape: what holds all through a body that leaves the counts of its regions alone. -/
structure State.Within (X : Nat → Prop) (S s : State) : Prop where
  told : State.Told X S s
  book : State.Book S s

/-- The same, but for the regions of the Facets: what every body leaves at its end. -/
structure State.Lands (X : Nat → Prop) (S s : State) : Prop where
  told : State.Told X S s
  place : ∀ g : Fin 16, s.facets[g].place = S.facets[g].place

theorem State.Within.refl (X : Nat → Prop) (s : State) : State.Within X s s := ⟨.refl X s, .refl s⟩

/-- A change that reaches memory by records alone. -/
theorem State.Within.via (h : State.Within X S s) (v : State.Via K s t) (h1 : .host ∉ K := by decide)
    (h2 : .mem ∉ K := by decide) (h3 : .facets ∉ K := by decide) : State.Within X S t :=
  ⟨h.told.via v h1 h2, h.book.via v h3⟩

theorem State.Within.facet (h : State.Within X S s) {u : Facet → Facet} (hu : ∀ x, (u x).shape = x.shape) :
    State.Within X S (s.updFacet f u) :=
  h.via (K := [.file]) (State.updFacet_file (.refl _ s) (by decide) hu)

theorem Facet.place_of_shape {x y : Facet} (h : x.shape = y.shape) : x.place = y.place :=
  show x.shape.place = y.shape.place by rw [h]

theorem State.Within.lands (h : State.Within X S s) : State.Lands X S s :=
  ⟨h.told, fun g => Facet.place_of_shape (h.book g)⟩

theorem State.Lands.via (h : State.Lands X S s) (v : State.Via K s t) (h1 : .host ∉ K := by decide)
    (h2 : .mem ∉ K := by decide) (h3 : .facets ∉ K := by decide) : State.Lands X S t :=
  ⟨h.told.via v h1 h2, fun g => (Facet.place_of_shape (v.book h3 g)).trans (h.place g)⟩

/-- A region rewritten leaves its Facet's place. -/
theorem State.Lands.region (h : State.Lands X S s) (g k : Fin 16) (u : RegionSt → RegionSt) :
    State.Lands X S (s.updRegion g k u) := by
  refine ⟨h.told.via (State.updRegion_via (M := [.facets]) (.refl _ s) (by decide)), fun i => ?_⟩
  unfold State.updRegion
  rw [State.updFacet_get]
  split
  · exact h.place i
  · exact h.place i

/-! ### The record's end (03 R77, R79) -/

theorem Facet.passed_congr {x y : Facet} (h : x.place = y.place) : x.passed r n array = y.passed r n array :=
  show x.place.passed r n array = y.place.passed r n array by rw [h]

theorem State.endRecord_place (s : State) (f g : Fin 16) : ((s.endRecord f r n array).facets[g]).place =
    if f = g then s.facets[g].passed r n array else s.facets[g].place := by
  unfold State.endRecord
  rw [State.updFacet_get]
  split <;> rfl

/-- The record's end after a body that lands. -/
theorem State.Lands.passes (h : State.Lands X S s) (f : Fin 16) :
    (((s.endRecord f r n array).drawn 1).facets[f]).place = S.facets[f].passed r n array ∧
    ∀ g : Fin 16, g ≠ f → (((s.endRecord f r n array).drawn 1).facets[g]).place = S.facets[g].place := by
  rw [State.drawn_facets]
  refine ⟨?_, fun g hg => ?_⟩
  · rw [State.endRecord_place, if_pos rfl]
    exact Facet.passed_congr (h.place f)
  · rw [State.endRecord_place, if_neg (Ne.symm hg)]
    exact h.place g

/-- The record's end stores nothing. -/
theorem State.Lands.ended (h : State.Lands X S s) (f : Fin 16) :
    State.Told X S ((s.endRecord f r n array).drawn 1) :=
  h.told.via (K := [.freeCtr, .facets]) (State.drawn_via (State.endRecord_via (.refl _ s) (by decide)) (by decide))

end

/-! ### Reading -/

section
variable {X : Nat → Prop} {S : State} {w : Run} {x : Ctx} {ref : Ref} {r : Rec} {word off n m stride : Nat} {t : Elt}

theorem Run.read_within (h : State.Within X S w.s) : State.Within X S (w.read x ref off n).2.s :=
  h.via (Run.read_via (.refl _ _) (List.Subset.refl _))

theorem Run.readRows_within (h : State.Within X S w.s) : State.Within X S (w.readRows x ref stride n m off).2.s :=
  h.via (Run.readRows_via (.refl _ _) (List.Subset.refl _))

theorem readVec_within (h : State.Within X S w.s) : State.Within X S (readVec w x r word t).2.s :=
  h.via (readVec_via (.refl _ _) (List.Subset.refl _))

theorem Run.settleReads_within (h : State.Within X S w.s) : State.Within X S (w.settleReads x).s :=
  h.via (Run.settleReads_via (.refl _ _) (List.Subset.refl _))

theorem State.readB_length (s : State) (a n : Nat) : (s.readB a n).length = n := by
  simp [State.readB, SMap.getRange]

theorem freeUnit_length (c u : Nat) : (freeUnit c u).length = 32 := by
  simp only [freeUnit, List.length_append, leBytes_length]

theorem State.readUnit_length (s : State) (g : Fin 16) (u : Nat) : (s.readUnit g u).1.length = 32 := by
  unfold State.readUnit
  extract_lets a s1 s2
  split
  · exact freeUnit_length _ _
  · split
    · exact State.readB_length _ _ _
    · exact freeUnit_length _ _
    · exact State.readB_length _ _ _

theorem Run.readAt_length (w : Run) (x : Ctx) (g : Fin 16) (u : Nat) : (w.readAt x g u).1.length = 32 := by
  unfold Run.readAt
  split
  · exact freeUnit_length _ _
  · exact State.readUnit_length _ _ _

theorem Run.readCirc_length (w : Run) (x : Ctx) (k : Fin 16) (o : Nat) : (w.readCirc x k o).1.length = 32 := by
  unfold Run.readCirc
  extract_lets g o u
  split
  · exact freeUnit_length _ _
  · have h := Run.readAt_length w x x.f u
    generalize w.readAt x x.f u = p at h ⊢
    obtain ⟨bs, w1⟩ := p
    dsimp only
    split
    · exact freeUnit_length _ _
    · exact h

theorem Run.readEach_length (x : Ctx) (g : Fin 16) (u : Nat → Nat) (n : Nat) :
    ∀ (w : Run) (i : Nat), (w.readEach x g u n i).1.length = 32 * n := by
  induction n with
  | zero => exact fun _ _ => rfl
  | succ n ih =>
    intro w i
    show ((w.readAt x g (u i)).1 ++ ((w.readAt x g (u i)).2.readEach x g u n (i + 1)).1).length = _
    rw [List.length_append, Run.readAt_length, ih]
    omega

theorem Run.readCircs_length (x : Ctx) (k : Fin 16) (n : Nat) :
    ∀ (w : Run) (o : Nat), (w.readCircs x k n o).1.length = 32 * n := by
  induction n with
  | zero => exact fun _ _ => rfl
  | succ n ih =>
    intro w o
    show ((w.readCirc x k o).1 ++ ((w.readCirc x k o).2.readCircs x k n (o + 1)).1).length = _
    rw [List.length_append, Run.readCirc_length, ih]
    omega

/-- Whole units are read. -/
theorem Run.read_length (w : Run) (x : Ctx) (ref : Ref) (off n : Nat) : (w.read x ref off n).1.length = 32 * n := by
  unfold Run.read
  split
  · exact Run.readCircs_length _ _ _ _ _
  · extract_lets g a
    split
    · exact State.readB_length _ _ _
    · exact Run.readEach_length _ _ _ _ _ _

theorem Run.readRows_row_length (x : Ctx) (ref : Ref) (stride n m : Nat) :
    ∀ (w : Run) (off : Nat), ∀ b ∈ (w.readRows x ref stride n m off).1, b.length = 32 * n := by
  induction m with
  | zero => exact fun _ _ _ hb => absurd hb List.not_mem_nil
  | succ m ih =>
    intro w off b hb
    rcases List.mem_cons.1 hb with rfl | hb
    · exact Run.read_length _ _ _ _ _
    · exact ih _ _ b hb

/-- A vector operand has a row of COLS elements for each of ROWS. -/
theorem readVec_shape (w : Run) (x : Ctx) (r : Rec) (word : Nat) (t : Elt) :
    (readVec w x r word t).1.length = r.rows ∧ ∀ row ∈ (readVec w x r word t).1, row.length = r.cols := by
  unfold readVec
  extract_lets ref
  split
  · simp [Facet.accRow, SMap.getRange]
  · refine ⟨?_, fun row h => ?_⟩
    · exact (List.length_map _).trans readRows_length
    · obtain ⟨b, _, rfl⟩ := List.mem_map.1 h
      rw [List.length_map, unpackElts_length]

end

end Sys2Proof.Machine
end

section
namespace Sys2Proof.Machine

/-! ### Writing at a record's destinations -/

section
variable {S : State} {w : Run} {x : Ctx} {f : Fin 16} {r : Rec} {word units n width stride : Nat}

theorem Run.write_within {bs : List Byte} (h : State.Within (S.storedBy f r) S w.s) (hf : x.f = f)
    (hs : (⟨word, 1, units, 0⟩ : Store) ∈ r.stores) (hl : unitsOf bs.length ≤ units) :
    State.Within (S.storedBy f r) S (w.write x (Ref.ofWord word) 0 bs).s :=
  ⟨write_one h.told h.book hf hs hl, h.book.via (Run.write_via (.refl _ _) (List.Subset.refl _))⟩

theorem Run.writeRows_within {rows : List (List Byte)} (h : State.Within (S.storedBy f r) S w.s) (hf : x.f = f)
    (hs : (⟨word, n, width, stride⟩ : Store) ∈ r.stores) (hn : rows.length ≤ n)
    (hl : ∀ b ∈ rows, unitsOf b.length ≤ width) :
    State.Within (S.storedBy f r) S (w.writeRows x (Ref.ofWord word) stride 0 rows).s :=
  ⟨write_rows h.told h.book hf hs hn hl, h.book.via (Run.writeRows_via (.refl _ _) (List.Subset.refl _))⟩

/-- Any part of a run of units may be covered. -/
theorem covers_run (hs : (⟨word, 1, units, 0⟩ : Store) ∈ r.stores) {k : Nat} (hk : k < units) :
    Covers (S.storedBy f r) (S.destAddr f (Ref.ofWord word) k) := by
  have := covers_of (s := S) (f := f) hs (i := 0) (j := k) (Nat.one_pos) hk
  simpa using this

theorem unitsOf_mono {a b : Nat} (h : a ≤ b) : unitsOf a ≤ unitsOf b := by
  unfold unitsOf
  omega

theorem ceilDiv_mono {a b : Nat} (k : Nat) (h : a ≤ b) : ceilDiv a k ≤ ceilDiv b k := by
  unfold ceilDiv
  exact Nat.div_le_div_right (by omega)

theorem unitsOf_eq (a : Nat) : unitsOf a = ceilDiv a 32 := rfl

/-- Packed elements, at most so many. -/
theorem packElts_units_le (t : Elt) {vs : List Nat} (h : vs.length ≤ n) :
    unitsOf (packElts t vs).length ≤ ceilDiv (n * t.bits) 256 := by
  rw [packElts_units]
  exact ceilDiv_mono _ (Nat.mul_le_mul_right _ h)

/-- Pieces of at most `k` bytes each, joined. -/
theorem flatMap_length_le {α : Type} (l : List α) (g : α → List Byte) {k : Nat} (h : ∀ a ∈ l, (g a).length ≤ k) :
    (l.flatMap g).length ≤ l.length * k := by
  rw [List.length_flatMap]
  simpa using List.sum_le_card_nsmul (l.map fun a => (g a).length) k (by simpa using h)

end

/-! ### What each opcode stores (03 R82, R83, R89 to R95, R494) -/

section
variable {r : Rec}

theorem Rec.stores_array (h : isArrayOp r.op = true) : r.stores =
    if r.accKeep then [] else [⟨r.op2, 1, ceilDiv (r.m * r.yRow) 32, 0⟩] := by
  unfold Rec.stores
  rw [h]
  rfl

theorem Rec.stores_vecRed (h : r.op = opVecRed) : r.stores =
    if (Ref.ofWord r.op2).acc then []
    else if r.flagBit 4 then [⟨r.op2, 1, eltUnits r.cols r.ty1, 0⟩]
    else if r.vstride = 0 then [⟨r.op2, 1, eltUnits r.rows r.ty1, 0⟩]
    else [⟨r.op2, r.rows, 1, r.vstride⟩] := by
  unfold Rec.stores
  rw [h]
  rfl

/-- Rows of a vector record other than VEC_RED. -/
theorem Rec.stores_vector (h : r.op ∈ [opVecEw, opSoftmax, opNorm, opAct]) : r.stores =
    if (Ref.ofWord r.op2).acc then []
    else [⟨r.op2, r.rows, eltUnits r.cols r.ty1, rowStride r (elt r.ty1)⟩] := by
  unfold Rec.stores
  simp only [List.mem_cons, List.not_mem_nil, or_false] at h
  rcases h with h | h | h | h <;> · rw [h]; rfl

theorem Rec.stores_decide (h : r.op = opDecide) : r.stores = ⟨r.op2, 1, ceilDiv (r.rows * 8) 32, 0⟩ ::
    (if r.op3 = 0 then [] else [⟨r.op3, 1, ceilDiv (r.rows * (ceilDiv r.cols 64 * 8)) 32, 0⟩]) := by
  unfold Rec.stores
  rw [h]
  rfl

theorem Rec.stores_topk (h : r.op = opTopk) :
    r.stores = [⟨r.op2, 1, ceilDiv (r.rows * (r.p 0x1C 1 * 8)) 32, 0⟩] := by
  unfold Rec.stores
  rw [h]
  rfl

theorem Rec.stores_nms (h : r.op = opNms) :
    r.stores = [⟨r.op2, 1, ceilDiv (r.p 0x14 2) 256, 0⟩, ⟨r.op3, 1, 1, 0⟩] := by
  unfold Rec.stores
  rw [h]
  rfl

theorem Rec.stores_gather (h : r.op = opGather) : r.stores = [⟨r.op2, 1, r.p 0x14 2 * r.p 0x16 2, 0⟩] := by
  unfold Rec.stores
  rw [h]
  rfl

theorem Rec.stores_scatter (h : r.op = opScatter) : r.stores = [⟨r.op2, 1, r.p 0x18 4 * r.p 0x16 2, 0⟩] := by
  unfold Rec.stores
  rw [h]
  rfl

theorem Rec.stores_crop (h : r.op = opCrop) : r.stores =
    [⟨r.op2, 1, r.p 0x16 2 * unitsOf (r.p 0x14 2 * ((elt r.ty0).bits / 8)), 0⟩, ⟨r.op3, 1, 1, 0⟩] := by
  unfold Rec.stores
  rw [h]
  rfl

theorem Rec.stores_resample (h : r.op = opResample) :
    r.stores = [⟨r.op2, 1, r.p 0x1A 2 * eltUnits (r.p 0x18 2) r.ty0, 0⟩] := by
  unfold Rec.stores
  rw [h]
  rfl

theorem Rec.stores_copy2d (h : r.op = opCopy2d) : r.stores =
    if r.flagBit 4 then
      [⟨r.op2, 32 * r.p 0x16 2, ceilDiv (r.p 0x14 2) 32, if r.p 0x1A 2 = 0 then r.p 0x14 2 / 32 else r.p 0x1A 2⟩]
    else [⟨r.op2, r.p 0x14 2, r.p 0x16 2, if r.p 0x1A 2 = 0 then r.p 0x16 2 else r.p 0x1A 2⟩] := by
  unfold Rec.stores
  rw [h]
  rfl

theorem Rec.stores_accWrite (h : r.op = opAccWrite) : r.stores =
    [⟨r.op2, r.p 0x14 2, r.p 0x16 2, if r.p 0x18 2 = 0 then r.p 0x16 2 else r.p 0x18 2⟩] := by
  unfold Rec.stores
  rw [h]
  rfl

end

/-! ### Array records -/

section
variable {S : State} {w : Run} {x : Ctx} {r : Rec} {rows : List (List FVal)}

theorem readA_rows (w : Run) (x : Ctx) (r : Rec) : (readA w x r).1.length = r.m := by
  unfold readA
  extract_lets t tu n n'
  split
  · show ((List.range r.m).map _).length = r.m
    simp
  · exact (List.length_map _).trans readRows_length

theorem readConvA_rows (x : Ctx) (r : Rec) (n : Nat) : ∀ (w : Run) (j : Nat), (readConvA w x r n j).1.length = n := by
  induction n with
  | zero => exact fun _ _ => rfl
  | succ n ih => exact fun w j => congrArg (· + 1) (ih _ _)

/-- One streamed row for each of M. -/
theorem readArray_rows (w : Run) (x : Ctx) (r : Rec) : (readArray w x r).1.a.length = r.m := by
  show (if r.op = opCONV then readConvA w x r r.m 0 else readA w x r).1.length = r.m
  split
  · exact readConvA_rows _ _ _ _ _
  · exact readA_rows _ _ _

theorem readDw_rows (w : Run) (x : Ctx) (r : Rec) : (readDw w x r).1.a.length = r.m := readConvA_rows _ _ _ _ _

/-- The totals go to the accumulator file alone. -/
theorem storeTotals_within {X : Nat → Prop} (h : State.Within X S w.s) :
    State.Within X S (storeTotals w x r rows).s := by
  have hg (l : List (List FVal × Nat)) (g : Facet) :
      (l.foldl (fun (g : Facet) p => g.setAccRow p.2 (p.1.map toFp32)) g).shape = g.shape :=
    Facet.foldl_shape (f := fun (g : Facet) (p : List FVal × Nat) => g.setAccRow p.2 (p.1.map toFp32))
      (fun _ _ => rfl) l g
  refine ⟨h.told.via (storeTotals_via (M := [.facets]) (.refl _ _) (by decide)), fun i => ?_⟩
  unfold storeTotals
  extract_lets g g'
  have e : g'.shape = w.s.facets[x.f].shape := by
    unfold g'
    split
    · exact hg _ _
    · exact hg _ _
  rw [State.updFacet_get]
  split
  next hi =>
    subst hi
    exact e.trans (h.book _)
  next => exact h.book i

theorem writeOut_within {f : Fin 16} {out : List (List Nat)} (h : State.Within (S.storedBy f r) S w.s) (hf : x.f = f)
    (ha : isArrayOp r.op = true) (hl : out.length = r.m) :
    State.Within (S.storedBy f r) S (writeOut w x r out).s := by
  unfold writeOut
  split
  · exact h
  next hk =>
    refine Run.write_within (units := ceilDiv (r.m * r.yRow) 32) h hf ?_ (unitsOf_mono ?_)
    · rw [Rec.stores_array ha, if_neg hk]
      exact List.mem_singleton_self _
    · rw [← hl]
      exact flatMap_length_le _ _ fun a _ => (fitBytes_length _ _).le

theorem finishArray_within {f : Fin 16} (h : State.Within (S.storedBy f r) S w.s) (hf : x.f = f)
    (ha : isArrayOp r.op = true) (hl : rows.length = r.m) :
    State.Within (S.storedBy f r) S (finishArray w x r rows).s :=
  writeOut_within (storeTotals_within (Run.settleReads_within h)) hf ha ((List.length_map _).trans hl)

theorem focusArray_within {f : Fin 16} {i : ArrayIn} (h : State.Within (S.storedBy f r) S w.s) (hf : x.f = f)
    (ha : isArrayOp r.op = true) (hl : i.a.length = r.m) :
    State.Within (S.storedBy f r) S (focusArray w x r i).s := by
  unfold focusArray
  extract_lets w1 w2 e outs all near s1 s2 s3 s4
  have h2 : State.Within (S.storedBy f r) S w2.s :=
    (Run.settleReads_within h).via (State.chargeNorm_via (.refl _ _) (List.Subset.refl _))
  have h3 : State.Within (S.storedBy f r) S s3 := h2.via (K := [.cnt])
    (State.count_via (State.count_via (State.count_via (.refl _ _) (by decide)) (by decide)) (by decide))
  have h4 : State.Within (S.storedBy f r) S s4 := State.Within.facet h3 fun _ => rfl
  refine writeOut_within (storeTotals_within h4) hf ha ?_
  simp [outs, hl]

theorem matrixBody_within {f : Fin 16} (h : State.Within (S.storedBy f r) S w.s) (hf : x.f = f)
    (ha : isArrayOp r.op = true) : State.Within (S.storedBy f r) S (matrixBody x r w).s := by
  have h1 : State.Within (S.storedBy f r) S (readArray w x r).2.s :=
    h.via (readArray_via (.refl _ _) (List.Subset.refl _))
  have hl := readArray_rows w x r
  show State.Within _ S (if r.focus then focusArray _ x r (readArray w x r).1
    else finishArray _ x r (totals _ r (readArray w x r).1)).s
  by_cases hr : r.focus = true
  · rw [if_pos hr]
    exact focusArray_within h1 hf ha hl
  · rw [if_neg hr]
    exact finishArray_within h1 hf ha (by simp [totals, hl])

theorem dwBody_within {f : Fin 16} (h : State.Within (S.storedBy f r) S w.s) (hf : x.f = f)
    (ha : isArrayOp r.op = true) : State.Within (S.storedBy f r) S (dwBody x r w).s :=
  finishArray_within (rows := dwTotals _ r (readDw w x r).1)
    (h.via (readDw_via (.refl _ _) (List.Subset.refl _))) hf ha (by simp [dwTotals, readDw_rows])

end

end Sys2Proof.Machine
end

section
namespace Sys2Proof.Machine

/-! ### Vector and selection records -/

section
variable {S : State} {w : Run} {x : Ctx} {f : Fin 16} {r : Rec}

/-- Rows for a vector destination: the accumulator file, or the units of the destination. -/
theorem writeVec_within {rows : List (List FVal)} (h : State.Within (S.storedBy f r) S w.s) (hf : x.f = f)
    (ho : r.op ∈ [opVecEw, opSoftmax, opNorm, opAct]) (hn : rows.length ≤ r.rows)
    (hl : ∀ row ∈ rows, row.length ≤ r.cols) : State.Within (S.storedBy f r) S (writeVec w x r rows).s := by
  have hs := Rec.stores_vector ho
  unfold writeVec
  extract_lets ref td
  split
  · exact h.facet fun y => Facet.foldl_shape (f := fun (g : Facet) (p : List FVal × Nat) =>
      g.setAccRow (ref.unit % 256 + p.2) (p.1.map toFp32)) (fun _ _ => rfl) _ y
  next ha =>
    refine Run.writeRows_within h hf (hs.trans (if_neg ha) ▸ List.mem_singleton_self _)
      ((List.length_map _).trans_le hn) fun b hb => ?_
    obtain ⟨row, hr, rfl⟩ := List.mem_map.1 hb
    exact packElts_units_le _ ((List.length_map _).trans_le (hl row hr))

theorem vecEwBody_within (h : State.Within (S.storedBy f r) S w.s) (hf : x.f = f) (ho : r.op = opVecEw) :
    State.Within (S.storedBy f r) S (vecEwBody x r w).s := by
  unfold vecEwBody
  extract_lets t sc
  have h1 := readVec_within (x := x) (r := r) (word := r.op0) (t := t) h
  obtain ⟨hn, hl⟩ := readVec_shape w x r r.op0 t
  generalize readVec w x r r.op0 t = p at h1 hn hl ⊢
  obtain ⟨a, w1⟩ := p
  have h2 : State.Within (S.storedBy f r) S (if r.hasSrc2 then readVec w1 x r r.op1 t else (a, w1)).2.s := by
    split
    · exact readVec_within h1
    · exact h1
  dsimp only at hn hl ⊢
  generalize (if r.hasSrc2 then readVec w1 x r r.op1 t else (a, w1)) = q at h2 ⊢
  obtain ⟨b, w2⟩ := q
  refine writeVec_within (Run.settleReads_within h2) hf (by simp [ho]) ?_ fun row hrow => ?_
  · rw [List.length_zipWith, hn]
    exact Nat.min_le_left _ _
  · obtain ⟨i, hi, rfl⟩ := List.getElem_of_mem hrow
    rw [List.getElem_zipWith, List.length_zipWith, hl _ (List.getElem_mem _)]
    exact Nat.min_le_left _ _

/-- A vector record that maps its rows one by one. -/
theorem mapRows_within {g : List FVal → List FVal} {rows : List (List FVal)}
    (h : State.Within (S.storedBy f r) S w.s) (hf : x.f = f) (ho : r.op ∈ [opVecEw, opSoftmax, opNorm, opAct])
    (hn : rows.length = r.rows) (hg : ∀ row ∈ rows, (g row).length ≤ r.cols) :
    State.Within (S.storedBy f r) S (writeVec w x r (rows.map g)).s := by
  refine writeVec_within h hf ho ((List.length_map _).trans hn).le fun _ hm => ?_
  obtain ⟨row, hr, rfl⟩ := List.mem_map.1 hm
  exact hg row hr

theorem actBody_within (h : State.Within (S.storedBy f r) S w.s) (hf : x.f = f) (ho : r.op = opAct) :
    State.Within (S.storedBy f r) S (actBody x r w).s := by
  obtain ⟨hn, hl⟩ := readVec_shape w x r r.op0 (elt r.ty0)
  exact mapRows_within (Run.settleReads_within (readVec_within h)) hf (by simp [ho]) hn
    fun row hr => ((List.length_map _).trans (hl row hr)).le

theorem softmaxRow_length (sc : FVal) (row : List FVal) : (softmaxRow sc row).length = row.length := by
  unfold softmaxRow
  extract_lets row' mx sc' es rc
  split <;> simp [row', es]

theorem softmaxBody_within (h : State.Within (S.storedBy f r) S w.s) (hf : x.f = f) (ho : r.op = opSoftmax) :
    State.Within (S.storedBy f r) S (softmaxBody x r w).s := by
  obtain ⟨hn, hl⟩ := readVec_shape w x r r.op0 (elt r.ty0)
  exact mapRows_within (Run.settleReads_within (readVec_within h)) hf (by simp [ho]) hn
    fun row hr => ((softmaxRow_length _ _).trans (hl row hr)).le

theorem normRow_length (func cols : Nat) (gamma beta : List FVal) (eps : FVal) (row : List FVal) :
    (normRow func cols gamma beta eps row).length ≤ row.length := by
  unfold normRow
  extract_lets row' m d ms rs
  have hd : d.length = row.length := by
    unfold d
    split <;> simp [row']
  rw [List.length_zipWith, hd]
  exact Nat.min_le_left _ _

theorem normBody_within (h : State.Within (S.storedBy f r) S w.s) (hf : x.f = f) (ho : r.op = opNorm) :
    State.Within (S.storedBy f r) S (normBody x r w).s := by
  obtain ⟨hn, hl⟩ := readVec_shape w x r r.op0 (elt r.ty0)
  exact mapRows_within (Run.settleReads_within (Run.read_within (readVec_within h))) hf (by simp [ho]) hn
    fun row hr => (normRow_length _ _ _ _ _ _).trans_eq (hl row hr)

theorem vecRedBody_within (h : State.Within (S.storedBy f r) S w.s) (hf : x.f = f) (ho : r.op = opVecRed) :
    State.Within (S.storedBy f r) S (vecRedBody x r w).s := by
  have hs := Rec.stores_vecRed ho
  unfold vecRedBody
  extract_lets td op ref
  have h1 := Run.settleReads_within (x := x) (readVec_within (x := x) (r := r) (word := r.op0) (t := elt r.ty0) h)
  obtain ⟨hn, -⟩ := readVec_shape w x r r.op0 (elt r.ty0)
  generalize readVec w x r r.op0 (elt r.ty0) = p at h1 hn ⊢
  obtain ⟨a, w1⟩ := p
  dsimp only at h1 hn ⊢
  by_cases ha : (Ref.ofWord r.op2).acc = true
  · have ha' : ref.acc = true := ha
    rw [if_pos ha', if_pos ha']
    split
    · exact h1.facet fun y => Facet.setAccRow_shape y _ _
    · exact h1.facet fun y => Facet.foldl_shape (f := fun (g : Facet) (p : FVal × Nat) =>
        g.setAccRow (ref.unit % 256 + p.2) (toFp32 p.1 :: List.replicate 63 0)) (fun _ _ => rfl) _ y
  · have ha' : ¬ ref.acc = true := ha
    have htd : td = elt r.ty1 := if_neg ha
    rw [if_neg ha', if_neg ha', htd]
    rw [if_neg ha] at hs
    split
    next h4 =>
      rw [if_pos h4] at hs
      exact Run.write_within h1 hf (hs ▸ List.mem_singleton_self _) (packElts_units_le _ (by simp))
    next h4 =>
      rw [if_neg h4] at hs
      split
      next hv =>
        rw [if_pos hv] at hs
        exact Run.write_within h1 hf (hs ▸ List.mem_singleton_self _) (packElts_units_le _ (by simp [hn]))
      next hv =>
        rw [if_neg hv] at hs
        refine Run.writeRows_within h1 hf (hs ▸ List.mem_singleton_self _) (by simp [hn]) fun b hb => ?_
        obtain ⟨v, _, rfl⟩ := List.mem_map.1 hb
        refine (packElts_units_le (n := 1) _ le_rfl).trans ?_
        cases elt r.ty1 <;> decide

theorem decideEntry_length (func : Nat) (t : FVal) (row : List FVal) : (decideEntry func t row).length = 8 := by
  simp only [decideEntry, List.length_append, leBytes_length]

theorem decideBody_within (h : State.Within (S.storedBy f r) S w.s) (hf : x.f = f) (ho : r.op = opDecide) :
    State.Within (S.storedBy f r) S (decideBody x r w).s := by
  have hs := Rec.stores_decide ho
  unfold decideBody
  have h1 := Run.settleReads_within (x := x) (readVec_within (x := x) (r := r) (word := r.op0) (t := elt r.ty0) h)
  obtain ⟨hn, -⟩ := readVec_shape w x r r.op0 (elt r.ty0)
  generalize readVec w x r r.op0 (elt r.ty0) = p at h1 hn ⊢
  obtain ⟨a, w1⟩ := p
  dsimp only at h1 hn ⊢
  have h2 := Run.write_within (bs := a.flatMap (decideEntry r.func (fp32 r.scalar))) h1 hf
    (hs ▸ List.mem_cons_self) (unitsOf_mono (hn ▸ flatMap_length_le _ _ fun _ _ => (decideEntry_length _ _ _).le))
  split
  · exact h2
  next h3 =>
    rw [if_neg h3] at hs
    exact Run.write_within h2 hf (hs ▸ List.mem_cons_of_mem _ (List.mem_singleton_self _))
      (unitsOf_mono (hn ▸ flatMap_length_le _ _ fun _ _ => (fitBytes_length _ _).le))

theorem topkBody_within (h : State.Within (S.storedBy f r) S w.s) (hf : x.f = f) (ho : r.op = opTopk) :
    State.Within (S.storedBy f r) S (topkBody x r w).s := by
  obtain ⟨hn, -⟩ := readVec_shape w x r r.op0 (elt r.ty0)
  refine Run.write_within (Run.settleReads_within (readVec_within h)) hf
    (Rec.stores_topk ho ▸ List.mem_singleton_self _)
    (unitsOf_mono ((flatMap_length_le _ _ fun row _ => (flatMap_length_le (k := 8) _ _ fun p _ => ?_).trans
      (Nat.mul_le_mul_right _ (List.length_take_le _ _))).trans_eq (congrArg (· * (r.p 0x1C 1 * 8)) hn)))
  simp only [List.length_append, leBytes_length, le_refl]

theorem nmsKeep_length (t : FVal) (m : Nat) (bs : List NmsBox) :
    ∀ kept : List NmsBox, (nmsKeep t m bs kept).length = bs.length := by
  induction bs with
  | nil => exact fun _ => rfl
  | cons b bs ih =>
    intro kept
    unfold nmsKeep
    split
    · exact congrArg (· + 1) (ih _)
    · exact congrArg (· + 1) (ih _)

theorem nmsBody_within (h : State.Within (S.storedBy f r) S w.s) (hf : x.f = f) (ho : r.op = opNms) :
    State.Within (S.storedBy f r) S (nmsBody x r w).s := by
  have hs := Rec.stores_nms ho
  refine Run.write_within (Run.write_within (Run.settleReads_within (Run.read_within h)) hf
    (hs ▸ List.mem_cons_self) ?_) hf (hs ▸ List.mem_cons_of_mem _ (List.mem_singleton_self _)) ?_
  · refine (packElts_units_le (n := r.p 0x14 2) _ ?_).trans_eq (by rw [show Elt.bit.bits = 1 from rfl, Nat.mul_one])
    rw [nmsKeep_length, List.length_map, List.length_range]
  · rw [leBytes_length]
    decide

end

/-! ### Movement records -/

section
variable {S : State} {w : Run} {x : Ctx} {f : Fin 16} {r : Rec}

theorem readIndices_length (w : Run) (x : Ctx) (r : Rec) : (readIndices w x r).1.length = r.p 0x14 2 :=
  unpackElts_length _ _ _

/-- A gathered row is missing or of whole units. -/
theorem gatherRows_shape (x : Ctx) (ref : Ref) (units tableRows : Nat) (is : List Nat) : ∀ w : Run,
    (gatherRows w x ref units tableRows is).1.length = is.length ∧
    ∀ p ∈ (gatherRows w x ref units tableRows is).1, ∀ b, p = some b → b.length = 32 * units := by
  induction is with
  | nil => exact fun _ => ⟨rfl, fun _ h => absurd h List.not_mem_nil⟩
  | cons i is ih =>
    intro w
    unfold gatherRows
    split
    · obtain ⟨hn, hl⟩ := ih (w.read x ref (i * units) units).2
      refine ⟨congrArg (· + 1) hn, fun p hp b e => ?_⟩
      rcases List.mem_cons.1 hp with rfl | hp
      · exact Option.some.inj e ▸ Run.read_length _ _ _ _ _
      · exact hl p hp b e
    · obtain ⟨hn, hl⟩ := ih w
      refine ⟨congrArg (· + 1) hn, fun p hp b e => ?_⟩
      rcases List.mem_cons.1 hp with rfl | hp
      · cases e
      · exact hl p hp b e

theorem gatherBody_within (h : State.Within (S.storedBy f r) S w.s) (hf : x.f = f) (ho : r.op = opGather) :
    State.Within (S.storedBy f r) S (gatherBody x r w).s := by
  have h1 : State.Within (S.storedBy f r) S (readIndices w x r).2.s :=
    h.via (readIndices_via (.refl _ _) (List.Subset.refl _))
  have hi := readIndices_length w x r
  unfold gatherBody
  generalize readIndices w x r = p at h1 hi ⊢
  obtain ⟨is, w1⟩ := p
  dsimp only at h1 hi ⊢
  have h2 : State.Within (S.storedBy f r) S
      (gatherRows w1 x (.ofWord r.op0) (r.p 0x16 2) (r.p 0x18 4) is).2.s :=
    h1.via (gatherRows_via (.refl _ _) (List.Subset.refl _))
  obtain ⟨hn, hl⟩ := gatherRows_shape x (.ofWord r.op0) (r.p 0x16 2) (r.p 0x18 4) is w1
  generalize gatherRows w1 x (.ofWord r.op0) (r.p 0x16 2) (r.p 0x18 4) is = q at h2 hn hl ⊢
  obtain ⟨rows, w2⟩ := q
  dsimp only at h2 hn hl ⊢
  have h3 := Run.settleReads_within (x := x) h2
  refine State.Within.via (s := (gatherWrite (w2.settleReads x) x (.ofWord r.op2) (r.p 0x16 2) rows 0).s)
    ⟨gatherWrite_stored h3.told h3.book (fun p hp b e => ?_) (fun k hk => ?_),
      h3.book.via (gatherWrite_via (.refl _ _) (List.Subset.refl _))⟩
    (State.chargeIndex_via (.refl _ _) (List.Subset.refl _))
  · rw [hl p hp b e]
    unfold unitsOf
    omega
  · rw [Nat.zero_add, hf]
    rw [hn, hi] at hk
    exact covers_run (Rec.stores_gather ho ▸ List.mem_singleton_self _) hk

theorem scatterBody_within (h : State.Within (S.storedBy f r) S w.s) (hf : x.f = f) (ho : r.op = opScatter) :
    State.Within (S.storedBy f r) S (scatterBody x r w).s := by
  have h1 : State.Within (S.storedBy f r) S (readIndices w x r).2.s :=
    h.via (readIndices_via (.refl _ _) (List.Subset.refl _))
  unfold scatterBody
  extract_lets units kind
  generalize readIndices w x r = p at h1 ⊢
  obtain ⟨is, w1⟩ := p
  dsimp only at h1 ⊢
  have h2 := Run.readRows_within (x := x) (ref := .ofWord r.op0) (stride := units) (n := units) (m := is.length)
    (off := 0) h1
  have hl := Run.readRows_row_length x (.ofWord r.op0) units units is.length w1 0
  generalize w1.readRows x (.ofWord r.op0) units units is.length 0 = q at h2 hl ⊢
  obtain ⟨rows, w2⟩ := q
  dsimp only at h2 hl ⊢
  have h3 := Run.settleReads_within (x := x) h2
  refine State.Within.via (s := (scatterWrite (w2.settleReads x) x (.ofWord r.op2) units (r.p 0x18 4) _
    (is.zip rows)).s) ⟨scatterWrite_stored h3.told h3.book (fun p hp => ?_) (fun k hk => ?_),
      h3.book.via (scatterWrite_via (.refl _ _) (List.Subset.refl _))⟩
    (State.chargeIndex_via (.refl _ _) (List.Subset.refl _))
  · rw [hl _ (List.of_mem_zip (a := p.1) (b := p.2) hp).2]
    unfold unitsOf
    omega
  · rw [hf]
    exact covers_run (Rec.stores_scatter ho ▸ List.mem_singleton_self _) hk

/-- An axis of a crop is cut to its limit. -/
theorem cropAxis_le (bayer : Bool) (pos len src lim : Nat) : (cropAxis bayer pos len src lim).2 ≤ lim := by
  unfold cropAxis evenDown
  extract_lets len' p
  split
  · exact (Nat.min_le_right _ _).trans (Nat.div_mul_le_self _ _)
  · exact Nat.min_le_right _ _

theorem cropRect_le (bayer : Bool) (q : Rect) (srcW srcH wMax hMax : Nat) :
    (cropRect bayer q srcW srcH wMax hMax).w ≤ wMax ∧ (cropRect bayer q srcW srcH wMax hMax).h ≤ hMax := by
  have hw := cropAxis_le bayer q.x q.w srcW wMax
  have hh := cropAxis_le bayer q.y q.h srcH hMax
  unfold cropRect
  generalize cropAxis bayer q.x q.w srcW wMax = a at hw ⊢
  generalize cropAxis bayer q.y q.h srcH hMax = b at hh ⊢
  obtain ⟨x, w⟩ := a
  obtain ⟨y, h⟩ := b
  dsimp only
  split
  · split
    · exact ⟨Nat.zero_le _, Nat.zero_le _⟩
    · exact ⟨Nat.zero_le _, Nat.zero_le _⟩
  · exact ⟨hw, hh⟩

theorem cropRows_shape (x : Ctx) (ref : Ref) (pitch eb : Nat) (q : Rect) (n : Nat) : ∀ (w : Run) (y : Nat),
    (cropRows w x ref pitch eb q n y).1.length = n ∧
    ∀ b ∈ (cropRows w x ref pitch eb q n y).1, b.length ≤ q.w * eb := by
  induction n with
  | zero => exact fun _ _ => ⟨rfl, fun _ h => absurd h List.not_mem_nil⟩
  | succ n ih =>
    intro w y
    obtain ⟨hn, hl⟩ := ih (w.read x ref (y * pitch + q.x * eb / 32) (unitsOf ((q.x + q.w) * eb) - q.x * eb / 32)).2
      (y + 1)
    refine ⟨congrArg (· + 1) hn, fun b hb => ?_⟩
    rcases List.mem_cons.1 hb with rfl | hb
    · refine (List.length_take_le _ _).trans ?_
      rw [Nat.add_mul]
      omega
    · exact hl b hb

theorem cropBody_within (h : State.Within (S.storedBy f r) S w.s) (hf : x.f = f) (ho : r.op = opCrop) :
    State.Within (S.storedBy f r) S (cropBody x r w).s := by
  have hs := Rec.stores_crop ho
  have h1 := Run.read_within (x := x) (ref := .ofWord r.op1) (off := 0) (n := 1) h
  unfold cropBody
  generalize w.read x (.ofWord r.op1) 0 1 = p at h1 ⊢
  obtain ⟨rb, w1⟩ := p
  dsimp only at h1 ⊢
  obtain ⟨hw, hh⟩ := cropRect_le (r.flagBit 4) ⟨fieldLe rb 0 2, fieldLe rb 2 2, fieldLe rb 4 2, fieldLe rb 6 2⟩
    (r.p 0x1A 2) (r.p 0x1C 2) (r.p 0x14 2) (r.p 0x16 2)
  generalize cropRect (r.flagBit 4) ⟨fieldLe rb 0 2, fieldLe rb 2 2, fieldLe rb 4 2, fieldLe rb 6 2⟩
    (r.p 0x1A 2) (r.p 0x1C 2) (r.p 0x14 2) (r.p 0x16 2) = e at hw hh ⊢
  generalize hk : (elt r.ty0).bits / 8 = eb at hs ⊢
  have h2 : State.Within (S.storedBy f r) S (cropRows w1 x (.ofWord r.op0) (r.p 0x18 2) eb e
      (if e.w = 0 then 0 else e.h) e.y).2.s := h1.via (cropRows_via (.refl _ _) (List.Subset.refl _))
  obtain ⟨hn, hl⟩ := cropRows_shape x (.ofWord r.op0) (r.p 0x18 2) eb e (if e.w = 0 then 0 else e.h) w1 e.y
  generalize cropRows w1 x (.ofWord r.op0) (r.p 0x18 2) eb e (if e.w = 0 then 0 else e.h) e.y = q at h2 hn hl ⊢
  obtain ⟨rows, w2⟩ := q
  dsimp only at h2 hn hl ⊢
  have h3 := Run.settleReads_within (x := x) h2
  have hr : rows.length ≤ r.p 0x16 2 := by
    rw [hn]
    split
    · exact Nat.zero_le _
    · exact hh
  have h4 : State.Within (S.storedBy f r) S
      ((w2.settleReads x).writeRows x (.ofWord r.op2) (unitsOf (e.w * eb)) 0 rows).s := by
    refine ⟨Run.writeRows_stored (width := unitsOf (e.w * eb)) h3.told h3.book (fun b hb => unitsOf_mono (hl b hb))
      (fun i hi k hk => ?_), h3.book.via (Run.writeRows_via (.refl _ _) (List.Subset.refl _))⟩
    rw [hf, Nat.zero_add]
    refine covers_run (hs ▸ List.mem_cons_self) ?_
    have hu : unitsOf (e.w * eb) ≤ unitsOf (r.p 0x14 2 * eb) := unitsOf_mono (Nat.mul_le_mul_right _ hw)
    calc i * unitsOf (e.w * eb) + k < (i + 1) * unitsOf (e.w * eb) := by rw [Nat.add_mul]; omega
      _ ≤ r.p 0x16 2 * unitsOf (r.p 0x14 2 * eb) := Nat.mul_le_mul (by omega) hu
  refine Run.write_within h4 hf (hs ▸ List.mem_cons_of_mem _ (List.mem_singleton_self _)) ?_
  simp only [List.length_append, leBytes_length]
  decide

theorem resampleBody_within (h : State.Within (S.storedBy f r) S w.s) (hf : x.f = f) (ho : r.op = opResample) :
    State.Within (S.storedBy f r) S (resampleBody x r w).s := by
  have h1 := Run.settleReads_within (x := x) (Run.readRows_within (x := x) (ref := .ofWord r.op0)
    (stride := r.p 0x1C 2) (n := ceilDiv (r.p 0x14 2 * (elt r.ty0).bits) 256) (m := r.p 0x16 2) (off := 0) h)
  refine ⟨Run.writeRows_stored (width := eltUnits (r.p 0x18 2) r.ty0) h1.told h1.book (fun b hb => ?_)
    (fun i hi k hk => ?_), h1.book.via (Run.writeRows_via (.refl _ _) (List.Subset.refl _))⟩
  · obtain ⟨y, _, rfl⟩ := List.mem_map.1 hb
    exact packElts_units_le _ (by simp)
  · rw [hf, Nat.zero_add]
    rw [List.length_map, List.length_range] at hi
    refine covers_run (Rec.stores_resample ho ▸ List.mem_singleton_self _) ?_
    calc i * eltUnits (r.p 0x18 2) r.ty0 + k < (i + 1) * eltUnits (r.p 0x18 2) r.ty0 := by rw [Nat.add_mul]; omega
      _ ≤ r.p 0x1A 2 * eltUnits (r.p 0x18 2) r.ty0 := Nat.mul_le_mul_right _ hi

theorem copyBody_within (h : State.Within (S.storedBy f r) S w.s) (hf : x.f = f) (ho : r.op = opCopy2d) :
    State.Within (S.storedBy f r) S (copyBody x r w).s := by
  have hs := Rec.stores_copy2d ho
  unfold copyBody
  extract_lets n u ss
  have h1 := Run.settleReads_within (x := x) (Run.readRows_within (x := x) (ref := .ofWord r.op0) (stride := ss)
    (n := u) (m := n) (off := 0) h)
  have hn : (w.readRows x (.ofWord r.op0) ss u n 0).1.length = n := readRows_length
  have hl := Run.readRows_row_length x (.ofWord r.op0) ss u n w 0
  generalize w.readRows x (.ofWord r.op0) ss u n 0 = p at h1 hn hl ⊢
  obtain ⟨rows, w1⟩ := p
  dsimp only at h1 hn hl ⊢
  split
  next h4 =>
    rw [if_pos h4] at hs
    refine Run.writeRows_within h1 hf (hs ▸ List.mem_singleton_self _) (by simp [u]) fun b hb => ?_
    obtain ⟨j, _, rfl⟩ := List.mem_map.1 hb
    rw [List.length_map, List.length_range]
    rfl
  next h4 =>
    rw [if_neg h4] at hs
    refine Run.writeRows_within h1 hf (hs ▸ List.mem_singleton_self _) hn.le fun b hb => ?_
    rw [hl b hb]
    show (32 * u + 31) / 32 ≤ u
    omega

theorem accWriteBody_within (h : State.Within (S.storedBy f r) S w.s) (hf : x.f = f) (ho : r.op = opAccWrite) :
    State.Within (S.storedBy f r) S (accWriteBody x r w).s := by
  have hn : (accWriteRows w x r).1.length = r.p 0x14 2 := by
    unfold accWriteRows
    extract_lets n u ref t
    split
    · simp [n]
    · exact readRows_length
  have h1 : State.Within (S.storedBy f r) S ((accWriteRows w x r).2.settleReads x).s :=
    Run.settleReads_within (h.via (accWriteRows_via (.refl _ _) (List.Subset.refl _)))
  refine ⟨Run.accumRows_stored h1.told h1.book fun i hi k hk => ?_,
    h1.book.via (Run.accumRows_via (.refl _ _) (List.Subset.refl _))⟩
  rw [hf, Nat.zero_add]
  exact covers_of (st := ⟨_, _, _, _⟩) (Rec.stores_accWrite ho ▸ List.mem_singleton_self _) (hn ▸ hi) hk

end

end Sys2Proof.Machine
end

section
namespace Sys2Proof.Machine

/-! ### Control records, and every record's body -/

section
variable {X : Nat → Prop} {S : State} {w : Run} {x : Ctx} {f : Fin 16} {op : Nat} {r : Rec}

/-- A push moves LOCAL_HEAD of one region, or marks its OVERRUN (05 R146). -/
theorem pushBody_lands (h : State.Lands X S w.s) : State.Lands X S (pushBody x r w).s := by
  unfold pushBody
  extract_lets pb g k u rg
  split
  · exact h.via (State.producerOverrun_via (.refl _ _) (List.Subset.refl _))
  · exact h.region g k fun y => { y with localPush := y.localPush + u }

/-- A pop moves TAIL of one region (05 R144). -/
theorem popBody_lands (h : State.Lands X S w.s) : State.Lands X S (popBody x r w).s := by
  unfold popBody
  extract_lets k u rg s
  have hs : State.Lands X S s :=
    (h.region x.f k fun y => y.pop u).via (State.regrantRegion_via (.refl _ _) (List.Subset.refl _))
  clear_value s
  split
  · have v : State.Via [.cnt, .file, .note, .err] s
        (((s.count (srcFacet x.f) (cUnder k.val) 1).facetError x.f 0x0251 0).invalidate x.f) :=
      State.invalidate_via (State.facetError_via (State.count_via (.refl _ s) (by decide)) (by decide)) (by decide)
    exact hs.via v
  · exact hs

/-- A record of the row's opcode stores at its destinations alone, and leaves every Facet where it stands. -/
theorem recordBody_lands (h : State.Within (S.storedBy f r) S w.s) (hf : x.f = f) (ho : r.op = op)
    (hop : op ∈ recordOps) : State.Lands (S.storedBy f r) S (recordBody op x r w).s := by
  simp only [recordOps, List.mem_cons, List.not_mem_nil, or_false] at hop
  rcases hop with rfl | rfl | rfl | rfl | rfl | rfl | rfl | rfl | rfl | rfl | rfl | rfl | rfl | rfl | rfl | rfl | rfl |
    rfl | rfl | rfl | rfl | rfl
  · exact (matrixBody_within h hf (ho ▸ rfl)).lands
  · exact (matrixBody_within h hf (ho ▸ rfl)).lands
  · exact (matrixBody_within h hf (ho ▸ rfl)).lands
  · exact (dwBody_within h hf (ho ▸ rfl)).lands
  · exact (vecEwBody_within h hf ho).lands
  · exact (vecRedBody_within h hf ho).lands
  · exact (softmaxBody_within h hf ho).lands
  · exact (normBody_within h hf ho).lands
  · exact (actBody_within h hf ho).lands
  · exact (gatherBody_within h hf ho).lands
  · exact (scatterBody_within h hf ho).lands
  · exact (decideBody_within h hf ho).lands
  · exact (topkBody_within h hf ho).lands
  · exact (nmsBody_within h hf ho).lands
  · exact (cropBody_within h hf ho).lands
  · exact (resampleBody_within h hf ho).lands
  · exact (copyBody_within h hf ho).lands
  · exact (accWriteBody_within h hf ho).lands
  · exact pushBody_lands h.lands
  · exact popBody_lands h.lands
  · exact (h.via (emitBody_via (.refl _ _) (List.Subset.refl _))).lands
  · exact (h.via (checkFlagBody_via (.refl _ _) (List.Subset.refl _))).lands

/-- The kinds of change that a record makes. -/
abbrev recordKinds : List Change :=
  [.freeCtr, .out, .upsets, .mem, .ring, .poison, .wbQueue, .cnt, .facets, .file, .net, .beam, .note, .err]

theorem recordBody_via (x : Ctx) (r : Rec) (h : State.Via recordKinds S w.s) (hop : op ∈ recordOps) :
    State.Via recordKinds S (recordBody op x r w).s := by
  simp only [recordOps, List.mem_cons, List.not_mem_nil, or_false] at hop
  rcases hop with rfl | rfl | rfl | rfl | rfl | rfl | rfl | rfl | rfl | rfl | rfl | rfl | rfl | rfl | rfl | rfl | rfl |
    rfl | rfl | rfl | rfl | rfl
  · exact matrixBody_via h (by decide)
  · exact matrixBody_via h (by decide)
  · exact matrixBody_via h (by decide)
  · exact dwBody_via h (by decide)
  · exact vecEwBody_via h (by decide)
  · exact vecRedBody_via h (by decide)
  · exact softmaxBody_via h (by decide)
  · exact normBody_via h (by decide)
  · exact actBody_via h (by decide)
  · exact gatherBody_via h (by decide)
  · exact scatterBody_via h (by decide)
  · exact decideBody_via h (by decide)
  · exact topkBody_via h (by decide)
  · exact nmsBody_via h (by decide)
  · exact cropBody_via h (by decide)
  · exact resampleBody_via h (by decide)
  · exact copyBody_via h (by decide)
  · exact accWriteBody_via h (by decide)
  · exact pushBody_via h (by decide)
  · exact popBody_via h (by decide)
  · exact emitBody_via h (by decide)
  · exact checkFlagBody_via h (by decide)

/-- The body of the record at the front of a Facet's program, its meetings charged before it. -/
theorem State.recordRun_lands {s : State} {ms : List Meet} (h : s.headRec f op = some r) (hop : op ∈ recordOps) :
    State.Lands (s.storedBy f r) s (s.recordRun f r ms (recordBody op)).s :=
  recordBody_lands ((State.Within.refl _ s).via (State.metBy_via s f ms)) rfl (State.headRec_op h) hop

end
end Sys2Proof.Machine

open Sys2Proof Sys2Proof.Machine

/-- Settles O13: the row runs the record at the front of its Facet's program, whose body leaves every Facet's place. -/
theorem recordsPass : Obligations.RecordsPass := by
  unfold Obligations.RecordsPass
  intro c f op ms s h
  obtain ⟨hop, he⟩ := exec_record h s
  refine ⟨fun r hr => ⟨_, he, ?_⟩, fun hr => he.trans (congrArg _ (State.runRecord_none hr))⟩
  have hv : State.Via recordKinds s (s.runRecord f op ms (isArrayOp op) recCycles (recordBody op)) :=
    State.runRecord_via (.refl _ s) (fun x r w h => recordBody_via x r h hop) (by decide)
  have hl := (State.recordRun_lands (ms := ms) hr hop).passes (r := r) (n := recCycles r s.facets[f].prevArray)
    (array := isArrayOp op) f
  rw [← State.runRecord_some hr] at hl
  exact ⟨hl.1, hl.2, hv.frame⟩

/-- Settles O14: every body writes through the lemmas of the shared writes, at the rows that `Rec.stores` lists. -/
theorem recordsStoreAtDestinations : Obligations.RecordsStoreAtDestinations := by
  unfold Obligations.RecordsStoreAtDestinations
  intro c f op ms s r h hr
  obtain ⟨hop, he⟩ := exec_record h s
  refine ⟨_, he, ?_⟩
  rw [State.runRecord_some hr]
  exact (State.recordRun_lands hr hop).ended f
end

section
namespace Sys2Proof.Machine

/-! ### Runs of bytes in memory -/

section
variable {s t : State} {a n : Nat}

/-- A range reads alike in two memories that agree on its bytes. -/
theorem State.readB_congr (hs : Memory.wf s.mem = true) (ht : Memory.wf t.mem = true)
    (h : ∀ i, i < n → SMap.get 0 t.mem (a + i) = SMap.get 0 s.mem (a + i)) : t.readB a n = s.readB a n := by
  unfold State.readB
  rw [SMap.getRange_eq hs, SMap.getRange_eq ht]
  exact List.map_congr_left fun i hi => h i (List.mem_range.1 hi)

/-- The first bytes of a run written read back. -/
theorem SMap.getRange_setRange_take {m : SMap Byte} (hm : Memory.wf m = true) (a : Nat) {vs : List Byte}
    (hn : n ≤ vs.length) : SMap.getRange 0 (SMap.setRange 0 m a vs) a n = vs.take n := by
  rw [SMap.getRange_eq (SMap.wf_setRange a vs hm)]
  refine List.ext_getElem (by simpa using hn) fun i h1 h2 => ?_
  rw [List.length_map, List.length_range] at h1
  rw [List.getElem_map, List.getElem_range, SMap.get_setRange hm, if_pos (by omega), List.getElem_take]
  simp [show i < vs.length by omega]

/-- Whole units need no filling. -/
theorem padUnits_whole {bs : List Byte} (h : bs.length = 32 * n) : padUnits bs = bs := by
  unfold padUnits
  rw [h, Nat.mul_mod_right]
  exact List.append_nil bs

theorem unitsOf_whole (n : Nat) : unitsOf (32 * n) = n := by
  unfold unitsOf
  omega

end

/-! ### Plain operands of a record that meets no error (03 R75; 05 R136 to R139) -/

section
variable {s : State} {f : Fin 16} {w : Run} {x : Ctx} {ref : Ref} {r : Rec} {off n m stride width word : Nat} {t : Elt}

theorem State.cleanRun_clean (h : s.clean) (a n : Nat) : s.cleanRun a n = true := by
  obtain ⟨hp, hu⟩ := h
  unfold State.cleanRun
  rw [hp, hu]
  rfl

theorem State.destAddr_plain (h : ref.circ = false) (o : Nat) :
    s.destAddr f ref o = unitAddr (ref.facet f) (ref.unit + o) := by
  unfold State.destAddr
  exact if_neg (by simp [h])

theorem Run.read_clean (hs : w.s.clean) (hx : x.dropR = []) (hc : ref.circ = false) :
    w.read x ref off n = (w.s.readB (w.s.destAddr x.f ref off) (32 * n), w) := by
  unfold Run.read
  rw [State.destAddr_plain hc]
  simp [hc, hx, State.cleanRun_clean hs]

theorem Run.readRows_clean (hs : w.s.clean) (hx : x.dropR = []) (hc : ref.circ = false) (m : Nat) : ∀ off : Nat,
    w.readRows x ref stride n m off =
      ((List.range m).map (fun i => w.s.readB (w.s.destAddr x.f ref (off + i * stride)) (32 * n)), w) := by
  induction m with
  | zero => exact fun _ => rfl
  | succ m ih =>
    intro off
    unfold Run.readRows
    rw [Run.read_clean hs hx hc]
    dsimp only
    rw [ih, List.range_succ_eq_map, List.map_cons, List.map_map]
    refine Prod.ext (congrArg₂ _ (by rw [Nat.zero_mul, Nat.add_zero]) (List.map_congr_left fun i _ => ?_)) rfl
    rw [Function.comp_apply, Nat.succ_mul i, Nat.add_assoc off, Nat.add_comm stride]

/-- Nothing is charged for reads that met nothing. -/
theorem Run.settleReads_clean (hb : w.bad = false) (hu : w.under = []) : w.settleReads x = w := by
  obtain ⟨s, bad, under⟩ := w
  subst hb hu
  rfl

theorem readVec_clean (hs : w.s.clean) (hx : x.dropR = []) (hp : (Ref.ofWord word).plain) :
    readVec w x r word t = ((List.range r.rows).map (fun i => (unpackElts t r.cols (w.s.readB
      (w.s.destAddr x.f (Ref.ofWord word) (i * rowStride r t)) (32 * ceilDiv (r.cols * t.bits) 256))).map t.decode), w) := by
  obtain ⟨hc, ha⟩ := hp
  unfold readVec
  extract_lets ref
  rw [if_neg (by simp [ref, ha]), Run.readRows_clean hs hx hc]
  simp

theorem Run.write_mem (hx : x.dropW = []) (hc : ref.circ = false) (bs : List Byte) : (w.write x ref off bs).s.mem =
    SMap.setRange 0 w.s.mem (unitAddr (ref.facet x.f) (ref.unit + off)) (padUnits bs) := by
  unfold Run.write Run.writeBad
  simp [hc, hx]

theorem unitAddr_add (g : Fin 16) (u k : Nat) : unitAddr g (u + k) = unitAddr g u + 32 * k := by
  unfold unitAddr
  omega

/-- Rows written at a stride that holds them stand each at its place, and nothing below the first changes. -/
theorem Run.writeRows_mem (hx : x.dropW = []) (hc : ref.circ = false) (hw : width ≤ stride) (rows : List (List Byte)) :
    ∀ (w : Run) (off : Nat), Memory.wf w.s.mem = true → (∀ b ∈ rows, unitsOf b.length = width) →
    Memory.wf (w.writeRows x ref stride off rows).s.mem = true ∧
    (∀ a, a < unitAddr (ref.facet x.f) (ref.unit + off) →
      SMap.get 0 (w.writeRows x ref stride off rows).s.mem a = SMap.get 0 w.s.mem a) ∧
    ∀ i (hi : i < rows.length), (w.writeRows x ref stride off rows).s.readB
      (unitAddr (ref.facet x.f) (ref.unit + (off + i * stride))) (32 * width) = padUnits rows[i] := by
  induction rows with
  | nil => exact fun w off hm _ => ⟨hm, fun _ _ => rfl, fun i hi => absurd hi (Nat.not_lt_zero i)⟩
  | cons b rows ih =>
    intro w off hm hl
    have hb := hl b List.mem_cons_self
    have h1 := Run.write_mem (w := w) (off := off) hx hc b
    have hm1 : Memory.wf (w.write x ref off b).s.mem = true := by
      rw [h1]
      exact SMap.wf_setRange _ _ hm
    obtain ⟨k1, k2, k3⟩ := ih (w.write x ref off b) (off + stride) hm1 fun c hc => hl c (List.mem_cons_of_mem _ hc)
    have hlen : (padUnits b).length = 32 * width := by rw [padUnits_length, hb, Nat.mul_comm]
    rw [← Nat.add_assoc, unitAddr_add] at k2
    refine ⟨k1, fun a ha => ?_, fun i hi => ?_⟩
    · refine (k2 a (by omega)).trans ?_
      rw [h1, SMap.get_setRange hm, if_neg (by omega)]
    · cases i with
      | zero =>
        rw [Nat.zero_mul, Nat.add_zero]
        refine (State.readB_congr hm1 k1 fun j hj => k2 _ (by omega)).trans ?_
        unfold State.readB
        rw [h1, ← hlen]
        exact SMap.getRange_setRange hm _ _
      | succ i =>
        have := k3 i (Nat.lt_of_succ_lt_succ hi)
        rwa [Nat.add_assoc off, Nat.add_comm stride, ← Nat.succ_mul] at this

/-- The record's end reads as its body left memory. -/
theorem State.ended_readB (s : State) (f : Fin 16) (r : Rec) (c : Nat) (b : Bool) (k a n : Nat) :
    ((s.endRecord f r c b).drawn k).readB a n = s.readB a n := rfl

/-- A record that meets no other access begins in the state before it. -/
theorem State.recordRun_alone (s : State) (f : Fin 16) (r : Rec) (body : Ctx → Rec → Run → Run) :
    s.recordRun f r [] body = body ⟨f, [], []⟩ r ⟨s, false, []⟩ := rfl

end

/-! ### COPY_2D, VEC_EW and MM on plain operands -/

section
variable {s : State} {f : Fin 16} {r : Rec}

/-- Source rows go to their destinations (03 R94, R95). -/
theorem copyBody_rows (hs : s.clean) (hm : Memory.wf s.mem = true) (h0 : (Ref.ofWord r.op0).plain)
    (h2 : (Ref.ofWord r.op2).plain) (h4 : r.flagBit 4 = false) (hd : r.p 0x1A 2 = 0 ∨ r.p 0x16 2 ≤ r.p 0x1A 2) {i : Nat}
    (hi : i < r.p 0x14 2) :
    (copyBody ⟨f, [], []⟩ r ⟨s, false, []⟩).s.readB
      (s.destAddr f (Ref.ofWord r.op2) (i * (if r.p 0x1A 2 = 0 then r.p 0x16 2 else r.p 0x1A 2))) (32 * r.p 0x16 2) =
    s.readB (s.destAddr f (Ref.ofWord r.op0) (i * (if r.p 0x18 2 = 0 then r.p 0x16 2 else r.p 0x18 2)))
      (32 * r.p 0x16 2) := by
  have hw : r.p 0x16 2 ≤ if r.p 0x1A 2 = 0 then r.p 0x16 2 else r.p 0x1A 2 := by
    split
    · exact le_rfl
    next h => exact hd.resolve_left h
  unfold copyBody
  extract_lets n u ss
  rw [Run.readRows_clean hs rfl h0.1]
  dsimp only
  rw [h4, if_neg Bool.false_ne_true, Run.settleReads_clean rfl rfl, State.destAddr_plain h2.1]
  simp only [Nat.zero_add]
  obtain ⟨-, -, h⟩ := Run.writeRows_mem (x := ⟨f, [], []⟩) rfl h2.1 hw ((List.range (r.p 0x14 2)).map fun i =>
    s.readB (s.destAddr f (Ref.ofWord r.op0) (i * (if r.p 0x18 2 = 0 then r.p 0x16 2 else r.p 0x18 2)))
      (32 * r.p 0x16 2)) ⟨s, false, []⟩ 0 hm fun b hb => by
      obtain ⟨j, _, rfl⟩ := List.mem_map.1 hb
      rw [State.readB_length, unitsOf_whole]
  have hr := h i (by simpa using hi)
  rw [List.getElem_map, List.getElem_range, padUnits_whole (State.readB_length _ _ _), Nat.zero_add] at hr
  exact hr

end

end Sys2Proof.Machine

open Sys2Proof Sys2Proof.Machine

/-- Settles O15: the reads find nothing to correct, and rows at a stride that holds them do not meet. -/
theorem copyMovesRows : Obligations.CopyMovesRows := by
  unfold Obligations.CopyMovesRows
  intro f s r hr hs hm h0 h2 h4 hd
  obtain ⟨-, he⟩ := exec_record (c := .copy2d f []) rfl s
  refine ⟨_, he, fun i hi => ?_⟩
  rw [State.runRecord_some hr, State.ended_readB]
  exact copyBody_rows hs hm h0 h2 h4 hd hi
end

section
namespace Sys2Proof.Machine

/-! ### VEC_EW on plain operands (03 R89, R90) -/

section
variable {s : State} {f : Fin 16} {r : Rec}

/-- The rows that VEC_EW computes from two plain operands. -/
def State.ewRows (s : State) (f : Fin 16) (r : Rec) (i : Nat) : List FVal :=
  let src (op : Nat) : List FVal :=
    (unpackElts (elt r.ty0) r.cols (s.readB (s.destAddr f (Ref.ofWord op) (i * rowStride r (elt r.ty0)))
      (32 * eltUnits r.cols r.ty0))).map (elt r.ty0).decode
  List.zipWith (ewExact r.func (fp32 r.scalar)) (src r.op0) (src r.op1)

theorem State.ewRows_length (s : State) (f : Fin 16) (r : Rec) (i : Nat) : (s.ewRows f r i).length = r.cols := by
  simp [State.ewRows, unpackElts_length]

theorem vecEwBody_clean (hs : s.clean) (h0 : (Ref.ofWord r.op0).plain) (h1 : (Ref.ofWord r.op1).plain)
    (h2 : r.hasSrc2 = true) : vecEwBody ⟨f, [], []⟩ r ⟨s, false, []⟩ =
      writeVec ⟨s, false, []⟩ ⟨f, [], []⟩ r ((List.range r.rows).map (s.ewRows f r)) := by
  unfold vecEwBody
  extract_lets t sc
  rw [readVec_clean hs rfl h0]
  dsimp only
  rw [if_pos h2, readVec_clean hs rfl h1]
  dsimp only
  rw [Run.settleReads_clean rfl rfl, List.zipWith_map, List.zipWith_self]
  rfl

/-- Each row of results stands at its place in the destination. -/
theorem vecEwBody_rows (hs : s.clean) (hm : Memory.wf s.mem = true) (h0 : (Ref.ofWord r.op0).plain)
    (h1 : (Ref.ofWord r.op1).plain) (h2 : (Ref.ofWord r.op2).plain) (hb : r.hasSrc2 = true)
    (hd : r.vstride = 0 ∨ eltUnits r.cols r.ty1 ≤ r.vstride) {i : Nat} (hi : i < r.rows) :
    (vecEwBody ⟨f, [], []⟩ r ⟨s, false, []⟩).s.readB (s.destAddr f (Ref.ofWord r.op2) (i * rowStride r (elt r.ty1)))
      (32 * eltUnits r.cols r.ty1) =
    padUnits (packElts (elt r.ty1) ((s.ewRows f r i).map (elt r.ty1).encode)) := by
  have hw : eltUnits r.cols r.ty1 ≤ rowStride r (elt r.ty1) := by
    unfold rowStride
    split
    · exact le_rfl
    next h => exact hd.resolve_left h
  obtain ⟨-, -, h⟩ := Run.writeRows_mem (x := ⟨f, [], []⟩) rfl h2.1 hw
    (((List.range r.rows).map (s.ewRows f r)).map fun vs => packElts (elt r.ty1) (vs.map (elt r.ty1).encode))
    ⟨s, false, []⟩ 0 hm fun b hb => by
      rw [List.map_map] at hb
      obtain ⟨j, _, rfl⟩ := List.mem_map.1 hb
      rw [Function.comp_apply, packElts_units, List.length_map, State.ewRows_length]
      rfl
  have hr := h i (by simpa using hi)
  rw [List.getElem_map, List.getElem_map, List.getElem_range, Nat.zero_add] at hr
  rw [vecEwBody_clean hs h0 h1 hb, State.destAddr_plain h2.1]
  unfold writeVec
  extract_lets ref td
  rw [if_neg (by simp [ref, h2.2])]
  exact hr

end

/-! ### MM on plain operands (03 R81 to R83; 04 R105 to R109) -/

section
variable {s : State} {f : Fin 16} {r : Rec}

/-- The operands of MM without FOCUS and activation scales, read in place. -/
def State.mmIn (s : State) (f : Fin 16) (r : Rec) : ArrayIn :=
  let n := r.kt * tileUnits (elt r.ty0)
  let tiles := r.kt * tileBytes (elt r.ty1) / 32
  let w (off k : Nat) : List Byte := s.readB (s.destAddr f (Ref.ofWord r.op1) off) (32 * k)
  ⟨(List.range r.m).map (fun m => unpackElts (elt r.ty0) (64 * r.kt)
      (s.readB (s.destAddr f (Ref.ofWord r.op0) (m * (if r.aStride = 0 then n else r.aStride))) (32 * n))),
    weightCols r (w 0 tiles), #[], bf16Array (r.groups * r.ncols)
      (w tiles (if elt r.ty0 != .bf16 then unitsOf (r.groups * r.ncols * 2) else 0)),
    r.groups, r.ncols, (unpackElts .u16 (r.groups * r.ncols) []).toArray⟩

theorem readA_clean (hs : s.clean) (ho : r.op = opMM) (h0 : (Ref.ofWord r.op0).plain) :
    readA ⟨s, false, []⟩ ⟨f, [], []⟩ r = ((s.mmIn f r).a, ⟨s, false, []⟩) := by
  unfold readA
  extract_lets t tu n n'
  rw [if_neg (by simp [ho, opMM, opMMT]), Run.readRows_clean hs rfl h0.1]
  dsimp only
  rw [List.map_map]
  simp only [Nat.zero_add]
  rfl

theorem readArray_clean (hs : s.clean) (ho : r.op = opMM) (h0 : (Ref.ofWord r.op0).plain)
    (h1 : (Ref.ofWord r.op1).plain) (hf : r.focus = false) (h3 : r.op3 = 0) :
    readArray ⟨s, false, []⟩ ⟨f, [], []⟩ r = (s.mmIn f r, ⟨s, false, []⟩) := by
  have hc : (Ref.ofWord 0).circ = false := by decide
  have hr (ref : Ref) (off n : Nat) (hc : ref.circ = false) :=
    Run.read_clean (w := ⟨s, false, []⟩) (x := ⟨f, [], []⟩) (off := off) (n := n) hs rfl hc
  unfold readArray
  rw [if_neg (by simp [ho, opMM, opCONV]), readA_clean hs ho h0]
  dsimp only
  rw [hr _ _ _ h1.1]
  dsimp only
  rw [hr _ _ _ h1.1]
  dsimp only
  rw [hr _ _ _ h1.1]
  dsimp only
  rw [h3, hr _ _ _ hc, hf]
  rfl

theorem outRow_length (r : Rec) (vs : List Nat) : (outRow r vs).length = r.yRow := fitBytes_length _ _

theorem outRows_length (r : Rec) (rows : List (List Nat)) : (rows.flatMap (outRow r)).length = rows.length * r.yRow := by
  induction rows with
  | nil => simp
  | cons row rows ih => rw [List.flatMap_cons, List.length_append, ih, outRow_length, List.length_cons, Nat.succ_mul,
      Nat.add_comm]

/-- The output elements of the totals stand row by row in the destination. -/
theorem matrixBody_mm (hs : s.clean) (hm : Memory.wf s.mem = true) (ho : r.op = opMM) (h0 : (Ref.ofWord r.op0).plain)
    (h1 : (Ref.ofWord r.op1).plain) (h2 : (Ref.ofWord r.op2).plain) (hf : r.focus = false) (hk : r.accKeep = false)
    (h3 : r.op3 = 0) :
    (matrixBody ⟨f, [], []⟩ r ⟨s, false, []⟩).s.readB (s.destAddr f (Ref.ofWord r.op2) 0) (r.m * r.yRow) =
      (totals s.facets[f] r (s.mmIn f r)).flatMap (fun row => outRow r (row.map (outElt r))) := by
  unfold matrixBody
  rw [readArray_clean hs ho h0 h1 hf h3]
  dsimp only
  rw [hf, if_neg Bool.false_ne_true]
  unfold finishArray
  rw [Run.settleReads_clean rfl rfl]
  unfold writeOut
  rw [hk]
  dsimp only
  rw [if_neg Bool.false_ne_true, State.destAddr_plain h2.1]
  unfold State.readB
  have hl : (((totals s.facets[f] r (s.mmIn f r)).map (fun row => row.map (outElt r))).flatMap (outRow r)).length =
      r.m * r.yRow := by
    rw [outRows_length]
    simp [totals, State.mmIn]
  rw [Run.write_mem rfl h2.1, SMap.getRange_setRange_take (by exact hm) _ (by rw [padUnits_length, hl]; unfold unitsOf; omega)]
  unfold padUnits
  rw [List.take_append_of_le_length hl.ge, List.take_of_length_le hl.le, List.flatMap_map]

end

end Sys2Proof.Machine

open Sys2Proof Sys2Proof.Machine

/-- Settles O16: the reads find nothing to correct, and rows of results at a stride that holds them do not meet. -/
theorem vectorElementWise : Obligations.VectorElementWise := by
  unfold Obligations.VectorElementWise
  intro f s r hr hs hm h0 h1 h2 hb hd
  obtain ⟨-, he⟩ := exec_record (c := .vecEw f []) rfl s
  refine ⟨_, he, fun i hi => ?_⟩
  rw [State.runRecord_some hr, State.ended_readB]
  exact vecEwBody_rows hs hm h0 h1 h2 hb hd hi

/-- Settles O17: the operands are read in place, the accumulator file is none of memory, and the rows are one run. -/
theorem matrixProduct : Obligations.MatrixProduct := by
  unfold Obligations.MatrixProduct
  intro f s r hr hs hm h0 h1 h2 hf _ hk h3
  obtain ⟨-, he⟩ := exec_record (c := .mm f []) rfl s
  refine ⟨_, he, ?_⟩
  rw [State.runRecord_some hr, State.ended_readB]
  exact matrixBody_mm hs hm (State.headRec_op hr) h0 h1 h2 hf hk h3
end

section
namespace Sys2Proof.Machine

/-! ### PUSH, EMIT and CHECK_FLAG (03 R96 to R98; 05 R146) -/

section
variable {s : State} {f : Fin 16} {r : Rec} {w : Run} {x : Ctx}

/-- The parts of a Facet that the record's end leaves: its regions, the validity of its tick, what it has emitted. -/
theorem State.endRecord_kept (s : State) (f g : Fin 16) (r : Rec) (n m : Nat) (a : Bool) :
    (((s.endRecord f r n a).drawn m).facets[g]).regions = (s.facets[g]).regions ∧
    (((s.endRecord f r n a).drawn m).facets[g]).invalid = (s.facets[g]).invalid ∧
    (((s.endRecord f r n a).drawn m).facets[g]).emits = (s.facets[g]).emits := by
  rw [State.drawn_facets]
  unfold State.endRecord
  rw [State.updFacet_get]
  split <;> exact ⟨rfl, rfl, rfl⟩

theorem State.updRegion_region (s : State) (g k : Fin 16) (u : RegionSt → RegionSt) :
    ((s.updRegion g k u).facets[g]).regions[k] = u (s.facets[g]).regions[k] := by
  unfold State.updRegion
  rw [State.updFacet_get, if_pos rfl]
  exact Vector.getElem_set_self k.isLt

theorem State.updRegion_invalid (s : State) (g k i : Fin 16) (u : RegionSt → RegionSt) :
    ((s.updRegion g k u).facets[i]).invalid = (s.facets[i]).invalid := by
  unfold State.updRegion
  rw [State.updFacet_get]
  split <;> rfl

theorem State.invalidate_invalid (s : State) (f : Fin 16) : ((s.invalidate f).facets[f]).invalid = true := by
  unfold State.invalidate
  rw [State.updFacet_get, if_pos rfl]

theorem State.invalidate_regions (s : State) (f g : Fin 16) :
    ((s.invalidate f).facets[g]).regions = (s.facets[g]).regions := by
  unfold State.invalidate
  rw [State.updFacet_get]
  split <;> rfl

/-- An OVERRUN marks its region and makes the tick of the Facet that pushed invalid (05 R146). -/
theorem State.producerOverrun_marks (s : State) (f g k : Fin 16) :
    ((s.producerOverrun f g k).facets[g]).regions[k] = { (s.facets[g]).regions[k] with overran := true } ∧
    ((s.producerOverrun f g k).facets[f]).invalid = true := by
  unfold State.producerOverrun
  refine ⟨?_, State.invalidate_invalid _ f⟩
  have h : State.Via [.cnt, .note, .err] (s.updRegion g k fun y => { y with overran := true })
      (((s.updRegion g k fun y => { y with overran := true }).count (srcFacet g) (cOver k.val) 1).facetError f 0x0252 0) :=
    State.facetError_via (State.count_via (.refl _ _) (by decide)) (by decide)
  rw [State.invalidate_regions, show State.facets _ = _ from h.only .facets (by decide)]
  exact State.updRegion_region s g k _

/-- The region that a PUSH names. -/
def Rec.pushFacet (r : Rec) (f : Fin 16) : Fin 16 :=
  if bitOf (r.p 0x15 1) 7 then fin16 (f.val / 4 * 4 + r.p 0x15 1 % 4) else f

/-- The region as it stands before a PUSH. -/
def State.pushRegion (s : State) (f : Fin 16) (r : Rec) : RegionSt :=
  s.facets[r.pushFacet f].regions[fin16 (r.p 0x14 1)]

/-- Units that fit advance LOCAL_HEAD; others are an OVERRUN. -/
theorem pushBody_eq (s : State) (f : Fin 16) (r : Rec) : (pushBody ⟨f, [], []⟩ r ⟨s, false, []⟩).s =
    if (s.pushRegion f r).size < (s.pushRegion f r).level + (s.pushRegion f r).localPush + r.p 0x18 4 then
      s.producerOverrun f (r.pushFacet f) (fin16 (r.p 0x14 1))
    else s.updRegion (r.pushFacet f) (fin16 (r.p 0x14 1)) (fun y => { y with localPush := y.localPush + r.p 0x18 4 }) :=
  apply_ite Run.s _ _ _

/-- What a Facet has emitted is no part of the settling of reads. -/
theorem Run.settleReads_emits (w : Run) (x : Ctx) (g : Fin 16) :
    ((w.settleReads x).s.facets[g]).emits = (w.s.facets[g]).emits := by
  have h : (w.chargeUnder x).s.facets = w.s.facets :=
    (Run.chargeUnder_via (M := [.cnt, .note, .err]) (.refl _ _) (by decide)).only .facets (by decide)
  unfold Run.settleReads
  extract_lets w1
  split
  · rw [State.updFacet_get, h]
    split <;> rfl
  · exact congrArg (fun v : Vector Facet 16 => v[g].emits) h

/-- The record that an EMIT places, with the bytes of its payload and the units of its buffer (03 R97). -/
def Rec.emitted (r : Rec) (s : State) (payload : List Byte) (units : List (Nat × Bool)) : EmitRec :=
  ⟨r.p 0x14 2, r.p 0x16 1, r.p 0x17 1, payload, units,
    if r.op1 = 0 then 0 else if r.flagBit 4 then min (fieldLe payload 0x1C 4) (r.p 0x18 4) else r.p 0x18 4,
    s.tk.tick, s.tk.edge⟩

/-- EMIT holds one more record. -/
theorem emitBody_emits (f : Fin 16) (r : Rec) (s : State) : ∃ pl us,
    ((emitBody ⟨f, [], []⟩ r ⟨s, false, []⟩).s.facets[f]).emits = (s.facets[f]).emits ++ [r.emitted s pl us] := by
  have h1 := Run.read_via (M := [.upsets, .poison, .wbQueue, .cnt, .note, .err]) (S := s) (w := ⟨s, false, []⟩)
    (x := ⟨f, [], []⟩) (ref := .ofWord r.op0) (off := 0) (n := 1) (.refl _ _) (by decide)
  unfold emitBody
  generalize Run.read ⟨s, false, []⟩ ⟨f, [], []⟩ (.ofWord r.op0) 0 1 = p at h1 ⊢
  obtain ⟨pl, w1⟩ := p
  dsimp only at h1 ⊢
  generalize hlen : (if r.op1 = 0 then 0
    else if r.flagBit 4 then min (fieldLe pl 0x1C 4) (r.p 0x18 4) else r.p 0x18 4) = len
  have h2 := Run.bufferUnits_via (x := ⟨f, [], []⟩) (ref := .ofWord r.op1) (a := unitsOf len) (a1 := 0) h1
  generalize w1.bufferUnits ⟨f, [], []⟩ (.ofWord r.op1) (unitsOf len) 0 = q at h2 ⊢
  obtain ⟨us, w2⟩ := q
  dsimp only at h2 ⊢
  have htk : (w2.settleReads ⟨f, [], []⟩).s.tk = s.tk :=
    ((Run.settleReads_via (M := [.cnt, .file, .note, .err]) (.refl _ _) (by decide)).only .tk (by decide)).trans
      (h2.only .tk (by decide))
  refine ⟨pl, us, ?_⟩
  rw [State.updFacet_get, if_pos rfl, htk]
  unfold Rec.emitted
  rw [hlen]
  refine congrArg (· ++ _) ((Run.settleReads_emits _ _ f).trans ?_)
  rw [h2.only .facets (by decide)]

theorem Rec.emitted_bufLen (r : Rec) (s : State) (pl : List Byte) (us : List (Nat × Bool)) :
    (r.op1 = 0 → (r.emitted s pl us).bufLen = 0) ∧ (r.emitted s pl us).bufLen ≤ r.p 0x18 4 := by
  unfold Rec.emitted
  refine ⟨fun h => if_pos h, ?_⟩
  dsimp only
  split
  · exact Nat.zero_le _
  · split
    · exact Nat.min_le_right _ _
    · exact le_rfl

/-- CHECK_FLAG of a flag that is not visible makes the tick invalid (03 R98). -/
theorem checkFlagBody_invalid (f : Fin 16) (r : Rec) (s : State) :
    ((checkFlagBody ⟨f, [], []⟩ r ⟨s, false, []⟩).s.facets[f]).invalid = ((s.facets[f]).invalid ||
      !(s.facets[fin16 (f.val / 4 * 4 + r.p 0x14 1 % 4)].flags.any (fun p =>
        p.1 == r.p 0x15 1 && p.2 + 14 ≤ s.facets[f].cycle))) := by
  unfold checkFlagBody
  extract_lets g s1
  split
  next h =>
    unfold Facet.flagVisible flagLatency at h
    rw [show State.facets _ = s.facets from rfl] at h
    rw [h]
    exact (Bool.or_false _).symm
  next h =>
    unfold Facet.flagVisible flagLatency at h
    rw [State.invalidate_invalid]
    have h' := Bool.eq_false_of_not_eq_true h
    rw [h']
    exact (Bool.or_true _).symm

end

end Sys2Proof.Machine

open Sys2Proof Sys2Proof.Machine

/-- Settles O18: the record's end leaves regions, validity and held records as the body put them. -/
theorem controlRecords : Obligations.ControlRecords := by
  unfold Obligations.ControlRecords
  intro f s r
  refine ⟨fun hr => ?_, fun hr => ?_, fun hr => ?_⟩
  · intro g k y
    obtain ⟨-, he⟩ := exec_record (c := .push f []) rfl s
    have hb := pushBody_eq s f r
    refine ⟨_, he, fun h => ?_, fun h => ?_⟩
    · have hb := hb.trans (if_neg (Nat.not_lt.2 h))
      rw [State.runRecord_some hr, (State.endRecord_kept _ f _ _ _ _ _).1, (State.endRecord_kept _ f f _ _ _ _).2.1]
      exact ⟨(congrArg (fun t : State => (t.facets[g]).regions[k]) hb).trans (State.updRegion_region s g k _),
        (congrArg (fun t : State => (t.facets[f]).invalid) hb).trans (State.updRegion_invalid s g k f _)⟩
    · have hb := hb.trans (if_pos h)
      obtain ⟨h1, h2⟩ := State.producerOverrun_marks s f g k
      rw [State.runRecord_some hr, (State.endRecord_kept _ f _ _ _ _ _).1, (State.endRecord_kept _ f f _ _ _ _).2.1]
      exact ⟨(congrArg (fun t : State => (t.facets[g]).regions[k]) hb).trans h1,
        (congrArg (fun t : State => (t.facets[f]).invalid) hb).trans h2⟩
  · obtain ⟨-, he⟩ := exec_record (c := .emit f []) rfl s
    obtain ⟨pl, us, hb⟩ := emitBody_emits f r s
    obtain ⟨h0, hl⟩ := r.emitted_bufLen s pl us
    refine ⟨_, r.emitted s pl us, he, ?_, rfl, rfl, rfl, rfl, rfl, h0, hl⟩
    rw [State.runRecord_some hr, (State.endRecord_kept _ f f _ _ _ _).2.2]
    exact hb
  · obtain ⟨-, he⟩ := exec_record (c := .checkFlag f []) rfl s
    refine ⟨_, he, ?_⟩
    rw [State.runRecord_some hr, (State.endRecord_kept _ f f _ _ _ _).2.1]
    exact checkFlagBody_invalid f r s
end

section
namespace Sys2Proof.Machine

/-! ### A buffer that does not stand in a scratchpad (02 R41; 06 R155) -/

/-- PCIe owns a data ring of 64 bytes, and every HBM channel is in power-down. -/
def dozing : State :=
  { State.reset with
    host := { HostCtl.reset with owner := .pcie, dataSize := 64 }
    hbm := { Hbm.reset with powerDown := Vector.replicate 16 true } }

/-- A held record whose buffer of 32 bytes stands at address 0, in HBM. -/
def emitHbm : EmitRec := ⟨0x0010, 1, 0, [], [(0, false)], 32, 0, 0⟩

/-- Its release reads HBM, so channel 0 leaves power-down (06 R155). -/
theorem dozing_release_wakes : (dozing.releaseEmit 0 false emitHbm).hbm.powerDown[(0 : Fin 16)] = false := by decide

theorem State.placeRec_hbm (s : State) (r : EventRec) : (s.placeRec r).hbm = s.hbm :=
  (State.placeRec_via (M := [.out, .ring, .cnt, .note]) (.refl _ s) (by decide)).only .hbm (by decide)

end Sys2Proof.Machine

open Sys2Proof Sys2Proof.Machine

/-- Refutes O20: its clause for a buffer that passes speaks of units at any device address, and asks that no field but
memory, counters and host control change before the record is placed. A unit at HBM address 0 is read by waking its
channel, which the HBM controller's state shows (06 R155). EMIT itself notes units of scratchpads alone. -/
theorem not_waitAndEnd : ¬ Obligations.WaitAndEnd := by
  unfold Obligations.WaitAndEnd
  rintro ⟨-, h, -⟩
  have hp : dozing.recordPasses emitHbm.type emitHbm.payload emitHbm.bufLen = true := by decide
  have hc : emitHbm.bufUnits.all (fun u => dozing.bufferPasses emitHbm.type (dozing.dataClass (u.1 * 32) 32)
    emitHbm.bufLen) = true := by decide
  obtain ⟨-, -, -, h4⟩ := (h 0 emitHbm false dozing (.inr (by decide)) (by decide)).2 hp
  obtain ⟨u, he, -, ho⟩ := h4 (by decide) (by decide) hc ⟨rfl, rfl⟩ (by decide)
  have hw := dozing_release_wakes
  rw [he, State.placeRec_hbm, show u.hbm = dozing.hbm from ho .hbm (by decide)] at hw
  exact absurd hw (by decide)
end

section
namespace Sys2Proof.Machine

/-! ### A buffer that stands in scratchpads (02 R41; 03 R97; 12 R346): what the refuted clause says with that hypothesis -/

section
variable {s w : State} {f : Fin 16} {e : EmitRec} {inv : Bool}

/-- The number of a record's source is taken, and nothing that judges a record or a buffer sees it. -/
theorem State.nextSeq_eq (s : State) (src : Nat) : s.nextSeq src = (s.host.seqs.get src,
    s.updHost (fun h => { h with seqs := h.seqs.set src ((s.host.seqs.get src + 1) % 2 ^ 32) })) := rfl

/-- A record for the host's ring alone. -/
theorem State.releaseEmit_host (h : inv = true ∨ e.route = 1 ∧ e.type ≠ 0x0022 ∧ e.type ≠ 0x0084) :
    w.releaseEmit f inv e = (w.nextSeq (srcFacet f)).2.emitHost f (w.host.seqs.get (srcFacet f)) (if inv then 1 else 0) e := by
  unfold State.releaseEmit
  rw [State.nextSeq_eq]
  dsimp only
  cases inv with
  | true => rfl
  | false =>
    obtain ⟨hr, h22, h84⟩ := h.resolve_left Bool.false_ne_true
    have ha (u : State) : u.emitActs f e = u := by
      unfold State.emitActs
      rw [if_neg h22, if_neg fun q => h84 q.1]
    simp [hr, ha, bitOf]

/-- A unit of a scratchpad without poison and stored error is read as it stands, and nothing changes. -/
theorem State.readDev_scratch (h : s.clean) {a : Nat} {g : Fin 16} {o : Nat} (hp : placeOf a = .scratch g o) (n : Nat) :
    s.readDev a n = (s.readB a n, [], s) := by
  unfold State.readDev State.plainRange inHbm
  simp [hp, State.cleanRun_clean h]

theorem State.readUnits_scratch (h : s.clean) (us : List (Nat × Bool)) (hb : ∀ u ∈ us, u.2 = false)
    (hp : ∀ u ∈ us, ∃ g o, placeOf (u.1 * 32) = .scratch g o) : ∀ i : Nat,
    s.readUnits us i = (us.flatMap (fun u => s.readB (u.1 * 32) 32), [], s) := by
  induction us with
  | nil => exact fun _ => rfl
  | cons u us ih =>
    intro i
    obtain ⟨g, o, hu⟩ := hp u List.mem_cons_self
    unfold State.readUnits
    rw [State.readDev_scratch h hu]
    dsimp only
    rw [ih (fun v hv => hb v (List.mem_cons_of_mem _ hv)) (fun v hv => hp v (List.mem_cons_of_mem _ hv)),
      hb u List.mem_cons_self]
    rfl

theorem State.readBuffer_scratch (h : s.clean) (hb : ∀ u ∈ e.bufUnits, u.2 = false)
    (hp : ∀ u ∈ e.bufUnits, ∃ g o, placeOf (u.1 * 32) = .scratch g o) :
    s.readBuffer e = (fitBytes e.bufLen (e.bufUnits.flatMap (fun u => s.readB (u.1 * 32) 32)), false, s) := by
  have hl (us : List (Nat × Bool)) : (us.flatMap (fun u => s.readB (u.1 * 32) 32)).length % 32 = 0 := by
    induction us with
    | nil => rfl
    | cons u us ih =>
      rw [List.flatMap_cons, List.length_append, State.readB_length]
      omega
  unfold State.readBuffer
  rw [State.readUnits_scratch h _ hb hp]
  dsimp only
  rw [zeroBad_nil (hl _)]
  rfl

/-- Where the data ring takes the next buffer (12 R346). -/
def HostCtl.bufferPlace (h : HostCtl) (len : Nat) : Nat :=
  h.dataBase + (if h.dataPos + (len + 63) / 64 * 64 ≤ h.dataSize then h.dataPos else 0)

/-- The buffer written into the data ring, before its record is placed. -/
def State.withBuffer (s : State) (e : EmitRec) : State :=
  (((s.count srcAperture 8 1).ringWrite (s.host.bufferPlace e.bufLen)
    (fitBytes e.bufLen (e.bufUnits.flatMap (fun u => s.readB (u.1 * 32) 32)))).updHost (fun h => { h with
      dataPos := (s.host.bufferPlace e.bufLen - s.host.dataBase + (e.bufLen + 63) / 64 * 64) % h.dataSize
      dataUsed := h.dataUsed ++ [(none, s.host.dataNeed e.bufLen)] }))

/-- A buffer that passes is written, and its record carries BUFFER. -/
theorem State.emitHost_scratch {q i : Nat} (ht : e.type ≠ 0x0012) (hr : s.recordPasses e.type e.payload e.bufLen = true)
    (hl : e.bufLen ≠ 0) (hw : s.bufferWay e = true)
    (hc : e.bufUnits.all (fun u => s.bufferPasses e.type (s.dataClass (u.1 * 32) 32) e.bufLen) = true)
    (h : s.clean) (hb : ∀ u ∈ e.bufUnits, u.2 = false)
    (hp : ∀ u ∈ e.bufUnits, ∃ g o, placeOf (u.1 * 32) = .scratch g o) :
    s.emitHost f q i e = (s.withBuffer e).placeRec (e.record f q (i + 8) e.bufLen) := by
  have ho : s.host.owner = .pcie := by
    unfold State.bufferWay at hw
    simp only [Bool.and_eq_true, beq_iff_eq] at hw
    exact hw.1.1.1.1
  have hj : s.judgeBuffer s.hostPath e = (true, s.count srcAperture 8 1) := by
    unfold State.judgeBuffer State.hostPath
    simp [hr, hc, ht, ho, State.judged, EgressPath.num]
  unfold State.emitHost
  rw [if_neg (by simp [hr]), if_neg hl, if_pos hw, hj]
  dsimp only
  rw [if_pos rfl]
  unfold State.putBuffer
  rw [State.readBuffer_scratch (s := s.count srcAperture 8 1) h hb hp]
  dsimp only
  rw [if_neg Bool.false_ne_true]
  unfold State.withBuffer HostCtl.bufferPlace
  simp only [State.count_host, Nat.add_sub_cancel_left]
  rfl

/-- The bytes stand in the ring. -/
theorem State.withBuffer_reads (hm : Memory.wf s.mem = true)
    (hr : rangeAll ringWrites (s.host.bufferPlace e.bufLen) e.bufLen = true) :
    (s.withBuffer e).readB (s.host.bufferPlace e.bufLen) e.bufLen =
      fitBytes e.bufLen (e.bufUnits.flatMap (fun u => s.readB (u.1 * 32) 32)) := by
  unfold State.withBuffer State.readB State.ringWrite
  rw [fitBytes_length, if_pos hr, State.updHost_mem, State.writeB_mem, State.count_mem]
  refine (SMap.getRange_setRange_take hm _ (fitBytes_length _ _).ge).trans ?_
  exact List.take_of_length_le (fitBytes_length _ _).le

theorem State.withBuffer_only (s : State) (e : EmitRec) : State.Only [.mem, .cnt, .host] s (s.withBuffer e) :=
  (State.updHost_via (M := [.mem, .cnt, .host]) (State.ringWrite_via (State.count_via (.refl _ s) (by decide))
    (by decide)) (by decide)).frame

/-- The clause of `Obligations.WaitAndEnd` for a buffer that passes, with the hypothesis that it lacks: the buffer's
units stand in scratchpads, as those that EMIT notes do (03 R97). -/
theorem State.releaseEmit_scratch (f : Fin 16) (e : EmitRec) (inv : Bool) (w : State)
    (h : inv = true ∨ e.route = 1 ∧ e.type ≠ 0x0022 ∧ e.type ≠ 0x0084) (ht : e.type ≠ 0x0012)
    (hr : w.recordPasses e.type e.payload e.bufLen = true) (hl : e.bufLen ≠ 0) (hw : w.bufferWay e = true)
    (hc : e.bufUnits.all (fun u => w.bufferPasses e.type (w.dataClass (u.1 * 32) 32) e.bufLen) = true)
    (hs : w.clean) (hb : ∀ u ∈ e.bufUnits, u.2 = false)
    (hp : ∀ u ∈ e.bufUnits, ∃ g o, placeOf (u.1 * 32) = .scratch g o) :
    ∃ u, w.releaseEmit f inv e = u.placeRec ⟨e.type, srcFacet f, w.host.seqs.get (srcFacet f), e.time, e.tick,
        (if inv then 1 else 0) + 8, e.bufLen, e.payload⟩ ∧
      (rangeAll ringWrites (w.host.bufferPlace e.bufLen) e.bufLen = true → Memory.wf w.mem = true →
        u.readB (w.host.bufferPlace e.bufLen) e.bufLen =
          fitBytes e.bufLen (e.bufUnits.flatMap (fun x => w.readB (x.1 * 32) 32))) ∧
      State.Only [.mem, .cnt, .host] w u :=
  ⟨(w.nextSeq (srcFacet f)).2.withBuffer e,
    (State.releaseEmit_host h).trans (State.emitHost_scratch ht hr hl hw hc hs hb hp),
    fun ha hm => State.withBuffer_reads (s := (w.nextSeq (srcFacet f)).2) hm ha,
    (State.nextSeq_via (M := [.note]) (.refl _ w) (by decide)).frame.trans
      (State.withBuffer_only (w.nextSeq (srcFacet f)).2 e)⟩

end
end Sys2Proof.Machine
end

section
namespace Sys2Proof.Machine

/-! ### Counters of the Facets (16 R462) -/

section
variable {s t u : State}

/-- Counters of sources below the ports', those of the Facets among them, stay as they are. -/
def State.LowCtrs (s t : State) : Prop :=
  SMap.wf 0 s.cnt = true → SMap.wf 0 t.cnt = true ∧ ∀ k, k < ctrKey 0x0400 0 → t.cnt.get k = s.cnt.get k

theorem State.LowCtrs.of_cnt (h : t.cnt = s.cnt) : State.LowCtrs s t := fun hw =>
  ⟨h ▸ hw, fun k _ => congrArg (fun m : NMap => m.get k) h⟩

theorem State.LowCtrs.of_via {K : List Change} (h : State.Via K s t) (hk : .cnt ∉ K.map Change.field := by decide) :
    State.LowCtrs s t := .of_cnt (h.only .cnt hk)

theorem State.LowCtrs.trans (h : State.LowCtrs s t) (h' : State.LowCtrs t u) : State.LowCtrs s u := fun hw =>
  have ⟨hw1, h1⟩ := h hw
  have ⟨hw2, h2⟩ := h' hw1
  ⟨hw2, fun k hk => (h2 k hk).trans (h1 k hk)⟩

theorem State.count_cnt_get (hw : SMap.wf 0 s.cnt = true) (src i n k : Nat) :
    SMap.wf 0 (s.count src i n).cnt = true ∧
      (s.count src i n).cnt.get k = if k = ctrKey src i then s.cnt.get k + n else s.cnt.get k := by
  unfold State.count
  split
  next hn =>
    subst hn
    exact ⟨hw, (ite_self _).symm⟩
  next =>
    refine ⟨SMap.wf_bump _ _ hw, (NMap.get_set hw _ _ k).trans ?_⟩
    split
    next hk => rw [hk]
    next => rfl

theorem State.ctr_count (hw : SMap.wf 0 s.cnt = true) (src i n : Nat) :
    (s.count src i n).ctr src i = s.ctr src i + n :=
  (State.count_cnt_get hw src i n _).2.trans (if_pos rfl)

/-- A source from the ports' on counts above them. -/
theorem State.count_lowCtrs (s : State) {src : Nat} (h : 0x0400 ≤ src) (i n : Nat) :
    State.LowCtrs s (s.count src i n) := fun hw =>
  ⟨(State.count_cnt_get hw src i n 0).1, fun k hk => (State.count_cnt_get hw src i n k).2.trans (if_neg (by
    unfold ctrKey at hk ⊢
    omega))⟩

theorem State.LowCtrs.facet (h : State.LowCtrs s t) (hw : SMap.wf 0 s.cnt = true) (f : Fin 16) {i : Nat}
    (hi : i < 1024) : t.ctr (srcFacet f) i = s.ctr (srcFacet f) i :=
  (h hw).2 _ (by unfold ctrKey srcFacet; omega)

/-- Error reports count those that are lost at Host control alone. -/
theorem State.errorRec_lowCtrs (s : State) (status region block addr level action : Nat) (detail : List Byte) :
    State.LowCtrs s (s.errorRec status region block addr level action detail) := by
  unfold State.errorRec State.errorRecN
  split
  · exact .of_cnt rfl
  · split
    · exact .of_cnt rfl
    · extract_lets s1
      split
      · exact .of_cnt rfl
      · exact State.count_lowCtrs s1 (by decide) 3 1

theorem State.facetError_lowCtrs (s : State) (f : Fin 16) (status addr : Nat) :
    State.LowCtrs s (s.facetError f status addr) :=
  (State.errorRec_lowCtrs s _ _ _ _ _ _ _).trans
    (.of_via (State.tickFault_via (M := [.note]) (.refl _ _) (by decide)))

/-- A grant told to a peer counts at the Aperture alone (01 R30). -/
theorem State.beamPlain_lowCtrs (s : State) (i kind flags win off : Nat) :
    State.LowCtrs s (s.beamPlain i kind flags win off) := by
  unfold State.beamPlain
  split
  · exact (State.count_lowCtrs s (by decide) _ 1).trans
      (.of_via (State.beamQueue_via (M := [.net]) (.refl _ _) (by decide)))
  · exact .of_cnt rfl

theorem State.regrant_lowCtrs (s : State) (w : Fin 16) (always : Bool) : State.LowCtrs s (s.regrant w always) := by
  unfold State.regrant
  split
  · exact .of_cnt rfl
  · extract_lets g
    split
    · exact .of_cnt rfl
    · refine State.LowCtrs.trans (t := s.setRx w _) (.of_cnt rfl) (State.beamPlain_lowCtrs _ _ _ _ _ _)

theorem State.regrantRegion_lowCtrs (s : State) (f r : Fin 16) : State.LowCtrs s (s.regrantRegion f r) :=
  List.foldlRecOn (motive := State.LowCtrs s) (List.range 16) _ (.of_cnt rfl) fun u hu w _ => by
    split
    · split
      · exact hu.trans (State.regrant_lowCtrs u _ _)
      · exact hu
    · exact hu

end

/-! ### POP (03 R96; 05 R144) -/

section
variable {y : RegionSt} {n : Nat}

theorem RegionSt.pop_underrun (h : y.level < n) :
    y.pop n = { y with tail := y.head, level := 0, debt := y.debt + (n - y.level), spans := [] } :=
  if_neg (Nat.not_le.2 h)

theorem RegionSt.pop_held (h : n ≤ y.level) : y.pop n = { y with
    tail := (y.tail + n) % y.size, level := y.level - n
    spans := (y.spans.filter (fun p => n < p.2)).map (fun p => (p.1 - n, p.2 - n)) } :=
  if_pos h

theorem State.updFacet_ne (s : State) {f g : Fin 16} (h : g ≠ f) (u : Facet → Facet) :
    (s.updFacet f u).facets[g] = s.facets[g] := by
  rw [State.updFacet_get, if_neg h.symm]

theorem State.updRegion_region_ne (s : State) (g : Fin 16) {j k : Fin 16} (h : j ≠ k) (u : RegionSt → RegionSt) :
    ((s.updRegion g k u).facets[g]).regions[j] = (s.facets[g]).regions[j] := by
  unfold State.updRegion
  rw [State.updFacet_get, if_pos rfl]
  exact Vector.getElem_set_ne k.isLt j.isLt (fun e => h (Fin.ext e.symm))

/-- A region popped, and the space granted to a Beam producer (11 R313). -/
def State.popped (s : State) (f k : Fin 16) (n : Nat) : State :=
  (s.updRegion f k (fun y => y.pop n)).regrantRegion f k

theorem State.popped_facets (s : State) (f k : Fin 16) (n : Nat) :
    (s.popped f k n).facets = (s.updRegion f k (fun y => y.pop n)).facets :=
  (State.regrantRegion_via (M := [.cnt, .net, .beam]) (.refl _ _) (by decide)).only .facets (by decide)

theorem State.popped_lowCtrs (s : State) (f k : Fin 16) (n : Nat) : State.LowCtrs s (s.popped f k n) :=
  State.LowCtrs.trans (t := s.updRegion f k (fun y => y.pop n)) (.of_cnt rfl) (State.regrantRegion_lowCtrs _ f k)

/-- An UNDERRUN is counted and reported, and costs the Facet its tick. -/
def State.underrun (s : State) (f k : Fin 16) : State :=
  ((s.count (srcFacet f) (cUnder k.val) 1).facetError f 0x0251 0).invalidate f

theorem State.underrun_facets (s : State) (f k : Fin 16) : (s.underrun f k).facets = (s.invalidate f).facets :=
  congrArg (fun x : Vector Facet 16 => x.set f { x[f] with invalid := true })
    ((State.facetError_via (M := [.cnt, .note, .err]) (State.count_via (.refl _ s) (by decide)) (by decide)).only
      .facets (by decide))

theorem cUnder_lt (k : Fin 16) : cUnder k.val < 1024 := by
  unfold cUnder
  omega

theorem State.underrun_counts {s : State} (hw : SMap.wf 0 s.cnt = true) (f k : Fin 16) :
    (s.underrun f k).ctr (srcFacet f) (cUnder k.val) = s.ctr (srcFacet f) (cUnder k.val) + 1 :=
  calc (s.underrun f k).ctr (srcFacet f) (cUnder k.val)
    _ = (s.count (srcFacet f) (cUnder k.val) 1).ctr (srcFacet f) (cUnder k.val) :=
      (State.facetError_lowCtrs _ f _ _).facet (State.count_cnt_get hw _ _ _ 0).1 f (cUnder_lt k)
    _ = s.ctr (srcFacet f) (cUnder k.val) + 1 := State.ctr_count hw _ _ _

theorem popBody_eq (s : State) (f : Fin 16) (r : Rec) : (popBody ⟨f, [], []⟩ r ⟨s, false, []⟩).s =
    if s.facets[f].regions[fin16 (r.p 0x14 1)].level < r.p 0x18 4 then
      (s.popped f (fin16 (r.p 0x14 1)) (r.p 0x18 4)).underrun f (fin16 (r.p 0x14 1))
    else s.popped f (fin16 (r.p 0x14 1)) (r.p 0x18 4) := by
  unfold popBody State.popped State.underrun
  extract_lets k u y v
  rw [apply_ite Run.s]

/-- Between `s` and `t` one region of a Facet is popped; other regions, other Facets and memory stay. -/
structure State.Pops (f k : Fin 16) (n : Nat) (s t : State) : Prop where
  region : t.facets[f].regions[k] = (s.facets[f].regions[k]).pop n
  regions : ∀ j : Fin 16, j ≠ k → t.facets[f].regions[j] = s.facets[f].regions[j]
  facets : ∀ g : Fin 16, g ≠ f → t.facets[g] = s.facets[g]
  mem : t.mem = s.mem

theorem State.popped_pops (s : State) (f k : Fin 16) (n : Nat) : State.Pops f k n s (s.popped f k n) := by
  have hm : (s.popped f k n).mem = s.mem :=
    (State.regrantRegion_via (M := [.cnt, .facets, .net, .beam]) (State.updRegion_via (.refl _ s) (by decide))
      (by decide)).only .mem (by decide)
  refine ⟨?_, fun j hj => ?_, fun g hg => ?_, hm⟩
  · rw [State.popped_facets]
    exact State.updRegion_region s f k _
  · rw [State.popped_facets]
    exact State.updRegion_region_ne s f hj _
  · rw [State.popped_facets]
    exact State.updFacet_ne s hg _

/-- An UNDERRUN leaves what the POP has done. -/
theorem State.Pops.underrun {s t : State} {f k : Fin 16} (h : State.Pops f k n s t) (i : Fin 16) :
    State.Pops f k n s (t.underrun f i) := by
  have hm : (t.underrun f i).mem = t.mem :=
    (State.invalidate_via (M := [.cnt, .facets, .file, .note, .err]) (State.facetError_via
      (State.count_via (.refl _ t) (by decide)) (by decide)) (by decide)).only .mem (by decide)
  refine ⟨?_, fun j hj => ?_, fun g hg => ?_, hm.trans h.mem⟩
  · rw [State.underrun_facets, State.invalidate_regions]
    exact h.region
  · rw [State.underrun_facets, State.invalidate_regions]
    exact h.regions j hj
  · rw [State.underrun_facets]
    exact (State.updFacet_ne t hg _).trans (h.facets g hg)

theorem popBody_pops (s : State) (f : Fin 16) (r : Rec) :
    State.Pops f (fin16 (r.p 0x14 1)) (r.p 0x18 4) s (popBody ⟨f, [], []⟩ r ⟨s, false, []⟩).s := by
  rw [popBody_eq]
  split
  · exact (State.popped_pops s f _ _).underrun _
  · exact State.popped_pops s f _ _

/-- The record's end leaves the other Facets, and of its own the regions. -/
theorem State.Pops.ended {s t : State} {f k : Fin 16} (h : State.Pops f k n s t) (r : Rec) (c m : Nat) (a : Bool) :
    State.Pops f k n s ((t.endRecord f r c a).drawn m) := by
  have he := (State.endRecord_kept t f f r c m a).1
  refine ⟨?_, fun j hj => ?_, fun g hg => ?_, h.mem⟩
  · rw [he]
    exact h.region
  · rw [he]
    exact h.regions j hj
  · rw [State.drawn_facets]
    unfold State.endRecord
    exact (State.updFacet_ne t hg _).trans (h.facets g hg)

end

end Sys2Proof.Machine

open Sys2Proof Sys2Proof.Machine

/-- Settles O19: grants and error reports count above the Facets' counters, and the record's end leaves the regions. -/
theorem popUnderruns : Obligations.PopUnderruns := by
  unfold Obligations.PopUnderruns
  intro f s r hw hr k u y
  obtain ⟨-, he⟩ := exec_record (c := .pop f []) rfl s
  have hb := popBody_eq s f r
  have hp := (popBody_pops s f r).ended r (recCycles r s.facets[f].prevArray) 1 (isArrayOp opPop)
  obtain ⟨hw1, -⟩ := s.popped_lowCtrs f k u hw
  have hc : (s.popped f k u).ctr (srcFacet f) (cUnder k.val) = s.ctr (srcFacet f) (cUnder k.val) :=
    (s.popped_lowCtrs f k u).facet hw f (cUnder_lt k)
  refine ⟨_, he, ?_⟩
  rw [State.runRecord_some hr]
  refine ⟨fun h => ⟨?_, ?_, ?_⟩, fun h => ⟨?_, ?_, ?_⟩, hp.regions, hp.facets, hp.mem⟩
  · exact hp.region.trans (RegionSt.pop_underrun h)
  · rw [(State.endRecord_kept _ f f _ _ _ _).2.1]
    exact (congrArg (fun t : State => (t.facets[f]).invalid) (hb.trans (if_pos h))).trans
      (State.invalidate_invalid _ f)
  · exact (congrArg (fun t : State => t.ctr (srcFacet f) (cUnder k.val)) (hb.trans (if_pos h))).trans
      ((State.underrun_counts hw1 f k).trans (congrArg (· + 1) hc))
  · exact hp.region.trans (RegionSt.pop_held h)
  · rw [(State.endRecord_kept _ f f _ _ _ _).2.1]
    refine (congrArg (fun t : State => (t.facets[f]).invalid) (hb.trans (if_neg (Nat.not_lt.2 h)))).trans ?_
    rw [State.popped_facets]
    exact State.updRegion_invalid s f k f _
  · exact (congrArg (fun t : State => t.ctr (srcFacet f) (cUnder k.val)) (hb.trans (if_neg (Nat.not_lt.2 h)))).trans hc
end

section
namespace Sys2Proof.Machine

/-! ### A patrol marks what it finds (05 R140) -/

section
variable {s t : State} {f : Fin 16} {u n a b : Nat}

theorem State.severity_congr (h : t.upsets = s.upsets) (a : Nat) : t.severity a = s.severity a := by
  unfold State.severity
  rw [h]

theorem State.poisoned_congr (h : t.poison = s.poison) (a : Nat) : t.poisoned a = s.poisoned a := by
  unfold State.poisoned
  rw [h]

/-- An error cleared in one unit leaves those of the others. -/
theorem State.severity_clearUpset_ne (s : State) (h : a / 32 ≠ b / 32) : (s.clearUpset b).severity a = s.severity a := by
  have e (p : Nat × Nat) : (p.1 != b / 32 && p.1 == a / 32) = (p.1 == a / 32) := by
    rw [Bool.and_eq_right_iff_imp]
    intro hp
    rw [beq_iff_eq.1 hp]
    exact bne_iff_ne.2 h
  unfold State.severity State.clearUpset
  simp only [List.find?_filter, Bool.decide_and, Bool.decide_eq_true, e]

theorem State.poisoned_mark (hw : SMap.wf 0 s.poison = true) (a b : Nat) :
    (s.mark b).poisoned a = (decide (a / 32 = b / 32) || s.poisoned a) := by
  unfold State.poisoned State.mark
  rw [SMap.get_set hw]
  by_cases h : a / 32 = b / 32
  · rw [if_pos h, decide_eq_true h]
    rfl
  · rw [if_neg h, decide_eq_false h, Bool.false_or]

theorem State.severity_mem (h : s.severity a = 3) : ∃ p ∈ s.upsets, p.1 = a / 32 := by
  unfold State.severity at h
  split at h
  next p hp => exact ⟨p, List.mem_of_find?_eq_some hp, beq_iff_eq.1 (List.find?_some hp :)⟩
  next => cases h

/-- A unit whose data is lost: its mark is set, or an uncorrectable error waits in it. -/
def State.damaged (s : State) (a : Nat) : Prop := s.poisoned a = true ∨ s.severity a = 3

/-- An uncorrectable error that the patrol meets moves into the unit's mark. -/
theorem State.patrolUnit_met (hp : s.poisoned (unitAddr f u) = false) (hs : s.severity (unitAddr f u) = 3) :
    (s.patrolUnit f u).poison = (s.mark (unitAddr f u)).poison ∧
      (s.patrolUnit f u).upsets = (s.clearUpset (unitAddr f u)).upsets := by
  have h := State.facetReport_via (M := [.cnt, .note, .err]) (f := f) (status := 0x0254) (addr := unitAddr f u)
    (action := 0) (State.count_via (src := srcFacet f) (i := cEccUnc) (n := 1) (.refl _ (s.clearUpset (unitAddr f u)))
      (by decide)) (by decide)
  unfold State.patrolUnit
  rw [if_neg (Bool.eq_false_iff.1 hp), if_pos hs]
  exact ⟨congrArg (fun m => SMap.set 0 m (unitAddr f u / 32) badMark) (h.only .poison (by decide)),
    h.only .upsets (by decide)⟩

/-- Every other unit keeps its mark and its error. -/
theorem State.patrolUnit_passed (h : s.poisoned (unitAddr f u) = true ∨ s.severity (unitAddr f u) ≠ 3) :
    (s.patrolUnit f u).poison = s.poison ∧ (s.patrolUnit f u).upsets = s.upsets := by
  unfold State.patrolUnit
  extract_lets a
  split
  next => exact ⟨rfl, rfl⟩
  next hp =>
    have hs : s.severity a ≠ 3 := h.resolve_left hp
    rw [if_neg hs]
    unfold State.readUnit
    rw [if_neg hp]
    split
    next => exact ⟨rfl, rfl⟩
    next h3 => exact absurd h3 hs
    next =>
      extract_lets s1
      have h1 : s1.poison = s.poison ∧ s1.upsets = s.upsets := ⟨State.count_poison _ _ _ _, State.count_upsets _ _ _ _⟩
      dsimp only
      split
      · exact h1
      · split
        · exact h1
        · rw [State.count_poison, State.count_upsets]
          exact h1

theorem State.patrolUnit_wf (hw : SMap.wf 0 s.poison = true) (f : Fin 16) (u : Nat) :
    SMap.wf 0 (s.patrolUnit f u).poison = true := by
  by_cases h : s.poisoned (unitAddr f u) = true ∨ s.severity (unitAddr f u) ≠ 3
  · rw [(State.patrolUnit_passed h).1]
    exact hw
  · obtain ⟨hp, hs⟩ := not_or.1 h
    rw [(State.patrolUnit_met (Bool.eq_false_iff.2 hp) (not_not.1 hs)).1]
    exact SMap.wf_set _ _ hw

/-- No mark goes. -/
theorem State.patrolUnit_keeps (hw : SMap.wf 0 s.poison = true) (h : s.poisoned a = true) (f : Fin 16) (u : Nat) :
    (s.patrolUnit f u).poisoned a = true := by
  by_cases hu : s.poisoned (unitAddr f u) = true ∨ s.severity (unitAddr f u) ≠ 3
  · exact (State.poisoned_congr (State.patrolUnit_passed hu).1 a).trans h
  · obtain ⟨hp, hs⟩ := not_or.1 hu
    rw [State.poisoned_congr (State.patrolUnit_met (Bool.eq_false_iff.2 hp) (not_not.1 hs)).1 a,
      State.poisoned_mark hw, h, Bool.or_true]

/-- The patrol's read of a unit leaves lost data marked. -/
theorem State.patrolUnit_marks (hw : SMap.wf 0 s.poison = true) (h : s.damaged (unitAddr f u)) :
    (s.patrolUnit f u).poisoned (unitAddr f u) = true := by
  by_cases hp : s.poisoned (unitAddr f u) = true
  · exact State.patrolUnit_keeps hw hp f u
  · rw [State.poisoned_congr (State.patrolUnit_met (Bool.eq_false_iff.2 hp) (h.resolve_left hp)).1,
      State.poisoned_mark hw, decide_eq_true rfl, Bool.true_or]

/-- Data that is lost stays so while the patrol reads other units. -/
theorem State.patrolUnit_damaged (hw : SMap.wf 0 s.poison = true) (h : s.damaged a) (f : Fin 16) (u : Nat) :
    (s.patrolUnit f u).damaged a := by
  rcases h with hp | hs
  · exact .inl (State.patrolUnit_keeps hw hp f u)
  · by_cases hu : s.poisoned (unitAddr f u) = true ∨ s.severity (unitAddr f u) ≠ 3
    · exact .inr ((State.severity_congr (State.patrolUnit_passed hu).2 a).trans hs)
    · obtain ⟨hp, h3⟩ := not_or.1 hu
      obtain ⟨ep, eu⟩ := State.patrolUnit_met (Bool.eq_false_iff.2 hp) (not_not.1 h3)
      by_cases he : a / 32 = unitAddr f u / 32
      · left
        rw [State.poisoned_congr ep, State.poisoned_mark hw, decide_eq_true he, Bool.true_or]
      · exact .inr ((State.severity_congr eu a).trans ((s.severity_clearUpset_ne he).trans hs))

/-- Of the units read in turn, those whose data is lost are marked at the end. -/
theorem State.patrolUnits_mark (js : List Nat) {j : Nat} (hj : j ∈ js) : ∀ {s : State}, SMap.wf 0 s.poison = true →
    s.damaged (unitAddr f (n + j)) →
    (js.foldl (fun s i => s.patrolUnit f (n + i)) s).poisoned (unitAddr f (n + j)) = true := by
  induction js with
  | nil => cases hj
  | cons i js ih =>
    intro s hw hd
    have hw1 := State.patrolUnit_wf hw f (n + i)
    rcases List.mem_cons.1 hj with rfl | hj
    · exact (List.foldlRecOn (motive := fun t : State => SMap.wf 0 t.poison = true ∧
        t.poisoned (unitAddr f (n + j)) = true) js _ ⟨hw1, State.patrolUnit_marks hw hd⟩ fun t ht k _ =>
          ⟨State.patrolUnit_wf ht.1 f _, State.patrolUnit_keeps ht.1 ht.2 f _⟩).2
    · exact ih hj hw1 (State.patrolUnit_damaged hw hd f (n + i))

/-! ### PATROL_READ (05 R140) -/

/-- The units of a scratchpad row read, where one needs a look. -/
def State.patrolled (s : State) (f : Fin 16) (row : Nat) : State :=
  if s.cleanRun (unitAddr f (64 * row)) 64 then s
  else (List.range 64).foldl (fun s j => s.patrolUnit f (64 * row + j)) s

/-- The next row is to be read, and after the last a patrol is complete. -/
def State.rowDone (s : State) (f : Fin 16) (row : Nat) : State :=
  (if row = 4095 then s.count (srcFacet f) cPatrol 1 else s).updFacet f
    (fun x => { x with patrolRow := (row + 1) % 4096 })

theorem execPatrolRead_eq (h : s.facetOut f = false) (others : List Req) :
    execPatrolRead f others s = .next ((s.patrolled f s.facets[f].patrolRow).rowDone f s.facets[f].patrolRow) := by
  unfold execPatrolRead State.rowDone State.patrolled
  rw [if_neg (Bool.eq_false_iff.1 h)]
  extract_lets row v w
  refine congrArg Host.Outcome.next ?_
  split
  · rfl
  · rfl

theorem State.patrolled_facets (s : State) (f : Fin 16) (row : Nat) : (s.patrolled f row).facets = s.facets := by
  unfold State.patrolled
  split
  · rfl
  · exact (foldl_via (M := [.upsets, .poison, .wbQueue, .cnt, .note, .err]) (.refl _ s)
      fun _ _ hu => State.patrolUnit_via hu (by decide)).only .facets (by decide)

theorem State.patrolled_clean (h : s.clean) (f : Fin 16) (row : Nat) : s.patrolled f row = s :=
  if_pos (State.cleanRun_clean h _ _)

theorem State.cleanRun_severity (h : s.cleanRun (unitAddr f n) 64 = true) {j : Nat} (hj : j < 64) :
    s.severity (unitAddr f (n + j)) ≠ 3 := by
  intro h3
  obtain ⟨p, hp, e⟩ := State.severity_mem h3
  unfold State.cleanRun at h
  simp only [Bool.and_eq_true, Bool.not_eq_true', List.any_eq_false, decide_eq_true_eq] at h
  rw [unitAddr_add] at e
  exact h.2 p hp (by omega)

/-- An uncorrectable error in the row ends as a mark. -/
theorem State.patrolled_poisoned (hw : SMap.wf 0 s.poison = true) {row j : Nat} (hj : j < 64)
    (h : s.severity (unitAddr f (64 * row + j)) = 3) :
    (s.patrolled f row).poisoned (unitAddr f (64 * row + j)) = true := by
  unfold State.patrolled
  split
  next hc => exact absurd h (State.cleanRun_severity hc hj)
  next => exact State.patrolUnits_mark _ (List.mem_range.2 hj) hw (.inr h)

theorem State.rowDone_poison (s : State) (f : Fin 16) (row : Nat) : (s.rowDone f row).poison = s.poison := by
  unfold State.rowDone
  rw [State.updFacet_poison]
  split
  · exact State.count_poison _ _ _ _
  · rfl

theorem State.rowDone_get (s : State) (f g : Fin 16) (row : Nat) : (s.rowDone f row).facets[g] =
    if f = g then { s.facets[g] with patrolRow := (row + 1) % 4096 } else s.facets[g] := by
  have h : (if row = 4095 then s.count (srcFacet f) cPatrol 1 else s).facets = s.facets := by
    split
    · exact State.count_facets _ _ _ _
    · rfl
  unfold State.rowDone
  rw [State.updFacet_get, h]

/-! ### SCRUB_WRITEBACK (05 R129, R137) -/

theorem execScrubWriteback_none (hf : s.facetOut f = false) (others : List Req) (h : s.wbOf f = []) :
    execScrubWriteback f others s = .next s := by
  unfold execScrubWriteback
  rw [if_neg (Bool.eq_false_iff.1 hf), h]

/-- The oldest correction is given up, waits, or is written back. -/
theorem execScrubWriteback_some (hf : s.facetOut f = false) (others : List Req) {us : List Nat} (h : s.wbOf f = u :: us) :
    execScrubWriteback f others s = .next (
      if others.any (fun q => q.write && q.units.contains u) then s.wbDrop u
      else if others.any (fun q => q.write && q.sharesBank ⟨.scrub, u, true⟩) then s
      else { s.wbDrop u with upsets := s.upsets.filter (fun p => p.1 != u) }) := by
  have hc : (s.wbDrop u).clearUpset (u * 32) = { s.wbDrop u with upsets := s.upsets.filter (fun p => p.1 != u) } := by
    unfold State.clearUpset
    rw [Nat.mul_div_cancel u (by decide)]
    rfl
  unfold execScrubWriteback
  rw [if_neg (Bool.eq_false_iff.1 hf), h]
  dsimp only
  rw [hc]
  split
  · rfl
  · split
    · rfl
    · rfl

end

end Sys2Proof.Machine
end

section
namespace Sys2Proof.Machine

/-! ### The stack stays ready while data lands (06 R164, R170) -/

section
variable {s t : State} {n : Nat}

theorem State.Via.hbmPhase {K : List Change} (h : State.Via K s t) (hk : .hbm ∉ K.map Change.field := by decide) :
    t.hbm.phase = s.hbm.phase :=
  congrArg Hbm.phase (h.only .hbm hk)

theorem State.writeGranule_phase (s : State) (a : Nat) (bs : List Byte) (bad : Bool) :
    (s.writeGranule a bs bad).1.hbm.phase = s.hbm.phase := by
  unfold State.writeGranule
  extract_lets s1 listed
  split
  · split
    · rfl
    · split
      · rfl
      · exact congrArg Hbm.phase (State.count_hbm _ _ _ _)
  · rw [State.updHbm_hbm]
    split
    · rfl
    · rfl

theorem State.writeGranules_phase (gs : List (List Byte)) : ∀ (s : State) (a : Nat) (bads : List Nat),
    (s.writeGranules a bads gs).1.hbm.phase = s.hbm.phase := by
  induction gs with
  | nil => exact fun _ _ _ => rfl
  | cons g gs ih => exact fun s a bads => (ih _ _ _).trans (s.writeGranule_phase a g _)

theorem State.writeDev_phase (s : State) (a : Nat) (bs : List Byte) (bads : List Nat) :
    (s.writeDev a bs bads).1.hbm.phase = s.hbm.phase := by
  have marked : (s.writeMarked a bs bads).hbm.phase = s.hbm.phase :=
    (State.writeMarked_via (M := [.upsets, .mem, .poison, .wbQueue]) (.refl _ s) (by decide)).hbmPhase
  unfold State.writeDev
  split
  case h_1 =>
    extract_lets s1
    split
    · rfl
    · exact State.writeGranules_phase _ s1 _ _
  case h_2 | h_3 => exact marked
  all_goals rfl

theorem State.takeBucket_phase (s : State) (n : Nat) : (s.takeBucket n).hbm.phase = s.hbm.phase := by
  unfold State.takeBucket
  extract_lets s1 d
  split
  · rfl
  · rfl

theorem State.bucketPass_phase (s : State) (u : BucketUser) (n prio : Nat) :
    (s.bucketPass u n prio).2.hbm.phase = s.hbm.phase := by
  unfold State.bucketPass
  split
  · rfl
  · split
    · rfl
    · split
      · exact s.takeBucket_phase n
      · split
        · split
          · exact State.takeBucket_phase _ _
          · rfl
        · split
          · exact s.takeBucket_phase n
          · rfl

theorem State.markWrite_phase (s : State) (a n : Nat) : (s.markWrite a n).hbm.phase = s.hbm.phase := by
  unfold State.markWrite
  split
  · rfl
  · rfl

theorem State.land_phase (s : State) (x : Stalled) : (s.land x).hbm.phase = s.hbm.phase := by
  have hw := s.writeDev_phase x.addr x.bytes x.bads
  unfold State.land
  extract_lets n
  split
  · rfl
  · generalize s.writeDev x.addr x.bytes x.bads = p at hw ⊢
    obtain ⟨s1, lost⟩ := p
    dsimp only at hw ⊢
    have hm : ((s1.countPages hWrite x.addr n).markWrite x.addr n).hbm.phase = s.hbm.phase :=
      (State.markWrite_phase _ _ _).trans
        ((State.countPages_via (M := [.cnt]) (.refl _ s1) (by decide)).hbmPhase.trans hw)
    split
    · exact (State.tickFault_via (M := [.note]) (.refl _ _) (by decide)).hbmPhase.trans hm
    · exact hm

theorem State.landHead_phase (s : State) : s.landHead.2.hbm.phase = s.hbm.phase := by
  unfold State.landHead
  split
  next => rfl
  next x xs _ =>
    have hb := s.bucketPass_phase x.user x.bytes.length 3
    generalize s.bucketPass x.user x.bytes.length 3 = p at hb ⊢
    obtain ⟨ok, s1⟩ := p
    dsimp only at hb ⊢
    split
    · exact (State.land_phase _ x).trans hb
    · exact hb

theorem State.landAll_phase (n : Nat) : ∀ s : State, (s.landAll n).hbm.phase = s.hbm.phase := by
  induction n with
  | zero => exact fun _ => rfl
  | succ n ih =>
    intro s
    have hl := s.landHead_phase
    unfold State.landAll
    generalize s.landHead = p at hl ⊢
    obtain ⟨o, s1⟩ := p
    cases o with
    | none => exact hl
    | some x =>
      refine (ih _).trans (Eq.trans ?_ hl)
      dsimp only
      split
      · exact (State.returnUnits_via (M := [.cnt, .net, .beam]) (.refl _ s1) (by decide)).hbmPhase
      · exact (State.burstDone_via (M := [.out, .ring, .cnt, .img, .note]) (.refl _ s1) (by decide)).hbmPhase

/-- The state in which the stack answers, before what waits for it lands. -/
def State.stackUp (s : State) : State :=
  { s with hbm := { s.hbm with phase := .ready }, ready := s.ready ||| BitVec.ofNat 19 (2 ^ 4) }

theorem State.hbmReady_eq (s : State) : s.hbmReady = s.stackUp.landAll s.hbm.stalled.length := rfl

theorem State.hbmReady_phase (s : State) : s.hbmReady.hbm.phase = .ready := State.landAll_phase _ s.stackUp

theorem State.hbmReady_ready (s : State) : s.hbmReady.ready = s.ready ||| BitVec.ofNat 19 (2 ^ 4) :=
  (State.landAll_via (M := [.out, .upsets, .mem, .ring, .poison, .wbQueue, .cnt, .hbm, .img, .net, .beam, .note])
    (.refl _ s.stackUp) (by decide)).only .ready (by decide)

theorem State.hbmReady_nothing (h : s.hbm.stalled = []) : s.hbmReady = s.stackUp := by
  rw [State.hbmReady_eq, h]
  rfl

/-! ### HBM_TRAINING (06 R170, R171) -/

/-- The device does not sleep and is below stage 3, so its stack is in use (06 R171). -/
def State.stackInUse (s : State) : Bool :=
  s.pwr.shed < 3 && (match s.pwr.phase with | .asleep _ => false | _ => true)

theorem State.stackInUse_true (h : s.pwr.shed < 3) (ha : ∀ k, s.pwr.phase ≠ .asleep k) : s.stackInUse = true := by
  unfold State.stackInUse
  rw [decide_eq_true h, Bool.true_and]
  split
  next k hk => exact absurd hk (ha k)
  next => rfl

theorem State.stackInUse_false (h : 3 ≤ s.pwr.shed ∨ ∃ k, s.pwr.phase = .asleep k) : s.stackInUse = false := by
  unfold State.stackInUse
  rcases h with h | ⟨k, hk⟩
  · rw [decide_eq_false (Nat.not_lt.2 h), Bool.false_and]
  · rw [hk]
    exact Bool.and_false _

theorem execHbmTraining_good (h : s.hbm.phase = .training n) : execHbmTraining true s = .next (
    if s.stackInUse then s.hbmReady
    else (s.updHbm (fun h => { h with phase := .selfRefresh })).count srcHbm hSelfRefresh 1) := by
  unfold execHbmTraining
  rw [h]
  rfl

theorem execHbmTraining_bad (h : s.hbm.phase = .training n) : execHbmTraining false s =
    if n + 1 < 3 then .next (s.updHbm (fun h => { h with phase := .training (n + 1) }))
    else .next (State.stackFault { s with
      hbm := { s.hbm with phase := .failed }
      pwr := { s.pwr with resetStatus := 0x0842, startStatus := 0x0842 } } 0x0842) := by
  unfold execHbmTraining
  rw [h]
  rfl

theorem execHbmTraining_none (h : ∀ n, s.hbm.phase ≠ .training n) (ok : Bool) : execHbmTraining ok s = .next s := by
  unfold execHbmTraining
  split
  next n hn => exact absurd hn (h n)
  next => rfl

/-- Training that succeeds makes the stack ready while it is in use. -/
theorem execHbmTraining_ready (hn : s.hbm.phase = .training n) (h : s.pwr.shed < 3)
    (ha : ∀ k, s.pwr.phase ≠ .asleep k) : execHbmTraining true s = .next s.hbmReady :=
  (execHbmTraining_good hn).trans (congrArg _ (if_pos (State.stackInUse_true h ha)))

/-- Else it ends in self-refresh (06 R171). -/
theorem execHbmTraining_selfRefresh (hn : s.hbm.phase = .training n)
    (h : 3 ≤ s.pwr.shed ∨ ∃ k, s.pwr.phase = .asleep k) : execHbmTraining true s = .next
      ((s.updHbm (fun h => { h with phase := .selfRefresh })).count srcHbm hSelfRefresh 1) :=
  (execHbmTraining_good hn).trans (congrArg _ (if_neg (Bool.eq_false_iff.1 (State.stackInUse_false h))))

/-! ### HBM_TEMP_READ (06 R169) -/

theorem HbmPhase.powered_of_ne_off {p : HbmPhase} (h : p ≠ .off) : p.powered = true := by
  cases p with
  | off => exact absurd rfl h
  | _ => rfl

/-- Since when the temperature lies below 90 °C, as a reading leaves it. -/
def State.coolFrom (s : State) (x : Int) : Option Nat :=
  if x < 90 * 16 then (match s.hbm.below90 with | some b => some b | none => some s.tk.now) else none

/-- It has lain there for a second. -/
def State.cooled (s : State) (x : Int) : Bool :=
  match s.coolFrom x with | some b => decide (b + 1000000000 ≤ s.tk.now) | none => false

/-- A flag that is set from 95 °C on and cleared once the stack has cooled. -/
def State.heatFlag (s : State) (x : Int) (was : Bool) : Bool :=
  if 95 * 16 ≤ x then true else if s.cooled x then false else was

/-- The stack's state after a reading. -/
def State.tempTaken (s : State) (x : Int) : State := { s with hbm := { s.hbm with
  temp := x
  tempMax := max s.hbm.tempMax x
  doubled := if 85 * 16 ≤ x then true else if x < 80 * 16 then false else s.hbm.doubled
  hot := s.heatFlag x s.hbm.hot, capWanted := s.heatFlag x s.hbm.capWanted, below90 := s.coolFrom x } }

theorem execHbmTempRead_eq (h : s.hbm.phase ≠ .off) (x : Int) : execHbmTempRead x s = .next (
    if 95 * 16 ≤ x ∧ s.hbm.temp < 95 * 16 then (s.tempTaken x).fault 0x0844 srcHbm 6 32 0 [] else s.tempTaken x) := by
  unfold execHbmTempRead
  rw [HbmPhase.powered_of_ne_off h, if_neg (by decide)]
  extract_lets crossed since cool v
  have hc : crossed = true ↔ 95 * 16 ≤ x ∧ s.hbm.temp < 95 * 16 := by
    unfold crossed
    rw [Bool.and_eq_true, decide_eq_true_iff, decide_eq_true_iff]
    rfl
  exact congrArg Host.Outcome.next (if_congr hc rfl rfl)

theorem State.coolFrom_warm {x : Int} (h : 90 * 16 ≤ x) (s : State) : s.coolFrom x = none :=
  if_neg (Int.not_lt.2 h)

theorem State.heatFlag_hot {x : Int} (h : 95 * 16 ≤ x) (s : State) (was : Bool) : s.heatFlag x was = true := if_pos h

theorem State.heatFlag_below {x : Int} (h : x < 95 * 16) (s : State) (was : Bool) :
    s.heatFlag x was = if s.cooled x then false else was :=
  if_neg (Int.not_le.2 h)

theorem State.cooled_warm {x : Int} (h : 90 * 16 ≤ x) (s : State) : s.cooled x = false := by
  unfold State.cooled
  rw [s.coolFrom_warm h]

/-- The first reading below 90 °C begins the second. -/
theorem State.coolFrom_first {x : Int} (h : x < 90 * 16) (hb : s.hbm.below90 = none) :
    s.coolFrom x = some s.tk.now := by
  unfold State.coolFrom
  rw [if_pos h, hb]

theorem State.cooled_first {x : Int} (h : x < 90 * 16) (hb : s.hbm.below90 = none) : s.cooled x = false := by
  unfold State.cooled
  rw [State.coolFrom_first h hb]
  exact decide_eq_false (by omega)

theorem State.cooled_second {x : Int} (h : x < 90 * 16) {b : Nat} (hb : s.hbm.below90 = some b)
    (hn : b + 1000000000 ≤ s.tk.now) : s.cooled x = true := by
  unfold State.cooled State.coolFrom
  rw [if_pos h, hb]
  exact decide_eq_true hn

/-! ### ECS_READ (06 R155, R174) -/

theorem ctrKey_hEcs (c : Nat) : ctrKey srcHbm (hEcs c) = ctrKey srcHbm (hEcs 0) + c := by
  unfold ctrKey hEcs
  omega

/-- The counters of the first `n` channels set, and no other. -/
theorem State.setEcs_get (s : State) (hw : SMap.wf 0 s.cnt = true) (counts : List Nat) (n : Nat) :
    let t := (List.range n).foldl (fun s c => s.setCtr srcHbm (hEcs c) (counts.getD c 0)) s
    SMap.wf 0 t.cnt = true ∧ ∀ k, t.cnt.get k =
      if ctrKey srcHbm (hEcs 0) ≤ k ∧ k < ctrKey srcHbm (hEcs n) then counts.getD (k - ctrKey srcHbm (hEcs 0)) 0
      else s.cnt.get k := by
  induction n with
  | zero => exact ⟨hw, fun k => (if_neg (by omega)).symm⟩
  | succ n ih =>
    intro t
    unfold t
    rw [List.range_succ, List.foldl_append]
    generalize (List.range n).foldl (fun s c => s.setCtr srcHbm (hEcs c) (counts.getD c 0)) s = u at ih
    obtain ⟨hu, hg⟩ := ih
    refine ⟨SMap.wf_set _ _ hu, fun k => (NMap.get_set hu _ _ k).trans ?_⟩
    rw [hg, ctrKey_hEcs n, ctrKey_hEcs (n + 1)]
    by_cases hk : k = ctrKey srcHbm (hEcs 0) + n
    · rw [if_pos hk, if_pos (by omega), hk, Nat.add_sub_cancel_left]
    · rw [if_neg hk]
      exact if_congr (by omega) rfl rfl

end

end Sys2Proof.Machine
end

section
namespace Sys2Proof.Machine

/-! ### An internal reset (16 R459, R460; 17 R474) -/

section
variable {s t : State} {cause status : Nat}

theorem FuseSt.cutBy.congr {f g h : FuseSt} (hc : f.cutBy g) (h1 : h.firm = g.firm) (h2 : h.marg = g.marg) :
    f.cutBy h := by
  unfold FuseSt.cutBy FuseSt.isFirm
  rw [h1, h2]
  exact hc

theorem Trust.afterReset_flash (x : Trust) (cause : Nat) : (x.afterReset cause).flash = x.flash := by
  unfold Trust.afterReset
  split
  · split
    · rfl
    · rfl
  · rfl

/-- The device as it enters reset: the last-state record and RESET_CAUSE are written, and a trial has failed. -/
def State.resetMarked (s : State) (cause status region block addr : Nat) : State :=
  ((s.updErr (fun e => { e with lastState := s.lastStateRec cause status region block addr })).updPwr (fun p => { p with
    resetCause := cause, resetCount := min 255 (p.resetCount + 1), resetStatus := status })).updTrust
      (fun t => t.afterReset cause)

/-- The device held in reset. -/
def State.heldWith (s : State) (status : Nat) : State :=
  { s.keptOverReset with pwr := { s.keptOverReset.pwr with phase := .held, startStatus := status } }

theorem State.internalReset_eq (s : State) (cause status region block addr : Nat) :
    s.internalReset cause status region block addr =
      (s.resetMarked cause status region block addr).cutFuses.heldWith status := rfl

theorem State.resetMarked_via (s : State) (cause status region block addr : Nat) :
    State.Via [.err, .pwr, .trust] s (s.resetMarked cause status region block addr) :=
  State.updTrust_via (State.updPwr_via (State.updErr_via (.refl _ s) (by decide) fun _ => rfl) (by decide)) (by decide)

theorem State.resetMarked_err (s : State) (cause status region block addr : Nat) :
    (s.resetMarked cause status region block addr).err =
      { s.err with lastState := s.lastStateRec cause status region block addr } := by
  unfold State.resetMarked
  rw [State.updTrust_err, State.updPwr_err, State.updErr_err]

theorem State.resetMarked_pwr (s : State) (cause status region block addr : Nat) :
    (s.resetMarked cause status region block addr).pwr = { s.pwr with
      resetCause := cause, resetCount := min 255 (s.pwr.resetCount + 1), resetStatus := status } := by
  unfold State.resetMarked
  rw [State.updTrust_pwr, State.updPwr_pwr, State.updErr_pwr]

theorem State.resetMarked_flash (s : State) (cause status region block addr : Nat) :
    (s.resetMarked cause status region block addr).trust.flash = s.trust.flash := by
  unfold State.resetMarked
  rw [State.updTrust_trust, State.updPwr_trust, State.updErr_trust]
  exact Trust.afterReset_flash s.trust cause

/-- The last-state record begins with the cause (16 R460). -/
theorem State.lastStateRec_head (s : State) (cause status region block addr : Nat) :
    (s.lastStateRec cause status region block addr).head? = some (BitVec.ofNat 8 cause) := by
  have h : leBytes 1 cause = [BitVec.ofNat 8 cause] :=
    congrArg ([·]) (BitVec.eq_of_toNat_eq (Nat.mod_mod cause 256))
  unfold State.lastStateRec
  simp only [h, List.append_assoc, List.cons_append, List.head?_cons]

/-- What a state held in reset has kept of the one that entered it, its fuse operation cut. -/
theorem State.heldWith_resetBy {m c : State} (hm : State.Via [.err, .pwr, .trust] s m)
    (hc : State.Via [.freeCtr, .fuse] m c) (hcut : s.fuse.cutBy c.fuse)
    (hwhy : m.pwr.resetCause = cause ∧ m.pwr.resetStatus = status ∧ m.pwr.resetCount = min 255 (s.pwr.resetCount + 1))
    (hflash : m.trust.flash = s.trust.flash) (hlast : m.err.lastState.head? = some (BitVec.ofNat 8 cause))
    (start : Nat) : State.ResetBy cause status s (c.heldWith start) := by
  have same (f : Field) (h : f ∉ List.map Change.field [.err, .pwr, .trust] := by decide)
      (h' : f ∉ List.map Change.field [.freeCtr, .fuse] := by decide) : f.same s c :=
    Field.same_trans (hm.only f h) (hc.only f h')
  have hpwr : c.pwr = m.pwr := hc.only .pwr (by decide)
  have htrust : c.trust = m.trust := hc.only .trust (by decide)
  have herr : c.err = m.err := hc.only .err (by decide)
  have hhost : c.host = s.host := same .host
  have hjnl : c.jnl = s.jnl := same .jnl
  rw [← hpwr] at hwhy
  rw [← htrust] at hflash
  rw [← herr] at hlast
  exact {
    why := hwhy
    ready := by
      show State.reset.ready &&& 0x7FFFC#19 = 0
      decide
    units := ⟨rfl, rfl, rfl, rfl, rfl, rfl, rfl, rfl, rfl, rfl, rfl, rfl⟩
    mem := ⟨congrArg hostMem (same .mem), rfl, rfl, rfl⟩
    host := by
      rw [← hhost]
      rfl
    jnl := by
      rw [← hjnl]
      rfl
    kept := ⟨hcut.congr rfl rfl, rfl, hflash, same .pending, same .out⟩
    last := ⟨rfl, hlast⟩ }

theorem State.internalReset_resetBy (s : State) (cause status region block addr : Nat) :
    State.ResetBy cause status s (s.internalReset cause status region block addr) := by
  have hm := s.resetMarked_via cause status region block addr
  have hp := s.resetMarked_pwr cause status region block addr
  have he := s.resetMarked_err cause status region block addr
  have hf := s.resetMarked_flash cause status region block addr
  rw [State.internalReset_eq]
  generalize s.resetMarked cause status region block addr = m at hm hp he hf ⊢
  have hcut := State.cutFuses_cutBy (g := m.cutFuses.fuse) m ⟨rfl, rfl⟩
  rw [show m.fuse = s.fuse from hm.only .fuse (by decide)] at hcut
  refine State.heldWith_resetBy hm (State.cutFuses_via (.refl _ m) (by decide)) hcut ?_ hf ?_ status
  · rw [hp]
    exact ⟨rfl, rfl, rfl⟩
  · rw [he]
    exact s.lastStateRec_head cause status region block addr

/-! ### The start after a reset (17 R473) -/

theorem FuseSt.judge_op (f : FuseSt) (rd : Nat → FuseRead) (r : Nat) : (f.judge rd r).op = f.op := by
  unfold FuseSt.judge
  extract_lets wlock j g a b
  split
  · rfl
  · rfl

theorem FuseSt.judgeAll_op (f : FuseSt) (rd : Nat → FuseRead) : (f.judgeAll rd).op = f.op :=
  List.foldlRecOn (motive := fun g : FuseSt => g.op = f.op) (List.range 16) _ rfl
    fun g hg r _ => (g.judge_op rd r).trans hg

theorem FuseSt.flagged_op (f : FuseSt) : f.flagged.op = f.op := rfl

/-- What the start after a reset leaves: the fuse controller, the last reset's status, and READY but for AON and FUSE. -/
structure State.StartLeaves (s t : State) : Prop where
  op : t.fuse.op = s.fuse.op
  status : t.pwr.resetStatus = s.pwr.resetStatus
  ready : t.ready &&& 0x7FFFC#19 = s.ready &&& 0x7FFFC#19

/-- READY.AON and READY.FUSE lie outside of the mask. -/
theorem ready_masked (r : BitVec 19) {b : Nat} (h : BitVec.ofNat 19 (2 ^ b) &&& 0x7FFFC#19 = 0) :
    (r ||| BitVec.ofNat 19 (2 ^ b)) &&& 0x7FFFC#19 = r &&& 0x7FFFC#19 := by
  rw [BitVec.and_or_distrib_right, h]
  exact BitVec.or_zero

/-- The result of the read in force, for any result: the kernel is not to compute the one that is read. -/
theorem State.judged_op (s : State) {g : FuseSt} (h : g.op = s.fuse.op) (n : Nat) :
    ((s.updFuse (fun _ => { g with valid := false, critical := false })).count srcFuse 4 n).fuse.op = s.fuse.op := by
  rw [State.count_fuse]
  exact h

theorem State.fuseStart_leaves (s : State) : s.StartLeaves (s.fuseStart false) := by
  unfold State.fuseStart
  extract_lets old judged read u held
  have hop : read.op = s.fuse.op := (FuseSt.flagged_op judged).trans (FuseSt.judgeAll_op _ _)
  have hu : State.Via [.cnt, .fuse] s u := State.count_via (State.updFuse_via (.refl _ s) (by decide)) (by decide)
  have hf : u.fuse.op = s.fuse.op := State.judged_op s hop _
  have hp : u.pwr.resetStatus = s.pwr.resetStatus := congrArg Power.resetStatus (hu.only .pwr (by decide))
  have hr : u.ready &&& 0x7FFFC#19 = s.ready &&& 0x7FFFC#19 :=
    congrArg (· &&& 0x7FFFC#19) (hu.only .ready (by decide))
  clear_value u read
  split
  · exact ⟨hf, hp, hr⟩
  · rw [if_neg Bool.false_ne_true]
    exact ⟨hf, hp, (ready_masked u.ready (b := 1) (by decide)).trans hr⟩

theorem State.startUp_leaves (s : State) : s.StartLeaves s.startUp := by
  unfold State.startUp
  extract_lets s1 s2 s3
  have h1 : s1.ready &&& 0x7FFFC#19 = s.ready &&& 0x7FFFC#19 := ready_masked s.ready (b := 0) (by decide)
  obtain ⟨ho, hp, hr⟩ := s1.fuseStart_leaves
  split
  · exact ⟨ho, hp, hr.trans h1⟩
  · exact ⟨ho, hp, hr.trans h1⟩

/-- The start that follows a reset keeps what the reset has left. -/
theorem State.ResetBy.startUp (h : State.ResetBy cause status s t) : State.ResetBy cause status s t.startUp := by
  obtain ⟨hv, hfirm, hmarg, -, hcause, hcount⟩ := t.startUp_starts
  obtain ⟨hop, hst, hready⟩ := t.startUp_leaves
  obtain ⟨hw1, hw2, hw3⟩ := h.why
  obtain ⟨k1, k2, k3, k4, k5⟩ := h.kept
  have same (f : Field) (hf : f ∉ List.map Change.field [.cnt, .pwr, .fuse, .ready] := by decide) :
      f.same t t.startUp := hv.only f hf
  exact {
    why := ⟨hcause.trans hw1, hst.trans hw2, hcount.trans hw3⟩
    ready := hready.trans h.ready
    units := by
      obtain ⟨u1, u2, u3, u4, u5, u6, u7, u8, u9, u10, u11, u12⟩ := h.units
      exact ⟨(same .tk).trans u1, (same .facets).trans u2, (same .sched).trans u3, (same .dma).trans u4,
        (same .tmplStatus).trans u5, (same .exp).trans u6, (same .cnd).trans u7, (same .img).trans u8,
        (same .wav).trans u9, (same .net).trans u10, (same .beam).trans u11, (same .ap).trans u12⟩
    mem := by
      obtain ⟨m1, m2, m3, m4⟩ := h.mem
      exact ⟨(same .mem).trans m1, (same .poison).trans m2, (same .upsets).trans m3, (same .wbQueue).trans m4⟩
    host := (same .host).trans h.host
    jnl := (same .jnl).trans h.jnl
    kept := ⟨k1.congr hfirm hmarg, hop.trans k2, (congrArg Trust.flash (same .trust)).trans k3,
      (same .pending).trans k4, (same .out).trans k5⟩
    last := by
      have he : t.startUp.err = t.err := same .err
      rw [he]
      exact h.last }

/-- The Aperture is shut before the reset, which opens it again as it is after every reset. -/
theorem State.ResetBy.of_sealed {ap : Aperture} (h : State.ResetBy cause status { s with ap := ap } t) :
    State.ResetBy cause status s t :=
  ⟨h.why, h.ready, h.units, h.mem, h.host, h.jnl, h.kept, h.last⟩

/-- A fatal error but for the thermal trip resets the device, which starts again (16 R459). -/
theorem State.fatal_resetBy (s : State) (h : status ≠ 0x0704) (region block addr : Nat) :
    State.ResetBy 3 status s (s.fatal status region block addr) := by
  unfold State.fatal
  rw [if_neg h]
  exact (State.internalReset_resetBy _ 3 status region block addr).startUp.of_sealed

end

/-! ### HBM_PARITY_ERROR (06 R168) -/

section
variable {s : State} {failed : Nat}

theorem execHbmParityError_retried (hp : s.hbm.phase ≠ .off) (c : Fin 16) (h : failed < 3) :
    execHbmParityError c failed s = .next (s.count srcHbm (hParity c.val) failed) := by
  unfold execHbmParityError
  rw [HbmPhase.powered_of_ne_off hp, if_neg (by decide), Nat.min_eq_left (by omega)]
  exact congrArg Host.Outcome.next (if_neg (Nat.not_le.2 h))

theorem execHbmParityError_fatal (hp : s.hbm.phase ≠ .off) (c : Fin 16) (h : 3 ≤ failed) :
    execHbmParityError c failed s = .next ((s.count srcHbm (hParity c.val) 2).fatal 0x0843 6 (16 + c.val) 0) := by
  unfold execHbmParityError
  rw [HbmPhase.powered_of_ne_off hp, if_neg (by decide), Nat.min_eq_right (by omega)]
  exact congrArg Host.Outcome.next (if_pos h)

end

end Sys2Proof.Machine
end

section
namespace Sys2Proof.Machine

/-! ### The rows of the memories complete -/

section
variable {s : State} {K : List Change} {l : List Field} {o : Host.Outcome State Fault Refusal}

/-- The frame of a row that completes. -/
theorem Keeps.next_only (hk : Keeps (State.Via K s) o) (h : ∃ t, o = .next t)
    (hl : K.map Change.field ⊆ l := by decide) : ∃ t, o = .next t ∧ State.Only l s t :=
  have ⟨t, ht, hv⟩ := hk.of_next h
  ⟨t, ht, hv.frame hl⟩

theorem execPatrolRead_next (f : Fin 16) (others : List Req) (s : State) :
    ∃ t, execPatrolRead f others s = .next t := by
  unfold execPatrolRead
  split
  · exact ⟨_, rfl⟩
  · exact ⟨_, rfl⟩

theorem execScrubWriteback_next (f : Fin 16) (others : List Req) (s : State) :
    ∃ t, execScrubWriteback f others s = .next t := by
  cases hf : s.facetOut f with
  | true =>
    unfold execScrubWriteback
    rw [if_pos hf]
    exact ⟨_, rfl⟩
  | false =>
    cases h : s.wbOf f with
    | nil => exact ⟨_, execScrubWriteback_none hf others h⟩
    | cons u us => exact ⟨_, execScrubWriteback_some hf others h⟩

theorem execHbmTraining_next (ok : Bool) (s : State) : ∃ t, execHbmTraining ok s = .next t := by
  by_cases h : ∃ n, s.hbm.phase = .training n
  · obtain ⟨n, hn⟩ := h
    cases ok with
    | true => exact ⟨_, execHbmTraining_good hn⟩
    | false =>
      rw [execHbmTraining_bad hn]
      split
      · exact ⟨_, rfl⟩
      · exact ⟨_, rfl⟩
  · exact ⟨s, execHbmTraining_none (fun n hn => h ⟨n, hn⟩) ok⟩

theorem execHbmTempRead_next (x : Int) (s : State) : ∃ t, execHbmTempRead x s = .next t := by
  unfold execHbmTempRead
  split
  · exact ⟨_, rfl⟩
  · exact ⟨_, rfl⟩

theorem execEcsRead_next (counts : List Nat) (s : State) : ∃ t, execEcsRead counts s = .next t := by
  unfold execEcsRead
  split
  · exact ⟨_, rfl⟩
  · exact ⟨_, rfl⟩

theorem execHbmPowerDown_next (c : Fin 16) (s : State) : ∃ t, execHbmPowerDown c s = .next t := by
  unfold execHbmPowerDown
  split
  · exact ⟨_, rfl⟩
  · exact ⟨_, rfl⟩

theorem execHbmParityError_next (c : Fin 16) (failed : Nat) (s : State) :
    ∃ t, execHbmParityError c failed s = .next t := by
  unfold execHbmParityError
  split
  · exact ⟨_, rfl⟩
  · exact ⟨_, rfl⟩

end

end Sys2Proof.Machine

open Sys2Proof Sys2Proof.Machine

/-- Settles O21: the patrol's fold keeps every mark and every error it has still to meet, what lands leaves the stack
ready, and a reset with its start leaves what is always-on. -/
theorem memoriesKept : Obligations.MemoriesKept := by
  unfold Obligations.MemoriesKept
  refine ⟨fun f others s hf =>
    ⟨?_, execScrubWriteback_none hf others, fun u us => execScrubWriteback_some hf others⟩,
    fun s => ⟨fun n hn => ?_, fun x hp => ?_, fun counts hp hw => ?_, rfl, fun c hp => if_pos hp,
      fun c failed hp => ⟨execHbmParityError_retried hp c, fun h => ?_⟩⟩,
    fun s => ⟨fun f others => ?_, fun f others => ?_, fun ok => ?_, fun x => ?_, fun counts => ?_, fun c => ?_,
      fun c failed => ?_⟩⟩
  · have he := execPatrolRead_eq hf others
    have hv := execPatrolRead_via (M := [.upsets, .poison, .wbQueue, .cnt, .facets, .note, .err]) (f := f)
      (_others := others) (.refl _ s) (by decide)
    rw [he] at hv
    have own := (s.patrolled f s.facets[f].patrolRow).rowDone_get f f s.facets[f].patrolRow
    rw [if_pos rfl, s.patrolled_facets] at own
    refine ⟨_, he, congrArg Facet.patrolRow own, fun hc => ?_, own, fun j hj hw h3 => ?_, fun g hg => ?_,
      State.Via.frame hv⟩
    · rw [State.patrolled_clean hc]
      rfl
    · rw [State.poisoned_congr (State.rowDone_poison _ f _)]
      exact State.patrolled_poisoned hw hj h3
    · rw [State.rowDone_get, if_neg hg.symm, s.patrolled_facets]
  · refine ⟨fun h ha => ⟨⟨_, execHbmTraining_ready hn h ha, s.hbmReady_phase, s.hbmReady_ready⟩, fun hs => ?_⟩,
      execHbmTraining_selfRefresh hn, fun h => ?_, fun h => ?_⟩
    · exact (execHbmTraining_ready hn h ha).trans (congrArg _ (State.hbmReady_nothing hs))
    · exact (execHbmTraining_bad hn).trans (if_pos (Nat.succ_lt_succ h))
    · exact (execHbmTraining_bad hn).trans (if_neg (Nat.not_lt.2 (Nat.succ_le_succ h)))
  · refine ⟨s.heatFlag x s.hbm.hot, s.heatFlag x s.hbm.capWanted, s.coolFrom x, execHbmTempRead_eq hp x,
      fun h => ⟨s.heatFlag_hot h _, s.heatFlag_hot h _⟩, fun h h' => ⟨?_, s.coolFrom_warm h⟩,
      fun h hb => ⟨?_, State.coolFrom_first h hb⟩, fun h b hb hn => ?_⟩
    · rw [s.heatFlag_below h', s.cooled_warm h]
      rfl
    · rw [s.heatFlag_below (by omega), State.cooled_first h hb]
      rfl
    · rw [s.heatFlag_below (by omega), State.cooled_second h hb hn]
      rfl
  · obtain ⟨-, hg⟩ := s.setEcs_get hw counts 16
    refine ⟨_, if_pos hp, (foldl_via (M := [.cnt]) (.refl _ s) fun _ _ hu => State.setCtr_via hu (by decide)).frame,
      fun c => (hg _).trans ?_, fun k hk => (hg k).trans (if_neg ?_)⟩
    · rw [ctrKey_hEcs c, ctrKey_hEcs 16, if_pos (by omega), Nat.add_sub_cancel_left]
    · rw [ctrKey_hEcs 15] at hk
      rw [ctrKey_hEcs 16]
      omega
  · exact ⟨_, execHbmParityError_fatal hp c h, State.fatal_resetBy _ (by decide) _ _ _⟩
  · exact (execPatrolRead_via (M := [.upsets, .poison, .wbQueue, .cnt, .facets, .note, .err]) (.refl _ s)
      (by decide)).next_only (execPatrolRead_next f others s)
  · exact (execScrubWriteback_via (M := [.upsets, .wbQueue]) (.refl _ s) (by decide)).next_only
      (execScrubWriteback_next f others s)
  · exact (execHbmTraining_via (M := [.out, .upsets, .mem, .ring, .poison, .wbQueue, .cnt, .hbm, .img, .net, .beam,
      .note, .pwr, .ready]) (.refl _ s) (by decide)).next_only (execHbmTraining_next ok s)
  · exact (execHbmTempRead_via (M := [.out, .ring, .cnt, .hbm, .note]) (.refl _ s) (by decide)).next_only
      (execHbmTempRead_next x s)
  · exact (execEcsRead_via (M := [.cnt]) (.refl _ s) (by decide)).next_only (execEcsRead_next counts s)
  · exact (execHbmPowerDown_via (M := [.hbm]) (.refl _ s) (by decide)).next_only (execHbmPowerDown_next c s)
  · exact (execHbmParityError_via (M := [.freeCtr, .upsets, .mem, .poison, .wbQueue, .cnt, .tk, .facets, .sched, .ap,
      .hbm, .dma, .tmplStatus, .exp, .cnd, .img, .wav, .net, .beam, .host, .jnl, .err, .pwr, .fuse, .trust, .idle,
      .ready]) (.refl _ s) (by decide)).next_only (execHbmParityError_next c failed s)
end

section
namespace Sys2Proof.Machine

/-! ### Every command keeps the invariant (06 R164, R166, R168; 12 R356; 16 R450, R451) -/

/-- Every kind of change. -/
def Change.every : List Change :=
  [.pending, .freeCtr, .out, .upsets, .mem, .ring, .poison, .wbQueue, .cnt, .tk, .facets, .file, .sched, .ap, .hbm,
    .dma, .tmplStatus, .exp, .cnd, .img, .wav, .net, .beam, .host, .note, .jnl, .err, .pwr, .fuse, .trust,
    .idle, .ready]

theorem Change.subset_every (K : List Change) : K ⊆ Change.every := fun c _ => by cases c <;> decide

/-- What a command does is a chain of the kinds of change, each of which keeps the invariant: its row's lemma says
which. -/
theorem exec_via (i : Instr) (s : State) : Keeps (State.Via Change.every s) (exec i s) := by
  have r := State.Via.refl Change.every s
  have k := Change.subset_every
  unfold exec
  cases i with
  | tickEdge => exact execTickEdge_via r (k _)
  | mm => exact execMm_via r (k _)
  | mmt => exact execMmt_via r (k _)
  | conv => exact execConv_via r (k _)
  | dwconv => exact execDwconv_via r (k _)
  | vecEw => exact execVecEw_via r (k _)
  | vecRed => exact execVecRed_via r (k _)
  | softmax => exact execSoftmax_via r (k _)
  | norm => exact execNorm_via r (k _)
  | act => exact execAct_via r (k _)
  | gather => exact execGather_via r (k _)
  | scatter => exact execScatter_via r (k _)
  | decide => exact execDecide_via r (k _)
  | topk => exact execTopk_via r (k _)
  | nms => exact execNms_via r (k _)
  | crop => exact execCrop_via r (k _)
  | resample => exact execResample_via r (k _)
  | copy2d => exact execCopy2d_via r (k _)
  | accWrite => exact execAccWrite_via r (k _)
  | push => exact execPush_via r (k _)
  | pop => exact execPop_via r (k _)
  | emit => exact execEmit_via r (k _)
  | checkFlag => exact execCheckFlag_via r (k _)
  | waitTick => exact execWaitTick_via r (k _)
  | waitTickExpiry => exact execWaitTickExpiry_via r (k _)
  | endProg => exact execEnd_via r (k _)
  | patrolRead => exact execPatrolRead_via r (k _)
  | scrubWriteback => exact execScrubWriteback_via r (k _)
  | descriptorFetch => exact execDescriptorFetch_via r (k _)
  | descriptorStart => exact execDescriptorStart_via r (k _)
  | burstIssue => exact execBurstIssue_via r (k _)
  | bucketGrant => exact execBucketGrant_via r (k _)
  | transferComplete => exact execTransferComplete_via r (k _)
  | hostChannelPoll => exact execHostChannelPoll_via r (k _)
  | descriptorAbort => exact execDescriptorAbort_via r (k _)
  | expanderBlock => exact execExpanderBlock_via r (k _)
  | condenserBlock => exact execCondenserBlock_via r (k _)
  | hbmTraining => exact execHbmTraining_via r (k _)
  | hbmTempRead => exact execHbmTempRead_via r (k _)
  | ecsRead => exact execEcsRead_via r (k _)
  | hbmRecalibration => exact execHbmRecalibration_via r
  | hbmPowerDown => exact execHbmPowerDown_via r (k _)
  | hbmParityError => exact execHbmParityError_via r (k _)
  | lineGroupComplete => exact execLineGroupComplete_via r (k _)
  | frameEnd => exact execFrameEnd_via r (k _)
  | burstTrigger => exact execBurstTrigger_via r (k _)
  | burstFrameStart => exact execBurstFrameStart_via r (k _)
  | burstEnd => exact execBurstEnd_via r (k _)
  | sensorStandbyExit => exact execSensorStandbyExit_via r (k _)
  | setSensor => exact execSetSensor_via r (k _)
  | sampleTrigger => exact execSampleTrigger_via r (k _)
  | conversionDone => exact execConversionDone_via r (k _)
  | holdoffExpiry => exact execHoldoffExpiry_via r (k _)
  | urgentRequest => exact execUrgentRequest_via r (k _)
  | blockComplete => exact execBlockComplete_via r (k _)
  | historyWrite => exact execHistoryWrite_via r (k _)
  | calibrationSlot => exact execCalibrationSlot_via r (k _)
  | spareSelfCalibration => exact execSpareSelfCalibration_via r (k _)
  | calibrationReturn => exact execCalibrationReturn_via r (k _)
  | adcRefSettled => exact execAdcRefSettled_via r (k _)
  | waveRefFault => exact execWaveRefFault_via r (k _)
  | openWirePhaseEnd => exact execOpenWirePhaseEnd_via r (k _)
  | ptpMessage => exact execPtpMessage_via r (k _)
  | pdelayReqTimer => exact execPdelayReqTimer_via r (k _)
  | syncTimeout => exact execSyncTimeout_via r (k _)
  | holdoverExpiry => exact execHoldoverExpiry_via r (k _)
  | holdoverReport => exact execHoldoverReport_via r (k _)
  | linkDown => exact execLinkDown_via r (k _)
  | linkUp => exact execLinkUp_via r (k _)
  | discardedFrame => exact execDiscardedFrame_via r (k _)
  | frameTransmit => exact execFrameTransmit_via r (k _)
  | eventTimerEvent => exact execEventTimerEvent_via r (k _)
  | etCapture => exact execEtCapture_via r (k _)
  | templateRepeat => exact execTemplateRepeat_via r (k _)
  | beamData => exact execBeamData_via r (k _)
  | beamAck => exact execBeamAck_via r (k _)
  | beamCredit => exact execBeamCredit_via r (k _)
  | beamControl => exact execBeamControl_via r (k _)
  | beamHello => exact execBeamHello_via r (k _)
  | helloTimer => exact execHelloTimer_via r (k _)
  | retransmit => exact execRetransmit_via r (k _)
  | globalTimeout => exact execGlobalTimeout_via r (k _)
  | loadSchedule => exact execLoadSchedule_via r (k _)
  | loadScheduleChecked => exact execLoadScheduleChecked_via r (k _)
  | start => exact execStart_via r (k _)
  | stop => exact execStop_via r (k _)
  | stats => exact execStats_via r (k _)
  | dmaChain => exact execDmaChain_via r (k _)
  | journalMirror => exact execJournalMirror_via r (k _)
  | eventData => exact execEventData_via r (k _)
  | analogRef => exact execAnalogRef_via r (k _)
  | wavePeriod => exact execWavePeriod_via r (k _)
  | waveCal => exact execWaveCal_via r (k _)
  | openWire => exact execOpenWire_via r (k _)
  | port => exact execPort_via r (k _)
  | ptp => exact execPtp_via r (k _)
  | eventTimer => exact execEventTimer_via r (k _)
  | beamSystem => exact execBeamSystem_via r (k _)
  | openWindow => exact execOpenWindow_via r (k _)
  | closeWindow => exact execCloseWindow_via r (k _)
  | globalBarrier => exact execGlobalBarrier_via r (k _)
  | globalBroadcast => exact execGlobalBroadcast_via r (k _)
  | globalSnapshot => exact execGlobalSnapshot_via r (k _)
  | globalStart => exact execGlobalStart_via r (k _)
  | globalStop => exact execGlobalStop_via r (k _)
  | globalRestart => exact execGlobalRestart_via r (k _)
  | snapshot => exact execSnapshot_via r (k _)
  | readCounters => exact execReadCounters_via r (k _)
  | readJournal => exact execReadJournal_via r (k _)
  | attest => exact execAttest_via r (k _)
  | attestSigned => exact execAttestSigned_via r (k _)
  | enroll => exact execEnroll_via r (k _)
  | fuseProgram => exact execFuseProgram_via r (k _)
  | fuseSeal => exact execFuseSeal_via r (k _)
  | fuseLock => exact execFuseLock_via r (k _)
  | updateFirmware => exact execUpdateFirmware_via r (k _)
  | updateFirmwareWritten => exact execUpdateFirmwareWritten_via r (k _)
  | activateFirmware => exact execActivateFirmware_via r (k _)
  | trialEnd => exact execTrialEnd_via r (k _)
  | rollbackRetry => exact execRollbackRetry_via r (k _)
  | setTemplate => exact execSetTemplate_via r (k _)
  | dmaAbort => exact execDmaAbort_via r (k _)
  | regionRestart => exact execRegionRestart_via r (k _)
  | calibrationLoad => exact execCalibrationLoad_via r (k _)
  | transition => exact execTransition_via r (k _)
  | fuseGrant => exact execFuseGrant_via r (k _)
  | revokeSlot => exact execRevokeSlot_via r (k _)
  | cmdPutWrite => exact execCmdPutWrite_via r (k _)
  | cmdSizeWrite => exact execCmdSizeWrite_via r (k _)
  | evtSizeWrite => exact execEvtSizeWrite_via r (k _)
  | evtGetWrite => exact execEvtGetWrite_via r (k _)
  | ownerWrite => exact execOwnerWrite_via r (k _)
  | mboxDataAccess => exact execMboxDataAccess_via r (k _)
  | irqStatusWrite => exact execIrqStatusWrite_via r (k _)
  | irqForceWrite => exact execIrqForceWrite_via r (k _)
  | errSummaryPop => exact execErrSummaryPop_via r (k _)
  | perfReqWrite => exact execPerfReqWrite_via r (k _)
  | tickCtlWrite => exact execTickCtlWrite_via r (k _)
  | snapCtlArm => exact execSnapCtlArm_via r (k _)
  | snapCtlDisarm => exact execSnapCtlDisarm_via r (k _)
  | wdogCtlWrite => exact execWdogCtlWrite_via r (k _)
  | wdogKick => exact execWdogKick_via r (k _)
  | hostLost => exact execHostLost_via r (k _)
  | tickLoRead => exact execTickLoRead_via r (k _)
  | timeLoRead => exact execTimeLoRead_via r (k _)
  | lowHalfWrite => exact execLowHalfWrite_via r (k _)
  | lowHalfRead => exact execLowHalfRead_via r (k _)
  | registerWrite => exact execRegisterWrite_via r (k _)
  | bar2Access => exact execBar2Access_via r (k _)
  | firmwarePush => exact execFirmwarePush_via r (k _)
  | functionLevelReset => exact execFunctionLevelReset_via r (k _)
  | journalMirrorCopy => exact execJournalMirrorCopy_via r (k _)
  | porstAssert => exact execPorstAssert_via r (k _)
  | porstRelease => exact execPorstRelease_via r (k _)
  | refCountWindow => exact execRefCountWindow_via r (k _)
  | pllJudged => exact execPllJudged_via r (k _)
  | pllCountCheck => exact execPllCountCheck_via r (k _)
  | pgoodMainRise => exact execPgoodMainRise_via r (k _)
  | pgoodMainTimeout => exact execPgoodMainTimeout_via r (k _)
  | enMainRetry => exact execEnMainRetry_via r (k _)
  | pgoodMainLow => exact execPgoodMainLow_via r (k _)
  | pgoodCoreRise => exact execPgoodCoreRise_via r (k _)
  | pgoodCoreTimeout => exact execPgoodCoreTimeout_via r (k _)
  | vsetSettled => exact execVsetSettled_via r (k _)
  | thermalCrossing => exact execThermalCrossing_via r (k _)
  | supplyWarningCrossing => exact execSupplyWarningCrossing_via r (k _)
  | supplyResetLevel => exact execSupplyResetLevel_via r (k _)
  | sleepEntry => exact execSleepEntry_via r (k _)
  | wake => exact execWake_via r (k _)
  | periscopeTransaction => exact execPeriscopeTransaction_via r (k _)
  | sleepExit => exact execSleepExit_via r (k _)
  | firmwareBoot => exact execFirmwareBoot_via r (k _)
  | fuseReread => exact execFuseReread_via r (k _)
  | regionIsolation => exact execRegionIsolation_via r (k _)
  | autoRestart => exact execAutoRestart_via r (k _)
  | restartStepsDone => exact execRestartStepsDone_via r (k _)
  | controlWatchdogExpiry => exact execControlWatchdogExpiry_via r (k _)
  | fatalError => exact execFatalError_via r (k _)
  | vddAonPowerUp => exact execVddAonPowerUp_via r (k _)
  | vddAonPowerLoss => exact execVddAonPowerLoss_via r (k _)
  | supplyRecovery => exact execSupplyRecovery_via r (k _)
  | pgoodCoreLow => exact execPgoodCoreLow_via r (k _)
  | thermalRearm => exact execThermalRearm_via r (k _)
  | pcieLinkTrained => exact execPcieLinkTrained_via r (k _)
  | vppFusePresence => exact execVppFusePresence_via r (k _)
  | containerChecked => exact execContainerChecked_via r (k _)
  | fuseProgrammingDone => exact execFuseProgrammingDone_via r (k _)
  | backgroundResultWritten => exact execBackgroundResultWritten_via r (k _)

/-- A command that answers a next state keeps the invariant. -/
theorem exec_keeps_inv {i : Instr} {s : State} (h : s.Inv) : Keeps State.Inv (exec i s) :=
  keeps_mono (exec_via i s) fun _ hv => hv.inv h

/-- An idle step keeps the invariant. -/
theorem State.idleStep_inv {s : State} (h : s.Inv) : s.idleStep.Inv :=
  (State.idleStep_via (.refl _ s) (List.Subset.refl _)).inv h

/-- Either step, the idle one and a command on the queue's rest, keeps the invariant. -/
theorem step_keeps_inv {s : State} (h : s.Inv) : Keeps State.Inv (step s) := by
  unfold step
  split
  · exact State.idleStep_inv h
  · exact exec_keeps_inv (h.congr rfl)

end Sys2Proof.Machine

open Sys2Proof Sys2Proof.Machine

/-- Settles O4: every row of the command table, and the idle step, is a chain of changes that each keep
the invariant. -/
theorem stepKeepsInvariant : Obligations.StepKeepsInvariant := by
  unfold Obligations.StepKeepsInvariant
  intro s t hs ht
  have hk := step_keeps_inv hs
  rw [ht] at hk
  exact hk

/-- Settles O3: both buckets start full, and everything else the invariant speaks of is empty. -/
theorem resetMeetsInvariant : Obligations.ResetMeetsInvariant := by
  unfold Obligations.ResetMeetsInvariant
  exact
    { mem := rfl
      poison := rfl
      cnt := rfl
      bucket := le_rfl
      control := le_rfl
      table := Nat.zero_le _
      errors := Nat.zero_le _
      journal := Nat.zero_le _ }
end

section
namespace Sys2Proof.Machine

/-! ### TIME moved forward (06 R164; 15 R433) -/

section
variable (s : State)

/-- Waiting that is counted leaves the stack as it is. -/
theorem State.waits_hbm (cyc : Nat) : ((s.countWait cyc).countIdle cyc).hbm = s.hbm :=
  (State.countIdle_via (M := [.cnt]) (State.countWait_via (.refl _ s) (by decide)) (by decide)).only .hbm (by decide)

theorem State.creditBucket_hbm : s.creditBucket.hbm = { s.hbm with
    bucket := min 33554432 (s.hbm.bucket + (s.tk.now - s.hbm.credited) / 2 * (s.hbm.rate / 4 * 8))
    ctlBucket := min 1048576 (s.hbm.ctlBucket + (s.tk.now - s.hbm.credited) / 2 * 4)
    credited := s.hbm.credited + 2 * ((s.tk.now - s.hbm.credited) / 2) } := by
  simp only [State.creditBucket, State.updHbm, State.waits_hbm]

theorem State.creditBucket_idleNs : s.creditBucket.idleNs = s.idleNs :=
  (State.creditBucket_via (M := [.cnt, .hbm]) (.refl _ s) (by decide)).only .idle (by decide)

variable {n : Nat}

/-- TIME moved within its range: the buckets are credited up to it. -/
theorem State.setTime_forward (h : s.tk.now ≤ n % 2 ^ 64) :
    s.setTime n = State.creditBucket { s with
      tk := { s.tk with now := n % 2 ^ 64 }
      idleNs := if s.idle then s.idleNs + (n % 2 ^ 64 - s.tk.now) else 0 } := if_pos h

/-- TIME moved past its end: the buckets' clock follows, and nothing is credited. -/
theorem State.setTime_wrapped (h : n % 2 ^ 64 < s.tk.now) :
    s.setTime n = { s with
      tk := { s.tk with now := n % 2 ^ 64 }, hbm := { s.hbm with credited := n % 2 ^ 64 } } :=
  if_neg (Nat.not_le.2 h)

theorem State.setTime_wrapped_idleNs (h : n % 2 ^ 64 < s.tk.now) : (s.setTime n).idleNs = s.idleNs := by
  rw [s.setTime_wrapped h]

theorem State.setTime_forward_hbm (h : s.tk.now ≤ n % 2 ^ 64) : (s.setTime n).hbm = { s.hbm with
    bucket := min 33554432 (s.hbm.bucket + (n % 2 ^ 64 - s.hbm.credited) / 2 * (s.hbm.rate / 4 * 8))
    ctlBucket := min 1048576 (s.hbm.ctlBucket + (n % 2 ^ 64 - s.hbm.credited) / 2 * 4)
    credited := s.hbm.credited + 2 * ((n % 2 ^ 64 - s.hbm.credited) / 2) } := by
  rw [s.setTime_forward h, State.creditBucket_hbm]

theorem State.setTime_forward_idleNs (h : s.tk.now ≤ n % 2 ^ 64) :
    (s.setTime n).idleNs = if s.idle then s.idleNs + (n % 2 ^ 64 - s.tk.now) else 0 := by
  rw [s.setTime_forward h, State.creditBucket_idleNs]

end

end Sys2Proof.Machine

open Sys2Proof Sys2Proof.Machine

/-- Settles O2: an idle step is a move of TIME and what the servo's adjustment leaves below a nanosecond. -/
theorem emptyQueueIdles : Obligations.EmptyQueueIdles := by
  unfold Obligations.EmptyQueueIdles
  intro s hq d q n
  refine ⟨s.idleStep, by rw [step, hq], ?_, fun h => ?_, fun h => ?_,
    (State.idleStep_via (.refl _ s) (List.Subset.refl _)).frame⟩
  · exact congrArg (fun k : TimeSt => { k with slew := d - q * slewUnit }) (s.setTime_tk _)
  · exact ⟨congrArg Hbm.bucket (s.setTime_forward_hbm h), congrArg Hbm.ctlBucket (s.setTime_forward_hbm h),
      s.setTime_forward_idleNs h⟩
  · exact ⟨congrArg State.hbm (s.setTime_wrapped h), s.setTime_wrapped_idleNs h⟩
end

section
namespace Sys2Proof.Machine

/-! ### The bucket grants (06 R164) -/

section
variable {s t : State} {u : BucketUser} {n prio : Nat} {K : List Change} {e : Fin 5} {c : Fin 8}

/-- Bytes of HBM charged, if any. -/
def State.charged (s : State) (n : Nat) : State := if n = 0 then s else s.takeBucket n

theorem State.bucketPass_granted (h : s.grants u n prio) : s.bucketPass u n prio = (true, s.charged n) := by
  unfold State.bucketPass State.charged
  by_cases hn : n = 0
  · rw [if_pos hn, if_pos hn]
  · obtain ⟨hready, hfree, hle, hnew⟩ := h.resolve_left hn
    have hopen : s.hbmOpen u = true := by
      unfold State.hbmOpen
      rw [hready]
    have hfind : s.hbm.waiting.find? (fun w => w.user == u) = none :=
      List.find?_eq_none.2 (by simpa using hnew)
    simp [hn, hopen, hready, hfree, hle, hfind]

theorem State.charged_via (s : State) (n : Nat) : State.Via [.cnt, .hbm] s (s.charged n) := by
  unfold State.charged
  split
  · exact .refl _ s
  · exact State.takeBucket_via (.refl _ s) (by decide)

theorem State.charged_hbm (s : State) (n : Nat) : (s.charged n).hbm = { s.hbm with bucket := s.hbm.bucket - n } := by
  unfold State.charged State.takeBucket
  split
  case isTrue h => rw [h, Nat.sub_zero]
  case isFalse =>
    extract_lets s1 d
    split
    · rfl
    · rfl

/-! ### What a block's write finds as it stood -/

/-- HBM may be written where it could before, unless an image, the journal's mirror or the stack's phase changed. -/
theorem State.Via.hbmWritable (h : State.Via K s t) (hp : t.hbm.phase = s.hbm.phase)
    (hk : .sched ∉ K.map Change.field ∧ .jnl ∉ K.map Change.field ∧ .host ∉ K := by decide) (a n : Nat) :
    t.hbmWritable a n = s.hbmWritable a n := by
  obtain ⟨hs, hj, hh⟩ := hk
  have hsched : t.sched = s.sched := h.only .sched hs
  have hjnl : t.jnl = s.jnl := h.only .jnl hj
  have hbg : t.host.bg = s.host.bg := congrArg (·.2.1) (h.work hh)
  unfold State.hbmWritable State.hbmMapped State.mirrorBase State.protectedRange
  rw [hp, hsched, hjnl, hbg]

theorem State.Via.chan (h : State.Via K s t) (hk : .dma ∉ K.map Change.field := by decide) :
    t.chan e c = s.chan e c :=
  State.chan_of_dma (h.only .dma hk)

/-- Kinds of change between a block's verdict and its write. -/
def poiseKinds : List Change := [.freeCtr, .cnt, .file, .hbm, .exp, .cnd, .note, .err]

/-- What a block's write depends on stands in `t` as in `s`. -/
structure State.Poised (s t : State) : Prop where
  /-- Memory, the channels and what protects HBM are as they were. -/
  via : State.Via poiseKinds s t
  /-- So is the stack's phase. -/
  phase : t.hbm.phase = s.hbm.phase
  /-- So is its table of poisoned granules. -/
  table : t.hbm.poison = s.hbm.poison

/-- The bytes are charged, and what follows leaves the stack. -/
theorem State.Poised.of_charged (h : State.Via K (s.charged n) t) (hk : K ⊆ poiseKinds := by decide)
    (hb : .hbm ∉ K.map Change.field := by decide) : State.Poised s t := by
  have hhbm := (h.only .hbm hb).trans (s.charged_hbm n)
  exact ⟨((s.charged_via n).mono (by decide)).upd h hk, by rw [hhbm], by rw [hhbm]⟩

end

/-! ### Bytes written at the destination of a channel (08 R211, R215; 06 R168, R173) -/

section
variable {s : State} {e : Fin 5} {c : Fin 8} {off : Nat} {bs : List Byte} {bads : List Nat}

/-- Output at an offset meets no HBM that has come under protection (02 R56; log 152). -/
def State.mayWrite (s : State) (e : Fin 5) (c : Fin 8) (off n : Nat) : Prop :=
  (s.chan e c).resv = none → inHbm ((s.chan e c).desc.dst + off) →
    s.hbmWritable ((s.chan e c).desc.dst + off) n = true

/-- Output counted, its TIME noted. -/
def State.outNoted (s : State) (e : Fin 5) (c : Fin 8) (n : Nat) : State :=
  (s.count (srcDma e c) dWritten n).lastWrite e c

/-- Output that the device took at an address: its pages counted, its mark moved, a loss of poison reported. -/
def State.outTaken (s : State) (e : Fin 5) (c : Fin 8) (a n : Nat) (lost : Bool) : State :=
  let s := if inHbm a then (s.countPages hWrite a n).markWrite a n else s
  if lost then
    (s.updChan e c (fun x => { x with poisonLost := true })).tickFault 0x0841 srcHbm 6 (16 + chanOf a) a
  else s

theorem State.outNoted_via (s : State) (e : Fin 5) (c : Fin 8) (n : Nat) :
    State.Via [.cnt, .dma] s (s.outNoted e c n) :=
  State.lastWrite_via (State.count_via (.refl _ s) (by decide)) (by decide)

theorem State.outNoted_chan (s : State) (e : Fin 5) (c : Fin 8) (n : Nat) :
    (s.outNoted e c n).chan e c = { s.chan e c with lastAt := some s.tk.now } := by
  unfold State.outNoted State.lastWrite
  rw [State.updChan_chan, State.count_tk, State.chan_of_dma (State.count_dma s _ _ _)]

theorem State.outTaken_via (s : State) (e : Fin 5) (c : Fin 8) (a n : Nat) (lost : Bool) :
    State.Via [.cnt, .hbm, .dma, .note] s (s.outTaken e c a n lost) := by
  unfold State.outTaken
  extract_lets u
  have hu : State.Via [.cnt, .hbm, .dma, .note] s u := by
    unfold u
    split
    · exact State.markWrite_via (State.countPages_via (.refl _ s) (by decide)) (by decide)
    · exact .refl _ s
  split
  · exact State.tickFault_via (State.updChan_via hu (by decide)) (by decide)
  · exact hu

theorem State.outTaken_phase (s : State) (e : Fin 5) (c : Fin 8) (a n : Nat) (lost : Bool) :
    (s.outTaken e c a n lost).hbm.phase = s.hbm.phase := by
  unfold State.outTaken
  extract_lets u
  have hu : u.hbm.phase = s.hbm.phase := by
    unfold u
    split
    · exact (State.markWrite_phase _ a n).trans
        (State.countPages_via (M := [.cnt]) (.refl _ s) (by decide)).hbmPhase
    · rfl
  split
  · exact (State.tickFault_via (M := [.note]) (.refl _ _) (by decide)).hbmPhase.trans hu
  · exact hu

theorem State.outTaken_chan (s : State) (e : Fin 5) (c : Fin 8) (a n : Nat) (lost : Bool) :
    (s.outTaken e c a n lost).chan e c =
      { s.chan e c with poisonLost := lost || (s.chan e c).poisonLost } := by
  unfold State.outTaken
  extract_lets u
  have hu : u.chan e c = s.chan e c := by
    unfold u
    split
    · exact (State.markWrite_via (M := [.cnt, .hbm]) (State.countPages_via (.refl _ s) (by decide)) (by decide)).chan
    · rfl
  cases lost with
  | true =>
    rw [if_pos rfl, (State.tickFault_via (M := [.note]) (.refl _ _) (by decide)).chan, State.updChan_chan, hu]
    rfl
  | false => exact hu

theorem State.writeOut_ring {g : RingAt} (h : (s.chan e c).resv = some g) :
    s.writeOut e c off bs bads = (s.outNoted e c bs.length).writeRing g (off / 32) bs bads := by
  unfold State.writeOut
  simp only [h, Option.isNone_some, Bool.false_and, Bool.false_eq_true, if_false]
  rfl

theorem State.writeOut_dev (hw : s.mayWrite e c off bs.length) (h : (s.chan e c).resv = none) :
    s.writeOut e c off bs bads =
      (((s.outNoted e c bs.length).writeDev ((s.chan e c).desc.dst + off) bs bads).1).outTaken e c
        ((s.chan e c).desc.dst + off) bs.length
        (((s.outNoted e c bs.length).writeDev ((s.chan e c).desc.dst + off) bs bads).2) := by
  have hguard : ((s.chan e c).resv.isNone && inHbm ((s.chan e c).desc.dst + off) &&
      !s.hbmWritable ((s.chan e c).desc.dst + off) bs.length) = false := by
    cases hin : inHbm ((s.chan e c).desc.dst + off) with
    | false => simp
    | true => simp [hw h hin]
  rw [h] at hguard
  unfold State.writeOut
  simp only [h, hguard, Bool.false_eq_true, if_false]
  rfl

theorem State.writeGranules_loses_none (gs : List (List Byte)) : ∀ (s : State) (a : Nat),
    (s.writeGranules a [] gs).2 = false := by
  induction gs with
  | nil => exact fun _ _ => rfl
  | cons g gs ih =>
    intro s a
    exact Bool.or_eq_false_iff.2 ⟨rfl, ih _ _⟩

/-- Clean bytes lose no poison. -/
theorem State.writeDev_loses_none (s : State) (a : Nat) (bs : List Byte) : (s.writeDev a bs []).2 = false := by
  unfold State.writeDev
  split
  case h_1 =>
    extract_lets u
    split
    · rfl
    · exact State.writeGranules_loses_none _ u a
  all_goals rfl

/-- A write that may happen leaves its channel's transfer running, its TIME noted; clean bytes lose no poison. -/
theorem State.writeOut_chan (hw : s.mayWrite e c off bs.length) : ∃ lost, (bads = [] → lost = false) ∧
    (s.writeOut e c off bs bads).chan e c =
      { s.chan e c with lastAt := some s.tk.now, poisonLost := lost || (s.chan e c).poisonLost } := by
  cases h : (s.chan e c).resv with
  | some g =>
    have hv : State.Via [.upsets, .mem, .poison, .wbQueue] (s.outNoted e c bs.length) (s.writeOut e c off bs bads) := by
      rw [State.writeOut_ring h]
      exact State.writeRing_via (.refl _ _) (by decide)
    exact ⟨false, fun _ => rfl, hv.chan.trans (s.outNoted_chan e c _)⟩
  | none =>
    have hv : State.Via [.upsets, .mem, .poison, .wbQueue, .cnt, .hbm] (s.outNoted e c bs.length)
        ((s.outNoted e c bs.length).writeDev ((s.chan e c).desc.dst + off) bs bads).1 :=
      State.writeDev_via (.refl _ _) (by decide)
    refine ⟨((s.outNoted e c bs.length).writeDev ((s.chan e c).desc.dst + off) bs bads).2, ?_, ?_⟩
    · rintro rfl
      exact State.writeDev_loses_none _ _ _
    · rw [State.writeOut_dev hw h, State.outTaken_chan, hv.chan, State.outNoted_chan]

theorem State.writeOut_clean_chan (hw : s.mayWrite e c off bs.length) :
    (s.writeOut e c off bs []).chan e c = { s.chan e c with lastAt := some s.tk.now } := by
  obtain ⟨lost, hlost, hchan⟩ := State.writeOut_chan (bads := []) hw
  rw [hchan, hlost rfl]
  rfl

theorem State.writeOut_phase (hw : s.mayWrite e c off bs.length) :
    (s.writeOut e c off bs bads).hbm.phase = s.hbm.phase := by
  cases h : (s.chan e c).resv with
  | some g =>
    rw [State.writeOut_ring h]
    exact (State.writeRing_via (M := [.upsets, .mem, .poison, .wbQueue, .cnt, .dma])
      ((s.outNoted_via e c _).mono (by decide)) (by decide)).hbmPhase
  | none =>
    rw [State.writeOut_dev hw h, State.outTaken_phase, State.writeDev_phase]
    exact (s.outNoted_via e c _).hbmPhase

/-- Clean bytes for HBM without poison or stored errors stand there, and change no other byte. -/
theorem State.writeOut_mem (hw : s.mayWrite e c off bs.length) (h : (s.chan e c).resv = none)
    (hp : placeOf ((s.chan e c).desc.dst + off) = .hbm) (ht : s.hbm.poison = []) (hc : s.clean) :
    (s.writeOut e c off bs []).mem = SMap.setRange 0 s.mem ((s.chan e c).desc.dst + off) bs := by
  obtain ⟨hpoison, hupsets⟩ := hc
  have hn := s.outNoted_via e c bs.length
  have hclean : (s.outNoted e c bs.length).clean :=
    ⟨(hn.only .poison (by decide)).trans hpoison, (hn.only .upsets (by decide)).trans hupsets⟩
  have htable : (s.outNoted e c bs.length).hbm.poison = [] :=
    (congrArg Hbm.poison (hn.only .hbm (by decide))).trans ht
  have hdev : ((s.outNoted e c bs.length).writeDev ((s.chan e c).desc.dst + off) bs []).1.mem =
      SMap.setRange 0 (s.outNoted e c bs.length).mem ((s.chan e c).desc.dst + off) bs := by
    unfold State.writeDev State.wakeRange
    have hrun : ∀ g, ((s.outNoted e c bs.length).updHbm g).cleanRun ((s.chan e c).desc.dst + off) (bs.length / 32)
        = true := fun g => State.cleanRun_clean (s := (s.outNoted e c bs.length).updHbm g) hclean _ _
    simp [hp, htable, hrun, State.writeB]
  rw [State.writeOut_dev hw h, (State.outTaken_via _ e c _ _ _).only .mem (by decide), hdev,
    hn.only .mem (by decide)]

/-- The same, read again. -/
theorem State.writeOut_reads (hw : s.mayWrite e c off bs.length) (h : (s.chan e c).resv = none)
    (hp : placeOf ((s.chan e c).desc.dst + off) = .hbm) (ht : s.hbm.poison = []) (hc : s.clean)
    (hm : Memory.wf s.mem = true) {t : State} (htm : t.mem = (s.writeOut e c off bs []).mem) :
    t.readB ((s.chan e c).desc.dst + off) bs.length = bs ∧
    ∀ a, a < (s.chan e c).desc.dst + off ∨ (s.chan e c).desc.dst + off + bs.length ≤ a →
      SMap.get 0 t.mem a = SMap.get 0 s.mem a := by
  rw [State.readB, htm, State.writeOut_mem hw h hp ht hc]
  exact ⟨SMap.getRange_setRange hm _ _, fun a ha => by rw [SMap.get_setRange hm, if_neg (by omega)]⟩

end

section
variable {s t : State} {e : Fin 5} {c : Fin 8} {off n : Nat}

theorem State.Poised.chan (h : s.Poised t) : t.chan e c = s.chan e c := h.via.chan

theorem State.Poised.mayWrite (h : s.Poised t) (hw : s.mayWrite e c off n) : t.mayWrite e c off n := by
  unfold State.mayWrite
  rw [h.chan, h.via.hbmWritable h.phase]
  exact hw

/-- Clean bytes written by a channel whose destination is HBM, beside what stood there before the grant. -/
theorem State.Poised.writeOut_reads {x : Channel} {bs : List Byte} {u : State} (h : s.Poised t)
    (hx : s.chan e c = x) (hw : s.mayWrite e c off bs.length) (hr : x.resv = none)
    (hp : placeOf (x.desc.dst + off) = .hbm) (ht : s.hbm.poison = []) (hc : s.clean) (hm : Memory.wf s.mem = true)
    (hu : u.mem = (t.writeOut e c off bs []).mem) :
    u.readB (x.desc.dst + off) bs.length = bs ∧
    ∀ a, a < x.desc.dst + off ∨ x.desc.dst + off + bs.length ≤ a → SMap.get 0 u.mem a = SMap.get 0 s.mem a := by
  obtain ⟨hpoison, hupsets⟩ := hc
  have hclean : t.clean :=
    ⟨(h.via.only .poison (by decide)).trans hpoison, (h.via.only .upsets (by decide)).trans hupsets⟩
  have hmem : t.mem = s.mem := h.via.only .mem (by decide)
  have htx : t.chan e c = x := h.chan.trans hx
  rw [← htx] at hr hp ⊢
  rw [← hmem] at hm ⊢
  exact State.writeOut_reads (h.mayWrite hw) hr hp (h.table.trans ht) hclean hm hu

/-- A running transfer's place after a block. -/
theorem Channel.blockDone_running {x : Channel} (h : x.stop = none) (n data all : Nat) : x.blockDone n data all =
    { x with codedDone := x.codedDone + n, outPos := x.outPos + data, writtenN := x.writtenN + all } :=
  if_neg (by simp [h])

end

/-! ### EXPANDER_BLOCK (07 R186, R187, R190) -/

section
variable {s : State} {p : Fin 4} {e : Fin 5} {c : Fin 8} {b : BlockSlot} {x : Channel} {bs : List BlockSlot}
  {ms : List Meet} {h : BlockHdr} {data trailer : List Byte} {st : Nat}

/-- A coder serves a whole block whose channel stands at `x`, its transfer running. -/
structure State.Serves (s : State) (p : Fin 4) (b : BlockSlot) (x : Channel) : Prop where
  /-- Its engine is not isolated. -/
  on : s.engineOut (fin5 p.val) = false
  /-- The block is whole. -/
  whole : b.whole = true
  /-- Where its channel stands. -/
  chan : s.chan (fin5 p.val) (fin8 b.chan) = x
  /-- The transfer runs. -/
  running : x.phase = .running
  /-- Its outcome is not fixed. -/
  going : x.stop = none

theorem State.Serves.guard (hs : s.Serves p b x) :
    (!b.whole || x.phase != .running || x.stop.isSome || s.engineOut (fin5 p.val)) = false := by
  simp [hs.on, hs.whole, hs.running, hs.going]

/-- The verdict on a channel's block, from where the channel stands. -/
def Channel.judges (x : Channel) (b : BlockSlot) : BlockVerdict :=
  judgeBlock b.bytes b.poisoned (x.desc.len - x.codedDone) x.outPos x.desc.outLen

theorem State.expandBlock_bad (hs : s.Serves p b x) (hq : s.exp[p] = b :: bs) (hj : x.judges b = .bad st) :
    ∃ lanes, s.expandBlock p ms = s.blockFails p (fin8 b.chan) b st lanes := by
  unfold Channel.judges at hj
  unfold State.expandBlock
  simp only [hq, hs.chan, hs.guard, hj, Bool.false_eq_true, if_false]
  exact ⟨_, rfl⟩

theorem State.expandBlock_good (hs : s.Serves p b x) (hq : s.exp[p] = b :: bs)
    (hj : x.judges b = .good h data trailer) :
    s.expandBlock p ms = s.blockPasses p (fin8 b.chan) b h data trailer ms := by
  unfold Channel.judges at hj
  unfold State.expandBlock
  simp only [hq, hs.chan, hs.guard, hj, Bool.false_eq_true, if_false]

/-- A failed block leaves its Expander with all that was read behind it; the rest is counted and reported. -/
theorem State.blockFails_eq (s : State) (p : Fin 4) (c : Fin 8) (b : BlockSlot) (st : Nat) (lanes : List Nat) :
    ∃ u, State.Via [.cnt, .note] (s.setExp p (dropSlots b.chan s.exp[p])) u ∧
      s.blockFails p c b st lanes = u.updChan (fin5 p.val) c (fun x => { x with stop := some st }) :=
  ⟨_, State.tickFaultK_via (State.countLanes_via (State.count_via (.refl _ _) (by decide)) (by decide)) (by decide),
    rfl⟩

/-- The front slot of an Expander free, once `n` bytes of HBM are charged. -/
def State.slotFreed (s : State) (p : Fin 4) (ms : List Meet) (n : Nat) : State :=
  ((s.charged n).setExp p ((s.charged n).exp[p].drop 1)).dmaMeets ms

theorem State.slotFreed_after (s : State) (p : Fin 4) (ms : List Meet) (n : Nat) :
    State.Via [.cnt, .file, .exp, .note, .err] (s.charged n) (s.slotFreed p ms n) :=
  State.dmaMeets_via (State.setExp_via (.refl _ _) (by decide)) (by decide)

theorem State.slotFreed_poised (s : State) (p : Fin 4) (ms : List Meet) (n : Nat) : s.Poised (s.slotFreed p ms n) :=
  .of_charged (s.slotFreed_after p ms n)

theorem State.slotFreed_exp (s : State) (p : Fin 4) (ms : List Meet) (n : Nat) :
    (s.slotFreed p ms n).exp = s.exp.set p (s.exp[p].drop 1) := by
  have hcharged : (s.charged n).exp = s.exp := (s.charged_via n).only .exp (by decide)
  have hmeets : (s.slotFreed p ms n).exp = ((s.charged n).setExp p ((s.charged n).exp[p].drop 1)).exp :=
    (State.dmaMeets_via (M := [.cnt, .file, .note, .err]) (.refl _ _) (by decide)).only .exp (by decide)
  rw [hmeets, ← hcharged]
  rfl

/-- A good block's data at the output position, its trailer at its own. -/
def State.blockPut (s : State) (e : Fin 5) (c : Fin 8) (h : BlockHdr) (data trailer : List Byte) : State :=
  let u := s.writeOut e c (s.chan e c).outPos data []
  if trailer.isEmpty then u else u.writeOut e c h.normDst trailer []

theorem State.expandOut_put (hb : isBeam (s.chan e c).desc.dst = false) (last : Bool) :
    s.expandOut e c h data trailer last = s.blockPut e c h data trailer := by
  unfold State.expandOut
  simp only [hb, Bool.false_eq_true, if_false]
  rfl

theorem State.blockPut_via (s : State) (e : Fin 5) (c : Fin 8) (h : BlockHdr) (data trailer : List Byte) :
    State.Via [.upsets, .mem, .poison, .wbQueue, .cnt, .hbm, .dma, .note] s (s.blockPut e c h data trailer) := by
  unfold State.blockPut
  extract_lets u
  have hu : State.Via [.upsets, .mem, .poison, .wbQueue, .cnt, .hbm, .dma, .note] s u :=
    State.writeOut_via (.refl _ s) (by decide)
  split
  · exact hu
  · exact State.writeOut_via hu (by decide)

theorem State.blockPut_chan (hd : s.mayWrite e c (s.chan e c).outPos data.length)
    (ht : trailer ≠ [] → s.mayWrite e c h.normDst trailer.length) :
    (s.blockPut e c h data trailer).chan e c = { s.chan e c with lastAt := some s.tk.now } := by
  unfold State.blockPut
  extract_lets u
  have hu : u.chan e c = { s.chan e c with lastAt := some s.tk.now } := State.writeOut_clean_chan hd
  split
  case isTrue => exact hu
  case isFalse hne =>
    have hv : State.Via [.upsets, .mem, .poison, .wbQueue, .cnt, .hbm, .dma, .note] s u :=
      State.writeOut_via (.refl _ s) (by decide)
    have htk : u.tk = s.tk := hv.only .tk (by decide)
    have hw : u.mayWrite e c h.normDst trailer.length := by
      unfold State.mayWrite
      rw [hu, hv.hbmWritable (State.writeOut_phase hd)]
      exact ht (by simpa using hne)
    rw [State.writeOut_clean_chan hw, hu, htk]

/-- A good block that the bucket grants: its slot is free, its data are written and counted, its channel moves on. -/
theorem State.blockPasses_granted (hx : s.chan (fin5 p.val) c = x) (hb : isBeam x.desc.dst = false)
    (hg : s.grants (.expander p.val) (x.desc.hbmBytes (data.length + trailer.length)) x.desc.prio) :
    ∃ u, State.Via [.cnt] ((s.slotFreed p ms (x.desc.hbmBytes (data.length + trailer.length))).blockPut
        (fin5 p.val) c h data trailer) u ∧
      s.blockPasses p c b h data trailer ms = u.updChan (fin5 p.val) c
        (·.blockDone b.bytes.length data.length (data.length + trailer.length)) := by
  have hfreed : isBeam (((s.slotFreed p ms (x.desc.hbmBytes (data.length + trailer.length))).chan
      (fin5 p.val) c).desc.dst) = false := by
    rw [(s.slotFreed_poised p ms _).chan, hx, hb]
  unfold State.blockPasses
  simp only [hx, State.bucketPass_granted hg, Bool.not_true, Bool.false_eq_true, if_false]
  refine ⟨_, ?_, rfl⟩
  rw [← State.expandOut_put hfreed]
  exact State.countLanes_via (State.count_via (State.count_via (.refl _ _) (by decide)) (by decide)) (by decide)

theorem execExpanderBlock_bad (hs : s.Serves p b x) (hq : s.exp[p] = b :: bs) (hj : x.judges b = .bad st) :
    ∃ t, execExpanderBlock p ms s = .next t ∧ t.exp = s.exp.set p (bs.filter (fun v => v.chan != b.chan)) ∧
      t.chan (fin5 p.val) (fin8 b.chan) = { x with stop := some st } ∧ State.Only [.cnt, .dma, .exp, .host] s t := by
  obtain ⟨lanes, hfails⟩ := State.expandBlock_bad (ms := ms) hs hq hj
  obtain ⟨u, hu, heq⟩ := s.blockFails_eq p (fin8 b.chan) b st lanes
  have hdrop : dropSlots b.chan s.exp[p] = bs.filter (fun v => v.chan != b.chan) := by simp [dropSlots, hq]
  have hset : State.Via [.cnt, .dma, .exp, .note] s (s.setExp p (dropSlots b.chan s.exp[p])) :=
    State.setExp_via (.refl _ s) (by decide)
  refine ⟨_, congrArg Host.Outcome.next (hfails.trans heq), ?_, ?_,
    (State.updChan_via (hset.upd hu (by decide)) (by decide)).frame⟩
  · exact (hu.only .exp (by decide)).trans (congrArg (s.exp.set p) hdrop)
  · rw [State.updChan_chan, hu.chan]
    exact congrArg (fun y : Channel => { y with stop := some st }) hs.chan

theorem execExpanderBlock_good (hs : s.Serves p b x) (hq : s.exp[p] = b :: bs)
    (hj : x.judges b = .good h data trailer) (hb : isBeam x.desc.dst = false)
    (hg : s.grants (.expander p.val) (x.desc.hbmBytes (data.length + trailer.length)) x.desc.prio)
    (hd : s.mayWrite (fin5 p.val) (fin8 b.chan) x.outPos data.length)
    (ht : trailer ≠ [] → s.mayWrite (fin5 p.val) (fin8 b.chan) h.normDst trailer.length) :
    ∃ t, execExpanderBlock p ms s = .next t ∧ t.exp = s.exp.set p bs ∧
      t.chan (fin5 p.val) (fin8 b.chan) = { x with
        codedDone := x.codedDone + b.bytes.length, outPos := x.outPos + data.length, lastAt := some s.tk.now
        writtenN := x.writtenN + (data.length + trailer.length) } ∧
      (s.hbm.poison = [] → s.clean → Memory.wf s.mem = true → x.resv = none → trailer = [] →
        placeOf (x.desc.dst + x.outPos) = .hbm →
        t.readB (x.desc.dst + x.outPos) data.length = data ∧
        ∀ a, a < x.desc.dst + x.outPos ∨ x.desc.dst + x.outPos + data.length ≤ a →
          SMap.get 0 t.mem a = SMap.get 0 s.mem a) ∧
      State.Only [.upsets, .mem, .poison, .wbQueue, .cnt, .facets, .hbm, .dma, .exp, .host, .err] s t := by
  obtain ⟨u, hu, heq⟩ := State.blockPasses_granted (ms := ms) (b := b) (h := h) hs.chan hb hg
  have hpasses := (State.expandBlock_good (ms := ms) hs hq hj).trans heq
  generalize x.desc.hbmBytes (data.length + trailer.length) = n at hu
  have hv := s.slotFreed_poised p ms n
  have hput := (s.slotFreed p ms n).blockPut_via (fin5 p.val) (fin8 b.chan) h data trailer
  have hfreed : (s.slotFreed p ms n).chan (fin5 p.val) (fin8 b.chan) = x := hv.chan.trans hs.chan
  have hnow : (s.slotFreed p ms n).tk = s.tk := hv.via.only .tk (by decide)
  have hchan : u.chan (fin5 p.val) (fin8 b.chan) = { x with lastAt := some s.tk.now } := by
    rw [hu.chan, State.blockPut_chan (by rw [hfreed]; exact hv.mayWrite hd) (fun hne => hv.mayWrite (ht hne)), hfreed,
      hnow]
  refine ⟨_, congrArg Host.Outcome.next hpasses, ?_, ?_, fun hpoison hclean hm hr hnil hp => ?_, ?_⟩
  · rw [State.updChan_exp, hu.only .exp (by decide), hput.only .exp (by decide), State.slotFreed_exp, hq]
    rfl
  · rw [State.updChan_chan, Channel.blockDone_running (by rw [hchan]; exact hs.going), hchan]
  · subst hnil
    have hmem : u.mem = ((s.slotFreed p ms n).writeOut (fin5 p.val) (fin8 b.chan) x.outPos data []).mem := by
      rw [hu.only .mem (by decide), ← hfreed]
      rfl
    exact hv.writeOut_reads hs.chan hd hr hp hpoison hclean hm hmem
  · have hgrant : State.Via [.upsets, .mem, .poison, .wbQueue, .cnt, .file, .hbm, .dma, .exp, .note, .err] s
        (s.slotFreed p ms n) := ((s.charged_via n).mono (by decide)).upd (s.slotFreed_after p ms n) (by decide)
    exact (State.updChan_via ((hgrant.upd hput (by decide)).upd hu (by decide)) (by decide)).frame

end

/-! ### CONDENSER_BLOCK (07 R196 to R199) -/

section
variable {s : State} {p : Fin 4} {b : BlockSlot} {x : Channel}

/-- The coded form of a channel's buffered bytes. -/
def Channel.codes (x : Channel) (b : BlockSlot) : List Byte :=
  (codeBlock (if x.desc.coding = 1 then 0x11 else 0x10) b.poisoned b.bytes).1

theorem State.condenseBlock_full (hs : s.Serves p b x) (hq : s.cnd[p] = some b)
    (hlen : x.desc.outLen < x.writtenN + (x.codes b).length) :
    s.condenseBlock p = ((s.setCnd p none).count (srcExp p) kNoSpace 1).updChan (fin5 p.val) (fin8 b.chan)
      (fun x => { x with stop := some 0x0144 }) := by
  unfold Channel.codes at hlen
  unfold State.condenseBlock
  simp only [hq, hs.chan, hs.guard, hlen, Bool.false_eq_true, if_false, if_true]

/-- A Condenser's buffer free for a write at an address, once `n` bytes of HBM are charged. -/
def State.bufferFreed (s : State) (p : Fin 4) (a n : Nat) : State := ((s.charged n).setCnd p none).yieldsAt a

theorem State.bufferFreed_after (s : State) (p : Fin 4) (a n : Nat) :
    State.Via [.freeCtr, .cnt, .cnd] (s.charged n) (s.bufferFreed p a n) :=
  State.yieldsAt_via (State.setCnd_via (.refl _ _) (by decide)) (by decide)

theorem State.bufferFreed_poised (s : State) (p : Fin 4) (a n : Nat) : s.Poised (s.bufferFreed p a n) :=
  .of_charged (s.bufferFreed_after p a n)

theorem State.bufferFreed_cnd (s : State) (p : Fin 4) (a n : Nat) : (s.bufferFreed p a n).cnd = s.cnd.set p none := by
  have hcharged : (s.charged n).cnd = s.cnd := (s.charged_via n).only .cnd (by decide)
  have hyields : (s.bufferFreed p a n).cnd = ((s.charged n).setCnd p none).cnd :=
    (State.yieldsAt_via (M := [.freeCtr, .cnt]) (.refl _ _) (by decide)).only .cnd (by decide)
  rw [hyields, ← hcharged]
  rfl

/-- The channel of a condensed block moves on; poison that the block held is noted. -/
def Channel.condensed (x : Channel) (n : Nat) (bad : Bool) : Channel :=
  { x.blockDone 8192 0 n with condPoisoned := x.condPoisoned || bad }

/-- A coded block that fits and that the bucket grants: the buffer is free, the block written and counted. -/
theorem State.condenseBlock_granted (hs : s.Serves p b x) (hq : s.cnd[p] = some b)
    (hlen : x.writtenN + (x.codes b).length ≤ x.desc.outLen) (hb : isBeam x.desc.dst = false)
    (hg : s.grants (.condenser p.val) (x.desc.hbmBytes (x.codes b).length) x.desc.prio) :
    ∃ u, State.Via [.cnt] ((s.bufferFreed p x.desc.dst (x.desc.hbmBytes (x.codes b).length)).writeOut (fin5 p.val)
        (fin8 b.chan) x.writtenN (x.codes b) (b.badUnits.map (· + 2))) u ∧
      s.condenseBlock p = u.updChan (fin5 p.val) (fin8 b.chan) (·.condensed (x.codes b).length b.poisoned) := by
  have hcount (v : State) : State.Via [.cnt] v (if b.poisoned then v.count (srcExp p) kPoisoned 1 else v) := by
    split
    · exact State.count_via (.refl _ v) (by decide)
    · exact .refl _ v
  unfold Channel.codes at hlen hg
  unfold State.condenseBlock
  simp only [hq, hs.chan, hs.guard, Nat.not_lt.2 hlen, State.bucketPass_granted hg, hb, Bool.not_true,
    Bool.false_eq_true, if_false]
  refine ⟨_, ?_, rfl⟩
  exact (State.countLanes_via (State.count_via (State.count_via (.refl _ _) (by decide)) (by decide))
    (by decide)).upd (hcount _) (by decide)

theorem execCondenserBlock_full (hs : s.Serves p b x) (hq : s.cnd[p] = some b)
    (hlen : x.desc.outLen < x.writtenN + (x.codes b).length) :
    ∃ t, execCondenserBlock p s = .next t ∧ t.cnd = s.cnd.set p none ∧
      t.chan (fin5 p.val) (fin8 b.chan) = { x with stop := some 0x0144 } ∧ State.Only [.cnt, .dma, .cnd] s t := by
  have hset : State.Via [.cnt, .dma, .cnd] s (s.setCnd p none) := State.setCnd_via (.refl _ s) (by decide)
  have hcount : State.Via [.cnt] (s.setCnd p none) ((s.setCnd p none).count (srcExp p) kNoSpace 1) :=
    State.count_via (.refl _ _) (by decide)
  refine ⟨_, congrArg Host.Outcome.next (State.condenseBlock_full hs hq hlen), hcount.only .cnd (by decide), ?_,
    (State.updChan_via (hset.upd hcount (by decide)) (by decide)).frame⟩
  rw [State.updChan_chan, hcount.chan]
  exact congrArg (fun y : Channel => { y with stop := some 0x0144 }) hs.chan

theorem execCondenserBlock_good (hs : s.Serves p b x) (hq : s.cnd[p] = some b)
    (hlen : x.writtenN + (x.codes b).length ≤ x.desc.outLen) (hb : isBeam x.desc.dst = false)
    (hg : s.grants (.condenser p.val) (x.desc.hbmBytes (x.codes b).length) x.desc.prio)
    (hw : s.mayWrite (fin5 p.val) (fin8 b.chan) x.writtenN (x.codes b).length) :
    ∃ t, execCondenserBlock p s = .next t ∧ t.cnd = s.cnd.set p none ∧
      (t.chan (fin5 p.val) (fin8 b.chan)).codedDone = x.codedDone + 8192 ∧
      (t.chan (fin5 p.val) (fin8 b.chan)).writtenN = x.writtenN + (x.codes b).length ∧
      (s.hbm.poison = [] → s.clean → Memory.wf s.mem = true → x.resv = none → b.badUnits = [] →
        placeOf (x.desc.dst + x.writtenN) = .hbm →
        t.readB (x.desc.dst + x.writtenN) (x.codes b).length = x.codes b) ∧
      State.Only [.freeCtr, .upsets, .mem, .poison, .wbQueue, .cnt, .hbm, .dma, .cnd, .host] s t := by
  obtain ⟨u, hu, heq⟩ := State.condenseBlock_granted hs hq hlen hb hg
  generalize x.desc.hbmBytes (x.codes b).length = n at hu
  have hv := s.bufferFreed_poised p x.desc.dst n
  have hput : State.Via [.upsets, .mem, .poison, .wbQueue, .cnt, .hbm, .dma, .note] (s.bufferFreed p x.desc.dst n)
      ((s.bufferFreed p x.desc.dst n).writeOut (fin5 p.val) (fin8 b.chan) x.writtenN (x.codes b)
        (b.badUnits.map (· + 2))) := State.writeOut_via (.refl _ _) (by decide)
  obtain ⟨lost, -, hchan⟩ := State.writeOut_chan (bads := b.badUnits.map (· + 2)) (hv.mayWrite hw)
  rw [hv.chan, hs.chan, ← hu.chan] at hchan
  have hgoing : (u.chan (fin5 p.val) (fin8 b.chan)).stop = none := by rw [hchan]; exact hs.going
  refine ⟨_, congrArg Host.Outcome.next heq, ?_, ?_, ?_, fun hpoison hclean hm hr hnil hp => ?_, ?_⟩
  · rw [State.updChan_cnd, hu.only .cnd (by decide), hput.only .cnd (by decide), State.bufferFreed_cnd]
  · rw [State.updChan_chan, Channel.condensed, Channel.blockDone_running hgoing, hchan]
  · rw [State.updChan_chan, Channel.condensed, Channel.blockDone_running hgoing, hchan]
  · rw [hnil] at hu
    exact (hv.writeOut_reads hs.chan hw hr hp hpoison hclean hm (hu.only .mem (by decide))).1
  · have hgrant : State.Via [.freeCtr, .upsets, .mem, .poison, .wbQueue, .cnt, .hbm, .dma, .cnd, .note] s
        (s.bufferFreed p x.desc.dst n) :=
      ((s.charged_via n).mono (by decide)).upd (s.bufferFreed_after p x.desc.dst n) (by decide)
    exact (State.updChan_via ((hgrant.upd hput (by decide)).upd hu (by decide)) (by decide)).frame

end

end Sys2Proof.Machine

open Sys2Proof Sys2Proof.Machine

/-- Settles O26: up to its write a block leaves what the write depends on, and the write leaves the transfer running. -/
theorem blocksCoded : Obligations.BlocksCoded := by
  unfold Obligations.BlocksCoded
  refine ⟨?_, fun s => ⟨fun p ms => ?_, fun p => ?_⟩⟩
  · intro p b s e c x hon hwhole hrun hgo
    have hs : s.Serves p b x := ⟨hon, hwhole, rfl, hrun, hgo⟩
    refine ⟨fun bs ms hq => ⟨fun st hj => ?_, fun h data trailer hj hb hg hd ht => ?_⟩,
      fun hq => ⟨execCondenserBlock_full hs hq, fun hlen hb hg hw => ?_⟩⟩
    · exact execExpanderBlock_bad hs hq hj
    · exact execExpanderBlock_good hs hq hj hb hg hd fun hne hr => ht hr hne
    · exact execCondenserBlock_good hs hq hlen hb hg hw
  · exact (execExpanderBlock_via (M := [.upsets, .mem, .poison, .wbQueue, .cnt, .file, .hbm, .dma, .exp, .net, .beam,
      .note, .err]) (.refl _ s) (by decide)).next_only ⟨_, rfl⟩
  · exact (execCondenserBlock_via (M := [.freeCtr, .upsets, .mem, .poison, .wbQueue, .cnt, .hbm, .dma, .cnd, .net,
      .beam, .note]) (.refl _ s) (by decide)).next_only ⟨_, rfl⟩
end

section
namespace Sys2Proof.Machine

/-! ### A waiting descriptor starts (08 R209, R211, R212) -/

section
variable {s : State} {e e' : Fin 5} {c c' : Fin 8} {f r : Fin 16}

/-- A change of a channel that leaves its DONE latch leaves every latch. -/
theorem State.updChan_latch {g : Channel → Channel} (hg : ∀ x, (g x).latch = x.latch) :
    ((s.updChan e c g).chan e' c').latch = (s.chan e' c').latch := by
  by_cases h : e = e' ∧ c = c'
  · obtain ⟨rfl, rfl⟩ := h
    rw [State.updChan_chan, hg]
  · rw [State.updChan_other s g h]

/-- TIME moved to the instant that a start names. -/
def State.startTimed (s : State) (x : Channel) : State :=
  match x.startAt with
  | some t => s.setTime (max s.tk.now t)
  | none => s

/-- The DONE latch that a start waited for taken (R212). -/
def State.latchTaken (s : State) (e : Fin 5) (d : DmaDesc) : State :=
  if d.waitKind = 3 then s.updChan e (fin8 d.waitSel) (fun x => { x with latch := false }) else s

/-- What a start has done once its event is taken and its waiting counted. -/
def State.startTaken (s : State) (e : Fin 5) (c : Fin 8) : State :=
  let x := s.chan e c
  let u := (s.startTimed x).latchTaken e x.desc
  u.count (srcDma e c) dWait ((u.tk.now - x.waitFrom) / 2)

/-- The descriptor runs, before any region space is reserved for it. -/
def State.startNoted (s : State) (e : Fin 5) (c : Fin 8) : State :=
  (s.startTaken e c).updChan e c (fun x => { x with
    phase := .running, crc := 0xFFFFFFFF, history := (s.startTaken e c).writesHistory (s.chan e c).desc })

theorem execDescriptorStart_starts (hp : (s.chan e c).phase = .waiting) (hm : s.startMet e (s.chan e c) = true)
    (hq : s.queueTaken (chanNo e c) (s.chan e c).desc = false) (hf : s.regionFull (s.chan e c).desc = false)
    (ho : s.engineOut e = false) (hd : s.hbm.phase = .draining → (s.chan e c).desc.usesHbm = false) :
    execDescriptorStart e c s = .next ((s.startNoted e c).reserveFor e c) := by
  unfold execDescriptorStart
  rw [if_pos ⟨hp, hm, hq, hf, ho, fun ⟨h, hu⟩ => by rw [hd h] at hu; cases hu⟩]
  rfl

theorem State.startTimed_via (s : State) (x : Channel) : State.Via [.cnt, .tk, .hbm, .idle] s (s.startTimed x) := by
  unfold State.startTimed
  split
  · exact State.setTime_via (.refl _ s) (by decide)
  · exact .refl _ s

theorem State.latchTaken_via (s : State) (e : Fin 5) (d : DmaDesc) : State.Via [.dma] s (s.latchTaken e d) := by
  unfold State.latchTaken
  split
  · exact State.updChan_via (.refl _ s) (by decide)
  · exact .refl _ s

theorem State.startTaken_via (s : State) (e : Fin 5) (c : Fin 8) :
    State.Via [.cnt, .tk, .hbm, .dma, .idle] s (s.startTaken e c) :=
  State.count_via (((s.startTimed_via _).mono (by decide)).upd (State.latchTaken_via _ e _) (by decide)) (by decide)

theorem State.startNoted_via (s : State) (e : Fin 5) (c : Fin 8) :
    State.Via [.cnt, .tk, .hbm, .dma, .idle] s (s.startNoted e c) :=
  State.updChan_via (s.startTaken_via e c) (by decide)

theorem State.startNoted_tk (s : State) (e : Fin 5) (c : Fin 8) :
    (s.startNoted e c).tk = (s.startTimed (s.chan e c)).tk := by
  unfold State.startNoted State.startTaken
  rw [State.updChan_tk, State.count_tk]
  exact (State.latchTaken_via _ e _).only .tk (by decide)

theorem State.startTaken_chan (s : State) (e : Fin 5) (c : Fin 8) :
    ∃ l, (s.startTaken e c).chan e c = { s.chan e c with latch := l } := by
  have ht := (s.startTimed_via (s.chan e c)).chan (e := e) (c := c)
  unfold State.startTaken State.latchTaken
  rw [State.chan_of_dma (State.count_dma _ _ _ _)]
  split
  · by_cases h : fin8 (s.chan e c).desc.waitSel = c
    · rw [h, State.updChan_chan, ht]
      exact ⟨_, rfl⟩
    · rw [State.updChan_other _ _ fun q => h q.2, ht]
      exact ⟨_, rfl⟩
  · exact ⟨_, ht⟩

theorem State.startNoted_chan (s : State) (e : Fin 5) (c : Fin 8) :
    ∃ l, (s.startNoted e c).chan e c = { s.chan e c with
      latch := l, phase := .running, crc := 0xFFFFFFFF, history := s.writesHistory (s.chan e c).desc } := by
  obtain ⟨l, hl⟩ := s.startTaken_chan e c
  have hh : (s.startTaken e c).writesHistory (s.chan e c).desc = s.writesHistory (s.chan e c).desc := by
    unfold State.writesHistory State.partitions
    rw [(s.startTaken_via e c).only .sched (by decide)]
  refine ⟨l, ?_⟩
  unfold State.startNoted
  rw [State.updChan_chan, hl, hh]

/-- The latch that WAIT_KIND 3 waited for is taken. -/
theorem State.startNoted_latch (h : (s.chan e c).desc.waitKind = 3) :
    ((s.startNoted e c).chan e (fin8 (s.chan e c).desc.waitSel)).latch = false := by
  unfold State.startNoted
  rw [State.updChan_latch (by exact fun _ => rfl)]
  unfold State.startTaken State.latchTaken
  rw [State.chan_of_dma (State.count_dma _ _ _ _), if_pos h, State.updChan_chan]

/-! ### A circular destination reserves its units (05 R148, R149; 08 R211) -/

theorem State.reserveFor_plain (h : (s.chan e c).desc.circ = false) : s.reserveFor e c = s := by
  unfold State.reserveFor
  exact if_pos (by simp [h])

theorem State.reserveFor_circ (h : (s.chan e c).desc.circ = true) (hr : (s.chan e c).desc.region = some (f, r)) :
    s.reserveFor e c = if (s.facets[f].regions[r]).fits ((s.chan e c).desc.outBytes / 32) then
        ((s.updRegion f r (fun x => x.reserve (chanNo e c) ((s.chan e c).desc.outBytes / 32))).highWater f r).updChan e c
          (fun x => { x with resv := some (s.ringAt f r) })
      else (s.regionOverrun f r).updChan e c (fun x => { x with stop := some 0x0252 }) := by
  unfold State.reserveFor
  simp only [h, hr, Bool.not_true, Bool.false_eq_true, if_false]

/-- A channel's RESV or outcome written after what leaves the engines as they are. -/
theorem State.updChan_resv {u : State} {g : Channel → Channel} (hu : State.Via [.cnt, .facets] s u)
    (hg : ∀ x, ∃ v st, g x = { x with resv := v, stop := st }) :
    (∃ v st, (u.updChan e c g).chan e c = { s.chan e c with resv := v, stop := st }) ∧
    ∀ e' c', ((u.updChan e c g).chan e' c').latch = (s.chan e' c').latch := by
  refine ⟨?_, fun e' c' => ?_⟩
  · rw [State.updChan_chan, hu.chan]
    exact hg _
  · rw [State.updChan_latch, hu.chan]
    intro x
    obtain ⟨v, st, h⟩ := hg x
    rw [h]

/-- Of the channels a reservation changes RESV or the outcome of the one that starts. -/
theorem State.reserveFor_chan (s : State) (e : Fin 5) (c : Fin 8) :
    (∃ v st, (s.reserveFor e c).chan e c = { s.chan e c with resv := v, stop := st }) ∧
    ∀ e' c', ((s.reserveFor e c).chan e' c').latch = (s.chan e' c').latch := by
  unfold State.reserveFor
  extract_lets d k
  split
  · exact ⟨⟨_, _, rfl⟩, fun _ _ => rfl⟩
  · split
    · exact ⟨⟨_, _, rfl⟩, fun _ _ => rfl⟩
    · split
      · exact State.updChan_resv (State.highWater_via (State.updRegion_via (.refl _ s) (by decide)) (by decide))
          fun x => ⟨_, x.stop, rfl⟩
      · exact State.updChan_resv (State.regionOverrun_via (.refl _ s) (by decide)) fun x => ⟨x.resv, _, rfl⟩

theorem State.reserveFor_fits (h : (s.chan e c).desc.circ = true) (hr : (s.chan e c).desc.region = some (f, r))
    (hk : (s.facets[f].regions[r]).fits ((s.chan e c).desc.outBytes / 32) = true) :
    ((s.reserveFor e c).chan e c).resv = some (s.ringAt f r) ∧
      (s.reserveFor e c).facets[f].regions[r] =
        (s.facets[f].regions[r]).reserve (chanNo e c) ((s.chan e c).desc.outBytes / 32) := by
  rw [State.reserveFor_circ h hr, if_pos hk, State.updChan_chan, State.updChan_facets,
    (State.highWater_via (M := [.cnt]) (.refl _ _) (by decide)).only .facets (by decide)]
  exact ⟨rfl, State.updRegion_region s f r _⟩

theorem State.reserveFor_overruns (h : (s.chan e c).desc.circ = true) (hr : (s.chan e c).desc.region = some (f, r))
    (hk : (s.facets[f].regions[r]).fits ((s.chan e c).desc.outBytes / 32) = false) :
    ((s.reserveFor e c).chan e c).stop = some 0x0252 ∧
      (s.reserveFor e c).facets[f].regions[r] = s.facets[f].regions[r] := by
  rw [State.reserveFor_circ h hr, if_neg (Bool.eq_false_iff.1 hk), State.updChan_chan, State.updChan_facets]
  exact ⟨rfl, congrArg (fun v : Vector Facet 16 => v[f].regions[r]) (State.count_facets _ _ _ _)⟩

end
end Sys2Proof.Machine

open Sys2Proof Sys2Proof.Machine

/-- Settles O23: what a start takes and notes comes before the reservation, which changes of its channel RESV and the
outcome alone. -/
theorem descriptorStarts : Obligations.DescriptorStarts := by
  unfold Obligations.DescriptorStarts
  refine ⟨?_, fun s e c => ?_⟩
  · intro e c s hp hm hq hf ho hd d
    have hexec := execDescriptorStart_starts hp hm hq hf ho hd
    have hnoted := s.startNoted_via e c
    have htk := s.startNoted_tk e c
    obtain ⟨l, hchan⟩ := s.startNoted_chan e c
    obtain ⟨⟨v, st, hres⟩, hlatch⟩ := (s.startNoted e c).reserveFor_chan e c
    have hdesc : ((s.startNoted e c).chan e c).desc = d := by rw [hchan]
    have hframe : State.Via [.cnt, .tk, .facets, .hbm, .dma, .note, .err, .idle] s ((s.startNoted e c).reserveFor e c) :=
      State.reserveFor_via (hnoted.mono (by decide)) (by decide)
    have htime : ((s.startNoted e c).reserveFor e c).tk = (s.startTimed (s.chan e c)).tk :=
      ((State.reserveFor_via (M := [.cnt, .facets, .dma, .note, .err]) (.refl _ _) (by decide)).only .tk
        (by decide)).trans htk
    refine ⟨_, hexec, ?_, ?_, ?_, ?_, fun x hx => ?_, fun hx => ?_, fun hk => ?_, fun hc => ?_, fun f r hc hr => ?_,
      hframe.frame⟩
    · rw [hres, hchan]
    · rw [hres, hchan]
    · rw [hres, hchan]
    · rw [hres, hchan]
    · rw [htime]
      unfold State.startTimed
      rw [hx]
      exact congrArg TimeSt.now (s.setTime_tk _)
    · rw [htime]
      unfold State.startTimed
      rw [hx]
    · rw [hlatch]
      exact State.startNoted_latch hk
    · rw [State.reserveFor_plain (by rw [hdesc]; exact hc), hchan]
      exact ⟨rfl, rfl, hnoted.frame⟩
    · have hc' : ((s.startNoted e c).chan e c).desc.circ = true := by rw [hdesc]; exact hc
      have hr' : ((s.startNoted e c).chan e c).desc.region = some (f, r) := by rw [hdesc]; exact hr
      have hfac : (s.startNoted e c).facets = s.facets := hnoted.only .facets (by decide)
      refine ⟨fun hfit => ?_, fun hover => ?_⟩
      · obtain ⟨h1, h2⟩ := State.reserveFor_fits hc' hr' (by
          rw [hfac, hdesc]
          exact decide_eq_true hfit)
        rw [h1, h2]
        unfold State.ringAt
        rw [hfac, hdesc]
        exact ⟨rfl, rfl⟩
      · obtain ⟨h1, h2⟩ := State.reserveFor_overruns hc' hr' (by
          rw [hfac, hdesc]
          exact decide_eq_false (Nat.not_le.2 hover))
        rw [h1, h2, hfac]
        exact ⟨rfl, rfl⟩
  · refine (execDescriptorStart_via (.refl _ s) (List.Subset.refl _)).next_only ?_
    unfold execDescriptorStart
    extract_lets
    split
    · exact ⟨_, rfl⟩
    · exact ⟨_, rfl⟩
end

section
namespace Sys2Proof.Machine

/-! ### What writes leave of the bucket (06 R164) -/

section
variable {s t : State}

/-- What the users of the token bucket see of the stack: its phase, its level and what waits. -/
def Hbm.gate (h : Hbm) := (h.phase, h.bucket, h.waiting)

theorem State.Via.gate {K : List Change} (h : State.Via K s t) (hk : .hbm ∉ K.map Change.field := by decide) :
    t.hbm.gate = s.hbm.gate :=
  congrArg Hbm.gate (h.only .hbm hk)

theorem State.writeGranule_gate (s : State) (a : Nat) (bs : List Byte) (bad : Bool) :
    (s.writeGranule a bs bad).1.hbm.gate = s.hbm.gate := by
  unfold State.writeGranule
  extract_lets s1 listed
  split
  · split
    · rfl
    · split
      · rfl
      · exact congrArg Hbm.gate (State.count_hbm _ _ _ _)
  · rw [State.updHbm_hbm]
    split
    · rfl
    · rfl

theorem State.writeGranules_gate (gs : List (List Byte)) : ∀ (s : State) (a : Nat) (bads : List Nat),
    (s.writeGranules a bads gs).1.hbm.gate = s.hbm.gate := by
  induction gs with
  | nil => exact fun _ _ _ => rfl
  | cons g gs ih => exact fun s a bads => (ih _ _ _).trans (s.writeGranule_gate a g _)

theorem State.wakeRange_gate (s : State) (a n : Nat) : (s.wakeRange a n).hbm.gate = s.hbm.gate := by
  simp only [State.wakeRange, State.updHbm, Hbm.gate]

theorem State.writeDev_gate (s : State) (a : Nat) (bs : List Byte) (bads : List Nat) :
    (s.writeDev a bs bads).1.hbm.gate = s.hbm.gate := by
  have marked : (s.writeMarked a bs bads).hbm.gate = s.hbm.gate :=
    (State.writeMarked_via (M := [.upsets, .mem, .poison, .wbQueue]) (.refl _ s) (by decide)).gate
  unfold State.writeDev
  split
  case h_1 =>
    extract_lets s1
    have hwake : s1.hbm.gate = s.hbm.gate := s.wakeRange_gate a _
    clear_value s1
    split
    · exact hwake
    · exact (State.writeGranules_gate _ s1 _ _).trans hwake
  case h_2 | h_3 => exact marked
  all_goals rfl

theorem State.writeMerged_gate (s : State) (a : Nat) (bs : List Byte) : (s.writeMerged a bs).hbm.gate = s.hbm.gate :=
  s.writeDev_gate _ _ _

/-! ### What a read changes, by the place that is read (00 R7; 06 R167, R168) -/

/-- What reading one granule of a place can change. -/
def pieceKinds : Place → List Change
  | .hbm => [.cnt, .hbm, .note, .err]
  | .scratch _ _ => [.upsets, .poison, .wbQueue, .cnt, .note, .err]
  | .lineStore => [.out, .upsets, .mem, .ring, .poison, .wbQueue, .cnt, .img, .note]
  | _ => [.cnt, .err]

theorem State.readPiece_place (s : State) (a : Nat) : State.Via (pieceKinds (placeOf a)) s (s.readPiece a).2.2 := by
  unfold State.readPiece
  split
  case h_1 h =>
    rw [h]
    exact State.readGranule_via (.refl _ s) (by decide)
  case h_2 h =>
    rw [h]
    exact State.readUnit_via (.refl _ s) (by simp [pieceKinds])
  case h_3 h =>
    rw [h]
    split
    · exact .refl _ s
    · split
      · exact State.lineParity_via (.refl _ s) (by decide)
      · exact .refl _ s
  case h_4 h | h_5 h | h_6 h | h_7 h =>
    rw [h]
    split
    · exact State.sramError_via (.refl _ s) (by decide)
    · split
      · exact .refl _ s
      · split
        · exact .refl _ s
        · split
          · exact .refl _ s
          · exact .refl _ s
  case h_8 => exact .refl _ s

end
end Sys2Proof.Machine
end

section
namespace Sys2Proof.Machine

/-! ### Numbers and fields in memory (00 R7) -/

section
variable {s t : State} {a n : Nat} {bs : List Byte}

/-- The bytes of a number spell it. -/
theorem leNat_leBytes (n : Nat) : ∀ v : Nat, leNat (leBytes n v) = v % 256 ^ n := by
  induction n with
  | zero => exact fun v => (Nat.mod_one v).symm
  | succ n ih =>
    intro v
    unfold leBytes leNat
    rw [ih, BitVec.toNat_ofNat, Nat.mod_eq_of_lt (Nat.mod_lt v (by decide)), Nat.pow_succ', Nat.mod_mul]

/-- Bytes within a run of bytes. -/
theorem State.readB_within (hm : Memory.wf s.mem = true) {i m : Nat} (h : i + m ≤ n) :
    s.readB (a + i) m = ((s.readB a n).drop i).take m := by
  unfold State.readB
  rw [SMap.getRange_eq hm, SMap.getRange_eq hm]
  refine List.ext_getElem (by simp; omega) fun j h1 h2 => ?_
  simp [Nat.add_assoc]

theorem State.readB_getD (hm : Memory.wf s.mem = true) {i : Nat} (h : i < n) :
    (s.readB a n).getD i 0 = SMap.get 0 s.mem (a + i) := by
  unfold State.readB
  rw [SMap.getRange_eq hm]
  simp [h]

/-- A run that reads as given bytes one by one. -/
theorem State.readB_of_get (hm : Memory.wf s.mem = true)
    (h : ∀ i, i < bs.length → SMap.get 0 s.mem (a + i) = bs.getD i 0) : s.readB a bs.length = bs := by
  unfold State.readB
  rw [SMap.getRange_eq hm]
  refine List.ext_getElem (by simp) fun i h1 h2 => ?_
  rw [List.getElem_map, List.getElem_range, h i h2]
  simp [h2]

/-! ### Writes within a granule of HBM or host memory (08 R208; 06 R168) -/

theorem placeOf_hbm : placeOf a = .hbm ↔ a < hbmSize := by
  unfold placeOf
  simp only [ite_eq_iff, reduceCtorEq, and_false, or_false, and_true]

theorem placeOf_host : placeOf a = .host ↔ hostBase ≤ a ∧ a < 0x1000000000000 := by
  unfold placeOf
  simp only [ite_eq_iff, reduceCtorEq, and_false, or_false, false_or, and_true]
  unfold hbmSize scratchBase lineBase ctlBase journalBase outageBase otherBase beamBase hostBase
  omega

theorem placeOf_lineStore : placeOf a = .lineStore ↔ lineBase ≤ a ∧ a < lineBase + 0x600000 := by
  unfold placeOf
  simp only [ite_eq_iff, reduceCtorEq, and_false, or_false, false_or, and_true]
  unfold hbmSize scratchBase lineBase
  omega

/-- HBM and host memory: what bytes of a device address stand in without a mark beside them. -/
def plainMem (a : Nat) : Prop := placeOf a = .hbm ∨ placeOf a = .host

/-- The granules of a descriptor stand in one place. -/
theorem plainMem.second (h : plainMem a) (ha : a % 64 = 0) : plainMem (a + 32) := by
  rcases h with h | h
  · rw [placeOf_hbm] at h
    refine .inl (placeOf_hbm.2 ?_)
    unfold hbmSize at h ⊢
    omega
  · rw [placeOf_host] at h
    refine .inr (placeOf_host.2 ?_)
    unfold hostBase at h ⊢
    omega

theorem State.writeGranule_clean_mem (s : State) (a : Nat) (bs : List Byte) :
    (s.writeGranule a bs false).1.mem = SMap.setRange 0 s.mem a bs := rfl

/-- A granule of clean bytes stands there, whatever the table of poisoned granules held. -/
theorem State.writeDev_granule (hp : plainMem a) (hb : bs.length = 32) :
    (s.writeDev a bs []).1.mem = SMap.setRange 0 s.mem a bs := by
  unfold State.writeDev
  rcases hp with hp | hp
  · have hwake : (s.wakeRange a bs.length).mem = s.mem :=
      (State.wakeRange_via (M := [.hbm]) (.refl _ s) (by decide)).only .mem (by decide)
    simp only [hp]
    split
    · exact congrArg (SMap.setRange 0 · a bs) hwake
    · have hg : pieces32 (bs.length / 32) bs = [bs] := by
        rw [hb]
        exact congrArg (fun g => [g]) (List.take_of_length_le hb.le)
      rw [hg]
      exact (State.writeGranule_clean_mem _ a bs).trans (congrArg (SMap.setRange 0 · a bs) hwake)
  · simp only [hp]
    rw [zeroBad_nil (by omega)]
    rfl

/-- Bytes written into a granule join what stands beside them there. -/
theorem State.writeMerged_get (hm : Memory.wf s.mem = true) (hp : plainMem a) (ha : a % 32 = 0) {i : Nat}
    (hn : bs ≠ []) (hi : i + bs.length ≤ 32) (k : Nat) : SMap.get 0 (s.writeMerged (a + i) bs).mem k =
      if a + i ≤ k ∧ k < a + i + bs.length then bs.getD (k - (a + i)) 0 else SMap.get 0 s.mem k := by
  have hpos : 0 < bs.length := List.length_pos_iff.2 hn
  have hlo : (a + i) / 32 * 32 = a := by omega
  have hhi : (a + i + bs.length + 31) / 32 * 32 = a + 32 := by omega
  unfold State.writeMerged State.writeMergedBad
  dsimp only
  rw [hlo, hhi, Nat.add_sub_cancel_left a i, State.writeDev_granule hp
      (by simp only [List.length_append, State.readB_length]; omega),
    SMap.get_setRange hm]
  simp only [List.length_append, State.readB_length]
  rw [List.append_assoc]
  by_cases hin : a ≤ k ∧ k < a + 32
  · rw [if_pos (by omega)]
    rcases Nat.lt_or_ge (k - a) i with hk | hk
    · rw [List.getD_append _ _ _ _ (by rwa [State.readB_length]), State.readB_getD hm (by omega), if_neg (by omega),
        show a + (k - a) = k by omega]
    · rw [List.getD_append_right _ _ _ _ (by rwa [State.readB_length]), State.readB_length]
      rcases Nat.lt_or_ge (k - a - i) bs.length with hk' | hk'
      · rw [List.getD_append _ _ _ _ hk', if_pos (by omega), show k - (a + i) = k - a - i by omega]
      · rw [List.getD_append_right _ _ _ _ hk', State.readB_getD hm (by omega), if_neg (by omega),
          show a + i + bs.length + (k - a - i - bs.length) = k by omega]
  · rw [if_neg (by omega), if_neg (by omega)]

end
end Sys2Proof.Machine
end

section
namespace Sys2Proof.Machine

/-! ### A completion stands in its descriptor (08 R203, R205, R208) -/

section
variable {s t : State} {e : Fin 5} {a status residue time seq : Nat} {d : DmaDesc}

/-- STATUS, RESIDUE, TIME and SEQ as they are written. -/
def doneBytes (status residue time seq : Nat) : List Byte :=
  leBytes 4 status ++ leBytes 4 residue ++ leBytes 8 time ++ leBytes 4 seq ++ zeroBytes 4

theorem doneBytes_length (status residue time seq : Nat) : (doneBytes status residue time seq).length = 24 := rfl

/-- The fields of a completion stand in the descriptor at an address, whose OWN is 0. -/
structure State.Back (t : State) (a : Nat) (d : DmaDesc) (status residue time seq : Nat) : Prop where
  /-- STATUS and what follows it. -/
  done : t.readB (a + 0x28) 24 = doneBytes status residue time seq
  /-- CTRL. -/
  ctrl : t.readB a 4 = leBytes 4 (d.ctrl % 2 ^ 31)

theorem State.Back.fields (h : t.Back a d status residue time seq) (hm : Memory.wf t.mem = true) :
    t.readLe (a + 0x28) 4 = status % 2 ^ 32 ∧ t.readLe (a + 0x2C) 4 = residue % 2 ^ 32 ∧
    t.readLe (a + 0x30) 8 = time % 2 ^ 64 ∧ t.readLe (a + 0x38) 4 = seq % 2 ^ 32 ∧
    t.readLe a 4 = d.ctrl % 2 ^ 31 := by
  have hfield {i n v : Nat} (hi : i + n ≤ 24)
      (hv : ((doneBytes status residue time seq).drop i).take n = leBytes n v) :
      t.readLe (a + 0x28 + i) n = v % 256 ^ n := by
    unfold State.readLe
    rw [State.readB_within hm hi, h.done, hv, leNat_leBytes]
  refine ⟨hfield (i := 0) (n := 4) (by decide) rfl, hfield (i := 4) (n := 4) (by decide) rfl,
    hfield (i := 8) (n := 8) (by decide) rfl, hfield (i := 16) (n := 4) (by decide) rfl, ?_⟩
  unfold State.readLe
  rw [h.ctrl, leNat_leBytes]
  omega

theorem State.canFetch_aligned (h : s.canFetch e a = true) : a % 64 = 0 := by
  unfold State.canFetch at h
  simp only [Bool.and_eq_true, beq_iff_eq] at h
  exact h.1

theorem State.backOk_aligned (h : s.backOk e a = true) : a % 64 = 0 := by
  unfold State.backOk at h
  simp only [Bool.and_eq_true] at h
  exact State.canFetch_aligned h.1.1

theorem State.writeBack_gate (s : State) (e : Fin 5) (a : Nat) (d : DmaDesc) (status residue time seq : Nat) :
    (s.writeBack e a d status residue time seq).hbm.gate = s.hbm.gate := by
  unfold State.writeBack
  extract_lets s1 s2
  have h1 : State.Via [.freeCtr, .cnt] s s1 := by
    unfold s1
    split
    · exact State.egress_via (.refl _ s) (by decide)
    · exact State.yieldsAt_via (.refl _ s) (by decide)
  have h2 : s2.hbm.gate = s.hbm.gate := (State.writeMerged_gate _ _ _).trans ((s1.writeMerged_gate _ _).trans h1.gate)
  split
  · rfl
  · split
    · exact (State.countPages_via (M := [.cnt]) (.refl _ s2) (by decide)).gate.trans h2
    · exact h2

/-- A completion that may be written back changes CTRL and the bytes from STATUS on. -/
theorem State.writeBack_get (hok : s.backOk e a = true) (hp : plainMem a)
    (hm : Memory.wf s.mem = true) (k : Nat) : SMap.get 0 (s.writeBack e a d status residue time seq).mem k =
      if a ≤ k ∧ k < a + 4 then (leBytes 4 (d.ctrl % 2 ^ 31)).getD (k - a) 0
      else if a + 0x28 ≤ k ∧ k < a + 0x40 then (doneBytes status residue time seq).getD (k - (a + 0x28)) 0
      else SMap.get 0 s.mem k := by
  have ha := State.backOk_aligned hok
  unfold State.writeBack
  extract_lets s1 s2
  have h1 : s1.mem = s.mem := by
    unfold s1
    split
    · exact State.count_mem _ _ _ _
    · exact (State.yieldsAt_via (M := [.freeCtr, .cnt]) (.refl _ s) (by decide)).only .mem (by decide)
  have hm1 : Memory.wf s1.mem = true := by rwa [h1]
  have hmid : SMap.get 0 (s1.writeMerged (a + 32 + 8) (doneBytes status residue time seq)).mem k = _ :=
    State.writeMerged_get hm1 (hp.second ha) (by omega) (by exact List.cons_ne_nil _ _) (by exact le_rfl) k
  have hm2 : Memory.wf (s1.writeMerged (a + 32 + 8) (doneBytes status residue time seq)).mem = true :=
    ((State.writeMerged_via (M := [.upsets, .mem, .poison, .wbQueue, .cnt, .hbm]) (.refl _ s1) (by decide)).told
      (by decide)).wf hm1
  have h2 : SMap.get 0 s2.mem k = _ :=
    State.writeMerged_get (a := a) (i := 0) (bs := leBytes 4 (d.ctrl % 2 ^ 31)) hm2 hp (by omega)
      (by exact List.cons_ne_nil _ _) (by rw [leBytes_length]; decide) k
  have h3 : (if inHbm a = true then s2.countPages hWrite a backBytes else s2).mem = s2.mem := by
    split
    · exact (State.countPages_via (M := [.cnt]) (.refl _ s2) (by decide)).only .mem (by decide)
    · rfl
  rw [hok, Bool.not_true, if_neg Bool.false_ne_true, h3, h2, hmid, h1, doneBytes_length, leBytes_length]
  exact if_congr (by omega) rfl (if_congr (by omega) rfl rfl)

/-- A memory that agrees with a completion written back holds it. -/
theorem State.back_of_writeBack (hok : s.backOk e a = true) (hp : plainMem a) (hm : Memory.wf s.mem = true)
    (ht : Memory.wf t.mem = true) (h : ∀ k, k < 64 → SMap.get 0 t.mem (a + k) =
      SMap.get 0 (s.writeBack e a d status residue time seq).mem (a + k)) : t.Back a d status residue time seq := by
  refine ⟨State.readB_of_get (bs := doneBytes status residue time seq) ht fun i hi => ?_,
    State.readB_of_get (bs := leBytes 4 (d.ctrl % 2 ^ 31)) ht fun i hi => ?_⟩
  · rw [doneBytes_length] at hi
    rw [Nat.add_assoc, h _ (by omega), State.writeBack_get hok hp hm, if_neg (by omega), if_pos (by omega),
      show a + (0x28 + i) - (a + 0x28) = i by omega]
  · rw [leBytes_length] at hi
    rw [h _ (by omega), State.writeBack_get hok hp hm, if_pos (by omega), Nat.add_sub_cancel_left]

end

/-! ### A descriptor completes (08 R208, R214) -/

section
variable {s t u : State} {e e' : Fin 5} {c c' : Fin 8} {status residue : Nat} {halts : Bool} {x : Channel}

/-- Nothing is changed by functions that agree on the channel as it stands. -/
theorem State.updChan_congr {g g' : Channel → Channel} (h : g (s.chan e c) = g' (s.chan e c)) :
    s.updChan e c g = s.updChan e c g' := by
  have h : g (s.dma[e]).ch[c] = g' (s.dma[e]).ch[c] := h
  unfold State.updChan
  dsimp only
  rw [h]

theorem State.unfull_chans (s : State) (e e' : Fin 5) (c c' : Fin 8) :
    (s.unfull e c).chan e' c' = s.chan e' c' := by
  unfold State.chan State.unfull
  simp only [Fin.getElem_fin, Vector.getElem_set]
  by_cases h : e.val = e'.val
  · simp [h]
  · simp [h]

/-- The channel once its descriptor has completed: halted, or at its next descriptor, or idle (R208 step 6, R214). -/
def Channel.ended (x : Channel) (halts : Bool) : Channel :=
  let nxt := if halts then none else x.nextAt
  { Channel.reset with
    phase := if halts then .halted else if nxt.isSome then .fetching else .idle
    at_ := nxt.getD x.at_, store := x.store, latch := true, seq := (x.seq + 1) % 2 ^ 32 }

/-- A completion counted. -/
def State.tallied (s : State) (e : Fin 5) (c : Fin 8) (status : Nat) : State :=
  let u := (s.unfull e c).count (srcDma e c) dDone 1
  if status = 0 then u else u.count (srcDma e c) (dError status) 1

/-- A completion counted and written back (R208 steps 1 to 4). -/
def State.completed (s : State) (e : Fin 5) (c : Fin 8) (status residue : Nat) : State :=
  let x := s.chan e c
  match x.at_ with
  | .mem a => (s.tallied e c status).writeBack e a x.desc status residue (x.lastAt.getD s.tk.now) ((x.seq + 1) % 2 ^ 32)
  | .tmpl i => (s.tallied e c status).tmplDone ⟨i, status, residue, x.lastAt.getD s.tk.now, (x.seq + 1) % 2 ^ 32⟩

/-- The records of a completion (R208 step 5, R214). -/
def State.reported (s : State) (e : Fin 5) (c : Fin 8) (x : Channel) (status residue : Nat) (halts : Bool) : State :=
  let id := match x.at_ with | .mem a => leBytes 8 a | .tmpl i => fitBytes 8 (leBytes 2 i)
  let s := if x.desc.irq || halts then
      s.event 0x0070 (srcDma e c) 0 (id ++ leBytes 4 status ++ leBytes 4 residue ++ leBytes 4 ((x.seq + 1) % 2 ^ 32))
    else s
  if halts then s.fault status (srcDma e c) (dmaRegion e) (dmaBlock e) 0 [] else s

/-- The channel as its next descriptor finds it, but for its latch. -/
def State.channelEnds (s : State) (e : Fin 5) (c : Fin 8) (x : Channel) (halts : Bool) : State :=
  (s.updChan e c (fun y => { x.ended halts with latch := y.latch })).setLatch e c

theorem State.tallied_via (s : State) (e : Fin 5) (c : Fin 8) (status : Nat) :
    State.Via [.cnt, .dma] s (s.tallied e c status) := by
  unfold State.tallied
  extract_lets u
  have hu : State.Via [.cnt, .dma] s u := State.count_via (State.unfull_via (.refl _ s) (by decide)) (by decide)
  split
  · exact hu
  · exact State.count_via hu (by decide)

theorem State.tallied_chan (s : State) (e e' : Fin 5) (c c' : Fin 8) (status : Nat) :
    (s.tallied e c status).chan e' c' = s.chan e' c' := by
  unfold State.tallied
  extract_lets u
  have hu : u.chan e' c' = s.chan e' c' := by
    unfold u
    rw [State.chan_of_dma (State.count_dma _ _ _ _), State.unfull_chans]
  split
  · exact hu
  · rw [State.chan_of_dma (State.count_dma _ _ _ _), hu]

/-- The two ways in which a completion goes out: to the descriptor in memory, or to the template's fields. -/
theorem State.completed_eq (s : State) (e : Fin 5) (c : Fin 8) (status residue : Nat) :
    (∃ a, (s.chan e c).at_ = .mem a ∧ s.completed e c status residue = (s.tallied e c status).writeBack e a
      (s.chan e c).desc status residue ((s.chan e c).lastAt.getD s.tk.now) (((s.chan e c).seq + 1) % 2 ^ 32)) ∨
    ∃ i d, (s.chan e c).at_ = .tmpl i ∧ s.completed e c status residue = (s.tallied e c status).tmplDone d := by
  unfold State.completed
  dsimp only
  cases (s.chan e c).at_ with
  | mem a => exact .inl ⟨a, rfl, rfl⟩
  | tmpl i => exact .inr ⟨i, _, rfl, rfl⟩

theorem State.completed_via (s : State) (e : Fin 5) (c : Fin 8) (status residue : Nat) :
    State.Via [.freeCtr, .upsets, .mem, .poison, .wbQueue, .cnt, .hbm, .dma, .tmplStatus] s
      (s.completed e c status residue) := by
  have ht := (s.tallied_via e c status).mono
    (M := [.freeCtr, .upsets, .mem, .poison, .wbQueue, .cnt, .hbm, .dma, .tmplStatus]) (by decide)
  obtain ⟨a, -, h⟩ | ⟨i, d, -, h⟩ := s.completed_eq e c status residue
  · rw [h]
    exact State.writeBack_via ht (by decide)
  · rw [h]
    exact State.tmplDone_via ht (by decide)

theorem State.completed_chan (s : State) (e e' : Fin 5) (c c' : Fin 8) (status residue : Nat) :
    (s.completed e c status residue).chan e' c' = s.chan e' c' := by
  obtain ⟨a, -, h⟩ | ⟨i, d, -, h⟩ := s.completed_eq e c status residue
  · rw [h, (State.writeBack_via (M := [.freeCtr, .upsets, .mem, .poison, .wbQueue, .cnt, .hbm]) (.refl _ _)
      (by decide)).chan, State.tallied_chan]
  · rw [h, (State.tmplDone_via (M := [.tmplStatus]) (.refl _ _) (by decide)).chan, State.tallied_chan]

theorem State.completed_gate (s : State) (e : Fin 5) (c : Fin 8) (status residue : Nat) :
    (s.completed e c status residue).hbm.gate = s.hbm.gate := by
  obtain ⟨a, -, h⟩ | ⟨i, d, -, h⟩ := s.completed_eq e c status residue
  · rw [h, State.writeBack_gate, (s.tallied_via e c status).gate]
  · rw [h, (State.tmplDone_via (M := [.tmplStatus]) (.refl _ _) (by decide)).gate, (s.tallied_via e c status).gate]

theorem State.reported_via (s : State) (e : Fin 5) (c : Fin 8) (x : Channel) (status residue : Nat) (halts : Bool) :
    State.Via [.out, .ring, .cnt, .note] s (s.reported e c x status residue halts) := by
  unfold State.reported
  extract_lets id u
  have hu : State.Via [.out, .ring, .cnt, .note] s u := by
    unfold u
    split
    · exact State.event_via (.refl _ s) (by decide)
    · exact .refl _ s
  split
  · exact State.fault_via hu (by decide)
  · exact hu

theorem State.channelEnds_via (s : State) (e : Fin 5) (c : Fin 8) (x : Channel) (halts : Bool) :
    State.Via [.cnt, .dma] s (s.channelEnds e c x halts) :=
  State.setLatch_via (State.updChan_via (.refl _ s) (by decide)) (by decide)

theorem State.setLatch_chan (s : State) (e : Fin 5) (c : Fin 8) :
    (s.setLatch e c).chan e c = { s.chan e c with latch := true } := by
  unfold State.setLatch
  split
  case isTrue h =>
    rw [State.chan_of_dma (State.count_dma _ _ _ _), ← h]
  case isFalse => exact State.updChan_chan _ _ _ _

theorem State.setLatch_other (s : State) (h : (e', c') ≠ (e, c)) : (s.setLatch e c).chan e' c' = s.chan e' c' := by
  unfold State.setLatch
  split
  · exact State.chan_of_dma (State.count_dma _ _ _ _)
  · exact State.updChan_other _ _ fun q => h (by rw [q.1, q.2])

theorem State.channelEnds_chan (s : State) (e : Fin 5) (c : Fin 8) (x : Channel) (halts : Bool) :
    (s.channelEnds e c x halts).chan e c = x.ended halts := by
  unfold State.channelEnds
  rw [State.setLatch_chan, State.updChan_chan]
  rfl

theorem State.channelEnds_other (h : (e', c') ≠ (e, c)) :
    (s.channelEnds e c x halts).chan e' c' = s.chan e' c' := by
  unfold State.channelEnds
  rw [State.setLatch_other _ h, State.updChan_other _ _ fun q => h (by rw [q.1, q.2])]

theorem State.drained_waiting (s : State) : s.drained.hbm.waiting = s.hbm.waiting := by
  unfold State.drained
  extract_lets busy
  split
  · rw [State.count_hbm]
    rfl
  · rfl

/-- A completion where no START is pending: counted and written back, reported, and its channel moved on. -/
theorem State.finishDesc_eq (hs : s.sched.start = none) : s.finishDesc e c status residue halts =
    (((s.completed e c status residue).reported e c (s.chan e c) status residue
      (haltingStatus status halts)).channelEnds e c (s.chan e c) (haltingStatus status halts)).drained := by
  have hvia : State.Via [.freeCtr, .out, .upsets, .mem, .ring, .poison, .wbQueue, .cnt, .hbm, .dma, .tmplStatus, .note]
      s ((s.completed e c status residue).reported e c (s.chan e c) status residue (haltingStatus status halts)) :=
    ((s.completed_via e c status residue).mono (by decide)).upd (State.reported_via _ e c _ _ _ _) (by decide)
  have hchan := State.completed_chan s e e c c status residue
  rw [← (State.reported_via (s.completed e c status residue) e c (s.chan e c) status residue
    (haltingStatus status halts)).chan] at hchan
  generalize hw : (s.completed e c status residue).reported e c (s.chan e c) status residue
    (haltingStatus status halts) = w at hvia hchan ⊢
  have hnone : (w.channelEnds e c (s.chan e c) (haltingStatus status halts)).sched.start = none := by
    rw [(w.channelEnds_via e c _ _).only .sched (by decide), hvia.only .sched (by decide)]
    exact hs
  have hends : w.channelEnds e c (s.chan e c) (haltingStatus status halts) = (w.updChan e c (fun y =>
      { Channel.reset with
        phase := ((s.chan e c).ended (haltingStatus status halts)).phase
        at_ := (if haltingStatus status halts then none else (s.chan e c).nextAt).getD y.at_
        store := y.store, latch := y.latch, seq := ((s.chan e c).seq + 1) % 2 ^ 32 })).setLatch e c := by
    unfold State.channelEnds
    rw [State.updChan_congr]
    rw [hchan]
    rfl
  have hpre (n : Option DescAt) : (if n.isSome then w.channelEnds e c (s.chan e c) (haltingStatus status halts)
      else (w.channelEnds e c (s.chan e c) (haltingStatus status halts)).preloadEnd e c) =
      w.channelEnds e c (s.chan e c) (haltingStatus status halts) := by
    rw [State.preloadEnd_none hnone, ite_self]
  rw [← hpre (if haltingStatus status halts then none else (s.chan e c).nextAt), hends, ← hw]
  rfl

end
end Sys2Proof.Machine
end

section
namespace Sys2Proof.Machine

/-! ### What a completion finds as it stood -/

section
variable {s t u v : State} {e e' : Fin 5} {c c' : Fin 8} {K : List Change} {X : Nat → Prop} {a status residue n : Nat}
  {halts : Bool}

/-- Records that are placed go where records went. -/
theorem State.Told.recordByte (h : State.Told X s t) (ha : t.recordByte a) : s.recordByte a := by
  obtain ⟨hsize, hslot⟩ := State.heard_ring h.host
  unfold State.recordByte at ha
  rw [hsize, hslot] at ha
  rcases ha with ha | ⟨i, hi | hi, hb⟩
  · exact .inl ha
  · exact .inr ⟨i, .inl hi, hb⟩
  · rcases h.put with hp | hp
    · exact .inr ⟨i, .inr (hi.trans hp), hb⟩
    · exact .inr ⟨i, .inl (hi ▸ hp), hb⟩

/-- No START becomes pending, and no command waits. -/
theorem State.Via.quiet (h : State.Via K s t) (hq : s.quiet)
    (hk : .sched ∉ K.map Change.field ∧ .host ∉ K := by decide) : t.quiet := by
  obtain ⟨hs, hd⟩ := hq
  have hsched : t.sched = s.sched := h.only .sched hk.1
  exact ⟨hsched ▸ hs, (congrArg (·.2.2.2) (h.work hk.2)).trans hd⟩

theorem State.Via.canFetch (h : State.Via K s t) (hp : t.hbm.phase = s.hbm.phase)
    (e : Fin 5) (a : Nat) (hk : .sched ∉ K.map Change.field := by decide) : t.canFetch e a = s.canFetch e a := by
  have hsched : t.sched = s.sched := h.only .sched hk
  unfold State.canFetch State.hbmMapped State.localReach State.partitions
  rw [hp, hsched]

theorem State.Via.backOk (h : State.Via K s t) (hp : t.hbm.phase = s.hbm.phase) (e : Fin 5) (a : Nat)
    (hk : .sched ∉ K.map Change.field ∧ .jnl ∉ K.map Change.field ∧ .host ∉ K := by decide)
    (ha : .ap ∉ K.map Change.field := by decide) : t.backOk e a = s.backOk e a := by
  have hap : t.ap = s.ap := h.only .ap ha
  unfold State.backOk
  rw [h.canFetch hp e a hk.1, h.hbmWritable hp hk, hap]

/-- A descriptor in HBM that may be written takes its completion (06 R160; 08 R203). -/
theorem State.backOk_hbm (hf : s.canFetch e a = true) (hp : placeOf a = .hbm) (hw : s.hbmWritable a 64 = true) :
    s.backOk e a = true := by
  unfold State.backOk inHbm
  simp [hf, hp, hw]

/-! ### What a completion leaves (08 R208, R214) -/

theorem State.completed_mem (hx : (s.chan e c).at_ = .mem a) (status residue : Nat) :
    s.completed e c status residue = (s.tallied e c status).writeBack e a (s.chan e c).desc status residue
      ((s.chan e c).lastAt.getD s.tk.now) (((s.chan e c).seq + 1) % 2 ^ 32) := by
  obtain ⟨b, hb, h⟩ | ⟨i, d, hi, -⟩ := s.completed_eq e c status residue
  · rw [hx] at hb
    cases hb
    exact h
  · rw [hx] at hi
    cases hi

/-- What follows the write of a completion: records, and the channel and the stack moved on. -/
theorem State.finishDesc_after (hs : s.sched.start = none) : State.Via [.out, .ring, .cnt, .hbm, .dma, .note]
    (s.completed e c status residue) (s.finishDesc e c status residue halts) := by
  rw [State.finishDesc_eq hs]
  exact State.drained_via (((State.reported_via _ e c _ _ _ _).mono (by decide)).upd (State.channelEnds_via _ e c _ _)
    (by decide)) (by decide)

theorem State.finishDesc_quiet_via (hs : s.sched.start = none) :
    State.Via [.freeCtr, .out, .upsets, .mem, .ring, .poison, .wbQueue, .cnt, .hbm, .dma, .tmplStatus, .note] s
      (s.finishDesc e c status residue halts) :=
  ((s.completed_via e c status residue).mono (by decide)).upd (State.finishDesc_after hs) (by decide)

theorem State.finishDesc_chan (hs : s.sched.start = none) : (s.finishDesc e c status residue halts).chan e c =
    (s.chan e c).ended (haltingStatus status halts) := by
  rw [State.finishDesc_eq hs, (State.drained_via (M := [.cnt, .hbm]) (.refl _ _) (by decide)).chan,
    State.channelEnds_chan]

theorem State.finishDesc_other (hs : s.sched.start = none) (h : (e', c') ≠ (e, c)) :
    (s.finishDesc e c status residue halts).chan e' c' = s.chan e' c' := by
  rw [State.finishDesc_eq hs, (State.drained_via (M := [.cnt, .hbm]) (.refl _ _) (by decide)).chan,
    State.channelEnds_other h, (State.reported_via _ e c _ _ _ _).chan, State.completed_chan]

theorem State.finishDesc_waiting (hs : s.sched.start = none) :
    (s.finishDesc e c status residue halts).hbm.waiting = s.hbm.waiting := by
  have hv : State.Via [.out, .ring, .cnt, .dma, .note] (s.completed e c status residue)
      (((s.completed e c status residue).reported e c (s.chan e c) status residue
        (haltingStatus status halts)).channelEnds
        e c (s.chan e c) (haltingStatus status halts)) :=
    ((State.reported_via _ e c _ _ _ _).mono (by decide)).upd (State.channelEnds_via _ e c _ _) (by decide)
  rw [State.finishDesc_eq hs, State.drained_waiting, hv.only .hbm (by decide)]
  exact congrArg (·.2.2) (s.completed_gate e c status residue)

/-- The completion stands in the descriptor, and no byte outside it changes but where records go. -/
theorem State.finishDesc_mem (hs : s.sched.start = none) (hx : (s.chan e c).at_ = .mem a) (hok : s.backOk e a = true)
    (hp : plainMem a) (hm : Memory.wf s.mem = true) (hr : ∀ k, k < 64 → ¬ s.recordByte (a + k)) :
    (s.finishDesc e c status residue halts).Back a (s.chan e c).desc status residue
      ((s.chan e c).lastAt.getD s.tk.now) (((s.chan e c).seq + 1) % 2 ^ 32) ∧
    ∀ b, ¬ s.recordByte b → b < a ∨ a + 64 ≤ b →
      SMap.get 0 (s.finishDesc e c status residue halts).mem b = SMap.get 0 s.mem b := by
  have hback : s.completed e c status residue = _ :=
    State.completed_mem hx status residue
  have hu := s.tallied_via e c status
  have hdone := s.completed_via e c status residue
  have hafter := State.finishDesc_after (e := e) (c := c) (status := status) (residue := residue) (halts := halts) hs
  have hwf := (hdone.told (by decide)).wf hm
  have humem : (s.tallied e c status).mem = s.mem := hu.only .mem (by decide)
  have hrec {b : Nat} (hb : ¬ s.recordByte b) : SMap.get 0 (s.finishDesc e c status residue halts).mem b =
      SMap.get 0 (s.completed e c status residue).mem b :=
    hafter.quietly.mem hwf b (fun q => hb ((hdone.told (by decide)).recordByte q)) id
  have huok : (s.tallied e c status).backOk e a = true := (hu.backOk hu.hbmPhase e a).trans hok
  have huwf : Memory.wf (s.tallied e c status).mem = true := humem ▸ hm
  refine ⟨State.back_of_writeBack huok hp huwf (hafter.quietly.wf hwf) fun k hk => ?_, fun b hb hout => ?_⟩
  · rw [hrec (hr k hk), hback]
  · rw [hrec hb, hback, State.writeBack_get huok hp huwf, if_neg (by omega), if_neg (by omega), humem]

end

/-! ### Up to a completion (08 R219; 07 R193) -/

section
variable {s t u v : State} {e : Fin 5} {c : Fin 8} {K : List Change} {a status residue n prio : Nat} {halts : Bool}
  {w : BucketUser}

/-- Kinds of change between the end of a transfer and its completion. -/
def endKinds : List Change := [.out, .ring, .cnt, .facets, .hbm, .dma, .exp, .cnd, .note]

/-- What a completion depends on stands in `t` as in `s`. -/
structure State.Closing (s t : State) : Prop where
  /-- Memory and what protects HBM are as they were. -/
  via : State.Via endKinds s t
  /-- So are the channels. -/
  chans : ∀ e c, t.chan e c = s.chan e c
  /-- So is the stack's phase. -/
  phase : t.hbm.phase = s.hbm.phase

theorem State.Closing.trans (h : s.Closing t) (h' : t.Closing u) : s.Closing u :=
  ⟨h.via.upd h'.via (List.Subset.refl _), fun e c => (h'.chans e c).trans (h.chans e c), h'.phase.trans h.phase⟩

theorem State.Closing.of_via (h : State.Via K s t) (hk : K ⊆ endKinds := by decide)
    (hb : .hbm ∉ K.map Change.field := by decide) (hd : .dma ∉ K.map Change.field := by decide) : s.Closing t :=
  ⟨h.mono hk, fun _ _ => h.chan hd, h.hbmPhase hb⟩

theorem State.charged_closing (s : State) (n : Nat) : s.Closing (s.charged n) :=
  ⟨(s.charged_via n).mono (by decide), fun _ _ => (s.charged_via n).chan, by rw [State.charged_hbm]⟩

theorem State.letGo_closing (s : State) (e : Fin 5) (c : Fin 8) : s.Closing (s.letGo e c) := by
  refine ⟨(State.letGo_via (M := [.hbm, .dma, .exp, .cnd]) (.refl _ s) (by decide)).mono (by decide), fun e' c' => ?_,
    s.letGo_phase e c⟩
  unfold State.letGo
  extract_lets k u
  have hu : u.chan e' c' = s.chan e' c' := State.unfull_chans _ e e' c c'
  split
  · exact (State.dropBlocks_via (M := [.hbm, .exp, .cnd]) (.refl _ u) (by decide)).chan.trans hu
  · exact hu

theorem State.dropBlocks_waiting (s : State) (p : Fin 4) (k : Nat) :
    (s.dropBlocks p k).hbm.waiting ⊆ s.hbm.waiting := by
  unfold State.dropBlocks
  extract_lets u v
  have hu : u.hbm.waiting ⊆ s.hbm.waiting := by
    unfold u
    split
    · exact List.filter_sublist.subset
    · exact List.Subset.refl _
  split
  · exact List.Subset.trans List.filter_sublist.subset hu
  · exact hu

/-- Nothing of a channel that has let go waits on the bucket. -/
def State.LetGo (t : State) (e : Fin 5) (c : Fin 8) : Prop :=
  ∀ w ∈ t.hbm.waiting, w.user ∉ [BucketUser.chan (chanNo e c), .fetch (chanNo e c), .back (chanNo e c)]

theorem State.letGo_letGo (s : State) (e : Fin 5) (c : Fin 8) : (s.letGo e c).LetGo e c := by
  have hthree : ∀ w ∈ ((((s.unwait (.chan (chanNo e c))).unwait (.fetch (chanNo e c))).unwait
      (.back (chanNo e c))).unfull e c).hbm.waiting,
      w.user ∉ [BucketUser.chan (chanNo e c), .fetch (chanNo e c), .back (chanNo e c)] := by
    intro w hw
    have hw : w ∈ ((s.hbm.waiting.filter (fun w => w.user != .chan (chanNo e c))).filter
      (fun w => w.user != .fetch (chanNo e c))).filter (fun w => w.user != .back (chanNo e c)) := hw
    simp only [List.mem_filter, bne_iff_ne] at hw
    simp [hw]
  unfold State.letGo
  extract_lets k u
  split
  · exact fun w hw => hthree w (State.dropBlocks_waiting u _ _ hw)
  · exact hthree

/-- Where a grant passes: at once, or on the way into self-refresh for a transfer that is left (06 R164, R173). -/
theorem State.bucketPass_passes (h : s.hbm.phase = .draining ∨ s.grants w n prio)
    (ho : s.hbm.phase = .draining → s.hbmOpen w = true) : s.bucketPass w n prio = (true, s.charged n) := by
  rcases h with h | h
  · unfold State.bucketPass State.charged
    split
    · rfl
    · rw [ho h, Bool.not_true, if_neg Bool.false_ne_true]
  · exact State.bucketPass_granted h

/-- The end of a descriptor: its channel moved on, its completion in the descriptor. -/
structure State.EndsDesc (s : State) (e : Fin 5) (c : Fin 8) (status residue : Nat) (halts : Bool) (t : State) : Prop
    where
  /-- Where the channel stands. -/
  chan : t.chan e c = (s.chan e c).ended (haltingStatus status halts)
  /-- The other channels are as they were. -/
  other : ∀ e' c', (e', c') ≠ (e, c) → t.chan e' c' = s.chan e' c'
  /-- A completion that may be written back stands there, beside what was there. -/
  back : ∀ a, (s.chan e c).at_ = .mem a → s.backOk e a = true → plainMem a → Memory.wf s.mem = true →
    (∀ k, k < 64 → ¬ s.recordByte (a + k)) → Memory.wf t.mem = true ∧
    t.Back a (s.chan e c).desc status residue ((s.chan e c).lastAt.getD s.tk.now) (((s.chan e c).seq + 1) % 2 ^ 32) ∧
    ∀ b, ¬ s.recordByte b → b < a ∨ a + 64 ≤ b → SMap.get 0 t.mem b = SMap.get 0 s.mem b
  /-- The frame. -/
  via : State.Via [.freeCtr, .out, .upsets, .mem, .ring, .poison, .wbQueue, .cnt, .facets, .hbm, .dma, .tmplStatus,
    .exp, .cnd, .note] s t

theorem State.Closing.ends (h : s.Closing v) (hq : s.sched.start = none) :
    s.EndsDesc e c status residue halts (v.finishDesc e c status residue halts) := by
  have hv : v.sched.start = none := by
    rw [h.via.only .sched (by decide)]
    exact hq
  have hafter := State.finishDesc_quiet_via (e := e) (c := c) (status := status) (residue := residue)
    (halts := halts) hv
  refine ⟨?_, fun e' c' hne => ?_, fun a hx hok hp hm hr => ?_, (h.via.mono (by decide)).upd hafter (by decide)⟩
  · rw [State.finishDesc_chan hv, h.chans]
  · rw [State.finishDesc_other hv hne, h.chans]
  · have htold := h.via.quietly
    have hm' := htold.wf hm
    have hr' {b : Nat} (hb : ¬ s.recordByte b) : ¬ v.recordByte b := fun q => hb (htold.recordByte q)
    obtain ⟨hback, hout⟩ := State.finishDesc_mem (status := status) (residue := residue) (halts := halts) hv
      (by rw [h.chans]; exact hx) ((h.via.backOk h.phase e a).trans hok) hp hm' fun k hk => hr' (hr k hk)
    rw [h.chans, show v.tk = s.tk from h.via.only .tk (by decide)] at hback
    refine ⟨(hafter.told (by decide)).wf hm', hback, fun b hb hab => ?_⟩
    rw [hout b (hr' hb) hab, htold.mem hm b hb id]

/-- What a transfer's end leaves before its completion. -/
def State.transferClosed (s : State) (e : Fin 5) (c : Fin 8) (status : Nat) : State :=
  let x := s.chan e c
  (((s.charged (s.backCost e x.at_)).letGo e c).endResv e c x.stop.isNone).condFault e status

/-- The status and the residue of a transfer that ends. -/
def Channel.verdict (x : Channel) : Nat := match x.stop with | some st => st | none => x.outcome
def Channel.rest (x : Channel) : Nat := if x.verdict = 0x0252 then x.desc.len else x.residue x.verdict

theorem State.transferClosed_closing (s : State) (e : Fin 5) (c : Fin 8) (status : Nat) :
    s.Closing (s.transferClosed e c status) :=
  ((s.charged_closing _).trans (State.letGo_closing _ e c)).trans
    (.of_via (K := [.out, .ring, .cnt, .facets, .note])
      (State.condFault_via (State.endResv_via (.refl _ _) (by decide)) (by decide)))

theorem State.transferClosed_letGo (s : State) (e : Fin 5) (c : Fin 8) (status : Nat) :
    (s.transferClosed e c status).LetGo e c := by
  have hv : State.Via [.out, .ring, .cnt, .facets, .note] ((s.charged (s.backCost e (s.chan e c).at_)).letGo e c)
      (s.transferClosed e c status) := State.condFault_via (State.endResv_via (.refl _ _) (by decide)) (by decide)
  unfold State.LetGo
  rw [hv.only .hbm (by decide)]
  exact State.letGo_letGo _ e c

theorem State.transferEnds_passes (hrun : (s.chan e c).phase = .running) (hopen : s.beamOpen (chanNo e c) = false)
    (hmoved : (s.chan e c).stop = none → s.moved e c = true)
    (hpass : s.hbm.phase = .draining ∨
      s.grants (.back (chanNo e c)) (s.backCost e (s.chan e c).at_) (s.chan e c).desc.prio) :
    s.transferEnds e c = (s.transferClosed e c (s.chan e c).verdict).finishDesc e c (s.chan e c).verdict
      (s.chan e c).rest false := by
  have hguard : ¬ ((s.chan e c).phase ≠ .running ∨ s.beamOpen (chanNo e c) = true ∨
      ((s.chan e c).stop.isNone = true ∧ s.moved e c = false)) := by
    rintro (h | h | ⟨hnone, h⟩)
    · exact h hrun
    · rw [hopen] at h
      cases h
    · rw [hmoved (Option.isNone_iff_eq_none.1 hnone)] at h
      cases h
  have hback : s.backPass e c = (true, s.charged (s.backCost e (s.chan e c).at_)) :=
    State.bucketPass_passes hpass fun h => by
      unfold State.hbmOpen
      rw [h]
  unfold State.transferEnds
  dsimp only
  rw [if_neg hguard, hback]
  rfl

theorem Channel.outcome_ne_overrun (x : Channel) : x.outcome ≠ 0x0252 := by
  unfold Channel.outcome
  split
  · decide
  · split
    · decide
    · split
      · decide
      · decide

/-- What the abort of a running transfer leaves before its completion is charged. -/
def State.abortClosed (s : State) (e : Fin 5) (c : Fin 8) : State := (s.letGo e c).endResv e c false

/-- The bytes of a completion charged, where it takes any of HBM (06 R165). -/
def State.backCharged (s : State) (e : Fin 5) (c : Fin 8) : State := s.charged (s.backCost e (s.chan e c).at_)

theorem State.endDesc_eq (s : State) (e : Fin 5) (c : Fin 8) (status residue : Nat) (halts : Bool) :
    s.endDesc e c status residue halts = (s.backCharged e c).finishDesc e c status residue halts := by
  unfold State.endDesc State.backCharged State.charged
  rfl

theorem State.abortEnds_started : s.abortEnds e c halts true =
    ((s.abortClosed e c).backCharged e c).finishDesc e c 0x0100 ((s.chan e c).residue 0x0100) halts := by
  unfold State.abortEnds State.abortRunning State.abortClosed
  rw [if_pos rfl]
  exact State.endDesc_eq _ e c _ _ _

theorem State.abortEnds_waiting : s.abortEnds e c halts false =
    (s.backCharged e c).finishDesc e c 0x0100 (s.chan e c).desc.len halts := by
  unfold State.abortEnds State.abortWaiting
  rw [if_neg Bool.false_ne_true]
  exact State.endDesc_eq _ e c _ _ _

theorem State.abortEnds_ends (hq : s.sched.start = none) (started : Bool) :
    s.EndsDesc e c 0x0100 (if started then (s.chan e c).residue 0x0100 else (s.chan e c).desc.len) halts
      (s.abortEnds e c halts started) ∧ (started = true → (s.abortEnds e c halts started).LetGo e c) := by
  cases started with
  | false =>
    rw [State.abortEnds_waiting, if_neg Bool.false_ne_true]
    exact ⟨State.Closing.ends (s.charged_closing _) hq, fun h => by cases h⟩
  | true =>
    have hv : State.Via [.cnt, .facets] (s.letGo e c) (s.abortClosed e c) := State.endResv_via (.refl _ _) (by decide)
    have hclose : s.Closing ((s.abortClosed e c).backCharged e c) :=
      ((s.letGo_closing e c).trans (.of_via hv)).trans (State.charged_closing _ _)
    rw [State.abortEnds_started, if_pos rfl]
    refine ⟨hclose.ends hq, fun _ => ?_⟩
    unfold State.LetGo
    rw [State.finishDesc_waiting (by rw [hclose.via.only .sched (by decide)]; exact hq)]
    unfold State.backCharged
    rw [State.charged_hbm, hv.only .hbm (by decide)]
    exact s.letGo_letGo e c

theorem State.abortDrained_ends {started : Bool} (hp : (s.chan e c).phase = .aborting halts started)
    (hopen : s.beamOpen (chanNo e c) = false)
    (hfree : s.backCost e (s.chan e c).at_ = 0 ∨ s.hbm.phase = .ready ∨ s.hbm.phase = .draining) :
    s.abortDrained e c = s.abortEnds e c halts started := by
  have hmay : s.mayEnd e c = true := by
    unfold State.mayEnd State.hbmOpen
    rcases hfree with h | h | h
    · simp [hopen, h]
    · simp [hopen, h]
    · simp [hopen, h]
  unfold State.abortDrained
  rw [hp]
  exact if_pos hmay

/-- Where the channel stands after an end, and what stands in its descriptor. -/
theorem State.EndsDesc.shows {g : Bool} (h : s.EndsDesc e c status residue halts t)
    (hg : haltingStatus status halts = g) :
    (t.chan e c).phase = (if g then .halted else if (s.chan e c).nextAt.isSome then .fetching else .idle) ∧
    (t.chan e c).seq = ((s.chan e c).seq + 1) % 2 ^ 32 ∧ (t.chan e c).latch = true ∧
    (g = false → ∀ n, (s.chan e c).nextAt = some n → (t.chan e c).at_ = n) ∧
    (∀ e' c', (e', c') ≠ (e, c) → t.chan e' c' = s.chan e' c') ∧
    (∀ a, (s.chan e c).at_ = .mem a → placeOf a = .hbm → s.canFetch e a = true → s.hbmWritable a 64 = true →
      Memory.wf s.mem = true → (∀ k, k < 64 → ¬ s.recordByte (a + k)) →
      t.readLe (a + 0x28) 4 = status % 2 ^ 32 ∧ t.readLe (a + 0x2C) 4 = residue % 2 ^ 32 ∧
      t.readLe (a + 0x30) 8 = (s.chan e c).lastAt.getD s.tk.now % 2 ^ 64 ∧
      t.readLe (a + 0x38) 4 = ((s.chan e c).seq + 1) % 2 ^ 32 ∧
      t.readLe a 4 = (s.chan e c).desc.ctrl % 2 ^ 31) ∧
    State.Only [.freeCtr, .out, .upsets, .mem, .poison, .wbQueue, .cnt, .facets, .hbm, .dma, .tmplStatus, .exp, .cnd,
      .host] s t := by
  refine ⟨?_, ?_, ?_, fun hg0 n hn => ?_, h.other, fun a hx hp hf hw hm hr => ?_, h.via.frame⟩
  · rw [h.chan, hg]
    cases g with
    | true => rfl
    | false => rfl
  · rw [h.chan]
    rfl
  · rw [h.chan]
    rfl
  · rw [h.chan, hg, hg0]
    unfold Channel.ended
    simp [hn]
  · obtain ⟨hwf, hback, -⟩ := h.back a hx (State.backOk_hbm hf hp hw) (.inl hp) hm hr
    obtain ⟨h1, h2, h3, h4, h5⟩ := hback.fields hwf
    exact ⟨h1, h2, h3, h4.trans (Nat.mod_mod _ _), h5⟩

theorem haltingStatus_of_transfer (status : Nat) :
    haltingStatus status false = (false || status == 0x0101 || status == 0x0102 || status == 0x0104) := by
  simp [haltingStatus]

end
end Sys2Proof.Machine

open Sys2Proof Sys2Proof.Machine

/-- Settles O25: up to its completion a transfer's end leaves what the completion depends on, and what follows the
completion are records and the channel moved on. -/
theorem transfersComplete : Obligations.TransfersComplete := by
  unfold Obligations.TransfersComplete
  refine ⟨?_, fun s => ⟨fun e c => ?_, fun e c => ?_⟩⟩
  · intro e c s hq hopen x passes ends letGo
    have hends (hrun : x.phase = .running) (hmoved : x.stop = none → s.moved e c = true) (hpass : passes) :
        ∃ t, exec (.transferComplete e c) s = .next t ∧ ends x.verdict x.rest false t ∧ letGo t := by
      have hclose := s.transferClosed_closing e c x.verdict
      have hdone := hclose.ends (e := e) (c := c) (status := x.verdict) (residue := x.rest) (halts := false) hq.1
      refine ⟨_, ?_, hdone.shows (haltingStatus_of_transfer _), ?_⟩
      · show Host.Outcome.next (s.transferEnds e c).settle = _
        rw [State.transferEnds_passes hrun hopen hmoved hpass]
        exact congrArg Host.Outcome.next (State.settle_quiet (hdone.via.quiet hq))
      · show State.LetGo _ e c
        unfold State.LetGo
        rw [State.finishDesc_waiting (by rw [hclose.via.only .sched (by decide)]; exact hq.1)]
        exact State.transferClosed_letGo s e c _
    refine ⟨fun hrun hstop hmoved hpass => ?_, fun st hrun hstop hpass => ?_, fun halts started hp hfree => ?_⟩
    · have hv : x.verdict = x.outcome := by
        unfold Channel.verdict
        rw [hstop]
      have hr : x.rest = x.residue x.outcome := by
        unfold Channel.rest
        rw [hv, if_neg x.outcome_ne_overrun]
      have h := hends hrun (fun _ => hmoved) hpass
      rwa [hv, hr] at h
    · have hv : x.verdict = st := by
        unfold Channel.verdict
        rw [hstop]
      have hr : x.rest = if st = 0x0252 then x.desc.len else x.residue st := by
        unfold Channel.rest
        rw [hv]
      have h := hends hrun (fun hnone => by rw [hnone] at hstop; cases hstop) hpass
      rwa [hv, hr] at h
    · obtain ⟨hdone, hgo⟩ := State.abortEnds_ends (e := e) (c := c) (halts := halts) hq.1 started
      refine ⟨_, ?_, hdone.shows ?_, hgo⟩
      · show Host.Outcome.next (s.abortDrained e c).settle = _
        rw [State.abortDrained_ends hp hopen hfree]
        exact congrArg Host.Outcome.next (State.settle_quiet (hdone.via.quiet hq))
      · cases halts with
        | true => rfl
        | false => rfl
  · exact (execTransferComplete_via (M := [.freeCtr, .out, .upsets, .mem, .ring, .poison, .wbQueue, .cnt, .facets,
      .sched, .ap, .hbm, .dma, .tmplStatus, .exp, .cnd, .img, .wav, .net, .beam, .host, .note, .jnl, .err, .pwr, .fuse,
      .trust, .ready]) (.refl _ s) (by decide)).next_only ⟨_, rfl⟩
  · exact (execDescriptorAbort_via (M := [.freeCtr, .out, .upsets, .mem, .ring, .poison, .wbQueue, .cnt, .facets,
      .sched, .ap, .hbm, .dma, .tmplStatus, .exp, .cnd, .img, .wav, .net, .beam, .host, .note, .jnl, .err, .pwr, .fuse,
      .trust, .ready]) (.refl _ s) (by decide)).next_only ⟨_, rfl⟩
end

section
namespace Sys2Proof.Machine

/-! ### A descriptor is read (08 R205; 06 R165, R167, R168) -/

section
variable {s t : State} {e e' : Fin 5} {c c' : Fin 8} {a n : Nat} {b : List Byte}

/-- Kinds of change of a read that meets no line of the line store. -/
def readKinds : List Change := [.freeCtr, .upsets, .poison, .wbQueue, .cnt, .hbm, .note, .err]

theorem State.readPieces_outside (n : Nat) : ∀ (s : State) (a : Nat),
    (∀ i, i < n → placeOf (a + 32 * i) ≠ .lineStore) → State.Via readKinds s (s.readPieces a n).2.2 := by
  induction n with
  | zero => exact fun s _ _ => .refl _ s
  | succ n ih =>
    intro s a h
    have hfirst : State.Via readKinds s (s.readPiece a).2.2 := by
      have hv := s.readPiece_place a
      cases hp : placeOf a with
      | lineStore => exact absurd hp (h 0 (by omega))
      | _ => exact hv.mono (by simp [hp, pieceKinds, readKinds])
    refine hfirst.upd (ih _ _ fun i hi => ?_) (List.Subset.refl _)
    have := h (i + 1) (by omega)
    rwa [show a + 32 * (i + 1) = a + 32 + 32 * i by omega] at this

theorem State.readDev_outside (h : ∀ i, i < n / 32 → placeOf (a + 32 * i) ≠ .lineStore) :
    State.Via readKinds s (s.readDev a n).2.2 := by
  unfold State.readDev
  extract_lets u
  have hu : State.Via readKinds s u := by
    unfold u
    split
    · exact State.wakeRange_via (.refl _ s) (by decide)
    · exact .refl _ s
  split
  · exact hu
  · exact State.drawn_via (hu.upd (State.readPieces_outside _ u a h) (List.Subset.refl _)) (by decide)

/-- A descriptor can be fetched from no line of the line store (R203, R205). -/
theorem State.canFetch_outside (h : s.canFetch e a = true) (i : Nat) (hi : i < 2) :
    placeOf (a + 32 * i) ≠ .lineStore := by
  have ha := State.canFetch_aligned h
  have hp : placeOf a ≠ .lineStore := by
    intro hp
    unfold State.canFetch at h
    simp [hp] at h
  rw [Ne, placeOf_lineStore] at hp ⊢
  unfold lineBase at hp ⊢
  omega

/-- The bytes of a descriptor as they are read from an address, and what the reading leaves. -/
def State.fetched (s : State) (a : Nat) : List Byte × State :=
  let w := (s.yieldsAt a).readDev a 64
  (w.1, if inHbm a then w.2.2.countPages hRead a 64 else w.2.2)

theorem State.fetched_via (h : s.canFetch e a = true) : State.Via readKinds s (s.fetched a).2 := by
  have hy : State.Via readKinds s (s.yieldsAt a) := State.yieldsAt_via (.refl _ s) (by decide)
  have hr : State.Via readKinds s ((s.yieldsAt a).readDev a 64).2.2 :=
    hy.upd (State.readDev_outside (State.canFetch_outside h)) (List.Subset.refl _)
  unfold State.fetched
  dsimp only
  split
  · exact State.countPages_via hr (by decide)
  · exact hr

/-- In host memory without errors a descriptor reads as it stands, and nothing changes. -/
theorem State.fetched_host (hc : s.clean) (hp : placeOf a = .host) : s.fetched a = (s.readB a 64, s) := by
  unfold State.fetched State.yieldsAt State.readDev State.plainRange inHbm
  simp [hp, State.cleanRun_clean hc]

/-- What is done with a descriptor that has been read. -/
theorem State.readDesc_eq (s : State) (e : Fin 5) (c : Fin 8) (a : Nat) : s.readDesc e c a =
    if bitOf (fieldLe (s.fetched a).1 0 4) 31 then (s.fetched a).2.takeDesc e c (s.fetched a).1
    else if isHostChan e c then (s.fetched a).2.updChan e c (fun x => { x with phase := .polling })
    else ((s.fetched a).2.updChan e c (fun x => { x with desc := DmaDesc.ofBytes (s.fetched a).1 })).endDesc e c 0x0104
      (fieldLe (s.fetched a).1 0x18 4) false := rfl

theorem State.fetchDesc_mem (hx : (s.chan e c).at_ = .mem a) (hf : s.canFetch e a = true)
    (hg : s.grants (.fetch (chanNo e c)) (if inHbm a then 64 else 0) 3) :
    s.fetchDesc e c = (s.charged (if inHbm a then 64 else 0)).readDesc e c a := by
  unfold State.fetchDesc
  rw [hx]
  dsimp only
  rw [if_neg (by simp [hf]), State.bucketPass_granted hg]
  rfl

end

/-! ### A descriptor that has been read is taken (08 R210, R214, R221; 01 R27, R29) -/

section
variable {s t : State} {e : Fin 5} {c : Fin 8} {a st : Nat} {b : List Byte}

/-- A descriptor that waits for its start event. -/
def Channel.takes (x : Channel) (b : List Byte) (now : Nat) : Channel :=
  { x with desc := DmaDesc.ofBytes b, phase := .waiting, waitFrom := now }

/-- A descriptor in its channel, its checks made. -/
def State.descTaken (s : State) (e : Fin 5) (c : Fin 8) (b : List Byte) : State :=
  (s.checkDesc e c b).2.updChan e c (·.takes b (s.checkDesc e c b).2.tk.now)

theorem State.takeDesc_good (h : (s.checkDesc e c b).1 = 0) : s.takeDesc e c b = s.descTaken e c b := by
  unfold State.takeDesc
  dsimp only
  rw [if_pos h]
  rfl

theorem State.takeDesc_bad (h : (s.checkDesc e c b).1 = st) (hst : st ≠ 0) :
    s.takeDesc e c b = (s.descTaken e c b).endDesc e c st (DmaDesc.ofBytes b).len false := by
  subst h
  unfold State.takeDesc
  dsimp only
  rw [if_neg hst]
  rfl

theorem State.descTaken_via (s : State) (e : Fin 5) (c : Fin 8) (b : List Byte) :
    State.Via [.cnt, .dma, .note] s (s.descTaken e c b) :=
  State.updChan_via (State.checkDesc_via (.refl _ s) (by decide)) (by decide)

theorem State.descTaken_chan (s : State) (e : Fin 5) (c : Fin 8) (b : List Byte) :
    (s.descTaken e c b).chan e c = (s.chan e c).takes b s.tk.now := by
  have hv : State.Via [.cnt, .note] s (s.checkDesc e c b).2 := State.checkDesc_via (.refl _ s) (by decide)
  unfold State.descTaken
  rw [State.updChan_chan, hv.chan, show (s.checkDesc e c b).2.tk = s.tk from hv.only .tk (by decide)]

theorem State.descTaken_other {e' : Fin 5} {c' : Fin 8} (h : (e', c') ≠ (e, c)) :
    (s.descTaken e c b).chan e' c' = s.chan e' c' := by
  have hv : State.Via [.cnt, .note] s (s.checkDesc e c b).2 := State.checkDesc_via (.refl _ s) (by decide)
  unfold State.descTaken
  rw [State.updChan_other _ _ fun q => h (by rw [q.1, q.2]), hv.chan]

/-- What a fetch finds: the bytes that are read once those of HBM are charged. -/
def State.fetchRead (s : State) (a : Nat) : List Byte × State := (s.charged (if inHbm a then 64 else 0)).fetched a

theorem State.fetchRead_via (h : s.canFetch e a = true) : State.Via readKinds s (s.fetchRead a).2 := by
  have hc := s.charged_via (if inHbm a then 64 else 0)
  have hphase : (s.charged (if inHbm a then 64 else 0)).hbm.phase = s.hbm.phase := by rw [State.charged_hbm]
  exact (hc.mono (by decide)).upd (State.fetched_via ((hc.canFetch hphase e a).trans h)) (List.Subset.refl _)

/-- Where a fetch may be made: the engine runs, the descriptor can be reached, the bucket grants its bytes. -/
structure State.Fetches (s : State) (e : Fin 5) (c : Fin 8) (a : Nat) : Prop where
  /-- The descriptor's address. -/
  at_ : (s.chan e c).at_ = .mem a
  /-- The engine can reach it. -/
  reach : s.canFetch e a = true
  /-- The bucket grants its bytes of HBM. -/
  granted : s.grants (.fetch (chanNo e c)) (if inHbm a then 64 else 0) 3
  /-- The engine is not isolated. -/
  on : s.engineOut e = false
  /-- No START is pending, and no command waits. -/
  quiet : s.quiet

theorem State.Fetches.fetchDesc (h : s.Fetches e c a) : s.fetchDesc e c =
    if bitOf (fieldLe (s.fetchRead a).1 0 4) 31 then (s.fetchRead a).2.takeDesc e c (s.fetchRead a).1
    else if isHostChan e c then (s.fetchRead a).2.updChan e c (fun x => { x with phase := .polling })
    else ((s.fetchRead a).2.updChan e c (fun x => { x with desc := DmaDesc.ofBytes (s.fetchRead a).1 })).endDesc e c
      0x0104 (fieldLe (s.fetchRead a).1 0x18 4) false :=
  (State.fetchDesc_mem h.at_ h.reach h.granted).trans (State.readDesc_eq _ e c a)

theorem State.Fetches.takes (h : s.Fetches e c a) (how : bitOf (fieldLe (s.fetchRead a).1 0 4) 31 = true)
    (hok : ((s.fetchRead a).2.checkDesc e c (s.fetchRead a).1).1 = 0) :
    s.fetchDesc e c = (s.fetchRead a).2.descTaken e c (s.fetchRead a).1 := by
  rw [h.fetchDesc, if_pos how, State.takeDesc_good hok]

theorem State.Fetches.refuses (h : s.Fetches e c a) (how : bitOf (fieldLe (s.fetchRead a).1 0 4) 31 = true)
    (hbad : ((s.fetchRead a).2.checkDesc e c (s.fetchRead a).1).1 = st) (hst : st ≠ 0) :
    s.fetchDesc e c = ((s.fetchRead a).2.descTaken e c (s.fetchRead a).1).endDesc e c st
      (DmaDesc.ofBytes (s.fetchRead a).1).len false := by
  rw [h.fetchDesc, if_pos how, State.takeDesc_bad hbad hst]

theorem State.Fetches.polls (h : s.Fetches e c a) (how : bitOf (fieldLe (s.fetchRead a).1 0 4) 31 = false)
    (hc : isHostChan e c = true) :
    s.fetchDesc e c = (s.fetchRead a).2.updChan e c (fun x => { x with phase := .polling }) := by
  rw [h.fetchDesc, if_neg (by simp [how]), if_pos hc]

theorem State.idleReset_chan (s : State) (e : Fin 5) (c : Fin 8) : s.idleReset.chan e c = s.chan e c := rfl

/-- A fetch from which nothing pending arises ends the row. -/
theorem execDescriptorFetch_quiet {K : List Change} (hp : (s.chan e c).phase = .fetching)
    (ho : s.engineOut e = false) (hq : s.quiet) (ht : s.fetchDesc e c = t) (hv : State.Via K s t)
    (hk : .sched ∉ K.map Change.field ∧ .host ∉ K := by decide) :
    execDescriptorFetch e c s = .next t.idleReset := by
  unfold execDescriptorFetch State.fetchStep
  rw [if_pos ⟨hp, ho⟩, ht]
  exact congrArg Host.Outcome.next (State.settle_quiet (s := t.idleReset) (hv.quiet hq hk))

/-- DESCRIPTOR_FETCH of a descriptor whose OWN is 1 and that passes its checks: it waits for its start event. -/
theorem execDescriptorFetch_takes (h : s.Fetches e c a) (hp : (s.chan e c).phase = .fetching)
    (how : bitOf (fieldLe (s.fetchRead a).1 0 4) 31 = true)
    (hok : ((s.fetchRead a).2.checkDesc e c (s.fetchRead a).1).1 = 0) :
    ∃ t, execDescriptorFetch e c s = .next t ∧ t.chan e c = (s.chan e c).takes (s.fetchRead a).1 s.tk.now ∧
      (∀ e' c', (e', c') ≠ (e, c) → t.chan e' c' = s.chan e' c') ∧ t.idleNs = 0 ∧
      State.Only [.freeCtr, .upsets, .poison, .wbQueue, .cnt, .hbm, .dma, .img, .host, .err, .idle] s t := by
  have hv := State.fetchRead_via h.reach
  have hall := (hv.mono (by decide)).upd ((s.fetchRead a).2.descTaken_via e c (s.fetchRead a).1)
    (M := [.freeCtr, .upsets, .poison, .wbQueue, .cnt, .hbm, .dma, .note, .err, .idle]) (by decide)
  refine ⟨_, execDescriptorFetch_quiet hp h.on h.quiet (h.takes how hok) hall, ?_, fun e' c' hne => ?_, rfl,
    (State.idleReset_via hall (by decide)).frame⟩
  · rw [State.idleReset_chan, State.descTaken_chan, hv.chan,
      show (s.fetchRead a).2.tk = s.tk from hv.only .tk (by decide)]
  · rw [State.idleReset_chan, State.descTaken_other hne, hv.chan]

/-- The same with OWN 0: a host channel polls. -/
theorem execDescriptorFetch_polls (h : s.Fetches e c a) (hp : (s.chan e c).phase = .fetching)
    (how : bitOf (fieldLe (s.fetchRead a).1 0 4) 31 = false) (hc : isHostChan e c = true) :
    ∃ t, execDescriptorFetch e c s = .next t ∧ t.chan e c = { s.chan e c with phase := .polling } ∧
      (∀ e' c', (e', c') ≠ (e, c) → t.chan e' c' = s.chan e' c') ∧
      State.Only [.freeCtr, .upsets, .poison, .wbQueue, .cnt, .hbm, .dma, .img, .host, .err, .idle] s t := by
  have hv := State.fetchRead_via h.reach
  have hall : State.Via [.freeCtr, .upsets, .poison, .wbQueue, .cnt, .hbm, .dma, .note, .err, .idle] s
      ((s.fetchRead a).2.updChan e c (fun x => { x with phase := .polling })) :=
    State.updChan_via (hv.mono (by decide)) (by decide)
  refine ⟨_, execDescriptorFetch_quiet hp h.on h.quiet (h.polls how hc) hall, ?_, fun e' c' hne => ?_,
    (State.idleReset_via hall (by decide)).frame⟩
  · rw [State.idleReset_chan, State.updChan_chan, hv.chan]
  · rw [State.idleReset_chan, State.updChan_other _ _ fun q => hne (by rw [q.1, q.2]), hv.chan]

end

/-! ### A descriptor in host memory without errors (08 R210, R214, R221) -/

section
variable {s t : State} {e : Fin 5} {c : Fin 8} {a st : Nat} {b : List Byte}

theorem State.fetchRead_host (hc : s.clean) (hp : placeOf a = .host) : s.fetchRead a = (s.readB a 64, s) := by
  have hn : (if inHbm a then 64 else 0) = 0 := by simp [inHbm, hp]
  unfold State.fetchRead State.charged
  rw [hn, if_pos rfl]
  exact State.fetched_host hc hp

theorem leNat_lt : ∀ b : List Byte, leNat b < 256 ^ b.length
  | [] => Nat.one_pos
  | x :: b => by
    have h := leNat_lt b
    have hx : x.toNat < 256 := x.isLt
    unfold leNat
    rw [List.length_cons, Nat.pow_succ]
    omega

theorem fieldLe_word_lt (b : List Byte) (i : Nat) : fieldLe b i 4 < 2 ^ 32 := by
  have h := leNat_lt ((b.drop i).take 4)
  have hl : ((b.drop i).take 4).length ≤ 4 := by simp
  exact lt_of_lt_of_le h (Nat.pow_le_pow_right (by decide) hl)

/-- CTRL is the first word of the descriptor that is read, in memory of the canonical form. -/
theorem State.readLe_ctrl (hm : Memory.wf s.mem = true) : fieldLe (s.readB a 64) 0 4 = s.readLe a 4 := by
  unfold fieldLe State.readLe
  exact congrArg leNat (State.readB_within (i := 0) hm (by decide)).symm

theorem ctrl_without_own {v : Nat} (hv : v < 2 ^ 32) (h : bitOf v 31 = true) : v % 2 ^ 31 = v - 2 ^ 31 := by
  unfold bitOf at h
  simp only [beq_iff_eq] at h
  omega

/-- HOST_CHANNEL_POLL of a descriptor in host memory: a re-read of CTRL is counted. -/
theorem execHostChannelPoll_reads (hc : isHostChan 4 c = true) (hp : (s.chan 4 c).phase = .polling)
    (ho : s.engineOut 4 = false) :
    execHostChannelPoll c s = .next ((s.count (srcDma 4 c) dPolls 1).fetchDesc 4 c) := by
  unfold execHostChannelPoll
  exact if_pos (by simp [hc, hp, ho])

/-- In host memory a fetch needs no grant, also once the re-read is counted. -/
theorem State.fetches_host (hx : (s.chan 4 c).at_ = .mem a) (hf : s.canFetch 4 a = true) (hp : placeOf a = .host)
    (ho : s.engineOut 4 = false) (hq : s.quiet) : (s.count (srcDma 4 c) dPolls 1).Fetches 4 c a := by
  have hv : State.Via [.cnt] s (s.count (srcDma 4 c) dPolls 1) := State.count_via (.refl _ s) (by decide)
  refine ⟨by rw [hv.chan]; exact hx, (hv.canFetch hv.hbmPhase 4 a).trans hf, .inl (by simp [inHbm, hp]), ?_,
    hv.quiet hq⟩
  have herr : (s.count (srcDma 4 c) dPolls 1).err = s.err := hv.only .err (by decide)
  unfold State.engineOut
  rw [herr]
  exact ho

/-- A channel that is as a change would leave it. -/
theorem State.updChan_self {g : Channel → Channel} (h : g (s.chan e c) = s.chan e c) : s.updChan e c g = s := by
  rw [State.updChan_congr (g' := id) h]
  have hch : (s.dma[e]).ch.set c (id (s.dma[e]).ch[c]) = (s.dma[e]).ch := Vector.set_getElem_self _
  have hdma : s.dma.set e (s.dma[e]) = s.dma := Vector.set_getElem_self _
  unfold State.updChan
  dsimp only
  rw [hch]
  exact congrArg (fun v => { s with dma := v }) hdma

/-- The bytes that the re-read of a descriptor in host memory finds. -/
theorem State.fetchRead_polled (hc : s.clean) (hp : placeOf a = .host) :
    (s.count (srcDma 4 c) dPolls 1).fetchRead a = (s.readB a 64, s.count (srcDma 4 c) dPolls 1) := by
  have hv : State.Via [.cnt] s (s.count (srcDma 4 c) dPolls 1) := State.count_via (.refl _ s) (by decide)
  have hclean : (s.count (srcDma 4 c) dPolls 1).clean :=
    ⟨(hv.only .poison (by decide)).trans hc.1, (hv.only .upsets (by decide)).trans hc.2⟩
  rw [State.fetchRead_host hclean hp]
  exact congrArg (fun m => (SMap.getRange 0 m a 64, _)) (hv.only .mem (by decide))

/-- A host channel polls on while OWN is 0, in memory of the canonical form. -/
theorem execHostChannelPoll_polls (hm : Memory.wf s.mem = true) (hx : (s.chan 4 c).at_ = .mem a)
    (hf : s.canFetch 4 a = true) (ho : s.engineOut 4 = false) (hq : s.quiet) (hp : (s.chan 4 c).phase = .polling)
    (hc : isHostChan 4 c = true) (hclean : s.clean) (hhost : placeOf a = .host)
    (how : bitOf (s.readLe a 4) 31 = false) :
    execHostChannelPoll c s = .next (s.count (srcDma 4 c) dPolls 1) := by
  have hv : State.Via [.cnt] s (s.count (srcDma 4 c) dPolls 1) := State.count_via (.refl _ s) (by decide)
  have hread := State.fetchRead_polled (c := c) hclean hhost
  have hfetch := (State.fetches_host hx hf hhost ho hq).polls (by rw [hread, State.readLe_ctrl hm]; exact how) hc
  have hstays : ((s.count (srcDma 4 c) dPolls 1).chan 4 c).phase = .polling := by
    rw [hv.chan]
    exact hp
  rw [execHostChannelPoll_reads hc hp ho, hfetch, hread, State.updChan_self]
  rw [← hstays]

/-- Once OWN is 1 a descriptor that passes its checks is taken, in memory of the canonical form. -/
theorem execHostChannelPoll_takes (hm : Memory.wf s.mem = true) (hx : (s.chan 4 c).at_ = .mem a)
    (hf : s.canFetch 4 a = true) (ho : s.engineOut 4 = false) (hq : s.quiet) (hp : (s.chan 4 c).phase = .polling)
    (hc : isHostChan 4 c = true) (hclean : s.clean) (hhost : placeOf a = .host)
    (how : bitOf (s.readLe a 4) 31 = true)
    (hok : ((s.count (srcDma 4 c) dPolls 1).checkDesc 4 c (s.readB a 64)).1 = 0) :
    ∃ t, execHostChannelPoll c s = .next t ∧ t.chan 4 c = (s.chan 4 c).takes (s.readB a 64) s.tk.now ∧
      State.Only [.cnt, .dma, .host] s t := by
  have hv : State.Via [.cnt] s (s.count (srcDma 4 c) dPolls 1) := State.count_via (.refl _ s) (by decide)
  have hread := State.fetchRead_polled (c := c) hclean hhost
  have hfetch := (State.fetches_host hx hf hhost ho hq).takes (by rw [hread, State.readLe_ctrl hm]; exact how)
    (by rw [hread]; exact hok)
  rw [hread] at hfetch
  refine ⟨_, (execHostChannelPoll_reads hc hp ho).trans (congrArg _ hfetch), ?_,
    ((hv.mono (by decide)).upd (State.descTaken_via _ 4 c _) (M := [.cnt, .dma, .note]) (by decide)).frame⟩
  rw [State.descTaken_chan, hv.chan, show (s.count (srcDma 4 c) dPolls 1).tk = s.tk from hv.only .tk (by decide)]

/-- A descriptor that may be fetched from host memory takes its completion while the Aperture is open (08 R203). -/
theorem State.backOk_host (hf : s.canFetch e a = true) (hp : placeOf a = .host) (ha : s.ap.sealed = false) :
    s.backOk e a = true := by
  have hro : readOnlyOther a = false := by
    have h := (placeOf_host.1 hp).1
    unfold hostBase at h
    unfold readOnlyOther fuseViewAddr lastStateAddr errQueueAddr
    simp
    omega
  unfold State.backOk inHbm
  simp [hf, hp, ha, hro]

/-- DESCRIPTOR_FETCH of a descriptor in host memory that fails a check: it completes at once with the check's status,
which halts its channel but where the Aperture blocks. -/
theorem execDescriptorFetch_refused (h : s.Fetches e c a) (hp : (s.chan e c).phase = .fetching)
    (hhost : placeOf a = .host) (hclean : s.clean) (how : bitOf (s.readLe a 4) 31 = true) (hap : s.ap.sealed = false)
    (hm : Memory.wf s.mem = true) (hr : ∀ k, k < 64 → ¬ s.recordByte (a + k))
    (hbad : (s.checkDesc e c (s.readB a 64)).1 = st) (hst : st ∈ [0x0101, 0x0102, 0x0103, 0x0104]) :
    ∃ t, execDescriptorFetch e c s = .next t ∧
      t.chan e c = ((s.chan e c).takes (s.readB a 64) s.tk.now).ended (st != 0x0103) ∧
      (∀ x, ¬ s.recordByte x → x < a ∨ a + 64 ≤ x → SMap.get 0 t.mem x = SMap.get 0 s.mem x) ∧
      t.readLe (a + 0x28) 4 = st ∧ t.readLe (a + 0x2C) 4 = fieldLe (s.readB a 64) 0x18 4 ∧
      t.readLe a 4 = s.readLe a 4 - 2 ^ 31 := by
  have hread := State.fetchRead_host hclean hhost
  have hctrl := State.readLe_ctrl (a := a) hm
  have hzero : st ≠ 0 := by
    rintro rfl
    simp at hst
  have hfetch := h.refuses (by rw [hread, hctrl]; exact how) (by rw [hread]; exact hbad) hzero
  rw [hread, State.endDesc_eq] at hfetch
  have hv := s.descTaken_via e c (s.readB a 64)
  have hchan := s.descTaken_chan e c (s.readB a 64)
  have hq := hv.quiet h.quiet
  have hend : State.EndsDesc (s.descTaken e c (s.readB a 64)) e c st (DmaDesc.ofBytes (s.readB a 64)).len false
      (s.fetchDesc e c) := by
    rw [hfetch]
    exact State.Closing.ends (State.charged_closing _ _) hq.1
  have hmem : (s.descTaken e c (s.readB a 64)).mem = s.mem := hv.only .mem (by decide)
  have hrec {x : Nat} (hx : ¬ s.recordByte x) : ¬ (s.descTaken e c (s.readB a 64)).recordByte x :=
    fun q => hx ((hv.told (by decide)).recordByte q)
  have hok := (hv.backOk hv.hbmPhase e a).trans (State.backOk_host h.reach hhost hap)
  obtain ⟨hwf, hback, hout⟩ := hend.back a (by rw [hchan]; exact h.at_) hok (.inr hhost) (hmem ▸ hm)
    fun k hk => hrec (hr k hk)
  obtain ⟨hstatus, hres, -, -, hown⟩ := hback.fields hwf
  refine ⟨_, execDescriptorFetch_quiet hp h.on h.quiet rfl
      ((hv.mono (by decide)).upd hend.via (List.Subset.refl _)), ?_,
    fun x hx hab => ?_, ?_, ?_, ?_⟩
  · have hhalts : haltingStatus st false = (st != 0x0103) := by
      simp only [List.mem_cons, List.not_mem_nil, or_false] at hst
      obtain rfl | rfl | rfl | rfl := hst <;> rfl
    rw [State.idleReset_chan, hend.chan, hchan, hhalts]
  · exact (hout x (hrec hx) hab).trans (congrArg (SMap.get 0 · x) hmem)
  · refine hstatus.trans (Nat.mod_eq_of_lt ?_)
    simp only [List.mem_cons, List.not_mem_nil, or_false] at hst
    omega
  · exact hres.trans (Nat.mod_eq_of_lt (fieldLe_word_lt _ _))
  · have hword : ((s.descTaken e c (s.readB a 64)).chan e c).desc.ctrl = s.readLe a 4 := by
      rw [hchan]
      exact hctrl
    rw [← hctrl] at how
    refine hown.trans ?_
    rw [hword, ← hctrl]
    exact ctrl_without_own (fieldLe_word_lt _ _) how

end
end Sys2Proof.Machine
end

section
namespace Sys2Proof.Machine

/-! ### A memory that is not of the canonical form (08 R205, R221) -/

/-- Where the descriptor stands, in host memory. -/
def heapAt : Nat := 0x810000000000

/-- Host channel 6 polls a descriptor whose bytes stand in descending order of their addresses beside CTRL's highest:
a read of 4 bytes from CTRL meets that byte, and a read of the whole descriptor stops before it. -/
def disordered : State :=
  { State.reset with
    host := { HostCtl.reset with owner := .pcie, pcieUp := true }
    mem := [(heapAt + 0xA, 0x10), (heapAt + 0x12, 0x20), (heapAt + 0x18, 0x40), (heapAt + 3, 0x80)]
    dma := (State.reset.updChan 4 6 (fun x => { x with phase := .polling, at_ := .mem heapAt })).dma }

theorem disordered_ctrl_owned : bitOf (disordered.readLe heapAt 4) 31 = true := by decide

theorem disordered_read_unowned : bitOf (fieldLe (disordered.readB heapAt 64) 0 4) 31 = false := by decide

theorem disordered_passes :
    ((disordered.count (srcDma 4 6) dPolls 1).checkDesc 4 6 (disordered.readB heapAt 64)).1 = 0 := by decide

/-- The poll finds OWN 0 and goes on, although OWN reads as 1 beside it. -/
theorem disordered_polls_on : ∃ t, execHostChannelPoll 6 disordered = .next t ∧ (t.chan 4 6).phase = .polling := by
  have hread := State.fetchRead_polled (s := disordered) (c := 6) (a := heapAt) ⟨rfl, rfl⟩ (by decide)
  have hfetch := (State.fetches_host (s := disordered) (c := 6) (a := heapAt) rfl (by decide) (by decide) (by decide)
    ⟨rfl, rfl⟩).polls (by rw [hread]; exact disordered_read_unowned) (by decide)
  refine ⟨_, (execHostChannelPoll_reads (by decide) rfl (by decide)).trans (congrArg _ hfetch), ?_⟩
  rw [State.updChan_chan]

end Sys2Proof.Machine

open Sys2Proof Sys2Proof.Machine

/-- Refutes O22: its clause for a poll that meets OWN 1 reads CTRL beside the descriptor and does not ask that the
memory is of the canonical form. In one that is not (`State.Inv` excludes it), CTRL's 4 bytes show OWN and the 64 that
the engine reads do not, so the channel polls on. `execHostChannelPoll_takes` is the clause with that hypothesis. -/
theorem not_descriptorsTaken : ¬ Obligations.DescriptorsTaken := by
  unfold Obligations.DescriptorsTaken
  rintro ⟨h, -, -⟩
  obtain ⟨-, -, -, htaken⟩ := h 4 6 heapAt disordered rfl (by decide) (.inl (by decide)) (by decide) ⟨rfl, rfl⟩
  obtain ⟨t, ht, hwaits, -⟩ := htaken rfl rfl (by decide) ⟨rfl, rfl⟩ (by decide) disordered_ctrl_owned
    disordered_passes
  obtain ⟨u, hu, hpolls⟩ := disordered_polls_on
  obtain rfl : t = u := Host.Outcome.next.inj (ht.symm.trans hu)
  have hphase : ChPhase.waiting = ChPhase.polling := (congrArg Channel.phase hwaits).symm.trans hpolls
  cases hphase
end

section
namespace Sys2Proof.Machine

/-! ### The bursts of a plain copy (08 R213, R215): what the refuted clauses say of a mapped source -/

section
variable {s t : State} {e e' : Fin 5} {c c' : Fin 8} {b : Burst1} {a n : Nat} {ms : List Meet} {cs : List (Fin 8)}

theorem State.markFull_chan : (s.markFull e cs).chan e' c' = s.chan e' c' := by
  unfold State.chan State.markFull
  simp only [Fin.getElem_fin, Vector.getElem_set]
  split
  next h => obtain rfl := Fin.ext h; rfl
  next => rfl

theorem State.served_chan : (s.served e c).chan e' c' = s.chan e' c' := by
  unfold State.chan State.served
  simp only [Fin.getElem_fin, Vector.getElem_set]
  split
  next h => obtain rfl := Fin.ext h; rfl
  next => rfl

theorem State.markFull_burstOf : (s.markFull e cs).burstOf e' c' = s.burstOf e' c' := by
  simp only [State.burstOf, State.markFull_chan]
  rfl

theorem State.markFull_hasSpace : (s.markFull e cs).hasSpace e' c' = s.hasSpace e' c' := by
  unfold State.hasSpace
  rw [State.markFull_burstOf]
  rfl

/-- BURST_ISSUE of a channel that is served. -/
theorem execBurstIssue_issues (ho : s.engineOut e = false)
    (hc : (s.serveOrder e).find? (fun i => s.hasSpace e i) = some c) (hb : s.burstOf e c = some b) :
    execBurstIssue e ms s = .next (((s.markFull e (s.serveOrder e)).served e c).issue e c b ms) := by
  unfold execBurstIssue
  simp only [ho, Bool.false_eq_true, if_false, State.markFull_hasSpace, hc, State.markFull_burstOf, hb]

/-- Where no granule is poisoned and no error stored, a mapped source reads as it stands. -/
structure State.PlainSource (s : State) (a : Nat) : Prop where
  /-- No unit is poisoned, no error stored. -/
  clean : s.clean
  /-- No granule of HBM is poisoned. -/
  table : s.hbm.poison = []
  /-- The source is mapped. -/
  mapped : placeOf a ≠ .other

/-- A state that a change of these kinds leads to, the stack's phase and poison kept. -/
structure State.Near (K : List Change) (s t : State) : Prop where
  /-- The frame. -/
  via : State.Via K s t
  /-- The stack's phase is as it was. -/
  phase : t.hbm.phase = s.hbm.phase
  /-- So is its table of poisoned granules. -/
  table : t.hbm.poison = s.hbm.poison

theorem State.Near.trans {K K' M : List Change} {u : State} (h : s.Near K t) (h' : t.Near K' u) (hk : K ⊆ M)
    (hk' : K' ⊆ M) : s.Near M u :=
  ⟨(h.via.mono hk).upd h'.via hk', h'.phase.trans h.phase, h'.table.trans h.table⟩

theorem State.Near.of_via {K : List Change} (h : State.Via K s t) (hk : .hbm ∉ K.map Change.field := by decide) :
    s.Near K t := by
  have hhbm : t.hbm = s.hbm := h.only .hbm hk
  exact ⟨h, by rw [hhbm], by rw [hhbm]⟩

theorem State.Near.clean {K : List Change} (h : s.Near K t) (hc : s.clean)
    (hk : .poison ∉ K.map Change.field ∧ .upsets ∉ K.map Change.field := by decide) : t.clean :=
  ⟨(h.via.only .poison hk.1).trans hc.1, (h.via.only .upsets hk.2).trans hc.2⟩

theorem State.Near.plainSource {K : List Change} (h : s.Near K t) (hs : s.PlainSource a)
    (hk : .poison ∉ K.map Change.field ∧ .upsets ∉ K.map Change.field := by decide) : t.PlainSource a :=
  ⟨h.clean hs.clean hk, h.table.trans hs.table, hs.mapped⟩

theorem State.wakeRange_near : s.Near [.hbm] (s.wakeRange a n) := by
  refine ⟨State.wakeRange_via (.refl _ s) (by decide), ?_, ?_⟩
  · simp only [State.wakeRange, State.updHbm]
  · simp only [State.wakeRange, State.updHbm]

theorem State.charged_near : s.Near [.cnt, .hbm] (s.charged n) :=
  ⟨s.charged_via n, by rw [State.charged_hbm], by rw [State.charged_hbm]⟩

/-- What a read of plain bytes leaves. -/
def State.woken (s : State) (a n : Nat) : State := if inHbm a then s.wakeRange a n else s

theorem State.woken_near : s.Near [.hbm] (s.woken a n) := by
  unfold State.woken
  split
  · exact State.wakeRange_near
  · exact ⟨.refl _ s, rfl, rfl⟩

theorem State.readDev_plain (h : s.PlainSource a) : s.readDev a n = (s.readB a n, [], s.woken a n) := by
  have hnear : s.Near [.hbm] (s.woken a n) := State.woken_near
  have hplain : (s.woken a n).plainRange a n = true := by
    unfold State.plainRange
    rw [State.cleanRun_clean (hnear.clean h.clean), Bool.true_and]
    cases hp : placeOf a with
    | hbm => simp [hnear.table, h.table]
    | other => exact absurd hp h.mapped
    | _ => rfl
  have hmem : (s.woken a n).mem = s.mem := hnear.via.only .mem (by decide)
  have hwoken : (if inHbm a then s.wakeRange a n else s) = s.woken a n := rfl
  unfold State.readDev
  simp only [hwoken, hplain, if_true, State.readB, hmem]

/-- What the read of a plain burst leaves. -/
def State.burstRead (s : State) (b : Burst1) : State :=
  if inHbm b.src then (s.woken b.src b.n).countPages hRead b.src b.n else s.woken b.src b.n

theorem State.burstRead_near : s.Near [.cnt, .hbm] (s.burstRead b) := by
  unfold State.burstRead
  split
  · exact State.woken_near.trans (.of_via (K := [.cnt]) (State.countPages_via (.refl _ _) (by decide))) (by decide)
      (by decide)
  · exact State.woken_near.trans (.of_via (.refl [] _)) (by decide) (by decide)

theorem State.readBurst_plain (h : s.PlainSource b.src) (hk : (s.chan e c).desc.srcKind = 0)
    (hq : s.queueStream (s.chan e c).desc = none) : s.readBurst e c b = (s.readB b.src b.n, [], s.burstRead b) := by
  unfold State.readBurst
  simp only [hk, hq, State.readDev_plain h]
  rfl

/-- A plain copy: no transform, from memory, to memory that is no circular region. -/
structure Channel.Copies (x : Channel) : Prop where
  /-- No transform. -/
  transform : x.desc.transform = 0
  /-- From memory. -/
  source : x.desc.srcKind = 0
  /-- To no region. -/
  ring : x.resv = none
  /-- To no peer. -/
  local_ : isBeam x.desc.dst = false

/-- The state in which a plain burst is written. -/
def State.burstReady (s : State) (e : Fin 5) (c : Fin 8) (b : Burst1) : State :=
  (((s.count (srcDma e c) dBursts 1).count (srcDma e c) dRead b.n).burstRead b).updChan e c
    (fun x => { x with readN := x.readN + b.n })

theorem State.counts_near : s.Near [.cnt] ((s.count (srcDma e c) dBursts 1).count (srcDma e c) dRead n) :=
  .of_via (State.count_via (State.count_via (.refl _ s) (by decide)) (by decide))

theorem State.burstReady_near : s.Near [.cnt, .hbm, .dma] (s.burstReady e c b) :=
  (State.counts_near.trans (M := [.cnt, .hbm]) State.burstRead_near (by decide) (by decide)).trans
    (.of_via (State.updChan_via (M := [.dma]) (.refl _ _) (by decide))) (by decide) (by decide)

theorem State.burstReady_chan : (s.burstReady e c b).chan e c =
    { s.chan e c with readN := (s.chan e c).readN + b.n } := by
  have hv := State.counts_near (s := s) (e := e) (c := c) (n := b.n) |>.trans (M := [.cnt, .hbm])
    (State.burstRead_near (b := b)) (by decide) (by decide)
  unfold State.burstReady
  rw [State.updChan_chan, hv.via.chan]

theorem State.doBurst_copies (h : s.PlainSource b.src) (hx : (s.chan e c).Copies)
    (hq : s.queueStream (s.chan e c).desc = none) : s.doBurst e c b =
      ((s.burstReady e c b).writeOut e c (s.chan e c).writtenN (s.readB b.src b.n) []).updChan e c (·.wrote b.n) := by
  have hn := State.counts_near (s := s) (e := e) (c := c) (n := b.n)
  have hchan := hn.via.chan (e := e) (c := c)
  have himg : ((s.count (srcDma e c) dBursts 1).count (srcDma e c) dRead b.n).img = s.img :=
    hn.via.only .img (by decide)
  have hmem : ((s.count (srcDma e c) dBursts 1).count (srcDma e c) dRead b.n).mem = s.mem :=
    hn.via.only .mem (by decide)
  have hread := State.readBurst_plain (b := b) (e := e) (c := c) (hn.plainSource h) (by rw [hchan]; exact hx.source)
    (by rw [hchan]; unfold State.queueStream; rw [himg]; exact hq)
  unfold State.doBurst
  simp only [hread, hx.transform, hx.local_, List.isEmpty_nil, if_true, Nat.zero_ne_one, OfNat.zero_ne_ofNat,
    Bool.false_eq_true, if_false]
  rw [State.readB, hmem]
  rfl

/-- Output for HBM under protection stops the transfer, unwritten (02 R56; log 152). -/
theorem State.writeOut_protected {off : Nat} {bs : List Byte} {bads : List Nat} (hr : (s.chan e c).resv = none)
    (hin : inHbm ((s.chan e c).desc.dst + off) = true)
    (hw : s.hbmWritable ((s.chan e c).desc.dst + off) bs.length = false) :
    s.writeOut e c off bs bads = s.updChan e c (fun x => { x with stop := some 0x0102 }) := by
  unfold State.writeOut
  simp only [hr, hin, hw, Option.isNone_none, Bool.not_false, Bool.and_self, if_true]

theorem State.burstOf_running (h : s.burstOf e c = some b) : (s.chan e c).stop = none := by
  by_contra hstop
  have hnone : s.burstOf e c = none :=
    if_pos (.inr (.inl (Option.isSome_iff_ne_none.2 hstop)))
  rw [hnone] at h
  cases h

/-- The state in which a burst that the bucket grants moves. -/
def State.burstGranted (s : State) (e : Fin 5) (c : Fin 8) (b : Burst1) (ms : List Meet) : State :=
  (((s.markFull e (s.serveOrder e)).served e c).charged b.hbm).dmaMeets ms

theorem State.burstGranted_near : s.Near [.cnt, .file, .hbm, .dma, .note, .err] (s.burstGranted e c b ms) := by
  have hserved : s.Near [.dma] ((s.markFull e (s.serveOrder e)).served e c) :=
    .of_via (State.served_via (State.markFull_via (.refl _ s) (by decide)) (by decide))
  have hcharged := hserved.trans (M := [.cnt, .hbm, .dma]) (State.charged_near (n := b.hbm)) (by decide) (by decide)
  exact hcharged.trans (.of_via (K := [.cnt, .file, .note, .err]) (State.dmaMeets_via (.refl _ _) (by decide)))
    (by decide) (by decide)

theorem State.burstGranted_chan : (s.burstGranted e c b ms).chan e' c' = s.chan e' c' := by
  have hmeets : State.Via [.cnt, .file, .note, .err]
      (((s.markFull e (s.serveOrder e)).served e c).charged b.hbm) (s.burstGranted e c b ms) :=
    State.dmaMeets_via (.refl _ _) (by decide)
  rw [hmeets.chan, (State.charged_via _ _).chan, State.served_chan, State.markFull_chan]

/-- BURST_ISSUE of a burst that the bucket grants. -/
theorem execBurstIssue_granted (ho : s.engineOut e = false)
    (hc : (s.serveOrder e).find? (fun i => s.hasSpace e i) = some c) (hb : s.burstOf e c = some b)
    (hg : s.grants (.chan (chanNo e c)) b.hbm (s.chan e c).desc.prio) :
    execBurstIssue e ms s = .next ((s.burstGranted e c b ms).doBurst e c b) := by
  have hpass : ((s.markFull e (s.serveOrder e)).served e c).grants (.chan (chanNo e c)) b.hbm
      (((s.markFull e (s.serveOrder e)).served e c).chan e c).desc.prio := by
    rw [State.served_chan, State.markFull_chan]
    exact hg
  rw [execBurstIssue_issues ho hc hb]
  unfold State.issue
  rw [State.bucketPass_granted hpass]
  rfl

/-- A burst of a plain copy that is served and granted. -/
structure State.Moves (s : State) (e : Fin 5) (c : Fin 8) (b : Burst1) : Prop where
  /-- The engine is not isolated. -/
  on : s.engineOut e = false
  /-- The channel is served. -/
  served : (s.serveOrder e).find? (fun i => s.hasSpace e i) = some c
  /-- Its burst. -/
  burst : s.burstOf e c = some b
  /-- The bucket grants it. -/
  granted : s.grants (.chan (chanNo e c)) b.hbm (s.chan e c).desc.prio
  /-- The transfer copies. -/
  copies : (s.chan e c).Copies
  /-- It reads no stream's queue. -/
  queue : s.queueStream (s.chan e c).desc = none
  /-- Its source reads as it stands. -/
  source : s.PlainSource b.src

/-- The state in which such a burst is written. -/
def State.atWrite (s : State) (e : Fin 5) (c : Fin 8) (b : Burst1) (ms : List Meet) : State :=
  (s.burstGranted e c b ms).burstReady e c b

theorem State.atWrite_near : s.Near [.cnt, .file, .hbm, .dma, .note, .err] (s.atWrite e c b ms) :=
  State.burstGranted_near.trans State.burstReady_near (by decide) (by decide)

theorem State.atWrite_chan : (s.atWrite e c b ms).chan e c = { s.chan e c with readN := (s.chan e c).readN + b.n } := by
  unfold State.atWrite
  rw [State.burstReady_chan, State.burstGranted_chan]

/-- The state that it leaves. -/
def State.burstWritten (s : State) (e : Fin 5) (c : Fin 8) (b : Burst1) (ms : List Meet) : State :=
  ((s.atWrite e c b ms).writeOut e c (s.chan e c).writtenN (s.readB b.src b.n) []).updChan e c (·.wrote b.n)

theorem State.burstWritten_mem : (s.burstWritten e c b ms).mem =
    ((s.atWrite e c b ms).writeOut e c (s.chan e c).writtenN (s.readB b.src b.n) []).mem :=
  (State.updChan_via (M := [.dma]) (g := (·.wrote b.n)) (e := e) (c := c) (.refl _ _) (by decide)).only .mem
    (by decide)

theorem State.burstWritten_chan : (s.burstWritten e c b ms).chan e c =
    (((s.atWrite e c b ms).writeOut e c (s.chan e c).writtenN (s.readB b.src b.n) []).chan e c).wrote b.n :=
  State.updChan_chan ..

theorem State.Moves.exec (h : s.Moves e c b) : execBurstIssue e ms s = .next (s.burstWritten e c b ms) := by
  have hn := s.burstGranted_near (e := e) (c := c) (b := b) (ms := ms)
  have himg : (s.burstGranted e c b ms).img = s.img := hn.via.only .img (by decide)
  have hmem : (s.burstGranted e c b ms).mem = s.mem := hn.via.only .mem (by decide)
  have hq : (s.burstGranted e c b ms).queueStream (s.chan e c).desc = none := by
    unfold State.queueStream
    rw [himg]
    exact h.queue
  rw [execBurstIssue_granted h.on h.served h.burst h.granted, State.doBurst_copies (hn.plainSource h.source)
    (by rw [State.burstGranted_chan]; exact h.copies) (by rw [State.burstGranted_chan]; exact hq),
    State.burstGranted_chan, State.readB, hmem]
  rfl

/-- A plain copy's bytes stand in HBM, no other byte has changed, and the channel has moved on. -/
theorem State.Moves.copied (h : s.Moves e c b) (hp : placeOf ((s.chan e c).desc.dst + (s.chan e c).writtenN) = .hbm)
    (hw : s.hbmWritable ((s.chan e c).desc.dst + (s.chan e c).writtenN) b.n = true) (hm : Memory.wf s.mem = true) :
    ∃ t, execBurstIssue e ms s = .next t ∧
      t.readB ((s.chan e c).desc.dst + (s.chan e c).writtenN) b.n = s.readB b.src b.n ∧
      (∀ a, a < (s.chan e c).desc.dst + (s.chan e c).writtenN ∨
        (s.chan e c).desc.dst + (s.chan e c).writtenN + b.n ≤ a → SMap.get 0 t.mem a = SMap.get 0 s.mem a) ∧
      t.chan e c = { s.chan e c with
        readN := (s.chan e c).readN + b.n, writtenN := (s.chan e c).writtenN + b.n, lastAt := some s.tk.now } := by
  have hn := s.atWrite_near (e := e) (c := c) (b := b) (ms := ms)
  have hx := s.atWrite_chan (e := e) (c := c) (b := b) (ms := ms)
  have hlen : (s.readB b.src b.n).length = b.n := State.readB_length _ _ _
  have hmay : (s.atWrite e c b ms).mayWrite e c (s.chan e c).writtenN (s.readB b.src b.n).length := by
    intro _ _
    rw [hlen, hx, hn.via.hbmWritable hn.phase]
    exact hw
  have hmem : (s.atWrite e c b ms).mem = s.mem := hn.via.only .mem (by decide)
  have hstands := State.writeOut_reads hmay (by rw [hx]; exact h.copies.ring) (by rw [hx]; exact hp)
    (hn.table.trans h.source.table) (hn.clean h.source.clean) (by rw [hmem]; exact hm) State.burstWritten_mem
  rw [hx, hlen, hmem] at hstands
  refine ⟨_, h.exec, hstands.1, hstands.2, ?_⟩
  have htk : (s.atWrite e c b ms).tk = s.tk := hn.via.only .tk (by decide)
  rw [State.burstWritten_chan, State.writeOut_clean_chan hmay, hx, htk]
  unfold Channel.wrote
  rw [if_neg (by simp [State.burstOf_running h.burst])]

/-- HBM that has come under protection stops a plain copy with status 0x0102, unwritten: the refuted clause, of a source
that is mapped. -/
theorem State.Moves.stopped (h : s.Moves e c b) (hin : inHbm ((s.chan e c).desc.dst + (s.chan e c).writtenN) = true)
    (hw : s.hbmWritable ((s.chan e c).desc.dst + (s.chan e c).writtenN) b.n = false) :
    ∃ t, execBurstIssue e ms s = .next t ∧ t.mem = s.mem ∧
      t.chan e c = { s.chan e c with readN := (s.chan e c).readN + b.n, stop := some 0x0102 } := by
  have hn := s.atWrite_near (e := e) (c := c) (b := b) (ms := ms)
  have hx := s.atWrite_chan (e := e) (c := c) (b := b) (ms := ms)
  have hlen : (s.readB b.src b.n).length = b.n := State.readB_length _ _ _
  have hstop := State.writeOut_protected (off := (s.chan e c).writtenN) (bs := s.readB b.src b.n) (bads := [])
    (by rw [hx]; exact h.copies.ring) (by rw [hx]; exact hin)
    (by rw [hlen, hx, hn.via.hbmWritable hn.phase]; exact hw)
  refine ⟨_, h.exec, ?_, ?_⟩
  · rw [State.burstWritten_mem, hstop]
    exact hn.via.only .mem (by decide)
  · rw [State.burstWritten_chan, hstop, State.updChan_chan, hx]
    rfl

end
end Sys2Proof.Machine
end

section
namespace Sys2Proof.Machine

/-! ### A burst that is not of whole granules (02 R56; 08 R213, R215) -/

/-- Channel 0 of engine 4 moves one byte from an unmapped address to HBM under protection: the mirrored row of the
journal. -/
def gapToMirror : State :=
  { State.reset with
    hbm := { Hbm.reset with phase := .ready, bucket := 32 }
    jnl := { State.reset.jnl with mirrorJ := 1 }
    dma := (State.reset.updChan 4 0 (fun x => { x with
      phase := .running, desc := ⟨2 ^ 31, otherBase, hbmSize - 0x4000000, 1, 0, 0⟩ })).dma }

/-- Its burst. -/
def gapByte : Burst1 := ⟨otherBase, 1, 1⟩

theorem gapToMirror_serves : (gapToMirror.serveOrder 4).find? (fun i => gapToMirror.hasSpace 4 i) = some 0 := by decide

theorem gapToMirror_burst : gapToMirror.burstOf 4 0 = some gapByte := by decide

/-- The burst meets protected HBM. -/
theorem gapToMirror_protected : gapToMirror.hbmWritable (hbmSize - 0x4000000) 1 = false := by decide

/-- An unmapped address yields no whole granule, so nothing is written, and the transfer runs on. -/
theorem gapToMirror_runs_on : ((gapToMirror.issue 4 0 gapByte []).chan 4 0).stop = none := by decide +kernel

theorem gapToMirror_issues : exec (.burstIssue 4 []) gapToMirror = .next (gapToMirror.issue 4 0 gapByte []) := rfl

end Sys2Proof.Machine

open Sys2Proof Sys2Proof.Machine

/-- Refutes O24: its clause for HBM under protection speaks of bursts of any length. A burst of 1 byte from an unmapped
address reads no whole granule, so its write is empty, no protection stops it, and the transfer has no status.
`State.Moves.stopped` is the clause for plain copies from mapped addresses, `State.Moves.copied` what moves otherwise. -/
theorem not_burstsMove : ¬ Obligations.BurstsMove := by
  unfold Obligations.BurstsMove
  rintro ⟨-, h, -⟩
  obtain ⟨hmoves, -⟩ := h 4 0 [] gapByte gapToMirror (by decide) gapToMirror_serves gapToMirror_burst
  obtain ⟨t, ht, -, -, -, -, -, hstops, -⟩ := hmoves (.inr (.inr ⟨by decide, by decide, by decide⟩))
  obtain ⟨hstop, -⟩ := hstops rfl rfl (by decide) (by decide) gapToMirror_protected
  obtain rfl : gapToMirror.issue 4 0 gapByte [] = t := Host.Outcome.next.inj (gapToMirror_issues.symm.trans ht)
  rw [gapToMirror_runs_on] at hstop
  cases hstop
end

section
namespace Sys2Proof.Machine

/-! ### Where data that lands is written (05 R139; 06 R168; 08 R215; 09 R247) -/

section
variable {X Y : Nat → Prop} {s t u : State} {a n : Nat} {bs : List Byte} {bads : List Nat}

/-- Memory keeps its canonical form and changes at the addresses of `X` alone. -/
def State.Writes (X : Nat → Prop) (s t : State) : Prop :=
  Memory.wf s.mem = true →
    Memory.wf t.mem = true ∧ ∀ a, ¬ X a → SMap.get 0 t.mem a = SMap.get 0 s.mem a

/-- The `n` addresses from `a` on are among those of `X`. -/
def Spans (X : Nat → Prop) (a n : Nat) : Prop := ∀ i, i < n → X (a + i)

/-- The `n` addresses from `a` on. -/
def runOf (a n b : Nat) : Prop := a ≤ b ∧ b < a + n

theorem spans_runOf (a n : Nat) : Spans (runOf a n) a n := fun _ hi => ⟨Nat.le_add_right _ _, Nat.add_lt_add_left hi a⟩

theorem Spans.part (h : Spans X a n) {i m : Nat} (hi : i + m ≤ n) : Spans X (a + i) m := fun j hj => by
  rw [Nat.add_assoc]
  exact h (i + j) (by omega)

theorem State.Writes.refl (X : Nat → Prop) (s : State) : State.Writes X s s := fun h => ⟨h, fun _ _ => rfl⟩

theorem State.Writes.trans (h : State.Writes X s t) (h' : State.Writes X t u) : State.Writes X s u := fun hs =>
  have ⟨ht, hst⟩ := h hs
  have ⟨hu, htu⟩ := h' ht
  ⟨hu, fun a ha => (htu a ha).trans (hst a ha)⟩

theorem State.Writes.mono (h : State.Writes X s t) (hi : ∀ a, X a → Y a) : State.Writes Y s t := fun hs =>
  have ⟨ht, hst⟩ := h hs
  ⟨ht, fun a ha => hst a fun hx => ha (hi a hx)⟩

theorem State.Writes.of_mem (X : Nat → Prop) (h : t.mem = s.mem) : State.Writes X s t := fun hs =>
  ⟨h ▸ hs, fun _ _ => by rw [h]⟩

theorem State.Via.writes {K : List Change} (h : State.Via K s t) (hk : .mem ∉ K.map Change.field := by decide) :
    State.Writes X s t :=
  .of_mem X (h.only .mem hk)

/-- One run written. -/
theorem State.Writes.of_setRange (h : t.mem = SMap.setRange 0 s.mem a bs) (hx : Spans X a bs.length) :
    State.Writes X s t := fun hs => by
  rw [h]
  refine ⟨SMap.wf_setRange _ _ hs, fun b hb => ?_⟩
  rw [SMap.get_setRange hs, if_neg]
  rintro ⟨h1, h2⟩
  refine hb ?_
  rw [← Nat.add_sub_cancel' h1]
  exact hx (b - a) (by omega)

theorem foldl_writes {α : Type} {f : State → α → State} (l : List α) (hf : ∀ u, ∀ x ∈ l, State.Writes X u (f u x))
    (s : State) : State.Writes X s (l.foldl f s) :=
  List.foldlRecOn (motive := fun u => State.Writes X s u) l f (.refl X s) fun u hu x hx => hu.trans (hf u x hx)

/-- Host control that stays, and memory that changes among some addresses. -/
theorem State.Writes.told (h : State.Writes X s t) (hh : t.host = s.host) : State.Told X s t :=
  ⟨by rw [hh], .inl (by rw [hh]), fun hs => (h hs).1, fun hs a _ ha => (h hs).2 a ha⟩

/-! Pieces of 32 bytes -/

theorem pieces32_length (n : Nat) : ∀ bs : List Byte, (pieces32 n bs).length = n := by
  induction n with
  | zero => exact fun _ => rfl
  | succ n ih => exact fun bs => congrArg Nat.succ (ih _)

theorem pieces32_le {n : Nat} : ∀ {bs : List Byte}, ∀ g ∈ pieces32 n bs, g.length ≤ 32 := by
  induction n with
  | zero => exact fun _ h => absurd h List.not_mem_nil
  | succ n ih =>
    intro bs g hg
    rcases List.mem_cons.1 hg with rfl | hg
    · exact List.length_take_le _ _
    · exact ih g hg

theorem pieces32_getD_le (n i : Nat) (bs : List Byte) : ((pieces32 n bs).getD i []).length ≤ 32 := by
  rw [List.getD_eq_getElem?_getD]
  cases h : (pieces32 n bs)[i]? with
  | none => exact Nat.zero_le _
  | some g => exact pieces32_le g (List.mem_of_getElem? h)

/-- Zeros in place of poisoned pieces lengthen nothing. -/
theorem zeroBad_length_le (bads : List Nat) (bs : List Byte) : (zeroBad bads bs).length ≤ bs.length := by
  have hpiece (i : Nat) : (if bads.any (fun b => b / 2 == i / 2) then zeroBytes 32
      else (pieces32 (bs.length / 32) bs).getD i []).length ≤ 32 := by
    split
    · exact (zeroBytes_length 32).le
    · exact pieces32_getD_le _ _ _
  unfold zeroBad
  rw [List.length_flatMap, pieces32_length]
  refine (List.sum_le_card_nsmul _ 32 fun m hm => ?_).trans ?_
  · obtain ⟨i, -, rfl⟩ := List.mem_map.1 hm
    exact hpiece i
  · rw [List.length_map, List.length_range, smul_eq_mul]
    exact Nat.div_mul_le_self _ _

/-! Operations -/

theorem State.writeMarked_writes (hx : Spans X a bs.length) : State.Writes X s (s.writeMarked a bs bads) := by
  unfold State.writeMarked
  split
  · exact .of_setRange rfl hx
  · extract_lets gs
    refine foldl_writes _ (fun u i hi => .of_setRange rfl (hx.part ?_)) s
    have hi : i < bs.length / 32 := by
      rw [← pieces32_length (bs.length / 32) bs]
      exact List.mem_range.1 hi
    have hle : (gs.getD i []).length ≤ 32 := pieces32_getD_le _ _ _
    omega

theorem State.writeGranule_writes {g : List Byte} {bad : Bool} (hg : g.length ≤ 32) (hx : Spans X a 32) :
    State.Writes X s (s.writeGranule a g bad).1 := by
  have hwrite : State.Writes X s ((s.clearUpset a).writeB a g) := .of_setRange rfl (hx.part (i := 0) (by omega))
  have hzero : State.Writes X s ((s.clearUpset a).writeB a (zeroBytes 32)) := .of_setRange rfl hx
  unfold State.writeGranule
  extract_lets s1 listed
  split
  · split
    · exact hwrite
    · split
      · exact hwrite.trans (.of_mem X rfl)
      · exact hzero.trans (.of_mem X (State.count_mem _ _ _ _))
  · exact hwrite.trans (.of_mem X rfl)

theorem State.writeGranules_writes (gs : List (List Byte)) : ∀ {s : State} {a : Nat}, (∀ g ∈ gs, g.length ≤ 32) →
    Spans X a (32 * gs.length) → State.Writes X s (s.writeGranules a bads gs).1 := by
  induction gs with
  | nil => exact fun _ _ => .refl X _
  | cons g gs ih =>
    intro s a hg hx
    rw [List.length_cons] at hx
    exact (State.writeGranule_writes (hg g List.mem_cons_self) (hx.part (i := 0) (by omega))).trans
      (ih (fun h hh => hg h (List.mem_cons_of_mem _ hh)) (hx.part (by omega)))

/-- A write to a device address stays within its bytes, wherever they lie. -/
theorem State.writeDev_writes (hx : Spans X a bs.length) : State.Writes X s (s.writeDev a bs bads).1 := by
  have hzero : Spans X a (zeroBad bads bs).length := hx.part (i := 0) (by have := zeroBad_length_le bads bs; omega)
  unfold State.writeDev
  split
  case h_1 =>
    extract_lets s1
    have hwake : State.Writes X s s1 := .of_mem X rfl
    split
    · exact hwake.trans (.of_setRange rfl hx)
    · refine hwake.trans (State.writeGranules_writes _ pieces32_le ?_)
      rw [pieces32_length]
      exact hx.part (i := 0) (by omega)
  case h_2 | h_3 => exact State.writeMarked_writes hx
  case h_4 | h_5 => exact .refl X s
  case h_6 => exact .of_setRange rfl hzero
  case h_7 => exact .of_setRange rfl hzero

/-- Data for HBM lands at its own address. -/
theorem State.land_writes {x : Stalled} (hx : Spans X x.addr x.bytes.length) : State.Writes X s (s.land x) := by
  have hw : State.Writes X s (s.writeDev x.addr x.bytes x.bads).1 := State.writeDev_writes hx
  unfold State.land
  extract_lets n
  split
  · exact .refl X s
  · generalize s.writeDev x.addr x.bytes x.bads = p at hw ⊢
    obtain ⟨s1, lost⟩ := p
    have hmark : State.Writes X s ((s1.countPages hWrite x.addr n).markWrite x.addr n) := hw.trans
      (State.markWrite_via (M := [.cnt, .hbm]) (State.countPages_via (.refl _ s1) (by decide)) (by decide)).writes
    dsimp only
    split
    · exact hmark.trans (State.tickFault_via (M := [.note]) (.refl _ _) (by decide)).writes
    · exact hmark

/-! Arriving behind nothing and behind what waits -/

variable {x : Stalled}

theorem State.arrive_first (h : s.hbm.stalled = []) :
    s.arrive x = if ((s.stall x).bucketPass x.user x.bytes.length 3).1 then
      State.land (((s.stall x).bucketPass x.user x.bytes.length 3).2.updHbm (fun m => { m with stalled := [] })) x
    else ((s.stall x).bucketPass x.user x.bytes.length 3).2 := by
  have hq : (s.stall x).hbm.stalled = [x] := by simp [State.stall, State.updHbm, h]
  unfold State.arrive State.landHead
  rw [h, hq]
  rw [List.isEmpty_nil, if_pos rfl]
  dsimp only
  split
  · rfl
  · rfl

theorem State.arrive_behind (h : s.hbm.stalled ≠ []) : s.arrive x = s.stall x :=
  if_neg (by simpa using h)

/-- Data that arrives lands itself or waits; what waits before it stays where it is. -/
theorem State.arrive_writes (hx : Spans X x.addr x.bytes.length) : State.Writes X s (s.arrive x) := by
  by_cases h : s.hbm.stalled = []
  · have hpass : State.Writes X s ((s.stall x).bucketPass x.user x.bytes.length 3).2 :=
      (State.bucketPass_via (M := [.cnt, .hbm]) (State.stall_via (.refl _ s) (by decide)) (by decide)).writes
    rw [State.arrive_first h]
    split
    · refine hpass.trans (.trans (.of_mem X ?_) (State.land_writes hx))
      rfl
    · exact hpass
  · rw [State.arrive_behind h]
    exact .of_mem X rfl

end
end Sys2Proof.Machine
end

section
namespace Sys2Proof.Machine

/-! ### What writes leave of the stack (06 R164, R168, R173) -/

section
variable {s : State} {x : Stalled} {u : BucketUser} {m n : Nat}

/-- What data that has arrived waits for: the data and the accesses before it, and the stack's phase. -/
def Hbm.queued (h : Hbm) := (h.stalled, h.phase, h.waiting)

/-- The same, with the level of the bucket. -/
def Hbm.flow (h : Hbm) := (h.queued, h.bucket)

theorem State.Via.flow {K : List Change} {t : State} (h : State.Via K s t)
    (hk : .hbm ∉ K.map Change.field := by decide) : t.hbm.flow = s.hbm.flow :=
  congrArg Hbm.flow (h.only .hbm hk)

theorem State.writeGranule_flow (s : State) (a : Nat) (bs : List Byte) (bad : Bool) :
    (s.writeGranule a bs bad).1.hbm.flow = s.hbm.flow := by
  unfold State.writeGranule
  extract_lets s1 listed
  split
  · split
    · rfl
    · split
      · rfl
      · exact congrArg Hbm.flow (State.count_hbm _ _ _ _)
  · rw [State.updHbm_hbm]
    split
    · rfl
    · rfl

theorem State.writeGranules_flow (gs : List (List Byte)) : ∀ (s : State) (a : Nat) (bads : List Nat),
    (s.writeGranules a bads gs).1.hbm.flow = s.hbm.flow := by
  induction gs with
  | nil => exact fun _ _ _ => rfl
  | cons g gs ih => exact fun s a bads => (ih _ _ _).trans (s.writeGranule_flow a g _)

theorem State.writeDev_flow (s : State) (a : Nat) (bs : List Byte) (bads : List Nat) :
    (s.writeDev a bs bads).1.hbm.flow = s.hbm.flow := by
  have marked : (s.writeMarked a bs bads).hbm.flow = s.hbm.flow :=
    (State.writeMarked_via (M := [.upsets, .mem, .poison, .wbQueue]) (.refl _ s) (by decide)).flow
  unfold State.writeDev
  split
  case h_1 =>
    extract_lets s1
    split
    · rfl
    · exact State.writeGranules_flow _ s1 _ _
  case h_2 | h_3 => exact marked
  all_goals rfl

theorem State.markWrite_flow (s : State) (a n : Nat) : (s.markWrite a n).hbm.flow = s.hbm.flow := by
  unfold State.markWrite
  split
  · rfl
  · rfl

theorem State.land_flow (s : State) (x : Stalled) : (s.land x).hbm.flow = s.hbm.flow := by
  have hw := s.writeDev_flow x.addr x.bytes x.bads
  unfold State.land
  extract_lets n
  split
  · rfl
  · generalize s.writeDev x.addr x.bytes x.bads = p at hw ⊢
    obtain ⟨s1, lost⟩ := p
    have hmark : ((s1.countPages hWrite x.addr n).markWrite x.addr n).hbm.flow = s.hbm.flow :=
      (State.markWrite_flow _ _ _).trans
        ((State.countPages_via (M := [.cnt]) (.refl _ s1) (by decide)).flow.trans hw)
    dsimp only
    split
    · exact (State.tickFault_via (M := [.note]) (.refl _ _) (by decide)).flow.trans hmark
    · exact hmark

/-! ### Data that finds the way into HBM open (06 R164) -/

/-- Nothing waits for HBM before a user's data, and the bucket holds `n` bytes for it. -/
structure State.Flows (u : BucketUser) (n : Nat) (s : State) : Prop where
  /-- No data has arrived that waits. -/
  stalled : s.hbm.stalled = []
  /-- The stack answers. -/
  ready : s.hbm.phase = .ready
  /-- No access waits at priority 3 or above. -/
  free : s.heldBack 3 = false
  /-- The user has none waiting. -/
  first : ∀ w ∈ s.hbm.waiting, w.user ≠ u
  /-- The level covers the bytes. -/
  level : n ≤ s.hbm.bucket

theorem State.Flows.of_grants (hs : s.hbm.stalled = []) (hg : s.grants u n 3) (hn : n ≠ 0) : s.Flows u n :=
  have ⟨hready, hfree, hlevel, hfirst⟩ := hg.resolve_left hn
  ⟨hs, hready, hfree, hfirst, hlevel⟩

theorem State.Flows.grants (h : s.Flows u n) : s.grants u n 3 := .inr ⟨h.ready, h.free, h.level, h.first⟩

/-- What the way into HBM depends on stands as it did, but for the level. -/
theorem State.Flows.leveled {t : State} (h : s.Flows u m) (e : t.hbm.queued = s.hbm.queued)
    (hn : n ≤ t.hbm.bucket) : t.Flows u n := by
  simp only [Hbm.queued, Prod.mk.injEq] at e
  obtain ⟨hstalled, hphase, hwaiting⟩ := e
  refine ⟨hstalled.trans h.stalled, hphase.trans h.ready, ?_, hwaiting ▸ h.first, hn⟩
  unfold State.heldBack
  rw [hwaiting]
  exact h.free

theorem State.Flows.congr {t : State} (h : s.Flows u n) (e : t.hbm.flow = s.hbm.flow) : t.Flows u n :=
  h.leveled (congrArg Prod.fst e) (h.level.trans_eq (congrArg Prod.snd e).symm)

/-- TIME moved credits the bucket, up to its depth. -/
theorem State.Flows.setTime (h : s.Flows u n) (hn : n ≤ 33554432) (t : Nat) : (s.setTime t).Flows u n := by
  have hlevel := h.level
  by_cases ht : s.tk.now ≤ t % 2 ^ 64
  · have e := s.setTime_forward_hbm ht
    refine h.leveled ((congrArg Hbm.queued e).trans rfl) ?_
    rw [e]
    exact le_min hn (hlevel.trans (Nat.le_add_right _ _))
  · have e := congrArg State.hbm (s.setTime_wrapped (Nat.lt_of_not_le ht))
    exact h.leveled ((congrArg Hbm.queued e).trans rfl) (hlevel.trans_eq (congrArg Hbm.bucket e).symm)

/-- The data that arrives lands, and the rest of the bytes are still held for the user. -/
theorem State.Flows.arrive (h : s.Flows u (x.bytes.length + n)) (hu : x.user = u) : (s.arrive x).Flows u n := by
  have hlevel := h.level
  have hfree : (s.stall x).heldBack 3 = false := h.free
  have hpass : (s.stall x).bucketPass x.user x.bytes.length 3 = (true, (s.stall x).charged x.bytes.length) :=
    State.bucketPass_granted (.inr ⟨h.ready, hfree, (Nat.le_add_right _ n).trans hlevel, hu ▸ h.first⟩)
  have hflow : (s.arrive x).hbm.flow = (s.hbm.queued, s.hbm.bucket - x.bytes.length) := by
    rw [State.arrive_first h.stalled, hpass, if_pos rfl, State.land_flow, State.updHbm_hbm, State.charged_hbm]
    show ((([], s.hbm.phase, s.hbm.waiting), s.hbm.bucket - x.bytes.length) : _ × _) = _
    rw [← h.stalled]
    rfl
  refine h.leveled (congrArg Prod.fst hflow) ?_
  rw [show (s.arrive x).hbm.bucket = _ from congrArg Prod.snd hflow]
  omega

end
end Sys2Proof.Machine
end

section
namespace Sys2Proof.Machine

/-! ### The rows of a burst frame (09 R252 steps 4 and 5) -/

section
variable {s : State} {p : Partition} {k ring y : Nat} {rows : List (List Byte × Bool)} {X : Nat → Prop}

/-- A row passes through the burst ring to its place in HBM. -/
def State.passRow (s : State) (p : Partition) (k ring y : Nat) (row : List Byte × Bool) : State :=
  (s.writeMarked (burstRing + (ring + y) % 512 * 2048) row.1 (if row.2 then List.range 64 else [])).arrive
    ⟨.burst, p.storage (k * 2097152 + y * 2048), row.1, if row.2 then List.range 64 else [], none⟩

theorem State.burstRows_cons (s : State) (p : Partition) (k ring y : Nat) (row : List Byte × Bool)
    (rows : List (List Byte × Bool)) : s.burstRows p k ring y (row :: rows) =
      if 0x100000 < s.burstHeld + 2048 then (y, s)
      else (s.passRow p k ring y row).burstRows p k ring (y + 1) rows := rfl

theorem State.burstRows_ge (rows : List (List Byte × Bool)) : ∀ {s : State} {y : Nat},
    y ≤ (s.burstRows p k ring y rows).1 := by
  induction rows with
  | nil => exact fun {_ _} => le_rfl
  | cons row rows ih =>
    intro s y
    rw [State.burstRows_cons]
    split
    · exact le_rfl
    · exact (Nat.le_succ y).trans ih

theorem State.burstRows_le (rows : List (List Byte × Bool)) : ∀ {s : State} {y : Nat},
    (s.burstRows p k ring y rows).1 ≤ y + rows.length := by
  induction rows with
  | nil => exact fun {_ _} => le_rfl
  | cons row rows ih =>
    intro s y
    rw [State.burstRows_cons, List.length_cons]
    split
    · exact Nat.le_add_right _ _
    · exact ih.trans (by omega)

/-- While nothing waits for HBM the ring always has room. -/
theorem State.burstHeld_none (h : s.hbm.stalled = []) : s.burstHeld = 0 := by
  unfold State.burstHeld
  rw [h]
  rfl

theorem State.Flows.passRow {n : Nat} {row : List Byte × Bool} (h : s.Flows .burst (row.1.length + n)) :
    (s.passRow p k ring y row).Flows .burst n := by
  have hring := h.congr (State.writeMarked_via (M := [.upsets, .mem, .poison, .wbQueue])
    (a := burstRing + (ring + y) % 512 * 2048) (bs := row.1) (bads := if row.2 then List.range 64 else [])
    (.refl _ s) (by decide)).flow
  exact State.Flows.arrive (x := ⟨.burst, _, row.1, _, none⟩) hring rfl

/-- All rows pass while the bucket holds their bytes. -/
theorem State.burstRows_all (rows : List (List Byte × Bool)) : ∀ {s : State} {y : Nat},
    (∀ r ∈ rows, r.1.length = 2048) → s.Flows .burst (2048 * rows.length) →
    (s.burstRows p k ring y rows).1 = y + rows.length := by
  induction rows with
  | nil => exact fun _ _ => rfl
  | cons row rows ih =>
    intro s y hlen h
    rw [List.length_cons] at h ⊢
    have hrow : row.1.length = 2048 := hlen row List.mem_cons_self
    have hnext : (s.passRow p k ring y row).Flows .burst (2048 * rows.length) :=
      State.Flows.passRow (by rw [hrow, Nat.add_comm]; exact h)
    rw [State.burstRows_cons, State.burstHeld_none h.stalled, if_neg (by decide),
      ih (fun r hr => hlen r (List.mem_cons_of_mem _ hr)) hnext]
    omega

theorem State.passRow_writes {row : List Byte × Bool} (hlen : row.1.length = 2048)
    (hring : Spans X burstRing 0x100000) (hx : Spans X (p.storage (k * 2097152 + y * 2048)) 2048) :
    State.Writes X s (s.passRow p k ring y row) := by
  refine (State.writeMarked_writes ?_).trans (State.arrive_writes (x := ⟨.burst, _, row.1, _, none⟩) ?_)
  · rw [hlen]
    exact hring.part (by omega)
  · show Spans X _ row.1.length
    rw [hlen]
    exact hx

/-- Rows write in the ring and at the places of those that pass. -/
theorem State.burstRows_writes (rows : List (List Byte × Bool)) : ∀ {s : State} {y : Nat},
    (∀ r ∈ rows, r.1.length = 2048) → Spans X burstRing 0x100000 →
    (∀ j, y ≤ j → j < (s.burstRows p k ring y rows).1 → Spans X (p.storage (k * 2097152 + j * 2048)) 2048) →
    State.Writes X s (s.burstRows p k ring y rows).2 := by
  induction rows with
  | nil => exact fun _ _ _ => .refl X _
  | cons row rows ih =>
    intro s y hlen hring hx
    rw [State.burstRows_cons] at hx ⊢
    split
    · exact .refl X s
    next h =>
      rw [if_neg h] at hx
      exact (State.passRow_writes (hlen row List.mem_cons_self) hring (hx y le_rfl (State.burstRows_ge rows))).trans
        (ih (fun r hr => hlen r (List.mem_cons_of_mem _ hr)) hring fun j hj => hx j (by omega))

end

/-! ### BURST_FRAME_START (09 R252) -/

section
variable (s : State) (c : ObjCfg) (b : Burst) (p : Partition) (rows : List RawRow) (lines : Nat)

/-- TIME of a burst's next frame. -/
def Burst.nextTime (b : Burst) : Nat := b.time0 + b.done * 1000000

/-- The device at that TIME, with the calibration of the frame. -/
def State.burstBegun (s : State) (b : Burst) : State := (s.setTime (max s.tk.now b.nextTime)).takeCal

/-- What the frame's pixels are computed from. -/
def State.burstEnv (s : State) (c : ObjCfg) (b : Burst) (rows : List RawRow) : PixEnv :=
  mkEnv 3 c.flags c.dynThresh c.ccm { s.img.now with again := c.burstAgain } s.img.cal
    b.theta rows 1024 b.trig.x b.trig.y s.freeCtr

/-- The frame's rows that the burst ring accepts. -/
def burstLines (c : ObjCfg) (e : PixEnv) (rows : List RawRow) (lines : Nat) : List (List Byte × Bool) :=
  (List.range (min lines 1024)).map (fun y =>
    ((List.range 1024).flatMap (fun x => leBytes 2 (e.tap c.burstTap x y).toNat),
      (rows.getD (16 + y) ⟨[], [], false⟩).bad))

/-- How many of them have passed, and the device then. -/
def State.burstPassed (s : State) (c : ObjCfg) (b : Burst) (p : Partition) (rows : List RawRow) (lines : Nat) :
    Nat × State :=
  let s := s.burstBegun b
  let e := s.burstEnv c b rows
  (s.countDefects e 1024).burstRows p b.done b.row 0 (burstLines c e rows lines)

/-- A burst of one frame more, `n` of whose rows have passed. -/
def Burst.framed (b : Burst) (n : Nat) : Burst :=
  { b with
    done := b.done + 1, dropped := b.dropped + (if n < 1024 then 1 else 0), row := b.row + n
    index := b.index ++ [(b.nextTime, n)] }

/-- The frame is counted and enters the index. -/
def State.burstIndexed (s : State) (b : Burst) (n : Nat) : State :=
  let s := s.count srcImg iBurstFrames 1
  let s := if n < 1024 then s.count srcImg iBurstDropped 1 else s
  (s.updImg (fun m => { m with mode := .burst (b.framed n) })).drawn 1

theorem State.burstFrame_eq : s.burstFrame c b p rows lines =
    (s.burstPassed c b p rows lines).2.burstIndexed b (s.burstPassed c b p rows lines).1 := by
  unfold State.burstFrame State.burstIndexed Burst.framed
  simp only [decide_eq_true_eq]
  rfl

theorem burstLines_length (e : PixEnv) : (burstLines c e rows lines).length = min lines 1024 := by
  unfold burstLines
  rw [List.length_map, List.length_range]

theorem words_length (n : Nat) (f : Nat → Nat) :
    ((List.range n).flatMap (fun x => leBytes 2 (f x))).length = 2 * n := by
  rw [← List.flatMap_map, leBytes_flat, List.length_map, List.length_range]

theorem burstLines_bytes (e : PixEnv) : ∀ r ∈ burstLines c e rows lines, r.1.length = 2048 := by
  intro r hr
  obtain ⟨y, -, rfl⟩ := List.mem_map.1 hr
  dsimp only
  rw [words_length]

theorem State.burstIndexed_via (n : Nat) : State.Via [.freeCtr, .cnt, .img] s (s.burstIndexed b n) := by
  unfold State.burstIndexed
  extract_lets s1 s2
  have h1 : State.Via [.freeCtr, .cnt, .img] s s1 := State.count_via (.refl _ s) (by decide)
  have h2 : State.Via [.freeCtr, .cnt, .img] s s2 := by
    unfold s2
    split
    · exact State.count_via h1 (by decide)
    · exact h1
  exact State.drawn_via (State.updImg_via h2 (by decide)) (by decide)

theorem State.burstBegun_via : State.Via [.cnt, .tk, .hbm, .idle, .img] s (s.burstBegun b) :=
  State.takeCal_via (State.setTime_via (.refl _ s) (by decide)) (by decide)

theorem State.burstPassed_via : State.Via [.upsets, .mem, .poison, .wbQueue, .cnt, .hbm, .note] (s.burstBegun b)
    (s.burstPassed c b p rows lines).2 :=
  State.burstRows_via (State.countDefects_via (.refl _ _) (by decide)) (by decide)

theorem State.takeCal_via_img : State.Via [.img] s s.takeCal := State.takeCal_via (.refl _ s) (by decide)

theorem State.burstFrame_now :
    (s.burstFrame c b p rows lines).tk.now = max s.tk.now (b.time0 + b.done * 1000000) % 2 ^ 64 := by
  rw [State.burstFrame_eq, (State.burstIndexed_via _ _ _).only .tk (by decide),
    (s.burstPassed_via c b p rows lines).only .tk (by decide)]
  unfold State.burstBegun
  rw [(State.takeCal_via_img _).only .tk (by decide), State.setTime_tk]
  rfl

theorem State.burstFrame_mode :
    (s.burstFrame c b p rows lines).img.mode = .burst (b.framed (s.burstPassed c b p rows lines).1) := by
  rw [State.burstFrame_eq]
  rfl

theorem State.burstPassed_le : (s.burstPassed c b p rows lines).1 ≤ min lines 1024 := by
  unfold State.burstPassed
  refine (State.burstRows_le _).trans ?_
  rw [burstLines_length, Nat.zero_add]

/-- Every accepted row passes while nothing waits for HBM and the bucket holds the bytes of a frame. -/
theorem State.burstPassed_all (h : s.Flows .burst (1024 * 2048)) :
    (s.burstPassed c b p rows lines).1 = min lines 1024 := by
  have hbegun : (s.burstBegun b).Flows .burst (1024 * 2048) :=
    (h.setTime (by decide) _).congr (State.takeCal_via_img _).flow
  have hcounted (e : PixEnv) : ((s.burstBegun b).countDefects e 1024).Flows .burst (1024 * 2048) :=
    hbegun.congr (State.countDefects_via (M := [.cnt]) (.refl _ _) (by decide)).flow
  unfold State.burstPassed
  extract_lets s1 e
  have hlevel := (hcounted e).level
  have hlen := burstLines_length c rows lines e
  rw [State.burstRows_all _ (burstLines_bytes c rows lines e) ((hcounted e).leveled rfl (by omega)), hlen,
    Nat.zero_add]

/-- The frame writes in the burst ring and in its own rows of the partition. -/
theorem State.burstFrame_writes {X : Nat → Prop} (hring : Spans X burstRing 0x100000)
    (hx : ∀ y, y < (s.burstPassed c b p rows lines).1 →
      Spans X (p.storage (b.done * 2097152 + y * 2048)) 2048) :
    State.Writes X s (s.burstFrame c b p rows lines) := by
  rw [State.burstFrame_eq]
  refine State.Writes.trans (t := (s.burstPassed c b p rows lines).2) ?_ (State.burstIndexed_via _ b _).writes
  refine (s.burstBegun_via b).writes.trans ?_
  exact (State.countDefects_via (M := [.cnt]) (.refl _ _) (by decide)).writes.trans
    (State.burstRows_writes _ (burstLines_bytes c rows lines _) hring fun y _ hy => hx y hy)

end
end Sys2Proof.Machine
end

section
namespace Sys2Proof.Machine

/-! ### What operations on one stream leave of the sensor (09 R244 to R248) -/

section
variable {s t u : State} {i j : Fin 5} {K : List Change}

theorem State.updStream_get (s : State) (i j : Fin 5) (g : StreamSt → StreamSt) :
    (s.updStream i g).img.streams[j] = if i = j then g s.img.streams[j] else s.img.streams[j] := by
  simp only [State.updStream, State.updImg_img, Fin.getElem_fin, Vector.getElem_set]
  by_cases h : i = j
  · subst h; simp
  · rw [if_neg (fun e => h (Fin.ext e)), if_neg h]

theorem State.updStream_same (s : State) (i : Fin 5) (g : StreamSt → StreamSt) :
    (s.updStream i g).img.streams[i] = g s.img.streams[i] := by
  rw [State.updStream_get, if_pos rfl]

theorem State.streams_congr (h : t.img = s.img) (i : Fin 5) : t.img.streams[i] = s.img.streams[i] :=
  congrArg (fun m : Img => m.streams[i]) h

theorem State.Via.stream (h : State.Via K s t) (i : Fin 5) (hk : .img ∉ K.map Change.field := by decide) :
    t.img.streams[i] = s.img.streams[i] :=
  State.streams_congr (h.only .img hk) i

/-- The sensor changes in one stream alone, which keeps its count of skipped slots. -/
structure State.OnStream (i : Fin 5) (s t : State) : Prop where
  /-- All but the streams is as it was. -/
  sensor : t.img = { s.img with streams := t.img.streams }
  /-- So are the other streams. -/
  others : ∀ j, j ≠ i → t.img.streams[j] = s.img.streams[j]
  /-- The count of skipped slots stays. -/
  skipped : t.img.streams[i].skipped = s.img.streams[i].skipped

theorem State.OnStream.of_img (h : t.img = s.img) : State.OnStream i s t :=
  ⟨by rw [h], fun _ _ => by rw [h], by rw [h]⟩

theorem State.Via.onStream (h : State.Via K s t) (hk : .img ∉ K.map Change.field := by decide) :
    State.OnStream i s t :=
  .of_img (h.only .img hk)

theorem State.OnStream.trans (h : State.OnStream i s t) (h' : State.OnStream i t u) : State.OnStream i s u :=
  ⟨by rw [h'.sensor, h.sensor], fun j hj => (h'.others j hj).trans (h.others j hj), h'.skipped.trans h.skipped⟩

theorem State.updStream_onStream {g : StreamSt → StreamSt} (hg : ∀ x, (g x).skipped = x.skipped) :
    State.OnStream i s (s.updStream i g) :=
  ⟨rfl, fun j hj => by rw [State.updStream_get, if_neg hj.symm], by rw [State.updStream_same, hg]⟩

section
variable {a b n : Nat} {g : StreamSt → StreamSt}

theorem State.updStream_counted (s : State) (i : Fin 5) (g : StreamSt → StreamSt) (a b n : Nat) :
    State.Via [.cnt] (s.updStream i g) ((s.updStream i g).count a b n) :=
  State.count_via (.refl _ _) (by decide)

theorem State.updStream_count_stream : ((s.updStream i g).count a b n).img.streams[i] = g s.img.streams[i] :=
  ((s.updStream_counted i g a b n).stream i).trans (s.updStream_same i g)

theorem State.updStream_count_onStream (hg : ∀ x, (g x).skipped = x.skipped) :
    State.OnStream i s ((s.updStream i g).count a b n) :=
  (State.updStream_onStream hg).trans (s.updStream_counted i g a b n).onStream

end

/-- Every stream keeps its count of skipped slots. -/
theorem State.OnStream.skips (h : State.OnStream i s t) (j : Fin 5) :
    t.img.streams[j].skipped = s.img.streams[j].skipped := by
  by_cases hj : j = i
  · rw [hj]
    exact h.skipped
  · rw [h.others j hj]

end

/-! ### Records that the holding queue takes (12 R345) -/

section
variable {s t u : State} {i : Fin 5} {K : List Change} {m m' n n' k : Nat}

/-- While no record can be placed in the event ring, records join the holding queue, which has room for `n` more at `s`
and is left with room for `m` of these. -/
def State.Queues (m n : Nat) (s t : State) : Prop :=
  s.evtRoom = false → s.host.held.length + n ≤ 4096 →
    t.evtRoom = false ∧ t.host.held.length + m ≤ s.host.held.length + n ∧ ∀ r ∈ s.host.held, r ∈ t.host.held

theorem State.Queues.trans (h : State.Queues m n s t) (h' : State.Queues k m t u) : State.Queues k n s u := by
  intro hroom hlen
  obtain ⟨hroom', hlen', hkept⟩ := h hroom hlen
  obtain ⟨hroom'', hlen'', hkept'⟩ := h' hroom' (hlen'.trans hlen)
  exact ⟨hroom'', hlen''.trans hlen', fun r hr => hkept' r (hkept r hr)⟩

theorem State.Queues.add (h : State.Queues m n s t) (k : Nat) : State.Queues (m + k) (n + k) s t := by
  intro hroom hlen
  obtain ⟨hroom', hlen', hkept⟩ := h hroom (by omega)
  exact ⟨hroom', by omega, hkept⟩

theorem State.Queues.mono (h : State.Queues m n s t) (hm : m' ≤ m) (hn : n ≤ n') : State.Queues m' n' s t := by
  intro hroom hlen
  obtain ⟨hroom', hlen', hkept⟩ := h hroom (by omega)
  exact ⟨hroom', by omega, hkept⟩

theorem State.Queues.of_host (hh : t.host = s.host) (ha : t.ap = s.ap) (n : Nat) : State.Queues n n s t := by
  intro hroom _
  refine ⟨?_, by rw [hh], fun r hr => hh ▸ hr⟩
  rw [← hroom]
  unfold State.evtRoom State.evtRingSize
  rw [hh, ha]

theorem State.Via.queues (h : State.Via K s t) (n : Nat)
    (hk : .host ∉ K.map Change.field ∧ .ap ∉ K.map Change.field := by decide) : State.Queues n n s t :=
  .of_host (h.only .host hk.1) (h.only .ap hk.2) n

/-- A record of a source that the holding queue takes. -/
theorem State.eventAt_held {type src time tick flags extra : Nat} {payload : List Byte} (hroom : s.evtRoom = false)
    (hlen : s.host.held.length < 4096) :
    (s.eventAt type src time tick flags extra payload).host.held = s.host.held ++
      [⟨type, src, s.host.seqs.get src, time, tick, flags ||| 4, extra, payload⟩] := by
  have hroom' : (s.nextSeq src).2.evtRoom = false := hroom
  unfold State.eventAt State.placeRec
  dsimp only
  rw [hroom', Bool.and_false, if_neg Bool.false_ne_true]
  unfold State.holdEvent
  rw [if_pos (show (s.nextSeq src).2.host.held.length < 4096 from hlen)]
  rfl

theorem State.eventAt_queues (s : State) (type src time tick flags extra : Nat) (payload : List Byte) :
    State.Queues 0 1 s (s.eventAt type src time tick flags extra payload) := by
  intro hroom hlen
  refine ⟨?_, ?_, ?_⟩
  · have hroom' : (s.nextSeq src).2.evtRoom = false := hroom
    unfold State.eventAt State.placeRec
    dsimp only
    rw [hroom', Bool.and_false, if_neg Bool.false_ne_true]
    unfold State.holdEvent
    rw [if_pos (show (s.nextSeq src).2.host.held.length < 4096 from hlen)]
    exact hroom
  · rw [State.eventAt_held hroom hlen, List.length_append]
    exact le_rfl
  · rw [State.eventAt_held hroom hlen]
    exact fun r hr => List.mem_append_left _ hr

theorem State.fault_queues (s : State) (status src region block addr : Nat) (detail : List Byte) :
    State.Queues 0 1 s (s.fault status src region block addr detail) := s.eventAt_queues _ _ _ _ _ _ _

theorem foldl_queues {α : Type} {f : State → α → State} (l : List α) (hf : ∀ u a, State.Queues 0 n u (f u a)) :
    ∀ s : State, State.Queues 0 (n * l.length) s (l.foldl f s) := by
  induction l with
  | nil => exact fun s => .of_host rfl rfl 0
  | cons a l ih =>
    intro s
    rw [List.length_cons, Nat.mul_succ, Nat.add_comm]
    exact ((hf s a).add (n * l.length)).trans ((ih (f s a)).mono (Nat.zero_le _) (Nat.zero_add _).ge)

/-- Records that a stream may still report in its frame beside its FRAME_STATUS: its truncation and its poison (09 R246,
R247). -/
def StreamSt.owed (x : StreamSt) : Nat := (if x.trunc.isSome then 0 else 1) + (if x.bad then 0 else 1)

theorem StreamSt.owed_le (x : StreamSt) : x.owed ≤ 2 := by
  unfold StreamSt.owed
  split
  · split <;> omega
  · split <;> omega

/-- Operations on a stream, which report what it owes. -/
structure State.Reports (i : Fin 5) (s t : State) : Prop where
  /-- Only the stream changes. -/
  on : State.OnStream i s t
  /-- Each record that it owed is reported once. -/
  queues : State.Queues t.img.streams[i].owed s.img.streams[i].owed s t

theorem State.Reports.trans (h : State.Reports i s t) (h' : State.Reports i t u) : State.Reports i s u :=
  ⟨h.on.trans h'.on, h.queues.trans h'.queues⟩

theorem State.Via.reports (h : State.Via K s t) (hk : .img ∉ K.map Change.field ∧ .host ∉ K.map Change.field ∧
    .ap ∉ K.map Change.field := by decide) : State.Reports i s t := by
  have himg : t.img = s.img := h.only .img hk.1
  exact ⟨.of_img himg, himg ▸ h.queues _ hk.2⟩

theorem State.Reports.refl (i : Fin 5) (s : State) : State.Reports i s s := (State.Via.refl [] s).reports

section
variable {g : StreamSt → StreamSt} {a b k : Nat}

theorem State.updStream_count_queues (s : State) (i : Fin 5) (g : StreamSt → StreamSt) (a b k n : Nat) :
    State.Queues n n s ((s.updStream i g).count a b k) :=
  (State.Queues.of_host rfl rfl n).trans ((s.updStream_counted i g a b k).queues n)

/-- A stream changes and nothing is reported. -/
theorem State.updStream_count_reports (hs : ∀ x, (g x).skipped = x.skipped)
    (ho : (g s.img.streams[i]).owed ≤ s.img.streams[i].owed) : State.Reports i s ((s.updStream i g).count a b k) :=
  ⟨State.updStream_count_onStream hs, by
    rw [State.updStream_count_stream]
    exact (s.updStream_count_queues i g a b k _).mono ho le_rfl⟩

/-- A stream reports what it owed. -/
theorem State.updStream_fault_reports {src status region block addr : Nat} {detail : List Byte}
    (hs : ∀ x, (g x).skipped = x.skipped) (ho : (g s.img.streams[i]).owed + 1 = s.img.streams[i].owed) :
    State.Reports i s (((s.updStream i g).count a b k).fault status src region block addr detail) := by
  have hfault : State.Via [.out, .ring, .cnt, .note] ((s.updStream i g).count a b k)
      (((s.updStream i g).count a b k).fault status src region block addr detail) :=
    State.fault_via (.refl _ _) (by decide)
  refine ⟨(State.updStream_count_onStream hs).trans hfault.onStream, ?_⟩
  rw [hfault.stream i, State.updStream_count_stream, ← ho]
  exact (s.updStream_count_queues i g a b k _).trans
    (((State.fault_queues _ status src region block addr detail).add _).mono (Nat.zero_add _).ge (Nat.add_comm _ _).le)

end

end

/-! ### A stream truncated or poisoned (09 R246, R247) -/

section
variable {s : State} {i : Fin 5} {q : Nat}

theorem State.truncate_cut (h : s.img.streams[i].trunc.isSome = true) : s.truncate i q = s := by
  unfold State.truncate
  split
  · rfl
  next hn => rw [hn] at h; cases h

theorem State.truncate_runs (h : s.img.streams[i].trunc = none) : s.truncate i q =
    if q = 0 then ((s.updStream i (fun x => { x with trunc := some q })).count srcImg (iTrunc i.val) 1).fault
      0x0310 (srcImg + i.val) 4 2 0 []
    else (s.updStream i (fun x => { x with trunc := some q })).count srcImg (iTrunc i.val) 1 := by
  unfold State.truncate
  rw [h]

theorem StreamSt.owed_cut {x : StreamSt} (h : x.trunc = none) (q : Nat) :
    ({ x with trunc := some q } : StreamSt).owed + 1 = x.owed := by
  simp only [StreamSt.owed, h, Option.isSome_some, Option.isSome_none, if_true, Bool.false_eq_true, if_false]
  omega

theorem State.truncate_reports (s : State) (i : Fin 5) (q : Nat) : State.Reports i s (s.truncate i q) := by
  cases h : s.img.streams[i].trunc with
  | some v =>
    rw [State.truncate_cut (by rw [h]; rfl)]
    exact .refl i s
  | none =>
    have ho := StreamSt.owed_cut h q
    rw [State.truncate_runs h]
    split
    · exact State.updStream_fault_reports (fun _ => rfl) ho
    · exact State.updStream_count_reports (fun _ => rfl) (ho.le.trans' (Nat.le_succ _))

theorem State.truncate_stream (h : s.img.streams[i].trunc = none) :
    (s.truncate i q).img.streams[i] = { s.img.streams[i] with trunc := some q } := by
  rw [State.streams_congr (congrArg State.img (State.truncate_runs h)) i]
  split
  · exact ((State.fault_via (M := [.out, .ring, .cnt, .note]) (.refl _ _) (by decide)).stream i).trans
      State.updStream_count_stream
  · exact State.updStream_count_stream

theorem StreamSt.owed_bad {x : StreamSt} (h : x.bad = false) :
    ({ x with bad := true } : StreamSt).owed + 1 = x.owed := by
  simp only [StreamSt.owed, h, if_true, Bool.false_eq_true, if_false]

theorem State.poisonedGroup_eq (s : State) (i : Fin 5) : s.poisonedGroup i =
    if s.img.streams[i].bad then (s.updStream i (fun x => { x with bad := true })).count srcImg (iPoisoned i.val) 1
    else ((s.updStream i (fun x => { x with bad := true })).count srcImg (iPoisoned i.val) 1).fault
      0x0314 (srcImg + i.val) 4 2 0 [] := rfl

theorem State.poisonedGroup_reports (s : State) (i : Fin 5) : State.Reports i s (s.poisonedGroup i) := by
  rw [State.poisonedGroup_eq]
  split
  next h => exact State.updStream_count_reports (fun _ => rfl) (by simp only [StreamSt.owed, h]; exact le_rfl)
  next h => exact State.updStream_fault_reports (fun _ => rfl) (StreamSt.owed_bad (Bool.eq_false_iff.2 h))

theorem State.poisonedGroup_stream (s : State) (i : Fin 5) :
    (s.poisonedGroup i).img.streams[i] = { s.img.streams[i] with bad := true } := by
  rw [State.streams_congr (congrArg State.img (s.poisonedGroup_eq i)) i]
  split
  · exact State.updStream_count_stream
  · exact ((State.fault_via (M := [.out, .ring, .cnt, .note]) (.refl _ _) (by decide)).stream i).trans
      State.updStream_count_stream

end
end Sys2Proof.Machine
end

section
namespace Sys2Proof.Machine

/-! ### A line group (09 R244 to R247) -/

section
variable {s : State} {c : ObjCfg} {e : PixEnv} {fr : FrameSt} {i : Fin 5} {lo hi : Nat}

/-- A DMA channel reads the stream, and its ring is full of groups that it has not taken. -/
def State.ringFull (s : State) (c : ObjCfg) (i : Fin 5) : Prop :=
  s.streamDma c i = true ∧ (c.stream i).ringGroups ≤ s.img.streams[i].held.length

theorem State.ringFull_iff :
    (s.streamDma c i && decide ((c.stream i).ringGroups ≤ s.img.streams[i].held.length)) = true ↔ s.ringFull c i := by
  rw [Bool.and_eq_true, decide_eq_true_eq]
  rfl

/-- A row that the group takes was lost. -/
def groupBad (c : ObjCfg) (fr : FrameSt) (i : Fin 5) (lo hi : Nat) : Bool :=
  let rows := groupRows (c.stream i) lo hi
  ((fr.rows.drop (modeOb c.mode + rows.1)).take (rows.2 - rows.1)).any (·.bad)

/-- The units of a group that are marked poisoned. -/
def groupBads (c : ObjCfg) (e : PixEnv) (fr : FrameSt) (i : Fin 5) (lo hi : Nat) : List Nat :=
  if groupBad c fr i lo hi then List.range ((groupData e (c.stream i) c.tone lo hi).length / 32) else []

/-- The group stands in the ring. -/
def State.groupWritten (s : State) (c : ObjCfg) (e : PixEnv) (fr : FrameSt) (i : Fin 5) (lo hi : Nat) : State :=
  s.writeMarked (c.ringBase i.val + s.img.streams[i].pos * (c.stream i).groupBytes)
    (groupData e (c.stream i) c.tone lo hi) (groupBads c e fr i lo hi)

/-- A stream that has emitted its lines below `hi`. -/
def StreamSt.taken (x : StreamSt) (groups hi : Nat) (dma : Bool) : StreamSt :=
  { x with pos := (x.pos + 1) % groups, held := if dma then x.held ++ [x.pos] else x.held, lines := hi }

/-- The stream's place moves past the group. -/
def State.groupTaken (s : State) (c : ObjCfg) (fr : FrameSt) (i : Fin 5) (lo hi : Nat) (dma : Bool) : State :=
  let s := (s.updStream i (fun x => x.taken (c.stream i).ringGroups hi dma)).count srcImg (iGroups i.val) 1
  if groupBad c fr i lo hi then s.poisonedGroup i else s

theorem State.deliverGroup_full (h : s.ringFull c i) : s.deliverGroup c e fr i lo hi = s.truncate i 0 := by
  unfold State.deliverGroup
  extract_lets sc st bs rows bad bads dma u
  exact if_pos (State.ringFull_iff.2 h)

theorem State.deliverGroup_ring (h : ¬ s.ringFull c i) (hd : (c.stream i).dest ≠ 1) :
    s.deliverGroup c e fr i lo hi =
      (s.groupWritten c e fr i lo hi).groupTaken c fr i lo hi (s.streamDma c i) := by
  unfold State.deliverGroup
  extract_lets sc st bs rows bad bads dma u
  rw [if_neg fun q => h (State.ringFull_iff.1 q), if_neg hd]
  rfl

/-- The Objective writer takes the group into its region. -/
def State.groupInRegion (s : State) (c : ObjCfg) (e : PixEnv) (fr : FrameSt) (i : Fin 5) (lo hi : Nat) : Bool × State :=
  (s.groupWritten c e fr i lo hi).regionDeliver (fin16 (c.stream i).facet) (fin16 (c.stream i).region) (2000 + i.val)
    (groupData e (c.stream i) c.tone lo hi) (groupBads c e fr i lo hi)

theorem State.deliverGroup_region (h : ¬ s.ringFull c i) (hd : (c.stream i).dest = 1) :
    s.deliverGroup c e fr i lo hi =
      if (s.groupInRegion c e fr i lo hi).1 then
        (s.groupInRegion c e fr i lo hi).2.groupTaken c fr i lo hi (s.streamDma c i)
      else (s.groupInRegion c e fr i lo hi).2.truncate i 0 := by
  unfold State.deliverGroup
  extract_lets sc st bs rows bad bads dma u
  rw [if_neg fun q => h (State.ringFull_iff.1 q), if_pos hd]
  show (if !(s.groupInRegion c e fr i lo hi).1 then (s.groupInRegion c e fr i lo hi).2.truncate i 0
    else (s.groupInRegion c e fr i lo hi).2.groupTaken c fr i lo hi dma) = _
  cases (s.groupInRegion c e fr i lo hi).1 with
  | true => rfl
  | false => rfl

theorem State.groupWritten_via (s : State) (c : ObjCfg) (e : PixEnv) (fr : FrameSt) (i : Fin 5) (lo hi : Nat) :
    State.Via [.upsets, .mem, .poison, .wbQueue] s (s.groupWritten c e fr i lo hi) :=
  State.writeMarked_via (.refl _ s) (by decide)

theorem State.groupInRegion_via (s : State) (c : ObjCfg) (e : PixEnv) (fr : FrameSt) (i : Fin 5) (lo hi : Nat) :
    State.Via [.freeCtr, .upsets, .mem, .poison, .wbQueue, .cnt, .facets] s (s.groupInRegion c e fr i lo hi).2 :=
  State.regionDeliver_via ((s.groupWritten_via c e fr i lo hi).mono (by decide)) (by decide)

theorem State.groupTaken_reports (s : State) (dma : Bool) : State.Reports i s (s.groupTaken c fr i lo hi dma) := by
  unfold State.groupTaken
  extract_lets u
  have hu : State.Reports i s u := State.updStream_count_reports (fun _ => rfl) le_rfl
  split
  · exact hu.trans (u.poisonedGroup_reports i)
  · exact hu

theorem State.groupTaken_via (s : State) (dma : Bool) :
    State.Via [.out, .ring, .cnt, .img, .note] s (s.groupTaken c fr i lo hi dma) := by
  unfold State.groupTaken
  extract_lets u
  have hu : State.Via [.out, .ring, .cnt, .img, .note] s u :=
    State.count_via (State.updStream_via (.refl _ s) (by decide)) (by decide)
  split
  · exact State.poisonedGroup_via hu (by decide)
  · exact hu

/-- The stream that a group was taken from, but for its poison. -/
theorem State.groupTaken_stream (s : State) (dma : Bool) : ∃ bad,
    (s.groupTaken c fr i lo hi dma).img.streams[i] =
      { s.img.streams[i].taken (c.stream i).ringGroups hi dma with bad := bad } := by
  unfold State.groupTaken
  extract_lets u
  have hu : u.img.streams[i] = s.img.streams[i].taken (c.stream i).ringGroups hi dma :=
    State.updStream_count_stream
  split
  · exact ⟨true, by rw [State.poisonedGroup_stream, hu]⟩
  · exact ⟨_, hu⟩

/-- Whatever becomes of a group, it concerns its stream alone, and the stream reports what it owes. -/
theorem State.deliverGroup_reports (s : State) (c : ObjCfg) (e : PixEnv) (fr : FrameSt) (i : Fin 5) (lo hi : Nat) :
    State.Reports i s (s.deliverGroup c e fr i lo hi) := by
  by_cases h : s.ringFull c i
  · rw [State.deliverGroup_full h]
    exact s.truncate_reports i 0
  · by_cases hd : (c.stream i).dest = 1
    · have hput := (s.groupInRegion_via c e fr i lo hi).reports (i := i)
      rw [State.deliverGroup_region h hd]
      split
      · exact hput.trans (State.groupTaken_reports _ _)
      · exact hput.trans (State.truncate_reports _ i 0)
    · rw [State.deliverGroup_ring h hd]
      exact (s.groupWritten_via c e fr i lo hi).reports.trans (State.groupTaken_reports _ _)

/-- The group's bytes are written at its place in the ring, and nowhere else but records. -/
theorem State.deliverGroup_told (h : ¬ s.ringFull c i) (hd : (c.stream i).dest ≠ 1) :
    State.Told (runOf (c.ringBase i.val + s.img.streams[i].pos * (c.stream i).groupBytes)
      (groupData e (c.stream i) c.tone lo hi).length) s (s.deliverGroup c e fr i lo hi) := by
  rw [State.deliverGroup_ring h hd]
  exact ((State.writeMarked_writes (spans_runOf _ _)).told ((s.groupWritten_via c e fr i lo hi).only .host
    (by decide))).via (State.groupTaken_via _ _)

/-- Without a lost row the bytes stand there. -/
theorem State.deliverGroup_mem (h : ¬ s.ringFull c i) (hd : (c.stream i).dest ≠ 1)
    (hb : groupBad c fr i lo hi = false) : (s.deliverGroup c e fr i lo hi).mem =
      SMap.setRange 0 s.mem (c.ringBase i.val + s.img.streams[i].pos * (c.stream i).groupBytes)
        (groupData e (c.stream i) c.tone lo hi) := by
  rw [State.deliverGroup_ring h hd]
  unfold State.groupTaken State.groupWritten groupBads
  rw [hb, if_neg Bool.false_ne_true, if_neg Bool.false_ne_true, State.count_mem]
  rfl

theorem groupBad_none (h : ∀ r ∈ fr.rows, r.bad = false) : groupBad c fr i lo hi = false := by
  unfold groupBad
  exact List.any_eq_false.2 fun r hr => by simp [h r (List.mem_of_mem_drop (List.mem_of_mem_take hr))]

end
end Sys2Proof.Machine
end

section
namespace Sys2Proof.Machine

/-! ### LINE_GROUP_COMPLETE (09 R244 to R247) -/

section
variable {s : State} {c : ObjCfg} {fr : FrameSt} {st : Fin 5} {rows : List RawRow} {hi : Nat}

/-- A frame of which more rows have been read. -/
def FrameSt.andRows (fr : FrameSt) (rows : List RawRow) : FrameSt := { fr with rows := fr.rows ++ rows }

/-- The frame in readout holds the rows read so far. -/
def State.reading (s : State) (fr : FrameSt) : State := s.updImg (fun m => { m with frame := some fr })

/-- The next group of a stream made ready. -/
def State.groupReady (s : State) (c : ObjCfg) (fr : FrameSt) (st : Fin 5) (hi : Nat) : State :=
  ((s.reading fr).deliverGroup c (s.frameEnv c fr (modeH c.mode)) fr st s.img.streams[st].lines hi).drawn 1

theorem execLineGroupComplete_ready (hc : s.img.cfg = some c) (hf : s.img.frame = some fr)
    (hkind : (c.stream st).kind ≠ 0) (ht : s.img.streams[st].trunc = none)
    (hhi : hi = min (s.img.streams[st].lines + (c.stream st).lpg) (c.stream st).lines)
    (hlo : s.img.streams[st].lines < hi)
    (hneed : min (modeH c.mode) ((groupRows (c.stream st) s.img.streams[st].lines hi).2 + (c.stream st).margin) ≤
      (fr.andRows rows).activeRows c) :
    execLineGroupComplete st rows s = .next (s.groupReady c (fr.andRows rows) st hi) := by
  subst hhi
  unfold execLineGroupComplete
  simp only [hc, hf]
  refine if_neg fun hout => ?_
  simp only [Bool.or_eq_true, decide_eq_true_eq] at hout
  rcases hout with ((hk | hcut) | hend) | hfew
  · exact hkind hk
  · rw [State.updImg_img, ht] at hcut
    cases hcut
  · exact absurd hlo (Nat.not_lt.2 hend)
  · exact absurd hneed (Nat.not_le.2 hfew)

theorem State.reading_via (s : State) (fr : FrameSt) : State.Via [.img] s (s.reading fr) :=
  State.updImg_via (.refl _ s) (by decide)

/-- The group concerns its stream alone. -/
theorem State.groupReady_on (s : State) (c : ObjCfg) (fr : FrameSt) (st : Fin 5) (hi : Nat) :
    State.OnStream st (s.reading fr) (s.groupReady c fr st hi) :=
  (State.deliverGroup_reports _ c _ fr st _ hi).on.trans
    (State.drawn_via (M := [.freeCtr]) (.refl _ _) (by decide)).onStream

theorem State.groupReady_frame (s : State) (c : ObjCfg) (fr : FrameSt) (st : Fin 5) (hi : Nat) :
    (s.groupReady c fr st hi).img.frame = some fr :=
  congrArg Img.frame (s.groupReady_on c fr st hi).sensor

theorem State.groupReady_full (h : s.ringFull c st) (ht : s.img.streams[st].trunc = none) :
    (s.groupReady c fr st hi).img.streams[st] = { s.img.streams[st] with trunc := some 0 } ∧
    State.Told (fun _ => False) s (s.groupReady c fr st hi) := by
  have hfull : (s.reading fr).ringFull c st := h
  unfold State.groupReady
  rw [State.deliverGroup_full hfull]
  exact ⟨State.truncate_stream ht, State.Via.quietly (K := [.freeCtr, .out, .ring, .cnt, .img, .note])
    (State.drawn_via (State.truncate_via ((s.reading_via fr).mono (by decide)) (by decide)) (by decide))⟩

theorem State.groupReady_ring (h : ¬ s.ringFull c st) (hd : (c.stream st).dest ≠ 1) : ∃ bad,
    (s.groupReady c fr st hi).img.streams[st] =
      { s.img.streams[st].taken (c.stream st).ringGroups hi (s.streamDma c st) with bad := bad } := by
  have hring : ¬ (s.reading fr).ringFull c st := h
  unfold State.groupReady
  rw [State.deliverGroup_ring hring hd]
  obtain ⟨bad, hbad⟩ := State.groupTaken_stream (c := c) (fr := fr) (i := st) (lo := s.img.streams[st].lines) (hi := hi)
    ((s.reading fr).groupWritten c (s.frameEnv c fr (modeH c.mode)) fr st s.img.streams[st].lines hi)
    (s.streamDma c st)
  refine ⟨bad, hbad.trans ?_⟩
  rw [(State.groupWritten_via _ _ _ _ _ _ _).stream st]
  rfl

theorem State.groupReady_told (h : ¬ s.ringFull c st) (hd : (c.stream st).dest ≠ 1) :
    State.Told (runOf (c.ringBase st.val + s.img.streams[st].pos * (c.stream st).groupBytes)
      (groupData (s.frameEnv c fr (modeH c.mode)) (c.stream st) c.tone s.img.streams[st].lines hi).length) s
      (s.groupReady c fr st hi) := by
  have hring : ¬ (s.reading fr).ringFull c st := h
  exact ((((State.Told.refl _ s).via (s.reading_via fr)).trans (State.deliverGroup_told hring hd))).via
    (State.drawn_via (M := [.freeCtr]) (.refl _ _) (by decide))

/-- The bytes of a group without a lost row read back from the ring. -/
theorem State.groupReady_reads (h : ¬ s.ringFull c st) (hd : (c.stream st).dest ≠ 1)
    (hb : ∀ r ∈ fr.rows, r.bad = false) (hm : Memory.wf s.mem = true) :
    (s.groupReady c fr st hi).readB (c.ringBase st.val + s.img.streams[st].pos * (c.stream st).groupBytes)
      (groupData (s.frameEnv c fr (modeH c.mode)) (c.stream st) c.tone s.img.streams[st].lines hi).length =
      groupData (s.frameEnv c fr (modeH c.mode)) (c.stream st) c.tone s.img.streams[st].lines hi := by
  have hring : ¬ (s.reading fr).ringFull c st := h
  have hmem := State.deliverGroup_mem (e := s.frameEnv c fr (modeH c.mode)) (lo := s.img.streams[st].lines) (hi := hi)
    hring hd (groupBad_none hb)
  unfold State.readB State.groupReady
  rw [State.drawn_mem, hmem]
  exact SMap.getRange_setRange hm _ _

end
end Sys2Proof.Machine
end

section
namespace Sys2Proof.Machine

/-! ### The streams at the end of a readout (09 R244 to R248) -/

section
variable {s t u : State} {c : ObjCfg} {e : PixEnv} {fr : FrameSt} {i : Fin 5} {n : Nat}

/-- The sensor changes in its streams alone, and they keep their counts of skipped slots. -/
structure State.OnStreams (s t : State) : Prop where
  /-- All but the streams is as it was. -/
  sensor : t.img = { s.img with streams := t.img.streams }
  /-- The counts of skipped slots stay. -/
  skips : ∀ j : Fin 5, t.img.streams[j].skipped = s.img.streams[j].skipped

theorem State.OnStreams.refl (s : State) : State.OnStreams s s := ⟨rfl, fun _ => rfl⟩

theorem State.OnStreams.trans (h : State.OnStreams s t) (h' : State.OnStreams t u) : State.OnStreams s u :=
  ⟨by rw [h'.sensor, h.sensor], fun j => (h'.skips j).trans (h.skips j)⟩

theorem State.OnStream.all (h : State.OnStream i s t) : State.OnStreams s t := ⟨h.sensor, h.skips⟩

theorem foldl_onStreams {α : Type} {f : State → α → State} (l : List α) (hf : ∀ u a, State.OnStreams u (f u a))
    (s : State) : State.OnStreams s (l.foldl f s) :=
  List.foldlRecOn (motive := fun u => State.OnStreams s u) l f (.refl s) fun u hu a _ => hu.trans (hf u a)

theorem State.deliverLines_reports (s : State) (c : ObjCfg) (e : PixEnv) (fr : FrameSt) (i : Fin 5) (n k : Nat) :
    State.Reports i s (s.deliverLines c e fr i n k) := by
  induction k generalizing s with
  | zero => exact .refl i s
  | succ k ih =>
    unfold State.deliverLines
    extract_lets lo hi
    split
    · exact .refl i s
    · exact (s.deliverGroup_reports c e fr i lo hi).trans (ih _)

/-- The lines left of one stream. -/
def State.finishStream (c : ObjCfg) (e : PixEnv) (fr : FrameSt) (n : Nat) (s : State) (k : Nat) : State :=
  let i := fin5s k
  let sc := c.stream i
  if sc.kind = 0 then s else s.deliverLines c e fr i (sc.linesFrom n) (sc.lines + 1)

theorem State.finishStreams_eq (s : State) (c : ObjCfg) (fr : FrameSt) (n : Nat) :
    s.finishStreams c fr n = (List.range 5).foldl (State.finishStream c (s.frameEnv c fr n) fr n) s := rfl

theorem State.finishStream_reports (s : State) (k : Nat) :
    State.Reports (fin5s k) s (State.finishStream c e fr n s k) := by
  unfold State.finishStream
  extract_lets i sc
  split
  · exact .refl i s
  · exact s.deliverLines_reports c e fr i _ _

theorem State.finishStreams_on (s : State) (c : ObjCfg) (fr : FrameSt) (n : Nat) :
    State.OnStreams s (s.finishStreams c fr n) := by
  rw [State.finishStreams_eq]
  exact foldl_onStreams _ (fun u k => (u.finishStream_reports k).on.all) s

/-- Five streams report two records each at most. -/
theorem State.finishStreams_queues (s : State) (c : ObjCfg) (fr : FrameSt) (n : Nat) :
    State.Queues 0 10 s (s.finishStreams c fr n) := by
  rw [State.finishStreams_eq]
  exact foldl_queues (n := 2) (List.range 5)
    (fun u k => (u.finishStream_reports k).queues.mono (Nat.zero_le _) (StreamSt.owed_le _)) s

/-! The records of the streams -/

/-- A stream that has not ended with its lines is truncated (09 R246, R252, R254). -/
def State.cutStream (s : State) (c : ObjCfg) (cause : Option Nat) (i : Fin 5) : State :=
  match cause with
  | some q => s.truncate i q
  | none => if s.img.streams[i].lines < (c.stream i).lines then s.truncate i 0 else s

/-- The FRAME_STATUS record of stream `k` (09 R248). -/
def State.frameReport (s : State) (c : ObjCfg) (fr : FrameSt) (e : PixEnv) (n k : Nat) (i : Fin 5) : State :=
  s.eventAt 0x0020 (srcImg + k) fr.time fr.tick (frameFlags fr s.img.streams[i]) 0
    (framePayload c (c.stream i) fr s.img.streams[i] e.ob (dynCount e n))

/-- Stream `k`'s end of the frame: truncated or not, it has its record, and its count of skipped slots starts again. -/
def State.closeStream (s : State) (c : ObjCfg) (fr : FrameSt) (e : PixEnv) (n : Nat) (cause : Option Nat) (k : Nat)
    (i : Fin 5) : State :=
  if (c.stream i).kind = 0 then s
  else ((s.cutStream c cause i).frameReport c fr e n k i).updStream i (fun x => { x with skipped := 0 })

/-- The statistics of the frame, when they are on. -/
def State.statistics (s : State) (c : ObjCfg) (e : PixEnv) (fr : FrameSt) : State :=
  if bitOf c.flags 3 then s.statsBlock c e fr else s.drawn 1

/-- The streams of a frame ended. -/
def State.closeStreams (s : State) (c : ObjCfg) (fr : FrameSt) (e : PixEnv) (n : Nat) (cause : Option Nat) : State :=
  (List.range 5).foldl (fun s k => s.closeStream c fr e n cause k (fin5s k)) (s.countDefects e n)

theorem State.endFrame_eq (s : State) (c : ObjCfg) (fr : FrameSt) (n : Nat) (cause : Option Nat) :
    s.endFrame c fr n cause =
      ((((s.finishStreams c fr n).closeStreams c fr ((s.finishStreams c fr n).frameEnv c fr n) n cause).statistics c
        ((s.finishStreams c fr n).frameEnv c fr n) fr).updImg (fun m => { m with frame := none })) := by
  unfold State.endFrame State.statistics State.closeStreams State.closeStream State.frameReport State.cutStream
  rfl

/-- The record as the holding queue takes it. -/
def frameRecord (c : ObjCfg) (fr : FrameSt) (e : PixEnv) (n : Nat) (i : Fin 5) (x : StreamSt) (q : Nat) : EventRec :=
  ⟨0x0020, srcImg + i.val, q, fr.time, fr.tick, frameFlags fr x ||| 4, 0,
    framePayload c (c.stream i) fr x e.ob (dynCount e n)⟩

theorem fin5s_val (i : Fin 5) : fin5s i.val = i := Fin.ext (Nat.mod_eq_of_lt i.isLt)

theorem State.cutStream_reports (s : State) (c : ObjCfg) (cause : Option Nat) (i : Fin 5) :
    State.Reports i s (s.cutStream c cause i) := by
  unfold State.cutStream
  split
  · exact s.truncate_reports i _
  · split
    · exact s.truncate_reports i 0
    · exact .refl i s

theorem State.cutStream_queues (s : State) (c : ObjCfg) (cause : Option Nat) (i : Fin 5) :
    State.Queues 0 1 s (s.cutStream c cause i) := by
  have htrunc (q : Nat) : State.Queues 0 1 s (s.truncate i q) := by
    cases h : s.img.streams[i].trunc with
    | some v =>
      rw [State.truncate_cut (by rw [h]; rfl)]
      exact (State.Queues.of_host rfl rfl 0).mono le_rfl (Nat.zero_le 1)
    | none =>
      rw [State.truncate_runs h]
      split
      · exact ((s.updStream_count_queues i _ _ _ _ 1)).trans (State.fault_queues _ _ _ _ _ _ _)
      · exact (s.updStream_count_queues i _ _ _ _ 0).mono le_rfl (Nat.zero_le 1)
  unfold State.cutStream
  split
  · exact htrunc _
  · split
    · exact htrunc 0
    · exact (State.Queues.of_host rfl rfl 0).mono le_rfl (Nat.zero_le 1)

theorem State.frameReport_via (s : State) (c : ObjCfg) (fr : FrameSt) (e : PixEnv) (n k : Nat) (i : Fin 5) :
    State.Via [.out, .ring, .cnt, .note] s (s.frameReport c fr e n k i) :=
  State.eventAt_via (.refl _ s) (by decide)

theorem State.frameReport_queues (s : State) (c : ObjCfg) (fr : FrameSt) (e : PixEnv) (n k : Nat) (i : Fin 5) :
    State.Queues 0 1 s (s.frameReport c fr e n k i) := s.eventAt_queues _ _ _ _ _ _ _

theorem State.frameReport_held (hroom : s.evtRoom = false) (hlen : s.host.held.length < 4096) :
    ∃ q, frameRecord c fr e n i s.img.streams[i] q ∈ (s.frameReport c fr e n i.val i).host.held := by
  refine ⟨s.host.seqs.get (srcImg + i.val), ?_⟩
  unfold State.frameReport
  rw [State.eventAt_held hroom hlen]
  exact List.mem_append_right _ List.mem_cons_self

/-- What the end of one stream does. -/
structure State.Closes (c : ObjCfg) (fr : FrameSt) (e : PixEnv) (n : Nat) (i : Fin 5) (s t : State) : Prop where
  /-- All but the streams is as it was. -/
  sensor : t.img = { s.img with streams := t.img.streams }
  /-- So are the other streams. -/
  others : ∀ j, j ≠ i → t.img.streams[j] = s.img.streams[j]
  /-- The count of skipped slots starts again. -/
  restarts : (c.stream i).kind ≠ 0 → t.img.streams[i].skipped = 0
  /-- At most a truncation and the stream's record are reported. -/
  queues : State.Queues 0 2 s t
  /-- The record is held. -/
  record : (c.stream i).kind ≠ 0 → s.evtRoom = false → s.host.held.length + 2 ≤ 4096 →
    ∃ q, frameRecord c fr e n i { t.img.streams[i] with skipped := s.img.streams[i].skipped } q ∈ t.host.held

theorem State.closeStream_closes (s : State) (c : ObjCfg) (fr : FrameSt) (e : PixEnv) (n : Nat) (cause : Option Nat)
    (i : Fin 5) : State.Closes c fr e n i s (s.closeStream c fr e n cause i.val i) := by
  by_cases hk : (c.stream i).kind = 0
  · have hs : s.closeStream c fr e n cause i.val i = s := if_pos hk
    rw [hs]
    exact ⟨rfl, fun _ _ => rfl, fun h => absurd hk h, (State.Queues.of_host rfl rfl 0).mono le_rfl (Nat.zero_le 2),
      fun h => absurd hk h⟩
  · have hon := (s.cutStream_reports c cause i).on
    have hcut := s.cutStream_queues c cause i
    unfold State.closeStream
    rw [if_neg hk]
    generalize s.cutStream c cause i = u at hon hcut
    have hrep := u.frameReport_via c fr e n i.val i
    have hv : State.OnStream i s (u.frameReport c fr e n i.val i) := hon.trans hrep.onStream
    refine ⟨?_, fun j hj => ?_, fun _ => ?_, ?_, fun _ hroom hlen => ?_⟩
    · rw [State.updStream, State.updImg_img, hv.sensor]
    · rw [State.updStream_get, if_neg hj.symm, hv.others j hj]
    · rw [State.updStream_same]
    · exact (hcut.add 1).trans ((u.frameReport_queues c fr e n i.val i).trans (.of_host rfl rfl 0))
    · obtain ⟨hroom', hlen', -⟩ := hcut hroom (by omega)
      rw [State.updStream_same, hrep.stream i, ← hon.skipped]
      exact State.frameReport_held hroom' (by omega)

/-- What the ends of the streams below `m` do. -/
structure State.ClosesTo (c : ObjCfg) (fr : FrameSt) (e : PixEnv) (n m : Nat) (s t : State) : Prop where
  /-- All but the streams is as it was. -/
  sensor : t.img = { s.img with streams := t.img.streams }
  /-- So are the streams to come. -/
  others : ∀ j : Fin 5, m ≤ j.val → t.img.streams[j] = s.img.streams[j]
  /-- Their counts of skipped slots start again. -/
  restarts : ∀ i : Fin 5, i.val < m → (c.stream i).kind ≠ 0 → t.img.streams[i].skipped = 0
  /-- At most two records each are reported. -/
  queues : State.Queues 0 (2 * m) s t
  /-- Their records are held. -/
  records : s.evtRoom = false → s.host.held.length + 2 * m ≤ 4096 → ∀ i : Fin 5, i.val < m → (c.stream i).kind ≠ 0 →
    ∃ q, frameRecord c fr e n i { t.img.streams[i] with skipped := s.img.streams[i].skipped } q ∈ t.host.held

theorem State.ClosesTo.next {m : Nat} (h : State.ClosesTo c fr e n m s t) {i : Fin 5} (hi : i.val = m)
    (h' : State.Closes c fr e n i t u) : State.ClosesTo c fr e n (m + 1) s u := by
  have hne {j : Fin 5} (hj : j.val ≠ m) : j ≠ i := fun hji => hj (hji ▸ hi)
  refine ⟨by rw [h'.sensor, h.sensor], fun j hj => ?_, fun j hj hk => ?_, ?_, fun hroom hlen j hj hk => ?_⟩
  · rw [h'.others j (hne (by omega)), h.others j (by omega)]
  · by_cases hjm : j.val = m
    · obtain rfl : j = i := Fin.ext (hjm.trans hi.symm)
      exact h'.restarts hk
    · rw [h'.others j (hne hjm)]
      exact h.restarts j (by omega) hk
  · exact (h.queues.add 2).trans (h'.queues.mono le_rfl (Nat.zero_add 2).ge)
  · obtain ⟨hroom', hlen', -⟩ := h.queues hroom (by omega)
    by_cases hjm : j.val = m
    · obtain rfl : j = i := Fin.ext (hjm.trans hi.symm)
      rw [← h.others j hjm.ge]
      exact h'.record hk hroom' (by omega)
    · obtain ⟨q, hq⟩ := h.records hroom (by omega) j (by omega) hk
      obtain ⟨-, -, hkept⟩ := h'.queues hroom' (by omega)
      exact ⟨q, by rw [h'.others j (hne hjm)]; exact hkept _ hq⟩

theorem State.closeStream_closesTo (s : State) (c : ObjCfg) (fr : FrameSt) (e : PixEnv) (n : Nat) (cause : Option Nat)
    {m : Nat} (hm : m ≤ 5) :
    State.ClosesTo c fr e n m s
      ((List.range m).foldl (fun s k => s.closeStream c fr e n cause k (fin5s k)) s) := by
  induction m with
  | zero =>
    exact ⟨rfl, fun _ _ => rfl, fun _ hi => absurd hi (Nat.not_lt_zero _), .of_host rfl rfl 0,
      fun _ _ _ hi => absurd hi (Nat.not_lt_zero _)⟩
  | succ m ih =>
    have hi : fin5s m = ⟨m, hm⟩ := fin5s_val ⟨m, hm⟩
    rw [List.range_succ, List.foldl_append, List.foldl_cons, List.foldl_nil, hi]
    exact (ih (Nat.le_of_succ_le hm)).next (i := ⟨m, hm⟩) rfl (State.closeStream_closes _ c fr e n cause ⟨m, hm⟩)

theorem State.closeStreams_closes (s : State) (c : ObjCfg) (fr : FrameSt) (e : PixEnv) (n : Nat) (cause : Option Nat) :
    State.ClosesTo c fr e n 5 (s.countDefects e n) (s.closeStreams c fr e n cause) :=
  State.closeStream_closesTo _ c fr e n cause le_rfl

end
end Sys2Proof.Machine
end

section
namespace Sys2Proof.Machine

/-! ### The end of a readout (09 R248, R249) -/

section
variable {s : State} {c : ObjCfg} {e : PixEnv} {fr : FrameSt} {n : Nat} {cause : Option Nat}

/-- Where a frame's statistics stand in their ring of four. -/
def statsAt (fr : FrameSt) : Nat := otherBase + fr.seq % 4 * 16384

/-- The first bytes of a frame's statistics: its sequence number and its tick. -/
def statsHead (fr : FrameSt) : List Byte := leBytes 4 fr.seq ++ zeroBytes 4 ++ leBytes 8 fr.tick

/-- The statistics as they are written. -/
def State.statsBytes (s : State) (c : ObjCfg) (e : PixEnv) (fr : FrameSt) : List Byte :=
  fitBytes 64 (statsHead fr) ++ ((histogram e c).flatMap (leBytes 4) ++
    ((List.range 24).flatMap (fun gy => (List.range 32).flatMap (fun gx => gridCell e gx gy)) ++
    (s.flickerBlock c e fr ++
    (fitBytes 64 (e.ob.flatMap (fun v => leBytes 2 v.toNat) ++ leBytes 2 (toBits 16 fr.theta)) ++ zeroBytes 2880))))

/-- They are written and reported. -/
theorem State.statsBlock_eq (s : State) (c : ObjCfg) (e : PixEnv) (fr : FrameSt) : s.statsBlock c e fr =
    ((s.writeB (statsAt fr) (s.statsBytes c e fr)).drawn 1).eventAt 0x0020 0x0205 fr.time fr.tick 0 16384
      (leBytes 4 fr.seq ++ zeroBytes 4 ++ leBytes 8 (statsAt fr)) := by
  unfold State.statsBlock State.statsBytes statsHead statsAt
  simp only [List.append_assoc]

theorem State.statsBytes_head (s : State) (c : ObjCfg) (e : PixEnv) (fr : FrameSt) :
    16 ≤ (s.statsBytes c e fr).length ∧ (s.statsBytes c e fr).take 16 = statsHead fr := by
  unfold State.statsBytes
  refine ⟨?_, ?_⟩
  · rw [List.length_append, fitBytes_length]
    omega
  · rw [List.take_append_of_le_length (by rw [fitBytes_length]; omega)]
    rfl

/-- The head of the statistics stands unless their event record takes its place. -/
theorem State.statsBlock_head (hm : Memory.wf s.mem = true) (hr : ∀ k, k < 16 → ¬ s.recordByte (statsAt fr + k)) :
    Memory.wf (s.statsBlock c e fr).mem = true ∧ (s.statsBlock c e fr).readB (statsAt fr) 16 = statsHead fr := by
  obtain ⟨hlen, hhead⟩ := s.statsBytes_head c e fr
  have hv : State.Via [.out, .ring, .cnt, .note] ((s.writeB (statsAt fr) (s.statsBytes c e fr)).drawn 1)
      (s.statsBlock c e fr) := by
    rw [State.statsBlock_eq]
    exact State.eventAt_via (.refl _ _) (by decide)
  have hw : Memory.wf ((s.writeB (statsAt fr) (s.statsBytes c e fr)).drawn 1).mem = true := SMap.wf_setRange _ _ hm
  have htold := hv.quietly
  refine ⟨htold.wf hw, (State.readB_congr hw (htold.wf hw) fun i hi => htold.mem hw _ (hr i hi) id).trans ?_⟩
  unfold State.readB
  rw [State.drawn_mem, State.writeB_mem, SMap.getRange_setRange_take hm _ hlen, hhead]

theorem State.readLe_statsHead {t : State} (hm : Memory.wf t.mem = true)
    (h : t.readB (statsAt fr) 16 = statsHead fr) :
    t.readLe (statsAt fr) 4 = fr.seq % 2 ^ 32 ∧ t.readLe (statsAt fr + 8) 8 = fr.tick % 2 ^ 64 := by
  have hfield {i m v : Nat} (hi : i + m ≤ 16) (hv : ((statsHead fr).drop i).take m = leBytes m v) :
      t.readLe (statsAt fr + i) m = v % 256 ^ m := by
    unfold State.readLe
    rw [State.readB_within hm hi, h, hv, leNat_leBytes]
  exact ⟨hfield (i := 0) (m := 4) (by decide) rfl, hfield (i := 8) (m := 8) (by decide) rfl⟩

theorem State.statistics_via (s : State) (c : ObjCfg) (e : PixEnv) (fr : FrameSt) :
    State.Via [.freeCtr, .out, .mem, .ring, .cnt, .note] s (s.statistics c e fr) := by
  unfold State.statistics
  split
  · exact State.statsBlock_via (.refl _ s) (by decide)
  · exact State.drawn_via (.refl _ s) (by decide)

theorem State.statistics_queues (s : State) (c : ObjCfg) (e : PixEnv) (fr : FrameSt) :
    State.Queues 0 1 s (s.statistics c e fr) := by
  have hwritten (bs : List Byte) : State.Queues 1 1 s ((s.writeB (statsAt fr) bs).drawn 1) := .of_host rfl rfl 1
  unfold State.statistics
  split
  · rw [State.statsBlock_eq]
    exact (hwritten _).trans (State.eventAt_queues _ _ _ _ _ _ _ _)
  · exact (State.Queues.of_host rfl rfl 0).mono le_rfl (Nat.zero_le 1)

theorem State.frameEnv_congr {t : State} (h : State.OnStreams s t) (c : ObjCfg) (fr : FrameSt) (n : Nat) :
    t.frameEnv c fr n = State.frameEnv { s with freeCtr := t.freeCtr } c fr n := by
  unfold State.frameEnv
  rw [h.sensor]

/-- What the pixels of the frame that ends are computed from. -/
def State.endEnv (s : State) (c : ObjCfg) (fr : FrameSt) (n : Nat) : PixEnv := (s.finishStreams c fr n).frameEnv c fr n

/-- The frame's streams have ended. -/
def State.streamsEnded (s : State) (c : ObjCfg) (fr : FrameSt) (n : Nat) (cause : Option Nat) : State :=
  (s.finishStreams c fr n).closeStreams c fr (s.endEnv c fr n) n cause

theorem State.streamsEnded_via (s : State) (c : ObjCfg) (fr : FrameSt) (n : Nat) (cause : Option Nat) :
    State.Via [.freeCtr, .out, .upsets, .mem, .ring, .poison, .wbQueue, .cnt, .facets, .img, .note, .err] s
      (s.streamsEnded c fr n cause) := by
  have hcounted : State.Via [.freeCtr, .out, .upsets, .mem, .ring, .poison, .wbQueue, .cnt, .facets, .img, .note, .err]
      s ((s.finishStreams c fr n).countDefects (s.endEnv c fr n) n) :=
    State.countDefects_via (State.finishStreams_via (.refl _ s) (by decide)) (by decide)
  refine foldl_via hcounted fun u k hu => ?_
  unfold State.closeStream State.frameReport State.cutStream
  split
  · exact hu
  · refine State.updStream_via (State.eventAt_via ?_ (by decide)) (by decide)
    split
    · exact State.truncate_via hu (by decide)
    · split
      · exact State.truncate_via hu (by decide)
      · exact hu

/-- The frame's streams closed, from a state in which the sensor was as it is at the end of the readout. -/
theorem State.streamsEnded_closes (s : State) (c : ObjCfg) (fr : FrameSt) (n : Nat) (cause : Option Nat) :
    State.ClosesTo c fr (s.endEnv c fr n) n 5 ((s.finishStreams c fr n).countDefects (s.endEnv c fr n) n)
      (s.streamsEnded c fr n cause) :=
  State.closeStreams_closes _ c fr _ n cause

theorem State.finishStreams_counted (s : State) (c : ObjCfg) (fr : FrameSt) (n : Nat) :
    State.OnStreams s ((s.finishStreams c fr n).countDefects (s.endEnv c fr n) n) ∧
    State.Queues 0 10 s ((s.finishStreams c fr n).countDefects (s.endEnv c fr n) n) := by
  have hv : State.Via [.cnt] (s.finishStreams c fr n) ((s.finishStreams c fr n).countDefects (s.endEnv c fr n) n) :=
    State.countDefects_via (.refl _ _) (by decide)
  exact ⟨(s.finishStreams_on c fr n).trans (hv.onStream (i := 0)).all,
    (s.finishStreams_queues c fr n).trans (hv.queues 0)⟩

theorem State.endFrame_ended (s : State) (c : ObjCfg) (fr : FrameSt) (n : Nat) (cause : Option Nat) :
    s.endFrame c fr n cause = ((s.streamsEnded c fr n cause).statistics c (s.endEnv c fr n) fr).updImg
      (fun m => { m with frame := none }) := s.endFrame_eq c fr n cause

theorem State.endFrame_streams (s : State) (c : ObjCfg) (fr : FrameSt) (n : Nat) (cause : Option Nat) (i : Fin 5) :
    (s.endFrame c fr n cause).img.streams[i] = (s.streamsEnded c fr n cause).img.streams[i] :=
  (State.streams_congr (congrArg State.img (s.endFrame_ended c fr n cause)) i).trans
    ((State.statistics_via _ c _ fr).stream i)

/-- The end of a frame changes the streams, and no frame is in readout. -/
theorem State.endFrame_img (s : State) (c : ObjCfg) (fr : FrameSt) (n : Nat) (cause : Option Nat) :
    (s.endFrame c fr n cause).img =
      { s.img with frame := none, streams := (s.endFrame c fr n cause).img.streams } := by
  rw [State.endFrame_ended, State.updImg_img, (State.statistics_via _ c _ fr).only .img (by decide),
    (s.streamsEnded_closes c fr n cause).sensor, (s.finishStreams_counted c fr n).1.sensor]

theorem State.endFrame_restarts {i : Fin 5} (hk : (c.stream i).kind ≠ 0) :
    (s.endFrame c fr n cause).img.streams[i].skipped = 0 := by
  rw [State.endFrame_streams]
  exact (s.streamsEnded_closes c fr n cause).restarts i i.isLt hk

/-- While no record can be placed every stream's record is held. -/
theorem State.endFrame_records (hroom : s.evtRoom = false) (hlen : s.host.held.length ≤ 4000) {i : Fin 5}
    (hk : (c.stream i).kind ≠ 0) : ∃ q, frameRecord c fr (s.endEnv c fr n) n i
      { (s.endFrame c fr n cause).img.streams[i] with skipped := s.img.streams[i].skipped } q ∈
        (s.endFrame c fr n cause).host.held := by
  obtain ⟨hon, hqueues⟩ := s.finishStreams_counted c fr n
  have hclose := s.streamsEnded_closes c fr n cause
  obtain ⟨hroom', hlen', -⟩ := hqueues hroom (by omega)
  obtain ⟨q, hq⟩ := hclose.records hroom' (by omega) i i.isLt hk
  obtain ⟨hroom'', hlen'', -⟩ := hclose.queues hroom' (by omega)
  obtain ⟨-, -, hkept⟩ :=
    State.statistics_queues (s.streamsEnded c fr n cause) c (s.endEnv c fr n) fr hroom'' (by omega)
  refine ⟨q, ?_⟩
  rw [State.endFrame_streams, ← hon.skips i, State.endFrame_ended]
  exact hkept _ hq

theorem State.endFrame_stats (hs : bitOf c.flags 3 = true) (hm : Memory.wf s.mem = true)
    (hr : ∀ k, k < 16 → ¬ s.recordByte (statsAt fr + k)) :
    (s.endFrame c fr n cause).readLe (statsAt fr) 4 = fr.seq % 2 ^ 32 ∧
    (s.endFrame c fr n cause).readLe (statsAt fr + 8) 8 = fr.tick % 2 ^ 64 := by
  have htold := (s.streamsEnded_via c fr n cause).told (by decide)
  obtain ⟨hw, hhead⟩ := State.statsBlock_head (c := c) (e := s.endEnv c fr n) (htold.wf hm)
    fun k hk q => hr k hk (htold.recordByte q)
  have heq : s.endFrame c fr n cause = ((s.streamsEnded c fr n cause).statsBlock c (s.endEnv c fr n) fr).updImg
      (fun m => { m with frame := none }) := by
    rw [State.endFrame_ended]
    unfold State.statistics
    rw [if_pos hs]
  rw [heq]
  exact State.readLe_statsHead hw hhead

end

/-! ### FRAME_END (09 R248, R249, R254) -/

section
variable {s : State} {c : ObjCfg} {fr : FrameSt} {rows : List RawRow}

/-- A STOP that has taken effect puts the sensor in standby. -/
def State.stopped (s : State) : State :=
  if s.img.stopping then s.updImg (fun m => { m with mode := .standby, stopping := false, cfg := none }) else s

/-- The frame in readout ended with its last rows. -/
def State.frameEnded (s : State) (c : ObjCfg) (fr : FrameSt) : State := (s.endFrame c fr (fr.activeRows c) none).stopped

theorem execFrameEnd_ends (hc : s.img.cfg = some c) (hf : s.img.frame = some fr) :
    execFrameEnd rows s = .next (s.frameEnded c (fr.andRows rows)) := by
  unfold execFrameEnd
  simp only [hc, hf]
  rfl

theorem State.stopped_streams (s : State) (i : Fin 5) : s.stopped.img.streams[i] = s.img.streams[i] := by
  have h : s.stopped.img.streams = s.img.streams := by
    unfold State.stopped
    split
    · rfl
    · rfl
  exact congrArg (fun v : Vector StreamSt 5 => v[i]) h

theorem State.stopped_via (s : State) : State.Via [.img] s s.stopped := by
  unfold State.stopped
  split
  · exact State.updImg_via (.refl _ s) (by decide)
  · exact .refl _ s

theorem State.stopped_frame (s : State) : s.stopped.img.frame = s.img.frame := by
  unfold State.stopped
  split
  · rfl
  · rfl

theorem State.frameEnded_runs (hc : s.img.cfg = some c) (h : s.img.stopping = false) :
    (s.frameEnded c fr).img.mode = s.img.mode ∧ (s.frameEnded c fr).img.cfg = some c := by
  have himg := s.endFrame_img c fr (fr.activeRows c) none
  unfold State.frameEnded State.stopped
  rw [himg, if_neg (by simp [h]), himg]
  exact ⟨rfl, hc⟩

theorem State.frameEnded_stops (h : s.img.stopping = true) :
    (s.frameEnded c fr).img.mode = .standby ∧ (s.frameEnded c fr).img.cfg = none ∧
    (s.frameEnded c fr).img.stopping = false := by
  have himg := s.endFrame_img c fr (fr.activeRows c) none
  unfold State.frameEnded State.stopped
  rw [himg, if_pos h]
  exact ⟨rfl, rfl, rfl⟩

theorem State.frameEnded_frame (s : State) (c : ObjCfg) (fr : FrameSt) : (s.frameEnded c fr).img.frame = none :=
  (State.stopped_frame _).trans (congrArg Img.frame (s.endFrame_img c fr (fr.activeRows c) none))

theorem State.frameEnded_restarts {i : Fin 5} (hk : (c.stream i).kind ≠ 0) :
    (s.frameEnded c fr).img.streams[i].skipped = 0 := by
  unfold State.frameEnded
  rw [State.stopped_streams]
  exact State.endFrame_restarts hk

theorem State.frameEnded_records (hroom : s.evtRoom = false) (hlen : s.host.held.length ≤ 4000) {i : Fin 5}
    (hk : (c.stream i).kind ≠ 0) : ∃ q, frameRecord c fr (s.endEnv c fr (fr.activeRows c)) (fr.activeRows c) i
      { (s.frameEnded c fr).img.streams[i] with skipped := s.img.streams[i].skipped } q ∈
        (s.frameEnded c fr).host.held := by
  unfold State.frameEnded
  rw [State.stopped_streams, (State.stopped_via _).only .host (by decide)]
  exact State.endFrame_records hroom hlen hk

theorem State.frameEnded_stats (hs : bitOf c.flags 3 = true) (hm : Memory.wf s.mem = true)
    (hr : ∀ k, k < 16 → ¬ s.recordByte (statsAt fr + k)) :
    (s.frameEnded c fr).readLe (statsAt fr) 4 = fr.seq % 2 ^ 32 ∧
    (s.frameEnded c fr).readLe (statsAt fr + 8) 8 = fr.tick % 2 ^ 64 := by
  unfold State.frameEnded State.readLe State.readB
  rw [(State.stopped_via _).only .mem (by decide)]
  exact State.endFrame_stats hs hm hr

theorem execLineGroupComplete_next (st : Fin 5) (rows : List RawRow) (s : State) :
    ∃ t, execLineGroupComplete st rows s = .next t := by
  unfold execLineGroupComplete
  split
  · extract_lets fr s1 sc x hi need
    split
    · exact ⟨_, rfl⟩
    · exact ⟨_, rfl⟩
  · exact ⟨_, rfl⟩

theorem execFrameEnd_next (rows : List RawRow) (s : State) : ∃ t, execFrameEnd rows s = .next t := by
  unfold execFrameEnd
  split
  · exact ⟨_, rfl⟩
  · exact ⟨_, rfl⟩

/-- The frame of a row that completes holds of the state that it answers. -/
theorem State.Only.of_next {l : List Field} {o : Host.Outcome State Fault Refusal} {t : State}
    (h : ∃ t, o = .next t ∧ State.Only l s t) (ht : o = .next t) : State.Only l s t := by
  obtain ⟨u, hu, honly⟩ := h
  obtain rfl : t = u := Host.Outcome.next.inj (ht.symm.trans hu)
  exact honly

/-- Rows of the sensor's readout complete with their frame. -/
theorem execLineGroupComplete_only (st : Fin 5) (rows : List RawRow) (s : State) :
    ∃ t, execLineGroupComplete st rows s = .next t ∧
      State.Only [.freeCtr, .out, .upsets, .mem, .poison, .wbQueue, .cnt, .facets, .img, .host, .err] s t :=
  (execLineGroupComplete_via (M := [.freeCtr, .out, .upsets, .mem, .ring, .poison, .wbQueue, .cnt, .facets, .img, .note,
    .err]) (.refl _ s) (by decide)).next_only (execLineGroupComplete_next st rows s)

theorem execFrameEnd_only (rows : List RawRow) (s : State) : ∃ t, execFrameEnd rows s = .next t ∧
    State.Only [.freeCtr, .out, .upsets, .mem, .poison, .wbQueue, .cnt, .facets, .img, .host, .err] s t :=
  (execFrameEnd_via (M := [.freeCtr, .out, .upsets, .mem, .ring, .poison, .wbQueue, .cnt, .facets, .img, .note,
    .err]) (.refl _ s) (by decide)).next_only (execFrameEnd_next rows s)

end
end Sys2Proof.Machine

open Sys2Proof Sys2Proof.Machine

/-- Settles O27: a group and the end of a stream each concern one stream, and a frame reports at most 21 records, all of
which the holding queue takes. -/
theorem framesRead : Obligations.FramesRead := by
  unfold Obligations.FramesRead
  refine ⟨?_, ?_, fun s => ⟨fun st rows => execLineGroupComplete_only st rows s, fun rows => execFrameEnd_only rows s⟩⟩
  · intro st rows c fr s hc hf fr' sc x hi full bs a hkind htrunc hlo hneed
    have hready : exec (.lineGroupComplete st rows) s = .next (s.groupReady c fr' st hi) :=
      execLineGroupComplete_ready hc hf hkind htrunc rfl hlo hneed
    have hon := s.groupReady_on c fr' st hi
    refine ⟨_, hready, s.groupReady_frame c fr' st hi, fun hfull => State.groupReady_full hfull htrunc,
      fun hfull hd => ?_, hon.others, .of_next (execLineGroupComplete_only st rows s) hready⟩
    obtain ⟨bad, hbad⟩ := State.groupReady_ring (fr := fr') (hi := hi) hfull hd
    rw [hbad]
    exact ⟨rfl, rfl, rfl, htrunc, State.groupReady_told hfull hd, fun hb hm => State.groupReady_reads hfull hd hb hm⟩
  · intro rows c fr s hc hf
    have hends : exec (.frameEnd rows) s = .next (s.frameEnded c (fr.andRows rows)) := execFrameEnd_ends hc hf
    refine ⟨_, hends, s.frameEnded_frame c _, fun i hk => State.frameEnded_restarts hk, fun hroom hlen => ?_,
      State.frameEnded_runs hc, State.frameEnded_stops, State.frameEnded_stats (fr := fr.andRows rows),
      .of_next (execFrameEnd_only rows s) hends⟩
    refine ⟨(s.finishStreams c (fr.andRows rows) ((fr.andRows rows).activeRows c)).freeCtr, fun i hk => ?_⟩
    have hrec := State.frameEnded_records (fr := fr.andRows rows) hroom hlen hk
    unfold State.endEnv at hrec
    rwa [State.frameEnv_congr (s.finishStreams_on c _ _)] at hrec
end

section
namespace Sys2Proof.Machine

/-! ### A burst begins and ends (09 R251, R252) -/

section
variable {s : State} {c : ObjCfg} {b : BurstTrig} {bs : List BurstTrig} {theta : Int} {rows : List RawRow}

/-- A frame that is cut changes the streams, and none is in readout then. -/
theorem State.cutFrame_img (hc : s.img.cfg = some c) (q : Nat) :
    (s.cutFrame rows q).img = { s.img with frame := none, streams := (s.cutFrame rows q).img.streams } := by
  cases hf : s.img.frame with
  | some fr =>
    have hcut : s.cutFrame rows q = s.endFrame c (fr.andRows rows) ((fr.andRows rows).activeRows c) (some q) := by
      unfold State.cutFrame
      simp only [hc, hf]
      rfl
    rw [hcut]
    exact s.endFrame_img c _ _ _
  | none =>
    have hcut : s.cutFrame rows q = s := by
      unfold State.cutFrame
      simp only [hc, hf]
    rw [hcut, ← hf]

theorem State.readTheta_img (s : State) (theta : Int) : (s.readTheta theta).img =
    { s.img with theta := theta, hot := decide (1360 < theta), tempMax := max s.img.tempMax theta } := by
  unfold State.readTheta
  extract_lets cross u
  split
  · exact (State.fault_via (M := [.out, .ring, .cnt, .note]) (.refl _ u) (by decide)).only .img (by decide)
  · rfl

/-- The triggers after the oldest stay on their way. -/
def State.trigsLeft (s : State) (bs : List BurstTrig) : State := s.updImg (fun m => { m with trigs := bs })

/-- A trigger as a burst takes it: its window inside the active area, its frames within the configuration's. -/
def BurstTrig.windowed (b : BurstTrig) (c : ObjCfg) : BurstTrig :=
  { b with
    x := min (b.x / 2 * 2) 7168, y := min (b.y / 2 * 2) 5120
    frames := if b.frames = 0 then c.burstFrames else min b.frames c.burstFrames }

/-- The burst that a trigger starts. -/
def State.burstFrom (s : State) (c : ObjCfg) (b : BurstTrig) (theta : Int) : Burst :=
  ⟨b.windowed c, theta, 0, 0, s.burstStart c, 0, []⟩

/-- The sensor goes over to the burst: the frame in readout is cut, and the temperature read. -/
def State.burstEntered (s : State) (c : ObjCfg) (b : BurstTrig) (bs : List BurstTrig) (theta : Int)
    (rows : List RawRow) : State :=
  ((((s.trigsLeft bs).cutFrame rows 1).readTheta theta).updImg
    (fun m => { m with mode := .burst (s.burstFrom c b theta) })).count srcImg iBursts 1

/-- The sensor ignores the trigger. -/
def State.burstIgnored (s : State) (bs : List BurstTrig) : State :=
  ((s.trigsLeft bs).count srcImg iBurstIgnored 1).tickFault 0x0311 0x0206 4 4 0

theorem execBurstTrigger_enters (hq : s.img.trigs = b :: bs) (hc : s.img.cfg = some c) (hb : bitOf c.flags 4 = true)
    (hmode : s.img.mode = .normal) (hout : s.img.burstOut = none) :
    execBurstTrigger theta rows s = .next (s.burstEntered c b bs theta rows) := by
  unfold execBurstTrigger
  rw [hq]
  simp only [State.updImg_img, hc, hb, hmode, hout, Option.isNone_none, beq_self_eq_true, Bool.and_self, if_true]
  rfl

theorem execBurstTrigger_ignores (hq : s.img.trigs = b :: bs)
    (h : s.img.cfg = none ∨ s.img.cfg = some c ∧
      (bitOf c.flags 4 = false ∨ s.img.mode ≠ .normal ∨ s.img.burstOut ≠ none)) :
    execBurstTrigger theta rows s = .next (s.burstIgnored bs) := by
  unfold execBurstTrigger
  rw [hq]
  rcases h with hc | ⟨hc, hno⟩
  · simp only [State.updImg_img, hc]
    rfl
  · have hguard : (bitOf c.flags 4 && s.img.mode == .normal && s.img.burstOut.isNone) = false := by
      rcases hno with hb | hmode | hout
      · simp [hb]
      · simp [hmode]
      · simp [Option.ne_none_iff_isSome.1 hout]
    simp only [State.updImg_img, hc, hguard, Bool.false_eq_true, if_false]
    rfl

theorem State.burstEntered_img (hc : s.img.cfg = some c) : ∃ streams,
    (s.burstEntered c b bs theta rows).img = { s.img with
      trigs := bs, frame := none, streams := streams, theta := theta, hot := decide (1360 < theta)
      tempMax := max s.img.tempMax theta, mode := .burst (s.burstFrom c b theta) } := by
  have hcut := State.cutFrame_img (s := s.trigsLeft bs) (rows := rows) hc 1
  refine ⟨((s.trigsLeft bs).cutFrame rows 1).img.streams, ?_⟩
  unfold State.burstEntered
  rw [State.count_img, State.updImg_img, State.readTheta_img, hcut]
  rfl

/-- BURST_DONE leaves the sensor but for the burst that it reports. -/
theorem State.burstDone_img (s : State) :
    s.burstDone.img = s.img ∨ s.burstDone.img = { s.img with burstOut := none } := by
  unfold State.burstDone
  split
  · split
    · exact .inl rfl
    · exact .inr ((State.event_via (M := [.out, .ring, .cnt, .note]) (.refl _ _) (by decide)).only .img (by decide))
  · exact .inl rfl

/-- The sensor returns to normal mode, and its burst is over or is still to be written. -/
theorem State.closeBurst_img (s : State) (c : ObjCfg) (b : Burst) (p : Partition) :
    (s.closeBurst c b p).img = { s.img with
      mode := .returning (b.time0 + (b.done - 1) * 1000000 + 748800), burstOut := (s.closeBurst c b p).img.burstOut } ∧
    ((s.closeBurst c b p).img.burstOut = none ∨ (s.closeBurst c b p).img.burstOut = some b) := by
  unfold State.closeBurst
  extract_lets tEnd u idx a len bytes v
  have himg : (v.arrive ⟨.burst, a, bytes, [], none⟩).img =
      { s.img with mode := .returning tEnd, burstOut := some b } := by
    rw [(State.arrive_via (M := [.upsets, .mem, .poison, .wbQueue, .cnt, .hbm, .note]) (.refl _ v) (by decide)).only
      .img (by decide), State.updImg_img, (State.setTime_via (M := [.cnt, .tk, .hbm, .idle]) (.refl _ s) (by decide)).only
      .img (by decide)]
  rcases (v.arrive ⟨.burst, a, bytes, [], none⟩).burstDone_img with h | h
  · rw [h, himg]
    exact ⟨rfl, .inr rfl⟩
  · rw [h, himg]
    exact ⟨rfl, .inl rfl⟩

end

/-! ### The rows of bursts complete -/

section
variable (s : State)

theorem execBurstTrigger_next (theta : Int) (rows : List RawRow) : ∃ t, execBurstTrigger theta rows s = .next t := by
  unfold execBurstTrigger
  split
  · exact ⟨_, rfl⟩
  · extract_lets u ignored v o
    split
    · exact ⟨_, rfl⟩
    · split
      · exact ⟨_, rfl⟩
      · exact ⟨_, rfl⟩

theorem execBurstFrameStart_next (rows : List RawRow) (lines : Nat) :
    ∃ t, execBurstFrameStart rows lines s = .next t := by
  unfold execBurstFrameStart
  split
  · split
    · exact ⟨_, rfl⟩
    · split
      · exact ⟨_, rfl⟩
      · exact ⟨_, rfl⟩
  · exact ⟨_, rfl⟩

theorem execBurstEnd_next : ∃ t, execBurstEnd s = .next t := by
  unfold execBurstEnd
  split
  · split
    · exact ⟨_, rfl⟩
    · split
      · exact ⟨_, rfl⟩
      · exact ⟨_, rfl⟩
  · exact ⟨_, rfl⟩

theorem execSensorStandbyExit_next : ∃ t, execSensorStandbyExit s = .next t := by
  unfold execSensorStandbyExit
  split
  · exact ⟨_, rfl⟩
  · exact ⟨_, rfl⟩

theorem execBurstTrigger_only (theta : Int) (rows : List RawRow) : ∃ t, execBurstTrigger theta rows s = .next t ∧
    State.Only [.freeCtr, .out, .upsets, .mem, .poison, .wbQueue, .cnt, .facets, .img, .host, .err] s t :=
  (execBurstTrigger_via (M := [.freeCtr, .out, .upsets, .mem, .ring, .poison, .wbQueue, .cnt, .facets, .img, .note,
    .err]) (.refl _ s) (by decide)).next_only (execBurstTrigger_next s theta rows)

theorem execBurstFrameStart_only (rows : List RawRow) (lines : Nat) :
    ∃ t, execBurstFrameStart rows lines s = .next t ∧
      State.Only [.freeCtr, .upsets, .mem, .poison, .wbQueue, .cnt, .tk, .hbm, .img, .host, .idle] s t :=
  (execBurstFrameStart_via (M := [.freeCtr, .upsets, .mem, .poison, .wbQueue, .cnt, .tk, .hbm, .img, .note, .idle])
    (.refl _ s) (by decide)).next_only (execBurstFrameStart_next s rows lines)

theorem execBurstEnd_only : ∃ t, execBurstEnd s = .next t ∧
    State.Only [.out, .upsets, .mem, .poison, .wbQueue, .cnt, .tk, .hbm, .img, .host, .idle] s t :=
  (execBurstEnd_via (M := [.out, .upsets, .mem, .ring, .poison, .wbQueue, .cnt, .tk, .hbm, .img, .note, .idle])
    (.refl _ s) (by decide)).next_only (execBurstEnd_next s)

end

section
variable {s : State} {c : ObjCfg} {b : Burst} {p : Partition}

theorem execBurstFrameStart_runs (hc : s.img.cfg = some c) (hmode : s.img.mode = .burst b)
    (hp : s.burstPart c = some p) (hb : b.done < b.trig.frames) (rows : List RawRow) (lines : Nat) :
    execBurstFrameStart rows lines s = .next (s.burstFrame c b p rows lines) := by
  unfold execBurstFrameStart
  simp only [hc, hmode, hp]
  rw [if_neg (Nat.not_le.2 hb)]

theorem execBurstEnd_closes (hc : s.img.cfg = some c) (hmode : s.img.mode = .burst b)
    (hp : s.burstPart c = some p) (hb : b.trig.frames ≤ b.done) :
    execBurstEnd s = .next (s.closeBurst c b p) := by
  unfold execBurstEnd
  simp only [hc, hmode, hp]
  rw [if_neg (Nat.not_lt.2 hb)]

theorem execSensorStandbyExit_leaves (hmode : s.img.mode = .standby) (hw : s.sensorWanted = true) :
    execSensorStandbyExit s = .next { s with img := { s.img with mode := .leaving s.tk.now, settling := true } } := by
  unfold execSensorStandbyExit
  simp only [hmode, hw, if_true]
  rfl

/-- Where a burst frame of `n` rows that pass may write. -/
def burstPlaces (b : Burst) (p : Partition) (n a : Nat) : Prop :=
  runOf burstRing 0x100000 a ∨ ∃ y, y < n ∧ runOf (p.storage (b.done * 2097152 + y * 2048)) 2048 a

theorem State.burstFrame_places (s : State) (c : ObjCfg) (b : Burst) (p : Partition) (rows : List RawRow)
    (lines : Nat) : State.Writes (burstPlaces b p (s.burstPassed c b p rows lines).1) s
      (s.burstFrame c b p rows lines) :=
  s.burstFrame_writes c b p rows lines (fun i hi => .inl (spans_runOf _ _ i hi))
    fun y hy i hi => .inr ⟨y, hy, spans_runOf _ _ i hi⟩

end
end Sys2Proof.Machine

open Sys2Proof Sys2Proof.Machine

/-- Settles O28: each row of a burst frame takes its turn at the bucket, which is left with the bytes of those
behind it, and lands at its own place or not at all. -/
theorem burstsRun : Obligations.BurstsRun := by
  unfold Obligations.BurstsRun
  refine ⟨fun c theta rows s => ⟨fun b bs hq => ⟨fun hc hb hmode hout => ?_, fun h => execBurstTrigger_ignores hq h⟩,
    fun b p lines hc hmode hp => ⟨fun hb => ?_, fun hb => ?_⟩, execSensorStandbyExit_leaves⟩,
    fun s => ⟨execBurstTrigger_only s, execBurstFrameStart_only s, execBurstEnd_only s,
      (execSensorStandbyExit_via (M := [.img]) (.refl _ s) (by decide)).next_only (execSensorStandbyExit_next s)⟩⟩
  · have hexec : exec (.burstTrigger theta rows) s = .next (s.burstEntered c b bs theta rows) :=
      execBurstTrigger_enters hq hc hb hmode hout
    obtain ⟨streams, himg⟩ := State.burstEntered_img (b := b) (bs := bs) (theta := theta) (rows := rows) hc
    refine ⟨_, hexec, ?_, ?_, ?_, ?_, .of_next (execBurstTrigger_only s theta rows) hexec⟩
    · rw [himg]
    · rw [himg]
    · rw [himg]
    · rw [himg]
      rfl
  · have hexec : exec (.burstFrameStart rows lines) s = .next (s.burstFrame c b p rows lines) :=
      execBurstFrameStart_runs hc hmode hp hb rows lines
    refine ⟨_, (s.burstPassed c b p rows lines).1, hexec, s.burstPassed_le c b p rows lines,
      fun hstalled hgrants => s.burstPassed_all c b p rows lines (.of_grants hstalled hgrants (by decide)),
      s.burstFrame_now c b p rows lines, s.burstFrame_mode c b p rows lines, fun hm x hring hrows => ?_,
      .of_next (execBurstFrameStart_only s rows lines) hexec⟩
    refine ((s.burstFrame_places c b p rows lines) hm).2 x ?_
    rintro (⟨h1, h2⟩ | ⟨y, hy, h1, h2⟩)
    · omega
    · have := hrows y hy
      omega
  · have hexec : exec .burstEnd s = .next (s.closeBurst c b p) := execBurstEnd_closes hc hmode hp hb
    obtain ⟨himg, hout⟩ := s.closeBurst_img c b p
    exact ⟨_, hexec, himg, hout, .of_next (execBurstEnd_only s) hexec⟩
end

section
namespace Sys2Proof.Machine

/-! ### Converters and slices after an update (10 R262, R268) -/

section
variable {s t : State} {k j : Fin 16} {n : Nat}

theorem State.updConv_get (s : State) (k j : Fin 16) (g : Conv → Conv) :
    (s.updConv k g).wav.conv[j] = if k = j then g s.wav.conv[j] else s.wav.conv[j] := by
  simp only [State.updConv, State.setConv, State.updWav_wav, Fin.getElem_fin, Vector.getElem_set]
  by_cases h : k = j
  · subst h; simp
  · rw [if_neg (fun e => h (Fin.ext e)), if_neg h]

theorem State.setTime_wav (s : State) (n : Nat) : (s.setTime n).wav = s.wav :=
  (State.setTime_via (M := [.cnt, .tk, .hbm, .idle]) (.refl _ s) (by decide)).only .wav (by decide)

theorem State.setTime_now (s : State) (n : Nat) : (s.setTime n).tk.now = n % 2 ^ 64 := by
  rw [State.setTime_tk]

/-! ### No triggered sample waits to be held (10 R266) -/

/-- No triggered sample waits for its hold instant. -/
def State.NoneDue (s : State) : Prop := ∀ k : Fin 16, s.wav.conv[k].pend = []

theorem State.NoneDue.congr (h : s.NoneDue) (e : t.wav.conv = s.wav.conv) : t.NoneDue := fun k => by
  rw [e]
  exact h k

theorem State.NoneDue.holdAll (h : s.NoneDue) (n : Nat) : s.holdAll n = s := by
  unfold State.holdAll
  refine List.foldlRecOn (motive := fun u => u = s) _ _ rfl fun u hu k _ => ?_
  rw [hu, h (fin16 k)]
  rfl

theorem State.NoneDue.holdNow (h : s.NoneDue) : s.holdNow = s := h.holdAll _

theorem State.NoneDue.setTime (h : s.NoneDue) (n : Nat) : (s.setTime n).NoneDue :=
  h.congr (congrArg Wav.conv (s.setTime_wav n))

end
end Sys2Proof.Machine
end

section
namespace Sys2Proof.Machine

/-! ### Conversions of a slice in their order (10 R268, R273) -/

section
variable {c : Core} {js : List CoreJob} {u v : Urgent} {h : Held} {t : Nat}

theorem le_adcEdge (t : Nat) : t ≤ adcEdge t := by
  unfold adcEdge adcCycle
  omega

/-- A conversion ends a conversion time after the core is free, or later. -/
theorem CoreJob.le_span (t : Nat) (j : CoreJob) : t + convTime ≤ (j.span t).2 := by
  cases j with
  | stream h => exact Nat.add_le_add_right ((le_max_right _ _).trans (le_adcEdge _)) _
  | urgent u => exact Nat.add_le_add_right ((le_max_right _ _).trans (le_adcEdge _)) _
  | again h => exact le_rfl

theorem spansFrom_le (js : List CoreJob) : ∀ {t : Nat}, ∀ x ∈ spansFrom t js, t + convTime ≤ x.2.2 := by
  induction js with
  | nil => exact fun x hx => absurd hx List.not_mem_nil
  | cons j js ih =>
    intro t x hx
    rcases List.mem_cons.1 hx with rfl | hx
    · exact j.le_span t
    · have hj := j.le_span t
      have hx := ih x hx
      omega

theorem spansFrom_jobs (js : List CoreJob) : ∀ t : Nat, (spansFrom t js).map (·.1) = js := by
  induction js with
  | nil => exact fun _ => rfl
  | cons j js ih => exact fun t => congrArg (j :: ·) (ih _)

/-- Nothing has ended while the first conversion runs. -/
theorem spansFrom_running {j : CoreJob} {f : Nat} (h : t < (j.span f).2) :
    ∀ x ∈ spansFrom f (j :: js), t < x.2.2 := by
  intro x hx
  rcases List.mem_cons.1 hx with rfl | hx
  · exact h
  · have hx := spansFrom_le js x hx
    omega

/-- An idle core takes an urgent input. -/
theorem Core.urge_idle (hc : c.jobs = []) : c.urge u t = some { c with jobs := [.urgent u] } := by
  unfold Core.urge Core.spans
  rw [hc]
  rfl

/-- The conversion that runs is abandoned for an urgent input. -/
theorem Core.urge_running (hc : c.jobs = .stream h :: js) (hjs : ∀ v, CoreJob.urgent v ∉ js)
    (ha : adcEdge (max h.hold c.freeAt) ≤ t) (ht : t < adcEdge (max h.hold c.freeAt) + convTime) :
    c.urge u t = some { c with jobs := .urgent u :: .again h :: js } := by
  have hrun : ∀ x ∈ spansFrom c.freeAt (.stream h :: js), t < x.2.2 := spansFrom_running ht
  have hpast : (spansFrom c.freeAt (.stream h :: js)).filter (fun x => x.2.2 ≤ t) = [] :=
    List.filter_eq_nil_iff.2 fun x hx => by simpa using hrun x hx
  have hcur : (spansFrom c.freeAt (.stream h :: js)).filter (fun x => t < x.2.2) =
      spansFrom c.freeAt (.stream h :: js) := List.filter_eq_self.2 fun x hx => by simpa using hrun x hx
  have hjobs : ∀ x ∈ spansFrom c.freeAt (.stream h :: js), x.1 ∈ CoreJob.stream h :: js := fun x hx => by
    have hmem := List.mem_map_of_mem (f := (·.1)) hx
    rwa [spansFrom_jobs] at hmem
  unfold Core.urge Core.spans
  rw [hc]
  simp only [hpast, hcur]
  rw [if_neg]
  · simp only [spansFrom, CoreJob.span, if_pos ha, List.drop_one, List.tail_cons, spansFrom_jobs]
    rfl
  · intro hany
    obtain ⟨x, hx, hurgent⟩ := List.any_eq_true.1 hany
    have hmem := hjobs x hx
    split at hurgent
    next v hv =>
      rw [hv] at hmem
      rcases List.mem_cons.1 hmem with he | hv
      · cases he
      · exact hjs v hv
    next => cases hurgent

/-- A core that converts an urgent input takes no other. -/
theorem Core.urge_busy (hc : c.jobs = .urgent v :: js)
    (ht : t < adcEdge (max (v.hold * 256) c.freeAt) + convTime) : c.urge u t = none := by
  unfold Core.urge Core.spans
  rw [hc]
  have hlt : t < ((CoreJob.urgent v).span c.freeAt).2 := ht
  simp only [spansFrom, List.filter_cons, hlt, decide_true, if_true, List.any_cons, Bool.true_or]

/-- The request that is served is no later than any other. -/
theorem firstReq_le (us : List Urgent) : ∀ {u : Urgent}, firstReq us = some u → ∀ v ∈ us, u.req ≤ v.req := by
  induction us with
  | nil => exact fun _ v hv => absurd hv List.not_mem_nil
  | cons w us ih =>
    intro u hu v hv
    unfold firstReq at hu
    cases hf : firstReq us with
    | none =>
      rw [hf] at hu
      obtain rfl := Option.some.inj hu
      cases us with
      | nil => rw [List.mem_singleton.1 hv]
      | cons x xs =>
        unfold firstReq at hf
        split at hf
        · split at hf <;> cases hf
        · cases hf
    | some x =>
      rw [hf] at hu
      dsimp only at hu
      rcases List.mem_cons.1 hv with rfl | hv
      · split at hu
        · obtain rfl := Option.some.inj hu
          omega
        · obtain rfl := Option.some.inj hu
          exact le_rfl
      · have hx := ih hf v hv
        split at hu
        · obtain rfl := Option.some.inj hu
          exact hx
        · obtain rfl := Option.some.inj hu
          omega

end
end Sys2Proof.Machine
end

section
namespace Sys2Proof.Machine

/-! ### HOLDOFF_EXPIRY and URGENT_REQUEST (10 R272, R273, R284) -/

section
variable {s : State} {i : Fin 64} {u v : Urgent} {h : Held} {js : List CoreJob} {x : Nat}

theorem execHoldoffExpiry_idle (hx : s.wav.inputs[i].holdoff = none) : execHoldoffExpiry i s = .next s := by
  unfold execHoldoffExpiry
  simp only [hx]

theorem execHoldoffExpiry_ends (hx : s.wav.inputs[i].holdoff = some x) :
    execHoldoffExpiry i s = .next ((s.setTime (max s.tk.now x)).setInput i
      { s.wav.inputs[i] with holdoff := none }) := by
  unfold execHoldoffExpiry
  simp only [hx]

theorem execHoldoffExpiry_next (i : Fin 64) (s : State) : ∃ t, execHoldoffExpiry i s = .next t := by
  cases hx : s.wav.inputs[i].holdoff with
  | none => exact ⟨_, execHoldoffExpiry_idle hx⟩
  | some x => exact ⟨_, execHoldoffExpiry_ends hx⟩

/-- A request leaves the list. -/
def State.taken (s : State) (u : Urgent) : State := s.updWav (fun w => { w with reqs := w.reqs.erase u })

/-- The converter of an urgent input. -/
def Urgent.owner (u : Urgent) : Fin 16 := fin16 (u.input / 4)

/-- The urgent input as slice `m` holds it at TIME. -/
def State.urgentHeld (s : State) (u : Urgent) (m : Nat) : Urgent :=
  { u with hold := s.tk.now, slice := m, openWire := s.testing u.input, heldN := s.wav.conv[u.owner].idx }

/-- The slice that is asked for an urgent input. -/
def State.urgentSlice (s : State) (u : Urgent) : Nat :=
  if s.wav.spareFree then 16 else s.streamSlice (u.input / 4)

/-- A slice is asked for the urgent input; the answer is its new state, none when it refuses. -/
def State.urged (s : State) (u : Urgent) : Option Core :=
  (s.slice (s.urgentSlice u)).urge (s.urgentHeld u (s.urgentSlice u)) (s.tk.now * 256)

theorem State.NoneDue.serveUrgent (hq : s.NoneDue) (u : Urgent) :
    s.serveUrgent u = match s.urged u with
      | some c => (true, s.setSlice (s.urgentSlice u) c)
      | none => (false, s) := by
  have hheld : s.wav.conv[u.owner].idx - s.wav.conv[u.owner].pend.length = s.wav.conv[u.owner].idx := by
    rw [hq u.owner]
    rfl
  unfold State.urged State.urgentHeld
  rw [← hheld]
  rfl

theorem execUrgentRequest_none (hu : firstReq s.wav.reqs = none) : execUrgentRequest s = .next s := by
  unfold execUrgentRequest
  simp only [hu]

theorem execUrgentRequest_asks (hu : firstReq s.wav.reqs = some u) : execUrgentRequest s =
    .next (if (s.taken u).holdNow.convOff || (s.taken u).holdNow.wav.cfg.isNone then
      (s.taken u).holdNow.refuseUrgent u.owner
    else if ((s.taken u).holdNow.serveUrgent u).1 then ((s.taken u).holdNow.serveUrgent u).2
    else ((s.taken u).holdNow.serveUrgent u).2.refuseUrgent u.owner) := by
  rw [apply_ite Host.Outcome.next]
  unfold execUrgentRequest State.taken Urgent.owner
  simp only [hu]

theorem execUrgentRequest_next (s : State) : ∃ t, execUrgentRequest s = .next t := by
  cases hu : firstReq s.wav.reqs with
  | none => exact ⟨_, execUrgentRequest_none hu⟩
  | some u => exact ⟨_, execUrgentRequest_asks hu⟩

variable (hq : s.NoneDue) (hu : firstReq s.wav.reqs = some u)
include hq hu

theorem execUrgentRequest_off (hoff : s.convOff = true ∨ s.wav.cfg = none) :
    execUrgentRequest s = .next ((s.taken u).refuseUrgent u.owner) := by
  have htaken : (s.taken u).holdNow = s.taken u := State.NoneDue.holdNow hq
  have hguard : ((s.taken u).convOff || (s.taken u).wav.cfg.isNone) = true := by
    rcases hoff with hoff | hoff
    · rw [show (s.taken u).convOff = true from hoff, Bool.true_or]
    · rw [show (s.taken u).wav.cfg = none from hoff, Option.isNone_none, Bool.or_true]
  rw [execUrgentRequest_asks hu, htaken, if_pos hguard]

/-- While converters convert a slice is asked; when it refuses, so is the request. -/
theorem execUrgentRequest_on (hoff : s.convOff = false) (hcfg : s.wav.cfg ≠ none) :
    execUrgentRequest s = .next (match s.urged u with
      | some c => (s.taken u).setSlice (s.urgentSlice u) c
      | none => (s.taken u).refuseUrgent u.owner) := by
  have htaken : (s.taken u).holdNow = s.taken u := State.NoneDue.holdNow hq
  have hguard : ((s.taken u).convOff || (s.taken u).wav.cfg.isNone) = false := by
    rw [show (s.taken u).convOff = false from hoff, Bool.false_or]
    exact Option.isNone_eq_false_iff.2 (Option.isSome_iff_ne_none.2 hcfg)
  have hserve := State.NoneDue.serveUrgent (s := s.taken u) hq u
  have hasked : (s.taken u).urged u = s.urged u := rfl
  rw [hasked] at hserve
  rw [execUrgentRequest_asks hu, htaken, hguard, if_neg Bool.false_ne_true, hserve]
  cases s.urged u with
  | some c => rfl
  | none => rfl

end
end Sys2Proof.Machine
end

section
namespace Sys2Proof.Machine

section
variable {s : State} {u v : Urgent} {h : Held} {js : List CoreJob}

/-! ### The slice that takes an urgent input (10 R273) -/

theorem State.urgentSlice_spare (hf : s.wav.spareFree = true) (u : Urgent) : s.urgentSlice u = 16 := if_pos hf

theorem State.urgentSlice_own (hf : s.wav.spareFree = false) (u : Urgent) :
    s.urgentSlice u = s.streamSlice (u.input / 4) := if_neg (by rw [hf]; exact Bool.false_ne_true)

theorem Wav.spareFree_jobs {w : Wav} (h : w.spareFree = true) : w.spare.jobs = [] := by
  unfold Wav.spareFree at h
  simp only [Bool.and_eq_true] at h
  exact List.isEmpty_iff.1 h.1.1.1.1

theorem State.urged_spare (hf : s.wav.spareFree = true) (u : Urgent) :
    s.urged u = some { s.wav.spare with jobs := [.urgent (s.urgentHeld u 16)] } := by
  unfold State.urged
  rw [State.urgentSlice_spare hf]
  exact Core.urge_idle (Wav.spareFree_jobs hf)

variable (hf : s.wav.spareFree = false)
include hf

theorem State.urged_idle (hs : (s.slice (s.streamSlice (u.input / 4))).jobs = []) :
    s.urged u = some { s.slice (s.streamSlice (u.input / 4)) with
      jobs := [.urgent (s.urgentHeld u (s.streamSlice (u.input / 4)))] } := by
  unfold State.urged
  rw [State.urgentSlice_own hf]
  exact Core.urge_idle hs

theorem State.urged_running (hs : (s.slice (s.streamSlice (u.input / 4))).jobs = .stream h :: js)
    (hjs : ∀ v, CoreJob.urgent v ∉ js)
    (ha : adcEdge (max h.hold (s.slice (s.streamSlice (u.input / 4))).freeAt) ≤ s.tk.now * 256)
    (ht : s.tk.now * 256 < adcEdge (max h.hold (s.slice (s.streamSlice (u.input / 4))).freeAt) + convTime) :
    s.urged u = some { s.slice (s.streamSlice (u.input / 4)) with
      jobs := .urgent (s.urgentHeld u (s.streamSlice (u.input / 4))) :: .again h :: js } := by
  unfold State.urged
  rw [State.urgentSlice_own hf]
  exact Core.urge_running hs hjs ha ht

theorem State.urged_busy (hs : (s.slice (s.streamSlice (u.input / 4))).jobs = .urgent v :: js)
    (ht : s.tk.now * 256 < adcEdge (max (v.hold * 256) (s.slice (s.streamSlice (u.input / 4))).freeAt) + convTime) :
    s.urged u = none := by
  unfold State.urged
  rw [State.urgentSlice_own hf]
  exact Core.urge_busy hs ht

end
end Sys2Proof.Machine
end

section
namespace Sys2Proof.Machine

/-! ### Background calibration (10 R275 to R277) -/

section
variable {s : State}

/-- The spare slice calibrates itself in the last 4 ms of a slot. -/
theorem execSpareSelfCalibration_runs (hq : s.NoneDue) (hoff : s.convOff = false) (hh : s.wav.halted = false) :
    execSpareSelfCalibration s = .next ((s.setTime (max s.tk.now ((s.tk.now / 320000000 + 1) * 320000000 -
      4000000))).updWav (fun w => { w with selfCal := true })) := by
  unfold execSpareSelfCalibration
  rw [hoff, hh]
  simp only [(hq.setTime _).holdNow]
  rfl

theorem execSpareSelfCalibration_next (s : State) : ∃ t, execSpareSelfCalibration s = .next t := by
  unfold execSpareSelfCalibration
  split
  · exact ⟨_, rfl⟩
  · exact ⟨_, rfl⟩

/-- The handover that slot `r` begins: to the spare slice, when its converter is active. -/
def State.slotHandover (s : State) (r : Nat) : Option (Nat × Bool × Nat) :=
  match s.wav.cfg with
  | some c => if bitOf c.activeMask (r % 16) then some (r % 16, true, r * 320000000) else none
  | none => none

theorem execCalibrationSlot_runs (hq : s.NoneDue) (hoff : s.convOff = false) (hh : s.wav.halted = false) :
    execCalibrationSlot s = .next ((s.setTime (max s.tk.now (s.calSlot * 320000000))).updWav (fun w => { w with
      selfCal := false, handover := s.slotHandover s.calSlot })) := by
  unfold execCalibrationSlot State.slotHandover
  simp only [hoff, hh, hq.holdAll, State.setTime_wav, Bool.or_self, Bool.false_eq_true, if_false]
  rw [State.NoneDue.holdNow]
  · cases s.wav.cfg with
    | some c => rfl
    | none => rfl
  · exact (hq.setTime _).congr rfl

theorem execCalibrationSlot_next (s : State) : ∃ t, execCalibrationSlot s = .next t := by
  unfold execCalibrationSlot
  split
  · exact ⟨_, rfl⟩
  · exact ⟨_, rfl⟩

/-- TIME at which the converter of a slot has been calibrated. -/
def State.calBack (s : State) : Nat := s.tk.now / 320000000 * 320000000 + 20000000

/-- The converter whose slot runs. -/
def State.calConv (s : State) : Fin 16 := fin16 (s.tk.now / 320000000 % 16)

/-- The waveform unit after the calibration of a slot has ended. -/
def State.calEnded (s : State) (ok : Bool) : Wav :=
  if s.wav.halted then
    (if ok then s.wav else { s.wav with
      conv := s.wav.conv.set s.calConv { s.wav.conv[s.calConv] with failed := true } })
  else if ok then { s.wav with handover := s.wav.standing.map (fun j => (j, false, s.calBack)) }
  else { s.wav with
    halted := true, handover := none, standing := some (s.wav.standing.getD (s.tk.now / 320000000 % 16)) }

theorem execCalibrationReturn_runs (hq : s.NoneDue) (hoff : s.convOff = false) (ok : Bool) :
    ∃ t, execCalibrationReturn ok s = .next t ∧ t.tk.now = max s.tk.now s.calBack % 2 ^ 64 ∧
      t.wav = s.calEnded ok := by
  have hback := hq.setTime (max s.tk.now s.calBack)
  have hw := s.setTime_wav (max s.tk.now s.calBack)
  unfold execCalibrationReturn
  rw [hoff, if_neg Bool.false_ne_true]
  extract_lets r back k s1 s2
  have hs1 : s1 = s.setTime (max s.tk.now s.calBack) := hback.holdAll _
  have hwav : s1.wav = s.wav := by rw [hs1, hw]
  have hnow : s1.tk.now = max s.tk.now s.calBack % 2 ^ 64 := by rw [hs1, State.setTime_now]
  clear_value s1
  unfold State.calEnded
  rw [hwav]
  cases ok with
  | true =>
    cases hh : s.wav.halted with
    | true => exact ⟨s1, rfl, hnow, hwav⟩
    | false =>
      have hwav2 : s2.wav = s.wav := (State.count_wav s1 _ _ _).trans hwav
      have hnow2 : s2.tk.now = _ := (congrArg TimeSt.now (State.count_tk s1 _ _ _)).trans hnow
      refine ⟨_, congrArg Host.Outcome.next (State.NoneDue.holdNow ?_), hnow2, ?_⟩
      · exact (hq.congr (congrArg Wav.conv hwav2)).congr rfl
      · rw [State.updWav_wav, hwav2]
        rfl
  | false =>
    cases hh : s.wav.halted with
    | true =>
      refine ⟨_, rfl, hnow, ?_⟩
      show ({ s1.wav with conv := s1.wav.conv.set k { s1.wav.conv[k] with failed := true } } : Wav) = _
      rw [hwav]
      rfl
    | false =>
      have hfault (u : State) : State.Via [.out, .ring, .cnt, .note] u (u.fault 0x0414 (srcConv k.val) 5 k.val 0 []) :=
        State.fault_via (.refl _ u) (by decide)
      refine ⟨_, rfl, ?_, ?_⟩
      · exact (congrArg TimeSt.now ((hfault _).only .tk (by decide))).trans hnow
      · have hk : k.val = s.tk.now / 320000000 % 16 := Nat.mod_mod _ _
        refine ((hfault _).only .wav (by decide)).trans ?_
        rw [State.updWav_wav, hwav, hk]
        cases hstand : s.wav.standing with
        | some j => rfl
        | none => rfl

theorem execCalibrationReturn_next (ok : Bool) (s : State) : ∃ t, execCalibrationReturn ok s = .next t := by
  unfold execCalibrationReturn
  split
  · exact ⟨_, rfl⟩
  · extract_lets r back k s1 s2
    split
    · split
      · exact ⟨_, rfl⟩
      · exact ⟨_, rfl⟩
    · split
      · exact ⟨_, rfl⟩
      · exact ⟨_, rfl⟩

end
end Sys2Proof.Machine
end

section
namespace Sys2Proof.Machine

/-! ### The reference (10 R278; 15 R419, R447) -/

section
variable {s : State}

/-- READY.ADC_REF and READY.ADC. -/
def adcBits : BitVec 19 := BitVec.ofNat 19 (2 ^ 10 + 2 ^ 11)

theorem State.setReady_adc (s : State) :
    ((s.setReady 10 true).setReady 11 true).ready = s.ready ||| adcBits := by
  show s.ready ||| BitVec.ofNat 19 (2 ^ 10) ||| BitVec.ofNat 19 (2 ^ 11) = _
  rw [BitVec.or_assoc]
  exact congrArg (s.ready ||| ·) (by decide)

theorem State.clearReady_adc (s : State) :
    ((s.setReady 10 false).setReady 11 false).ready = s.ready &&& ~~~ adcBits := by
  show s.ready &&& ~~~ BitVec.ofNat 19 (2 ^ 10) &&& ~~~ BitVec.ofNat 19 (2 ^ 11) = _
  rw [BitVec.and_assoc]
  exact congrArg (s.ready &&& ·) (by decide)

theorem execAdcRefSettled_settles (hq : s.NoneDue) (hon : s.wav.refOn = true) (hpll : s.pwr.pll[5] = .good)
    (hout : s.analogOut = false ∨ s.err.restarting.getLsbD 5 = true) :
    ∃ t, execAdcRefSettled s = .next t ∧ t.tk.now = max s.tk.now (s.wav.refSince + 5000000) % 2 ^ 64 ∧
      t.wav = { s.wav with refFault := false, refReady := true } ∧
      t.ready = if s.analogOut then s.ready else s.ready ||| adcBits := by
  have hguard : (s.wav.refOn && s.pwr.pll[5] == .good && (!s.analogOut || s.err.restarting.getLsbD 5)) = true := by
    rw [hon, hpll]
    rcases hout with h | h
    · rw [h]
      rfl
    · rw [h, Bool.or_true]
      rfl
  have hset := State.setTime_via (M := [.cnt, .tk, .hbm, .idle]) (t0 := max s.tk.now (s.wav.refSince + 5000000))
    (.refl _ s) (by decide)
  unfold execAdcRefSettled
  rw [if_pos hguard, (hq.setTime _).holdNow]
  extract_lets s1 s2
  have hnow : s2.tk.now = max s.tk.now (s.wav.refSince + 5000000) % 2 ^ 64 := s.setTime_now _
  have hwav : s2.wav = { s.wav with refFault := false, refReady := true } := by
    unfold s2 s1
    rw [State.updWav_wav, State.setTime_wav]
  have hready : s2.ready = s.ready := hset.only .ready (by decide)
  have hanalog : s2.analogOut = s.analogOut :=
    congrArg (fun e : Errors => e.isolated.getLsbD 5) (hset.only .err (by decide))
  rw [hanalog]
  cases s.analogOut with
  | true => exact ⟨_, rfl, hnow, hwav, hready⟩
  | false => exact ⟨_, rfl, hnow, hwav, (State.setReady_adc s2).trans (congrArg (· ||| adcBits) hready)⟩

theorem execAdcRefSettled_next (s : State) : ∃ t, execAdcRefSettled s = .next t := by
  unfold execAdcRefSettled
  split
  · exact ⟨_, rfl⟩
  · exact ⟨_, rfl⟩

theorem execWaveRefFault_fails (hq : s.NoneDue) (hon : s.wav.refOn = true) (hcfg : s.wav.cfg ≠ none) :
    ∃ t, execWaveRefFault s = .next t ∧ t.wav = { s.wav with refFault := true, refReady := false } ∧
      t.ready = s.ready &&& ~~~ adcBits := by
  have hguard : (s.wav.refOn && s.wav.cfg.isSome) = true := by
    rw [hon, Option.isSome_iff_ne_none.2 hcfg]
    rfl
  have hfault (u : State) : State.Via [.out, .ring, .cnt, .note] u (u.fault 0x0415 0x0350 5 17 0 []) :=
    State.fault_via (.refl _ u) (by decide)
  unfold execWaveRefFault
  rw [if_pos hguard, hq.holdNow]
  exact ⟨_, rfl, (hfault _).only .wav (by decide),
    ((hfault _).only .ready (by decide)).trans (State.clearReady_adc _)⟩

theorem execWaveRefFault_next (s : State) : ∃ t, execWaveRefFault s = .next t := by
  unfold execWaveRefFault
  split
  · exact ⟨_, rfl⟩
  · exact ⟨_, rfl⟩

/-! ### OPEN_WIRE_PHASE_END (10 R287) -/

variable {o : OpenWire}

theorem State.setSlice_openWire (s : State) (k : Nat) (c : Core) : (s.setSlice k c).wav.openWire = s.wav.openWire := by
  unfold State.setSlice
  split
  · rfl
  · rfl

theorem State.serveUrgent_openWire (s : State) (u : Urgent) :
    (s.serveUrgent u).2.wav.openWire = s.wav.openWire := by
  unfold State.serveUrgent
  extract_lets k v m u'
  split
  · exact State.setSlice_openWire s m _
  · rfl

theorem State.askReadings_openWire (s : State) (o : OpenWire) :
    (s.askReadings o).wav.openWire = s.wav.openWire := by
  unfold State.askReadings
  refine List.foldlRecOn (motive := fun u : State => u.wav.openWire = s.wav.openWire) _ _ rfl fun u hu i _ => ?_
  split
  · exact hu
  · exact (State.serveUrgent_openWire u _).trans hu

/-- The test after a phase: its down phase, or none. -/
def State.afterPhase (s : State) (o : OpenWire) : Option OpenWire :=
  if o.down then none else some { o with down := true, since := s.tk.now, sums := [], up := s.readings o }

theorem State.phaseOver_wav (s : State) (o : OpenWire) :
    (s.phaseOver o).wav = { s.wav with openWire := s.afterPhase o } := by
  have hevent (u : State) (type src flags : Nat) (p : List Byte) : (u.event type src flags p).wav = u.wav :=
    (State.event_via (M := [.out, .ring, .cnt, .note]) (.refl _ u) (by decide)).only .wav (by decide)
  have hfault (u : State) (st src r b a : Nat) (p : List Byte) : (u.fault st src r b a p).wav = u.wav :=
    (State.fault_via (M := [.out, .ring, .cnt, .note]) (.refl _ u) (by decide)).only .wav (by decide)
  unfold State.phaseOver State.afterPhase
  extract_lets rs s1 opens s2
  have hs2 : s2.wav = { s.wav with openWire := none } := hevent _ _ _ _ _
  cases o.down with
  | false => rfl
  | true =>
    simp only [Bool.not_true, Bool.false_eq_true, if_false, if_true]
    split
    · exact hs2
    · exact (hfault _ _ _ _ _ _ _).trans hs2

theorem State.phaseOver_now (s : State) (o : OpenWire) : (s.phaseOver o).tk = s.tk :=
  (State.phaseOver_via (M := [.freeCtr, .out, .ring, .cnt, .wav, .note]) (.refl _ s) (by decide)).only .tk (by decide)

/-- The end of 200 µs of a phase, at its TIME. -/
def State.phaseTime (s : State) (o : OpenWire) : State := s.setTime (max s.tk.now (o.since + 200000))

theorem State.phaseTime_via (s : State) (o : OpenWire) : State.Via [.cnt, .tk, .hbm, .idle] s (s.phaseTime o) :=
  State.setTime_via (.refl _ s) (by decide)

theorem State.phaseTime_wav (s : State) (o : OpenWire) : (s.phaseTime o).wav = s.wav := s.setTime_wav _

theorem State.phaseTime_convOff (s : State) (o : OpenWire) : (s.phaseTime o).convOff = s.convOff := by
  have hv := s.phaseTime_via o
  unfold State.convOff State.analogOut State.isReady
  rw [hv.only .ready (by decide), hv.only .wav (by decide), hv.only .err (by decide), hv.only .pwr (by decide)]

/-- Samples held in the phase are waited for; inputs without a reading are asked for while converters convert; else the
phase is over. -/
theorem execOpenWirePhaseEnd_eq (hq : s.NoneDue) (ho : s.wav.openWire = some o) : execOpenWirePhaseEnd s =
    .next (if s.phaseHolds o then s.phaseTime o
      else if !o.unread.isEmpty && !s.convOff then (s.phaseTime o).askReadings o else (s.phaseTime o).phaseOver o) := by
  have hholds : (s.phaseTime o).phaseHolds o = s.phaseHolds o := by
    unfold State.phaseHolds
    rw [s.phaseTime_wav]
  rw [← hholds, ← s.phaseTime_convOff o]
  unfold execOpenWirePhaseEnd
  simp only [ho]
  rw [(hq.setTime _).holdNow, ← apply_ite Host.Outcome.next, ← apply_ite Host.Outcome.next]
  rfl

theorem execOpenWirePhaseEnd_next (s : State) : ∃ t, execOpenWirePhaseEnd s = .next t := by
  unfold execOpenWirePhaseEnd
  split
  · exact ⟨_, rfl⟩
  · extract_lets s1
    split
    · exact ⟨_, rfl⟩
    · split
      · exact ⟨_, rfl⟩
      · exact ⟨_, rfl⟩

/-- TIME and the waveform unit after a phase's 200 µs. -/
theorem execOpenWirePhaseEnd_ends (hq : s.NoneDue) (ho : s.wav.openWire = some o) :
    ∃ t, execOpenWirePhaseEnd s = .next t ∧ t.tk.now = max s.tk.now (o.since + 200000) % 2 ^ 64 ∧
      (s.phaseHolds o = true → t.wav = s.wav) ∧
      (s.phaseHolds o = false → o.unread ≠ [] → s.convOff = false → t.wav.openWire = some o) ∧
      (s.phaseHolds o = false → o.unread = [] ∨ s.convOff = true → t.wav = { s.wav with
        openWire := if o.down then none
          else some { o with down := true, since := t.tk.now, sums := [], up := s.readings o } }) := by
  have hnow : (s.phaseTime o).tk.now = max s.tk.now (o.since + 200000) % 2 ^ 64 := s.setTime_now _
  rw [execOpenWirePhaseEnd_eq hq ho]
  refine ⟨_, rfl, ?_, fun hh => ?_, fun hh hun hoff => ?_, fun hh hover => ?_⟩
  · split
    · exact hnow
    · split
      · rw [← hnow]
        exact congrArg TimeSt.now ((State.askReadings_via (M := [.wav]) (.refl _ _) (by decide)).only .tk (by decide))
      · rw [State.phaseOver_now, hnow]
  · rw [hh, if_pos rfl, s.phaseTime_wav]
  · have hask : (!o.unread.isEmpty && !s.convOff) = true := by
      rw [hoff]
      simpa using hun
    rw [hh, hask, if_neg Bool.false_ne_true, if_pos rfl, State.askReadings_openWire, s.phaseTime_wav, ho]
  · have hask : (!o.unread.isEmpty && !s.convOff) = false := by
      rcases hover with h | h
      · rw [h]
        rfl
      · rw [h, Bool.not_true, Bool.and_false]
    have hreadings : (s.phaseTime o).readings o = s.readings o := by
      unfold State.readings State.free
      rw [(s.phaseTime_via o).only .freeCtr (by decide)]
    rw [hh, hask, if_neg Bool.false_ne_true, if_neg Bool.false_ne_true, State.phaseOver_wav, State.phaseOver_now,
      s.phaseTime_wav]
    unfold State.afterPhase
    rw [hreadings]

end

/-! ### The analog rows complete -/

section
variable {s : State} {K : List Change} {l : List Field} {o : Host.Outcome State Fault Refusal}

/-- The frame of a row that completes, whose host control changes by records alone. -/
theorem Keeps.next_told (hk : Keeps (State.Via K s) o) (h : ∃ t, o = .next t)
    (hl : K.map Change.field ⊆ l := by decide) (hh : .host ∉ K ∧ .mem ∉ K := by decide) :
    ∃ t, o = .next t ∧ State.Only l s t ∧ State.Told (fun _ => False) s t :=
  have ⟨t, ht, hv⟩ := hk.of_next h
  ⟨t, ht, hv.frame hl, hv.quietly hh.1 hh.2⟩

theorem execHoldoffExpiry_only (i : Fin 64) (s : State) :
    ∃ t, execHoldoffExpiry i s = .next t ∧ State.Only [.cnt, .tk, .hbm, .wav, .idle] s t :=
  (execHoldoffExpiry_via (M := [.cnt, .tk, .hbm, .wav, .idle]) (.refl _ s) (by decide)).next_only
    (execHoldoffExpiry_next i s)

theorem execUrgentRequest_only (s : State) :
    ∃ t, execUrgentRequest s = .next t ∧ State.Only [.cnt, .wav, .host] s t :=
  (execUrgentRequest_via (M := [.cnt, .wav, .note]) (.refl _ s) (by decide)).next_only (execUrgentRequest_next s)

theorem execSpareSelfCalibration_only (s : State) : ∃ t, execSpareSelfCalibration s = .next t ∧
    State.Only [.cnt, .tk, .hbm, .wav, .host, .idle] s t :=
  (execSpareSelfCalibration_via (M := [.cnt, .tk, .hbm, .wav, .note, .idle]) (.refl _ s) (by decide)).next_only
    (execSpareSelfCalibration_next s)

theorem execCalibrationSlot_only (s : State) : ∃ t, execCalibrationSlot s = .next t ∧
    State.Only [.cnt, .tk, .hbm, .wav, .host, .idle] s t :=
  (execCalibrationSlot_via (M := [.cnt, .tk, .hbm, .wav, .note, .idle]) (.refl _ s) (by decide)).next_only
    (execCalibrationSlot_next s)

theorem execCalibrationReturn_told (ok : Bool) (s : State) : ∃ t, execCalibrationReturn ok s = .next t ∧
    State.Only [.out, .mem, .cnt, .tk, .hbm, .wav, .host, .idle] s t ∧ State.Told (fun _ => False) s t :=
  (execCalibrationReturn_via (M := [.out, .ring, .cnt, .tk, .hbm, .wav, .note, .idle]) (.refl _ s)
    (by decide)).next_told (execCalibrationReturn_next ok s)

theorem execAdcRefSettled_only (s : State) : ∃ t, execAdcRefSettled s = .next t ∧
    State.Only [.cnt, .tk, .hbm, .wav, .host, .idle, .ready] s t :=
  (execAdcRefSettled_via (M := [.cnt, .tk, .hbm, .wav, .note, .idle, .ready]) (.refl _ s) (by decide)).next_only
    (execAdcRefSettled_next s)

theorem execWaveRefFault_told (s : State) : ∃ t, execWaveRefFault s = .next t ∧
    State.Only [.out, .mem, .cnt, .wav, .host, .ready] s t ∧ State.Told (fun _ => False) s t :=
  (execWaveRefFault_via (M := [.out, .ring, .cnt, .wav, .note, .ready]) (.refl _ s) (by decide)).next_told
    (execWaveRefFault_next s)

theorem execOpenWirePhaseEnd_told (s : State) : ∃ t, execOpenWirePhaseEnd s = .next t ∧
    State.Only [.freeCtr, .out, .mem, .cnt, .tk, .hbm, .wav, .host, .idle] s t ∧ State.Told (fun _ => False) s t :=
  (execOpenWirePhaseEnd_via (M := [.freeCtr, .out, .ring, .cnt, .tk, .hbm, .wav, .note, .idle]) (.refl _ s)
    (by decide)).next_told (execOpenWirePhaseEnd_next s)

end
end Sys2Proof.Machine

open Sys2Proof Sys2Proof.Machine

/-- Settles O31: where no triggered sample waits, holds up to an instant change nothing, so each row is its own change
alone. -/
theorem analogKept : Obligations.AnalogKept := by
  unfold Obligations.AnalogKept
  refine ⟨fun i ok s => ⟨execHoldoffExpiry_only i s, execUrgentRequest_only s, execSpareSelfCalibration_only s,
      execCalibrationSlot_only s, execCalibrationReturn_told ok s, execAdcRefSettled_only s, execWaveRefFault_told s,
      execOpenWirePhaseEnd_told s⟩,
    fun i s => ⟨execHoldoffExpiry_idle, fun x hx => ?_⟩, fun s hq u hu => ?_, fun s hq hoff => ⟨fun hh => ⟨?_, ?_⟩, ?_⟩,
    fun s hq => ⟨execAdcRefSettled_settles hq, execWaveRefFault_fails hq,
      fun o ho => execOpenWirePhaseEnd_ends hq ho⟩⟩
  · refine ⟨_, execHoldoffExpiry_ends hx, s.setTime_now _, ?_⟩
    show ({ (s.setTime (max s.tk.now x)).wav with inputs := _ } : Wav) = _
    rw [State.setTime_wav]
  · intro r k sl refused held
    refine ⟨firstReq_le _ hu, execUrgentRequest_off hq hu, fun hoff hcfg => ?_⟩
    have hasks := execUrgentRequest_on hq hu hoff hcfg
    refine ⟨fun hf => hasks.trans ?_, fun hf _ hs => hasks.trans ?_, fun h js hf _ hs hjs => ?_,
      fun v js hf hs ht => hasks.trans ?_⟩
    · rw [State.urged_spare hf, State.urgentSlice_spare hf]
      rfl
    · rw [State.urged_idle hf hs, State.urgentSlice_own hf]
      rfl
    · intro a ha ht
      refine hasks.trans ?_
      rw [State.urged_running hf hs hjs ha ht, State.urgentSlice_own hf]
      rfl
    · rw [State.urged_busy hf hs ht]
      rfl
  · refine ⟨_, execSpareSelfCalibration_runs hq hoff hh, ?_, s.setTime_now _⟩
    rw [State.updWav_wav, State.setTime_wav]
  · refine ⟨_, execCalibrationSlot_runs hq hoff hh, s.setTime_now _, ?_⟩
    rw [State.updWav_wav, State.setTime_wav]
    rfl
  · exact execCalibrationReturn_runs hq hoff
end

section
namespace Sys2Proof.Machine

/-! ### What watches samples leaves the converters (10 R284 to R287) -/

section
variable {s t u : State} {K : List Change}

/-- The waveform unit changes in its inputs, its windows, its requests and its open-wire test alone. -/
def State.Watches (s t : State) : Prop :=
  t.wav = { s.wav with
    inputs := t.wav.inputs, windows := t.wav.windows, reqs := t.wav.reqs, openWire := t.wav.openWire }

theorem State.Watches.of_wav (h : t.wav = s.wav) : State.Watches s t := by
  unfold State.Watches
  rw [h]

theorem State.Watches.refl (s : State) : State.Watches s s := .of_wav rfl

theorem State.Watches.trans (h : State.Watches s t) (h' : State.Watches t u) : State.Watches s u :=
  Eq.trans h' (by rw [h])

theorem State.Via.watches (h : State.Via K s t) (hk : .wav ∉ K.map Change.field := by decide) : State.Watches s t :=
  .of_wav (h.only .wav hk)

theorem State.Watches.conv (h : State.Watches s t) : t.wav.conv = s.wav.conv := by rw [h]

theorem State.Watches.spare (h : State.Watches s t) : t.wav.spare = s.wav.spare := by rw [h]

theorem State.Watches.trig (h : State.Watches s t) : t.wav.trig = s.wav.trig := by rw [h]

theorem State.Watches.old (h : State.Watches s t) : t.wav.oldWindows = s.wav.oldWindows := by rw [h]

theorem State.Watches.slice (h : State.Watches s t) (k : Nat) : t.slice k = s.slice k := by
  unfold State.slice
  rw [h.conv, h.spare]

theorem foldl_watches {α : Type} {f : State → α → State} (l : List α) (hf : ∀ u a, State.Watches u (f u a))
    (s : State) : State.Watches s (l.foldl f s) :=
  List.foldlRecOn (motive := fun u => State.Watches s u) l f (.refl s) fun u hu a _ => hu.trans (hf u a)

theorem State.setInput_watches (s : State) (i : Fin 64) (x : Input) : State.Watches s (s.setInput i x) := rfl

theorem State.setWindow_watches (s : State) (w : Fin 8) (x : Option WaveWin) : State.Watches s (s.setWindow w x) := rfl

theorem State.count_watches (s : State) (src i n : Nat) : State.Watches s (s.count src i n) :=
  .of_wav (State.count_wav s src i n)

theorem State.waveRecord_watches (s : State) (w part mask : Nat) (x : WaveWin) (last : Nat) (gap : Bool) :
    State.Watches s (s.waveRecord w part mask x last gap) :=
  (State.waveRecord_via (M := [.out, .ring, .cnt, .note]) (.refl _ s) (by decide)).watches

theorem State.closeWave_watches (s : State) (c : ConvCfg) (w : Fin 8) : State.Watches s (s.closeWave c w) := by
  unfold State.closeWave
  split
  · exact .refl s
  · extract_lets e ks
    split
    · exact .refl s
    · split
      · exact (State.setWindow_watches s w none).trans (State.waveRecord_watches _ _ _ _ _ _ _)
      · exact .refl s

theorem State.closeWaves_watches (s : State) (c : ConvCfg) : State.Watches s (s.closeWaves c) :=
  foldl_watches _ (fun u w => State.closeWave_watches u c (fin8 w)) s

theorem State.openWave_watches (s : State) (c : ConvCfg) (w : Fin 8) (input time : Nat) :
    State.Watches s (s.openWave c w input time) := by
  unfold State.openWave
  split
  · exact State.count_watches s _ _ _
  · extract_lets e ks lo fs cut raw newest oldest
    exact (State.setWindow_watches s w _).trans
      ((State.count_watches _ _ _ _).trans (State.closeWave_watches _ c w))

theorem State.fireEnvelope_watches (s : State) (c : ConvCfg) (i : Fin 64) (e : InputEnt) (word hold : Nat) :
    State.Watches s (s.fireEnvelope c i e word hold) := by
  unfold State.fireEnvelope
  extract_lets t tick pl s1 s2 s3 s4
  have h1 : State.Watches s s1 := (State.eventAt_via (M := [.out, .ring, .cnt, .note])
    (State.count_via (.refl _ s) (by decide)) (by decide)).watches
  have h2 : State.Watches s s2 := by
    unfold s2
    split
    · exact h1.trans rfl
    · exact h1
  have h3 : State.Watches s s3 := by
    unfold s3
    split
    · split
      · exact h2.trans (.of_wav rfl)
      · exact h2
    · exact h2
  have h4 : State.Watches s s4 := h3.trans
    (State.fireWhere_via (M := [.freeCtr, .out, .ring, .cnt, .net, .note]) (.refl _ s3) (by decide)).watches
  refine h4.trans (foldl_watches _ (fun u w => ?_) s4)
  split
  · exact State.openWave_watches u c (fin8 w) i.val t
  · exact .refl u

theorem State.envelope_watches (s : State) (c : ConvCfg) (i : Fin 64) (idx word hold : Nat) (y : Int) :
    State.Watches s (s.envelope c i idx word hold y) := by
  unfold State.envelope
  extract_lets e x met x' upto
  clear_value met
  split
  · split
    · exact (State.setInput_watches s i _).trans (State.fireEnvelope_watches _ c i e word hold)
    · exact State.setInput_watches s i x'
  · exact State.setInput_watches s i _
  · exact State.setInput_watches s i x'

theorem State.openWireSample_watches (s : State) (input hold : Nat) (y : Int) :
    State.Watches s (s.openWireSample input hold y) := by
  unfold State.openWireSample
  split
  · split
    · exact rfl
    · exact .refl s
  · exact .refl s

theorem State.openWireCode_watches (s : State) (input : Nat) (y : Int) :
    State.Watches s (s.openWireCode input y) := by
  unfold State.openWireCode
  split
  · split
    · exact rfl
    · exact .refl s
  · exact .refl s

/-- An urgent result changes no converter (10 R274). -/
theorem State.urgentResult_watches (s : State) (u : Urgent) (x : Int) (err : Bool) :
    State.Watches s (s.urgentResult u x err) := by
  unfold State.urgentResult
  extract_lets k cr s1 tick
  have h1 : State.Watches s s1 := State.count_watches s _ _ _
  split
  split
  · exact h1.trans (State.openWireCode_watches _ _ _)
  · exact h1.trans (State.fireWhere_via (M := [.freeCtr, .out, .ring, .cnt, .net, .note])
      (State.eventAt_via (.refl _ s1) (by decide)) (by decide)).watches

end
end Sys2Proof.Machine
end

section
namespace Sys2Proof.Machine

/-! ### CONVERSION_DONE (10 R268 to R274) -/

section
variable {s t : State} {k : Fin 17} {code : BitVec 18} {j : CoreJob} {js : List CoreJob} {h : Held} {u : Urgent}

theorem State.slice_spare (s : State) : s.slice 16 = s.wav.spare := rfl

theorem State.slice_conv (s : State) {k : Nat} (hk : k ≠ 16) : s.slice k = s.wav.conv[fin16 k].core := if_neg hk

theorem fin16_inj {i k : Fin 17} (hi : i.val ≠ 16) (hk : k.val ≠ 16) (h : fin16 i.val = fin16 k.val) : i = k := by
  have h := congrArg Fin.val h
  change i.val % 16 = k.val % 16 at h
  omega

/-- A slice set is that slice; the others stay. -/
theorem State.setSlice_slice (s : State) (k i : Fin 17) (c : Core) :
    (s.setSlice k.val c).slice i.val = if i = k then c else s.slice i.val := by
  unfold State.setSlice
  by_cases hk : k.val = 16
  · rw [if_pos hk]
    by_cases hi : i.val = 16
    · rw [if_pos (Fin.ext (hi.trans hk.symm)), hi]
      rfl
    · rw [if_neg fun h : i = k => hi (h ▸ hk), State.slice_conv _ hi, State.slice_conv _ hi, State.updWav_wav]
  · rw [if_neg hk]
    by_cases hi : i.val = 16
    · rw [if_neg fun h : i = k => hk (h ▸ hi), hi]
      rfl
    · rw [State.slice_conv _ hi, State.slice_conv _ hi, State.updConv_get]
      by_cases h : i = k
      · rw [if_pos h, h, if_pos rfl]
      · rw [if_neg h, if_neg fun he => h (fin16_inj hi hk he.symm)]

theorem State.setSlice_words (s : State) (k : Nat) (c : Core) (i : Fin 16) :
    (s.setSlice k c).wav.conv[i].words = s.wav.conv[i].words := by
  unfold State.setSlice
  split
  · rfl
  · rw [State.updConv_get]
    split
    · rfl
    · rfl

theorem State.setSlice_inputs (s : State) (k : Nat) (c : Core) : (s.setSlice k c).wav.inputs = s.wav.inputs := by
  unfold State.setSlice
  split
  · rfl
  · rfl

theorem State.setSlice_convError (s : State) (k : Nat) (c : Core) (i : Fin 16) :
    (s.setSlice k c).convError i = s.convError i := by
  unfold State.convError State.setSlice
  split
  · rfl
  · rw [State.updConv_get]
    split
    · rfl
    · rfl

/-- The corrections that apply at a sample when at most one change is planned (10 R270). -/
theorem Input.settled_correction {x : Input} {new : Option (Int × Nat × Nat)} (hx : x.next = new.toList) (n : Nat) :
    (x.settled (n + 1)).correction (n + 1) =
      new.elim (x.offset, x.gain) fun p => if p.2.2 ≤ n then (p.1, p.2.1) else (x.offset, x.gain) := by
  unfold Input.settled Input.correction
  rw [hx]
  cases new with
  | none => rfl
  | some p =>
    obtain ⟨o, g, first⟩ := p
    simp only [Option.toList_some, List.foldl_cons, List.foldl_nil, List.filter_cons, List.filter_nil,
      Option.elim_some, decide_eq_true_eq]
    by_cases hold : n + 1 - 256 ≤ first
    · rw [if_pos hold, if_neg (Nat.not_lt.2 hold), List.foldl_cons, List.foldl_nil]
      simp only [Nat.lt_succ_iff]
    · have hle : first ≤ n := by omega
      rw [if_neg hold, if_pos (Nat.lt_of_not_le hold), if_pos hle]
      rfl

/-- A result with its corrections, and whether they clip it (10 R270). -/
def State.corrected (s : State) (h : Held) (x : Int) : Int × Bool :=
  let c := (s.wav.inputs[fin64 h.input].settled (h.idx + 1)).correction (h.idx + 1)
  correct c.1 c.2 x

/-- The word of a result with its flags (10 R269). -/
def State.resultWord (s : State) (k : Fin 16) (h : Held) (x : Int) : Nat :=
  sampleWord (s.corrected h x).1 h.input ((if h.late then swLate + swUnaligned else 0) +
    (if (s.corrected h x).2 then swClip else 0) + (if h.spare then swSpare else 0) +
    (if h.openWire then swOpenWire else 0) + (if s.convError k then swError else 0))

/-- A converter after a result's word is in its block (10 R269). -/
def Conv.puts (c : Conv) (h : Held) (w : Nat) : Conv :=
  let c := c.putWord h.idx w
  if h.late then { c with lates := c.lates ++ [(h.idx, h.hold - h.nominal)] } else c

theorem Conv.puts_core (c : Conv) (h : Held) (w : Nat) : (c.puts h w).core = c.core := by
  unfold Conv.puts
  split
  · rfl
  · rfl

theorem Conv.puts_words (c : Conv) (h : Held) (w : Nat) : (c.puts h w).words = c.words ++ [(h.idx, w)] := by
  unfold Conv.puts
  split
  · rfl
  · rfl

/-- A stream result puts its word into its converter's block; what watches samples does the rest. -/
theorem State.streamResult_watches (s : State) (k : Fin 16) (h : Held) (x : Int) :
    State.Watches (s.updConv k fun c => c.puts h (s.resultWord k h x)) (s.streamResult k h x) := by
  have hset : (s.setInput (fin64 h.input) (s.wav.inputs[fin64 h.input].settled (h.idx + 1))).wav.inputs[fin64 h.input] =
      s.wav.inputs[fin64 h.input].settled (h.idx + 1) := by
    simp [State.setInput]
  unfold State.streamResult
  extract_lets i s1 cr
  split
  next y clip hy =>
  have hcorr : s.corrected h x = (y, clip) := by
    rw [← hy]
    unfold State.corrected cr s1 i
    rw [hset]
  extract_lets flags word s2 s3 s4 s5 s6
  have hword : s.resultWord k h x = word := by
    unfold State.resultWord
    rw [hcorr]
    rfl
  have h2 : State.Watches (s.updConv k fun c => c.puts h (s.resultWord k h x)) s2 := by
    rw [hword]
    rfl
  have h3 : State.Watches s2 s3 := by
    unfold s3
    split
    · exact s2.count_watches _ _ _
    · exact .refl s2
  have h4 : State.Watches s3 s4 := by
    unfold s4
    split
    · exact s3.count_watches _ _ _
    · exact .refl s3
  have h5 := ((h2.trans h3).trans h4).trans (s4.openWireSample_watches h.input h.hold y)
  have h6 : State.Watches s5 s6 := by
    unfold s6
    split
    · split
      · exact .of_wav rfl
      · exact .refl s5
    · exact .refl s5
  split
  · exact h5
  · split
    · exact (h5.trans h6).trans (s6.envelope_watches _ i h.idx word h.hold y)
    · exact h5.trans h6

/-! ### The end of a slice's first conversion -/

/-- The end of a slice's first conversion, at its TIME: the core is free, its result not yet used. -/
def State.converted (s : State) (k : Fin 17) (e : Nat) : State :=
  (s.setTime (max s.tk.now (e / 256))).setSlice k.val ((s.slice k.val).finish e s.testing)

theorem State.setTime_slice (s : State) (n k : Nat) : (s.setTime n).slice k = s.slice k := by
  unfold State.slice
  rw [s.setTime_wav]

theorem State.setTime_testing (s : State) (n : Nat) : (s.setTime n).testing = s.testing := by
  funext i
  unfold State.testing
  rw [s.setTime_wav]

theorem State.converted_slice (s : State) (k i : Fin 17) (e : Nat) : (s.converted k e).slice i.val =
    if i = k then (s.slice k.val).finish e s.testing else s.slice i.val := by
  unfold State.converted
  rw [State.setSlice_slice, State.setTime_slice]

theorem State.converted_words (s : State) (k : Fin 17) (e : Nat) (i : Fin 16) :
    (s.converted k e).wav.conv[i].words = s.wav.conv[i].words := by
  unfold State.converted
  rw [State.setSlice_words, State.setTime_wav]

theorem State.converted_now (s : State) (k : Fin 17) (e : Nat) :
    (s.converted k e).tk.now = max s.tk.now (e / 256) % 2 ^ 64 :=
  (congrArg TimeSt.now ((State.setSlice_via (M := [.wav]) (.refl _ _) (by decide)).only .tk (by decide))).trans
    (s.setTime_now _)

theorem State.converted_resultWord (s : State) (k : Fin 17) (e : Nat) (i : Fin 16) (h : Held) (x : Int) :
    (s.converted k e).resultWord i h x = s.resultWord i h x := by
  have herr : (s.converted k e).convError i = s.convError i := by
    unfold State.converted
    rw [State.setSlice_convError]
    unfold State.convError
    rw [State.setTime_wav]
  unfold State.resultWord State.corrected
  rw [herr]
  unfold State.converted
  rw [State.setSlice_inputs, State.setTime_wav]

section
variable (hq : s.NoneDue)
include hq

/-- Nothing waits to be held for a slice. -/
theorem State.NoneDue.nextHold (k : Nat) : s.nextHold k = none := by
  unfold State.nextHold
  split
  next j _ => rw [hq (fin16 j)]; rfl
  next => rfl

/-- A slice that holds nothing ends no conversion. -/
theorem execConversionDone_idle (hj : (s.slice k.val).jobs = []) : execConversionDone k code s = .next s := by
  unfold execConversionDone
  simp only [hq.holdNow, hj, hq.nextHold, List.isEmpty_nil, if_true, Option.elim_none, Core.spans, spansFrom]

/-- A stream sample's result goes to its block at the end of its conversion. -/
theorem execConversionDone_stream (hj : (s.slice k.val).jobs = .stream h :: js) (hp : h.pair = 0) :
    execConversionDone k code s = .next
      ((s.converted k (adcEdge (max h.hold (s.slice k.val).freeAt) + convTime)).streamResult (fin16 h.conv) h
        code.toInt) := by
  unfold execConversionDone
  simp only [hq.holdNow, hj, List.isEmpty_cons, Bool.false_eq_true, if_false, Core.spans, spansFrom, hq.holdAll,
    State.setTime_slice, State.setTime_testing, List.head?_cons, State.pairResult, hp, if_true, OfNat.zero_ne_ofNat]
  rfl

/-- An urgent result at the end of its conversion. -/
theorem execConversionDone_urgent (hj : (s.slice k.val).jobs = .urgent u :: js) : ∃ err : Bool,
    execConversionDone k code s = .next
      ((s.converted k (adcEdge (max (u.hold * 256) (s.slice k.val).freeAt) + convTime)).urgentResult u code.toInt
        err) := by
  unfold execConversionDone
  simp only [hq.holdNow, hj, List.isEmpty_cons, Bool.false_eq_true, if_false, Core.spans, spansFrom, hq.holdAll,
    State.setTime_slice, State.setTime_testing, List.head?_cons]
  exact ⟨_, rfl⟩

end

/-! ### What stands after a result -/

theorem State.updConv_slice {g : Conv → Conv} (s : State) (k : Fin 16) (i : Nat) (hg : ∀ c, (g c).core = c.core) :
    (s.updConv k g).slice i = s.slice i := by
  unfold State.slice
  split
  · rfl
  · rw [State.updConv_get]
    split
    · exact hg _
    · rfl

/-- TIME, the slices and the blocks after a stream result. -/
theorem execConversionDone_streams (hq : s.NoneDue) (hj : (s.slice k.val).jobs = .stream h :: js) (hp : h.pair = 0)
    (hjs : ∀ a as, js ≠ .again a :: as) {i : Fin 16} (hi : h.conv = i.val) :
    ∃ t, execConversionDone k code s = .next t ∧
      t.slice k.val = ⟨js, adcEdge (max h.hold (s.slice k.val).freeAt) + convTime⟩ ∧
      t.tk.now = max s.tk.now ((adcEdge (max h.hold (s.slice k.val).freeAt) + convTime) / 256) % 2 ^ 64 ∧
      t.wav.conv[i].words = s.wav.conv[i].words ++ [(h.idx, s.resultWord i h code.toInt)] ∧
      (∀ j : Fin 16, j ≠ i → t.wav.conv[j].words = s.wav.conv[j].words) ∧
      (∀ j : Fin 17, j ≠ k → t.slice j.val = s.slice j.val) := by
  have hfin (e : Nat) : (s.slice k.val).finish e s.testing = ⟨js, e⟩ := by
    unfold Core.finish
    rw [hj, List.drop_one, List.tail_cons]
    split
    next a as => exact absurd rfl (hjs a as)
    next => rfl
  have hconv : fin16 h.conv = i := by
    rw [hi]
    exact (fin16_val i.isLt i).2 rfl
  have hslice (u : State) (w : Nat) (j : Nat) : (u.updConv i fun c => c.puts h w).slice j = u.slice j :=
    u.updConv_slice i j fun c => c.puts_core h w
  have hw := State.streamResult_watches (s.converted k (adcEdge (max h.hold (s.slice k.val).freeAt) + convTime)) i h
    code.toInt
  refine ⟨_, execConversionDone_stream hq hj hp, ?_⟩
  rw [hconv]
  refine ⟨?_, ?_, ?_, fun j hji => ?_, fun j hjk => ?_⟩
  · rw [hw.slice, hslice, State.converted_slice, if_pos rfl, hfin]
  · rw [← State.converted_now]
    exact congrArg TimeSt.now ((State.streamResult_via (M := [.freeCtr, .out, .ring, .cnt, .img, .wav, .net, .note])
      (.refl _ _) (by decide)).only .tk (by decide))
  · rw [hw.conv, State.updConv_get, if_pos rfl, Conv.puts_words, State.converted_words, State.converted_resultWord]
  · rw [hw.conv, State.updConv_get, if_neg (Ne.symm hji), State.converted_words]
  · rw [hw.slice, hslice, State.converted_slice, if_neg hjk]

/-- TIME, the slices and the blocks after an urgent result. -/
theorem execConversionDone_urgents (hq : s.NoneDue) (hj : (s.slice k.val).jobs = .urgent u :: js) :
    ∃ t, execConversionDone k code s = .next t ∧
      t.slice k.val =
        (s.slice k.val).finish (adcEdge (max (u.hold * 256) (s.slice k.val).freeAt) + convTime) s.testing ∧
      t.tk.now = max s.tk.now ((adcEdge (max (u.hold * 256) (s.slice k.val).freeAt) + convTime) / 256) % 2 ^ 64 ∧
      (∀ i : Fin 16, t.wav.conv[i].words = s.wav.conv[i].words) ∧
      (∀ j : Fin 17, j ≠ k → t.slice j.val = s.slice j.val) := by
  obtain ⟨err, hexec⟩ := execConversionDone_urgent (code := code) hq hj
  have hw := (s.converted k (adcEdge (max (u.hold * 256) (s.slice k.val).freeAt) + convTime)).urgentResult_watches u
    code.toInt err
  refine ⟨_, hexec, ?_, ?_, fun i => ?_, fun j hjk => ?_⟩
  · rw [hw.slice, State.converted_slice, if_pos rfl]
  · rw [← State.converted_now]
    exact congrArg TimeSt.now ((State.urgentResult_via (M := [.freeCtr, .out, .ring, .cnt, .wav, .net, .note])
      (.refl _ _) (by decide)).only .tk (by decide))
  · rw [hw.conv, State.converted_words]
  · rw [hw.slice, State.converted_slice, if_neg hjk]

theorem execConversionDone_next (k : Fin 17) (code : BitVec 18) (s : State) :
    ∃ t, execConversionDone k code s = .next t := by
  unfold execConversionDone
  extract_lets x s1 s2
  split
  · exact ⟨_, rfl⟩
  · exact ⟨_, rfl⟩

theorem execConversionDone_told (k : Fin 17) (code : BitVec 18) (s : State) : ∃ t,
    execConversionDone k code s = .next t ∧
    State.Only [.freeCtr, .out, .mem, .cnt, .tk, .hbm, .img, .wav, .net, .host, .idle] s t ∧
    State.Told (fun _ => False) s t :=
  (execConversionDone_via (M := [.freeCtr, .out, .ring, .cnt, .tk, .hbm, .img, .wav, .net, .note, .idle]) (.refl _ s)
    (by decide)).next_told (execConversionDone_next k code s)

end
end Sys2Proof.Machine

open Sys2Proof Sys2Proof.Machine

/-- Settles O30: the first conversion of a slice ends at its time; its result goes to its block, or to the one that
asked for it, and what watches samples leaves converters and slices as they are. -/
theorem conversionsTakeTheirPlace : Obligations.ConversionsTakeTheirPlace := by
  unfold Obligations.ConversionsTakeTheirPlace
  refine ⟨execConversionDone_told, fun k code s hq hj => execConversionDone_idle hq hj, fun k code js s hq => ⟨?_, ?_⟩⟩
  · intro i h new hj hjs hi hp hnew x og y e
    obtain ⟨t, ht, hslice, hnow, hword, hwords, hslices⟩ :=
      execConversionDone_streams (code := code) hq hj hp hjs hi
    have hog : (x.settled (h.idx + 1)).correction (h.idx + 1) = og := by
      rw [Input.settled_correction hnew]
      cases new with
      | none => rfl
      | some p => rfl
    have hy : s.corrected h code.toInt = y := by
      unfold State.corrected
      show correct ((x.settled (h.idx + 1)).correction (h.idx + 1)).1 _ _ = _
      rw [hog]
    unfold State.resultWord at hword
    rw [hy] at hword
    exact ⟨t, ht, hslice, hnow, hword, hwords, hslices⟩
  · intro u hj e
    obtain ⟨t, ht, hslice, hnow, hwords, hslices⟩ := execConversionDone_urgents (code := code) hq hj
    refine ⟨t, ht, hslice.trans ?_, hnow, hwords, hslices⟩
    unfold Core.finish
    rw [hj, List.drop_one, List.tail_cons] <;> rfl
end

section
namespace Sys2Proof.Machine

/-! ### Converters take turns (10 R264 to R269) -/

section
variable {s t u : State} {j k : Fin 16} {h : Held}

/-- What decides how converter `k` is served stays: whether converters convert, its handover, the test current, and the
spare slice while that serves it. -/
structure State.AsServed (k : Fin 16) (s t : State) : Prop where
  spare : s.wav.standing = some k.val → t.wav.spare = s.wav.spare
  standing : t.wav.standing = s.wav.standing
  handover : t.wav.handover = s.wav.handover
  openWire : t.wav.openWire = s.wav.openWire
  off : t.convOff = s.convOff

/-- What the turns of other converters leave to converter `k`: how it is served, and itself. -/
structure State.Beside (k : Fin 16) (s t : State) : Prop extends State.AsServed k s t where
  conv : t.wav.conv[k] = s.wav.conv[k]

theorem State.AsServed.trans (h : State.AsServed k s t) (h' : State.AsServed k t u) : State.AsServed k s u :=
  ⟨fun e => (h'.spare (h.standing.trans e)).trans (h.spare e), h'.standing.trans h.standing,
    h'.handover.trans h.handover, h'.openWire.trans h.openWire, h'.off.trans h.off⟩

theorem State.Beside.trans (h : State.Beside k s t) (h' : State.Beside k t u) : State.Beside k s u :=
  ⟨h.toAsServed.trans h'.toAsServed, h'.conv.trans h.conv⟩

theorem State.Beside.of_wav (hw : t.wav = s.wav) (ho : t.convOff = s.convOff) : State.Beside k s t := by
  refine ⟨⟨fun _ => ?_, ?_, ?_, ?_, ho⟩, ?_⟩ <;> rw [hw]

theorem State.Beside.refl (k : Fin 16) (s : State) : State.Beside k s s := .of_wav rfl rfl

theorem State.updConv_serves (s : State) (j k : Fin 16) (g : Conv → Conv) : State.AsServed k s (s.updConv j g) :=
  ⟨fun _ => rfl, rfl, rfl, rfl, rfl⟩

theorem State.AsServed.testing (h : State.AsServed k s t) : t.testing = s.testing := by
  funext i
  unfold State.testing
  rw [h.openWire]

/-- Whether converters convert does not depend on counters, TIME and events. -/
theorem State.Via.convOff {K : List Change} (h : State.Via K s t) (hw : t.wav.refFault = s.wav.refFault)
    (hk : .ready ∉ K.map Change.field ∧ .err ∉ K.map Change.field ∧ .pwr ∉ K.map Change.field := by decide) :
    t.convOff = s.convOff := by
  unfold State.convOff State.analogOut State.isReady
  rw [h.only .ready hk.1, hw, h.only .err hk.2.1, h.only .pwr hk.2.2]

theorem State.updConv_beside (s : State) (g : Conv → Conv) (hjk : j ≠ k) : State.Beside k s (s.updConv j g) :=
  ⟨s.updConv_serves j k g, (s.updConv_get j k g).trans (if_neg hjk)⟩

/-- Each turn of a fold over the converters is beside the others: converter `k` sees its own turn alone. -/
theorem foldl_turn {I : State → Prop} {f : State → Nat → State} (hI : ∀ u j, j < 16 → I u → I (f u j))
    (hB : ∀ u j, ∀ k : Fin 16, j < 16 → j ≠ k.val → I u → State.Beside k u (f u j)) (k : Fin 16) (hs : I s) :
    I ((List.range 16).foldl f s) ∧
      ∃ u, I u ∧ State.Beside k s u ∧ State.Beside k (f u k.val) ((List.range 16).foldl f s) := by
  have hrun (l : List Nat) (hl : ∀ j ∈ l, j < 16) (hk : k.val ∉ l) (u : State) (hu : I u) :
      I (l.foldl f u) ∧ State.Beside k u (l.foldl f u) :=
    List.foldlRecOn (motive := fun v => I v ∧ State.Beside k u v) l f ⟨hu, .refl k u⟩ fun v hv j hj =>
      ⟨hI v j (hl j hj) hv.1, hv.2.trans (hB v j k (hl j hj) (fun e => hk (e ▸ hj)) hv.1)⟩
  obtain ⟨l, r, hlr⟩ := List.append_of_mem (List.mem_range.2 k.isLt)
  have hnd : (l ++ k.val :: r).Nodup := hlr ▸ List.nodup_range
  have hlt : ∀ j ∈ l ++ k.val :: r, j < 16 := fun j hj => List.mem_range.1 (hlr ▸ hj)
  obtain ⟨-, hkr, hd⟩ := List.nodup_append.1 hnd
  have hl := hrun l (fun j hj => hlt j (List.mem_append_left _ hj)) (fun hk => hd _ hk _ List.mem_cons_self rfl) s hs
  have hr := hrun r (fun j hj => hlt j (List.mem_append_right _ (List.mem_cons_of_mem _ hj)))
    (List.nodup_cons.1 hkr).1 (f (l.foldl f s) k.val) (hI _ _ k.isLt hl.1)
  rw [hlr, List.foldl_append, List.foldl_cons]
  exact ⟨hr.1, _, hl.1, hl.2, hr.2⟩

/-! ### A hold (10 R268, R269) -/

/-- A triggered sample leaves its converter's waiting ones. -/
def State.unpend (s : State) (k : Fin 16) : State := s.updConv k fun v => { v with pend := v.pend.drop 1 }

/-- A sample as the slice that serves its converter holds it. -/
def State.heldBy (s : State) (h : Held) : Held := { h with openWire := s.testing h.input }

theorem State.unpend_slice (s : State) (k : Fin 16) (i : Nat) : (s.unpend k).slice i = s.slice i :=
  s.updConv_slice k i fun _ => rfl

theorem State.missWord_conv (s : State) (j i : Fin 16) (idx input : Nat) : (s.missWord j idx input).wav.conv[i] =
    if j = i then s.wav.conv[i].putWord idx (missedWord input) else s.wav.conv[i] :=
  s.updConv_get j i fun c => c.putWord idx (missedWord input)

theorem State.missSample_wav (s : State) (j : Fin 16) (idx input : Nat) :
    (s.missSample j idx input).wav = (s.missWord j idx input).wav :=
  ((State.tickFault_via (M := [.note]) (.refl _ _) (by decide)).only .wav (by decide)).trans (State.count_wav _ _ _ _)

theorem State.missSample_off (s : State) (j : Fin 16) (idx input : Nat) :
    (s.missSample j idx input).convOff = s.convOff :=
  State.Via.convOff (s := s.missWord j idx input)
    (State.tickFault_via (M := [.cnt, .note]) (State.count_via (.refl _ _) (by decide)) (by decide))
    (congrArg Wav.refFault (s.missSample_wav j idx input))

/-- A sample that no handover concerns: missed while nothing converts, held by the slice that serves its converter, or
missed where that has no capacitor free. -/
theorem State.holdSample_eq (hj : h.conv = j.val) (hh : s.wav.handover = none) : s.holdSample h =
    if s.convOff then (s.unpend j).missWord j h.idx h.input
    else if (s.slice (s.streamSlice j.val)).free h.hold then
      (s.unpend j).holdOn (s.streamSlice j.val) (s.heldBy h)
    else (s.unpend j).missSample j h.idx h.input := by
  have htake : (s.unpend j).takeHandover h.conv h.hold = (false, s.unpend j) := by
    unfold State.takeHandover
    rw [show (s.unpend j).wav.handover = none from hh]
  unfold State.holdSample
  extract_lets k s1 main other
  obtain rfl : k = j := (congrArg fin16 hj).trans ((fin16_val j.isLt j).2 rfl)
  have hmain : main = s.streamSlice k.val := congrArg s.streamSlice hj
  by_cases ho : s.convOff = true
  · rw [if_pos ho]
    exact if_pos ho
  · rw [if_neg ho, ← hmain, ← s.unpend_slice k main]
    refine (if_neg ho).trans ?_
    rw [show s1.takeHandover h.conv h.hold = (false, s1) from htake]
    by_cases hf : ((s.unpend k).slice main).free h.hold = true
    · rw [if_pos hf]
      show (if ((s1.slice main).free h.hold && false) = true then _ else _) = _
      rw [Bool.and_false, if_neg Bool.false_ne_true]
      exact if_pos hf
    · rw [if_neg hf]
      show (if ((s1.slice main).free h.hold && false) = true then _ else _) = _
      rw [Bool.and_false, if_neg Bool.false_ne_true]
      exact if_neg hf

theorem State.streamSlice_spare (hs : s.wav.standing = some j.val) : s.streamSlice j.val = 16 := if_pos hs

theorem State.streamSlice_own (hs : s.wav.standing ≠ some j.val) : s.streamSlice j.val = j.val := if_neg hs

theorem State.slice_own (s : State) (j : Fin 16) : s.slice j.val = s.wav.conv[j].core := by
  rw [State.slice_conv s j.isLt.ne]
  exact congrArg (fun i : Fin 16 => s.wav.conv[i].core) ((fin16_val j.isLt j).2 rfl)

/-- The spare slice serves the converter that it stands for. -/
theorem State.slice_standing (hs : s.wav.standing = some j.val) : s.slice (s.streamSlice j.val) = s.wav.spare := by
  rw [State.streamSlice_spare hs, State.slice_spare]

theorem State.slice_serving (hs : s.wav.standing ≠ some j.val) :
    s.slice (s.streamSlice j.val) = s.wav.conv[j].core := by
  rw [State.streamSlice_own hs, State.slice_own]

theorem State.holdOn_spare (s : State) (h : Held) : s.holdOn 16 h =
    s.updWav fun w => { w with spare := s.wav.spare.push (.stream { h with spare := true }) } := rfl

theorem State.holdOn_own (s : State) (j : Fin 16) (h : Held) : s.holdOn j.val h =
    s.updConv j fun v => { v with core := s.wav.conv[j].core.push (.stream { h with spare := false }) } := by
  have hspare : (j.val == 16) = false := beq_false_of_ne j.isLt.ne
  unfold State.holdOn State.setSlice
  rw [if_neg j.isLt.ne, (fin16_val j.isLt j).2 rfl, State.slice_own, hspare]

theorem State.missWord_beside (s : State) (idx input : Nat) (hjk : j ≠ k) :
    State.Beside k s (s.missWord j idx input) :=
  ⟨⟨fun _ => rfl, rfl, rfl, rfl, rfl⟩, (s.missWord_conv j k idx input).trans (if_neg hjk)⟩

theorem State.missSample_beside (s : State) (idx input : Nat) (hjk : j ≠ k) :
    State.Beside k s (s.missSample j idx input) :=
  (s.missWord_beside idx input hjk).trans (.of_wav (s.missSample_wav j idx input) (s.missSample_off j idx input))

theorem State.holdOn_beside (s : State) (h : Held) (hjk : j ≠ k) :
    State.Beside k s (s.holdOn (s.streamSlice j.val) h) := by
  by_cases hs : s.wav.standing = some j.val
  · rw [State.streamSlice_spare hs, State.holdOn_spare]
    exact ⟨⟨fun hk => absurd (Option.some.inj (hs.symm.trans hk)) (fun e => hjk (Fin.ext e)), rfl, rfl, rfl, rfl⟩, rfl⟩
  · rw [State.streamSlice_own hs, State.holdOn_own]
    exact s.updConv_beside _ hjk

section
variable (hj : h.conv = j.val) (hh : s.wav.handover = none)
include hj hh

/-- A hold of one converter is beside the others. -/
theorem State.holdSample_beside (hjk : j ≠ k) : State.Beside k s (s.holdSample h) := by
  have hd : State.Beside k s (s.unpend j) := s.updConv_beside _ hjk
  rw [State.holdSample_eq hj hh]
  split
  · exact hd.trans ((s.unpend j).missWord_beside _ _ hjk)
  · split
    · exact hd.trans ((s.unpend j).holdOn_beside _ hjk)
    · exact hd.trans ((s.unpend j).missSample_beside _ _ hjk)

/-- While nothing converts the sample takes its place as MISSED (10 R278, R289). -/
theorem State.holdSample_off (hoff : s.convOff = true) : (s.holdSample h).wav.conv[j] =
    { s.wav.conv[j] with
      pend := s.wav.conv[j].pend.drop 1, words := s.wav.conv[j].words ++ [(h.idx, missedWord h.input)] } := by
  rw [State.holdSample_eq hj hh, if_pos hoff, State.missWord_conv, if_pos rfl, State.unpend,
    State.updConv_get, if_pos rfl]
  rfl

variable (hoff : s.convOff = false)
include hoff

/-- A slice without a free capacitor leaves the sample MISSED (10 R269). -/
theorem State.holdSample_busy (hf : (s.slice (s.streamSlice j.val)).free h.hold = false) :
    (s.holdSample h).wav.conv[j] = { s.wav.conv[j] with
      pend := s.wav.conv[j].pend.drop 1, words := s.wav.conv[j].words ++ [(h.idx, missedWord h.input)] } := by
  rw [State.holdSample_eq hj hh, hoff, if_neg Bool.false_ne_true, hf, if_neg Bool.false_ne_true, State.missSample_wav,
    State.missWord_conv, if_pos rfl, State.unpend, State.updConv_get, if_pos rfl]
  rfl

/-- The converter's own slice holds the sample (10 R268). -/
theorem State.holdSample_own (hs : s.wav.standing ≠ some j.val) (hf : s.wav.conv[j].core.free h.hold = true) :
    (s.holdSample h).wav.conv[j] = { s.wav.conv[j] with
      pend := s.wav.conv[j].pend.drop 1
      core := s.wav.conv[j].core.push (.stream { s.heldBy h with spare := false }) } := by
  rw [State.holdSample_eq hj hh, hoff, if_neg Bool.false_ne_true, State.streamSlice_own hs, State.slice_own, if_pos hf,
    State.holdOn_own, State.updConv_get, if_pos rfl, State.unpend, State.updConv_get, if_pos rfl]

/-- The spare slice holds the sample of the converter that it stands for (10 R276). -/
theorem State.holdSample_standing (hs : s.wav.standing = some j.val) (hf : s.wav.spare.free h.hold = true) :
    (s.holdSample h).wav.conv[j] = { s.wav.conv[j] with pend := s.wav.conv[j].pend.drop 1 } ∧
      (s.holdSample h).wav.spare = s.wav.spare.push (.stream { s.heldBy h with spare := true }) ∧
      (s.holdSample h).wav.standing = s.wav.standing := by
  rw [State.holdSample_eq hj hh, hoff, if_neg Bool.false_ne_true, State.streamSlice_spare hs, State.slice_spare,
    if_pos hf, State.holdOn_spare]
  exact ⟨(s.updConv_get j j fun v => { v with pend := v.pend.drop 1 }).trans (if_pos rfl), rfl, rfl⟩

end

/-- A hold takes its sample from the waiting ones. -/
theorem State.holdSample_takes (hj : h.conv = j.val) (hh : s.wav.handover = none) :
    (s.holdSample h).wav.conv[j].pend = s.wav.conv[j].pend.drop 1 ∧
      (s.holdSample h).wav.conv[j].idx = s.wav.conv[j].idx := by
  cases hoff : s.convOff with
  | true =>
    rw [State.holdSample_off hj hh hoff]
    exact ⟨rfl, rfl⟩
  | false =>
    cases hf : (s.slice (s.streamSlice j.val)).free h.hold with
    | false =>
      rw [State.holdSample_busy hj hh hoff hf]
      exact ⟨rfl, rfl⟩
    | true =>
      by_cases hs : s.wav.standing = some j.val
      · rw [State.streamSlice_spare hs] at hf
        rw [(State.holdSample_standing hj hh hoff hs hf).1]
        exact ⟨rfl, rfl⟩
      · rw [State.streamSlice_own hs, State.slice_own] at hf
        rw [State.holdSample_own hj hh hoff hs hf]
        exact ⟨rfl, rfl⟩

/-! ### The holds that are due (10 R266) -/

/-- No handover is due, and each sample that waits is one of the converter where it waits. -/
def State.Owned (s : State) : Prop :=
  s.wav.handover = none ∧ ∀ j : Fin 16, ∀ h ∈ s.wav.conv[j].pend, h.conv = j.val

/-- The samples stay owned when one converter's waiting ones do and the others are left. -/
theorem State.Owned.turn (hs : s.Owned) (hb : ∀ k, j ≠ k → State.Beside k s t) (hh : t.wav.handover = none)
    (hj : ∀ h ∈ t.wav.conv[j].pend, h.conv = j.val) : t.Owned := by
  refine ⟨hh, fun k => ?_⟩
  by_cases hjk : j = k
  · exact hjk ▸ hj
  · rw [(hb k hjk).conv]
    exact hs.2 k

theorem State.Owned.holdSample (hs : s.Owned) (hh : h ∈ s.wav.conv[j].pend) : (s.holdSample h).Owned := by
  have hj := hs.2 j h hh
  have hb (k : Fin 16) (hjk : j ≠ k) : State.Beside k s (s.holdSample h) := State.holdSample_beside hj hs.1 hjk
  have hhand : (s.holdSample h).wav.handover = none := by
    obtain ⟨k, hk⟩ : ∃ k : Fin 16, j ≠ k := (exists_ne j).imp fun k hk => hk.symm
    exact (hb k hk).handover.trans hs.1
  refine hs.turn hb hhand fun h' hh' => ?_
  rw [(State.holdSample_takes hj hs.1).1] at hh'
  exact hs.2 j h' (List.mem_of_mem_drop hh')

theorem State.Owned.holdDue (t : Nat) (n : Nat) : ∀ {s : State}, s.Owned →
    (s.holdDue j t n).Owned ∧ ∀ k, j ≠ k → State.Beside k s (s.holdDue j t n) := by
  induction n with
  | zero => exact fun hs => ⟨hs, fun k _ => .refl k _⟩
  | succ n ih =>
    intro s hs
    unfold State.holdDue
    split
    next h _ hd =>
      have hmem : h ∈ s.wav.conv[j].pend := hd ▸ List.mem_cons_self
      split
      · obtain ⟨ho, hb⟩ := ih (hs.holdSample hmem)
        exact ⟨ho, fun k hjk => (State.holdSample_beside (hs.2 j h hmem) hs.1 hjk).trans (hb k hjk)⟩
      · exact ⟨hs, fun k _ => .refl k s⟩
    next => exact ⟨hs, fun k _ => .refl k s⟩

theorem State.holdDue_none (hp : s.wav.conv[j].pend = []) (t n : Nat) : s.holdDue j t n = s := by
  cases n with
  | zero => rfl
  | succ n => unfold State.holdDue; rw [hp]

theorem State.holdDue_later (hp : s.wav.conv[j].pend = [h]) {t : Nat} (ht : t < h.hold) (n : Nat) :
    s.holdDue j t n = s := by
  cases n with
  | zero => rfl
  | succ n => unfold State.holdDue; rw [hp]; exact if_neg (Nat.not_le.2 ht)

theorem State.holdDue_held (hp : s.wav.conv[j].pend = [h]) {t : Nat} (ht : h.hold ≤ t) :
    s.holdDue j t 1 = s.holdSample h := by
  unfold State.holdDue
  rw [hp]
  exact if_pos ht

/-- What converter `k` sees of the holds up to an instant: its own. -/
theorem State.Owned.holdAll (hs : s.Owned) (t : Nat) (k : Fin 16) : ∃ u, u.Owned ∧ State.Beside k s u ∧
    State.Beside k (u.holdDue k t u.wav.conv[k].pend.length) (s.holdAll t) := by
  have hturn := foldl_turn (I := State.Owned)
    (f := fun u j => u.holdDue (fin16 j) t u.wav.conv[fin16 j].pend.length)
    (fun u j _ hu => (hu.holdDue t _).1)
    (fun u j k hj hjk hu => (hu.holdDue t _).2 k fun e => hjk ((fin16_val hj k).1 e ▸ rfl)) k hs
  have hk : fin16 k.val = k := (fin16_val k.isLt k).2 rfl
  simp only [hk] at hturn
  exact hturn.2

/-! ### A trigger's samples (10 R264 to R267) -/

variable {c : ConvCfg} {inst : Nat} {rate : Bool}

/-- The sample that a trigger gives a converter. -/
def State.sampleOf (s : State) (c : ConvCfg) (k : Fin 16) (inst : Nat) : Held :=
  ⟨k.val, s.wav.conv[k].idx, (c.ent k.val).inputOf k.val s.wav.conv[k].idx, inst + (c.ent k.val).delay * adcCycle,
    inst + (c.ent k.val).delay * adcCycle, false, false, false, 0⟩

theorem State.takeTrim_beside (s : State) (k : Fin 16) : State.Beside k s s.takeTrim := by
  unfold State.takeTrim
  split
  · exact ⟨⟨fun _ => rfl, rfl, rfl, rfl, rfl⟩, rfl⟩
  · exact .refl k s

/-- A trigger changes its own converter alone, and not how one is served. -/
theorem State.trigSample_serves (s : State) (c : ConvCfg) (j k : Fin 16) (inst : Nat) (rate : Bool) :
    State.AsServed k s (s.trigSample c j inst rate) ∧ (j ≠ k → State.Beside k s (s.trigSample c j inst rate)) := by
  unfold State.trigSample
  extract_lets e idx s1 hold hdr h
  have h1 : State.Beside k s s1 := by
    unfold s1
    split
    · exact s.takeTrim_beside k
    · exact .refl k s
  exact ⟨h1.toAsServed.trans (s1.updConv_serves j k _), fun hjk => h1.trans (s1.updConv_beside _ hjk)⟩

/-- A trigger's sample waits for its hold instant. -/
theorem State.trigSample_waits (s : State) (c : ConvCfg) (k : Fin 16) (inst : Nat) (rate : Bool) :
    (s.trigSample c k inst rate).wav.conv[k].idx = s.wav.conv[k].idx + 1 ∧
      (s.trigSample c k inst rate).wav.conv[k].pend = s.wav.conv[k].pend ++ [s.sampleOf c k inst] ∧
      (s.trigSample c k inst rate).wav.conv[k].core = s.wav.conv[k].core ∧
      (s.trigSample c k inst rate).wav.conv[k].words = s.wav.conv[k].words := by
  unfold State.trigSample
  extract_lets e idx s1 hold hdr h
  have h1 : s1.wav.conv[k] = s.wav.conv[k] := by
    unfold s1
    split
    · exact (s.takeTrim_beside k).conv
    · rfl
  rw [State.updConv_get, if_pos rfl, h1]
  exact ⟨rfl, rfl, rfl, rfl⟩

/-- The converters that a trigger serves. -/
def ConvCfg.serves (c : ConvCfg) (trig k : Nat) : Bool := bitOf c.activeMask k && trig % (c.ent k).div == 0

/-- A trigger's samples, not yet held. -/
def State.trigSamples (s : State) (c : ConvCfg) (trig inst : Nat) (rate : Bool) : State :=
  (List.range 16).foldl (fun u j => if c.serves trig j then u.trigSample c (fin16 j) inst rate else u) s

theorem State.Owned.trigSample (hs : s.Owned) (c : ConvCfg) (j : Fin 16) (inst : Nat) (rate : Bool) :
    (s.trigSample c j inst rate).Owned := by
  have hserves := fun k => s.trigSample_serves c j k inst rate
  refine hs.turn (fun k => (hserves k).2) ((hserves j).1.handover.trans hs.1) fun h hh => ?_
  rw [(s.trigSample_waits c j inst rate).2.1] at hh
  rcases List.mem_append.1 hh with hh | hh
  · exact hs.2 j h hh
  · rw [List.mem_singleton.1 hh]
    rfl

/-- What converter `k` sees of a trigger's samples: its own. -/
theorem State.Owned.trigSamples (hs : s.Owned) (c : ConvCfg) (trig inst : Nat) (rate : Bool) (k : Fin 16) :
    (s.trigSamples c trig inst rate).Owned ∧ ∃ u, State.Beside k s u ∧
      State.Beside k (if c.serves trig k.val then u.trigSample c k inst rate else u)
        (s.trigSamples c trig inst rate) := by
  have hturn := foldl_turn (I := State.Owned)
    (f := fun u j => if c.serves trig j then u.trigSample c (fin16 j) inst rate else u)
    (fun u j _ hu => by
      split
      · exact hu.trigSample c _ inst rate
      · exact hu)
    (fun u j k hj hjk _ => by
      split
      · exact (u.trigSample_serves c _ k inst rate).2 fun e => hjk ((fin16_val hj k).1 e ▸ rfl)
      · exact .refl k u) k hs
  have hk : fin16 k.val = k := (fin16_val k.isLt k).2 rfl
  simp only [hk] at hturn
  obtain ⟨ho, u, -, hu, ht⟩ := hturn
  exact ⟨ho, u, hu, ht⟩

/-- Taking a period changes the period alone (10 R267). -/
theorem State.takePeriod_eq (s : State) (c : ConvCfg) (inst : Nat) : ∃ seg next,
    (s.takePeriod c inst).2 = s.updWav fun w => { w with seg := seg, nextPeriod := next } := by
  unfold State.takePeriod
  extract_lets m
  split
  · exact ⟨(m, inst, s.trigPeriod c), s.wav.nextPeriod, rfl⟩
  · split
    next p _ =>
      split
      · exact ⟨(m, inst, p), none, rfl⟩
      · exact ⟨s.wav.seg, s.wav.nextPeriod, rfl⟩
    next => exact ⟨s.wav.seg, s.wav.nextPeriod, rfl⟩

/-! ### SAMPLE_TRIGGER -/

/-- The trigger's instant, with its period. -/
def State.atTrigger (s : State) (c : ConvCfg) (inst : Nat) : State :=
  ((s.setTime (max s.tk.now (inst / 256))).takePeriod c inst).2

theorem State.NoneDue.atTrigger (hq : s.NoneDue) (hh : s.wav.handover = none) (c : ConvCfg) (inst : Nat) :
    (s.atTrigger c inst).Owned ∧ ∀ k, State.Beside k s (s.atTrigger c inst) := by
  obtain ⟨seg, next, hp⟩ := State.takePeriod_eq (s.setTime (max s.tk.now (inst / 256))) c inst
  have hwav := s.setTime_wav (max s.tk.now (inst / 256))
  have hb (k : Fin 16) : State.Beside k s (s.atTrigger c inst) := by
    unfold State.atTrigger
    rw [hp]
    exact (State.Beside.of_wav hwav (State.Via.convOff (K := [.cnt, .tk, .hbm, .idle])
      (State.setTime_via (.refl _ s) (by decide)) (by rw [hwav]))).trans ⟨⟨fun _ => rfl, rfl, rfl, rfl, rfl⟩, rfl⟩
  refine ⟨⟨(hb 0).handover.trans hh, fun j h hmem => ?_⟩, hb⟩
  rw [(hb j).conv, hq j] at hmem
  exact absurd hmem List.not_mem_nil

theorem State.atTrigger_now (s : State) (c : ConvCfg) (inst : Nat) :
    (s.atTrigger c inst).tk.now = max s.tk.now (inst / 256) % 2 ^ 64 := by
  rw [← s.setTime_now]
  exact congrArg TimeSt.now ((State.takePeriod_via (M := [.wav]) (.refl _ _) (by decide)).only .tk (by decide))

/-- A trigger with its samples, held where their hold instant is the trigger's. -/
@[irreducible] def State.triggered (s : State) (c : ConvCfg) (inst : Nat) : State :=
  ((s.atTrigger c inst).trigSamples c s.wav.trig inst
    ((s.setTime (max s.tk.now (inst / 256))).takePeriod c inst).1).holdAll inst

/-- After a trigger's holds: its event is used up. -/
def State.counted (s : State) (c : ConvCfg) (trig : Nat) : State :=
  s.updWav fun w => { w with trig := trig, events := if c.source = 2 then w.events.drop 1 else w.events }

theorem State.counted_wav (s : State) (c : ConvCfg) (trig : Nat) : (s.counted c trig).wav = { s.wav with
    trig := trig, events := if c.source = 2 then s.wav.events.drop 1 else s.wav.events } := rfl

theorem State.counted_tk (s : State) (c : ConvCfg) (trig : Nat) : (s.counted c trig).tk = s.tk := rfl

theorem State.NoneDue.sampleTrigger (hq : s.NoneDue) (hc : s.wav.cfg = some c) (hi : s.nextTrigger c = some inst) :
    s.sampleTrigger = ((s.triggered c inst).counted c (s.wav.trig + 1)).closeWaves c := by
  unfold State.sampleTrigger
  simp only [hc, hi, (hq.setTime _).holdAll]
  unfold State.triggered
  rfl

/-- Once no region waits to rejoin, the row is its trigger. -/
theorem execSampleTrigger_eq (hr : s.err.rejoin.getLsbD 5 = false) : execSampleTrigger s = .next s.sampleTrigger := by
  have herr : s.sampleTrigger.err = s.err :=
    (State.sampleTrigger_via (M := [.out, .ring, .cnt, .tk, .hbm, .wav, .note, .idle]) (.refl _ s)
      (by decide)).only .err (by decide)
  have hblock : s.sampleTrigger.rejoinBlock s.wav.trig = s.sampleTrigger := by
    unfold State.rejoinBlock
    rw [herr, hr]
    split
    · rfl
    · rfl
  unfold execSampleTrigger
  simp only [hblock, herr, Bool.and_not_self, Bool.false_eq_true, if_false]

/-- What a trigger leaves for converter `k`: its state when the samples have been triggered, then its own holds. -/
theorem State.NoneDue.triggered (hq : s.NoneDue) (hh : s.wav.handover = none) (c : ConvCfg) (inst : Nat) (k : Fin 16) :
    ∃ u, State.AsServed k s u ∧
      State.Beside k (u.holdDue k inst u.wav.conv[k].pend.length) (s.triggered c inst) ∧
      (c.serves s.wav.trig k.val = false → u.wav.conv[k] = s.wav.conv[k]) ∧
      (c.serves s.wav.trig k.val = true → u.wav.conv[k].idx = s.wav.conv[k].idx + 1 ∧
        u.wav.conv[k].pend = [s.sampleOf c k inst] ∧ u.wav.conv[k].core = s.wav.conv[k].core ∧
        u.wav.conv[k].words = s.wav.conv[k].words) := by
  obtain ⟨ho, hb⟩ := hq.atTrigger hh c inst
  obtain ⟨hot, v, hv, hvt⟩ := ho.trigSamples c s.wav.trig inst
    ((s.setTime (max s.tk.now (inst / 256))).takePeriod c inst).1 k
  obtain ⟨u, -, hu, hut⟩ := hot.holdAll inst k
  have hsv := (hb k).trans hv
  unfold State.triggered
  refine ⟨u, ?_, hut, fun hc => ?_, fun hc => ?_⟩
  · refine hsv.toAsServed.trans (State.AsServed.trans ?_ (hvt.trans hu).toAsServed)
    split
    · exact (v.trigSample_serves c k k inst _).1
    · exact (State.Beside.refl k v).toAsServed
  · rw [hc, if_neg Bool.false_ne_true] at hvt
    rw [hu.conv, hvt.conv, hsv.conv]
  · rw [hc, if_pos rfl] at hvt
    obtain ⟨hidx, hpend, hcore, hwords⟩ := v.trigSample_waits c k inst
      ((s.setTime (max s.tk.now (inst / 256))).takePeriod c inst).1
    rw [hu.conv, hvt.conv, hidx, hpend, hcore, hwords]
    unfold State.sampleOf
    rw [hsv.conv, hq k]
    exact ⟨rfl, rfl, rfl, rfl⟩

/-- A converter that the trigger does not serve stays. -/
theorem State.NoneDue.triggered_rests (hq : s.NoneDue) (hh : s.wav.handover = none)
    (hserve : c.serves s.wav.trig k.val = false) : (s.triggered c inst).wav.conv[k] = s.wav.conv[k] := by
  obtain ⟨u, -, hb, hu, -⟩ := hq.triggered hh c inst k
  have hnone : u.wav.conv[k].pend = [] := (congrArg Conv.pend (hu hserve)).trans (hq k)
  rw [State.holdDue_none hnone] at hb
  rw [hb.conv, hu hserve]

section
variable (hq : s.NoneDue) (hh : s.wav.handover = none) (hserve : c.serves s.wav.trig k.val = true)
include hq hh hserve

/-- The converter counts its trigger, whether its sample waits or is held. -/
theorem State.NoneDue.triggered_idx : (s.triggered c inst).wav.conv[k].idx = s.wav.conv[k].idx + 1 := by
  obtain ⟨u, hsu, hb, -, hu⟩ := hq.triggered hh c inst k
  obtain ⟨hidx, hpend, -, -⟩ := hu hserve
  have hlen : u.wav.conv[k].pend.length = 1 := congrArg List.length hpend
  rw [hb.conv, ← hidx, hlen]
  by_cases ht : (s.sampleOf c k inst).hold ≤ inst
  · rw [State.holdDue_held hpend ht]
    exact (State.holdSample_takes (h := s.sampleOf c k inst) (j := k) rfl (hsu.handover.trans hh)).2
  · rw [State.holdDue_later hpend (Nat.lt_of_not_le ht)]

/-- A sample with a DELAY waits (10 R266). -/
theorem State.NoneDue.triggered_later (hd : (c.ent k.val).delay ≠ 0) :
    (s.triggered c inst).wav.conv[k].pend = [s.sampleOf c k inst] ∧
      (s.triggered c inst).wav.conv[k].core = s.wav.conv[k].core ∧
      (s.triggered c inst).wav.conv[k].words = s.wav.conv[k].words := by
  obtain ⟨u, -, hb, -, hu⟩ := hq.triggered hh c inst k
  obtain ⟨-, hpend, hcore, hwords⟩ := hu hserve
  have hlater : inst < (s.sampleOf c k inst).hold :=
    Nat.lt_add_of_pos_right (Nat.mul_pos (Nat.pos_of_ne_zero hd) (by decide))
  rw [State.holdDue_later hpend hlater] at hb
  rw [hb.conv]
  exact ⟨hpend, hcore, hwords⟩

/-- A sample without a DELAY is held at its trigger. -/
theorem State.NoneDue.triggered_now (hd : (c.ent k.val).delay = 0) :
    ∃ u, State.AsServed k s u ∧ u.wav.handover = none ∧
      State.Beside k (u.holdSample (s.sampleOf c k inst)) (s.triggered c inst) ∧
      u.wav.conv[k].pend = [s.sampleOf c k inst] ∧
      u.wav.conv[k].core = s.wav.conv[k].core ∧ u.wav.conv[k].words = s.wav.conv[k].words := by
  obtain ⟨u, hsu, hb, -, hu⟩ := hq.triggered hh c inst k
  obtain ⟨-, hpend, hcore, hwords⟩ := hu hserve
  have hnow : (s.sampleOf c k inst).hold = inst := by
    unfold State.sampleOf
    rw [hd, Nat.zero_mul, Nat.add_zero]
  have hlen : u.wav.conv[k].pend.length = 1 := congrArg List.length hpend
  rw [hlen, State.holdDue_held hpend hnow.le] at hb
  exact ⟨u, hsu, hsu.handover.trans hh, hb, hpend, hcore, hwords⟩

/-- A sample that is held at its trigger waits no more. -/
theorem State.NoneDue.triggered_taken (hd : (c.ent k.val).delay = 0) :
    (s.triggered c inst).wav.conv[k].pend = [] := by
  obtain ⟨u, -, hhu, hb, hpend, -, -⟩ := hq.triggered_now (inst := inst) hh hserve hd
  rw [hb.conv, (State.holdSample_takes (h := s.sampleOf c k inst) (j := k) rfl hhu).1, hpend]
  rfl

end

section
variable (hq : s.NoneDue) (hh : s.wav.handover = none) (hserve : c.serves s.wav.trig k.val = true)
  (hd : (c.ent k.val).delay = 0)
include hq hh hserve hd

/-- While nothing converts the sample of a trigger is MISSED (10 R278, R289). -/
theorem State.NoneDue.triggered_off (hoff : s.convOff = true) :
    (s.triggered c inst).wav.conv[k].core = s.wav.conv[k].core ∧
      (s.triggered c inst).wav.conv[k].words = s.wav.conv[k].words ++
        [(s.wav.conv[k].idx, missedWord (s.sampleOf c k inst).input)] := by
  obtain ⟨u, hsu, hhu, hb, -, hcore, hwords⟩ := hq.triggered_now (inst := inst) hh hserve hd
  rw [hb.conv, State.holdSample_off (h := s.sampleOf c k inst) (j := k) rfl hhu (hsu.off.trans hoff), hcore, hwords]
  exact ⟨rfl, rfl⟩

variable (hoff : s.convOff = false)
include hoff

/-- A slice without a free capacitor leaves the sample of a trigger MISSED (10 R269). -/
theorem State.NoneDue.triggered_busy (hf : (s.slice (s.streamSlice k.val)).free inst = false) :
    (s.triggered c inst).wav.conv[k].core = s.wav.conv[k].core ∧
      (s.triggered c inst).wav.conv[k].words = s.wav.conv[k].words ++
        [(s.wav.conv[k].idx, missedWord (s.sampleOf c k inst).input)] := by
  obtain ⟨u, hsu, hhu, hb, -, hcore, hwords⟩ := hq.triggered_now (inst := inst) hh hserve hd
  have hfree : (u.slice (u.streamSlice k.val)).free inst = false := by
    by_cases hs : s.wav.standing = some k.val
    · rw [← hf, State.slice_standing hs, State.slice_standing (hsu.standing.trans hs), hsu.spare hs]
    · rw [← hf, State.slice_serving hs, State.slice_serving (hsu.standing ▸ hs), hcore]
  have hbusy : (u.slice (u.streamSlice k.val)).free (s.sampleOf c k inst).hold = false := by
    unfold State.sampleOf
    rw [hd, Nat.zero_mul, Nat.add_zero, hfree]
  rw [hb.conv, State.holdSample_busy (h := s.sampleOf c k inst) (j := k) rfl hhu (hsu.off.trans hoff) hbusy, hcore,
    hwords]
  exact ⟨rfl, rfl⟩

/-- The converter's own slice holds the sample of a trigger (10 R268). -/
theorem State.NoneDue.triggered_own (hs : s.wav.standing ≠ some k.val) (hf : s.wav.conv[k].core.free inst = true) :
    (s.triggered c inst).wav.conv[k].words = s.wav.conv[k].words ∧
      (s.triggered c inst).wav.conv[k].core =
        s.wav.conv[k].core.push (.stream (s.heldBy (s.sampleOf c k inst))) := by
  obtain ⟨u, hsu, hhu, hb, -, hcore, hwords⟩ := hq.triggered_now (inst := inst) hh hserve hd
  have hfree : u.wav.conv[k].core.free (s.sampleOf c k inst).hold = true := by
    unfold State.sampleOf
    rw [hd, Nat.zero_mul, Nat.add_zero, hcore, hf]
  rw [hb.conv, State.holdSample_own (h := s.sampleOf c k inst) (j := k) rfl hhu (hsu.off.trans hoff)
    (hsu.standing ▸ hs) hfree, hcore, hwords]
  unfold State.heldBy
  rw [hsu.testing]
  exact ⟨rfl, rfl⟩

/-- The spare slice holds the sample of a trigger for the converter that it stands for (10 R276). -/
theorem State.NoneDue.triggered_standing (hs : s.wav.standing = some k.val) (hf : s.wav.spare.free inst = true) :
    (s.triggered c inst).wav.conv[k].core = s.wav.conv[k].core ∧
      (s.triggered c inst).wav.conv[k].words = s.wav.conv[k].words ∧
      (s.triggered c inst).wav.spare =
        s.wav.spare.push (.stream { s.heldBy (s.sampleOf c k inst) with spare := true }) := by
  obtain ⟨u, hsu, hhu, hb, -, hcore, hwords⟩ := hq.triggered_now (inst := inst) hh hserve hd
  have hfree : u.wav.spare.free (s.sampleOf c k inst).hold = true := by
    unfold State.sampleOf
    rw [hd, Nat.zero_mul, Nat.add_zero, hsu.spare hs, hf]
  obtain ⟨hconv, hspare, hstand⟩ := State.holdSample_standing (h := s.sampleOf c k inst) (j := k) rfl hhu
    (hsu.off.trans hoff) (hsu.standing.trans hs) hfree
  rw [hb.conv, hconv, hb.spare (hstand.trans (hsu.standing.trans hs)), hspare, hcore, hwords, hsu.spare hs]
  unfold State.heldBy
  rw [hsu.testing]
  exact ⟨rfl, rfl, rfl⟩

end

theorem State.triggered_tk (s : State) (c : ConvCfg) (inst : Nat) :
    (s.triggered c inst).tk = (s.atTrigger c inst).tk := by
  unfold State.triggered
  exact (State.holdAll_via (M := [.cnt, .wav, .note]) (foldl_via (.refl _ (s.atTrigger c inst)) fun u j hu => by
    split
    · exact State.trigSample_via hu (by decide)
    · exact hu) (by decide)).only .tk (by decide)

/-- The trigger of SAMPLE_TRIGGER, where no region waits to rejoin: the windows that close leave converters and
slices. -/
theorem execSampleTrigger_triggers (hc : s.wav.cfg = some c) (hi : s.nextTrigger c = some inst) (hq : s.NoneDue)
    (hr : s.err.rejoin.getLsbD 5 = false) : ∃ t, execSampleTrigger s = .next t ∧ t.wav.trig = s.wav.trig + 1 ∧
      t.tk.now = max s.tk.now (inst / 256) % 2 ^ 64 ∧ t.wav.conv = (s.triggered c inst).wav.conv ∧
      t.wav.spare = (s.triggered c inst).wav.spare := by
  have hw := ((s.triggered c inst).counted c (s.wav.trig + 1)).closeWaves_watches c
  have htk := (State.closeWaves_via (M := [.out, .ring, .cnt, .wav, .note])
    (.refl _ ((s.triggered c inst).counted c (s.wav.trig + 1))) (c := c) (by decide)).only .tk (by decide)
  refine ⟨_, (execSampleTrigger_eq hr).trans (congrArg _ (hq.sampleTrigger hc hi)), ?_, ?_, ?_, ?_⟩
  · rw [hw.trig, State.counted_wav]
  · rw [htk, State.counted_tk, State.triggered_tk, State.atTrigger_now]
  · rw [hw.conv, State.counted_wav]
  · rw [hw.spare, State.counted_wav]

theorem execSampleTrigger_only (s : State) : ∃ t, execSampleTrigger s = .next t ∧ State.Only [.freeCtr, .out, .upsets,
    .mem, .poison, .wbQueue, .cnt, .tk, .facets, .sched, .ap, .hbm, .dma, .tmplStatus, .exp, .cnd, .img, .wav, .net,
    .beam, .host, .jnl, .err, .pwr, .fuse, .trust, .idle, .ready] s t :=
  (execSampleTrigger_via (M := [.freeCtr, .out, .upsets, .mem, .ring, .poison, .wbQueue, .cnt, .tk, .facets, .sched,
    .ap, .hbm, .dma, .tmplStatus, .exp, .cnd, .img, .wav, .net, .beam, .host, .note, .jnl, .err, .pwr, .fuse, .trust,
    .idle, .ready]) (.refl _ s) (by decide)).next_only ⟨_, rfl⟩

end
end Sys2Proof.Machine

open Sys2Proof Sys2Proof.Machine

/-- Settles O29: each converter sees its own sample and hold alone, the turns of the others and the windows that close
leave it. -/
theorem triggersHoldSamples : Obligations.TriggersHoldSamples := by
  unfold Obligations.TriggersHoldSamples
  refine ⟨execSampleTrigger_only, fun c inst s hc hi hh hq hr => ?_⟩
  obtain ⟨t, ht, htrig, hnow, hconv, hspare⟩ := execSampleTrigger_triggers hc hi hq hr
  refine ⟨t, ht, htrig, hnow, fun k hact hdiv => ?_, fun k hnot => ?_⟩
  · intro v w input hold h
    have hserve : c.serves s.wav.trig k.val = true := by
      unfold ConvCfg.serves
      rw [hact, hdiv]
      rfl
    have hw : w = (s.triggered c inst).wav.conv[k] := congrArg (fun cs : Vector Conv 16 => cs[k]) hconv
    rw [hw]
    refine ⟨?_, fun hd => ?_, fun hd => ⟨State.NoneDue.triggered_taken hq hh hserve hd, fun hoff => ?_,
      fun hoff hs => ⟨fun hf => ?_, fun hf => ?_⟩, fun hoff hs => ⟨?_, fun hf => ?_, fun hf => ?_⟩⟩⟩
    · exact State.NoneDue.triggered_idx hq hh hserve
    · exact State.NoneDue.triggered_later hq hh hserve hd
    · exact State.NoneDue.triggered_off hq hh hserve hd hoff
    · exact State.NoneDue.triggered_own hq hh hserve hd hoff hs hf
    · exact (State.NoneDue.triggered_busy hq hh hserve hd hoff (State.slice_serving hs ▸ hf)).symm
    · cases hf : s.wav.spare.free inst with
      | true => exact (State.NoneDue.triggered_standing hq hh hserve hd hoff hs hf).1
      | false => exact (State.NoneDue.triggered_busy hq hh hserve hd hoff (State.slice_standing hs ▸ hf)).1
    · rw [hspare]
      exact (State.NoneDue.triggered_standing hq hh hserve hd hoff hs hf).2
    · exact (State.NoneDue.triggered_busy hq hh hserve hd hoff (State.slice_standing hs ▸ hf)).2
  · have hserve : c.serves s.wav.trig k.val = false := by
      unfold ConvCfg.serves
      rcases hnot with hnot | hnot
      · rw [hnot, Bool.false_and]
      · rw [beq_false_of_ne hnot, Bool.and_false]
    rw [hconv, State.NoneDue.triggered_rests hq hh hserve]
end

section
namespace Sys2Proof.Machine

/-! ### WAVE_CAL of an inline set that a descriptor holds (10 R270, R292): what the refuted clause says with that -/

section
variable {s t : State} {set len flags : Half} {seq : Word} {inl : List Byte} {st : Nat} {i : Fin 64}

/-- A descriptor of SET_PARAMS. -/
def paramsDesc (set len flags : Half) (seq : Word) (inl : List Byte) : Desc :=
  ⟨.setParams set len (fitBytes 48 inl), flags, seq⟩

/-- An inline set. -/
def inlineSet (len : Half) (inl : List Byte) : List Byte := (fitBytes 48 inl).take len.toNat

theorem fitBytes_of_length {n : Nat} {bs : List Byte} (h : bs.length = n) : fitBytes n bs = bs := by
  simp [fitBytes, zeroBytes, h]

/-- An inline set of its length, for a unit that is not isolated, takes effect when the command begins (12 R342). -/
theorem State.submit_inline (ht : s.Takes (paramsDesc set len flags seq inl)) (hf : bitOf flags.toNat 0 = false)
    (hfit : len.toNat ≤ 48) (hlen : setLength set.toNat (inlineSet len inl) = some len.toNat)
    (hout : s.analogOut = false)
    (hset : (s.begun (paramsDesc set len flags seq inl)).applySet set.toNat (inlineSet len inl) = (0, t)) :
    s.submit (paramsDesc set len flags seq inl) =
      t.completeLater (s.accepted (paramsDesc set len flags seq inl)) 0 [] [] := by
  have hout' : (s.begun (paramsDesc set len flags seq inl)).analogOut = false := by
    unfold State.analogOut
    rw [State.begun_only s _ .err (by decide)]
    exact hout
  have hwork : (s.begun (paramsDesc set len flags seq inl)).workOut (.setParams set len (fitBytes 48 inl)) = false :=
    (congrArg (_ && ·) hout').trans (Bool.and_false _)
  have hbytes : (s.begun (paramsDesc set len flags seq inl)).setBytes flags.toNat len.toNat (fitBytes 48 inl) =
      (some (inlineSet len inl), s.begun (paramsDesc set len flags seq inl)) := by
    unfold State.setBytes inlineSet
    rw [hf, if_neg Bool.false_ne_true, if_pos hfit, fitBytes_of_length (fitBytes_length 48 inl)]
  have hparams : (s.begun (paramsDesc set len flags seq inl)).setParams flags.toNat set.toNat len.toNat
      (fitBytes 48 inl) = (0, t) := by
    unfold State.setParams
    rw [hbytes]
    exact (if_pos hlen).trans hset
  rw [State.submit_fg ht rfl]
  unfold State.runFg
  show (if (s.begun _).workOut (.setParams set len (fitBytes 48 inl)) then _ else _) = _
  rw [hwork, if_neg Bool.false_ne_true]
  show State.finish ((s.begun _).setParams flags.toNat set.toNat len.toNat (fitBytes 48 inl)).2 _
    ((s.begun _).setParams flags.toNat set.toNat len.toNat (fitBytes 48 inl)).1 [] = _
  rw [hparams]
  rfl

/-- The correction of an input that a WAVE_CAL set has at place `p.2`. -/
def calEntry (b : List Byte) (p : Nat × Nat) : Int × Nat := (fieldI32 b (8 + 8 * p.2), fieldLe b (12 + 8 * p.2) 4)

/-- An input takes its correction for the next block boundary of its converter (10 R270). -/
def State.calTaken (s : State) (b : List Byte) (p : Nat × Nat) : State :=
  s.setInput (fin64 p.1) { s.wav.inputs[fin64 p.1] with
    next := s.wav.inputs[fin64 p.1].next ++ [((calEntry b p).1, (calEntry b p).2,
      (s.wav.conv[fin16 (p.1 / 4)].idx - s.wav.conv[fin16 (p.1 / 4)].pend.length + 255) / 256 * 256)] }

theorem State.setInput_get (s : State) (j i : Fin 64) (x : Input) :
    (s.setInput j x).wav.inputs[i] = if j = i then x else s.wav.inputs[i] := by
  simp only [State.setInput, State.updWav_wav, Fin.getElem_fin, Vector.getElem_set, Fin.ext_iff]

theorem fin64_val {j : Nat} (h : j < 64) (i : Fin 64) : fin64 j = i ↔ j = i.val := by
  constructor
  · rintro rfl
    exact (Nat.mod_eq_of_lt h).symm
  · rintro rfl
    exact Fin.ext (Nat.mod_eq_of_lt h)

theorem State.calTaken_input (s : State) (b : List Byte) (p : Nat × Nat) :
    (s.calTaken b p).wav.inputs[fin64 p.1] = { s.wav.inputs[fin64 p.1] with
      next := s.wav.inputs[fin64 p.1].next ++ [((calEntry b p).1, (calEntry b p).2,
        (s.wav.conv[fin16 (p.1 / 4)].idx - s.wav.conv[fin16 (p.1 / 4)].pend.length + 255) / 256 * 256)] } :=
  (s.setInput_get _ _ _).trans (if_pos rfl)

/-- Corrections of distinct inputs: each input takes its own. -/
theorem foldl_calTaken (b : List Byte) (l : List (Nat × Nat)) : ∀ s : State, (l.map Prod.fst).Nodup →
    (∀ p ∈ l, p.1 < 64) →
    State.Only [.wav] s (l.foldl (fun s p => s.calTaken b p) s) ∧
      (l.foldl (fun s p => s.calTaken b p) s).wav.conv = s.wav.conv ∧
      (∀ p ∈ l, (l.foldl (fun s p => s.calTaken b p) s).wav.inputs[fin64 p.1] =
        (s.calTaken b p).wav.inputs[fin64 p.1]) ∧
      ∀ i : Fin 64, i.val ∉ l.map Prod.fst →
        (l.foldl (fun s p => s.calTaken b p) s).wav.inputs[i] = s.wav.inputs[i] := by
  induction l with
  | nil => exact fun s _ _ => ⟨.refl [.wav] s, rfl, fun p hp => absurd hp List.not_mem_nil, fun _ _ => rfl⟩
  | cons p l ih =>
    intro s hd hl
    obtain ⟨hp, hd⟩ := List.nodup_cons.1 hd
    have hp64 : p.1 < 64 := hl p List.mem_cons_self
    obtain ⟨honly, hconv, htaken, hrest⟩ := ih (s.calTaken b p) hd fun q hq => hl q (List.mem_cons_of_mem _ hq)
    have hother (i : Fin 64) (hi : p.1 ≠ i.val) : (s.calTaken b p).wav.inputs[i] = s.wav.inputs[i] :=
      (s.setInput_get _ i _).trans (if_neg fun h => hi ((fin64_val hp64 i).1 h))
    have hset : State.Via [.wav] s (s.calTaken b p) := by
      unfold State.calTaken State.setInput
      exact State.updWav_via (.refl _ s) (by decide)
    refine ⟨hset.frame.trans honly, hconv, fun q hq => ?_, fun i hi => ?_⟩
    · rcases List.mem_cons.1 hq with rfl | hq
      · refine hrest (fin64 q.1) ?_
        rwa [(fin64_val hp64 (fin64 q.1)).1 rfl] at hp
      · have hne : p.1 ≠ (fin64 q.1).val := fun h => hp (h.trans
          ((fin64_val (hl q (List.mem_cons_of_mem _ hq)) _).1 rfl).symm ▸ List.mem_map_of_mem hq)
        refine (htaken q hq).trans ?_
        rw [State.calTaken_input, State.calTaken_input, hother _ hne]
        rfl
    · rw [List.map_cons, List.mem_cons, not_or] at hi
      exact (hrest i hi.2).trans (hother i (Ne.symm hi.1))

theorem maskInputs_lt {m j : Nat} (h : j ∈ maskInputs m) : j < 64 := List.mem_range.1 (List.mem_of_mem_filter h)

theorem maskInputs_nodup (m : Nat) : (maskInputs m).Nodup := List.nodup_range.filter _

/-- A WAVE_CAL set in range gives each input of its mask its correction (10 R270, R292). -/
theorem State.setWaveCal_takes (hq : s.NoneDue) (hcfg : s.wav.cfg ≠ none) {b : List Byte}
    (hr : ∀ j, j < (maskInputs (fieldLe b 0 8)).length → -131072 ≤ fieldI32 b (8 + 8 * j) ∧
      fieldI32 b (8 + 8 * j) ≤ 131071 ∧ fieldLe b (12 + 8 * j) 4 ≤ 0xFFFFFF) :
    s.setWaveCal b = (0, ((maskInputs (fieldLe b 0 8)).zip
      (List.range (maskInputs (fieldLe b 0 8)).length)).foldl (fun s p => s.calTaken b p) s) := by
  have hall : (List.range (maskInputs (fieldLe b 0 8)).length).all (fun j => -131072 ≤ fieldI32 b (8 + 8 * j) &&
      fieldI32 b (8 + 8 * j) ≤ 131071 && fieldLe b (12 + 8 * j) 4 ≤ 0xFFFFFF) = true :=
    List.all_eq_true.2 fun j hj => by simpa [and_assoc] using hr j (List.mem_range.1 hj)
  have hsome : s.wav.cfg.isNone = false := Option.isNone_eq_false_iff.2 (Option.isSome_iff_ne_none.2 hcfg)
  unfold State.setWaveCal
  rw [hsome, hq.holdNow]
  exact (if_neg Bool.false_ne_true).trans (if_pos hall)

/-- WAVE_CAL of an inline set that a descriptor holds: the refuted clause, with that hypothesis. -/
theorem execWaveCal_takes (hq : s.NoneDue) (hf : bitOf flags.toNat 0 = false) (hfit : len.toNat ≤ 48)
    (ht : s.Takes (paramsDesc 0x12 len flags seq inl)) (hout : s.analogOut = false)
    (hlen : len.toNat = waveCalLen (inlineSet len inl)) (hcfg : s.wav.cfg ≠ none)
    (hr : ∀ j, j < (maskInputs (fieldLe (inlineSet len inl) 0 8)).length →
      -131072 ≤ fieldI32 (inlineSet len inl) (8 + 8 * j) ∧ fieldI32 (inlineSet len inl) (8 + 8 * j) ≤ 131071 ∧
        fieldLe (inlineSet len inl) (12 + 8 * j) 4 ≤ 0xFFFFFF) :
    ∃ v, exec (.waveCal flags seq len inl) s =
        .next (v.completeLater (s.accepted (paramsDesc 0x12 len flags seq inl)) 0 [] []) ∧
      State.Only [.wav] (s.begun (paramsDesc 0x12 len flags seq inl)) v ∧ v.wav.conv = s.wav.conv ∧
      (∀ j (i : Fin 64), (maskInputs (fieldLe (inlineSet len inl) 0 8))[j]? = some i.val →
        v.wav.inputs[i] = { s.wav.inputs[i] with next := s.wav.inputs[i].next ++
          [(fieldI32 (inlineSet len inl) (8 + 8 * j), fieldLe (inlineSet len inl) (12 + 8 * j) 4,
            (s.wav.conv[fin16 (i.val / 4)].idx + 255) / 256 * 256)] }) ∧
      ∀ i : Fin 64, i.val ∉ maskInputs (fieldLe (inlineSet len inl) 0 8) → v.wav.inputs[i] = s.wav.inputs[i] := by
  generalize hb : inlineSet len inl = b at *
  generalize hd : paramsDesc 0x12 len flags seq inl = d at *
  have hwav : (s.begun d).wav = s.wav := State.begun_only s d .wav (by decide)
  have hset : (s.begun d).applySet (0x12 : Half).toNat b = _ :=
    State.setWaveCal_takes (s := s.begun d) (hq.congr (congrArg Wav.conv hwav)) (hwav ▸ hcfg) hr
  have hzip : ((maskInputs (fieldLe b 0 8)).zip (List.range (maskInputs (fieldLe b 0 8)).length)).map Prod.fst =
      maskInputs (fieldLe b 0 8) := List.map_fst_zip (by rw [List.length_range])
  obtain ⟨honly, hconv, htaken, hrest⟩ := foldl_calTaken b _ (s.begun d) (hzip ▸ maskInputs_nodup _)
    fun p hp => maskInputs_lt (hzip ▸ List.mem_map_of_mem hp)
  subst hd
  subst hb
  refine ⟨_, congrArg Host.Outcome.next (State.submit_inline ht hf hfit ?_ hout hset), honly, hconv.trans ?_,
    fun j i hi => ?_, fun i hi => ?_⟩
  · exact congrArg some hlen.symm
  · rw [hwav]
  · have hj : j < (maskInputs (fieldLe (inlineSet len inl) 0 8)).length := (List.getElem?_eq_some_iff.1 hi).1
    have hmem : (i.val, j) ∈ (maskInputs (fieldLe (inlineSet len inl) 0 8)).zip
        (List.range (maskInputs (fieldLe (inlineSet len inl) 0 8)).length) :=
      List.mem_iff_getElem?.2 ⟨j, List.getElem?_zip_eq_some.2 ⟨hi, List.getElem?_range hj⟩⟩
    have hin : fin64 i.val = i := (fin64_val i.isLt i).2 rfl
    have htaken := (htaken _ hmem).trans (State.calTaken_input _ _ _)
    simp only [hin] at htaken
    rw [htaken, hwav, hq (fin16 (i.val / 4))]
    rfl
  · rw [hrest i (by rw [hzip]; exact hi), hwav]

end
end Sys2Proof.Machine
end

section
namespace Sys2Proof.Machine

/-! ### A WAVE_CAL set longer than a descriptor (12 R342) -/

/-- A running device whose converters have a configuration, PCIe its owner. -/
def converting : State :=
  { State.reset with
    ready := BitVec.allOnes 19
    host := { HostCtl.reset with owner := .pcie, pcieUp := true, cmdBaseHi := 0x8000, cmdSize := 16 }
    pwr := { Power.reset with phase := .running, mainSeen := true, refStable := true, pll := Vector.replicate 9 .good }
    fuse := { FuseSt.reset with valid := true, shadow := [(0, 3)] }
    trust := { Trust.reset with boot := .running }
    wav := { State.reset.wav with cfg := some ⟨0, 0, false, false, 128000, 1, 0, 0, 0, 0, [], [], []⟩ } }

/-- Corrections for six inputs: 56 bytes. -/
def sixInputs : List Byte := [63]

def sixCal : Desc := ⟨.setParams 0x12 56 (fitBytes 48 sixInputs), 0, 0⟩

theorem converting_takes : converting.Takes sixCal :=
  { room := by decide +kernel, serving := by decide +kernel, level := by decide +kernel, passes := by decide +kernel
    free := fun _ => ⟨rfl, rfl⟩, fresh := fun b hb => by cases hb }

/-- Bytes past the 48 of a descriptor do not exist, so nothing is taken (12 R337). -/
theorem converting_refuses : (converting.submit sixCal).wav.inputs[(0 : Fin 64)].next = [] := by decide +kernel

theorem converting_entries : ∀ j : Fin 6, -131072 ≤ fieldI32 ((fitBytes 48 sixInputs).take 56) (8 + 8 * j.val) ∧
    fieldI32 ((fitBytes 48 sixInputs).take 56) (8 + 8 * j.val) ≤ 131071 ∧
    fieldLe ((fitBytes 48 sixInputs).take 56) (12 + 8 * j.val) 4 ≤ 0xFFFFFF := by decide

end Sys2Proof.Machine

open Sys2Proof Sys2Proof.Machine

/-- Refutes O40: its WAVE_CAL clause asks of an inline set that its length fits its mask, and not that it fits the 48
bytes of a descriptor. A set of six inputs has 56 bytes: it is refused with 0x0010 (12 R342), and no input takes a
correction. `execWaveCal_takes` is that clause for a set that a descriptor holds. -/
theorem not_inputParameterSets : ¬ Obligations.InputParameterSets := by
  unfold Obligations.InputParameterSets
  intro h
  obtain ⟨-, -, hcal, -⟩ := h 0 0 56 sixInputs converting rfl (by decide)
  have hmask : maskInputs (fieldLe ((fitBytes 48 sixInputs).take 56) 0 8) = [0, 1, 2, 3, 4, 5] := by decide
  obtain ⟨v, hends, -, -, htakes, -⟩ := hcal converting_takes (by decide) (by decide) nofun
    (fun j hj => converting_entries ⟨j, hj.trans_eq (congrArg List.length hmask)⟩)
  have hv : converting.submit sixCal = v.completeLater (converting.accepted sixCal) 0 [] [] :=
    Host.Outcome.next.inj hends
  have hrefused := converting_refuses
  rw [hv, State.completeLater_only v _ _ _ _ .wav (by decide), htakes 0 0 (congrArg (·[0]?) hmask)] at hrefused
  exact absurd hrefused (by simp)
end

section
namespace Sys2Proof.Machine

/-! ### BLOCK_COMPLETE (10 R280, R281, R288) -/

section
variable {s t : State} {k : Fin 16} {bad : Bool} {c : ConvCfg}

theorem length_flatMap_range {f : Nat → List Byte} {m : Nat} (h : ∀ i, (f i).length = m) (n : Nat) :
    ((List.range n).flatMap f).length = n * m := by
  rw [List.length_flatMap, List.map_congr_left fun i _ => h i, List.map_const', List.sum_replicate, List.length_range,
    smul_eq_mul]

/-- A block has 1,088 bytes (10 R280). -/
theorem blockBytes_length (k : Nat) (e : ConvEnt) (c : Conv) (seq : Nat) (gap : Bool) :
    (blockBytes k e c seq gap).length = 1088 := by
  unfold blockBytes
  extract_lets h ls flags late word
  have hlate (i : Nat) : (late i).length = 8 := by
    unfold late
    split
    · simp only [List.length_append, leBytes_length, zeroBytes_length]
    · exact zeroBytes_length 8
  have hword (i : Nat) : (leBytes 4 (word i)).length = 4 := leBytes_length 4 _
  simp only [List.length_append, leBytes_length, length_flatMap_range hlate, length_flatMap_range hword]

/-- A block that is full is finished. -/
theorem execBlockComplete_full (hc : s.wav.cfg = some c) (ha : bitOf c.activeMask k.val = true)
    (hf : s.wav.conv[k].full s.wav.conv[k].seq = true) :
    execBlockComplete k bad s = .next (s.finishBlock c k bad) := by
  unfold execBlockComplete
  simp only [hc, ha, hf, Bool.and_self, if_true]

theorem execBlockComplete_open (hc : s.wav.cfg = some c) (hf : s.wav.conv[k].full s.wav.conv[k].seq = false) :
    execBlockComplete k bad s = .next s := by
  unfold execBlockComplete
  simp only [hc, hf, Bool.and_false, Bool.false_eq_true, if_false]

theorem execBlockComplete_next (k : Fin 16) (bad : Bool) (s : State) : ∃ t, execBlockComplete k bad s = .next t := by
  unfold execBlockComplete
  split
  · exact ⟨_, rfl⟩
  · split
    · exact ⟨_, rfl⟩
    · exact ⟨_, rfl⟩

/-- The bytes of the block that is complete. -/
def State.doneBytes (s : State) (c : ConvCfg) (k : Fin 16) : List Byte :=
  blockBytes k.val (c.ent k.val) s.wav.conv[k] s.wav.conv[k].seq s.wav.conv[k].gap

theorem State.doneBytes_length (s : State) (c : ConvCfg) (k : Fin 16) : (s.doneBytes c k).length = 1088 :=
  blockBytes_length _ _ _ _ _

/-- With the Analog region isolated the block is dropped (16 R454). -/
theorem State.finishBlock_isolated (hout : s.analogOut = true) :
    s.finishBlock c k bad = s.dropBlock k s.wav.conv[k].seq := by
  unfold State.finishBlock
  exact if_pos hout

section
variable (hout : s.analogOut = false)
include hout

/-- A full queue drops the block. -/
theorem State.finishBlock_crowded (ho : s.wav.outage.on = false) (hq : 30 ≤ s.wav.conv[k].queue.length) :
    s.finishBlock c k bad = (s.dropBlock k s.wav.conv[k].seq).tickFault 0x0410 (srcConv k.val) 5 k.val 0 := by
  unfold State.finishBlock
  simp only [hout, ho, hq, Bool.false_eq_true, if_false, if_true]

/-- Its readers take the block. -/
theorem State.finishBlock_taken (ho : s.wav.outage.on = false) (hq : s.wav.conv[k].queue.length < 30) :
    s.finishBlock c k bad = s.takeBlock c k s.wav.conv[k].seq (s.doneBytes c k) bad := by
  unfold State.finishBlock
  simp only [hout, ho, Nat.not_le.2 hq, Bool.false_eq_true, if_false]
  rfl

/-- In an outage a converter that the ring does not keep drops its block (10 R288). -/
theorem State.finishBlock_unkept (ho : s.wav.outage.on = true)
    (hk : c.outage = false ∨ bitOf c.outageMask k.val = false) (hd : s.drainsConv k = false) :
    s.finishBlock c k bad = s.dropBlock k s.wav.conv[k].seq := by
  have hkeep : (c.outage && bitOf c.outageMask k.val) = false := by
    rcases hk with h | h
    · rw [h, Bool.false_and]
    · rw [h, Bool.and_false]
  unfold State.finishBlock
  simp only [hout, ho, hkeep, hd, Bool.false_eq_true, if_false, if_true]

end

/-! ### A block in the outage ring -/

/-- The outage ring's next slot lies behind its header. -/
theorem outageBase_add_le_outageSlot (i : Nat) : outageBase + 64 ≤ outageSlot i := Nat.le_add_right _ _

theorem Outage.header_length (o : Outage) : o.header.length = 64 := fitBytes_length 64 _

/-- The bytes of a block and then the header are written. -/
theorem State.outageWrite_eq (s : State) (time0 : Nat) (bs : List Byte) : s.outageWrite false time0 bs =
    (((s.writeB (outageSlot s.wav.outage.next) bs).updWav fun w => { w with
      outage := s.wav.outage.after time0 }).writeB outageBase (s.wav.outage.after time0).header).count srcWave wOutage
        1 := by
  unfold State.outageWrite
  exact if_neg Bool.false_ne_true

theorem State.outageWrite_wav (s : State) (time0 : Nat) (bs : List Byte) :
    (s.outageWrite false time0 bs).wav = { s.wav with outage := s.wav.outage.after time0 } := by
  rw [State.outageWrite_eq, State.count_wav]
  rfl

/-- The block stands in the ring's next slot. -/
theorem State.outageWrite_reads (hm : Memory.wf s.mem = true) (time0 : Nat) {bs : List Byte} (hb : bs.length = 1088) :
    (s.outageWrite false time0 bs).readB (outageSlot s.wav.outage.next) 1088 = bs := by
  have hmem : (s.outageWrite false time0 bs).mem = SMap.setRange 0 (SMap.setRange 0 s.mem
      (outageSlot s.wav.outage.next) bs) outageBase (s.wav.outage.after time0).header := by
    rw [State.outageWrite_eq]
    exact (State.count_via (M := [.cnt]) (.refl _ _) (by decide)).only .mem (by decide)
  have hslot : Memory.wf (s.writeB (outageSlot s.wav.outage.next) bs).mem = true := SMap.wf_setRange _ _ hm
  have hapart := outageBase_add_le_outageSlot s.wav.outage.next
  rw [State.readB_congr (s := s.writeB (outageSlot s.wav.outage.next) bs) hslot (hmem ▸ SMap.wf_setRange _ _ hslot)]
  · rw [← hb]
    exact SMap.getRange_setRange hm _ bs
  · intro i hi
    rw [hmem, State.writeB_mem, SMap.get_setRange (SMap.wf_setRange _ _ hm), if_neg]
    rw [Outage.header_length]
    omega

/-- What the outage ring takes of a block: nothing of one that a parity error spoils. -/
def State.outageBytes (s : State) (c : ConvCfg) (k : Fin 16) (bad : Bool) : List Byte :=
  if bad then zeroBytes 1088 else s.doneBytes c k

theorem State.outageBytes_length (s : State) (c : ConvCfg) (k : Fin 16) (bad : Bool) :
    (s.outageBytes c k bad).length = 1088 := by
  unfold State.outageBytes
  split
  · exact zeroBytes_length 1088
  · exact s.doneBytes_length c k

/-- A block as the outage ring takes it. -/
def State.outaged (s : State) (c : ConvCfg) (k : Fin 16) (bad : Bool) : State :=
  s.outageWrite false (fieldLe (s.doneBytes c k) 8 8) (s.outageBytes c k bad)

section
variable (hout : s.analogOut = false) (ho : s.wav.outage.on = true) (hk : c.outage = true)
  (hmask : bitOf c.outageMask k.val = true) (hfirst : c.keepFirst = false)
include hout ho hk hmask hfirst

/-- In an outage a block of a converter that the ring keeps goes into it; its SEQ is spent (10 R288). -/
theorem State.finishBlock_kept : ∃ g : Conv → Conv, (∀ v, (g v).seq = s.wav.conv[k].seq + 1) ∧
    s.finishBlock c k bad = ((s.outaged c k bad).updConv k g).count (srcConv k.val) wBlocks 1 := by
  unfold State.finishBlock
  simp only [hout, ho, hk, hmask, hfirst, Bool.and_self, Bool.false_eq_true, if_false, if_true]
  by_cases hd : (s.outaged c k bad).drainsConv k = true
  · exact ⟨fun v => { v.after s.wav.conv[k].seq with
      gap := false, queue := v.queue ++ [⟨s.wav.conv[k].seq, s.doneBytes c k, bad, true, none, false⟩] },
      fun _ => rfl, if_pos hd⟩
  · exact ⟨fun v => { v.after s.wav.conv[k].seq with gap := false }, fun _ => rfl, if_neg hd⟩

/-- The block stands in the outage ring's next slot, and the ring has moved on. -/
theorem State.finishBlock_outage (hm : Memory.wf s.mem = true) :
    (s.finishBlock c k bad).wav.conv[k].seq = s.wav.conv[k].seq + 1 ∧
      (s.finishBlock c k bad).wav.outage = s.wav.outage.after (fieldLe (s.doneBytes c k) 8 8) ∧
      (s.finishBlock c k bad).readB (outageSlot s.wav.outage.next) 1088 = s.outageBytes c k bad ∧
      State.Only [.mem, .cnt, .wav] s (s.finishBlock c k bad) := by
  obtain ⟨g, hg, hfinish⟩ := State.finishBlock_kept (bad := bad) hout ho hk hmask hfirst
  have hv : State.Via [.cnt, .wav] (s.outaged c k bad) (s.finishBlock c k bad) := by
    rw [hfinish]
    exact State.count_via (State.updConv_via (.refl _ _) (by decide)) (by decide)
  have hwav : (s.finishBlock c k bad).wav = ((s.outaged c k bad).updConv k g).wav := by
    rw [hfinish, State.count_wav]
  have hmem : (s.finishBlock c k bad).mem = (s.outaged c k bad).mem := hv.only .mem (by decide)
  refine ⟨?_, ?_, ?_, ?_⟩
  · rw [hwav, State.updConv_get, if_pos rfl, hg]
  · rw [hwav]
    exact congrArg Wav.outage (s.outageWrite_wav _ (s.outageBytes c k bad))
  · rw [← State.outageWrite_reads hm (fieldLe (s.doneBytes c k) 8 8) (s.outageBytes_length c k bad)]
    unfold State.readB
    rw [hmem]
    rfl
  · exact ((State.outageWrite_via (M := [.mem, .cnt, .wav]) (.refl _ s) (by decide)).upd hv (by decide)).frame

end

/-! ### Readers of a block -/

/-- A block that its queue takes. -/
def State.queued (s : State) (c : ConvCfg) (k : Fin 16) (seq : Nat) (bs : List Byte) (bad : Bool) : State :=
  let hist := if bitOf (c.ent k.val).readers 2 then s.histAt c k.val seq else none
  s.updConv k fun v => { v.after seq with
    gap := false
    queue := if bitOf (c.ent k.val).readers 1 || hist.isSome then
      v.queue ++ [⟨seq, bs, bad, bitOf (c.ent k.val).readers 1, hist, false⟩] else v.queue }

variable {seq : Nat} {bs : List Byte}

theorem State.takeBlock_unread (hr : bitOf (c.ent k.val).readers 0 = false) :
    s.takeBlock c k seq bs bad = (s.queued c k seq bs bad).count (srcConv k.val) wBlocks 1 := by
  unfold State.takeBlock
  simp only [hr, Bool.false_eq_true, if_false]
  rfl

/-- A block that is taken as its region gets it. -/
def State.delivered (s : State) (c : ConvCfg) (k : Fin 16) (seq : Nat) (bs : List Byte) (bad : Bool) : Bool × State :=
  ((s.queued c k seq bs bad).count (srcConv k.val) wBlocks 1).regionDeliver (fin16 (c.ent k.val).facet)
    (fin16 (c.ent k.val).region) (1000 + k.val) bs (if bad then List.range 34 else [])

theorem State.takeBlock_read (hr : bitOf (c.ent k.val).readers 0 = true) : s.takeBlock c k seq bs bad =
    if (s.delivered c k seq bs bad).1 then (s.delivered c k seq bs bad).2
    else (s.delivered c k seq bs bad).2.count (srcConv k.val) wRegion 1 := by
  unfold State.takeBlock
  simp only [hr, if_true]
  rfl

/-- Delivery to a region leaves the waveform unit. -/
theorem State.takeBlock_wav (s : State) (c : ConvCfg) (k : Fin 16) (seq : Nat) (bs : List Byte) (bad : Bool) :
    (s.takeBlock c k seq bs bad).wav = (s.queued c k seq bs bad).wav := by
  cases hr : bitOf (c.ent k.val).readers 0 with
  | false => rw [State.takeBlock_unread hr, State.count_wav]
  | true =>
    have hdelivered : (s.delivered c k seq bs bad).2.wav = (s.queued c k seq bs bad).wav :=
      ((State.regionDeliver_via (M := [.freeCtr, .upsets, .mem, .poison, .wbQueue, .cnt, .facets]) (.refl _ _)
        (by decide)).only .wav (by decide)).trans (State.count_wav _ _ _ _)
    rw [State.takeBlock_read hr]
    split
    · exact hdelivered
    · exact (State.count_wav _ _ _ _).trans hdelivered

/-! ### What the rows change -/

theorem execBlockComplete_only (k : Fin 16) (bad : Bool) (s : State) : ∃ t, execBlockComplete k bad s = .next t ∧
    State.Only [.freeCtr, .upsets, .mem, .poison, .wbQueue, .cnt, .facets, .wav, .host, .err] s t :=
  (execBlockComplete_via (M := [.freeCtr, .upsets, .mem, .poison, .wbQueue, .cnt, .facets, .wav, .note, .err])
    (.refl _ s) (by decide)).next_only (execBlockComplete_next k bad s)

theorem execHistoryWrite_only (k : Fin 16) (s : State) : ∃ t, execHistoryWrite k s = .next t ∧
    State.Only [.out, .upsets, .mem, .poison, .wbQueue, .cnt, .hbm, .wav, .host] s t :=
  (execHistoryWrite_via (M := [.out, .upsets, .mem, .ring, .poison, .wbQueue, .cnt, .hbm, .wav, .note])
    (.refl _ s) (by decide)).next_only ⟨_, rfl⟩

end
end Sys2Proof.Machine
end

section
namespace Sys2Proof.Machine

/-! ### HISTORY_WRITE: the block that is written (10 R283) -/

section
variable {s t u : State} {k : Fin 16} {b : Block} {a n : Nat} {x : Stalled}

/-- A block as it lands in the history ring. -/
def Block.landing (b : Block) (k : Fin 16) (a : Nat) : Stalled :=
  ⟨.history k.val, a, b.bytes, if b.bad then List.range 34 else [], none⟩

/-- `n` bytes are charged, the block is written and its history reader has taken it; the windows have not been looked
at. -/
def State.blockWritten (s : State) (n : Nat) (k : Fin 16) (b : Block) (a : Nat) : State :=
  ((s.charged n).land (b.landing k a)).updConv k fun v => v.histTaken b

/-- The windows are looked at. -/
def State.wavesClosed (s : State) : State := (s.wav.cfg.elim s s.closeWaves).closeOld

theorem execHistoryWrite_writes (hb : s.wav.conv[k].queue.find? (·.hist.isSome) = some b) (ha : b.hist = some a)
    (ho : s.wav.outage.on = false) (hr : s.isReady 4 = true) (he : s.edgeOut = false)
    (hg : s.grants (.history k.val) 1088 3) : execHistoryWrite k s = .next (s.blockWritten 1088 k b a).wavesClosed := by
  unfold execHistoryWrite State.historyBlock
  rw [hb]
  simp only [ho, hr, he, State.bucketPass_granted hg, ha, Option.getD_some, Bool.not_true, Bool.or_false,
    Bool.false_eq_true, if_false]
  rfl

theorem State.landed_via (s : State) (n : Nat) (k : Fin 16) (b : Block) (a : Nat) :
    State.Via [.upsets, .mem, .poison, .wbQueue, .cnt, .hbm, .note] s ((s.charged n).land (b.landing k a)) :=
  State.land_via ((s.charged_via n).mono (by decide)) (by decide)

theorem State.blockWritten_wav (s : State) (n : Nat) (k : Fin 16) (b : Block) (a : Nat) :
    (s.blockWritten n k b a).wav = (s.updConv k fun v => v.histTaken b).wav := by
  unfold State.blockWritten State.updConv State.setConv
  rw [State.updWav_wav, State.updWav_wav, (s.landed_via n k b a).only .wav (by decide)]

theorem State.blockWritten_tk (s : State) (n : Nat) (k : Fin 16) (b : Block) (a : Nat) :
    (s.blockWritten n k b a).tk = s.tk :=
  (s.landed_via n k b a).only .tk (by decide)

theorem State.blockWritten_bucket (s : State) (n : Nat) (k : Fin 16) (b : Block) (a : Nat) :
    (s.blockWritten n k b a).hbm.bucket = s.hbm.bucket - n :=
  (congrArg Prod.snd ((s.charged n).land_flow (b.landing k a))).trans (congrArg Hbm.bucket (s.charged_hbm n))

theorem State.wakeRange_poison (s : State) (a n : Nat) : (s.wakeRange a n).hbm.poison = s.hbm.poison := by
  unfold State.wakeRange
  rfl

theorem State.wakeRange_writeB (s : State) (a n m : Nat) (bs : List Byte) :
    (s.wakeRange a n).writeB m bs = (s.writeB m bs).wakeRange a n := by
  unfold State.wakeRange
  rfl

/-- Clean bytes for HBM without poison or stored errors land as they are. -/
theorem State.land_clean (hn : x.bytes ≠ []) (hw : s.hbmWritable x.addr x.bytes.length = true)
    (hp : placeOf x.addr = .hbm) (hb : x.bads = []) (hc : s.clean) (ht : s.hbm.poison = []) :
    State.Via [.cnt, .hbm] (s.writeB x.addr x.bytes) (s.land x) := by
  obtain ⟨hpoison, hupsets⟩ := hc
  have hwake : State.Via [.hbm] s (s.wakeRange x.addr x.bytes.length) := State.wakeRange_via (.refl _ s) (by decide)
  have hrun : (s.wakeRange x.addr x.bytes.length).cleanRun x.addr (x.bytes.length / 32) = true :=
    State.cleanRun_clean ⟨(hwake.only .poison (by decide)).trans hpoison,
      (hwake.only .upsets (by decide)).trans hupsets⟩ _ _
  have hdev : s.writeDev x.addr x.bytes x.bads =
      ((s.writeB x.addr x.bytes).wakeRange x.addr x.bytes.length, false) := by
    rw [← State.wakeRange_writeB]
    unfold State.writeDev
    rw [hp]
    simp only [hb, State.wakeRange_poison, ht, hrun, List.isEmpty_nil, Bool.and_self, if_true]
  unfold State.land
  extract_lets n
  rw [if_neg (by simp [n, hn, hw]), hdev]
  exact State.markWrite_via (State.countPages_via (State.wakeRange_via (.refl _ _) (by decide)) (by decide)) (by decide)

/-- A block without errors stands in the history ring, and no record is placed. -/
theorem State.blockWritten_told (hb : b.bad = false) (hbytes : b.bytes ≠ []) (hp : placeOf a = .hbm)
    (hw : s.hbmWritable a b.bytes.length = true) (hc : s.clean) (ht : s.hbm.poison = []) :
    (s.blockWritten n k b a).mem = SMap.setRange 0 s.mem a b.bytes ∧ (s.blockWritten n k b a).host = s.host := by
  have hch := s.charged_via n
  have hland : State.Via [.cnt, .hbm] ((s.charged n).writeB a b.bytes) ((s.charged n).land (b.landing k a)) := by
    refine State.land_clean (x := b.landing k a) hbytes ?_ hp (if_neg (by rw [hb]; exact Bool.false_ne_true)) ?_ ?_
    · rw [← hw]
      exact hch.hbmWritable (by rw [State.charged_hbm]) (by decide) a _
    · exact ⟨(hch.only .poison (by decide)).trans hc.1, (hch.only .upsets (by decide)).trans hc.2⟩
    · rw [State.charged_hbm]
      exact ht
  have hmem : (s.blockWritten n k b a).mem = ((s.charged n).writeB a b.bytes).mem := hland.only .mem (by decide)
  have hhost : (s.blockWritten n k b a).host = (s.charged n).host := hland.only .host (by decide)
  refine ⟨?_, hhost.trans (hch.only .host (by decide))⟩
  rw [hmem, State.writeB_mem, hch.only .mem (by decide)]

/-! ### The windows after a write (10 R286) -/

theorem State.closeOld_wav (s : State) : s.closeOld.wav =
    { s.wav with oldWindows := s.wav.oldWindows.filter (fun o => !o.written s.wav) } := by
  unfold State.closeOld
  extract_lets done
  exact (foldl_via (M := [.out, .ring, .cnt, .note]) (.refl _ _) fun u o hu =>
    State.waveRecord_via hu (by decide)).only .wav (by decide)

theorem State.closeOld_windows (s : State) : s.closeOld.wav.windows = s.wav.windows := by
  rw [State.closeOld_wav]

/-- Without windows whose converters have stopped none is reported. -/
theorem State.closeOld_none (h : s.wav.oldWindows = []) : s.closeOld.host = s.host := by
  unfold State.closeOld
  rw [h]
  rfl

theorem State.wavesClosed_via (s : State) : State.Via [.out, .ring, .cnt, .wav, .note] s s.wavesClosed := by
  unfold State.wavesClosed
  refine State.closeOld_via ?_ (by decide)
  cases s.wav.cfg with
  | none =>
    rw [Option.elim_none]
    exact .refl _ s
  | some c =>
    rw [Option.elim_some]
    exact State.closeWaves_via (.refl _ s) (by decide)

theorem State.wavesClosed_conv (s : State) : s.wavesClosed.wav.conv = s.wav.conv := by
  unfold State.wavesClosed
  rw [State.closeOld_wav]
  cases s.wav.cfg with
  | none => rw [Option.elim_none]
  | some c => rw [Option.elim_some, (s.closeWaves_watches c).conv]

/-- What is written stands while the windows are looked at, but where records go. -/
theorem State.wavesClosed_reads (hm : Memory.wf s.mem = true) {n : Nat} (h : ∀ i, i < n → ¬ s.recordByte (a + i)) :
    s.wavesClosed.readB a n = s.readB a n := by
  have htold : State.Told (fun _ => False) s s.wavesClosed := s.wavesClosed_via.quietly
  exact State.readB_congr hm (htold.wf hm) fun i hi => htold.mem hm _ (h i hi) id

end
end Sys2Proof.Machine
end

section
namespace Sys2Proof.Machine

/-! ### Windows close one after the other (10 R286) -/

section
variable {s t u : State} {c : ConvCfg} {w i : Fin 8} {x : WaveWin} {last n : Nat}

/-- What the other windows leave to window `w`: itself, the converters and TIME's rate. -/
structure State.Besides (w : Fin 8) (s t : State) : Prop where
  window : t.wav.windows[w] = s.wav.windows[w]
  conv : t.wav.conv = s.wav.conv
  tk : t.tk = s.tk

theorem State.Besides.refl (w : Fin 8) (s : State) : State.Besides w s s := ⟨rfl, rfl, rfl⟩

theorem State.Besides.trans (h : State.Besides w s t) (h' : State.Besides w t u) : State.Besides w s u :=
  ⟨h'.window.trans h.window, h'.conv.trans h.conv, h'.tk.trans h.tk⟩

theorem State.setWindow_get (s : State) (i w : Fin 8) (x : Option WaveWin) :
    (s.setWindow i x).wav.windows[w] = if i = w then x else s.wav.windows[w] := by
  simp only [State.setWindow, State.updWav_wav, Fin.getElem_fin, Vector.getElem_set, Fin.ext_iff]

/-- The converters of a window. -/
def ConvCfg.winConvs (c : ConvCfg) (w : Fin 8) : List Nat := (List.range 16).filter (bitOf (c.win w.val).convMask)

/-- A window is complete with `last` its last block. -/
def State.waveDone (s : State) (c : ConvCfg) (w : Fin 8) (x : WaveWin) (last : Nat) : Prop :=
  s.waveLast (c.winConvs w) (x.stop * 256) = some last ∧ ∀ i ∈ c.winConvs w, last < (s.wav.conv[fin16 i]).histNext

/-- The record of a complete window. -/
def State.waveReported (s : State) (c : ConvCfg) (w : Fin 8) (x : WaveWin) (last : Nat) : State :=
  (s.setWindow w none).waveRecord w.val c.histPart (c.win w.val).convMask x last (s.waveGap (c.winConvs w) x.first last)

theorem State.closeWave_done (hx : s.wav.windows[w] = some x) (hd : s.waveDone c w x last) :
    s.closeWave c w = s.waveReported c w x last := by
  obtain ⟨hlast, hall⟩ := hd
  unfold State.closeWave
  rw [hx]
  dsimp only
  rw [show s.waveLast ((List.range 16).filter (bitOf (c.win w.val).convMask)) (x.stop * 256) = some last from hlast]
  exact if_pos (List.all_eq_true.2 fun i hi => decide_eq_true (hall i hi))

theorem State.closeWave_open (h : ∀ x last, s.wav.windows[w] = some x → ¬ s.waveDone c w x last) :
    s.closeWave c w = s := by
  unfold State.closeWave
  split
  · rfl
  next x hx =>
    extract_lets e ks
    split
    · rfl
    next last hlast =>
      refine if_neg fun hall => h x last hx ⟨hlast, fun i hi => ?_⟩
      exact of_decide_eq_true (List.all_eq_true.1 hall i hi)

theorem State.waveReported_via (s : State) (c : ConvCfg) (w : Fin 8) (x : WaveWin) (last : Nat) :
    State.Via [.out, .ring, .cnt, .note] (s.setWindow w none) (s.waveReported c w x last) :=
  State.waveRecord_via (.refl _ _) (by decide)

theorem State.waveReported_besides (s : State) (c : ConvCfg) (x : WaveWin) (last : Nat) (hi : i ≠ w) :
    State.Besides w s (s.waveReported c i x last) := by
  have hv := s.waveReported_via c i x last
  have hwav : (s.waveReported c i x last).wav = (s.setWindow i none).wav := hv.only .wav (by decide)
  refine ⟨?_, ?_, hv.only .tk (by decide)⟩
  · rw [hwav, State.setWindow_get, if_neg hi]
  · rw [hwav]
    rfl

theorem State.waveReported_window (s : State) (c : ConvCfg) (w : Fin 8) (x : WaveWin) (last : Nat) :
    (s.waveReported c w x last).wav.windows[w] = none := by
  rw [(s.waveReported_via c w x last).only .wav (by decide), State.setWindow_get, if_pos rfl]

/-- A window that closes is beside the others. -/
theorem State.closeWave_besides (s : State) (c : ConvCfg) (hi : i ≠ w) : State.Besides w s (s.closeWave c i) := by
  by_cases h : ∃ x last, s.wav.windows[i] = some x ∧ s.waveDone c i x last
  · obtain ⟨x, last, hx, hd⟩ := h
    rw [State.closeWave_done hx hd]
    exact s.waveReported_besides c x last hi
  · rw [State.closeWave_open fun x last hx hd => h ⟨x, last, hx, hd⟩]
    exact .refl w s

/-- A window that closes reports once. -/
theorem State.closeWave_queues (s : State) (c : ConvCfg) (i : Fin 8) : State.Queues 0 1 s (s.closeWave c i) := by
  by_cases h : ∃ x last, s.wav.windows[i] = some x ∧ s.waveDone c i x last
  · obtain ⟨x, last, hx, hd⟩ := h
    rw [State.closeWave_done hx hd]
    exact (State.Queues.of_host (t := s.setWindow i none) rfl rfl 1).trans (State.eventAt_queues _ _ _ _ _ _ _ _)
  · rw [State.closeWave_open fun x last hx hd => h ⟨x, last, hx, hd⟩]
    exact (State.Queues.of_host rfl rfl 0).mono le_rfl (Nat.zero_le 1)

/-- Window `w` is looked at among the others: those before and behind it leave it, and seven of them report. -/
theorem State.closeWaves_turn (s : State) (c : ConvCfg) (w : Fin 8) : ∃ u, State.Besides w s u ∧ State.Queues 0 7 s u ∧
    State.Besides w (u.closeWave c w) (s.closeWaves c) ∧ State.Queues 0 7 (u.closeWave c w) (s.closeWaves c) := by
  have hfin (j : Nat) (hj : j < 8) (hjw : j ≠ w.val) : fin8 j ≠ w := fun h => hjw (by
    have h := congrArg Fin.val h
    exact (Nat.mod_eq_of_lt hj).symm.trans h)
  have hw : fin8 w.val = w := Fin.ext (Nat.mod_eq_of_lt w.isLt)
  obtain ⟨l, r, hlr⟩ := List.append_of_mem (List.mem_range.2 w.isLt)
  have hnd : (l ++ w.val :: r).Nodup := hlr ▸ List.nodup_range
  have hlt : ∀ j ∈ l ++ w.val :: r, j < 8 := fun j hj => List.mem_range.1 (hlr ▸ hj)
  have hlen : l.length + (r.length + 1) = 8 := by
    rw [← List.length_cons, ← List.length_append, ← hlr, List.length_range]
  obtain ⟨-, hwr, hd⟩ := List.nodup_append.1 hnd
  have hrun (m : List Nat) (hm : ∀ j ∈ m, j < 8) (hwm : w.val ∉ m) (u : State) :
      State.Besides w u (m.foldl (fun s j => s.closeWave c (fin8 j)) u) :=
    List.foldlRecOn (motive := fun v => State.Besides w u v) m _ (.refl w u) fun v hv j hj =>
      hv.trans (v.closeWave_besides c (hfin j (hm j hj) fun e => hwm (e ▸ hj)))
  have hqueues (m : List Nat) (hm : m.length ≤ 7) (u : State) :
      State.Queues 0 7 u (m.foldl (fun s j => s.closeWave c (fin8 j)) u) :=
    (foldl_queues m (fun v j => v.closeWave_queues c (fin8 j)) u).mono le_rfl (by omega)
  unfold State.closeWaves
  rw [hlr, List.foldl_append, List.foldl_cons, hw]
  exact ⟨_, hrun l (fun j hj => hlt j (List.mem_append_left _ hj)) (fun hl => hd _ hl _ List.mem_cons_self rfl) s,
    hqueues l (by omega) s,
    hrun r (fun j hj => hlt j (List.mem_append_right _ (List.mem_cons_of_mem _ hj))) (List.nodup_cons.1 hwr).1 _,
    hqueues r (by omega) _⟩

/-- Whether a window is complete depends on the converters alone. -/
theorem State.Besides.waveDone (h : State.Besides w s t) : t.waveDone c w x last ↔ s.waveDone c w x last := by
  unfold State.waveDone State.waveLast
  rw [h.conv]

/-- A complete window is closed. -/
theorem State.closeWaves_done (hx : s.wav.windows[w] = some x) (hd : s.waveDone c w x last) :
    (s.closeWaves c).wav.windows[w] = none := by
  obtain ⟨u, hu, -, hclosed, -⟩ := s.closeWaves_turn c w
  rw [hclosed.window, State.closeWave_done (hu.window.trans hx) (hu.waveDone.2 hd), State.waveReported_window]

/-- Any other window stays open. -/
theorem State.closeWaves_open (hx : s.wav.windows[w] = some x) (hd : ∀ last, ¬ s.waveDone c w x last) :
    (s.closeWaves c).wav.windows[w] = some x := by
  obtain ⟨u, hu, -, hclosed, -⟩ := s.closeWaves_turn c w
  have hopen : u.closeWave c w = u := State.closeWave_open fun y last hy h => by
    obtain rfl := Option.some.inj ((hu.window.trans hx).symm.trans hy)
    exact hd last (hu.waveDone.1 h)
  rw [hclosed.window, hopen, hu.window, hx]

/-- The WAVE_WINDOW record of a window, held (10 R286). -/
def State.waveHeld (s : State) (c : ConvCfg) (w : Fin 8) (x : WaveWin) (last q : Nat) : EventRec :=
  ⟨0x0013, srcInput x.input, q, x.time, s.tickOf x.time, 4, (last - x.first + 1) * 1088 * (c.winConvs w).length,
    leBytes 4 c.histPart ++ leBytes 2 (c.win w.val).convMask ++ leBytes 1 w.val ++
      leBytes 1 ((if x.short then 1 else 0) + (if s.waveGap (c.winConvs w) x.first last then 2 else 0)) ++
      leBytes 4 x.first ++ leBytes 4 last ++ leBytes 8 x.time⟩

theorem State.Besides.waveHeld (h : State.Besides w s t) (q : Nat) :
    t.waveHeld c w x last q = s.waveHeld c w x last q := by
  unfold State.waveHeld State.waveGap State.tickOf
  rw [h.conv, h.tk]

/-- The record of a complete window is held while the event ring has no room. -/
theorem State.closeWaves_held (hx : s.wav.windows[w] = some x) (hd : s.waveDone c w x last) (hroom : s.evtRoom = false)
    (hlen : s.host.held.length ≤ 4000) : ∃ q, s.waveHeld c w x last q ∈ (s.closeWaves c).host.held := by
  obtain ⟨u, hu, hqu, hclosed, hqt⟩ := s.closeWaves_turn c w
  obtain ⟨huroom, hulen, -⟩ := hqu hroom (by omega)
  have hheld : (u.closeWave c w).host.held =
      u.host.held ++ [u.waveHeld c w x last (u.host.seqs.get (srcInput x.input))] := by
    rw [State.closeWave_done (hu.window.trans hx) (hu.waveDone.2 hd)]
    exact State.eventAt_held (s := u.setWindow w none) huroom (by
      show u.host.held.length < 4096
      omega)
  obtain ⟨hvroom, hvlen, -⟩ := (u.closeWave_queues c w) huroom (by omega)
  obtain ⟨-, -, hkept⟩ := hqt hvroom (by omega)
  refine ⟨u.host.seqs.get (srcInput x.input), hkept _ ?_⟩
  rw [hheld, hu.waveHeld]
  exact List.mem_append_right _ List.mem_cons_self

end
end Sys2Proof.Machine
end

section
namespace Sys2Proof.Machine

/-! ### The windows as the block that is written finds them -/

section
variable {s t : State} {c : ConvCfg} {w : Fin 8} {x : WaveWin} {k : Fin 16} {b : Block} {a last m n : Nat}

theorem State.waveLast_congr (h : ∀ j : Fin 16, t.wav.conv[j].starts = s.wav.conv[j].starts) :
    t.waveLast = s.waveLast := by
  funext ks e
  unfold State.waveLast Conv.blockOf
  simp only [h]

theorem State.waveGap_congr (h : ∀ j : Fin 16, t.wav.conv[j].drops = s.wav.conv[j].drops) : t.waveGap = s.waveGap := by
  funext ks first last
  unfold State.waveGap
  simp only [h]

theorem State.blockWritten_conv (s : State) (n : Nat) (k : Fin 16) (b : Block) (a : Nat) (j : Fin 16) :
    (s.blockWritten n k b a).wav.conv[j] = if k = j then s.wav.conv[j].histTaken b else s.wav.conv[j] := by
  rw [State.blockWritten_wav, State.updConv_get]

theorem State.blockWritten_starts (s : State) (n : Nat) (k : Fin 16) (b : Block) (a : Nat) (j : Fin 16) :
    (s.blockWritten n k b a).wav.conv[j].starts = s.wav.conv[j].starts ∧
      (s.blockWritten n k b a).wav.conv[j].drops = s.wav.conv[j].drops := by
  rw [State.blockWritten_conv]
  split
  · exact ⟨rfl, rfl⟩
  · exact ⟨rfl, rfl⟩

/-- The block that a converter's history reader takes next. -/
def State.nextTaken (s : State) (k : Fin 16) (b : Block) (i : Nat) : Nat :=
  if fin16 i = k then b.seq + 1 else s.wav.conv[fin16 i].histNext

theorem State.blockWritten_next (hb : b.old = false) (i : Nat) :
    (s.blockWritten n k b a).wav.conv[fin16 i].histNext = s.nextTaken k b i := by
  unfold State.nextTaken
  rw [State.blockWritten_conv]
  by_cases h : fin16 i = k
  · rw [if_pos h, if_pos h.symm]
    unfold Conv.histTaken
    rw [hb]
    rfl
  · rw [if_neg h, if_neg (Ne.symm h)]

theorem State.blockWritten_done (hb : b.old = false) : (s.blockWritten n k b a).waveDone c w x last ↔
    s.waveLast (c.winConvs w) (x.stop * 256) = some last ∧ ∀ i ∈ c.winConvs w, last < s.nextTaken k b i := by
  unfold State.waveDone
  rw [State.waveLast_congr fun j => (s.blockWritten_starts n k b a j).1]
  simp only [State.blockWritten_next hb]

theorem State.blockWritten_held (s : State) (n : Nat) (k : Fin 16) (b : Block) (a q : Nat) :
    (s.blockWritten n k b a).waveHeld c w x last q = s.waveHeld c w x last q := by
  unfold State.waveHeld State.tickOf
  rw [State.waveGap_congr fun j => (s.blockWritten_starts n k b a j).2, State.blockWritten_tk]

/-- Faults of a tick are counted, not held. -/
theorem State.tickFault_queues (s : State) (status src region block addr m : Nat) :
    State.Queues m m s (s.tickFault status src region block addr) := by
  unfold State.tickFault State.tickFaultK
  extract_lets hit
  split
  · exact fun hroom _ => ⟨hroom, le_rfl, fun _ h => h⟩
  · exact fun hroom _ => ⟨hroom, le_rfl, fun _ h => h⟩

theorem State.land_queues (s : State) (y : Stalled) (m : Nat) : State.Queues m m s (s.land y) := by
  have hw : State.Via [.upsets, .mem, .poison, .wbQueue, .cnt, .hbm] s (s.writeDev y.addr y.bytes y.bads).1 :=
    State.writeDev_via (.refl _ s) (by decide)
  unfold State.land
  extract_lets n
  split
  · exact .of_host rfl rfl m
  · generalize s.writeDev y.addr y.bytes y.bads = p at hw ⊢
    obtain ⟨s1, lost⟩ := p
    have hmark := (State.markWrite_via (M := [.upsets, .mem, .poison, .wbQueue, .cnt, .hbm]) (a := y.addr) (n := n)
      (State.countPages_via (base := hWrite) (a := y.addr) (n := n) hw (by decide)) (by decide)).queues m
    dsimp only
    split
    · exact hmark.trans (State.tickFault_queues _ _ _ _ _ _ m)
    · exact hmark

theorem State.blockWritten_queues (s : State) (n : Nat) (k : Fin 16) (b : Block) (a m : Nat) :
    State.Queues m m s (s.blockWritten n k b a) :=
  ((s.charged_via n).queues m).trans
    (((s.charged n).land_queues (b.landing k a) m).trans (.of_host rfl rfl m))

/-- A block without errors stands in the history ring after HISTORY_WRITE (10 R283). -/
theorem State.blockWritten_reads (hb : b.bad = false) (hn : b.bytes.length = n) (hp : placeOf a = .hbm)
    (hw : s.hbmWritable a n = true) (hc : s.clean) (ht : s.hbm.poison = []) (hm : Memory.wf s.mem = true)
    (hpos : n ≠ 0) (hrec : ∀ i, i < n → ¬ s.recordByte (a + i)) :
    (s.blockWritten m k b a).wavesClosed.readB a n = b.bytes := by
  subst hn
  have hbytes : b.bytes ≠ [] := List.length_pos_iff.1 (Nat.pos_of_ne_zero hpos)
  obtain ⟨hmem, hhost⟩ := State.blockWritten_told (n := m) (k := k) hb hbytes hp hw hc ht
  have hrec' (i : Nat) (hi : i < b.bytes.length) : ¬ (s.blockWritten m k b a).recordByte (a + i) := by
    unfold State.recordByte State.evtRingSize State.evtSlot
    rw [hhost]
    exact hrec i hi
  rw [State.wavesClosed_reads (hmem ▸ SMap.wf_setRange _ _ hm) hrec']
  unfold State.readB
  rw [hmem]
  exact SMap.getRange_setRange hm a b.bytes

/-! ### The windows after HISTORY_WRITE -/

theorem State.wavesClosed_eq (hc : s.wav.cfg = some c) : s.wavesClosed = (s.closeWaves c).closeOld := by
  unfold State.wavesClosed
  rw [hc, Option.elim_some]

section
variable (hc : s.wav.cfg = some c) (hx : s.wav.windows[w] = some x)
include hc hx

theorem State.blockWritten_window : (s.blockWritten n k b a).wav.cfg = some c ∧
    (s.blockWritten n k b a).wav.windows[w] = some x := by
  rw [State.blockWritten_wav]
  exact ⟨hc, hx⟩

variable (hb : b.old = false)
include hb

/-- A window whose last block is written for its last converter is closed (10 R286). -/
theorem State.blockWritten_closes (hlast : s.waveLast (c.winConvs w) (x.stop * 256) = some last)
    (hall : ∀ i ∈ c.winConvs w, last < s.nextTaken k b i) :
    (s.blockWritten n k b a).wavesClosed.wav.windows[w] = none := by
  obtain ⟨hcfg, hwin⟩ := State.blockWritten_window (n := n) (k := k) (a := a) hc hx
  rw [State.wavesClosed_eq hcfg, State.closeOld_windows]
  exact State.closeWaves_done hwin ((State.blockWritten_done hb).2 ⟨hlast, hall⟩)

/-- Any other window stays open. -/
theorem State.blockWritten_keeps (h : ∀ last, s.waveLast (c.winConvs w) (x.stop * 256) = some last →
    ∃ i ∈ c.winConvs w, s.nextTaken k b i ≤ last) :
    (s.blockWritten n k b a).wavesClosed.wav.windows[w] = some x := by
  obtain ⟨hcfg, hwin⟩ := State.blockWritten_window (n := n) (k := k) (a := a) hc hx
  rw [State.wavesClosed_eq hcfg, State.closeOld_windows]
  refine State.closeWaves_open hwin fun last hd => ?_
  obtain ⟨hlast, hall⟩ := (State.blockWritten_done hb).1 hd
  obtain ⟨i, hi, hle⟩ := h last hlast
  exact absurd (hall i hi) (Nat.not_lt.2 hle)

/-- The record of a window that is closed is held while the event ring has no room. -/
theorem State.blockWritten_reports (hlast : s.waveLast (c.winConvs w) (x.stop * 256) = some last)
    (hall : ∀ i ∈ c.winConvs w, last < s.nextTaken k b i) (hroom : s.evtRoom = false)
    (hlen : s.host.held.length ≤ 4000) (hold : s.wav.oldWindows = []) :
    ∃ q, s.waveHeld c w x last q ∈ (s.blockWritten n k b a).wavesClosed.host.held := by
  obtain ⟨hcfg, hwin⟩ := State.blockWritten_window (n := n) (k := k) (a := a) hc hx
  obtain ⟨hroom', hlen', -⟩ := (s.blockWritten_queues n k b a 0) hroom (by omega)
  obtain ⟨q, hq⟩ := State.closeWaves_held hwin ((State.blockWritten_done hb).2 ⟨hlast, hall⟩) hroom' (by omega)
  have hold' : ((s.blockWritten n k b a).closeWaves c).wav.oldWindows = [] := by
    rw [(State.closeWaves_watches _ c).old, State.blockWritten_wav]
    exact hold
  rw [State.wavesClosed_eq hcfg, State.closeOld_none hold']
  exact ⟨q, s.blockWritten_held n k b a q ▸ hq⟩

end

end
end Sys2Proof.Machine

open Sys2Proof Sys2Proof.Machine

/-- Settles O32: a block that is complete has one way to go, and what its history write places after it leaves the
converters and, but where records go, memory. -/
theorem blocksReachReaders : Obligations.BlocksReachReaders := by
  unfold Obligations.BlocksReachReaders
  refine ⟨fun k bad s => ⟨execBlockComplete_only k bad s, execHistoryWrite_only k s⟩,
    fun k bad c s hc ha => ⟨execBlockComplete_open hc, fun hf => ?_⟩, fun k b a s hb ha ho hr he hg => ?_⟩
  · intro v e bs hist dma queued dropped
    have hexec := execBlockComplete_full (bad := bad) hc ha hf
    refine ⟨fun hout => ?_, fun hout ho hq => ⟨fun hr => ?_, _, hexec, ?_⟩, fun hout ho hq => ?_,
      fun hout ho => ⟨fun hk hd => ?_, fun hk hmask hfirst hm => ⟨_, hexec, ?_⟩⟩⟩
    · refine hexec.trans ?_
      rw [State.finishBlock_isolated hout]
      rfl
    · refine hexec.trans ?_
      rw [State.finishBlock_taken hout ho hq, State.takeBlock_unread hr]
      rfl
    · rw [State.finishBlock_taken hout ho hq, State.takeBlock_wav]
      rfl
    · refine hexec.trans ?_
      rw [State.finishBlock_crowded hout ho hq]
      rfl
    · refine hexec.trans ?_
      rw [State.finishBlock_unkept hout ho hk hd]
      rfl
    · obtain ⟨hseq, houtage, hread, honly⟩ := State.finishBlock_outage (bad := bad) hout ho hk hmask hfirst hm
      refine ⟨hseq, ?_, ?_, hread, honly⟩
      · rw [houtage]
        rfl
      · rw [houtage]
        rfl
  · refine ⟨_, execHistoryWrite_writes hb ha ho hr he hg, ?_, ?_, fun hbad hlen hp hw hcl ht hm hrec => ?_,
      fun c w x hc hold hx => ?_⟩
    · rw [State.wavesClosed_conv, State.blockWritten_conv, if_pos rfl]
    · rw [(State.wavesClosed_via _).only .hbm (by decide), State.blockWritten_bucket]
    · exact State.blockWritten_reads hbad hlen hp hw hcl ht hm (by decide) hrec
    · intro mask ks next
      refine ⟨fun last hlast hall => ⟨State.blockWritten_closes hc hx hold hlast hall,
        fun hroom hlen hnone => State.blockWritten_reports hc hx hold hlast hall hroom hlen hnone⟩, fun h => ?_⟩
      refine State.blockWritten_keeps hc hx hold fun last hlast => ?_
      rcases h with hnone | ⟨last', hlast', hlate⟩
      · exact absurd (hlast.symm.trans hnone) nofun
      · exact Option.some.inj (hlast.symm.trans hlast') ▸ hlate
end
